-- ==== Sys2Proof/Word.lean ====
section
/-! DEFINITION. The word types of the K24 (R11: little-endian, bit 0 least significant) and the conversions between
bytes and words that every other file uses. -/

namespace Sys2Proof

/-- One byte of a message, record or memory structure. -/
abbrev Byte := BitVec 8

/-- One 32-bit word: a register, a message word, a word of a record (R11). -/
abbrev Word := BitVec 32

end Sys2Proof
end

