-- ==== Sys2Proof/Syntax.lean ====
section
/-! DEFINITION. The commands of the K24: one constructor per row of the command table, and the data that they carry.
What the surroundings alone know (a byte read from DRAM, a received frame, a level on a pin, an error that a check finds)
is an operand of the command that brings it. -/

namespace Sys2Proof

/-- Coaches C0 to C15 (R85). -/
abbrev Coach := Fin 16
/-- A context: the value is its ID less 1 (R237). -/
abbrev Ctx := Fin 8
/-- The memory ports 0 to 7 (R202), and in place 8 the initiator, whose requests the surroundings accept and answer in the same way (R203, R211; log 34). -/
abbrev Port := Fin 9
/-- The Tandem ports: 0 upstream, 1 downstream (R270). -/
abbrev LinkPort := Fin 2
/-- The mailbox channels MB0 to MB3, MBS0 and MBS1 (R305). -/
abbrev Chan := Fin 6
/-- Timetable event slots (R54). -/
abbrev Slot := Fin 256
/-- Power domains by their index d (R512). -/
abbrev Dom := Fin 24

/-- The targets of an event source, which are also the users of the digest engine (R351, R427). -/
inductive Target where
  | coachman | strongbox | host
  deriving DecidableEq, Repr

/-- The two processors of the block (R385). -/
inductive Proc where
  | coachman | strongbox
  deriving DecidableEq, Repr

/-- The pins that PD_AON senses itself (R349). -/
inductive SensePin where
  | encA | sheetMark | svcCsN
  deriving DecidableEq, Repr

/-- What the ECC of an SRAM found during the work that a command ends (R87, R156): nothing, errors of one bit that it corrected, or a word with
more wrong bits, which is used as it stands: its location (0 to 3 a carriage, 4 the coach buffer, 5 the Gig SRAM), the number of the 64-bit word, and
the bits of it that are wrong. -/
inductive EccObs where
  | clean
  | corrected (loc n : Nat)
  | uncorrected (loc word flip : Nat)
  deriving DecidableEq, Repr

/-- The border of a layer's input map, which whoever writes the map materialises (R130 to R132): where the padded map lies (the locations as a
mask, address, type, extent of the map itself, row pitch of the padded map and channel groups), the padding amounts, the mode, whether the layer is a
max pooling, and the zero point of the map. -/
structure Border where
  mask : Nat
  base : Nat
  ty : Nat
  height : Nat
  width : Nat
  pitch : Nat
  groups : Nat
  top : Nat
  bottom : Nat
  left : Nat
  right : Nat
  mode : Nat
  maxPool : Bool
  zeroPoint : Int
  deriving DecidableEq, Repr

/-- What the begin of an entry comes with (R89, R132): the stage cycle in which two flits meet on the ring in the entry, if two do, and the ZERO
borders that are written before the first run of the layer whose map they bound. -/
structure BeginObs where
  collision : Option Nat
  borders : List Border
  deriving DecidableEq, Repr

/-- What the end of a drain comes with (R87, R132): what the ECC found, and the borders that copy output values. -/
structure DrainObs where
  ecc : EccObs
  borders : List Border
  deriving DecidableEq, Repr

/-- A coach whose transfers issue, or which saves at a point, and what the ECC of its SRAMs found on the reads (R87). -/
structure IssueObs where
  coach : Coach
  ecc : EccObs
  deriving DecidableEq, Repr

/-- A coach whose stage ends, what the ECC found, and the borders of the map that a POST stage has written (R87, R132). -/
structure EndObs where
  coach : Coach
  ecc : EccObs
  borders : List Border
  deriving DecidableEq, Repr

/-- The channel of a CREATE_CONTEXT, and whether the key that is made for it passes its check (R239, R482). -/
structure CreateObs where
  ch : Chan
  keyOk : Bool
  deriving DecidableEq, Repr

/-- What comes with the release of a tile row: nothing. What the release reads, the stamps of the first line of its window and of its last line (R218) and
the strips of its sides (R287), comes with the responses of the ports. -/
structure RowObs where
  deriving DecidableEq, Repr

/-- A response on a memory port (R204): identifier, status and, for read data, the bytes of one beat. -/
structure MemRsp where
  id : Nat
  status : Fin 4
  data : List Byte
  last : Bool
  deriving DecidableEq, Repr

/-- A frame of the Tandem link as received (R275): header bytes, payload as sent, tag and CRC. -/
structure LinkFrame where
  header : List Byte
  payload : List Byte
  tag : List Byte
  crc : Nat
  deriving DecidableEq, Repr

/-- Why an UP port loses its lock (R274). -/
inductive LockLoss where
  | lock | headers
  deriving DecidableEq, Repr

/-- What is wrong with a received frame (R277). -/
inductive FrameFault where
  | length | type | crc
  deriving DecidableEq, Repr

/-- The bytes of a command block or bounce record, as read from DRAM or the host port (R331, R346). -/
abbrev BlockRead := List Byte

/-- The straps as sampled at power good (R536). -/
structure Straps where
  tandem : Bool
  pos : BitVec 6
  deriving DecidableEq, Repr

/-- What a boot step meets that only the hardware shows (R370, R373, R397): `ok` that the TRNG start-up tests pass at step 4 and that
the fuses of a new device secret read back blown at step 7, `keyOk` that
the outputs of the key ladder pass their consistency checks there (R482), `ports` the memory ports that step 14 trains. -/
structure BootObs where
  ok : Bool
  keyOk : Bool
  ports : BitVec 8
  deriving DecidableEq, Repr

/-- The Coachman's answer to a heartbeat (R388). -/
structure HbView where
  words : List Nat
  deriving DecidableEq, Repr

/-- Where a confirmation of health comes from (R476). -/
inductive HealthSrc where
  | channel (ch : Chan)
  | own (u : Fin 6)
  deriving DecidableEq, Repr

/-- What the writing of a dump met (R501, R506). -/
structure DumpObs where
  errors : Bool
  deriving DecidableEq, Repr


/-- The commands that the surroundings, the units' own events and the firmware send to the block: one constructor per row
of the command table, in the table's order. -/
inductive Instr where
  /-- R14. A host write to a register field that has no row of its own takes effect according to its kind. -/
  | regWrite (addr : Nat) (data : Word) (sec : Bool)
  /-- R15. A read of the _LO register of a pair captures the rest of the value into the snapshot that the next _HI read returns. -/
  | pairLoRead (addr : Nat) (sec : Bool)
  /-- R15. A write to the _LO register of a pair commits the whole wide value in one cycle. -/
  | pairLoWrite (addr : Nat) (data : Word) (sec : Bool)
  /-- R32. A host access that the K24 does not serve gets an error response, reads zero, has no effect and is counted as NOT_SECURE, DOMAIN_OFF or UNMAPPED. -/
  | hostAccessError (write : Bool) (addr : Nat) (beats : Bool) (sec : Bool)
  /-- R36. Writing 1 clears GL_CFG_REJECTS.COUNT and LAST_BLOCK. -/
  | glCntClrCfgRejects
  /-- R36. Writing 1 clears every field of GL_HOST_ERRS. -/
  | glCntClrHostErrs
  /-- R41. An accepted, filtered encoder edge produces a signed count that steps the line divider. -/
  | encEdge (a : Bool) (b : Bool)
  /-- R61. No line boundary for TT_STOP_TO.TIME puts the Timetable in STOP, or sets the rate to 0 in FAULT. -/
  | stopTimeout
  /-- R53. An accepted SHEET_MARK edge is tested and either schedules an epoch at mark + TT_MARK_OFS or is ignored and counted. -/
  | sheetMarkEdge (level : Bool)
  /-- R52. A synthesised mark at the ENABLE line + k × TT_SHEET_LEN schedules an epoch. -/
  | markSynth
  /-- R52. With no mark within TT_SHEET_LEN + WIN lines, a fallback epoch is scheduled and MARK_MISSED is set and counted. -/
  | markFallback
  /-- R53. When TT_LINE reaches a scheduled epoch line, TT_EPOCH increments, TT_EPOCH_LINE is recorded and pending RW-E values apply. -/
  | epochOpen
  /-- R66. An accepted rising edge of ENC_Z checks the net count of the interval against TT_Z_CFG and clears Z_LOST. -/
  | indexEdge
  /-- R66. When the net count reaches 1.5 × TT_Z_CFG.COUNTS without an index edge, Z_LOST is set and ENCODER_FAULT INDEX_LOST is posted. -/
  | indexLost
  /-- R45. TT_CTRL.ENABLE going from 0 to 1 clears the accumulator, the rate intervals and the fault window, and enters CRAWL. -/
  | ttEnable (load : Bool)
  /-- R60. TT_CTRL.ENABLE written 0 enters IDLE, discarding unposted records if TT_BACK is non-zero. -/
  | ttDisable
  /-- R45. TT_CTRL.LOAD copies TT_LINE_SET into TT_LINE if ENABLE was 0 at the start of the cycle. -/
  | ttLoad
  /-- R64. TT_CTRL.CLR_FAULT leaves FAULT for CRAWL or RETURN. -/
  | ttClrFault
  /-- R55. A RELEASE slot fires and releases a tile row of a context to its partition, or counts it as skipped in FAULT. -/
  | slotRelease (n : Slot) (obs : RowObs)
  /-- R58. A DEADLINE slot fires and judges its row as met, waived or missed. -/
  | slotDeadline (n : Slot)
  /-- R55. A SLICE slot fires and ends the current sheet-bound slice of its context. -/
  | slotSlice (n : Slot)
  /-- R55. A SIGNAL slot fires and raises a Timetable event source. -/
  | slotSignal (n : Slot)
  /-- R55. A slot with ACTION NONE or a reserved action fires and disarms with no effect. -/
  | slotNone (n : Slot)
  /-- R83. Writing 1 clears all fields of TT_ENC_ERR. -/
  | ttCntClrEncErr
  /-- R83. Writing 1 clears TT_MARK_CNT. -/
  | ttCntClrMarkCnt
  /-- R83. Writing 1 clears TT_ROW_CNT. -/
  | ttCntClrRowCnt
  /-- R83. Writing 1 clears TT_DL_MISS. -/
  | ttCntClrDlMiss
  /-- R181. A coach begins its next coach-program entry at max(planned start, end of previous entry) once the entry's row is released. -/
  | entryBegin (c : Coach) (obs : BeginObs)
  /-- R182. A GIG entry takes the free Gig engine when it can end before the next foreign planned slot. -/
  | gigEntryBegin (c : Coach)
  /-- R155. A Gig slot runs to completion and frees the engine for the next slot. -/
  | gigSlotEnd (ecc : EccObs)
  /-- R172. At its ISSUE cycle a coach issues a fetch or write within the window's reservation, and any excess beats wait. -/
  | transferIssue (obs : IssueObs)
  /-- R173. A stage waiting at a synchronisation point resumes when its FETCH, WRITE or GIG condition holds, and the wait is counted as late data. -/
  | syncWaitEnd (c : Coach)
  /-- R95. A carriage finishes the passes of a run and moves to the next run, stalling if the other bank is not yet drained. -/
  | carriageRunEnd (c : Coach) (ecc : EccObs)
  /-- R113. The post unit finishes draining an accumulator bank through its output path, and the bank becomes free. -/
  | bankDrainEnd (c : Coach) (obs : DrainObs)
  /-- R166. A stage reaches stage cycle W and ends, letting the coach's next entry begin. -/
  | stageEnd (obs : EndObs)
  /-- R124. Writing 1 clears CA_Cn_BUSY unless confidential mode is set. -/
  | caCntClrBusy (c : Coach)
  /-- R124. Writing 1 clears CA_Cn_STALL_MEM and CA_Cn_STALL_POST. -/
  | caCntClrStall (c : Coach)
  /-- R124. Writing 1 clears CA_Cn_NUMERIC. -/
  | caCntClrNumeric (c : Coach)
  /-- R124. Writing 1 clears CA_Cn_ECC. -/
  | caCntClrEcc (c : Coach)
  /-- R163. Writing 1 clears GG_BUSY. -/
  | ggCntClrBusy
  /-- R163. Writing 1 clears GG_WAIT. -/
  | ggCntClrWait
  /-- R163. Writing 1 clears GG_NUMERIC. -/
  | ggCntClrNumeric
  /-- R163. Writing 1 clears GG_ECC. -/
  | ggCntClrEcc
  /-- R156. A double-bit Gig SRAM error found while no slot runs raises an unattributed GIG_ECC at level COACH. -/
  | gigEccIdle
  /-- R172. A 1,200-cycle memory-port window ends, reservations renew, and transfers past their issue allowance count RES_EXCEED. -/
  | mpWindowEnd
  /-- R204. A read response beat arrives at a memory port, is decrypted if XTS, and is delivered to its destination. -/
  | mpReadResponse (p : Port) (rsp : MemRsp)
  /-- R204. A write-done response completes a write, releasing its source and any HALO fetch waiting on it. -/
  | mpWriteDone (p : Port) (id : Nat) (status : Fin 4)
  /-- R226. When no transaction of a fenced context remains, the fence completes and the Strongbox retires key slot n. -/
  | fenceComplete (n : Ctx)
  /-- R226. At T + 50 µs the remaining transactions of a fenced context are abandoned and counted, and the fence completes. -/
  | fenceDrainTimeout (n : Ctx)
  /-- R485. More than 32 identifiers held on a port, or a request unaccepted for 10 ms, raises MEM_HUNG. -/
  | memHung (p : Port)
  /-- R232. Writing 1 to MP_ERR_INFO.VALID clears the record and MORE. -/
  | mpErrInfoClear
  /-- R233. Writing 1 clears the per-port latency, late, stall, error and discarded counters. -/
  | mpCntClrPorts
  /-- R233. Writing 1 clears MP_Pp_BEATS of every port. -/
  | mpCntClrBeats
  /-- R233. Writing 1 clears MP_RETIRED_DROPS and MP_FENCE.ABANDONED. -/
  | mpCntClrDrops
  /-- R233. Writing 1 clears MP_CTXn_RING of every context. -/
  | mpCntClrRing
  /-- R418. Once all records of a row have arrived, the Strongbox absorbs them into the context's ledger in column order. -/
  | ledgerAbsorbRow (n : Ctx)
  /-- R249. After a slice ends, a coach reaching a preemption point stops issuing for the outgoing context and saves its live list and control state. -/
  | preemptPointReached (obs : IssueObs)
  /-- R249. When every coach's last save beat is accepted, the set is scrubbed and the incoming context's restore begins. -/
  | switchSaveDone (n : Ctx)
  /-- R249. When a coach's last restore beat arrives, it resumes the incoming context at its saved point. -/
  | switchRestoreDone (c : Coach)
  /-- R245. A time-bound slice, or a sheet-bound slice by its fab_cycles limit, expires and starts the switch. -/
  | timeSliceExpire (n : Ctx)
  /-- R262. A coach scrub completes its read-back and increments GL_SCRUB.COUNT. -/
  | scrubEnd (c : Coach) (pass : Bool)
  /-- R259. The 2 × N × 350 ns retire timer ends and sets TIMER_DONE. -/
  | retireTimerExpire (n : Ctx)
  /-- R259. With acknowledgements missing after 10 ms, CONTEXT_RETIRE is sent again, up to three times. -/
  | retireResend (n : Ctx)
  /-- R201. Writing 1 to a CTX bit clears that context's waybill accounting counters. -/
  | glWbCntClr (mask : BitVec 8)
  /-- R272. A port's channel changes or is enabled, and the port enters TRAINING. -/
  | linkChannelChange (p : LinkPort)
  /-- R272. Both lanes gain block lock and deskew, and the port starts sending HELLO. -/
  | linkBlockLock (p : LinkPort)
  /-- R272. Every 50 µs until the peer's HELLO verifies, the HELLO frame is sent again. -/
  | helloRepeat (p : LinkPort)
  /-- R273. A received HELLO is verified and either brings the port UP or puts it in REJECTED for KEY or ROLE. -/
  | helloRx (p : LinkPort) (f : LinkFrame)
  /-- R273. A port not UP 2 ms after training began returns to DOWN. -/
  | linkTrainTimeout (p : LinkPort)
  /-- R273. 10 ms after returning to DOWN, the port starts training again. -/
  | linkRetrainDelay (p : LinkPort)
  /-- R274. An UP port loses lock or sees too many bad headers and returns to TRAINING, aborting any running Tandem job. -/
  | linkLockLost (p : LinkPort) (cause : LockLoss)
  /-- R282. A DISCOVER frame has the block's entry appended and is forwarded, or is turned into CHAIN_TABLE at the end of the chain. -/
  | discoverRx (p : LinkPort) (f : LinkFrame)
  /-- R282. A CHAIN_TABLE is recorded and forwarded, the session key is derived, and CHAIN_CHANGED is posted on change. -/
  | chainTableRx (p : LinkPort) (f : LinkFrame)
  /-- R283. No CHAIN_TABLE is recorded within 10 ms of a port change, so the block enters STANDBY with cause NO_HEAD. -/
  | noHead
  /-- R282. A CONTROL DISCOVER_REQ reaches the head, which originates DISCOVER within 10 µs. -/
  | discoverReqRx (p : LinkPort) (f : LinkFrame)
  /-- R286. A LINE_SYNC is paired with the last own epoch and sets the line and epoch offsets and SYNCED, or clears SYNCED. -/
  | lineSyncRx (p : LinkPort) (f : LinkFrame)
  /-- R288. A received HALO frame is written into the HALO region, or is dropped if it is too old. -/
  | haloRx (p : LinkPort) (f : LinkFrame)
  /-- R288. A strip missing 100 µs after release sends HALO_REQ, up to three times. -/
  | haloReqTimer (n : Ctx) (row : Nat) (side : LinkPort)
  /-- R288. A HALO_REQ makes the sender resend its stored strip. -/
  | haloReqRx (p : LinkPort) (f : LinkFrame)
  /-- R290. The head receives a SUMMARY frame and merges it into the sheet's summary. -/
  | summaryRx (p : LinkPort) (f : LinkFrame)
  /-- R290. A summary missing 256 lines after the head's own sends SUMMARY_REQ, and after the third request the job is aborted with SUMMARY_LOST. -/
  | summaryReqTimer (n : Ctx)
  /-- R290. A SUMMARY_REQ makes a block resend its stored summary. -/
  | summaryReqRx (p : LinkPort) (f : LinkFrame)
  /-- R292. An ABORT is forwarded and, on its first authentic copy, fences the job and posts CHAIN_ABORT. -/
  | abortRx (p : LinkPort) (f : LinkFrame)
  /-- R291. The originator resends its ABORT at 1 µs intervals, three times in all. -/
  | abortRepeat
  /-- R294. A CONTEXT_RETIRE is forwarded and acknowledged, and later bulk frames of that context are dropped. -/
  | contextRetireRx (p : LinkPort) (f : LinkFrame)
  /-- R294. A RETIRE_ACK decrements PEERS_PENDING for each distinct position. -/
  | retireAckRx (p : LinkPort) (f : LinkFrame)
  /-- R295. The 10 ms minimum low time of BYPASS_HOLD ends, so it may rise again. -/
  | bypassHoldMinLow
  /-- R302. Writing 1 clears TL_Pp_ERR and TL_Pp_TRAIN.COUNT. -/
  | tlCntClrPorts
  /-- R302. Writing 1 clears TL_ABORT.COUNT and HELD. -/
  | tlCntClrAbort
  /-- R302. Writing 1 clears TL_DROPS. -/
  | tlCntClrDrops
  /-- R302. Writing 1 clears TL_HALO. -/
  | tlCntClrHalo
  /-- R309. A word written to H2K_DATA is appended to the uncommitted message, or is dropped for overflow or FULL. -/
  | h2kDataWrite (ch : Chan) (data : Word) (sec : Bool)
  /-- R309. COMMIT checks WCOUNT against LEN, then sets FULL and doorbell MSG, or discards the message with BAD_LENGTH. -/
  | h2kCommit (ch : Chan) (sec : Bool)
  /-- R309. DISCARD drops the uncommitted words and sets WCOUNT to 0. -/
  | h2kDiscard (ch : Chan) (sec : Bool)
  /-- R312. A write of H2K_DB_SET sets doorbell bits 3 to 31 for the K24 side. -/
  | h2kDbSet (ch : Chan) (data : Word) (sec : Bool)
  /-- R310. A read of K2H_DATA removes one word, and the last word clears FULL and sets SPACE; an empty read sets UNDERRUN. -/
  | k2hDataRead (ch : Chan) (sec : Bool)
  /-- R325. Writing 1 clears every field of CNT. -/
  | mbCntClrCnt (ch : Chan) (sec : Bool)
  /-- R325. Writing 1 clears ABORT.COUNT. -/
  | mbCntClrAbort (ch : Chan) (sec : Bool)
  /-- R326. A request with an unknown opcode, or one served on another channel, is answered BAD_OPCODE. -/
  | badOpcodeRequest (ch : Chan)
  /-- R327. A deferred command still waiting for the Strongbox after 2 s ends with TIMEOUT. -/
  | deferredTimeout (ch : Chan) (seq : BitVec 8)
  /-- R343. When a K2H queue has room, the firmware posts the next waiting response or notice. -/
  | noticeDequeue (ch : Chan)
  /-- R335. Returns the command-set version, firmware version, GL_ID, GL_VERSION and mode bits. -/
  | identify (ch : Chan)
  /-- R335. Names the DRAM command region for command blocks. -/
  | setCmdRegion (ch : Chan)
  /-- R335. Selects the channel for general notices and their suppression mask. -/
  | setNoticeRoute (ch : Chan)
  /-- R335. Returns the aggregate busy, numeric, ECC and lost-notice counts. -/
  | getCounters (ch : Chan)
  /-- R239. Checks and creates a context, reserving and powering its partition, advancing its epoch and loading its key slot. -/
  | createContext (obs : CreateObs)
  /-- R256. Begins teardown of a context at step 1 and answers OK. -/
  | destroyContext (ch : Chan)
  /-- R337. Checks and applies the 128-byte job configuration block and extends register 6. -/
  | configContext (ch : Chan) (block : BlockRead)
  /-- R336. Sets the edge padding mode and valid columns, epoch-latched while running. -/
  | setEdge (ch : Chan)
  /-- R245. Sets the slice length in lines or µs, with CONTRACT if too short. -/
  | setSlice (ch : Chan)
  /-- R169. Reads and checks a waybill block as a deferred command. -/
  | loadWaybill (ch : Chan) (block : BlockRead)
  /-- R169. After the Strongbox verifies and extends the digest, the stages are loaded and the command is answered. -/
  | loadWaybillDone (n : Ctx)
  /-- R336. Starts loading weights from the WEIGHTS region, checked against WEIGHTS_DIGEST. -/
  | loadWeights (ch : Chan)
  /-- R336. The weights digest is checked and extended, and the context becomes LOADED. -/
  | loadWeightsDone (n : Ctx) (data : List Byte)
  /-- R336. Extends register 5 and starts the reference program on the partition. -/
  | refPass (ch : Chan) (raster : List Byte)
  /-- R180. The reference program completes once and the deferred REF_PASS is answered. -/
  | refPassDone (n : Ctx)
  /-- R338. Checks state, grid and rate, chooses J0, absorbs START into the ledger and arms the job's slots. -/
  | startJob (ch : Chan)
  /-- R339. Stops releasing rows at once or at the end of the current sheet. -/
  | stopJob (ch : Chan)
  /-- R339. When released rows have posted, the context becomes STOPPED and the command is answered. -/
  | stopJobDone (n : Ctx)
  /-- R340. Fences the job, originates ABORT with cause HOST in Tandem, and discards unposted rows. -/
  | abortJob (ch : Chan)
  /-- R340. When the abort fence is complete the context becomes STOPPED and ABORT_JOB is answered OK. -/
  | abortFenceDone (n : Ctx)
  /-- R281. Sets or clears the position override in TL_CFG. -/
  | chainPosition (ch : Chan)
  /-- R295. Joins the block to the chain, letting BYPASS_HOLD rise. -/
  | chainJoin (ch : Chan)
  /-- R295. Leaves the chain, and BYPASS_HOLD falls. -/
  | chainLeave (ch : Chan)
  /-- R335. Names the bounce region and outbound ring of a confidential context. -/
  | bounceSetup (ch : Chan)
  /-- R347. Starts reading a host-to-K24 bounce record as a deferred command. -/
  | bounceIn (ch : Chan)
  /-- R347. The record's count and tag are checked and its plaintext is written to REFRASTER. -/
  | bounceInDone (n : Ctx) (rec : List Byte)
  /-- R350. A rising edge of an event source sets its pending bit. -/
  | eventLatch (src : BitVec 7)
  /-- R353. A claim read returns the lowest qualifying source, clears its pending bit, sets it active and starts the hold-off. -/
  | evClaim (tgt : Target) (fast : Bool)
  /-- R354. A completion clears the active bit and resamples a level source, or counts a spurious completion. -/
  | evEoi (tgt : Target) (fast : Bool) (src : BitVec 7)
  /-- R357. A discard write clears one host-routed pending bit of the right bank. -/
  | evDiscard (fast : Bool) (src : BitVec 7)
  /-- R356. A plain write to EV_PEND or EV_F_PEND sets and clears the host-routed pending bits. -/
  | evPendWrite (fast : Bool) (w : Fin 4) (data : Word)
  /-- R355. A group's hold-off timer ends and its sources drive their line again. -/
  | holdoffExpire (fast : Bool) (g : Fin 16)
  /-- R365. Writing 1 clears EV_SPURIOUS_EOI. -/
  | evCntClrSpurious
  /-- R349. ENC_A or SHEET_MARK holding a new level for 2 µs, or a falling SVC_CS_N, fires ENC_MOTION, MARK_SEEN or SVC_SELECT. -/
  | aonSenseEdge (pin : SensePin) (level : Bool)
  /-- R359. An enabled watched source fires while the Lantern records, the hit is recorded, and a wake is requested. -/
  | lanternHit (src : BitVec 7)
  /-- R367. Writing PM_LAN_CTRL.ARM arms or disarms the Lantern, and a write of 1 clears FIRST_VALID. -/
  | lanternArm (on : Bool)
  /-- R533. An accepted rise of AON_PWR_GOOD starts step 1 of the boot and samples the straps. -/
  | powerGoodRise (straps : Straps)
  /-- R533. An accepted fall of AON_PWR_GOOD switches every domain off at once. -/
  | powerGoodFall
  /-- R370. A boot step completes and the boot advances to its next step, or halts. -/
  | bootStepDone (obs : BootObs)
  /-- R390. Returns SB_STATUS, SB_BOOT, the firmware version and the identity hash prefix. -/
  | sbIdentify (ch : Chan)
  /-- R390. Returns a fresh 24-byte nonce, replacing the outstanding one. -/
  | sbChallenge (ch : Chan)
  /-- R381. Checks a lifecycle transition, programs the next lifecycle bit and takes the block through a block reset. -/
  | lcAdvance (ch : Chan) (block : BlockRead) (blows : Bool)
  /-- R382. Verifies a debug token, sets the unlock latch and takes the block through a block reset. -/
  | debugUnlock (ch : Chan) (block : BlockRead)
  /-- R415. Builds and signs a statement, or returns the stored final checkpoint. -/
  | sbAttest (ch : Chan) (block : BlockRead)
  /-- R410. Checks an owner-signed key-update message, advances the OTP counter, programs regions and writes output items. -/
  | keyUpdate (ch : Chan) (block : BlockRead) (blows : Bool)
  /-- R406. Checks and loads one wrapped blob or verification entry into a working slot. -/
  | keyLoad (ch : Chan) (block : BlockRead)
  /-- R412. Writes the context's bounce key wrapped under a BOUNCE_WRAP key, once per life. -/
  | bounceKey (ch : Chan)
  /-- R386. A processor's claim of a rein is granted, refused or revokes the Coachman's hold. -/
  | reinClaim (who : Proc) (rein : Fin 8)
  /-- R386. A processor frees a rein that it holds. -/
  | reinRelease (who : Proc) (rein : Fin 8)
  /-- R387. Every 1 ms the Strongbox sends its view to the Coachman. -/
  | heartbeatSend
  /-- R388. The Coachman's answer is compared with the sent view as match, mismatch or void. -/
  | heartbeatAnswer (view : HbView)
  /-- R389. An answer missing 200 µs after its heartbeat is a miss and raises HEARTBEAT_MISS. -/
  | heartbeatMiss
  /-- R427. A claim of the digest engine is granted or refused, and a Strongbox claim suspends the current owner. -/
  | dgClaim (user : Target)
  /-- R427. The owner releases the engine, which clears its state, and restores any suspended message. -/
  | dgRelease (user : Target)
  /-- R430. DG_CTRL.START begins a message and clears the state, result and error bits. -/
  | dgStart (user : Target)
  /-- R435. DG_CTRL.ABORT ends the message with no result. -/
  | dgAbort (user : Target)
  /-- R431. DG_CTRL.MEM_GO starts a memory-fed chunk from the selected source. -/
  | dgMemGo (user : Target)
  /-- R430. A word written to DG_DATA adds four message bytes. -/
  | dgDataWrite (user : Target) (data : Word)
  /-- R430. A write to DG_LAST adds COUNT bytes and ends the message. -/
  | dgLastWrite (user : Target) (data : Word)
  /-- R433. A read of DG_RESULT while DONE is 0 returns zero and sets EARLY_READ. -/
  | dgResultRead (user : Target) (w : Fin 16)
  /-- R431. A memory-fed chunk ends and MEM_RUN clears, or BAD_SRC or MEM_ERR ends the message. -/
  | dgChunkDone (data : List Byte) (err : Bool)
  /-- R433. The last compression ends, the digest is written to DG_RESULT, DONE is set and DG_DONE is raised. -/
  | dgDone
  /-- R428. A non-Strongbox owner idle for 10 ms loses the engine and EXPIRED is set. -/
  | dgExpire
  /-- R444. Writing 1 clears DG_REFUSED. -/
  | dgCntClr (user : Target)
  /-- R455. A direct GO with OP WORD programs a blank data word with its check, or is refused with a cause. -/
  | otpProgWord
  /-- R456. A direct GO with OP LOCK blows a region's lock bit, in TEST without its check. -/
  | otpProgLock
  /-- R455. An OTP operation ends after read-back, setting DONE or VERIFY_FAIL. -/
  | otpProgDone (readbackOk : Bool)
  /-- R468. Opens a service session, ending any previous one, and returns identity and nonce. -/
  | svcHello (f : List Byte)
  /-- R470. Checks a manifest and opens a staging session into the inactive slot. -/
  | svcBegin (f : List Byte)
  /-- R471. Writes one 4 KiB block of the image to the inactive slot after its checks. -/
  | svcData (f : List Byte)
  /-- R471. Checks completeness and signature, marks the slot STAGED and posts UPDATE_STAGED. -/
  | svcEnd (f : List Byte)
  /-- R467. Returns the update records of all six units. -/
  | svcStatus (f : List Byte)
  /-- R471. Sets a STAGED inactive record to EMPTY. -/
  | svcDiscard (f : List Byte)
  /-- R474. Activates a staged unit over the service port, as ACTIVATE does. -/
  | svcActivate (f : List Byte)
  /-- R467. A service request with an unknown OP is answered BAD_OPCODE. -/
  | svcBadOp (f : List Byte)
  /-- R467. A READ transaction takes the held response and returns SVC_ATTN_N high. -/
  | svcRead
  /-- R467. When a response is ready the Strongbox drives SVC_ATTN_N low. -/
  | svcResponseReady
  /-- R471. A staging session with no request for 10 s ends refused. -/
  | svcSessionTimeout
  /-- R477. Returns a unit's update state and slot versions. -/
  | updateStatus (ch : Chan)
  /-- R474. Checks and activates a staged unit, by block reset for units 0, 1 and 5 or by restart for the others. -/
  | activate (ch : Chan)
  /-- R475. The new image is verified, the directory is written TRIAL and the Coachman is released, answering OK. -/
  | activateComplete
  /-- R476. Confirms a unit in TRIAL and sets it CONFIRMED in the directory. -/
  | confirmHealth (src : HealthSrc)
  /-- R472. Sets or clears the owner lock in the directory. -/
  | updateLock (ch : Chan)
  /-- R476. A unit still in TRIAL 45 s after start posts HEALTH_DUE. -/
  | healthDue (u : Fin 6)
  /-- R476. At 60 s an unconfirmed unit is marked EXPIRED. -/
  | healthExpired (u : Fin 6)
  /-- R485. A coach waiting 10 ms at one point, or not advancing for 1 ms, raises COACH_HANG. -/
  | coachHang (c : Coach)
  /-- R485. A Gig slot running past LEN + 100 µs raises GIG_HANG. -/
  | gigHang
  /-- R485. The Coachman watchdog expires once and raises CM_WDOG. -/
  | cmWdog
  /-- R485. A second watchdog expiry or three heartbeat misses declares the Coachman DEAD with CM_HANG. -/
  | cmHang
  /-- R485. The Strongbox watchdog is not restarted in time, and the reset sequencer performs a security reset. -/
  | sbWdog
  /-- R482. SB_CLK absent for 10 AON_CLK cycles raises the security-class fault SB_CLOCK. -/
  | sbClock
  /-- R495. The faulting coach or Gig engine reset completes, and the set is scrubbed before replay. -/
  | coachResetDone (u : Fin 17)
  /-- R486. A coach reset not complete within 100 µs escalates to PARTITION. -/
  | coachResetHang (u : Fin 17)
  /-- R489. A partition reset completes and every context of the partition is torn down. -/
  | partResetDone (u : Fin 17)
  /-- R486. A partition reset not complete within 1 ms escalates to BLOCK. -/
  | partResetHang (u : Fin 17)
  /-- R486. A Gig engine reset not complete within 100 µs escalates to BLOCK. -/
  | gigResetHang
  /-- R486. A block reset that has not brought every domain to reset within 10 ms asserts PWR_CYCLE_REQ_N. -/
  | seqTimeout
  /-- R496. A suspect's replay ends, and after the last the suspects resume, one is torn down, or PARTITION follows. -/
  | replayEnd
  /-- R498. SECURITY_FAULT pending 100 µs without a reset makes the reset sequencer reset the block itself. -/
  | securityResetFallback
  /-- R499. Outstanding transactions of a BLOCK escalation have drained, and the dump begins. -/
  | blockDrainDone
  /-- R501. The dump sections are written and the trailer hashing begins. -/
  | dumpDone (obs : DumpObs)
  /-- R506. The dump is cut at the 100 ms bound and marked PARTIAL. -/
  | dumpTimeout (written : Nat)
  /-- R505. The signed trailer is written, VALID is set, PM_FLT_LAST is written and the block reset begins. -/
  | dumpTrailerDone (dump : List Byte)
  /-- R493. 60 s with no fault-driven reset clears PM_FLT_RESETS.RECENT. -/
  | fltResetsDecay
  /-- R513. The holder of rein POWER requests a domain on or off, which is accepted or refused. -/
  | pwrReq (who : Proc) (d : Dom) (on : Bool)
  /-- R514. A ramping domain releases reset and opens its fences, and PM_SEQ_DONE is raised. -/
  | pwrRampDone (d : Dom)
  /-- R515. A domain switches off, closing fences and resetting its registers and SRAM. -/
  | pwrOff (d : Dom)
  /-- R519. Every domain but PD_AON is off after a block reset, and PD_SB is powered to restart the boot. -/
  | blockResetDomainsOff
  /-- R521. A deep-sleep request is refused or begins the entry sequence. -/
  | pmSleepDeep
  /-- R521. A step of deep-sleep entry completes until STATE becomes ASLEEP. -/
  | sleepEntryStep
  /-- R523. A write of PM_WAKE wakes the block, or only raises HOST_WAKE while awake. -/
  | pmWake
  /-- R520. Writing 0x0000_B10C begins a block reset, or a wake with cause HOST. -/
  | pmReset (key : Word)
  /-- R517. Each 10 µs window counts ARITH_CLK and FAB_CLK and updates the OK and LOST bits. -/
  | clockMonitorWindow (arith : Nat) (fab : Nat)
  /-- R525. Every 100 µs the sensors are sampled and the thermal level may rise. -/
  | thermalSample (temps : List Int)
  /-- R525. After 10 ms below threshold minus 5 °C the thermal level falls by one. -/
  | thermalLevelFall
  /-- R527. 125 °C for 100 µs switches every domain except PD_AON off and asserts ALARM_N. -/
  | thermalTrip
  /-- R527. Below 105 °C for 1 s, TRIP clears and wakes are allowed again. -/
  | thermalTripClear
  /-- R532. A write of the thermal thresholds is clamped to its limits. -/
  | pmThermCfgWrite (data : Word)
  /-- R537. A change of SUPPLY_LOW raises source 98 and gates staging and activation. -/
  | supplyLowEdge (level : Bool)
  /-- R551. A write of DBG_CTRL enables or refuses the trace and selects group and rate. -/
  | dbgCtrlWrite (data : Word) (sec : Bool)
  /-- R549. TMUX_EN falling drives every TRACE pin low within 4 cycles. -/
  | tmuxEnFall
  /-- R550. The BYPASS instruction, or any unlisted code, selects the one-bit register. -/
  | tapBypass (code : BitVec 8)
  /-- R550. SCAN_SEL gates the functional clocks and selects the scan chains. -/
  | tapScanSel
  /-- R550. MBIST_RUN tests every SRAM of the block. -/
  | tapMbistRun
  /-- R550. MBIST_RESULT selects the 32-bit pass and complete register. -/
  | tapMbistResult
  /-- R550. The memory test run completes and sets bit 31 of its result. -/
  | mbistDone (fails : BitVec 31)
  /-- R277. A received link frame with a bad length, an unknown TYPE or a failed CRC is dropped and counted in TL_Pp_ERR, and a cut-through copy leaves with its CRC inverted. -/
  | frameErr (p : LinkPort) (f : LinkFrame) (kind : FrameFault)
  /-- R206. A memory port raises READY and accepts a request or write-data beat that it had left waiting, which ends the stall count and can complete a WRITE synchronisation. -/
  | mpBeatAccepted (p : Port)
  /-- R482. An uncorrectable error in the Strongbox ROM or private SRAM raises the security-class fault SB_ECC and the one-step reset. -/
  | sbEcc
  /-- R467. A service-port WRITE whose byte count or CRC is wrong is answered BAD_LENGTH, or one sent while the Strongbox is busy is dropped, and SB_SVC_CNT counts it. -/
  | svcFrameError (f : List Byte)
  /-- R549. TMUX_EN rising lets the trace resume on the selected group while EN is kept. -/
  | tmuxEnRise
  /-- R550. TRST_N or the TMS sequence puts the test access port in Test-Logic-Reset, which leaves any selected instruction, SCAN_SEL included. -/
  | tapTestLogicReset
  /-- R262. A scrub of a context's Gig SRAM pages completes its read-back, and CONTEXT_SCRUBBED can then follow for a switched-out context. -/
  | gigPageScrubEnd (n : Ctx)
  /-- R495. During a COACH-level replay, the suspect's next row of its window is released after 256 lines converted to cycles at its LR_MAX. -/
  | replayRowRelease (obs : RowObs)
  deriving DecidableEq, Repr

end Sys2Proof
end

