-- ==== Sys2Proof/Decode.lean ====
section
/-! DEFINITION. The block has no instruction encoding: its command table gives no row any bits, so no word spells a command
(log 2). -/

namespace Sys2Proof

/-- The command that a word spells by the table's bits: the table gives none. -/
def decodeTableWord (_nbits _w : Nat) : Option Instr := none

end Sys2Proof
end

