-- ==== Sys2Proof/Config.lean ====
section
/-! DEFINITION. What an implementation fixes and this model leaves open: free values. Each is an opaque constant, so that no
proof can see what it is. -/

namespace Sys2Proof

/-- Free values (log 5): the number that the block takes where the spec leaves one open, by the count of those taken
before. -/
opaque Config.free : Nat → Nat

/-- The SHA-384 hashes of the signing keys that the Strongbox ROM holds (R368), by SIGNER code: 0 manufacturing key, 2
firmware-signing key. The spec does not state them. -/
opaque Config.romKeyHash : Nat → List (BitVec 8)

/-- REQ_SEC, the secure attribute with which the block's own requests leave it, by their REQ_CTX (R203). The spec does not state it. -/
opaque Config.reqSec : Nat → Bool

end Sys2Proof
end

