-- ==== Sys2Proof/Machine/Bits.lean ====
section
/-! DEFINITION. Bit fields, byte order and saturating counts (R11, R16), as every chapter's layouts use them. -/

namespace Sys2Proof

/-- Bits `[lo + w - 1 : lo]` of a number (R11). -/
def bits (x lo w : Nat) : Nat := x / 2 ^ lo % 2 ^ w

/-- Bit `i` of a number (R11). -/
def bit (x i : Nat) : Bool := x / 2 ^ i % 2 == 1

/-- A Bool as a bit. -/
def b2n (b : Bool) : Nat := if b then 1 else 0

/-- The little-endian value of a list of bytes (R11). -/
def leNat : List Byte → Nat
  | [] => 0
  | b :: bs => b.toNat + 256 * leNat bs

/-- The big-endian value of a list of bytes. -/
def beNat (bs : List Byte) : Nat := bs.foldl (fun a b => 256 * a + b.toNat) 0

/-- `n` little-endian bytes of a value (R11). -/
def leBytes : Nat → Nat → List Byte
  | 0, _ => []
  | n + 1, x => BitVec.ofNat 8 x :: leBytes n (x / 256)

/-- `n` big-endian bytes of a value. -/
def beBytes (n x : Nat) : List Byte := (leBytes n x).reverse

/-- `n` bytes of a list from offset `o`; bytes beyond its end read zero. -/
def slice (bs : List Byte) (o n : Nat) : List Byte :=
  let t := (bs.drop o).take n
  t ++ List.replicate (n - t.length) 0

/-- The little-endian word at byte offset `o` of a structure (R11). -/
def wordAt (bs : List Byte) (o : Nat) : Nat := leNat (slice bs o 4)

/-- Word `i` of a structure of 32-bit words. -/
def wordN (bs : List Byte) (i : Nat) : Nat := wordAt bs (4 * i)

/-- The bytes of a list of words (R11). -/
def wordsBytes (ws : List Nat) : List Byte := ws.flatMap (leBytes 4)

/-- Puts a value into an ordered list, before its equals. -/
def insertBy {α : Type} (le : α → α → Bool) (x : α) : List α → List α
  | [] => [x]
  | y :: ys => if le x y then x :: y :: ys else y :: insertBy le x ys

/-- A list in order; equals keep theirs. -/
def sortBy {α : Type} (le : α → α → Bool) (l : List α) : List α := l.foldr (insertBy le) []

/-- Ceiling division. -/
def ceilDiv (a b : Nat) : Nat := (a + b - 1) / b

/-- A value limited to a range (R75, R76). -/
def clampNat (lo hi x : Nat) : Nat := if x < lo then lo else if hi < x then hi else x

/-- The signed value of a `w`-bit field. -/
def signed (w x : Nat) : Int := if x % 2 ^ w < 2 ^ (w - 1) then (x % 2 ^ w : Nat) else ((x % 2 ^ w : Nat) : Int) - (2 ^ w : Nat)

/-- The `w`-bit two's complement code of an integer. -/
def unsigned (w : Nat) (x : Int) : Nat := (x % ((2 ^ w : Nat) : Int)).toNat

/-- The bytes of an ASCII label (R399). -/
def ascii (s : String) : List Byte := s.toList.map (fun c => BitVec.ofNat 8 c.toNat)

/-- The number of one bits among the low `w` bits. -/
def popcount (w x : Nat) : Nat := ((List.range w).filter (bit x)).length

/-- The XOR of two byte strings, as long as the shorter. -/
def xorBytes (a b : List Byte) : List Byte := List.zipWith (· ^^^ ·) a b

/-- The indexes of the set bits among the low `w` bits, ascending. -/
def setBits (w x : Nat) : List Nat := (List.range w).filter (bit x)

end Sys2Proof
end

