-- ==== Sys2Proof/Machine/SMap.lean ====
section
/-! DEFINITION. A sparse store from numbers to values in one canonical form: keys strictly rising, and no entry equal to
what an unlisted key reads as. Equal stores are equal lists. Registers, SRAMs and the flash are held so. -/

namespace Sys2Proof

/-- Entries by rising key. -/
abbrev SMap (α : Type) := List (Nat × α)

/-- The value at key `k`; an unlisted key reads as `d k`. -/
def SMap.get {α : Type} (d : Nat → α) : SMap α → Nat → α
  | [], k => d k
  | (j, v) :: m, k => if k = j then v else if k < j then d k else SMap.get d m k

/-- Put `v` at key `k`, in front of the entries with larger keys; `drop` says that the entry is not kept. -/
def SMap.put {α : Type} (drop : Bool) (k : Nat) (v : α) : SMap α → SMap α
  | [] => if drop then [] else [(k, v)]
  | (j, w) :: m =>
    if k < j then (if drop then (j, w) :: m else (k, v) :: (j, w) :: m)
    else if k = j then (if drop then m else (k, v) :: m)
    else (j, w) :: SMap.put drop k v m

/-- Write `v` at key `k`, keeping the canonical form for the default `d`. -/
def SMap.set {α : Type} [DecidableEq α] (d : Nat → α) (m : SMap α) (k : Nat) (v : α) : SMap α :=
  SMap.put (decide (v = d k)) k v m

/-- The canonical form: keys strictly rising above the bound, no entry at its default. -/
def SMap.wfFrom {α : Type} [DecidableEq α] (d : Nat → α) : Option Nat → SMap α → Bool
  | _, [] => true
  | lo, (k, v) :: m => (match lo with | none => true | some l => decide (l < k)) && decide (v ≠ d k) && SMap.wfFrom d (some k) m

/-- The canonical form of a whole store. -/
def SMap.wf {α : Type} [DecidableEq α] (d : Nat → α) (m : SMap α) : Bool := SMap.wfFrom d none m

/-- Write consecutive values from key `k` on. -/
def SMap.setList {α : Type} [DecidableEq α] (d : Nat → α) (m : SMap α) (k : Nat) : List α → SMap α
  | [] => m
  | v :: vs => SMap.setList d (SMap.set d m k v) (k + 1) vs

/-- Read `n` consecutive values from key `k` on. -/
def SMap.getList {α : Type} (d : Nat → α) (m : SMap α) (k n : Nat) : List α :=
  (List.range n).map (fun i => SMap.get d m (k + i))

/-- Forget every entry whose key satisfies `p` (it reads as its default again). -/
def SMap.forget {α : Type} (p : Nat → Bool) (m : SMap α) : SMap α := m.filter (fun e => !p e.1)

end Sys2Proof
end

