-- ==== Sys2Proof/Machine/Regs.lean ====
section
/-! DEFINITION. The registers of the host window (R553): where each field lies, its kind (R14), its reset value and its
reset domain (R13). Written from the register tables of every chapter and the register index. -/

namespace Sys2Proof

/-- The kinds of register field (R14). -/
inductive RKind where
  | rw | ro | wo | w1c | rwe | rwl
  deriving DecidableEq, Repr

/-- A register field: the offset of its register, its lowest bit and its width. The registers of a pair (R15) are one
field of the _LO register. -/
structure Fld where
  addr : Nat
  lo : Nat
  width : Nat
  deriving DecidableEq, Repr

/-- A field of a row of the register table. -/
structure FRow where
  lo : Nat
  width : Nat
  kind : RKind
  reset : Nat
  deriving DecidableEq, Repr

/-- A row of the register table: `count` registers from `base` on, `stride` apart; `pair` is 1 for the _LO and 2 for the
_HI register of a pair (R15). -/
structure RRow where
  base : Nat
  stride : Nat
  count : Nat
  pair : Nat
  fields : List FRow
  deriving DecidableEq, Repr

/-- `n` equal fields of width `w`, `step` apart from bit `lo0`, with the reset bits of `rst`. -/
def fields (lo0 step w n : Nat) (k : RKind) (rst : Nat) : List FRow :=
  (List.range n).map (fun i => ⟨lo0 + step * i, w, k, rst / 2 ^ (step * i) % 2 ^ w⟩)

/-- The base of a mailbox channel's registers: MB0 to MB3, then MBS0 in the MBS window (R306, register index); MBS1 (5)
lies outside the host window, at an address of the model's own. -/
def mbBase (k : Nat) : Nat := if k ≤ 3 then 0x600000 + 0x1000 * k else if k = 4 then 0x680000 else 0x1000000

/-- The view of the digest registers: 0 the host window, 1 the Coachman's, 2 the Strongbox's (R436); the views other than
the host's lie at addresses of the model's own. -/
def dgView (v : Nat) : Nat := 0x800000 * v

/-- The fast bank of the event registers (R366). -/
def evBank (fast : Bool) : Nat := if fast then 0x1000 else 0

/-- GL_ID, R17. -/
def GL_ID.PART : Fld := ⟨0, 0, 16⟩
/-- GL_ID, R17. -/
def GL_ID.FAMILY : Fld := ⟨0, 16, 8⟩
/-- GL_ID, R17. -/
def GL_ID.VENDOR : Fld := ⟨0, 24, 8⟩
/-- GL_VERSION, R18. -/
def GL_VERSION.MINOR : Fld := ⟨4, 0, 8⟩
/-- GL_VERSION, R18. -/
def GL_VERSION.MAJOR : Fld := ⟨4, 8, 8⟩
/-- GL_STATUS, R33. -/
def GL_STATUS.SB_READY : Fld := ⟨0x10, 0, 1⟩
/-- GL_STATUS, R33. -/
def GL_STATUS.CM_RELEASED : Fld := ⟨0x10, 1, 1⟩
/-- GL_STATUS, R33. -/
def GL_STATUS.CMD_READY : Fld := ⟨0x10, 2, 1⟩
/-- GL_STATUS, R33. -/
def GL_STATUS.CONFIDENTIAL : Fld := ⟨0x10, 3, 1⟩
/-- GL_STATUS, R33. -/
def GL_STATUS.DEBUG_UNLOCKED : Fld := ⟨0x10, 4, 1⟩
/-- GL_STATUS, R33. -/
def GL_STATUS.TANDEM : Fld := ⟨0x10, 5, 1⟩
/-- GL_STATUS, R33. -/
def GL_STATUS.FENCED : Fld := ⟨0x10, 6, 1⟩
/-- GL_STATUS, R33. -/
def GL_STATUS.CHAIN_POS : Fld := ⟨0x10, 8, 6⟩
/-- GL_STATUS, R33. -/
def GL_STATUS.LIFECYCLE : Fld := ⟨0x10, 16, 5⟩
/-- GL_CFG_REJECTS, R34. -/
def GL_CFG_REJECTS.COUNT : Fld := ⟨0x20, 0, 16⟩
/-- GL_CFG_REJECTS, R34. -/
def GL_CFG_REJECTS.LAST_BLOCK : Fld := ⟨0x20, 16, 4⟩
/-- GL_HOST_ERRS, R35. -/
def GL_HOST_ERRS.UNMAPPED : Fld := ⟨0x24, 0, 8⟩
/-- GL_HOST_ERRS, R35. -/
def GL_HOST_ERRS.NOT_SECURE : Fld := ⟨0x24, 8, 8⟩
/-- GL_HOST_ERRS, R35. -/
def GL_HOST_ERRS.DOMAIN_OFF : Fld := ⟨0x24, 16, 8⟩
/-- GL_CNT_CLR, R36. -/
def GL_CNT_CLR.CFG_REJECTS : Fld := ⟨0x28, 0, 1⟩
/-- GL_CNT_CLR, R36. -/
def GL_CNT_CLR.HOST_ERRS : Fld := ⟨0x28, 1, 1⟩
/-- GL_WB_CNT_CLR, R201. -/
def GL_WB_CNT_CLR.CTX : Fld := ⟨0x240, 1, 8⟩
/-- GL_COACH_OWN0, R265. -/
def GL_COACH_OWN0.COACH (k : Nat) : Fld := ⟨0x280, 4 * k, 4⟩
/-- GL_COACH_OWN1, R265. -/
def GL_COACH_OWN1.COACH (k : Nat) : Fld := ⟨0x284, 4 * k, 4⟩
/-- GL_SCRUB, R266. -/
def GL_SCRUB.COUNT : Fld := ⟨0x288, 0, 16⟩
/-- GL_SCRUB, R266. -/
def GL_SCRUB.FAIL : Fld := ⟨0x288, 16, 8⟩
/-- GL_FLT_STATE, R508. -/
def GL_FLT_STATE.RECOVERING (u : Nat) : Fld := ⟨0xac0, u, 1⟩
/-- TT_CTRL, R68. -/
def TT_CTRL.ENABLE : Fld := ⟨0x100000, 0, 1⟩
/-- TT_CTRL, R68. -/
def TT_CTRL.LOAD : Fld := ⟨0x100000, 1, 1⟩
/-- TT_CTRL, R68. -/
def TT_CTRL.CLR_FAULT : Fld := ⟨0x100000, 2, 1⟩
/-- TT_ENC_CFG, R69. -/
def TT_ENC_CFG.MODE : Fld := ⟨0x100004, 0, 2⟩
/-- TT_ENC_CFG, R69. -/
def TT_ENC_CFG.INV_DIR : Fld := ⟨0x100004, 2, 1⟩
/-- TT_ENC_CFG, R69. -/
def TT_ENC_CFG.Z_EN : Fld := ⟨0x100004, 3, 1⟩
/-- TT_ENC_CFG, R69. -/
def TT_ENC_CFG.FILTER : Fld := ⟨0x100004, 8, 8⟩
/-- TT_STEP, R70. -/
def TT_STEP.STEP : Fld := ⟨0x100008, 0, 25⟩
/-- TT_STATUS, R71. -/
def TT_STATUS.STATE : Fld := ⟨0x10000c, 0, 3⟩
/-- TT_STATUS, R71. -/
def TT_STATUS.OVERSPEED : Fld := ⟨0x10000c, 3, 1⟩
/-- TT_STATUS, R71. -/
def TT_STATUS.Z_LOST : Fld := ⟨0x10000c, 4, 1⟩
/-- TT_STATUS, R71. -/
def TT_STATUS.MARK_MISSED : Fld := ⟨0x10000c, 5, 1⟩
/-- TT_STATUS, R71. -/
def TT_STATUS.CAUSE : Fld := ⟨0x10000c, 8, 3⟩
/-- TT_LINE_LO, R72. -/
def TT_LINE.LINE : Fld := ⟨0x100010, 0, 48⟩
/-- TT_LINE_SET_LO, R73. -/
def TT_LINE_SET.LINE : Fld := ⟨0x100018, 0, 48⟩
/-- TT_PERIOD, R74. -/
def TT_PERIOD.PERIOD : Fld := ⟨0x100020, 0, 28⟩
/-- TT_RATE, R74. -/
def TT_RATE.LPS : Fld := ⟨0x100024, 0, 18⟩
/-- TT_RATE_MAX, R75. -/
def TT_RATE_MAX.LPS : Fld := ⟨0x100028, 0, 18⟩
/-- TT_STOP_TO, R76. -/
def TT_STOP_TO.TIME : Fld := ⟨0x10002c, 0, 20⟩
/-- TT_BACK, R77. -/
def TT_BACK.LINES : Fld := ⟨0x100030, 0, 16⟩
/-- TT_REV_MAX, R77. -/
def TT_REV_MAX.LINES : Fld := ⟨0x100034, 0, 16⟩
/-- TT_Z_CFG, R78. -/
def TT_Z_CFG.COUNTS : Fld := ⟨0x100038, 0, 24⟩
/-- TT_Z_CFG, R78. -/
def TT_Z_CFG.TOL : Fld := ⟨0x100038, 24, 8⟩
/-- TT_MARK_CFG, R79. -/
def TT_MARK_CFG.SRC : Fld := ⟨0x10003c, 0, 2⟩
/-- TT_MARK_CFG, R79. -/
def TT_MARK_CFG.POL : Fld := ⟨0x10003c, 2, 1⟩
/-- TT_MARK_CFG, R79. -/
def TT_MARK_CFG.FILTER : Fld := ⟨0x10003c, 8, 8⟩
/-- TT_MARK_OFS, R80. -/
def TT_MARK_OFS.LINES : Fld := ⟨0x100040, 0, 16⟩
/-- TT_SHEET_LEN, R80. -/
def TT_SHEET_LEN.LINES : Fld := ⟨0x100044, 0, 24⟩
/-- TT_MARK_WIN, R80. -/
def TT_MARK_WIN.WIN : Fld := ⟨0x100048, 0, 16⟩
/-- TT_MARK_WIN, R80. -/
def TT_MARK_WIN.GAP : Fld := ⟨0x100048, 16, 16⟩
/-- TT_EPOCH, R81. -/
def TT_EPOCH.NUMBER : Fld := ⟨0x10004c, 0, 32⟩
/-- TT_EPOCH_LINE_LO, R81. -/
def TT_EPOCH_LINE.LINE : Fld := ⟨0x100050, 0, 48⟩
/-- TT_ENC_ERR, R82. -/
def TT_ENC_ERR.ILLEGAL : Fld := ⟨0x100058, 0, 8⟩
/-- TT_ENC_ERR, R82. -/
def TT_ENC_ERR.SPIKE : Fld := ⟨0x100058, 8, 8⟩
/-- TT_ENC_ERR, R82. -/
def TT_ENC_ERR.Z_ERR : Fld := ⟨0x100058, 16, 8⟩
/-- TT_ENC_ERR, R82. -/
def TT_ENC_ERR.MARK_SPUR : Fld := ⟨0x100058, 24, 8⟩
/-- TT_MARK_CNT, R82. -/
def TT_MARK_CNT.MISSED : Fld := ⟨0x10005c, 0, 8⟩
/-- TT_MARK_CNT, R82. -/
def TT_MARK_CNT.OVF : Fld := ⟨0x10005c, 8, 8⟩
/-- TT_ROW_CNT, R82. -/
def TT_ROW_CNT.SKIPPED : Fld := ⟨0x100060, 0, 16⟩
/-- TT_ROW_CNT, R82. -/
def TT_ROW_CNT.WAIVED : Fld := ⟨0x100060, 16, 16⟩
/-- TT_DL_MISS, R82. -/
def TT_DL_MISS.COUNT : Fld := ⟨0x100064, 0, 16⟩
/-- TT_CNT_CLR, R83. -/
def TT_CNT_CLR.ENC_ERR : Fld := ⟨0x100068, 0, 1⟩
/-- TT_CNT_CLR, R83. -/
def TT_CNT_CLR.MARK_CNT : Fld := ⟨0x100068, 1, 1⟩
/-- TT_CNT_CLR, R83. -/
def TT_CNT_CLR.ROW_CNT : Fld := ⟨0x100068, 2, 1⟩
/-- TT_CNT_CLR, R83. -/
def TT_CNT_CLR.DL_MISS : Fld := ⟨0x100068, 3, 1⟩
/-- GG_STATUS, R157. -/
def GG_STATUS.STATE : Fld := ⟨0x300000, 0, 3⟩
/-- GG_STATUS, R157. -/
def GG_STATUS.CTX : Fld := ⟨0x300000, 4, 4⟩
/-- GG_STATUS, R157. -/
def GG_STATUS.COACH : Fld := ⟨0x300000, 8, 4⟩
/-- GG_STATUS, R157. -/
def GG_STATUS.PROF_ON : Fld := ⟨0x300000, 12, 1⟩
/-- GG_STATUS, R157. -/
def GG_STATUS.SAT_SEEN : Fld := ⟨0x300000, 16, 1⟩
/-- GG_STATUS, R157. -/
def GG_STATUS.NAN_SEEN : Fld := ⟨0x300000, 17, 1⟩
/-- GG_STATUS, R157. -/
def GG_STATUS.ECC_SEEN : Fld := ⟨0x300000, 18, 1⟩
/-- GG_CFG, R158. -/
def GG_CFG.PROF_EN : Fld := ⟨0x300004, 0, 1⟩
/-- GG_CFG, R158. -/
def GG_CFG.SAT_FAULT : Fld := ⟨0x300004, 1, 1⟩
/-- GG_CFG, R158. -/
def GG_CFG.NAN_FAULT : Fld := ⟨0x300004, 2, 1⟩
/-- GG_BUSY_LO, R159. -/
def GG_BUSY.COUNT : Fld := ⟨0x300010, 0, 64⟩
/-- GG_WAIT_LO, R160. -/
def GG_WAIT.COUNT : Fld := ⟨0x300018, 0, 64⟩
/-- GG_NUMERIC, R161. -/
def GG_NUMERIC.ACC_SAT : Fld := ⟨0x300028, 0, 16⟩
/-- GG_NUMERIC, R161. -/
def GG_NUMERIC.OUT_SAT : Fld := ⟨0x300028, 16, 8⟩
/-- GG_NUMERIC, R161. -/
def GG_NUMERIC.NAN : Fld := ⟨0x300028, 24, 8⟩
/-- GG_ECC, R162. -/
def GG_ECC.CORR : Fld := ⟨0x30002c, 0, 16⟩
/-- GG_ECC, R162. -/
def GG_ECC.UNCORR : Fld := ⟨0x30002c, 16, 8⟩
/-- GG_CNT_CLR, R163. -/
def GG_CNT_CLR.BUSY : Fld := ⟨0x300030, 0, 1⟩
/-- GG_CNT_CLR, R163. -/
def GG_CNT_CLR.WAIT : Fld := ⟨0x300030, 1, 1⟩
/-- GG_CNT_CLR, R163. -/
def GG_CNT_CLR.NUMERIC : Fld := ⟨0x300030, 2, 1⟩
/-- GG_CNT_CLR, R163. -/
def GG_CNT_CLR.ECC : Fld := ⟨0x300030, 3, 1⟩
/-- MP_STATUS, R228. -/
def MP_STATUS.PORT_UP : Fld := ⟨0x400000, 0, 8⟩
/-- MP_STATUS, R228. -/
def MP_STATUS.KEYS_READY : Fld := ⟨0x400000, 8, 1⟩
/-- MP_LAT_BOUND, R229. -/
def MP_LAT_BOUND.BOUND_NS : Fld := ⟨0x400004, 0, 11⟩
/-- MP_KEY_STATE, R230. -/
def MP_KEY_STATE.SLOT (n : Nat) : Fld := ⟨0x400008, 2 * n + 2, 2⟩
/-- MP_FENCE, R231. -/
def MP_FENCE.FENCING (n : Nat) : Fld := ⟨0x40000c, n, 1⟩
/-- MP_FENCE, R231. -/
def MP_FENCE.ABANDONED : Fld := ⟨0x40000c, 16, 8⟩
/-- MP_RETIRED_DROPS, R231. -/
def MP_RETIRED_DROPS.COUNT : Fld := ⟨0x400010, 0, 16⟩
/-- MP_RETIRED_DROPS, R231. -/
def MP_RETIRED_DROPS.LAST_CTX : Fld := ⟨0x400010, 16, 4⟩
/-- MP_ERR_INFO, R232. -/
def MP_ERR_INFO.VALID : Fld := ⟨0x400014, 0, 1⟩
/-- MP_ERR_INFO, R232. -/
def MP_ERR_INFO.MORE : Fld := ⟨0x400014, 1, 1⟩
/-- MP_ERR_INFO, R232. -/
def MP_ERR_INFO.PORT : Fld := ⟨0x400014, 2, 3⟩
/-- MP_ERR_INFO, R232. -/
def MP_ERR_INFO.WRITE : Fld := ⟨0x400014, 5, 1⟩
/-- MP_ERR_INFO, R232. -/
def MP_ERR_INFO.STATUS : Fld := ⟨0x400014, 6, 2⟩
/-- MP_ERR_INFO, R232. -/
def MP_ERR_INFO.CTX : Fld := ⟨0x400014, 8, 4⟩
/-- MP_ERR_INFO, R232. -/
def MP_ERR_INFO.REGION : Fld := ⟨0x400014, 12, 4⟩
/-- MP_ERR_ADDR_LO, R232. -/
def MP_ERR_ADDR.ADDR : Fld := ⟨0x400018, 0, 48⟩
/-- MP_CNT_CLR, R233. -/
def MP_CNT_CLR.PORTS : Fld := ⟨0x400020, 0, 1⟩
/-- MP_CNT_CLR, R233. -/
def MP_CNT_CLR.BEATS : Fld := ⟨0x400020, 1, 1⟩
/-- MP_CNT_CLR, R233. -/
def MP_CNT_CLR.DROPS : Fld := ⟨0x400020, 2, 1⟩
/-- MP_CNT_CLR, R233. -/
def MP_CNT_CLR.RING : Fld := ⟨0x400020, 3, 1⟩
/-- TL_STATUS, R298. -/
def TL_STATUS.UP_STATE : Fld := ⟨0x500000, 0, 3⟩
/-- TL_STATUS, R298. -/
def TL_STATUS.DN_STATE : Fld := ⟨0x500000, 3, 3⟩
/-- TL_STATUS, R298. -/
def TL_STATUS.CHAIN : Fld := ⟨0x500000, 8, 2⟩
/-- TL_STATUS, R298. -/
def TL_STATUS.RING : Fld := ⟨0x500000, 10, 1⟩
/-- TL_STATUS, R298. -/
def TL_STATUS.HEAD : Fld := ⟨0x500000, 11, 1⟩
/-- TL_STATUS, R298. -/
def TL_STATUS.SYNCED : Fld := ⟨0x500000, 12, 1⟩
/-- TL_STATUS, R298. -/
def TL_STATUS.BYPASS_HOLD : Fld := ⟨0x500000, 13, 1⟩
/-- TL_STATUS, R298. -/
def TL_STATUS.N_BLOCKS : Fld := ⟨0x500000, 16, 7⟩
/-- TL_STATUS, R298. -/
def TL_STATUS.CAUSE : Fld := ⟨0x500000, 24, 4⟩
/-- TL_CFG, R299. -/
def TL_CFG.POS_OVR : Fld := ⟨0x500004, 0, 6⟩
/-- TL_CFG, R299. -/
def TL_CFG.POS_OVR_EN : Fld := ⟨0x500004, 6, 1⟩
/-- TL_CFG, R299. -/
def TL_CFG.JOINED : Fld := ⟨0x500004, 7, 1⟩
/-- TL_LINE_OFS_LO, R300. -/
def TL_LINE_OFS.OFS : Fld := ⟨0x500008, 0, 48⟩
/-- TL_EPOCH_OFS, R300. -/
def TL_EPOCH_OFS.OFS : Fld := ⟨0x500010, 0, 32⟩
/-- TL_ABORT, R301. -/
def TL_ABORT.COUNT : Fld := ⟨0x500014, 0, 8⟩
/-- TL_ABORT, R301. -/
def TL_ABORT.LAST_SRC : Fld := ⟨0x500014, 8, 6⟩
/-- TL_ABORT, R301. -/
def TL_ABORT.LAST_CAUSE : Fld := ⟨0x500014, 16, 3⟩
/-- TL_ABORT, R301. -/
def TL_ABORT.LAST_CTX : Fld := ⟨0x500014, 20, 4⟩
/-- TL_ABORT, R301. -/
def TL_ABORT.HELD : Fld := ⟨0x500014, 24, 8⟩
/-- TL_DROPS, R301. -/
def TL_DROPS.RETIRED : Fld := ⟨0x500018, 0, 16⟩
/-- TL_DROPS, R301. -/
def TL_DROPS.NO_CTX : Fld := ⟨0x500018, 16, 16⟩
/-- TL_HALO, R301. -/
def TL_HALO.REQ : Fld := ⟨0x50001c, 0, 16⟩
/-- TL_HALO, R301. -/
def TL_HALO.RESENT : Fld := ⟨0x50001c, 16, 8⟩
/-- TL_HALO, R301. -/
def TL_HALO.LOST : Fld := ⟨0x50001c, 24, 8⟩
/-- TL_CNT_CLR, R302. -/
def TL_CNT_CLR.PORTS : Fld := ⟨0x500020, 0, 1⟩
/-- TL_CNT_CLR, R302. -/
def TL_CNT_CLR.ABORT : Fld := ⟨0x500020, 1, 1⟩
/-- TL_CNT_CLR, R302. -/
def TL_CNT_CLR.DROPS : Fld := ⟨0x500020, 2, 1⟩
/-- TL_CNT_CLR, R302. -/
def TL_CNT_CLR.HALO : Fld := ⟨0x500020, 3, 1⟩
/-- EV_SPURIOUS_EOI, R365. -/
def EV_SPURIOUS_EOI.NORMAL : Fld := ⟨0x700090, 0, 12⟩
/-- EV_SPURIOUS_EOI, R365. -/
def EV_SPURIOUS_EOI.FAST : Fld := ⟨0x700090, 12, 12⟩
/-- EV_SPURIOUS_EOI, R365. -/
def EV_SPURIOUS_EOI.LAST_SRC : Fld := ⟨0x700090, 24, 7⟩
/-- EV_CNT_CLR, R365. -/
def EV_CNT_CLR.SPURIOUS : Fld := ⟨0x700094, 0, 1⟩
/-- SB_STATUS, R391. -/
def SB_STATUS.STAGE : Fld := ⟨0x800000, 0, 4⟩
/-- SB_STATUS, R391. -/
def SB_STATUS.LIFECYCLE : Fld := ⟨0x800000, 4, 5⟩
/-- SB_STATUS, R391. -/
def SB_STATUS.DEBUG_UNLOCKED : Fld := ⟨0x800000, 9, 1⟩
/-- SB_STATUS, R391. -/
def SB_STATUS.CONFIDENTIAL : Fld := ⟨0x800000, 10, 1⟩
/-- SB_STATUS, R391. -/
def SB_STATUS.ALARM : Fld := ⟨0x800000, 11, 1⟩
/-- SB_STATUS, R391. -/
def SB_STATUS.HALT : Fld := ⟨0x800000, 16, 3⟩
/-- SB_BOOT, R392. -/
def SB_BOOT.SLOT : Fld := ⟨0x800004, 0, 6⟩
/-- SB_BOOT, R392. -/
def SB_BOOT.FALLBACK : Fld := ⟨0x800004, 8, 6⟩
/-- SB_BOOT, R392. -/
def SB_BOOT.DIR_BAD : Fld := ⟨0x800004, 16, 1⟩
/-- SB_BOOT, R392. -/
def SB_BOOT.SETTINGS_DEFAULT : Fld := ⟨0x800004, 17, 1⟩
/-- SB_BOOT, R392. -/
def SB_BOOT.GIG_UNAVAIL : Fld := ⟨0x800004, 18, 1⟩
/-- SB_BOOT, R392. -/
def SB_BOOT.LIB_UNAVAIL : Fld := ⟨0x800004, 19, 1⟩
/-- SB_REINS, R393. -/
def SB_REINS.HOLDERS (r : Nat) : Fld := ⟨0x800008, 2 * r, 2⟩
/-- SB_REINS, R393. -/
def SB_REINS.DENIED : Fld := ⟨0x800008, 16, 8⟩
/-- SB_HB, R393. -/
def SB_HB.COUNT : Fld := ⟨0x80000c, 0, 16⟩
/-- SB_HB, R393. -/
def SB_HB.MISMATCHES : Fld := ⟨0x80000c, 16, 8⟩
/-- SB_HB, R393. -/
def SB_HB.MISSES : Fld := ⟨0x80000c, 24, 4⟩
/-- SB_HB, R393. -/
def SB_HB.LAST_LC : Fld := ⟨0x80000c, 28, 1⟩
/-- SB_HB, R393. -/
def SB_HB.LAST_MODE : Fld := ⟨0x80000c, 29, 1⟩
/-- SB_HB, R393. -/
def SB_HB.LAST_REINS : Fld := ⟨0x80000c, 30, 1⟩
/-- SB_LOG_STATUS, R394. -/
def SB_LOG_STATUS.ENTRIES : Fld := ⟨0x800010, 0, 11⟩
/-- SB_LOG_STATUS, R394. -/
def SB_LOG_STATUS.FULL : Fld := ⟨0x800010, 11, 1⟩
/-- SB_LOG_STATUS, R394. -/
def SB_LOG_STATUS.UNLOGGED : Fld := ⟨0x800010, 16, 16⟩
/-- SB_LOG_IDX, R394. -/
def SB_LOG_IDX.IDX : Fld := ⟨0x800020, 0, 10⟩
/-- SB_KEY_STATUS, R423. -/
def SB_KEY_STATUS.OTP_COUNTER : Fld := ⟨0x800014, 0, 8⟩
/-- SB_KEY_STATUS, R423. -/
def SB_KEY_STATUS.UDS_SET : Fld := ⟨0x800014, 8, 1⟩
/-- SB_KEY_STATUS, R423. -/
def SB_KEY_STATUS.MRK_FUSED : Fld := ⟨0x800014, 9, 1⟩
/-- SB_KEY_STATUS, R423. -/
def SB_KEY_STATUS.LK_FUSED : Fld := ⟨0x800014, 10, 1⟩
/-- SB_KEY_STATUS, R423. -/
def SB_KEY_STATUS.OWNER_SET : Fld := ⟨0x800014, 11, 1⟩
/-- SB_KEY_STATUS, R423. -/
def SB_KEY_STATUS.MRK_SUBST : Fld := ⟨0x800014, 12, 1⟩
/-- SB_KEY_STATUS, R423. -/
def SB_KEY_STATUS.TEST_ROOT : Fld := ⟨0x800014, 13, 1⟩
/-- SB_KEY_STATUS, R423. -/
def SB_KEY_STATUS.WORK_SLOTS : Fld := ⟨0x800014, 16, 5⟩
/-- SB_KEY_STATUS, R423. -/
def SB_KEY_STATUS.STALE : Fld := ⟨0x800014, 24, 8⟩
/-- SB_UPD_STATUS, R478. -/
def SB_UPD_STATUS.SESSION : Fld := ⟨0x800018, 0, 1⟩
/-- SB_UPD_STATUS, R478. -/
def SB_UPD_STATUS.UNIT : Fld := ⟨0x800018, 1, 3⟩
/-- SB_UPD_STATUS, R478. -/
def SB_UPD_STATUS.AUTH : Fld := ⟨0x800018, 4, 1⟩
/-- SB_UPD_STATUS, R478. -/
def SB_UPD_STATUS.LOCK : Fld := ⟨0x800018, 5, 1⟩
/-- SB_UPD_STATUS, R478. -/
def SB_UPD_STATUS.MOTION : Fld := ⟨0x800018, 6, 1⟩
/-- SB_UPD_STATUS, R478. -/
def SB_UPD_STATUS.SUPPLY_LOW : Fld := ⟨0x800018, 7, 1⟩
/-- SB_UPD_STATUS, R478. -/
def SB_UPD_STATUS.ATTN : Fld := ⟨0x800018, 8, 1⟩
/-- SB_UPD_STATUS, R478. -/
def SB_UPD_STATUS.BLOCKS : Fld := ⟨0x800018, 16, 16⟩
/-- SB_SVC_CNT, R479. -/
def SB_SVC_CNT.LEN : Fld := ⟨0x80001c, 0, 8⟩
/-- SB_SVC_CNT, R479. -/
def SB_SVC_CNT.CRC : Fld := ⟨0x80001c, 8, 8⟩
/-- SB_SVC_CNT, R479. -/
def SB_SVC_CNT.AUTH : Fld := ⟨0x80001c, 16, 8⟩
/-- SB_SVC_CNT, R479. -/
def SB_SVC_CNT.DROPPED : Fld := ⟨0x80001c, 24, 8⟩
/-- OTP_STATUS, R458. -/
def OTP_STATUS.SENSE_DONE : Fld := ⟨0xa00000, 0, 1⟩
/-- OTP_STATUS, R458. -/
def OTP_STATUS.ALARM : Fld := ⟨0xa00000, 1, 1⟩
/-- OTP_STATUS, R458. -/
def OTP_STATUS.PROG_BUSY : Fld := ⟨0xa00000, 2, 1⟩
/-- OTP_STATUS, R458. -/
def OTP_STATUS.MARGINAL : Fld := ⟨0xa00000, 4, 11⟩
/-- OTP_STATUS, R458. -/
def OTP_STATUS.BAD : Fld := ⟨0xa00000, 16, 11⟩
/-- OTP_LC, R459. -/
def OTP_LC.RESOLVED : Fld := ⟨0xa00004, 0, 5⟩
/-- OTP_LC, R459. -/
def OTP_LC.SPLIT : Fld := ⟨0xa00004, 5, 5⟩
/-- OTP_LOCK, R459. -/
def OTP_LOCK.LOCKED (r : Nat) : Fld := ⟨0xa00008, r, 1⟩
/-- OTP_LOCK, R459. -/
def OTP_LOCK.SPLIT (r : Nat) : Fld := ⟨0xa00008, r + 16, 1⟩
/-- OTP_RGN0, R460. -/
def OTP_RGN0.STATE (r : Nat) : Fld := ⟨0xa0000c, 4 * r, 4⟩
/-- OTP_RGN1, R460. -/
def OTP_RGN1.STATE (k : Nat) : Fld := ⟨0xa00010, 4 * k, 4⟩
/-- OTP_ACTIVE, R460. -/
def OTP_ACTIVE.MRK : Fld := ⟨0xa00014, 0, 3⟩
/-- OTP_ACTIVE, R460. -/
def OTP_ACTIVE.LK : Fld := ⟨0xa00014, 3, 3⟩
/-- OTP_ACTIVE, R460. -/
def OTP_ACTIVE.OWNER : Fld := ⟨0xa00014, 6, 3⟩
/-- OTP_PROG_ADDR, R461. -/
def OTP_PROG_ADDR.WORD : Fld := ⟨0xa00020, 0, 10⟩
/-- OTP_PROG_ADDR, R461. -/
def OTP_PROG_ADDR.REGION : Fld := ⟨0xa00020, 16, 4⟩
/-- OTP_PROG_DATA, R461. -/
def OTP_PROG_DATA.DATA : Fld := ⟨0xa00024, 0, 32⟩
/-- OTP_PROG_CTRL, R461. -/
def OTP_PROG_CTRL.GO : Fld := ⟨0xa00028, 0, 1⟩
/-- OTP_PROG_CTRL, R461. -/
def OTP_PROG_CTRL.OP : Fld := ⟨0xa00028, 1, 1⟩
/-- OTP_PROG_STATUS, R461. -/
def OTP_PROG_STATUS.BUSY : Fld := ⟨0xa0002c, 0, 1⟩
/-- OTP_PROG_STATUS, R461. -/
def OTP_PROG_STATUS.DONE : Fld := ⟨0xa0002c, 1, 1⟩
/-- OTP_PROG_STATUS, R461. -/
def OTP_PROG_STATUS.REFUSED : Fld := ⟨0xa0002c, 2, 1⟩
/-- OTP_PROG_STATUS, R461. -/
def OTP_PROG_STATUS.CAUSE : Fld := ⟨0xa0002c, 3, 3⟩
/-- OTP_PROG_STATUS, R461. -/
def OTP_PROG_STATUS.UNVERIFIED : Fld := ⟨0xa0002c, 6, 1⟩
/-- OTP_PROG_STATUS, R461. -/
def OTP_PROG_STATUS.VERIFY_FAIL : Fld := ⟨0xa0002c, 7, 1⟩
/-- PM_PWR_STATUS, R528. -/
def PM_PWR_STATUS.ON (d : Nat) : Fld := ⟨0xb00000, d, 1⟩
/-- PM_PWR_REQ, R528. -/
def PM_PWR_REQ.REQ (d : Nat) : Fld := ⟨0xb00004, d, 1⟩
/-- PM_PWR_REFUSE, R528. -/
def PM_PWR_REFUSE.COUNT : Fld := ⟨0xb00008, 0, 8⟩
/-- PM_PWR_REFUSE, R528. -/
def PM_PWR_REFUSE.LAST_DOMAIN : Fld := ⟨0xb00008, 8, 5⟩
/-- PM_PWR_REFUSE, R528. -/
def PM_PWR_REFUSE.LAST_CAUSE : Fld := ⟨0xb00008, 13, 3⟩
/-- PM_SLEEP, R529. -/
def PM_SLEEP.DEEP : Fld := ⟨0xb00010, 0, 1⟩
/-- PM_SLEEP, R529. -/
def PM_SLEEP.STATE : Fld := ⟨0xb00010, 8, 2⟩
/-- PM_SLEEP, R529. -/
def PM_SLEEP.REFUSED : Fld := ⟨0xb00010, 16, 1⟩
/-- PM_SLEEP, R529. -/
def PM_SLEEP.CAUSE : Fld := ⟨0xb00010, 17, 2⟩
/-- PM_WAKE, R529. -/
def PM_WAKE.WAKE : Fld := ⟨0xb00014, 0, 1⟩
/-- PM_RESET, R530. -/
def PM_RESET.KEY : Fld := ⟨0xb00018, 0, 32⟩
/-- PM_RST_CAUSE, R530. -/
def PM_RST_CAUSE.CAUSE : Fld := ⟨0xb0001c, 0, 4⟩
/-- PM_RST_CAUSE, R530. -/
def PM_RST_CAUSE.COUNT : Fld := ⟨0xb0001c, 8, 16⟩
/-- PM_CLK_STATUS, R531. -/
def PM_CLK_STATUS.ARITH_OK : Fld := ⟨0xb00020, 0, 1⟩
/-- PM_CLK_STATUS, R531. -/
def PM_CLK_STATUS.FAB_OK : Fld := ⟨0xb00020, 1, 1⟩
/-- PM_CLK_STATUS, R531. -/
def PM_CLK_STATUS.ARITH_IDLE : Fld := ⟨0xb00020, 2, 1⟩
/-- PM_CLK_STATUS, R531. -/
def PM_CLK_STATUS.ARITH_LOST : Fld := ⟨0xb00020, 8, 1⟩
/-- PM_CLK_STATUS, R531. -/
def PM_CLK_STATUS.FAB_LOST : Fld := ⟨0xb00020, 9, 1⟩
/-- PM_THERM_STATUS, R532. -/
def PM_THERM_STATUS.TEMP : Fld := ⟨0xb00030, 0, 12⟩
/-- PM_THERM_STATUS, R532. -/
def PM_THERM_STATUS.LEVEL : Fld := ⟨0xb00030, 12, 2⟩
/-- PM_THERM_STATUS, R532. -/
def PM_THERM_STATUS.HOT_SENSOR : Fld := ⟨0xb00030, 16, 5⟩
/-- PM_THERM_STATUS, R532. -/
def PM_THERM_STATUS.TRIP : Fld := ⟨0xb00030, 24, 1⟩
/-- PM_THERM_STATUS, R532. -/
def PM_THERM_STATUS.TRIPPED : Fld := ⟨0xb00030, 25, 1⟩
/-- PM_THERM_CFG, R532. -/
def PM_THERM_CFG.THROTTLE : Fld := ⟨0xb00034, 0, 12⟩
/-- PM_THERM_CFG, R532. -/
def PM_THERM_CFG.CRIT : Fld := ⟨0xb00034, 16, 12⟩
/-- PM_LAN_CTRL, R367. -/
def PM_LAN_CTRL.ARM : Fld := ⟨0xb00800, 0, 1⟩
/-- PM_LAN_HIT, R367. -/
def PM_LAN_HIT.ENTRIES (e : Nat) : Fld := ⟨0xb00814, e, 1⟩
/-- PM_LAN_HIT, R367. -/
def PM_LAN_HIT.FIRST : Fld := ⟨0xb00814, 16, 7⟩
/-- PM_LAN_HIT, R367. -/
def PM_LAN_HIT.FIRST_VALID : Fld := ⟨0xb00814, 23, 1⟩
/-- PM_FLT_LAST, R509. -/
def PM_FLT_LAST.NEW : Fld := ⟨0xb00900, 0, 1⟩
/-- PM_FLT_LAST, R509. -/
def PM_FLT_LAST.SECURITY : Fld := ⟨0xb00900, 1, 1⟩
/-- PM_FLT_LAST, R509. -/
def PM_FLT_LAST.CODE : Fld := ⟨0xb00900, 8, 8⟩
/-- PM_FLT_LAST, R509. -/
def PM_FLT_LAST.LEVEL : Fld := ⟨0xb00900, 16, 4⟩
/-- PM_FLT_LAST, R509. -/
def PM_FLT_LAST.CTX : Fld := ⟨0xb00900, 20, 4⟩
/-- PM_FLT_LAST, R509. -/
def PM_FLT_LAST.UNIT : Fld := ⟨0xb00900, 24, 5⟩
/-- PM_FLT_RESETS, R509. -/
def PM_FLT_RESETS.RECENT : Fld := ⟨0xb00904, 0, 3⟩
/-- PM_FLT_RESETS, R509. -/
def PM_FLT_RESETS.TOTAL : Fld := ⟨0xb00904, 8, 16⟩
/-- PM_DUMP_BASE_LO, R510. -/
def PM_DUMP_BASE.ADDR : Fld := ⟨0xb00910, 0, 48⟩
/-- PM_DUMP_SIZE, R510. -/
def PM_DUMP_SIZE.BYTES : Fld := ⟨0xb00918, 0, 32⟩
/-- PM_DUMP_INFO, R511. -/
def PM_DUMP_INFO.VALID : Fld := ⟨0xb0091c, 0, 1⟩
/-- PM_DUMP_INFO, R511. -/
def PM_DUMP_INFO.PARTIAL : Fld := ⟨0xb0091c, 1, 1⟩
/-- PM_DUMP_INFO, R511. -/
def PM_DUMP_INFO.TRUNCATED : Fld := ⟨0xb0091c, 2, 1⟩
/-- PM_DUMP_INFO, R511. -/
def PM_DUMP_INFO.WRITER : Fld := ⟨0xb0091c, 3, 1⟩
/-- PM_DUMP_INFO, R511. -/
def PM_DUMP_INFO.CONFIDENTIAL : Fld := ⟨0xb0091c, 4, 1⟩
/-- PM_DUMP_INFO, R511. -/
def PM_DUMP_INFO.SKIPPED : Fld := ⟨0xb0091c, 8, 8⟩
/-- PM_DUMP_INFO, R511. -/
def PM_DUMP_INFO.SEQ : Fld := ⟨0xb0091c, 16, 16⟩
/-- PM_DUMP_LEN, R511. -/
def PM_DUMP_LEN.BYTES : Fld := ⟨0xb00920, 0, 32⟩
/-- DBG_CTRL, R551. -/
def DBG_CTRL.EN : Fld := ⟨0xc00000, 0, 1⟩
/-- DBG_CTRL, R551. -/
def DBG_CTRL.DIV : Fld := ⟨0xc00000, 1, 3⟩
/-- DBG_CTRL, R551. -/
def DBG_CTRL.GROUP : Fld := ⟨0xc00000, 8, 6⟩
/-- DBG_STATUS, R552. -/
def DBG_STATUS.ACTIVE : Fld := ⟨0xc00004, 0, 1⟩
/-- DBG_STATUS, R552. -/
def DBG_STATUS.REFUSED : Fld := ⟨0xc00004, 1, 1⟩
/-- DBG_STATUS, R552. -/
def DBG_STATUS.CAUSE : Fld := ⟨0xc00004, 2, 3⟩
/-- DBG_STATUS, R552. -/
def DBG_STATUS.TMUX_EN : Fld := ⟨0xc00004, 5, 1⟩
/-- TT_SLOTn_TGT_LO, R84. -/
def TT_SLOT_TGT.LINE (n : Nat) : Fld := ⟨0x101000 + 0x10 * n, 0, 48⟩
/-- TT_SLOTn_ACT, R84. -/
def TT_SLOT_ACT.ACTION (n : Nat) : Fld := ⟨0x101008 + 0x10 * n, 0, 3⟩
/-- TT_SLOTn_ACT, R84. -/
def TT_SLOT_ACT.ARMED (n : Nat) : Fld := ⟨0x101008 + 0x10 * n, 3, 1⟩
/-- TT_SLOTn_ACT, R84. -/
def TT_SLOT_ACT.CTX (n : Nat) : Fld := ⟨0x101008 + 0x10 * n, 4, 4⟩
/-- TT_SLOTn_ACT, R84. -/
def TT_SLOT_ACT.ARG (n : Nat) : Fld := ⟨0x101008 + 0x10 * n, 8, 16⟩
/-- CA_Cn_STATUS, R117. -/
def CA_STATUS.STATE (n : Nat) : Fld := ⟨0x200000 + 0x10000 * n, 0, 3⟩
/-- CA_Cn_STATUS, R117. -/
def CA_STATUS.CTX (n : Nat) : Fld := ⟨0x200000 + 0x10000 * n, 4, 4⟩
/-- CA_Cn_STATUS, R117. -/
def CA_STATUS.PROF_ON (n : Nat) : Fld := ⟨0x200000 + 0x10000 * n, 8, 1⟩
/-- CA_Cn_STATUS, R117. -/
def CA_STATUS.SAT_SEEN (n : Nat) : Fld := ⟨0x200000 + 0x10000 * n, 16, 1⟩
/-- CA_Cn_STATUS, R117. -/
def CA_STATUS.NAN_SEEN (n : Nat) : Fld := ⟨0x200000 + 0x10000 * n, 17, 1⟩
/-- CA_Cn_STATUS, R117. -/
def CA_STATUS.ECC_SEEN (n : Nat) : Fld := ⟨0x200000 + 0x10000 * n, 18, 1⟩
/-- CA_Cn_CFG, R118. -/
def CA_CFG.PROF_EN (n : Nat) : Fld := ⟨0x200004 + 0x10000 * n, 0, 1⟩
/-- CA_Cn_CFG, R118. -/
def CA_CFG.SAT_FAULT (n : Nat) : Fld := ⟨0x200004 + 0x10000 * n, 1, 1⟩
/-- CA_Cn_CFG, R118. -/
def CA_CFG.NAN_FAULT (n : Nat) : Fld := ⟨0x200004 + 0x10000 * n, 2, 1⟩
/-- CA_Cn_BUSY_LO, R119. -/
def CA_BUSY.COUNT (n : Nat) : Fld := ⟨0x200010 + 0x10000 * n, 0, 64⟩
/-- CA_Cn_STALL_MEM_LO, R120. -/
def CA_STALL_MEM.COUNT (n : Nat) : Fld := ⟨0x200018 + 0x10000 * n, 0, 64⟩
/-- CA_Cn_STALL_POST_LO, R121. -/
def CA_STALL_POST.COUNT (n : Nat) : Fld := ⟨0x200020 + 0x10000 * n, 0, 64⟩
/-- CA_Cn_NUMERIC, R122. -/
def CA_NUMERIC.ACC_SAT (n : Nat) : Fld := ⟨0x200028 + 0x10000 * n, 0, 16⟩
/-- CA_Cn_NUMERIC, R122. -/
def CA_NUMERIC.OUT_SAT (n : Nat) : Fld := ⟨0x200028 + 0x10000 * n, 16, 8⟩
/-- CA_Cn_NUMERIC, R122. -/
def CA_NUMERIC.NAN (n : Nat) : Fld := ⟨0x200028 + 0x10000 * n, 24, 8⟩
/-- CA_Cn_ECC, R123. -/
def CA_ECC.CORR (n : Nat) : Fld := ⟨0x20002c + 0x10000 * n, 0, 16⟩
/-- CA_Cn_ECC, R123. -/
def CA_ECC.UNCORR (n : Nat) : Fld := ⟨0x20002c + 0x10000 * n, 16, 8⟩
/-- CA_Cn_CNT_CLR, R124. -/
def CA_CNT_CLR.BUSY (n : Nat) : Fld := ⟨0x200030 + 0x10000 * n, 0, 1⟩
/-- CA_Cn_CNT_CLR, R124. -/
def CA_CNT_CLR.STALL (n : Nat) : Fld := ⟨0x200030 + 0x10000 * n, 1, 1⟩
/-- CA_Cn_CNT_CLR, R124. -/
def CA_CNT_CLR.NUMERIC (n : Nat) : Fld := ⟨0x200030 + 0x10000 * n, 2, 1⟩
/-- CA_Cn_CNT_CLR, R124. -/
def CA_CNT_CLR.ECC (n : Nat) : Fld := ⟨0x200030 + 0x10000 * n, 3, 1⟩
/-- GL_WBn_STATUS, R197. -/
def GL_WB_STATUS.LOADED (n : Nat) : Fld := ⟨0x100 + 0x20 * n, 0, 1⟩
/-- GL_WBn_STATUS, R197. -/
def GL_WB_STATUS.OVERRUN_SEEN (n : Nat) : Fld := ⟨0x100 + 0x20 * n, 1, 1⟩
/-- GL_WBn_STATUS, R197. -/
def GL_WB_STATUS.N_COACH (n : Nat) : Fld := ⟨0x100 + 0x20 * n, 8, 5⟩
/-- GL_WBn_STATUS, R197. -/
def GL_WB_STATUS.LAT_NS (n : Nat) : Fld := ⟨0x100 + 0x20 * n, 16, 11⟩
/-- GL_WBn_LATE_CYC, R198. -/
def GL_WB_LATE_CYC.COUNT (n : Nat) : Fld := ⟨0x104 + 0x20 * n, 0, 32⟩
/-- GL_WBn_LATE_BEATS, R198. -/
def GL_WB_LATE_BEATS.COUNT (n : Nat) : Fld := ⟨0x108 + 0x20 * n, 0, 32⟩
/-- GL_WBn_OVERRUN, R199. -/
def GL_WB_OVERRUN.COUNT (n : Nat) : Fld := ⟨0x10c + 0x20 * n, 0, 16⟩
/-- GL_WBn_OVERRUN, R199. -/
def GL_WB_OVERRUN.LAST_STAGE (n : Nat) : Fld := ⟨0x10c + 0x20 * n, 16, 8⟩
/-- GL_WBn_OVERRUN, R199. -/
def GL_WB_OVERRUN.LAST_COACH (n : Nat) : Fld := ⟨0x10c + 0x20 * n, 24, 4⟩
/-- GL_WBn_DELAY, R198. -/
def GL_WB_DELAY.MAX (n : Nat) : Fld := ⟨0x110 + 0x20 * n, 0, 32⟩
/-- GL_WBn_FOREIGN, R198. -/
def GL_WB_FOREIGN.COUNT (n : Nat) : Fld := ⟨0x114 + 0x20 * n, 0, 32⟩
/-- GL_WBn_DROPS, R200. -/
def GL_WB_DROPS.ROWS (n : Nat) : Fld := ⟨0x118 + 0x20 * n, 0, 16⟩
/-- GL_WBn_DROPS, R200. -/
def GL_WB_DROPS.RES_EXCEED (n : Nat) : Fld := ⟨0x118 + 0x20 * n, 16, 16⟩
/-- GL_CTXn_STATUS, R267. -/
def GL_CTX_STATUS.STATE (n : Nat) : Fld := ⟨0x300 + 0x20 * n, 0, 3⟩
/-- GL_CTXn_STATUS, R267. -/
def GL_CTX_STATUS.CONFIDENTIAL (n : Nat) : Fld := ⟨0x300 + 0x20 * n, 3, 1⟩
/-- GL_CTXn_STATUS, R267. -/
def GL_CTX_STATUS.SLICED (n : Nat) : Fld := ⟨0x300 + 0x20 * n, 4, 1⟩
/-- GL_CTXn_STATUS, R267. -/
def GL_CTX_STATUS.RESIDENT (n : Nat) : Fld := ⟨0x300 + 0x20 * n, 5, 1⟩
/-- GL_CTXn_STATUS, R267. -/
def GL_CTX_STATUS.PARTITION (n : Nat) : Fld := ⟨0x300 + 0x20 * n, 16, 16⟩
/-- GL_CTXn_SLICE, R268. -/
def GL_CTX_SLICE.LEN (n : Nat) : Fld := ⟨0x304 + 0x20 * n, 0, 24⟩
/-- GL_CTXn_SLICE, R268. -/
def GL_CTX_SLICE.UNIT (n : Nat) : Fld := ⟨0x304 + 0x20 * n, 24, 1⟩
/-- GL_CTXn_DEBT, R268. -/
def GL_CTX_DEBT.CARRIED (n : Nat) : Fld := ⟨0x308 + 0x20 * n, 0, 28⟩
/-- GL_CTXn_SWITCH, R268. -/
def GL_CTX_SWITCH.COUNT (n : Nat) : Fld := ⟨0x30c + 0x20 * n, 0, 16⟩
/-- GL_CTXn_SWITCH, R268. -/
def GL_CTX_SWITCH.MAX_US (n : Nat) : Fld := ⟨0x30c + 0x20 * n, 16, 16⟩
/-- GL_CTXn_RETIRE, R269. -/
def GL_CTX_RETIRE.PEERS_PENDING (n : Nat) : Fld := ⟨0x310 + 0x20 * n, 0, 7⟩
/-- GL_CTXn_RETIRE, R269. -/
def GL_CTX_RETIRE.TIMER_DONE (n : Nat) : Fld := ⟨0x310 + 0x20 * n, 7, 1⟩
/-- GL_CTXn_RETIRE, R269. -/
def GL_CTX_RETIRE.RESENDS (n : Nat) : Fld := ⟨0x310 + 0x20 * n, 8, 2⟩
/-- GL_CTXn_EPOCH_LO, R269. -/
def GL_CTX_EPOCH.EPOCH (n : Nat) : Fld := ⟨0x314 + 0x20 * n, 0, 64⟩
/-- GL_FLTu_P0, R507. -/
def GL_FLT_P0.VALID (u : Nat) : Fld := ⟨0x800 + 0x20 * u, 0, 1⟩
/-- GL_FLTu_P0, R507. -/
def GL_FLT_P0.CODE (u : Nat) : Fld := ⟨0x800 + 0x20 * u, 8, 8⟩
/-- GL_FLTu_P0, R507. -/
def GL_FLT_P0.LEVEL (u : Nat) : Fld := ⟨0x800 + 0x20 * u, 16, 4⟩
/-- GL_FLTu_P0, R507. -/
def GL_FLT_P0.CTX (u : Nat) : Fld := ⟨0x800 + 0x20 * u, 20, 4⟩
/-- GL_FLTu_P0, R507. -/
def GL_FLT_P0.COACH (u : Nat) : Fld := ⟨0x800 + 0x20 * u, 24, 4⟩
/-- GL_FLTu_P1, R507. -/
def GL_FLT_P1.STAGE (u : Nat) : Fld := ⟨0x804 + 0x20 * u, 0, 8⟩
/-- GL_FLTu_P1, R507. -/
def GL_FLT_P1.ROW (u : Nat) : Fld := ⟨0x804 + 0x20 * u, 8, 24⟩
/-- GL_FLTu_P2, R507. -/
def GL_FLT_P2.LINE (u : Nat) : Fld := ⟨0x808 + 0x20 * u, 0, 32⟩
/-- GL_FLTu_S0, R507. -/
def GL_FLT_S0.VALID (u : Nat) : Fld := ⟨0x80c + 0x20 * u, 0, 1⟩
/-- GL_FLTu_S0, R507. -/
def GL_FLT_S0.CODE (u : Nat) : Fld := ⟨0x80c + 0x20 * u, 8, 8⟩
/-- GL_FLTu_S0, R507. -/
def GL_FLT_S0.LEVEL (u : Nat) : Fld := ⟨0x80c + 0x20 * u, 16, 4⟩
/-- GL_FLTu_S0, R507. -/
def GL_FLT_S0.CTX (u : Nat) : Fld := ⟨0x80c + 0x20 * u, 20, 4⟩
/-- GL_FLTu_S0, R507. -/
def GL_FLT_S0.COACH (u : Nat) : Fld := ⟨0x80c + 0x20 * u, 24, 4⟩
/-- GL_FLTu_S1, R507. -/
def GL_FLT_S1.STAGE (u : Nat) : Fld := ⟨0x810 + 0x20 * u, 0, 8⟩
/-- GL_FLTu_S1, R507. -/
def GL_FLT_S1.ROW (u : Nat) : Fld := ⟨0x810 + 0x20 * u, 8, 24⟩
/-- GL_FLTu_S2, R507. -/
def GL_FLT_S2.LINE (u : Nat) : Fld := ⟨0x814 + 0x20 * u, 0, 32⟩
/-- GL_FLTu_CNT, R508. -/
def GL_FLT_CNT.EXTRA (u : Nat) : Fld := ⟨0x818 + 0x20 * u, 0, 16⟩
/-- GL_FLTu_CNT, R508. -/
def GL_FLT_CNT.TOTAL (u : Nat) : Fld := ⟨0x818 + 0x20 * u, 16, 16⟩
/-- MP_Pp_LAT_MAX, R234. -/
def MP_P_LAT_MAX.NS (p : Nat) : Fld := ⟨0x400100 + 0x20 * p, 0, 16⟩
/-- MP_Pp_LATE, R234. -/
def MP_P_LATE.COUNT (p : Nat) : Fld := ⟨0x400104 + 0x20 * p, 0, 32⟩
/-- MP_Pp_STALL, R234. -/
def MP_P_STALL.COUNT (p : Nat) : Fld := ⟨0x400108 + 0x20 * p, 0, 32⟩
/-- MP_Pp_ERRS, R234. -/
def MP_P_ERRS.RD_ERR (p : Nat) : Fld := ⟨0x40010c + 0x20 * p, 0, 8⟩
/-- MP_Pp_ERRS, R234. -/
def MP_P_ERRS.WR_ERR (p : Nat) : Fld := ⟨0x40010c + 0x20 * p, 8, 8⟩
/-- MP_Pp_ORPHAN, R234. -/
def MP_P_ORPHAN.HELD (p : Nat) : Fld := ⟨0x400110 + 0x20 * p, 0, 8⟩
/-- MP_Pp_ORPHAN, R234. -/
def MP_P_ORPHAN.DISCARDED (p : Nat) : Fld := ⟨0x400110 + 0x20 * p, 8, 16⟩
/-- MP_Pp_BEATS_LO, R235. -/
def MP_P_BEATS.COUNT (p : Nat) : Fld := ⟨0x400114 + 0x20 * p, 0, 64⟩
/-- MP_CTXn_RES_PROD, R236. -/
def MP_CTX_RES_PROD.ROWS (n : Nat) : Fld := ⟨0x400200 + 0x10 * n, 0, 32⟩
/-- MP_CTXn_RES_CONS, R236. -/
def MP_CTX_RES_CONS.ROWS (n : Nat) : Fld := ⟨0x400204 + 0x10 * n, 0, 32⟩
/-- MP_CTXn_RING, R236. -/
def MP_CTX_RING.OVERWRITE (n : Nat) : Fld := ⟨0x400208 + 0x10 * n, 0, 16⟩
/-- MP_CTXn_RING, R236. -/
def MP_CTX_RING.STAMP_MISMATCH (n : Nat) : Fld := ⟨0x400208 + 0x10 * n, 16, 16⟩
/-- TL_Pp_ERR, R303. -/
def TL_P_ERR.CRC (p : Nat) : Fld := ⟨0x500040 + 0x10 * p, 0, 8⟩
/-- TL_Pp_ERR, R303. -/
def TL_P_ERR.LEN (p : Nat) : Fld := ⟨0x500040 + 0x10 * p, 8, 8⟩
/-- TL_Pp_ERR, R303. -/
def TL_P_ERR.AUTH (p : Nat) : Fld := ⟨0x500040 + 0x10 * p, 16, 8⟩
/-- TL_Pp_ERR, R303. -/
def TL_P_ERR.REPLAY (p : Nat) : Fld := ⟨0x500040 + 0x10 * p, 24, 8⟩
/-- TL_Pp_TRAIN, R303. -/
def TL_P_TRAIN.COUNT (p : Nat) : Fld := ⟨0x500044 + 0x10 * p, 0, 16⟩
/-- TL_Pp_TRAIN, R303. -/
def TL_P_TRAIN.LAST_CAUSE (p : Nat) : Fld := ⟨0x500044 + 0x10 * p, 16, 3⟩
/-- TL_TABLEk_LO, R304. -/
def TL_TABLE.POS (k : Nat) : Fld := ⟨0x500100 + 8 * k, 0, 6⟩
/-- TL_TABLEk_LO, R304. -/
def TL_TABLE.VALID (k : Nat) : Fld := ⟨0x500100 + 8 * k, 6, 1⟩
/-- TL_TABLEk_LO, R304. -/
def TL_TABLE.SELF (k : Nat) : Fld := ⟨0x500100 + 8 * k, 7, 1⟩
/-- TL_TABLEk_HI, R304. -/
def TL_TABLE_ID.ID (k : Nat) : Fld := ⟨0x500104 + 8 * k, 0, 32⟩
/-- H2K_DATA, R319. -/
def MB.H2K_DATA.WORD (k : Nat) : Fld := ⟨mbBase k, 0, 32⟩
/-- H2K_CTRL, R319. -/
def MB.H2K_CTRL.COMMIT (k : Nat) : Fld := ⟨mbBase k + 4, 0, 1⟩
/-- H2K_CTRL, R319. -/
def MB.H2K_CTRL.DISCARD (k : Nat) : Fld := ⟨mbBase k + 4, 1, 1⟩
/-- H2K_STATUS, R320. -/
def MB.H2K_STATUS.FULL (k : Nat) : Fld := ⟨mbBase k + 8, 0, 1⟩
/-- H2K_STATUS, R320. -/
def MB.H2K_STATUS.WCOUNT (k : Nat) : Fld := ⟨mbBase k + 8, 1, 4⟩
/-- H2K_STATUS, R320. -/
def MB.H2K_STATUS.PEER (k : Nat) : Fld := ⟨mbBase k + 8, 6, 2⟩
/-- H2K_STATUS, R320. -/
def MB.H2K_STATUS.BAD_LENGTH (k : Nat) : Fld := ⟨mbBase k + 8, 8, 1⟩
/-- H2K_STATUS, R320. -/
def MB.H2K_STATUS.OVERFLOW (k : Nat) : Fld := ⟨mbBase k + 8, 9, 1⟩
/-- H2K_STATUS, R320. -/
def MB.H2K_STATUS.WRITE_FULL (k : Nat) : Fld := ⟨mbBase k + 8, 10, 1⟩
/-- H2K_DB_SET, R319. -/
def MB.H2K_DB_SET.SET (k : Nat) : Fld := ⟨mbBase k + 0xc, 0, 32⟩
/-- H2K_DB_PEND, R321. -/
def MB.H2K_DB_PEND.PEND (k : Nat) : Fld := ⟨mbBase k + 0x10, 0, 32⟩
/-- K2H_DATA, R322. -/
def MB.K2H_DATA.WORD (k : Nat) : Fld := ⟨mbBase k + 0x20, 0, 32⟩
/-- K2H_HDR, R322. -/
def MB.K2H_HDR.HEADER (k : Nat) : Fld := ⟨mbBase k + 0x24, 0, 32⟩
/-- K2H_STATUS, R322. -/
def MB.K2H_STATUS.FULL (k : Nat) : Fld := ⟨mbBase k + 0x28, 0, 1⟩
/-- K2H_STATUS, R322. -/
def MB.K2H_STATUS.REMAIN (k : Nat) : Fld := ⟨mbBase k + 0x28, 1, 4⟩
/-- K2H_STATUS, R322. -/
def MB.K2H_STATUS.UNDERRUN (k : Nat) : Fld := ⟨mbBase k + 0x28, 5, 1⟩
/-- K2H_DB_PEND, R323. -/
def MB.K2H_DB_PEND.PEND (k : Nat) : Fld := ⟨mbBase k + 0x2c, 0, 32⟩
/-- K2H_DB_MASK, R323. -/
def MB.K2H_DB_MASK.MASK (k : Nat) : Fld := ⟨mbBase k + 0x30, 0, 32⟩
/-- ABORT, R324. -/
def MB.ABORT.OPCODE (k : Nat) : Fld := ⟨mbBase k + 0x34, 0, 8⟩
/-- ABORT, R324. -/
def MB.ABORT.SEQ (k : Nat) : Fld := ⟨mbBase k + 0x34, 8, 8⟩
/-- ABORT, R324. -/
def MB.ABORT.COUNT (k : Nat) : Fld := ⟨mbBase k + 0x34, 16, 8⟩
/-- ABORT, R324. -/
def MB.ABORT.VALID (k : Nat) : Fld := ⟨mbBase k + 0x34, 24, 1⟩
/-- CNT, R325. -/
def MB.CNT.BAD_LENGTH (k : Nat) : Fld := ⟨mbBase k + 0x38, 0, 8⟩
/-- CNT, R325. -/
def MB.CNT.WRITE_FULL (k : Nat) : Fld := ⟨mbBase k + 0x38, 8, 8⟩
/-- CNT, R325. -/
def MB.CNT.UNDERRUN (k : Nat) : Fld := ⟨mbBase k + 0x38, 16, 8⟩
/-- CNT_CLR, R325. -/
def MB.CNT_CLR.CNT (k : Nat) : Fld := ⟨mbBase k + 0x3c, 0, 1⟩
/-- CNT_CLR, R325. -/
def MB.CNT_CLR.ABORT (k : Nat) : Fld := ⟨mbBase k + 0x3c, 1, 1⟩
/-- EV_PENDw, R361. -/
def EV_PEND.PEND (fast : Bool) (w : Nat) (b : Nat) : Fld := ⟨0x700000 + 4 * w + evBank fast, b, 1⟩
/-- EV_MASKw, R361. -/
def EV_MASK.MASK (fast : Bool) (w : Nat) (b : Nat) : Fld := ⟨0x700010 + 4 * w + evBank fast, b, 1⟩
/-- EV_ACTIVEw, R361. -/
def EV_ACTIVE.ACTIVE (fast : Bool) (w : Nat) (b : Nat) : Fld := ⟨0x700020 + 4 * w + evBank fast, b, 1⟩
/-- EV_RAWw, R361. -/
def EV_RAW.RAW (w : Nat) (b : Nat) : Fld := ⟨0x700030 + 4 * w, b, 1⟩
/-- EV_CLASSw, R362. -/
def EV_CLASS.FAST (w : Nat) (b : Nat) : Fld := ⟨0x700040 + 4 * w, b, 1⟩
/-- EV_ROUTEk, R362. -/
def EV_ROUTE.ROUTE (k : Nat) (j : Nat) : Fld := ⟨0x700050 + 4 * k, 2 * j, 2⟩
/-- EV_CLAIM, R363. -/
def EV_CLAIM.SRC (fast : Bool) : Fld := ⟨0x700080 + evBank fast, 0, 7⟩
/-- EV_CLAIM, R363. -/
def EV_CLAIM.VALID (fast : Bool) : Fld := ⟨0x700080 + evBank fast, 31, 1⟩
/-- EV_EOI, R363. -/
def EV_EOI.SRC (fast : Bool) : Fld := ⟨0x700084 + evBank fast, 0, 7⟩
/-- EV_DISCARD, R363. -/
def EV_DISCARD.SRC (fast : Bool) : Fld := ⟨0x700088 + evBank fast, 0, 7⟩
/-- EV_HOLDg, R364. -/
def EV_HOLD.TIME (fast : Bool) (g : Nat) : Fld := ⟨0x700100 + 4 * g + evBank fast, 0, 12⟩
/-- EV_HOLDg, R364. -/
def EV_HOLD.RUNNING (fast : Bool) (g : Nat) : Fld := ⟨0x700100 + 4 * g + evBank fast, 16, 1⟩
/-- PM_LAN_SELk, R367. -/
def PM_LAN_SEL.SRC (k : Nat) (j : Nat) : Fld := ⟨0xb00804 + 4 * k, 8 * j, 7⟩
/-- PM_LAN_SELk, R367. -/
def PM_LAN_SEL.EN (k : Nat) (j : Nat) : Fld := ⟨0xb00804 + 4 * k, 8 * j + 7, 1⟩
/-- SB_LOG_DATAw, R394. -/
def SB_LOG_DATA.WORD (w : Nat) : Fld := ⟨0x800040 + 4 * w, 0, 32⟩
/-- SB_MRk_w, R395. -/
def SB_MR.VALUE (k : Nat) (w : Nat) : Fld := ⟨0x800100 + 0x40 * k + 4 * w, 0, 32⟩
/-- SB_LEDGERn_CNT_LO, R424. -/
def SB_LEDGER_CNT.RECORDS (n : Nat) : Fld := ⟨0x800400 + 0x10 * n, 0, 64⟩
/-- SB_LEDGERn_STATE, R424. -/
def SB_LEDGER_STATE.OPEN (n : Nat) : Fld := ⟨0x800408 + 0x10 * n, 0, 1⟩
/-- SB_LEDGERn_STATE, R424. -/
def SB_LEDGER_STATE.FINAL_HELD (n : Nat) : Fld := ⟨0x800408 + 0x10 * n, 1, 1⟩
/-- SB_LEDGERn_STATE, R424. -/
def SB_LEDGER_STATE.RASTER_WAIT (n : Nat) : Fld := ⟨0x800408 + 0x10 * n, 2, 1⟩
/-- SB_LEDGERn_STATE, R424. -/
def SB_LEDGER_STATE.ROWS_HELD (n : Nat) : Fld := ⟨0x800408 + 0x10 * n, 16, 16⟩
/-- SB_UPDu_STATE, R480. -/
def SB_UPD_STATE.ACTIVE (u : Nat) : Fld := ⟨0x800500 + 0x10 * u, 0, 1⟩
/-- SB_UPDu_STATE, R480. -/
def SB_UPD_STATE.STATE (u : Nat) : Fld := ⟨0x800500 + 0x10 * u, 1, 2⟩
/-- SB_UPDu_STATE, R480. -/
def SB_UPD_STATE.INACTIVE (u : Nat) : Fld := ⟨0x800500 + 0x10 * u, 3, 2⟩
/-- SB_UPDu_STATE, R480. -/
def SB_UPD_STATE.EXPIRED (u : Nat) : Fld := ⟨0x800500 + 0x10 * u, 5, 1⟩
/-- SB_UPDu_STATE, R480. -/
def SB_UPD_STATE.TRIAL_S (u : Nat) : Fld := ⟨0x800500 + 0x10 * u, 16, 16⟩
/-- SB_UPDu_VER_A, R480. -/
def SB_UPD_VER_A.VERSION (u : Nat) : Fld := ⟨0x800504 + 0x10 * u, 0, 32⟩
/-- SB_UPDu_VER_B, R480. -/
def SB_UPD_VER_B.VERSION (u : Nat) : Fld := ⟨0x800508 + 0x10 * u, 0, 32⟩
/-- DG_OWN, R437. -/
def DG_OWN.OWNER (v : Nat) : Fld := ⟨0x900000 + dgView v, 0, 2⟩
/-- DG_OWN, R437. -/
def DG_OWN.CLAIM (v : Nat) : Fld := ⟨0x900000 + dgView v, 4, 1⟩
/-- DG_OWN, R437. -/
def DG_OWN.RELEASE (v : Nat) : Fld := ⟨0x900000 + dgView v, 5, 1⟩
/-- DG_OWN, R437. -/
def DG_OWN.GRANTED (v : Nat) : Fld := ⟨0x900000 + dgView v, 8, 1⟩
/-- DG_OWN, R437. -/
def DG_OWN.BUSY (v : Nat) : Fld := ⟨0x900000 + dgView v, 9, 1⟩
/-- DG_CFG, R438. -/
def DG_CFG.ALG (v : Nat) : Fld := ⟨0x900004 + dgView v, 0, 2⟩
/-- DG_CFG, R438. -/
def DG_CFG.HMAC (v : Nat) : Fld := ⟨0x900004 + dgView v, 2, 1⟩
/-- DG_CFG, R438. -/
def DG_CFG.KEY_SRC (v : Nat) : Fld := ⟨0x900004 + dgView v, 3, 1⟩
/-- DG_CFG, R438. -/
def DG_CFG.KEY_LEN (v : Nat) : Fld := ⟨0x900004 + dgView v, 8, 8⟩
/-- DG_CTRL, R439. -/
def DG_CTRL.START (v : Nat) : Fld := ⟨0x900008 + dgView v, 0, 1⟩
/-- DG_CTRL, R439. -/
def DG_CTRL.ABORT (v : Nat) : Fld := ⟨0x900008 + dgView v, 1, 1⟩
/-- DG_CTRL, R439. -/
def DG_CTRL.MEM_GO (v : Nat) : Fld := ⟨0x900008 + dgView v, 2, 1⟩
/-- DG_STATUS, R440. -/
def DG_STATUS.ACTIVE (v : Nat) : Fld := ⟨0x90000c + dgView v, 0, 1⟩
/-- DG_STATUS, R440. -/
def DG_STATUS.DONE (v : Nat) : Fld := ⟨0x90000c + dgView v, 1, 1⟩
/-- DG_STATUS, R440. -/
def DG_STATUS.SUSPENDED (v : Nat) : Fld := ⟨0x90000c + dgView v, 2, 1⟩
/-- DG_STATUS, R440. -/
def DG_STATUS.MEM_RUN (v : Nat) : Fld := ⟨0x90000c + dgView v, 3, 1⟩
/-- DG_STATUS, R440. -/
def DG_STATUS.BAD_COUNT (v : Nat) : Fld := ⟨0x90000c + dgView v, 8, 1⟩
/-- DG_STATUS, R440. -/
def DG_STATUS.EARLY_READ (v : Nat) : Fld := ⟨0x90000c + dgView v, 9, 1⟩
/-- DG_STATUS, R440. -/
def DG_STATUS.MEM_ERR (v : Nat) : Fld := ⟨0x90000c + dgView v, 10, 1⟩
/-- DG_STATUS, R440. -/
def DG_STATUS.BAD_SRC (v : Nat) : Fld := ⟨0x90000c + dgView v, 11, 1⟩
/-- DG_STATUS, R440. -/
def DG_STATUS.BAD_KEY (v : Nat) : Fld := ⟨0x90000c + dgView v, 12, 1⟩
/-- DG_STATUS, R440. -/
def DG_STATUS.LOST (v : Nat) : Fld := ⟨0x90000c + dgView v, 13, 1⟩
/-- DG_STATUS, R440. -/
def DG_STATUS.EXPIRED (v : Nat) : Fld := ⟨0x90000c + dgView v, 14, 1⟩
/-- DG_DATA, R441. -/
def DG_DATA.WORD (v : Nat) : Fld := ⟨0x900010 + dgView v, 0, 32⟩
/-- DG_LAST, R441. -/
def DG_LAST.WORD (v : Nat) : Fld := ⟨0x900014 + dgView v, 0, 32⟩
/-- DG_LAST_CNT, R441. -/
def DG_LAST_CNT.COUNT (v : Nat) : Fld := ⟨0x900018 + dgView v, 0, 3⟩
/-- DG_SRC_LO, R442. -/
def DG_SRC.ADDR (v : Nat) : Fld := ⟨0x900020 + dgView v, 0, 48⟩
/-- DG_SRC_LEN, R442. -/
def DG_SRC_LEN.BYTES (v : Nat) : Fld := ⟨0x900028 + dgView v, 0, 32⟩
/-- DG_MEM_CFG, R442. -/
def DG_MEM_CFG.FINAL (v : Nat) : Fld := ⟨0x90002c + dgView v, 0, 1⟩
/-- DG_MEM_CFG, R442. -/
def DG_MEM_CFG.SEL (v : Nat) : Fld := ⟨0x90002c + dgView v, 1, 2⟩
/-- DG_REFUSED, R444. -/
def DG_REFUSED.CLAIMS (v : Nat) : Fld := ⟨0x9000c0 + dgView v, 0, 8⟩
/-- DG_REFUSED, R444. -/
def DG_REFUSED.WRITES (v : Nat) : Fld := ⟨0x9000c0 + dgView v, 8, 8⟩
/-- DG_REFUSED, R444. -/
def DG_REFUSED.SUSPENDS (v : Nat) : Fld := ⟨0x9000c0 + dgView v, 16, 8⟩
/-- DG_CNT_CLR, R444. -/
def DG_CNT_CLR.REFUSED (v : Nat) : Fld := ⟨0x9000c4 + dgView v, 0, 1⟩
/-- DG_KEYw, R443. -/
def DG_KEY.KEY (v w : Nat) : Fld := ⟨0x900040 + 4 * w + dgView v, 0, 32⟩
/-- DG_RESULTw, R443. -/
def DG_RESULT.RESULT (v w : Nat) : Fld := ⟨0x900100 + 4 * w + dgView v, 0, 32⟩
/-- OTP_SHADOWw, R462. -/
def OTP_SHADOW.DATA (w : Nat) : Fld := ⟨0xa01000 + 4 * w, 0, 32⟩
/-- OTP_WFLAGw, R462. -/
def OTP_WFLAG.CHECK (w : Nat) : Fld := ⟨0xa02000 + 4 * w, 0, 8⟩
/-- OTP_WFLAGw, R462. -/
def OTP_WFLAG.MARGINAL (w : Nat) : Fld := ⟨0xa02000 + 4 * w, 8, 1⟩
/-- OTP_WFLAGw, R462. -/
def OTP_WFLAG.BAD (w : Nat) : Fld := ⟨0xa02000 + 4 * w, 9, 1⟩

/-- Registers of one window of R30 (or, for regsHidden, of a view outside it). -/
def regsGl : List RRow :=
  [⟨0, 4, 1, 0, [⟨0, 16, .ro, 0x24⟩, ⟨16, 8, .ro, 0x4d⟩, ⟨24, 8, .ro, 0x48⟩]⟩,
   ⟨4, 4, 1, 0, [⟨0, 8, .ro, 0⟩, ⟨8, 8, .ro, 1⟩]⟩,
   ⟨0x10, 4, 1, 0, [⟨0, 1, .ro, 0⟩, ⟨1, 1, .ro, 0⟩, ⟨2, 1, .ro, 0⟩, ⟨3, 1, .ro, 0⟩, ⟨4, 1, .ro, 0⟩, ⟨5, 1, .ro, 0⟩, ⟨6, 1, .ro, 0⟩, ⟨8, 6, .ro, 0⟩, ⟨16, 5, .ro, 0⟩]⟩,
   ⟨0x20, 4, 1, 0, [⟨0, 16, .ro, 0⟩, ⟨16, 4, .ro, 0⟩]⟩,
   ⟨0x24, 4, 1, 0, [⟨0, 8, .ro, 0⟩, ⟨8, 8, .ro, 0⟩, ⟨16, 8, .ro, 0⟩]⟩,
   ⟨0x28, 4, 1, 0, [⟨0, 1, .wo, 0⟩, ⟨1, 1, .wo, 0⟩]⟩,
   ⟨0x120, 0x20, 8, 0, [⟨0, 1, .ro, 0⟩, ⟨1, 1, .w1c, 0⟩, ⟨8, 5, .ro, 0⟩, ⟨16, 11, .ro, 0⟩]⟩,
   ⟨0x124, 0x20, 8, 0, [⟨0, 32, .ro, 0⟩]⟩,
   ⟨0x128, 0x20, 8, 0, [⟨0, 32, .ro, 0⟩]⟩,
   ⟨0x12c, 0x20, 8, 0, [⟨0, 16, .ro, 0⟩, ⟨16, 8, .ro, 0⟩, ⟨24, 4, .ro, 0⟩]⟩,
   ⟨0x130, 0x20, 8, 0, [⟨0, 32, .ro, 0⟩]⟩,
   ⟨0x134, 0x20, 8, 0, [⟨0, 32, .ro, 0⟩]⟩,
   ⟨0x138, 0x20, 8, 0, [⟨0, 16, .ro, 0⟩, ⟨16, 16, .ro, 0⟩]⟩,
   ⟨0x240, 4, 1, 0, [⟨1, 8, .wo, 0⟩]⟩,
   ⟨0x280, 4, 1, 0, fields 0 4 4 8 .ro 0⟩,
   ⟨0x284, 4, 1, 0, fields 0 4 4 8 .ro 0⟩,
   ⟨0x288, 4, 1, 0, [⟨0, 16, .ro, 0⟩, ⟨16, 8, .ro, 0⟩]⟩,
   ⟨0x320, 0x20, 8, 0, [⟨0, 3, .ro, 0⟩, ⟨3, 1, .ro, 0⟩, ⟨4, 1, .ro, 0⟩, ⟨5, 1, .ro, 0⟩, ⟨16, 16, .ro, 0⟩]⟩,
   ⟨0x324, 0x20, 8, 0, [⟨0, 24, .ro, 0⟩, ⟨24, 1, .ro, 0⟩]⟩,
   ⟨0x328, 0x20, 8, 0, [⟨0, 28, .ro, 0⟩]⟩,
   ⟨0x32c, 0x20, 8, 0, [⟨0, 16, .ro, 0⟩, ⟨16, 16, .ro, 0⟩]⟩,
   ⟨0x330, 0x20, 8, 0, [⟨0, 7, .ro, 0⟩, ⟨7, 1, .ro, 0⟩, ⟨8, 2, .ro, 0⟩]⟩,
   ⟨0x334, 0x20, 8, 1, [⟨0, 64, .ro, 0⟩]⟩,
   ⟨0x338, 0x20, 8, 2, []⟩,
   ⟨0x800, 0x20, 21, 0, [⟨0, 1, .ro, 0⟩, ⟨8, 8, .ro, 0⟩, ⟨16, 4, .ro, 0⟩, ⟨20, 4, .ro, 0⟩, ⟨24, 4, .ro, 0⟩]⟩,
   ⟨0x804, 0x20, 21, 0, [⟨0, 8, .ro, 0⟩, ⟨8, 24, .ro, 0⟩]⟩,
   ⟨0x808, 0x20, 21, 0, [⟨0, 32, .ro, 0⟩]⟩,
   ⟨0x80c, 0x20, 21, 0, [⟨0, 1, .ro, 0⟩, ⟨8, 8, .ro, 0⟩, ⟨16, 4, .ro, 0⟩, ⟨20, 4, .ro, 0⟩, ⟨24, 4, .ro, 0⟩]⟩,
   ⟨0x810, 0x20, 21, 0, [⟨0, 8, .ro, 0⟩, ⟨8, 24, .ro, 0⟩]⟩,
   ⟨0x814, 0x20, 21, 0, [⟨0, 32, .ro, 0⟩]⟩,
   ⟨0x818, 0x20, 21, 0, [⟨0, 16, .ro, 0⟩, ⟨16, 16, .ro, 0⟩]⟩,
   ⟨0xac0, 4, 1, 0, fields 0 1 1 21 .ro 0⟩]
/-- Registers of one window of R30 (or, for regsHidden, of a view outside it). -/
def regsTt : List RRow :=
  [⟨0x100000, 4, 1, 0, [⟨0, 1, .rw, 0⟩, ⟨1, 1, .wo, 0⟩, ⟨2, 1, .wo, 0⟩]⟩,
   ⟨0x100004, 4, 1, 0, [⟨0, 2, .rwl, 0⟩, ⟨2, 1, .rwl, 0⟩, ⟨3, 1, .rwl, 0⟩, ⟨8, 8, .rwl, 0xb⟩]⟩,
   ⟨0x100008, 4, 1, 0, [⟨0, 25, .rwl, 0x1000000⟩]⟩,
   ⟨0x10000c, 4, 1, 0, [⟨0, 3, .ro, 0⟩, ⟨3, 1, .ro, 0⟩, ⟨4, 1, .ro, 0⟩, ⟨5, 1, .w1c, 0⟩, ⟨8, 3, .ro, 0⟩]⟩,
   ⟨0x100010, 4, 1, 1, [⟨0, 48, .ro, 0⟩]⟩,
   ⟨0x100014, 4, 1, 2, []⟩,
   ⟨0x100018, 4, 1, 1, [⟨0, 48, .rw, 0⟩]⟩,
   ⟨0x10001c, 4, 1, 2, []⟩,
   ⟨0x100020, 4, 1, 0, [⟨0, 28, .ro, 0xfffffff⟩]⟩,
   ⟨0x100024, 4, 1, 0, [⟨0, 18, .ro, 0⟩]⟩,
   ⟨0x100028, 4, 1, 0, [⟨0, 18, .rwe, 0x27100⟩]⟩,
   ⟨0x10002c, 4, 1, 0, [⟨0, 20, .rw, 0x4e20⟩]⟩,
   ⟨0x100030, 4, 1, 0, [⟨0, 16, .ro, 0⟩]⟩,
   ⟨0x100034, 4, 1, 0, [⟨0, 16, .rwl, 0x400⟩]⟩,
   ⟨0x100038, 4, 1, 0, [⟨0, 24, .rwl, 0⟩, ⟨24, 8, .rwl, 4⟩]⟩,
   ⟨0x10003c, 4, 1, 0, [⟨0, 2, .rwl, 0⟩, ⟨2, 1, .rwl, 0⟩, ⟨8, 8, .rwl, 9⟩]⟩,
   ⟨0x100040, 4, 1, 0, [⟨0, 16, .rwe, 0⟩]⟩,
   ⟨0x100044, 4, 1, 0, [⟨0, 24, .rwe, 0⟩]⟩,
   ⟨0x100048, 4, 1, 0, [⟨0, 16, .rwe, 0x40⟩, ⟨16, 16, .rwe, 0x400⟩]⟩,
   ⟨0x10004c, 4, 1, 0, [⟨0, 32, .ro, 0⟩]⟩,
   ⟨0x100050, 4, 1, 1, [⟨0, 48, .ro, 0⟩]⟩,
   ⟨0x100054, 4, 1, 2, []⟩,
   ⟨0x100058, 4, 1, 0, [⟨0, 8, .ro, 0⟩, ⟨8, 8, .ro, 0⟩, ⟨16, 8, .ro, 0⟩, ⟨24, 8, .ro, 0⟩]⟩,
   ⟨0x10005c, 4, 1, 0, [⟨0, 8, .ro, 0⟩, ⟨8, 8, .ro, 0⟩]⟩,
   ⟨0x100060, 4, 1, 0, [⟨0, 16, .ro, 0⟩, ⟨16, 16, .ro, 0⟩]⟩,
   ⟨0x100064, 4, 1, 0, [⟨0, 16, .ro, 0⟩]⟩,
   ⟨0x100068, 4, 1, 0, [⟨0, 1, .wo, 0⟩, ⟨1, 1, .wo, 0⟩, ⟨2, 1, .wo, 0⟩, ⟨3, 1, .wo, 0⟩]⟩,
   ⟨0x101000, 0x10, 256, 1, [⟨0, 48, .ro, 0⟩]⟩,
   ⟨0x101004, 0x10, 256, 2, []⟩,
   ⟨0x101008, 0x10, 256, 0, [⟨0, 3, .ro, 0⟩, ⟨3, 1, .ro, 0⟩, ⟨4, 4, .ro, 0⟩, ⟨8, 16, .ro, 0⟩]⟩]
/-- Registers of one window of R30 (or, for regsHidden, of a view outside it). -/
def regsGg : List RRow :=
  [⟨0x300000, 4, 1, 0, [⟨0, 3, .ro, 0⟩, ⟨4, 4, .ro, 0⟩, ⟨8, 4, .ro, 0⟩, ⟨12, 1, .ro, 0⟩, ⟨16, 1, .w1c, 0⟩, ⟨17, 1, .w1c, 0⟩, ⟨18, 1, .w1c, 0⟩]⟩,
   ⟨0x300004, 4, 1, 0, [⟨0, 1, .rw, 1⟩, ⟨1, 1, .rwl, 0⟩, ⟨2, 1, .rwl, 0⟩]⟩,
   ⟨0x300010, 4, 1, 1, [⟨0, 64, .ro, 0⟩]⟩,
   ⟨0x300014, 4, 1, 2, []⟩,
   ⟨0x300018, 4, 1, 1, [⟨0, 64, .ro, 0⟩]⟩,
   ⟨0x30001c, 4, 1, 2, []⟩,
   ⟨0x300028, 4, 1, 0, [⟨0, 16, .ro, 0⟩, ⟨16, 8, .ro, 0⟩, ⟨24, 8, .ro, 0⟩]⟩,
   ⟨0x30002c, 4, 1, 0, [⟨0, 16, .ro, 0⟩, ⟨16, 8, .ro, 0⟩]⟩,
   ⟨0x300030, 4, 1, 0, [⟨0, 1, .wo, 0⟩, ⟨1, 1, .wo, 0⟩, ⟨2, 1, .wo, 0⟩, ⟨3, 1, .wo, 0⟩]⟩]
/-- Registers of one window of R30 (or, for regsHidden, of a view outside it). -/
def regsMp : List RRow :=
  [⟨0x400000, 4, 1, 0, [⟨0, 8, .ro, 0⟩, ⟨8, 1, .ro, 0⟩]⟩,
   ⟨0x400004, 4, 1, 0, [⟨0, 11, .ro, 0x4b0⟩]⟩,
   ⟨0x400008, 4, 1, 0, fields 2 2 2 8 .ro 0⟩,
   ⟨0x40000c, 4, 1, 0, [⟨16, 8, .ro, 0⟩] ++ fields 1 1 1 8 .ro 0⟩,
   ⟨0x400010, 4, 1, 0, [⟨0, 16, .ro, 0⟩, ⟨16, 4, .ro, 0⟩]⟩,
   ⟨0x400014, 4, 1, 0, [⟨0, 1, .w1c, 0⟩, ⟨1, 1, .ro, 0⟩, ⟨2, 3, .ro, 0⟩, ⟨5, 1, .ro, 0⟩, ⟨6, 2, .ro, 0⟩, ⟨8, 4, .ro, 0⟩, ⟨12, 4, .ro, 0⟩]⟩,
   ⟨0x400018, 4, 1, 1, [⟨0, 48, .ro, 0⟩]⟩,
   ⟨0x40001c, 4, 1, 2, []⟩,
   ⟨0x400020, 4, 1, 0, [⟨0, 1, .wo, 0⟩, ⟨1, 1, .wo, 0⟩, ⟨2, 1, .wo, 0⟩, ⟨3, 1, .wo, 0⟩]⟩,
   ⟨0x400100, 0x20, 8, 0, [⟨0, 16, .ro, 0⟩]⟩,
   ⟨0x400104, 0x20, 8, 0, [⟨0, 32, .ro, 0⟩]⟩,
   ⟨0x400108, 0x20, 8, 0, [⟨0, 32, .ro, 0⟩]⟩,
   ⟨0x40010c, 0x20, 8, 0, [⟨0, 8, .ro, 0⟩, ⟨8, 8, .ro, 0⟩]⟩,
   ⟨0x400110, 0x20, 8, 0, [⟨0, 8, .ro, 0⟩, ⟨8, 16, .ro, 0⟩]⟩,
   ⟨0x400114, 0x20, 8, 1, [⟨0, 64, .ro, 0⟩]⟩,
   ⟨0x400118, 0x20, 8, 2, []⟩,
   ⟨0x400210, 0x10, 8, 0, [⟨0, 32, .ro, 0⟩]⟩,
   ⟨0x400214, 0x10, 8, 0, [⟨0, 32, .rw, 0⟩]⟩,
   ⟨0x400218, 0x10, 8, 0, [⟨0, 16, .ro, 0⟩, ⟨16, 16, .ro, 0⟩]⟩]
/-- Registers of one window of R30 (or, for regsHidden, of a view outside it). -/
def regsTl : List RRow :=
  [⟨0x500000, 4, 1, 0, [⟨0, 3, .ro, 0⟩, ⟨3, 3, .ro, 0⟩, ⟨8, 2, .ro, 0⟩, ⟨10, 1, .ro, 0⟩, ⟨11, 1, .ro, 0⟩, ⟨12, 1, .ro, 0⟩, ⟨13, 1, .ro, 0⟩, ⟨16, 7, .ro, 0⟩, ⟨24, 4, .ro, 0⟩]⟩,
   ⟨0x500004, 4, 1, 0, [⟨0, 6, .ro, 0⟩, ⟨6, 1, .ro, 0⟩, ⟨7, 1, .ro, 0⟩]⟩,
   ⟨0x500008, 4, 1, 1, [⟨0, 48, .ro, 0⟩]⟩,
   ⟨0x50000c, 4, 1, 2, []⟩,
   ⟨0x500010, 4, 1, 0, [⟨0, 32, .ro, 0⟩]⟩,
   ⟨0x500014, 4, 1, 0, [⟨0, 8, .ro, 0⟩, ⟨8, 6, .ro, 0⟩, ⟨16, 3, .ro, 0⟩, ⟨20, 4, .ro, 0⟩, ⟨24, 8, .ro, 0⟩]⟩,
   ⟨0x500018, 4, 1, 0, [⟨0, 16, .ro, 0⟩, ⟨16, 16, .ro, 0⟩]⟩,
   ⟨0x50001c, 4, 1, 0, [⟨0, 16, .ro, 0⟩, ⟨16, 8, .ro, 0⟩, ⟨24, 8, .ro, 0⟩]⟩,
   ⟨0x500020, 4, 1, 0, [⟨0, 1, .wo, 0⟩, ⟨1, 1, .wo, 0⟩, ⟨2, 1, .wo, 0⟩, ⟨3, 1, .wo, 0⟩]⟩,
   ⟨0x500040, 0x10, 2, 0, [⟨0, 8, .ro, 0⟩, ⟨8, 8, .ro, 0⟩, ⟨16, 8, .ro, 0⟩, ⟨24, 8, .ro, 0⟩]⟩,
   ⟨0x500044, 0x10, 2, 0, [⟨0, 16, .ro, 0⟩, ⟨16, 3, .ro, 0⟩]⟩,
   ⟨0x500100, 8, 64, 0, [⟨0, 6, .ro, 0⟩, ⟨6, 1, .ro, 0⟩, ⟨7, 1, .ro, 0⟩]⟩,
   ⟨0x500104, 8, 64, 0, [⟨0, 32, .ro, 0⟩]⟩]
/-- Registers of one window of R30 (or, for regsHidden, of a view outside it). -/
def regsEv : List RRow :=
  [⟨0x700000, 4, 4, 0, fields 0 1 1 32 .rw 0⟩,
   ⟨0x700010, 4, 4, 0, fields 0 1 1 32 .rw 0xffffffff⟩,
   ⟨0x700020, 4, 4, 0, fields 0 1 1 32 .ro 0⟩,
   ⟨0x700030, 4, 4, 0, fields 0 1 1 32 .ro 0⟩,
   ⟨0x700040, 4, 4, 0, fields 0 1 1 32 .ro 0⟩,
   ⟨0x700050, 4, 8, 0, fields 0 2 2 16 .ro 0⟩,
   ⟨0x700080, 4, 1, 0, [⟨0, 7, .ro, 0⟩, ⟨31, 1, .ro, 0⟩]⟩,
   ⟨0x700084, 4, 1, 0, [⟨0, 7, .wo, 0⟩]⟩,
   ⟨0x700088, 4, 1, 0, [⟨0, 7, .wo, 0⟩]⟩,
   ⟨0x700090, 4, 1, 0, [⟨0, 12, .ro, 0⟩, ⟨12, 12, .ro, 0⟩, ⟨24, 7, .ro, 0⟩]⟩,
   ⟨0x700094, 4, 1, 0, [⟨0, 1, .wo, 0⟩]⟩,
   ⟨0x700100, 4, 16, 0, [⟨0, 12, .rw, 0⟩, ⟨16, 1, .ro, 0⟩]⟩,
   ⟨0x701000, 4, 4, 0, fields 0 1 1 32 .rw 0⟩,
   ⟨0x701010, 4, 4, 0, fields 0 1 1 32 .rw 0xffffffff⟩,
   ⟨0x701020, 4, 4, 0, fields 0 1 1 32 .ro 0⟩,
   ⟨0x701080, 4, 1, 0, [⟨0, 7, .ro, 0⟩, ⟨31, 1, .ro, 0⟩]⟩,
   ⟨0x701084, 4, 1, 0, [⟨0, 7, .wo, 0⟩]⟩,
   ⟨0x701088, 4, 1, 0, [⟨0, 7, .wo, 0⟩]⟩,
   ⟨0x701100, 4, 16, 0, [⟨0, 12, .rw, 0⟩, ⟨16, 1, .ro, 0⟩]⟩]
/-- Registers of one window of R30 (or, for regsHidden, of a view outside it). -/
def regsSb : List RRow :=
  [⟨0x800000, 4, 1, 0, [⟨0, 4, .ro, 0⟩, ⟨4, 5, .ro, 0⟩, ⟨9, 1, .ro, 0⟩, ⟨10, 1, .ro, 0⟩, ⟨11, 1, .ro, 0⟩, ⟨16, 3, .ro, 0⟩]⟩,
   ⟨0x800004, 4, 1, 0, [⟨0, 6, .ro, 0⟩, ⟨8, 6, .ro, 0⟩, ⟨16, 1, .ro, 0⟩, ⟨17, 1, .ro, 0⟩, ⟨18, 1, .ro, 0⟩, ⟨19, 1, .ro, 0⟩]⟩,
   ⟨0x800008, 4, 1, 0, [⟨16, 8, .ro, 0⟩] ++ fields 0 2 2 8 .ro 2⟩,
   ⟨0x80000c, 4, 1, 0, [⟨0, 16, .ro, 0⟩, ⟨16, 8, .ro, 0⟩, ⟨24, 4, .ro, 0⟩, ⟨28, 1, .ro, 0⟩, ⟨29, 1, .ro, 0⟩, ⟨30, 1, .ro, 0⟩]⟩,
   ⟨0x800010, 4, 1, 0, [⟨0, 11, .ro, 0⟩, ⟨11, 1, .ro, 0⟩, ⟨16, 16, .ro, 0⟩]⟩,
   ⟨0x800014, 4, 1, 0, [⟨0, 8, .ro, 0⟩, ⟨8, 1, .ro, 0⟩, ⟨9, 1, .ro, 0⟩, ⟨10, 1, .ro, 0⟩, ⟨11, 1, .ro, 0⟩, ⟨12, 1, .ro, 0⟩, ⟨13, 1, .ro, 0⟩, ⟨16, 5, .ro, 0⟩, ⟨24, 8, .ro, 0⟩]⟩,
   ⟨0x800018, 4, 1, 0, [⟨0, 1, .ro, 0⟩, ⟨1, 3, .ro, 0⟩, ⟨4, 1, .ro, 0⟩, ⟨5, 1, .ro, 0⟩, ⟨6, 1, .ro, 0⟩, ⟨7, 1, .ro, 0⟩, ⟨8, 1, .ro, 0⟩, ⟨16, 16, .ro, 0⟩]⟩,
   ⟨0x80001c, 4, 1, 0, [⟨0, 8, .ro, 0⟩, ⟨8, 8, .ro, 0⟩, ⟨16, 8, .ro, 0⟩, ⟨24, 8, .ro, 0⟩]⟩,
   ⟨0x800020, 4, 1, 0, [⟨0, 10, .rw, 0⟩]⟩,
   ⟨0x800040, 4, 16, 0, [⟨0, 32, .ro, 0⟩]⟩,
   ⟨0x800100, 4, 12, 0, [⟨0, 32, .ro, 0⟩]⟩,
   ⟨0x800140, 4, 12, 0, [⟨0, 32, .ro, 0⟩]⟩,
   ⟨0x800180, 4, 12, 0, [⟨0, 32, .ro, 0⟩]⟩,
   ⟨0x8001c0, 4, 12, 0, [⟨0, 32, .ro, 0⟩]⟩,
   ⟨0x800200, 4, 12, 0, [⟨0, 32, .ro, 0⟩]⟩,
   ⟨0x800240, 4, 12, 0, [⟨0, 32, .ro, 0⟩]⟩,
   ⟨0x800280, 4, 12, 0, [⟨0, 32, .ro, 0⟩]⟩,
   ⟨0x8002c0, 4, 12, 0, [⟨0, 32, .ro, 0⟩]⟩,
   ⟨0x800410, 0x10, 8, 1, [⟨0, 64, .ro, 0⟩]⟩,
   ⟨0x800414, 0x10, 8, 2, []⟩,
   ⟨0x800418, 0x10, 8, 0, [⟨0, 1, .ro, 0⟩, ⟨1, 1, .ro, 0⟩, ⟨2, 1, .ro, 0⟩, ⟨16, 16, .ro, 0⟩]⟩,
   ⟨0x800500, 0x10, 6, 0, [⟨0, 1, .ro, 0⟩, ⟨1, 2, .ro, 0⟩, ⟨3, 2, .ro, 0⟩, ⟨5, 1, .ro, 0⟩, ⟨16, 16, .ro, 0⟩]⟩,
   ⟨0x800504, 0x10, 6, 0, [⟨0, 32, .ro, 0⟩]⟩,
   ⟨0x800508, 0x10, 6, 0, [⟨0, 32, .ro, 0⟩]⟩]
/-- Registers of one window of R30 (or, for regsHidden, of a view outside it). -/
def regsOtp : List RRow :=
  [⟨0xa00000, 4, 1, 0, [⟨0, 1, .ro, 0⟩, ⟨1, 1, .ro, 0⟩, ⟨2, 1, .ro, 0⟩, ⟨4, 11, .ro, 0⟩, ⟨16, 11, .ro, 0⟩]⟩,
   ⟨0xa00004, 4, 1, 0, [⟨0, 5, .ro, 0⟩, ⟨5, 5, .ro, 0⟩]⟩,
   ⟨0xa00008, 4, 1, 0, fields 0 1 1 14 .ro 0 ++ fields 16 1 1 14 .ro 0⟩,
   ⟨0xa0000c, 4, 1, 0, fields 0 4 4 8 .ro 0⟩,
   ⟨0xa00010, 4, 1, 0, fields 0 4 4 6 .ro 0⟩,
   ⟨0xa00014, 4, 1, 0, [⟨0, 3, .ro, 7⟩, ⟨3, 3, .ro, 7⟩, ⟨6, 3, .ro, 7⟩]⟩,
   ⟨0xa00020, 4, 1, 0, [⟨0, 10, .rw, 0⟩, ⟨16, 4, .rw, 0⟩]⟩,
   ⟨0xa00024, 4, 1, 0, [⟨0, 32, .rw, 0⟩]⟩,
   ⟨0xa00028, 4, 1, 0, [⟨0, 1, .wo, 0⟩, ⟨1, 1, .wo, 0⟩]⟩,
   ⟨0xa0002c, 4, 1, 0, [⟨0, 1, .ro, 0⟩, ⟨1, 1, .w1c, 0⟩, ⟨2, 1, .w1c, 0⟩, ⟨3, 3, .ro, 0⟩, ⟨6, 1, .w1c, 0⟩, ⟨7, 1, .w1c, 0⟩]⟩,
   ⟨0xa01000, 4, 1024, 0, [⟨0, 32, .ro, 0⟩]⟩,
   ⟨0xa02000, 4, 1024, 0, [⟨0, 8, .ro, 0⟩, ⟨8, 1, .ro, 0⟩, ⟨9, 1, .ro, 0⟩]⟩]
/-- Registers of one window of R30 (or, for regsHidden, of a view outside it). -/
def regsPm : List RRow :=
  [⟨0xb00000, 4, 1, 0, fields 0 1 1 24 .ro 0x400000⟩,
   ⟨0xb00004, 4, 1, 0, fields 0 1 1 24 .ro 0x400000⟩,
   ⟨0xb00008, 4, 1, 0, [⟨0, 8, .ro, 0⟩, ⟨8, 5, .ro, 0⟩, ⟨13, 3, .ro, 0⟩]⟩,
   ⟨0xb00010, 4, 1, 0, [⟨0, 1, .wo, 0⟩, ⟨8, 2, .ro, 3⟩, ⟨16, 1, .w1c, 0⟩, ⟨17, 2, .ro, 0⟩]⟩,
   ⟨0xb00014, 4, 1, 0, [⟨0, 1, .wo, 0⟩]⟩,
   ⟨0xb00018, 4, 1, 0, [⟨0, 32, .wo, 0⟩]⟩,
   ⟨0xb0001c, 4, 1, 0, [⟨0, 4, .ro, 0⟩, ⟨8, 16, .ro, 0⟩]⟩,
   ⟨0xb00020, 4, 1, 0, [⟨0, 1, .ro, 0⟩, ⟨1, 1, .ro, 0⟩, ⟨2, 1, .ro, 1⟩, ⟨8, 1, .w1c, 0⟩, ⟨9, 1, .w1c, 0⟩]⟩,
   ⟨0xb00030, 4, 1, 0, [⟨0, 12, .ro, 0⟩, ⟨12, 2, .ro, 0⟩, ⟨16, 5, .ro, 0⟩, ⟨24, 1, .ro, 0⟩, ⟨25, 1, .w1c, 0⟩]⟩,
   ⟨0xb00034, 4, 1, 0, [⟨0, 12, .rw, 0x3e8⟩, ⟨16, 12, .rw, 0x44c⟩]⟩,
   ⟨0xb00800, 4, 1, 0, [⟨0, 1, .rw, 0⟩]⟩,
   ⟨0xb00804, 4, 4, 0, fields 0 8 7 4 .rw 0 ++ fields 7 8 1 4 .rw 0⟩,
   ⟨0xb00814, 4, 1, 0, [⟨16, 7, .ro, 0⟩, ⟨23, 1, .ro, 0⟩] ++ fields 0 1 1 16 .ro 0⟩,
   ⟨0xb00900, 4, 1, 0, [⟨0, 1, .ro, 0⟩, ⟨1, 1, .ro, 0⟩, ⟨8, 8, .ro, 0⟩, ⟨16, 4, .ro, 0⟩, ⟨20, 4, .ro, 0⟩, ⟨24, 5, .ro, 0⟩]⟩,
   ⟨0xb00904, 4, 1, 0, [⟨0, 3, .ro, 0⟩, ⟨8, 16, .ro, 0⟩]⟩,
   ⟨0xb00910, 4, 1, 1, [⟨0, 48, .rwl, 0⟩]⟩,
   ⟨0xb00914, 4, 1, 2, []⟩,
   ⟨0xb00918, 4, 1, 0, [⟨0, 32, .rwl, 0⟩]⟩,
   ⟨0xb0091c, 4, 1, 0, [⟨0, 1, .w1c, 0⟩, ⟨1, 1, .ro, 0⟩, ⟨2, 1, .ro, 0⟩, ⟨3, 1, .ro, 0⟩, ⟨4, 1, .ro, 0⟩, ⟨8, 8, .ro, 0⟩, ⟨16, 16, .ro, 0⟩]⟩,
   ⟨0xb00920, 4, 1, 0, [⟨0, 32, .ro, 0⟩]⟩]
/-- Registers of one window of R30 (or, for regsHidden, of a view outside it). -/
def regsDbg : List RRow :=
  [⟨0xc00000, 4, 1, 0, [⟨0, 1, .rw, 0⟩, ⟨1, 3, .rw, 4⟩, ⟨8, 6, .rw, 0⟩]⟩,
   ⟨0xc00004, 4, 1, 0, [⟨0, 1, .ro, 0⟩, ⟨1, 1, .w1c, 0⟩, ⟨2, 3, .ro, 0⟩, ⟨5, 1, .ro, 0⟩]⟩]
/-- Registers of one window of R30 (or, for regsHidden, of a view outside it). -/
def regsCa : List RRow :=
  [⟨0x200000, 0x10000, 16, 0, [⟨0, 3, .ro, 0⟩, ⟨4, 4, .ro, 0⟩, ⟨8, 1, .ro, 0⟩, ⟨16, 1, .w1c, 0⟩, ⟨17, 1, .w1c, 0⟩, ⟨18, 1, .w1c, 0⟩]⟩,
   ⟨0x200004, 0x10000, 16, 0, [⟨0, 1, .rw, 1⟩, ⟨1, 1, .rwl, 0⟩, ⟨2, 1, .rwl, 0⟩]⟩,
   ⟨0x200010, 0x10000, 16, 1, [⟨0, 64, .ro, 0⟩]⟩,
   ⟨0x200014, 0x10000, 16, 2, []⟩,
   ⟨0x200018, 0x10000, 16, 1, [⟨0, 64, .ro, 0⟩]⟩,
   ⟨0x20001c, 0x10000, 16, 2, []⟩,
   ⟨0x200020, 0x10000, 16, 1, [⟨0, 64, .ro, 0⟩]⟩,
   ⟨0x200024, 0x10000, 16, 2, []⟩,
   ⟨0x200028, 0x10000, 16, 0, [⟨0, 16, .ro, 0⟩, ⟨16, 8, .ro, 0⟩, ⟨24, 8, .ro, 0⟩]⟩,
   ⟨0x20002c, 0x10000, 16, 0, [⟨0, 16, .ro, 0⟩, ⟨16, 8, .ro, 0⟩]⟩,
   ⟨0x200030, 0x10000, 16, 0, [⟨0, 1, .wo, 0⟩, ⟨1, 1, .wo, 0⟩, ⟨2, 1, .wo, 0⟩, ⟨3, 1, .wo, 0⟩]⟩]
/-- Registers of one window of R30 (or, for regsHidden, of a view outside it). -/
def regsMb : List RRow :=
  [⟨0x600000, 4, 1, 0, [⟨0, 32, .wo, 0⟩]⟩,
   ⟨0x600004, 4, 1, 0, [⟨0, 1, .wo, 0⟩, ⟨1, 1, .wo, 0⟩]⟩,
   ⟨0x600008, 4, 1, 0, [⟨0, 1, .ro, 0⟩, ⟨1, 4, .ro, 0⟩, ⟨6, 2, .ro, 2⟩, ⟨8, 1, .w1c, 0⟩, ⟨9, 1, .w1c, 0⟩, ⟨10, 1, .w1c, 0⟩]⟩,
   ⟨0x60000c, 4, 1, 0, [⟨0, 32, .wo, 0⟩]⟩,
   ⟨0x600010, 4, 1, 0, [⟨0, 32, .ro, 0⟩]⟩,
   ⟨0x600020, 4, 1, 0, [⟨0, 32, .ro, 0⟩]⟩,
   ⟨0x600024, 4, 1, 0, [⟨0, 32, .ro, 0⟩]⟩,
   ⟨0x600028, 4, 1, 0, [⟨0, 1, .ro, 0⟩, ⟨1, 4, .ro, 0⟩, ⟨5, 1, .w1c, 0⟩]⟩,
   ⟨0x60002c, 4, 1, 0, [⟨0, 32, .w1c, 0⟩]⟩,
   ⟨0x600030, 4, 1, 0, [⟨0, 32, .rw, 0xffffffff⟩]⟩,
   ⟨0x600034, 4, 1, 0, [⟨0, 8, .ro, 0⟩, ⟨8, 8, .ro, 0⟩, ⟨16, 8, .ro, 0⟩, ⟨24, 1, .w1c, 0⟩]⟩,
   ⟨0x600038, 4, 1, 0, [⟨0, 8, .ro, 0⟩, ⟨8, 8, .ro, 0⟩, ⟨16, 8, .ro, 0⟩]⟩,
   ⟨0x60003c, 4, 1, 0, [⟨0, 1, .wo, 0⟩, ⟨1, 1, .wo, 0⟩]⟩,
   ⟨0x601000, 4, 1, 0, [⟨0, 32, .wo, 0⟩]⟩,
   ⟨0x601004, 4, 1, 0, [⟨0, 1, .wo, 0⟩, ⟨1, 1, .wo, 0⟩]⟩,
   ⟨0x601008, 4, 1, 0, [⟨0, 1, .ro, 0⟩, ⟨1, 4, .ro, 0⟩, ⟨6, 2, .ro, 2⟩, ⟨8, 1, .w1c, 0⟩, ⟨9, 1, .w1c, 0⟩, ⟨10, 1, .w1c, 0⟩]⟩,
   ⟨0x60100c, 4, 1, 0, [⟨0, 32, .wo, 0⟩]⟩,
   ⟨0x601010, 4, 1, 0, [⟨0, 32, .ro, 0⟩]⟩,
   ⟨0x601020, 4, 1, 0, [⟨0, 32, .ro, 0⟩]⟩,
   ⟨0x601024, 4, 1, 0, [⟨0, 32, .ro, 0⟩]⟩,
   ⟨0x601028, 4, 1, 0, [⟨0, 1, .ro, 0⟩, ⟨1, 4, .ro, 0⟩, ⟨5, 1, .w1c, 0⟩]⟩,
   ⟨0x60102c, 4, 1, 0, [⟨0, 32, .w1c, 0⟩]⟩,
   ⟨0x601030, 4, 1, 0, [⟨0, 32, .rw, 0xffffffff⟩]⟩,
   ⟨0x601034, 4, 1, 0, [⟨0, 8, .ro, 0⟩, ⟨8, 8, .ro, 0⟩, ⟨16, 8, .ro, 0⟩, ⟨24, 1, .w1c, 0⟩]⟩,
   ⟨0x601038, 4, 1, 0, [⟨0, 8, .ro, 0⟩, ⟨8, 8, .ro, 0⟩, ⟨16, 8, .ro, 0⟩]⟩,
   ⟨0x60103c, 4, 1, 0, [⟨0, 1, .wo, 0⟩, ⟨1, 1, .wo, 0⟩]⟩,
   ⟨0x602000, 4, 1, 0, [⟨0, 32, .wo, 0⟩]⟩,
   ⟨0x602004, 4, 1, 0, [⟨0, 1, .wo, 0⟩, ⟨1, 1, .wo, 0⟩]⟩,
   ⟨0x602008, 4, 1, 0, [⟨0, 1, .ro, 0⟩, ⟨1, 4, .ro, 0⟩, ⟨6, 2, .ro, 2⟩, ⟨8, 1, .w1c, 0⟩, ⟨9, 1, .w1c, 0⟩, ⟨10, 1, .w1c, 0⟩]⟩,
   ⟨0x60200c, 4, 1, 0, [⟨0, 32, .wo, 0⟩]⟩,
   ⟨0x602010, 4, 1, 0, [⟨0, 32, .ro, 0⟩]⟩,
   ⟨0x602020, 4, 1, 0, [⟨0, 32, .ro, 0⟩]⟩,
   ⟨0x602024, 4, 1, 0, [⟨0, 32, .ro, 0⟩]⟩,
   ⟨0x602028, 4, 1, 0, [⟨0, 1, .ro, 0⟩, ⟨1, 4, .ro, 0⟩, ⟨5, 1, .w1c, 0⟩]⟩,
   ⟨0x60202c, 4, 1, 0, [⟨0, 32, .w1c, 0⟩]⟩,
   ⟨0x602030, 4, 1, 0, [⟨0, 32, .rw, 0xffffffff⟩]⟩,
   ⟨0x602034, 4, 1, 0, [⟨0, 8, .ro, 0⟩, ⟨8, 8, .ro, 0⟩, ⟨16, 8, .ro, 0⟩, ⟨24, 1, .w1c, 0⟩]⟩,
   ⟨0x602038, 4, 1, 0, [⟨0, 8, .ro, 0⟩, ⟨8, 8, .ro, 0⟩, ⟨16, 8, .ro, 0⟩]⟩,
   ⟨0x60203c, 4, 1, 0, [⟨0, 1, .wo, 0⟩, ⟨1, 1, .wo, 0⟩]⟩,
   ⟨0x603008, 4, 1, 0, [⟨0, 1, .ro, 0⟩, ⟨1, 4, .ro, 0⟩, ⟨6, 2, .ro, 2⟩, ⟨8, 1, .w1c, 0⟩, ⟨9, 1, .w1c, 0⟩, ⟨10, 1, .w1c, 0⟩]⟩,
   ⟨0x60300c, 4, 1, 0, [⟨0, 32, .wo, 0⟩]⟩,
   ⟨0x603020, 4, 1, 0, [⟨0, 32, .ro, 0⟩]⟩,
   ⟨0x603024, 4, 1, 0, [⟨0, 32, .ro, 0⟩]⟩,
   ⟨0x603028, 4, 1, 0, [⟨0, 1, .ro, 0⟩, ⟨1, 4, .ro, 0⟩, ⟨5, 1, .w1c, 0⟩]⟩,
   ⟨0x60302c, 4, 1, 0, [⟨0, 32, .w1c, 0⟩]⟩,
   ⟨0x603030, 4, 1, 0, [⟨0, 32, .rw, 0xffffffff⟩]⟩,
   ⟨0x603034, 4, 1, 0, [⟨0, 8, .ro, 0⟩, ⟨8, 8, .ro, 0⟩, ⟨16, 8, .ro, 0⟩, ⟨24, 1, .w1c, 0⟩]⟩,
   ⟨0x603038, 4, 1, 0, [⟨0, 8, .ro, 0⟩, ⟨8, 8, .ro, 0⟩, ⟨16, 8, .ro, 0⟩]⟩,
   ⟨0x60303c, 4, 1, 0, [⟨0, 1, .wo, 0⟩, ⟨1, 1, .wo, 0⟩]⟩,
   ⟨0x680000, 4, 1, 0, [⟨0, 32, .wo, 0⟩]⟩,
   ⟨0x680004, 4, 1, 0, [⟨0, 1, .wo, 0⟩, ⟨1, 1, .wo, 0⟩]⟩,
   ⟨0x680008, 4, 1, 0, [⟨0, 1, .ro, 0⟩, ⟨1, 4, .ro, 0⟩, ⟨6, 2, .ro, 2⟩, ⟨8, 1, .w1c, 0⟩, ⟨9, 1, .w1c, 0⟩, ⟨10, 1, .w1c, 0⟩]⟩,
   ⟨0x68000c, 4, 1, 0, [⟨0, 32, .wo, 0⟩]⟩,
   ⟨0x680010, 4, 1, 0, [⟨0, 32, .ro, 0⟩]⟩,
   ⟨0x680020, 4, 1, 0, [⟨0, 32, .ro, 0⟩]⟩,
   ⟨0x680024, 4, 1, 0, [⟨0, 32, .ro, 0⟩]⟩,
   ⟨0x680028, 4, 1, 0, [⟨0, 1, .ro, 0⟩, ⟨1, 4, .ro, 0⟩, ⟨5, 1, .w1c, 0⟩]⟩,
   ⟨0x68002c, 4, 1, 0, [⟨0, 32, .w1c, 0⟩]⟩,
   ⟨0x680030, 4, 1, 0, [⟨0, 32, .rw, 0xffffffff⟩]⟩,
   ⟨0x680034, 4, 1, 0, [⟨0, 8, .ro, 0⟩, ⟨8, 8, .ro, 0⟩, ⟨16, 8, .ro, 0⟩, ⟨24, 1, .w1c, 0⟩]⟩,
   ⟨0x680038, 4, 1, 0, [⟨0, 8, .ro, 0⟩, ⟨8, 8, .ro, 0⟩, ⟨16, 8, .ro, 0⟩]⟩,
   ⟨0x68003c, 4, 1, 0, [⟨0, 1, .wo, 0⟩, ⟨1, 1, .wo, 0⟩]⟩]
/-- Registers of one window of R30 (or, for regsHidden, of a view outside it). -/
def regsHidden : List RRow :=
  [⟨0x1000000, 4, 1, 0, [⟨0, 32, .wo, 0⟩]⟩,
   ⟨0x1000004, 4, 1, 0, [⟨0, 1, .wo, 0⟩, ⟨1, 1, .wo, 0⟩]⟩,
   ⟨0x1000008, 4, 1, 0, [⟨0, 1, .ro, 0⟩, ⟨1, 4, .ro, 0⟩, ⟨6, 2, .ro, 2⟩, ⟨8, 1, .w1c, 0⟩, ⟨9, 1, .w1c, 0⟩, ⟨10, 1, .w1c, 0⟩]⟩,
   ⟨0x100000c, 4, 1, 0, [⟨0, 32, .wo, 0⟩]⟩,
   ⟨0x1000010, 4, 1, 0, [⟨0, 32, .ro, 0⟩]⟩,
   ⟨0x1000020, 4, 1, 0, [⟨0, 32, .ro, 0⟩]⟩,
   ⟨0x1000024, 4, 1, 0, [⟨0, 32, .ro, 0⟩]⟩,
   ⟨0x1000028, 4, 1, 0, [⟨0, 1, .ro, 0⟩, ⟨1, 4, .ro, 0⟩, ⟨5, 1, .w1c, 0⟩]⟩,
   ⟨0x100002c, 4, 1, 0, [⟨0, 32, .w1c, 0⟩]⟩,
   ⟨0x1000030, 4, 1, 0, [⟨0, 32, .rw, 0xffffffff⟩]⟩,
   ⟨0x1000034, 4, 1, 0, [⟨0, 8, .ro, 0⟩, ⟨8, 8, .ro, 0⟩, ⟨16, 8, .ro, 0⟩, ⟨24, 1, .w1c, 0⟩]⟩,
   ⟨0x1000038, 4, 1, 0, [⟨0, 8, .ro, 0⟩, ⟨8, 8, .ro, 0⟩, ⟨16, 8, .ro, 0⟩]⟩,
   ⟨0x100003c, 4, 1, 0, [⟨0, 1, .wo, 0⟩, ⟨1, 1, .wo, 0⟩]⟩,
   ⟨0x1100000, 4, 1, 0, [⟨0, 2, .ro, 0⟩, ⟨4, 1, .wo, 0⟩, ⟨5, 1, .wo, 0⟩, ⟨8, 1, .ro, 0⟩, ⟨9, 1, .ro, 0⟩]⟩,
   ⟨0x1100004, 4, 1, 0, [⟨0, 2, .rwl, 1⟩, ⟨2, 1, .rwl, 0⟩, ⟨3, 1, .rwl, 0⟩, ⟨8, 8, .rwl, 0⟩]⟩,
   ⟨0x1100008, 4, 1, 0, [⟨0, 1, .wo, 0⟩, ⟨1, 1, .wo, 0⟩, ⟨2, 1, .wo, 0⟩]⟩,
   ⟨0x110000c, 4, 1, 0, [⟨0, 1, .ro, 0⟩, ⟨1, 1, .ro, 0⟩, ⟨2, 1, .ro, 0⟩, ⟨3, 1, .ro, 0⟩, ⟨8, 1, .w1c, 0⟩, ⟨9, 1, .w1c, 0⟩, ⟨10, 1, .w1c, 0⟩, ⟨11, 1, .w1c, 0⟩, ⟨12, 1, .w1c, 0⟩, ⟨13, 1, .w1c, 0⟩, ⟨14, 1, .w1c, 0⟩]⟩,
   ⟨0x1100010, 4, 1, 0, [⟨0, 32, .wo, 0⟩]⟩,
   ⟨0x1100014, 4, 1, 0, [⟨0, 32, .wo, 0⟩]⟩,
   ⟨0x1100018, 4, 1, 0, [⟨0, 3, .rw, 4⟩]⟩,
   ⟨0x1100020, 4, 1, 1, [⟨0, 48, .rw, 0⟩]⟩,
   ⟨0x1100024, 4, 1, 2, []⟩,
   ⟨0x1100028, 4, 1, 0, [⟨0, 32, .rw, 0⟩]⟩,
   ⟨0x110002c, 4, 1, 0, [⟨0, 1, .rw, 0⟩, ⟨1, 2, .rw, 0⟩]⟩,
   ⟨0x1100040, 4, 32, 0, [⟨0, 32, .wo, 0⟩]⟩,
   ⟨0x11000c0, 4, 1, 0, [⟨0, 8, .ro, 0⟩, ⟨8, 8, .ro, 0⟩, ⟨16, 8, .ro, 0⟩]⟩,
   ⟨0x11000c4, 4, 1, 0, [⟨0, 1, .wo, 0⟩]⟩,
   ⟨0x1100100, 4, 16, 0, [⟨0, 32, .ro, 0⟩]⟩,
   ⟨0x1900000, 4, 1, 0, [⟨0, 2, .ro, 0⟩, ⟨4, 1, .wo, 0⟩, ⟨5, 1, .wo, 0⟩, ⟨8, 1, .ro, 0⟩, ⟨9, 1, .ro, 0⟩]⟩,
   ⟨0x1900004, 4, 1, 0, [⟨0, 2, .rwl, 1⟩, ⟨2, 1, .rwl, 0⟩, ⟨3, 1, .rwl, 0⟩, ⟨8, 8, .rwl, 0⟩]⟩,
   ⟨0x1900008, 4, 1, 0, [⟨0, 1, .wo, 0⟩, ⟨1, 1, .wo, 0⟩, ⟨2, 1, .wo, 0⟩]⟩,
   ⟨0x190000c, 4, 1, 0, [⟨0, 1, .ro, 0⟩, ⟨1, 1, .ro, 0⟩, ⟨2, 1, .ro, 0⟩, ⟨3, 1, .ro, 0⟩, ⟨8, 1, .w1c, 0⟩, ⟨9, 1, .w1c, 0⟩, ⟨10, 1, .w1c, 0⟩, ⟨11, 1, .w1c, 0⟩, ⟨12, 1, .w1c, 0⟩, ⟨13, 1, .w1c, 0⟩, ⟨14, 1, .w1c, 0⟩]⟩,
   ⟨0x1900010, 4, 1, 0, [⟨0, 32, .wo, 0⟩]⟩,
   ⟨0x1900014, 4, 1, 0, [⟨0, 32, .wo, 0⟩]⟩,
   ⟨0x1900018, 4, 1, 0, [⟨0, 3, .rw, 4⟩]⟩,
   ⟨0x1900020, 4, 1, 1, [⟨0, 48, .rw, 0⟩]⟩,
   ⟨0x1900024, 4, 1, 2, []⟩,
   ⟨0x1900028, 4, 1, 0, [⟨0, 32, .rw, 0⟩]⟩,
   ⟨0x190002c, 4, 1, 0, [⟨0, 1, .rw, 0⟩, ⟨1, 2, .rw, 0⟩]⟩,
   ⟨0x1900040, 4, 32, 0, [⟨0, 32, .wo, 0⟩]⟩,
   ⟨0x19000c0, 4, 1, 0, [⟨0, 8, .ro, 0⟩, ⟨8, 8, .ro, 0⟩, ⟨16, 8, .ro, 0⟩]⟩,
   ⟨0x19000c4, 4, 1, 0, [⟨0, 1, .wo, 0⟩]⟩,
   ⟨0x1900100, 4, 16, 0, [⟨0, 32, .ro, 0⟩]⟩]
/-- Registers of one window of R30 (or, for regsHidden, of a view outside it). -/
def regsDg : List RRow :=
  [⟨0x900000, 4, 1, 0, [⟨0, 2, .ro, 0⟩, ⟨4, 1, .wo, 0⟩, ⟨5, 1, .wo, 0⟩, ⟨8, 1, .ro, 0⟩, ⟨9, 1, .ro, 0⟩]⟩,
   ⟨0x900004, 4, 1, 0, [⟨0, 2, .rwl, 1⟩, ⟨2, 1, .rwl, 0⟩, ⟨3, 1, .rwl, 0⟩, ⟨8, 8, .rwl, 0⟩]⟩,
   ⟨0x900008, 4, 1, 0, [⟨0, 1, .wo, 0⟩, ⟨1, 1, .wo, 0⟩, ⟨2, 1, .wo, 0⟩]⟩,
   ⟨0x90000c, 4, 1, 0, [⟨0, 1, .ro, 0⟩, ⟨1, 1, .ro, 0⟩, ⟨2, 1, .ro, 0⟩, ⟨3, 1, .ro, 0⟩, ⟨8, 1, .w1c, 0⟩, ⟨9, 1, .w1c, 0⟩, ⟨10, 1, .w1c, 0⟩, ⟨11, 1, .w1c, 0⟩, ⟨12, 1, .w1c, 0⟩, ⟨13, 1, .w1c, 0⟩, ⟨14, 1, .w1c, 0⟩]⟩,
   ⟨0x900010, 4, 1, 0, [⟨0, 32, .wo, 0⟩]⟩,
   ⟨0x900014, 4, 1, 0, [⟨0, 32, .wo, 0⟩]⟩,
   ⟨0x900018, 4, 1, 0, [⟨0, 3, .rw, 4⟩]⟩,
   ⟨0x900020, 4, 1, 1, [⟨0, 48, .rw, 0⟩]⟩,
   ⟨0x900024, 4, 1, 2, []⟩,
   ⟨0x900028, 4, 1, 0, [⟨0, 32, .rw, 0⟩]⟩,
   ⟨0x90002c, 4, 1, 0, [⟨0, 1, .rw, 0⟩, ⟨1, 2, .rw, 0⟩]⟩,
   ⟨0x900040, 4, 32, 0, [⟨0, 32, .wo, 0⟩]⟩,
   ⟨0x9000c0, 4, 1, 0, [⟨0, 8, .ro, 0⟩, ⟨8, 8, .ro, 0⟩, ⟨16, 8, .ro, 0⟩]⟩,
   ⟨0x9000c4, 4, 1, 0, [⟨0, 1, .wo, 0⟩]⟩,
   ⟨0x900100, 4, 16, 0, [⟨0, 32, .ro, 0⟩]⟩]

/-- The register table of every window (R553), with the views outside the host window last. -/
def regTable : List RRow :=
  regsGl ++ regsTt ++ regsCa ++ regsGg ++ regsMp ++ regsTl ++ regsMb ++ regsEv ++ regsSb ++ regsDg ++ regsOtp ++ regsPm ++ regsDbg ++ regsHidden

/-- The rows of the window that an offset lies in. -/
def windowRows (a : Nat) : List RRow :=
  match a / 0x100000 with
  | 0 => regsGl | 1 => regsTt | 2 => regsCa | 3 => regsGg | 4 => regsMp | 5 => regsTl | 6 => regsMb | 7 => regsEv
  | 8 => regsSb | 9 => regsDg | 10 => regsOtp | 11 => regsPm | 12 => regsDbg | 16 => regsHidden | 17 => regsHidden | 25 => regsHidden | _ => []

/-- Whether a row holds the register at an offset. -/
def RRow.covers (r : RRow) (a : Nat) : Bool :=
  decide (r.base ≤ a) && decide (a < r.base + r.stride * r.count) && decide ((a - r.base) % r.stride = 0)

/-- The row of the register at an offset, if a chapter defines one there (R32, R553). -/
def rowOf (a : Nat) : Option RRow := (windowRows a).find? (fun r => r.covers a)

/-- The reset value of a field (R13). The class and route resets of the event sources follow R349 and stand in Flags. -/
def rowReset (a lo : Nat) : Nat :=
  match rowOf a with
  | none => 0
  | some r => match r.fields.find? (fun x => x.lo == lo) with
    | none => 0
    | some x => x.reset

/-- The event sources whose reset class is fast (R349). -/
def evFastReset (src : Nat) : Bool :=
  (32 ≤ src && src < 48) || src == 66 || src == 72 || src == 80 || (90 ≤ src && src < 96) || src == 105

/-- The reset route of an event source (R349): 0 Coachman, 1 Strongbox, 2 host, 3 none; a reserved source takes the route
of its group, and group 15, which has none, takes 3 (log 10). -/
def evRouteReset (src : Nat) : Nat :=
  if src == 2 || src == 4 || src == 5 || (90 ≤ src && src < 96) || src == 98 || src == 99 || src == 105 then 1
  else if (8 ≤ src && src < 16) || (112 ≤ src && src < 120) then 2
  else if 120 ≤ src then 3
  else 0

/-- The key of a field in the register store. -/
def Fld.key (f : Fld) : Nat := f.addr * 64 + f.lo

/-- The value of a field after its reset domain resets (R13), by its key. -/
def fieldReset (k : Nat) : Nat :=
  let a := k / 64
  let lo := k % 64
  if 0x700040 ≤ a && a < 0x700050 then b2n (evFastReset (8 * (a - 0x700040) + lo))
  else if 0x700050 ≤ a && a < 0x700070 then evRouteReset (4 * (a - 0x700050) + lo / 2)
  else rowReset a lo

end Sys2Proof
end

