-- ==== Sys2Proof/Machine/State.lean ====
section
/-! DEFINITION. The state of the block: its registers, and unit by unit what its chapters say that it keeps besides. -/

namespace Sys2Proof.Machine

/-- No command of the K24 stops the model with a fault: no meaning and no step raises one. -/
inductive Fault where
  deriving DecidableEq, Repr

/-- Refusals: raised by the dispatch alone, for a command that has no meaning yet; safe, as the run ends there. -/
inductive Refusal where
  /-- Raised by the dispatch for a command that has no meaning yet (safe). -/
  | notModelled (mnemonic : String)
  deriving DecidableEq, Repr

/-- What leaves the block, as its outbox records it (log 7). -/
inductive Out where
  /-- The host port's response to an access (R204): RSP_KIND, 1 for a write, RSP_STATUS and RSP_DATA. It is the only one of its access, so that RSP_LAST
  is 1, and RSP_ID is the access's own. -/
  | resp (write : Bool) (status data : Nat)
  /-- A transaction of a memory port (R203): REQ_ID, REQ_CMD, REQ_CTX, REQ_ADDR, its beats (REQ_LEN + 1 with REQ_SIZE 1), REQ_SEC, and the
  write data, beat by beat (R204). -/
  | mem (port id : Nat) (write : Bool) (tag addr beats : Nat) (sec : Bool) (data : List Byte)
  /-- A transaction of the host-port initiator (R211), with the same fields. -/
  | init (id : Nat) (write : Bool) (tag addr beats : Nat) (sec : Bool) (data : List Byte)
  /-- A frame sent on a Tandem port (R275). -/
  | link (port : Nat) (f : LinkFrame)
  /-- A heartbeat's view, sent to the Coachman (R387). -/
  | heartbeat (view : Nat)
  /-- A response frame taken over the service port (R467). -/
  | svc (data : List Byte)
  /-- A READ of the service port that finds no response: zero bytes for every clock (R467). -/
  | svcZero
  deriving DecidableEq, Repr

/-- A write that is pending until the next epoch (R14, R253): field, value, the cycle of the write, and whether ENABLE was 0 at it. -/
structure RweWrite where
  addr : Nat
  lo : Nat
  value : Nat
  at_ : Nat
  off : Bool
  deriving DecidableEq, Repr

/-- The pins of the block that are not registers (R534 on): `hold` BYPASS_HOLD, `alarmN` ALARM_N, `pwrCycN`
PWR_CYCLE_REQ_N, `svcAttnN` SVC_ATTN_N, `tmuxEn` TMUX_EN, `supplyLow` SUPPLY_LOW, the straps CHAIN_MODE and CHAIN_POS
as last sampled, and the latched levels of the AON-sensed pins. -/
structure Pins where
  hold : Bool
  alarmN : Bool
  pwrCycN : Bool
  svcAttnN : Bool
  tmuxEn : Bool
  supplyLow : Bool
  tandem : Bool
  pos : Nat
  encA : Bool
  mark : Bool
  svcCsN : Bool
  pwrGood : Bool
  /-- When ENC_A last changed level, as the AON sense sees it (R472). -/
  encAt : Option Nat
  /-- When BYPASS_HOLD last fell, while its minimum low time runs (R295). -/
  lowAt : Option Nat
  deriving DecidableEq, Repr

/-- The steps of the reset sequencer (R518, R519): a block reset in progress, its cause and start. -/
structure ResetSt where
  cause : Nat
  start : Nat
  fault : Bool
  deriving DecidableEq, Repr

/-- Power, clocks and temperature (R512 to R532). -/
structure PwSt where
  /-- Domains that ramp, with the start T of each ramp (R514). -/
  ramps : List (Nat × Nat)
  /-- Accepted requests that wait for a ramp. -/
  queue : List Nat
  /-- Domains that are being switched off, with the cycle of acceptance (R515). -/
  falling : List (Nat × Nat)
  /-- Domains to switch off as soon as their ramp completes (R515). -/
  offAfter : List Nat
  /-- Domains to request again once their switch-off completes (R515). -/
  onAfter : List Nat
  /-- A block reset in progress. -/
  reset : Option ResetSt
  /-- A reset that became due during a trip and is merged with it (R527). -/
  merged : Bool
  /-- The next step of the deep-sleep entry (R521), 0 when none. -/
  sleepStep : Nat
  /-- The cycle of the request of deep sleep. -/
  sleepAt : Nat
  /-- The cause of a wake that waits for the end of the entry (R523). -/
  wakeDue : Option Nat
  /-- The step of the boot that completes next (R370), 0 when no boot runs. -/
  bootStep : Nat
  /-- The cycle of the power good or the wake with which the boot began. -/
  bootAt : Nat
  /-- The cycle of the last thermal trip (R527). -/
  tripAt : Nat
  /-- Since when TEMP lies below the threshold of the level in force less 5 °C (R525). -/
  belowSince : Option Nat
  /-- The FAB_CLK cycle at which the gating pattern last restarted and the enabled ARITH_CLK cycles counted before it (R525). -/
  gateAt : Nat
  gateAcc : Nat
  /-- Consecutive windows outside and inside the tolerance, of ARITH_CLK and of FAB_CLK (R517). -/
  arithBad : Nat
  arithGood : Nat
  fabBad : Nat
  fabGood : Nat
  /-- The Lantern records (R359), and whether it stops at the end of the present cycle (R360). -/
  lantern : Bool
  lanternEnd : Bool
  /-- Domains that an escalation or a reset holds stopped, whose fences are closed (R487). -/
  fenced : List Nat
  /-- The unlock latch in PD_AON (R382). -/
  unlock : Bool
  deriving DecidableEq, Repr

/-- A hold-off timer that runs (R355): bank, group and the cycle of its start, with the time it runs for. -/
structure HoldTimer where
  fast : Bool
  group : Nat
  start : Nat
  time : Nat
  deriving DecidableEq, Repr

/-- An active source (R353): bank, source and the target that claimed it. -/
structure ActiveSrc where
  fast : Bool
  src : Nat
  tgt : Target
  deriving DecidableEq, Repr

/-- A pending bit that stays with the target it was latched for (R358): its bank, its source and the route of that time. -/
structure MovedBit where
  fast : Bool
  src : Nat
  route : Nat
  deriving DecidableEq, Repr

/-- What the event controller keeps besides its registers: the active sources and the hold-off timers that run (R353, R355), the pending bits that a
change of route or class has left with their old target and bank (R358), and the level sources that are sampled again in the next cycle (R354). -/
structure EvSt where
  active : List ActiveSrc
  holds : List HoldTimer
  moved : List MovedBit
  resample : List Nat
  deriving DecidableEq, Repr

/-- One mailbox channel (R305 to R318). A message is the list of its words. -/
structure MbChan where
  /-- Uncommitted H2K words, and whether one was dropped for overflow since the last commit or discard (R309). -/
  words : List Nat
  overflow : Bool
  /-- The committed H2K message, empty when FULL is 0; how many of its words its receiver has read (R316); and the cycle in which FULL last
  cleared (R311). -/
  msg : List Nat
  readN : Nat
  fullClr : Option Nat
  /-- The K24 side's MASK (R312, R315). -/
  mask : Nat
  /-- The committed K2H message: its header and its unread words (R310). -/
  hdr : Nat
  k2h : List Nat
  /-- Responses that wait for the K2H queue, with whether each answers an immediate command, and waiting notices (R343). -/
  resps : List (Bool × List Nat)
  notices : List (List Nat)
  /-- The next notice carries flag LOST (R343). -/
  lost : Bool
  /-- The cycle in which the K2H queue's FULL last cleared (R311). -/
  k2hClr : Option Nat
  /-- The uncommitted words that the entry of the peer into RESET or DEAD has dropped, with whether one was dropped for overflow, and its cycle: a commit of
  that cycle is still discarded and recorded (R317). -/
  dropped : Option (Nat × List Nat × Bool)
  /-- Since when the committed message waits for the digest engine to be free of another owner (R332). -/
  heldAt : Option Nat
  deriving DecidableEq, Repr

/-- A deferred command in progress (R327): its channel, OPCODE and SEQ, its context's ID or 0, the cycle in which it was
read, and the data that its completion needs. -/
structure Deferred where
  ch : Nat
  op : Nat
  seq : Nat
  ctx : Nat
  at_ : Nat
  args : List Nat
  data : List Byte
  deriving DecidableEq, Repr

/-- The mailboxes and the command state of the Coachman firmware (R326 to R343). -/
structure MbSt where
  chans : Vector MbChan 6
  deferred : List Deferred
  /-- The command region (SET_CMD_REGION). -/
  regionBase : Nat
  regionSize : Nat
  /-- The channel of general notices and their suppression mask (SET_NOTICE_ROUTE). -/
  route : Nat
  mask : Nat
  noticesLost : Nat
  deriving DecidableEq, Repr

/-- A suspect replay in progress at level COACH (R494 to R497). -/
structure Replay where
  /-- The faulting unit: a coach, or 16 for the Gig engine. -/
  unit : Nat
  /-- The coaches of the set, as a mask, and those whose scrub is still due. -/
  coaches : Nat
  scrubs : Nat
  /-- Suspects whose replay is still to come, by ascending ID; the suspect under replay; the suspects that faulted alone. -/
  todo : List Nat
  cur : Option Nat
  guilty : List Nat
  /-- Every suspect of the episode. -/
  all : List Nat
  /-- The next row of the window to release, the row after its last, and the line interval's next cycle. -/
  row : Nat
  stop : Nat
  dueAt : Nat
  /-- The contexts that held the coaches at the fault, and the coach indices that have finished each row of this replay. -/
  holders : List Nat
  done : List (Nat × Nat)
  deriving DecidableEq, Repr

/-- An escalation at level BLOCK or POWER in progress (R499 to R506): the fault that reached it, the line and the start,
the step that completes next, and what the dump has become. -/
structure BlockEsc where
  code : Nat
  level : Nat
  ctx : Nat
  unit : Nat
  line : Nat
  start : Nat
  step : Nat
  partial_ : Bool
  truncated : Bool
  writer : Nat
  dump : List Byte
  deriving DecidableEq, Repr

/-- A security-class fault that awaits its reset (R498). -/
structure SecFault where
  code : Nat
  unit : Nat
  at_ : Nat
  deriving DecidableEq, Repr

/-- Fault handling (R481 to R506). -/
structure FltSt where
  /-- The level in force of each unit's episode (R489). -/
  level : Vector Nat 21
  /-- The code of the fault of each unit's episode. -/
  code : Vector Nat 21
  /-- The cycle in which the reset of each coach, or of the Gig engine, began (R495, R518). -/
  resetAt : Vector (Option Nat) 17
  /-- The reset of a partition by the coach whose fault asked for it: the cycle in which it began, and its coaches (R489). -/
  partAt : Vector (Option (Nat × Nat)) 17
  /-- Contexts whose job a received ABORT has covered during that reset, by ID: it does not tear them down (R26). -/
  spared : List Nat
  /-- Escalations at level CONTEXT against Tandem jobs that the present cycle has begun: they are carried out at its end, unless it brings an ABORT of
  the job (R26). -/
  due : List (Nat × Nat × Nat × Nat × Nat × Nat)
  /-- The replay of a partition's jobs that is under way (R495, R496). -/
  replay : Option Replay
  /-- The BLOCK escalation that is under way (R499). -/
  block : Option BlockEsc
  /-- The security-class fault that waits for its reset (R498). -/
  security : Option SecFault
  /-- The cycle of the last fault-driven reset (R493). -/
  lastReset : Nat
  /-- The dump awaits its announcement by DUMP_READY (R500). -/
  dumpNew : Bool
  /-- The code of the fault that the dump is of. -/
  dumpCode : Nat
  /-- The cycle of the Coachman watchdog's first expiry since its last restart (R485). -/
  cmWdog : Option Nat
  /-- The cycle of the Strongbox watchdog's expiry since its last restart (R485). -/
  sbWdog : Option Nat
  deriving DecidableEq, Repr

/-- A transfer of a coach (R171): its entry, its place, the beats issued and arrived (or accepted, for a write), the
enabled cycle of its ISSUE, the reservation at its issue (R172) and the cycle in which its last beat was done. -/
structure Xfer where
  write : Bool
  region : Nat
  tag : Nat
  ctx : Nat
  row : Nat
  col : Nat
  stage : Nat
  ofs : Nat
  buf : Nat
  /-- The bytes of a record or defect map as they pass the ports; empty when the coach buffer is read at issue. -/
  data : List Byte
  total : Nat
  issued : Nat
  arrived : Nat
  issueAt : Nat
  /-- The cycles that the coach's entries had waited at its issue. -/
  waits0 : Nat
  res : Nat
  doneAt : Option Nat
  deriving DecidableEq, Repr

/-- An entry that a coach runs (R170, R181): its place in the program, its tile row and column, the enabled cycle of its begin,
the cycles waited, the next synchronisation entry, the next transfers, the run in progress with the stage cycle of its
begin, the drains that wait (carriages, bank, post descriptor) with the stage cycle from which the first runs, and whether
NUMERIC was raised. -/
structure RunSt where
  ctx : Ctx
  index : Nat
  entry : Nat
  stage : Nat
  row : Nat
  col : Nat
  slot : Nat
  planned : Nat
  beginAt : Nat
  waits : Nat
  sync : Nat
  /-- Transfers with an ISSUE below this stage cycle have been admitted. -/
  admitted : Nat
  runIdx : Nat
  runAt : Nat
  stalled : Bool
  drains : List (Nat × Nat × Nat)
  drainAt : Nat
  satSeen : Bool
  nanSeen : Bool
  /-- Since when the stage stalls on a full write queue (R192). -/
  fullAt : Option Nat
  /-- The preemption point at which the stage stops for a switch (R195, R249). -/
  stop : Option Nat
  /-- The cycles of the run in progress that the carriages have carried out, and the weight register of its present pass (R95). -/
  step : Nat := 0
  reg : Nat := 0
  /-- The code of a fault that the run has met and no further pass of it follows: DESC_FAULT or NUMERIC (R94, R98, R116). -/
  fault : Option Nat := none
  /-- The cycles of the present wait for data and of the present stall on a bank that are counted already (R114, R192). -/
  lateN : Nat := 0
  stallN : Nat := 0
  /-- The stage cycle in which two flits meet on the shift ring (R89). -/
  clash : Option Nat := none
  deriving DecidableEq, Repr

/-- A beat of a fetch in a prefetch queue (R88): its context, tag and place in the fetch, and its bytes. -/
structure Beat where
  ctx : Nat
  tag : Nat
  place : Nat
  data : List Byte
  deriving DecidableEq, Repr

/-- What a coach keeps besides its registers (R85 to R91): the carriage SRAMs and the coach buffer, the post tables, the
accumulator banks, the entry that runs, its transfers, the Gig slots that have ended for it, and its reservation (R172). -/
structure CoachSt where
  sram : Vector (SMap Byte) 5
  tables : List Byte
  acc : SMap Nat
  /-- The weight registers, two for each carriage (R85), by carriage, register and byte. -/
  wregs : SMap Byte := []
  /-- The cycles that its earlier entries waited (R172). -/
  waited : Nat := 0
  run : Option RunSt
  xfers : List Xfer
  /-- The read prefetch queues: beats that have arrived, oldest first, and the cycle in which the coach buffer last took one (R88, R90). -/
  prefetch : List Beat := []
  takenAt : Option Nat := none
  gigEnds : List (Nat × Nat)
  winRes : Nat
  winLeft : Nat
  /-- The reservation of the switch in which it saves or restores, 0 in none (R250). -/
  swRes : Nat := 0
  begun : Bool
  lastRes : Nat
  /-- The FAB_CLK cycle in which its scrub began; the clock of a scrub is not gated (R262, R525). -/
  scrubAt : Option Nat
  /-- Contexts that ran an entry, with the count of released rows at that moment (R494). -/
  ran : List (Nat × Nat)
  /-- The context that left it in the switch for which it is being scrubbed (R264). -/
  scrubOld : Nat
  /-- The next member of the slice group, to which the coach passes after the scrub of a teardown, by ID, or 0 (R264). -/
  scrubNext : Nat
  deriving DecidableEq, Repr

/-- A coach's control state in a save area (R249), beside which the area holds the live list of its point in memory: the extents of that list, each with its
address, location and length; the entry at the point, with the stage cycle of the point as its begin; the transfers not yet issued, with their age as their
issue; the Gig slots that have ended for it; and its waits. -/
structure SaveSt where
  live : List (Nat × Nat × Nat)
  run : Option RunSt
  xfers : List Xfer
  gigEnds : List (Nat × Nat)
  begun : Bool
  lastRes : Nat
  waited : Nat
  deriving DecidableEq, Repr

/-- The Gig engine (R149 to R156): its SRAM, the owner of each page (R243), the slot that runs, with its coach and the
enabled cycle of its begin and its length, and the contexts whose pages are being scrubbed. -/
structure GigSt where
  sram : SMap Byte
  pages : Vector Nat 64
  run : Option Coach
  beginAt : Nat
  len : Nat
  /-- The last slots: context, begin and end (R182). -/
  past : List (Nat × Nat × Nat)
  /-- The contexts whose pages are being scrubbed, with the cycle of the begin (R262). -/
  scrubs : List (Nat × Nat)
  /-- For each context, the count of releases at its last slot (R494). -/
  ran : List (Nat × Nat)
  /-- The cycles of the slot that are counted already (R159). -/
  busyN : Nat := 0
  /-- The coach of the last slot, and whether the slot that runs passed from another coach (R155, R157). -/
  lastCoach : Option Coach := none
  passes : Bool := false
  deriving DecidableEq, Repr

/-- Where the data of a transaction go (R204, R226). -/
inductive Dest where
  | coach (c tag : Nat)
  | record (c row : Nat)
  /-- The stamp of a line, which lies `ofs` bytes into the beat, for a row's release (R218). -/
  | stamp (row line ofs : Nat)
  /-- A line of a row's strip on a side, which begins `ofs` bytes into its first beat of `beats` (R287). -/
  | strip (row side line ofs beats : Nat)
  /-- A chunk of the digest engine for a view (R431). -/
  | chunk (view : Fin 3)
  /-- What the Strongbox measures of a context: its weights, or its reference raster (R209, R336, R375). -/
  | measure (ctx : Nat)
  | other
  deriving DecidableEq, Repr

/-- A transaction of a memory port (R203 to R206): beats presented but not accepted, and beats answered. -/
structure Tx where
  port : Nat
  id : Nat
  write : Bool
  ctx : Nat
  region : Nat
  addr : Nat
  beats : Nat
  waiting : Nat
  got : Nat
  dest : Dest
  stage : Nat
  row : Nat
  col : Nat
  at_ : Nat
  zero : Bool
  abandoned : Bool
  /-- The place of its first beat in the transfer that it belongs to. -/
  first : Nat := 0
  /-- The beats of a write that its port has not accepted: what the write queue holds of it (R88). -/
  data : List Byte := []
  deriving DecidableEq, Repr

/-- A request of the block itself that waits for the ports (R209): its kind (0 digest engine, 1 firmware and stamp reads, 2 link controller, 3 dump and
results, which no limit of R209 meets), its context and region, its beats with those already issued, the bytes to be written, and the stage, or side, and
row that it belongs to. -/
structure Own where
  cls : Nat
  write : Bool
  ctx : Nat
  region : Nat
  addr : Nat
  beats : Nat
  done : Nat
  data : List Byte
  stage : Nat
  row : Nat
  /-- Where the data of a read go. -/
  dest : Dest
  deriving DecidableEq, Repr

/-- A transaction of the host-port initiator (R211): its identifier once it is issued, with the parts of it that wait to be accepted and the beats answered. -/
structure InitTx where
  id : Option Nat
  write : Bool
  ctx : Nat
  addr : Nat
  beats : Nat
  data : List Byte
  waiting : Nat := 0
  got : Nat := 0
  deriving DecidableEq, Repr

/-- The memory ports (R202 to R213): outstanding transactions, oldest first, the window's begin, the beats that the link controller, the
digest engine and the firmware may still issue in it (R209, R289), the requests of the block itself that wait, the transactions of the host-port
initiator (R211), and the frames that a scrub between two contexts holds back, with the context's ID (R264). -/
structure MpSt where
  txs : List Tx
  winAt : Nat
  linkLeft : Nat
  digestLeft : Nat
  fwLeft : Nat
  own : List Own
  inits : List InitTx
  held : List (Nat × Out)
  deriving DecidableEq, Repr

/-- A port of the Tandem link (R272 to R274, R293): when it entered TRAINING and when it returned to DOWN, whether its own
HELLO is sent and the peer's verified, and the aborts that it holds. -/
structure PortSt where
  trainAt : Option Nat
  downAt : Option Nat
  locked : Bool
  helloAt : Nat
  peerOk : Bool
  peerPos : Nat
  held : List LinkFrame
  queue : List LinkFrame
  changedAt : Option Nat
  /-- It has nothing to send and sends IDLE frames (R272). -/
  idles : Bool := false
  deriving DecidableEq, Repr

/-- A halo strip of this block (R287, R288): its context, row and side, its bytes, and how many of its 288 lines have been read. -/
structure Strip where
  ctx : Nat
  row : Nat
  side : Nat
  data : List Byte
  lines : Nat
  deriving DecidableEq, Repr

/-- A strip that this block awaits (R288). -/
structure HaloWait where
  ctx : Nat
  row : Nat
  side : Nat
  at_ : Nat
  reqs : Nat
  deriving DecidableEq, Repr

/-- The summaries of a sheet that the head still awaits (R290). -/
structure SumWait where
  ctx : Nat
  sheet : Nat
  line : Nat
  reqs : Nat
  deriving DecidableEq, Repr

/-- An abort that is repeated (R291): its context, sequence number and payload, how often it is still to be sent, and when it was last
sent. -/
structure AbortSt where
  ctx : Nat
  seq : Nat
  payload : List Byte
  left : Nat
  at_ : Nat
  deriving DecidableEq, Repr

/-- A frame of this block that waits for the end of a scrub (R264). -/
structure HeldFrame where
  ports : List LinkPort
  type : Nat
  dst : Nat
  bcast : Bool
  ctx : Nat
  arg : Nat
  payload : List Byte
  deriving DecidableEq, Repr

/-- The Tandem link controller (R270 to R296). -/
structure TlSt where
  ports : Vector PortSt 2
  /-- The link key (R279), empty when not loaded. -/
  linkKey : List Byte
  /-- The chain nonce (R279). -/
  nonce : List Byte
  /-- The session key (R279). -/
  session : List Byte
  /-- Frames originated in this session, bulk and urgent, and the last counts accepted by source and class (R280). -/
  sentBulk : Nat
  sentUrgent : Nat
  accepted : List (Nat × Nat × Nat)
  /-- The recorded chain table, each entry with its position and identity (R282). -/
  table : List (Nat × Nat)
  /-- A LINE_SYNC is due (R286). -/
  syncDue : Bool
  /-- The sequence number of the last ABORT that this block made (R24, R292). -/
  abortSeq : Nat
  /-- The sequence number of the last CONTEXT_RETIRE (R294). -/
  retireSeq : Nat
  /-- The aborts that are still to be repeated (R291). -/
  aborts : List AbortSt
  /-- Aborts acted on, by source and sequence number (R24, R292). -/
  abortSeen : List (Nat × Nat)
  /-- Retirements of other blocks that have been taken (R294). -/
  retired : List Nat
  /-- Strips that wait to be written (R288, R289). -/
  strips : List Strip
  /-- Halo strips that may be fetched: context, row and side (R136, R219). -/
  arrived : List (Nat × Nat × Nat)
  /-- Halo strips that are awaited (R288). -/
  waits : List HaloWait
  /-- The summaries of the last sheets, kept to be sent again (R290). -/
  sums : List (Nat × Nat × List Byte)
  /-- Summaries that the head awaits (R290). -/
  sumWaits : List SumWait
  /-- Frames that a scrub holds back (R264). -/
  heldOut : List HeldFrame
  deriving DecidableEq, Repr

/-- A coach after a scrub, and at reset, where the weight registers and the accumulator banks hold 0: the spec gives them no value there (DESIGN CHOICE, log 9,
log 36). -/
def CoachSt.init : CoachSt :=
  {
  sram := Vector.replicate 5 [], tables := List.replicate 1024 0, acc := [], run := none, xfers := [], gigEnds := [], winRes := 0, winLeft := 0, begun := false,
  lastRes := 0, scrubAt := none, ran := [], scrubOld := 0, scrubNext := 0}
/-- The Gig engine after its domain resets. -/
def GigSt.init : GigSt := {
  sram := [], pages := Vector.replicate 64 0, run := none, beginAt := 0, len := 0, past := [], scrubs := [], ran := []}
/-- The memory ports after their domain resets. -/
def MpSt.init : MpSt := { txs := [], winAt := 0, linkLeft := 32, digestLeft := 10, fwLeft := 10, own := [], inits := [], held := [] }
/-- A link port that is DOWN. -/
def PortSt.init : PortSt := ⟨none, none, false, 0, false, 0, [], [], none, false⟩
/-- The link controller after its domain resets. -/
def TlSt.init : TlSt := {
  ports := Vector.replicate 2 PortSt.init, linkKey := [], nonce := [], session := [], sentBulk := 0, sentUrgent := 0,
  accepted := [], table := [], syncDue := false, abortSeq := 0, retireSeq := 0, aborts := [],
  abortSeen := [], retired := [], strips := [], arrived := [], waits := [], sums := [],
  sumWaits := [], heldOut := []}

/-- What the Timetable keeps besides its registers (R41 to R66). -/
structure TtSt where
  /-- The phase accumulator (R44) and the accepted levels of ENC_A and ENC_B. -/
  acc : Nat
  encA : Bool
  encB : Bool
  /-- The accepted level of SHEET_MARK (R40). -/
  mark : Bool
  /-- Rows whose DEADLINE slot has fired in the present cycle, by context: the cycle's end judges them (R58). -/
  dueRows : List (Nat × Nat)
  /-- The last intervals between boundaries, newest first, at most 8, and the cycle of the last boundary since the rise of
  ENABLE (R50). -/
  intervals : List Nat
  lastB : Option Nat
  /-- The cycle from which the stop timeout runs (R61), and whether it has set the rate to 0 (R65). -/
  stopRef : Nat
  halted : Bool
  /-- Consecutive lines at 550 lines/s or more in CRAWL (R48), above and at or below TT_RATE_MAX (R62), and clean lines in
  FAULT (R64). -/
  fastLines : Nat
  overLines : Nat
  underLines : Nat
  cleanLines : Nat
  /-- Line boundaries so far and, by that count, the illegal transitions and spikes of the last 256 (R63). -/
  bounds : Nat
  illegal : List Nat
  spikes : List Nat
  /-- STOP or FAULT since RUN or CRAWL was last left (R48). -/
  sawHalt : Bool
  /-- The net count since the last index edge, and whether there was one (R66). -/
  zNet : Int
  zSeen : Bool
  /-- The line of the previously accepted mark (R53). -/
  lastMark : Option Nat
  /-- The line of the previous epoch's mark (R52). -/
  epochMark : Option Nat
  /-- Scheduled epochs by rising line, each with its mark's line (R53). -/
  epochs : List (Nat × Nat)
  /-- The last epochs opened, newest first: number and line (R220). -/
  opened : List (Nat × Nat)
  /-- The line at which ENABLE went to 1 and the next k of R52. -/
  enLine : Nat
  synthK : Nat
  /-- TT_LINE when each armed slot was armed (R54). -/
  armLine : SMap Nat
  /-- When the accepted levels of ENC_A, ENC_B, ENC_Z and SHEET_MARK last changed (R40). -/
  levelAt : Vector (Option Nat) 4
  /-- TT_LINE as LINE_STAMP[47:0] shows it: the value at the last FAB_CLK edge (R46). -/
  stamp : Nat
  /-- Tile rows that the block has released (R494). -/
  released : Nat
  /-- The stretches of enabled ARITH_CLK cycles, newest first, in which the state was one whose time counts towards no hang, and the begin of the present
  one (R485). -/
  still : List (Nat × Nat)
  stillAt : Option Nat
  deriving DecidableEq, Repr

/-- A record that a RECORD stage has handed over (R179, R221). -/
structure Rec where
  column : Nat
  data : List Byte
  map : List Byte
  deriving DecidableEq, Repr

/-- A REFRASTER fetch of a reference stage whose bytes are kept for the reference digest of its tile (R419). -/
structure RefPiece where
  col : Nat
  stage : Nat
  ofs : Nat
  bytes : List Byte
  deriving DecidableEq, Repr

/-- A released tile row of a job (R183 to R186, R221). -/
structure RowSt where
  row : Nat
  /-- The cycle of its release, in FAB_CLK cycles, and in enabled ARITH_CLK cycles (R526). -/
  relAt : Nat
  relArith : Nat
  epoch : Nat
  rowInSheet : Nat
  mismatch : Bool
  memErr : Bool
  /-- The columns whose results met an error response (R221, R225). -/
  errCols : List Nat
  /-- The Timetable has been in RUN at all times since the release (R58). -/
  allRun : Bool
  overrun : Bool
  /-- Coach indices that have finished the row's entries. -/
  coachDone : Nat
  recs : List Rec
  /-- The bytes of the row's REFRASTER fetches, each by its column, its stage and its offset (R419). -/
  refs : List RefPiece
  /-- The columns in whose tiles R134 replaced a pixel. -/
  padded : List Nat
  /-- Whether the ledger has absorbed the row and the notice has been posted. -/
  absorbed : Bool
  posted : Bool
  /-- The row has been discarded: its records go nowhere (R60, R340, R496). -/
  dropped : Bool
  deriving DecidableEq, Repr

/-- A started job (R338). -/
structure JobSt where
  /-- The line of row 0 in this block's numbering, the place of row 0 on the common origin of rows modulo 4 (R183), and whether the
  job runs in Tandem. -/
  j0 : Nat
  phase : Nat
  tandem : Bool
  running : Bool
  /-- The positions that a Tandem job covers besides this block and its halo partners, as a mask: no field of the configuration gives them (R285, R290). -/
  covers : Nat
  /-- The next row to arm, the next to release, and the oldest row whose deadline is not judged. -/
  armRow : Nat
  relRow : Nat
  judged : Nat
  /-- Rows from this one on are not released (R339). -/
  stopRow : Option Nat
  /-- The row at which the coach programs start or were restarted (R495, R496). -/
  fromRow : Nat
  rows : List RowSt
  deriving DecidableEq, Repr

/-- A context's sheet ledger (R416 to R420). -/
structure LedgerSt where
  opened : Bool
  head : List Byte
  count : Nat
  lastRow : Nat
  rowsHeld : Nat
  rasterWait : Bool
  final : List Byte
  nonce : List Byte
  deriving DecidableEq, Repr

/-- The bounce buffers of a confidential context (R346 to R348). -/
structure BounceSt where
  set : Bool
  base : Nat
  size : Nat
  outOfs : Nat
  countIn : Nat
  countOut : Nat
  key : List Byte
  keySent : Bool
  deriving DecidableEq, Repr

/-- Edge padding settings (R133, R134, R335). -/
structure EdgeSt where
  pad : Nat
  first : Nat
  last : Nat
  deriving DecidableEq, Repr

/-- The place of a coach index in its program (R181): the next entry, the first row of the period it belongs to, and the
end of the entry before it in enabled ARITH_CLK cycles, with the stage, the row and the waits of that entry (R193). -/
structure ProgPos where
  entry : Nat
  base : Nat
  endPrev : Nat
  prevWaits : Nat
  prevStage : Nat
  prevRow : Nat
  deriving DecidableEq, Repr

/-- A summary of a sheet (R290, R345). -/
structure SummarySt where
  sheet : Nat
  pos : Nat
  rows : Nat
  records : Nat
  flagged : Nat
  flags : Nat
  vectors : List Byte
  deriving DecidableEq, Repr

/-- Edge padding that is pending until the next epoch (R53, R253, R255), as an RW-E value is. -/
structure EdgeWrite where
  edge : EdgeSt
  at_ : Nat
  off : Bool
  deriving DecidableEq, Repr

/-- A context (R237 to R260), beside its registers. -/
structure CtxSt where
  /-- Its place in the order of creation, 0 when free. -/
  order : Nat
  image : List Byte
  /-- The post tables of its coaches, which its loaded waybill brings (R110, log 24). -/
  tables : List Byte
  /-- The 128-byte job configuration; empty when none was accepted (R337). -/
  cfg : List Byte
  edge : EdgeSt
  edgeNext : List EdgeWrite
  sliceLen : Nat
  sliceUnit : Nat
  /-- The cycle and line at which the current slice began, and the reduced length in force (R251). -/
  sliceAt : Nat
  sliceLine : Nat
  sliceCut : Nat
  /-- The cycle of E of a switch away from this context (R249), and of P once the last coach has reached its point. -/
  switchE : Option Nat
  switchP : Option Nat
  /-- The context that this one makes room for, and the coaches whose save or restore is still due. -/
  switchTo : Option Nat
  moving : Nat
  job : Option JobSt
  prog : Vector ProgPos 16
  /-- The coaches' control states in its save areas, by coach index (R249, log 20). -/
  saves : List (Nat × SaveSt)
  /-- The reference pass (R180, R336): done for the current page, running since a cycle, and the raster's digest input. -/
  refDone : Bool
  refRun : Option Nat
  refCoaches : Nat
  refOverrun : Bool
  /-- The key of its memory slot while loaded (R224), and the cycle of its fence. -/
  key : List Byte
  fenceAt : Option Nat
  /-- An abort fence in progress (R292, R340). -/
  abortFence : Bool
  /-- That fence is a received ABORT's (R26). -/
  abortRx : Bool
  ledger : LedgerSt
  bounce : BounceSt
  /-- Why it is being torn down: 0 DESTROY, 1 FAULT (R344); coaches and pages whose scrub is still due (R256); the context that its teardown delays in a switch,
  with the cycle from which (R261); and the notices 7 and 8 that wait until those queued before them are posted (R257). -/
  tearReason : Nat
  tearDelay : Option (Nat × Nat)
  tornDue : List (Nat × List Nat)
  scrubCoaches : Nat
  scrubPages : Bool
  /-- The retire: when it was sent, with which chain length, and the peers that answered (R259). -/
  retireAt : Option Nat
  retireSent : Nat
  retireN : Nat
  retirePeers : List Nat
  /-- Summaries received and merged (R290), and the sheets whose posted summary is not acknowledged (R345). -/
  summaries : List SummarySt
  sumOpen : List Nat
  deriving DecidableEq, Repr

/-- A programming operation of the direct path in progress (R455): LOCK or WORD, the word and the 40 bits to blow into it, data below
and check above, or the region index to lock. -/
structure OtpOp where
  lock : Bool
  word : Nat
  value : Nat
  region : Nat
  at_ : Nat
  deriving DecidableEq, Repr

/-- The one-time-programmable memory (R445, R449): the fuses of each word, 32 data bits and 8 check bits above them, as they read
at the normal and at the tightened margin reference, and the operation that runs. -/
structure OtpSt where
  norm : SMap Nat
  tight : SMap Nat
  op : Option OtpOp
  deriving DecidableEq, Repr

/-- A working slot of the Strongbox (R404, R405). -/
structure WorkKey where
  slot : Nat
  kind : Nat
  usage : Nat
  keyId : Nat
  gen : Nat
  key : List Byte
  deriving DecidableEq, Repr

/-- The update session on the service port (R466 to R471). -/
structure SvcSt where
  /-- A session is open, its nonce and the SEQ of its last request (R468). -/
  isOpen : Bool
  nonce : List Byte
  lastSeq : Nat
  /-- The key of a keyed session; empty in another. -/
  key : List Byte
  /-- The manifest of the open staging session, the blocks written, and the cycle of the last request. -/
  manifest : List Byte
  written : List Nat
  lastAt : Nat
  /-- The response that is being made or waits to be read, and whether it is ready (R467). -/
  resp : Option (List Byte)
  deriving DecidableEq, Repr

/-- An activation without a reset in progress (R475): unit, channel and SEQ of the command, or the service port. -/
structure Activation where
  unit : Nat
  svc : Bool
  ch : Nat
  seq : Nat
  at_ : Nat
  deriving DecidableEq, Repr

/-- An entry of a key-update message (R408): TARGET, USAGE, KEY_ID, LEN and the key. -/
structure KeyEntry where
  target : Nat
  usage : Nat
  keyId : Nat
  len : Nat
  key : List Byte
  deriving DecidableEq, Repr

/-- A KEY_UPDATE in progress (R411): its channel and SEQ, the COUNTER, whether the fuses read back blown, the entries whose regions are
still to be programmed, the entries whose items are to be written, the output address, and the cycle in which it was accepted. -/
structure KeyJob where
  ch : Fin 6
  seq : Nat
  counter : Nat
  blows : Bool
  todo : List KeyEntry
  items : List KeyEntry
  out : Nat
  at_ : Nat
  deriving DecidableEq, Repr

/-- A block reset that the Strongbox has answered OK for and makes within 10 ms (R381, R382, R474): its cause, the cycle of the answer, and
for a lifecycle transition the state whose bits are still to be programmed, with what their read-back shows. -/
structure DueReset where
  cause : Nat
  at_ : Nat
  prog : Option (Nat × Bool)
  deriving DecidableEq, Repr

/-- What the Strongbox holds in its private SRAM (R368): the measurement log, oldest first, and the count of extensions (R376);
the outstanding challenge (R380), empty for none; the boot identifier (R414); the roots in use (R396), empty for none; the identity,
statement and transport keys and the endorsement (R403); the working slots; the owner key hash, empty when none is accepted, and
whether its region is blank (R452); the boot directory in force, its copy (R464) and the format of the running firmware's settings (R473). -/
structure SbSt where
  /-- The measurement log, oldest first (R376). -/
  log : List (List Byte)
  /-- The count of its extensions (R376). -/
  seq : Nat
  /-- The nonce that is outstanding (R380). -/
  challenge : List Byte
  /-- The boot identifier (R370, R414). -/
  bootId : List Byte
  /-- The ladder root (R399); empty when there is none. -/
  root : List Byte
  /-- The memory root (R396). -/
  memRoot : List Byte
  /-- The link key (R396), empty when none is loaded. -/
  linkKey : List Byte
  /-- The identity key, as encoded (R400). -/
  identity : List Byte
  /-- The alias key (R400). -/
  signKey : Nat
  /-- The endorsement of the alias key (R403). -/
  endorse : List Byte
  /-- The transport key (R400). -/
  transport : Nat
  /-- The working keys (R405). -/
  keys : List WorkKey
  /-- The hash of the owner key, empty when there is none (R409). -/
  owner : List Byte
  /-- The owner-key region is blank (R409). -/
  ownerBlank : Bool
  /-- The slot directory as the boot read it (R464). -/
  dir : List Nat
  /-- The copy of the directory that is in force (R464). -/
  dirCopy : Nat
  /-- VERSION of the running image of each unit (R469). -/
  version : Vector Nat 6
  /-- The format of the settings store (R473). -/
  settingsFmt : Nat
  /-- The settings enable automatic joining (R295, R370). -/
  autoJoin : Bool
  /-- The view of the last heartbeat until its answer, with the cycle of its sending (R387 to R389). -/
  hbSent : Option (Nat × Nat)
  /-- The holder of a rein has changed since that heartbeat was sent (R388). -/
  hbVoid : Bool
  /-- The number of the last heartbeat (R387). -/
  hbNum : Nat
  /-- The last non-void comparison was a mismatch (R388). -/
  hbBad : Bool
  /-- The heartbeats in a row without mismatch or miss (R476). -/
  hbClean : Nat
  /-- The cycle of the last heartbeat (R387). -/
  hbAt : Nat
  /-- When each unit in TRIAL started (R476). -/
  trialAt : Vector (Option Nat) 6
  /-- HEALTH_DUE was posted for the unit (R476). -/
  due : Vector Bool 6
  /-- The activation that is under way (R474). -/
  activation : Option Activation
  /-- The service port's session (R468). -/
  svc : SvcSt
  /-- The Strongbox firmware runs, from step 6 of the boot on (R370), and whether it waits for an event (R314). -/
  runs : Bool
  rests : Bool
  /-- The KEY_UPDATE in progress (R411). -/
  keyJob : Option KeyJob
  /-- The reset that follows an answer (R381, R382, R474). -/
  resetDue : Option DueReset
  /-- A key was loaded into a slot whose read-back check is still to come (R482). -/
  keyCheck : Bool
  /-- Every item of the key bundle was loaded in this boot (R476). -/
  bundleWhole : Bool
  deriving DecidableEq, Repr

/-- A user's message in the digest engine (R429, R430): its bytes so far, the key registers, whether the message has ended and its
result is still to come, and the chunk that runs: address, bytes, source, and whether it ends the message. -/
structure DgMsg where
  bytes : List Byte
  key : List Byte
  ended : Bool
  chunk : Option (Nat × Nat × Nat × Bool)
  /-- A response of the chunk's reads was an error (R435). -/
  memErr : Bool
  deriving DecidableEq, Repr

/-- The digest engine (R425 to R435): the message of each user by its view, the suspended owner, the cycle of the owner's last
write or of its resumption, and the idle cycles counted before it was suspended. -/
structure DgSt where
  msgs : Vector DgMsg 3
  suspended : Option Nat
  lastWrite : Nat
  idle : Nat
  /-- The cycle in which the present owner was granted the engine while it was free (R427). -/
  grantAt : Option Nat
  deriving DecidableEq, Repr

/-- The test access port (R550): the instruction in force, and the result of the last memory test; and the cycle until which the trace is
low after its group was written (R549). -/
structure TapSt where
  code : Nat
  running : Bool
  result : Nat
  quiet : Nat
  deriving DecidableEq, Repr

/-- Blank fuses. -/
def OtpSt.init : OtpSt := ⟨[], [], none⟩
/-- The service port with no session. -/
def SvcSt.init : SvcSt := ⟨false, [], 0, [], [], [], 0, none⟩
/-- The Strongbox after its domain resets: the private SRAM is zeroed (R370). -/
def SbSt.init : SbSt := {
  log := [], seq := 0, challenge := [], bootId := [], root := [], memRoot := [], linkKey := [], identity := [], signKey := 0,
  endorse := [], transport := 0, keys := [], owner := [], ownerBlank := false, dir := [], dirCopy := 0, version := Vector.replicate 6 0,
  settingsFmt := 0, autoJoin := false, hbSent := none, hbVoid := false, hbNum := 0, hbBad := false, hbClean := 0, hbAt := 0, trialAt := Vector.replicate 6 none,
  due := Vector.replicate 6 false, activation := none, svc := SvcSt.init, runs := false, rests := false,
  keyJob := none, resetDue := none, keyCheck := false, bundleWhole := false}
/-- An empty message. -/
def DgMsg.init : DgMsg := ⟨[], [], false, none, false⟩
/-- The digest engine after its domain resets. -/
def DgSt.init : DgSt := ⟨Vector.replicate 3 DgMsg.init, none, 0, 0, none⟩
/-- Test-Logic-Reset selects BYPASS; no memory test has run. -/
def TapSt.init : TapSt := ⟨0xFF, false, 0, 0⟩

/-- The state of the block. -/
structure State where
  /-- The register fields, by key (R13, R14). -/
  regs : SMap Nat
  /-- The snapshot of each pair and the value held for its _LO write, by the _LO offset (R15). -/
  snap : SMap Nat
  hiHold : SMap Nat
  /-- Pending RW-E values, oldest first (R253). -/
  rwe : List RweWrite
  /-- FAB_CLK cycles since PD_AON powered up (the model's own clock, log 1). -/
  now : Nat
  /-- The number of free values taken (the model's own, log 5). -/
  freeN : Nat
  /-- What has left the block, newest first (the model's own, log 7). -/
  out : List Out
  /-- Commands that wait, first in, first out (log 2). -/
  pending : List Instr
  pins : Pins
  pw : PwSt
  ev : EvSt
  mb : MbSt
  flt : FltSt
  tt : TtSt
  ctx : Vector CtxSt 8
  coach : Vector CoachSt 16
  gig : GigSt
  mp : MpSt
  tl : TlSt
  otp : OtpSt
  /-- The boot flash, by byte offset (R369, R464). -/
  flash : SMap Byte
  sb : SbSt
  dg : DgSt
  tap : TapSt
  deriving DecidableEq, Repr

/-- Nothing pending or active in the event controller. -/
def EvSt.init : EvSt := ⟨[], [], [], []⟩
/-- An empty mailbox channel: the K24 side's mask resets as K2H_DB_MASK does (R323, log 8). -/
def MbChan.init : MbChan := ⟨[], false, [], 0, none, 0xFFFFFFFF, 0, [], [], [], false, none, none, none⟩
/-- Empty mailboxes, no command region, general notices on MB0 (R335). -/
def MbSt.init : MbSt := ⟨Vector.replicate 6 MbChan.init, [], 0, 0, 0, 0, 0⟩
/-- No fault. -/
def FltSt.init : FltSt := ⟨Vector.replicate 21 0, Vector.replicate 21 0, Vector.replicate 17 none, Vector.replicate 17 none,
  [], [], none, none, none, 0, false, 0, none, none⟩
/-- The Timetable after its domain resets. -/
def TtSt.init : TtSt := {
  acc := 0, encA := false, encB := false, mark := false, dueRows := [], intervals := [], lastB := none, stopRef := 0, halted := false, fastLines := 0,
  overLines := 0, underLines := 0, cleanLines := 0, bounds := 0, illegal := [], spikes := [], sawHalt := false, zNet := 0, zSeen := false,
  lastMark := none, epochMark := none, epochs := [], opened := [], enLine := 0, synthK := 0, armLine := [],
  levelAt := Vector.replicate 4 none, stamp := 0, released := 0, still := [], stillAt := some 0}
/-- A context that is FREE. -/
def CtxSt.init : CtxSt := {
  order := 0, image := [], tables := [], cfg := [], edge := ⟨0, 0, 0⟩, edgeNext := [],
  sliceLen := 0, sliceUnit := 0, sliceAt := 0, sliceLine := 0, sliceCut := 0, switchE := none, switchP := none, switchTo := none, moving := 0,
  job := none, prog := Vector.replicate 16 ⟨0, 0, 0, 0, 0, 0⟩, saves := [], refDone := false, refRun := none, refCoaches := 0, refOverrun := false, key := [],
  fenceAt := none, abortFence := false, abortRx := false, ledger := ⟨false, [], 0, 0, 0, false, [], []⟩, bounce := ⟨false, 0, 0, 0, 0, 0, [], false⟩,
  tearReason := 0, tearDelay := none, tornDue := [], scrubCoaches := 0, scrubPages := false, retireAt := none, retireSent := 0, retireN := 0, retirePeers := [],
  summaries := [], sumOpen := []}
/-- Power as PD_AON comes up: every other domain off, no boot running (R528, R533). -/
def PwSt.init : PwSt := {
  ramps := [], queue := [], falling := [], offAfter := [], onAfter := [], reset := none, merged := false, sleepStep := 0,
  sleepAt := 0, wakeDue := none, bootStep := 0, bootAt := 0, tripAt := 0, belowSince := none, gateAt := 0, gateAcc := 0,
  arithBad := 0, arithGood := 0, fabBad := 0, fabGood := 0, lantern := false, lanternEnd := false, fenced := [], unlock := false}
/-- The pins as PD_AON comes up, before an accepted power good (log 8). -/
def Pins.init : Pins := {
  hold := false, alarmN := true, pwrCycN := true, svcAttnN := true, tmuxEn := false, supplyLow := false, tandem := false,
  pos := 0, encA := false, mark := false, svcCsN := true, pwrGood := false, encAt := none, lowAt := none}

/-- The machine right after reset: PD_AON has just powered up, every register of every domain at its reset value, nothing
else held (log 8). -/
def State.reset : State := {
  regs := [], snap := [], hiHold := [], rwe := [], now := 0, freeN := 0, out := [], pending := [], pins := Pins.init,
  pw := PwSt.init, ev := EvSt.init, mb := MbSt.init, flt := FltSt.init, tt := TtSt.init, ctx := Vector.replicate 8 CtxSt.init,
  coach := Vector.replicate 16 CoachSt.init, gig := GigSt.init, mp := MpSt.init, tl := TlSt.init,
  otp := OtpSt.init, flash := [], sb := SbSt.init, dg := DgSt.init, tap := TapSt.init}

end Sys2Proof.Machine
end

