-- ==== Sys2Proof/Machine/Ops.lean ====
section
/-! DEFINITION. The named operations on State that every meaning is written over: reading and writing register fields,
saturating counters, time, free values, the outbox, power domains, and the host port's answer to an access (R14, R16, R32). -/

namespace Sys2Proof.Machine

/-- The value of a register field. -/
def rd (f : Fld) (s : State) : Nat := SMap.get fieldReset s.regs f.key

/-- A one-bit field as a Bool. -/
def rdB (f : Fld) (s : State) : Bool := rd f s == 1

/-- Write a register field; the value is cut to the field's width. -/
def wr (f : Fld) (v : Nat) (s : State) : State :=
  { s with regs := SMap.set fieldReset s.regs f.key (v % 2 ^ f.width) }

/-- Write a one-bit field. -/
def wrB (f : Fld) (b : Bool) (s : State) : State := wr f (b2n b) s

/-- Add to a counter, which saturates at its maximum (R16). -/
def add (f : Fld) (n : Nat) (s : State) : State :=
  wr f (min (rd f s + n) (2 ^ f.width - 1)) s

/-- Add 1 to a counter (R16). -/
def inc (f : Fld) (s : State) : State := add f 1 s

/-- Write a list of fields in turn. -/
def wrs : List (Fld × Nat) → State → State
  | [], s => s
  | (f, v) :: r, s => wrs r (wr f v s)

/-- Clear fields. -/
def clr (fs : List Fld) (s : State) : State := wrs (fs.map (fun f => (f, 0))) s

/-- A field of the model's own beside a field: the bits of it that hardware has set in the present cycle (R14). -/
def freshF (f : Fld) : Fld := ⟨f.addr + 0x2000000, f.lo, f.width⟩
/-- Beside a counter: a write has cleared it in the present cycle (R36). -/
def clearedF (f : Fld) : Fld := ⟨f.addr + 0x4000000, f.lo, f.width⟩

/-- Hardware sets bits of a field that a write can clear (R14, R313, R356). -/
def markBits (f : Fld) (m : Nat) (s : State) : State := wr (freshF f) (rd (freshF f) s ||| m) (wr f (rd f s ||| m) s)
/-- Hardware sets a sticky bit. -/
def markBit (f : Fld) (s : State) : State := markBits f 1 s
/-- Bits of a field are cleared: those that hardware has set in the same cycle stay (R14, R313, R358). -/
def clearBits (f : Fld) (m : Nat) (s : State) : State := wr f (rd f s - (rd f s &&& m) ||| rd f s &&& rd (freshF f) s) s
/-- A write clears counters: they read 0, and what is added to them in the same cycle is lost (R36, R83, R124, R163, R201, R233, R302, R325,
R365, R444). -/
def cntClr (fs : List Fld) (s : State) : State := wrs (fs.map (fun f => (clearedF f, 1))) (clr fs s)
/-- The register fields at the end of a cycle: the counters cleared in it are 0, and the fields of the model's own are forgotten. -/
def cycleEnd (m : SMap Nat) : SMap Nat :=
  (m.filter (fun e => 0x4000000 ≤ e.1 / 64)).foldl (fun r e => SMap.set fieldReset r (e.1 - 64 * 0x4000000) 0) (SMap.forget (fun k => 0x2000000 ≤ k / 64) m)

/-- Fold an operation over a list. -/
def each {α : Type} (l : List α) (f : α → State → State) (s : State) : State := l.foldl (fun t x => f x t) s

/-- An operation under a condition. -/
def when_ (b : Bool) (f : State → State) (s : State) : State := if b then f s else s

/-- FAB_CLK cycles of a number of µs (R27: 1.2 GHz). -/
def us (n : Nat) : Nat := 1200 * n

/-- FAB_CLK cycles of a number of ms. -/
def ms (n : Nat) : Nat := 1200000 * n

/-- The low 32 bits of a word. -/
def low32 (n : Nat) : Nat := n % 2 ^ 32

/-- A FAB_CLK cycle passes (log 1), and LINE_STAMP[47:0] takes at its edge the value that TT_LINE came to in it (R46). A counter
that a write cleared in it is 0 (R36). -/
def tick (s : State) : State := { s with regs := cycleEnd s.regs, now := s.now + 1, tt := { s.tt with stamp := rd TT_LINE.LINE s } }

/-- Take a free value (log 5). -/
def free (s : State) : Nat × State := (Config.free s.freeN, { s with freeN := s.freeN + 1 })

/-- Take `n` free bytes. -/
def freeBytes (n : Nat) (s : State) : List Byte × State := (leBytes n (free s).1, (free s).2)

/-- Something leaves the block: the outbox holds it, newest first (log 7). -/
def emit (o : Out) (s : State) : State := { s with out := o :: s.out }

/-- Whether domain `d` is on (R514, R515). -/
def domOn (d : Nat) (s : State) : Bool := rdB (PM_PWR_STATUS.ON d) s

/-- Whether the fence of domain `d` is open: the domain is on and nothing holds it stopped (R487). -/
def domOpen (d : Nat) (s : State) : Bool := domOn d s && !s.pw.fenced.contains d

/-- The domain that powers the window of an offset (R28, R30); none for the reserved range. -/
def windowDom (a : Nat) : Option Nat :=
  match a / 0x100000 with
  | 0 => some 17 | 1 => some 17 | 2 => some (a / 0x10000 % 16) | 3 => some 16 | 4 => some 18 | 5 => some 19
  | 6 => some 20 | 7 => some 20 | 8 => some 21 | 9 => some 21 | 10 => some 21 | 11 => some 22 | 12 => some 23
  | _ => none

/-- Why a host access is not served (R32). `noTarget`: PD_TT is off and the decoder in PD_AON answers. -/
inductive HostErr where
  | noTarget | notSecure | domainOff | unmapped
  deriving DecidableEq, Repr

/-- The check that the host port makes of an access, in the order of R32; in SCRAP only the SB, OTP and PM windows are served (R378, log 27); `beats` marks a request of REQ_SIZE 1 (R210). -/
def hostCheck (a : Nat) (sec beats : Bool) (s : State) : Option HostErr :=
  if !domOpen 17 s && a / 0x100000 != 11 then some .noTarget
  else if beats || a % 4 != 0 || 0x1000000 ≤ a then some .unmapped
  else if a / 0x80000 == 13 && !sec then some .notSecure
  else if (match windowDom a with | some d => !domOpen d s | none => false) then some .domainOff
  else if (rowOf a).isNone || (rd SB_STATUS.STAGE s == 15 && !List.contains [8, 10, 11] (a / 0x100000)) then some .unmapped
  else none

/-- The counter of GL_HOST_ERRS that counts an error (R35); the decoder in PD_AON counts nothing (R32). -/
def hostErrCounter : HostErr → Option Fld
  | .noTarget => none
  | .notSecure => some GL_HOST_ERRS.NOT_SECURE
  | .domainOff => some GL_HOST_ERRS.DOMAIN_OFF
  | .unmapped => some GL_HOST_ERRS.UNMAPPED

/-- RSP_STATUS of an error response (R204, R210); the decoder in PD_AON answers as for a domain that is off (log 13). -/
def hostErrStatus : HostErr → Nat
  | .noTarget => 1
  | .notSecure => 3
  | .domainOff => 1
  | .unmapped => 2

/-- Read a mailbox channel's hidden state. -/
def chan (k : Fin 6) (s : State) : MbChan := s.mb.chans[k]

/-- Update a mailbox channel's hidden state. -/
def setChan (k : Fin 6) (c : MbChan) (s : State) : State := { s with mb := { s.mb with chans := s.mb.chans.set k c } }

/-- The context with index `n` (its ID less 1). -/
def cx (n : Ctx) (s : State) : CtxSt := s.ctx[n]

/-- Update a context. -/
def setCx (n : Ctx) (c : CtxSt) (s : State) : State := { s with ctx := s.ctx.set n c }

/-- Change a context by a function. -/
def modCx (n : Ctx) (f : CtxSt → CtxSt) (s : State) : State := setCx n (f (cx n s)) s

/-- The ID of a context (R237). -/
def cid (n : Ctx) : Nat := n.val + 1

/-- The state code of a context (R238). -/
def cxState (n : Ctx) (s : State) : Nat := rd (GL_CTX_STATUS.STATE (cid n)) s

/-- Every context index. -/
def allCtx : List Ctx := List.finRange 8

/-- Whether the block is in confidential mode (R384). -/
def confidential (s : State) : Bool := rdB GL_STATUS.CONFIDENTIAL s

/-- The enabled ones among the first `n` ARITH_CLK cycles of a gating pattern (R525). -/
def gated (level n : Nat) : Nat :=
  match level with
  | 0 => n
  | 1 => 3 * (n / 4) + min 3 (n % 4)
  | _ => (n + 3) / 4

/-- Enabled ARITH_CLK cycles so far (R526; ARITH_CLK is 1.5 times FAB_CLK). -/
def arithNow (s : State) : Nat := s.pw.gateAcc + gated (rd PM_THERM_STATUS.LEVEL s) (3 * (s.now - s.pw.gateAt) / 2)

/-- A coach's state beside its registers. -/
def co (c : Coach) (s : State) : CoachSt := s.coach[c]

/-- Update a coach. -/
def setCo (c : Coach) (x : CoachSt) (s : State) : State := { s with coach := s.coach.set c x }

/-- Change a coach by a function. -/
def modCo (c : Coach) (f : CoachSt → CoachSt) (s : State) : State := setCo c (f (co c s)) s

/-- Every coach. -/
def allCoach : List Coach := List.finRange 16

/-- The index of a context ID from 1 to 8. -/
def ctxOf (id : Nat) : Option Ctx := if h : 1 ≤ id ∧ id ≤ 8 then some ⟨id - 1, by omega⟩ else none

/-- The context towards which a switch leads away from a context (R249). -/
def switchMate (o : Ctx) (s : State) : Option Ctx := (cx o s).switchTo.bind (fun k => if h : k < 8 then some ⟨k, h⟩ else none)

/-- The block runs in Tandem configuration: the strap selects it, and the link key is available (R270). -/
def tandemOn (s : State) : Bool := s.pins.tandem && !s.sb.linkKey.isEmpty

/-- BYPASS_HOLD falls (R295). -/
def holdFall (s : State) : State :=
  if s.pins.hold then { s with pins := { s.pins with hold := false, lowAt := some s.now } } else s

/-- No condition of R295 keeps BYPASS_HOLD low. -/
def holdWanted (s : State) : Bool :=
  tandemOn s && domOn 19 s && s.pw.reset.isNone && s.pins.pwrCycN && rdB TL_CFG.JOINED s

/-- BYPASS_HOLD follows its conditions; it rises only after its minimum low time (R295). -/
def holdSettle (s : State) : State :=
  if !holdWanted s then holdFall s
  else if s.pins.hold || s.pins.lowAt.isSome then s
  else { s with pins := { s.pins with hold := true } }

end Sys2Proof.Machine
end

