-- ==== Sys2Proof/Machine/Flags.lean ====
section
/-! DEFINITION. The event sources: their levels, how a rising edge is latched into its bank and recorded by the Lantern, and
the power-up steps that a wake begins (R349 to R352, R359, R514, R523). -/

namespace Sys2Proof.Machine

/-- Sources that never latch (R349). -/
def evReserved (src : Nat) : Bool :=
  src == 7 || (13 ≤ src && src < 16) || src == 70 || src == 71 || src == 78 || src == 79 || src == 103 || (108 ≤ src && src < 112) || 120 ≤ src

/-- The level sources (R349). -/
def levelSources : List Nat :=
  [0, 1, 2, 3, 4, 5, 6, 8, 9, 10, 11, 12] ++ (List.range 16).map (32 + ·) ++ [66, 72, 93, 95, 98]

/-- The domain that produces a source (R349). -/
def srcDom (src : Nat) : Nat :=
  match src / 8 with
  | 0 => 20 | 1 => 20 | 2 => 17 | 3 => 17
  | 4 => src - 32 | 5 => src - 32 | 6 => src - 48 | 7 => src - 48
  | 8 => 18
  | 9 => if src < 74 then 16 else 17
  | 10 => 19 | 11 => 21 | 12 => 22
  | 13 => if src == 105 || src == 107 then 21 else 20
  | _ => 20

/-- The fixed-route sources that the part in PD_SB serves (R349, R555). -/
def sbServed (src : Nat) : Bool := src == 2 || src == 4 || src == 5 || (90 ≤ src && src < 96) || src == 105

/-- The route code of a target (R362). -/
def routeCode : Target → Nat
  | .coachman => 0 | .strongbox => 1 | .host => 2

/-- Whether a source is of the fast class (R351). -/
def srcFast (src : Nat) (s : State) : Bool := rdB (EV_CLASS.FAST (src / 32) (src % 32)) s

/-- The route of a source (R351). -/
def srcRoute (src : Nat) (s : State) : Nat := rd (EV_ROUTE.ROUTE (src / 16) (src % 16)) s

/-- The pending bit of a source in a bank. -/
def pendF (fast : Bool) (src : Nat) : Fld := EV_PEND.PEND fast (src / 32) (src % 32)
/-- The mask bit of a source in a bank. -/
def maskF (fast : Bool) (src : Nat) : Fld := EV_MASK.MASK fast (src / 32) (src % 32)
/-- Firmware unmasks a source in both banks (R555). -/
def unmaskOne (src : Nat) (s : State) : State := wr (maskF true src) 0 (wr (maskF false src) 0 s)

/-- Firmware unmasks, in both banks, the sources that are routed to its processor and that it serves in a domain (R555). -/
def unmask (route : Nat) (inSb : Bool) (s : State) : State :=
  each ((List.range 128).filter (fun src => srcRoute src s == route && sbServed src == inSb && !evReserved src)) unmaskOne s

/-- The pending bit that a source has left with an old target in a bank (R358). -/
def movedOf (fast : Bool) (src : Nat) (s : State) : Option Nat := (s.ev.moved.find? (fun x => x.fast == fast && x.src == src)).map (·.route)
/-- The route that a source's pending bit in a bank follows (R351, R358). -/
def pendRoute (fast : Bool) (src : Nat) (s : State) : Nat := (movedOf fast src s).getD (srcRoute src s)
/-- Whether a source's pending bit lies in a bank: that of its class, or one with which a change of class has left it (R351, R358). -/
def pendHome (fast : Bool) (src : Nat) (s : State) : Bool := srcFast src s == fast || (movedOf fast src s).isSome
/-- The pending bit is taken, discarded or cleared: the next edge follows the present route and class (R358). -/
def dropMoved (fast : Bool) (src : Nat) (s : State) : State :=
  { s with ev := { s.ev with moved := s.ev.moved.filter (fun x => !(x.fast == fast && x.src == src)) } }
/-- The sampled input of a source. -/
def rawF (src : Nat) : Fld := EV_RAW.RAW (src / 32) (src % 32)

/-- A channel's doorbell line towards the K24 side: some doorbell is pending that its mask does not hold back (R312). -/
def h2kLine (k : Nat) (s : State) : Bool :=
  if h : k < 6 then (let p := rd (MB.H2K_DB_PEND.PEND k) s; p &&& (chan ⟨k, h⟩ s).mask != p) else false

/-- A channel's doorbell line towards the host side (R312). -/
def k2hLine (k : Nat) (s : State) : Bool :=
  (List.range 32).any (fun i => bit (rd (MB.K2H_DB_PEND.PEND k) s) i && !bit (rd (MB.K2H_DB_MASK.MASK k) s) i)

/-- The level of a level source (R349): doorbell lines, an episode of a coach or of the Gig engine in progress (log 11), hung
memory ports, the thermal level, a security-class fault that awaits its reset, SUPPLY_LOW. -/
def level (src : Nat) (s : State) : Bool :=
  if src < 6 then h2kLine src s
  else if src == 6 then k2hLine 5 s
  else if src < 16 then k2hLine (src - 8) s
  else if 32 ≤ src && src < 48 then rdB (GL_FLT_STATE.RECOVERING (src - 32)) s
  else if src == 66 then rdB (GL_FLT_STATE.RECOVERING 17) s && s.flt.code[17] == 0x23
  else if src == 72 then rdB (GL_FLT_STATE.RECOVERING 16) s
  else if src == 93 then rd PM_THERM_STATUS.LEVEL s != 0
  else if src == 95 then s.flt.security.isSome
  else if src == 98 then s.pins.supplyLow
  else false

/-- Start the ramp of a domain, or queue it while four domains ramp (R514). -/
def startRamp (d : Nat) (s : State) : State :=
  if s.pw.ramps.any (·.1 == d) || s.pw.queue.contains d then s
  else if s.pw.ramps.length < 4 then { s with pw := { s.pw with ramps := s.pw.ramps ++ [(d, s.now)] } }
  else { s with pw := { s.pw with queue := s.pw.queue ++ [d] } }

/-- Request a domain on, through the reset sequencer: a domain that is being switched off, or is to be once its ramp is over, waits for that
(R514, R515). -/
def powerOn (d : Nat) (s : State) : State :=
  let s := wr (PM_PWR_REQ.REQ d) 1 s
  if domOn d s || s.pw.onAfter.contains d then s
  else if s.pw.falling.any (·.1 == d) || s.pw.offAfter.contains d then { s with pw := { s.pw with onAfter := s.pw.onAfter ++ [d] } }
  else startRamp d s

/-- The boot begins at its step 2: STATE reads WAKING, and PD_SB is powered (R370, R523). -/
def bootBegin (s : State) : State :=
  let s := powerOn 21 (wr GL_STATUS.LIFECYCLE 0 (wr PM_SLEEP.STATE 3 s))
  { s with pw := { s.pw with bootStep := 2, bootAt := s.now, sleepStep := 0, wakeDue := none } }

/-- A wake, unless a thermal trip holds (R523, R527): it begins at once in ASLEEP, at the end of the entry in ENTERING; `cause` is
the code of PM_RST_CAUSE (R530). A boot that a trip's merged reset awaits keeps the recorded cause (R527). -/
def wake (cause : Nat) (s : State) : State :=
  if rdB PM_THERM_STATUS.TRIP s then s
  else if rd PM_SLEEP.STATE s == 1 then
    (match s.pw.wakeDue with | some _ => s | none => { s with pw := { s.pw with wakeDue := some cause } })
  else if rd PM_SLEEP.STATE s == 2 then
    let s := if s.pw.merged then { s with pw := { s.pw with merged := false } } else wr PM_RST_CAUSE.CAUSE cause s
    bootBegin (inc PM_RST_CAUSE.COUNT { s with pw := { s.pw with unlock := false } })
  else s

/-- The Lantern's watch entries for a source (R359). -/
def watchers (src : Nat) (s : State) : List Nat :=
  (List.range 16).filter (fun e => rdB (PM_LAN_SEL.EN (e / 4) (e % 4)) s && rd (PM_LAN_SEL.SRC (e / 4) (e % 4)) s == src)

/-- Record a rising edge of a watched source and request a wake (R359). -/
def lanternRecord (src : Nat) (s : State) : State :=
  let es := watchers src s
  if !(rdB PM_LAN_CTRL.ARM s && s.pw.lantern) || es.isEmpty then s else
  let s := each es (fun e t => wr (PM_LAN_HIT.ENTRIES e) 1 t) s
  let s := if rdB PM_LAN_HIT.FIRST_VALID s then s else wrs [(PM_LAN_HIT.FIRST, src), (PM_LAN_HIT.FIRST_VALID, 1)] s
  wake 7 s

/-- A rising edge of a source: the Lantern records it, and the controller sets the pending bit of its class (R350, R351). -/
def latch (src : Nat) (s : State) : State :=
  if evReserved src then s else
  let s := lanternRecord src s
  if domOn 20 s || (sbServed src && domOn 21 s) then markBit (pendF (srcFast src s) src) s else s

/-- An edge source fires: nothing while its producing domain is off or fenced (R350, R487). -/
def raise (src : Nat) (s : State) : State := if domOpen (srcDom src) s then latch src s else s

/-- The input of a level source as the controller samples it. -/
def sampled (src : Nat) (s : State) : Bool := domOpen (srcDom src) s && level src s

/-- Sample one level source (R350). -/
def settleOne (src : Nat) (s : State) : State :=
  let new := sampled src s
  let old := rdB (rawF src) s
  let s := wrB (rawF src) new s
  if new && !old then latch src s else s

/-- Sample every level source. -/
def settle (s : State) : State := each levelSources settleOne s

/-- Whether a hold-off timer keeps a group quiet in a class (R355). -/
def holdRuns (fast : Bool) (g : Nat) (s : State) : Bool := s.ev.holds.any (fun h => h.fast == fast && h.group == g)

/-- Whether a source drives a target's line of a class (R352). -/
def drives (tgt : Target) (fast : Bool) (src : Nat) (s : State) : Bool :=
  rdB (pendF fast src) s && !rdB (maskF fast src) s && pendRoute fast src s == routeCode tgt && !holdRuns fast (src / 8) s &&
  (domOpen 20 s || sbServed src)

/-- A target's line of a class (R352). -/
def evLine (tgt : Target) (fast : Bool) (s : State) : Bool := (List.range 128).any (fun src => drives tgt fast src s)

/-- Before a change of a source's route or class, a pending bit of it is bound to its old target and bank (R358). -/
def bindPend (src : Nat) (s : State) : State :=
  each [false, true] (fun fast t =>
    if rdB (pendF fast src) t && (movedOf fast src t).isNone then { t with ev := { t.ev with moved := t.ev.moved ++ [⟨fast, src, srcRoute src t⟩] } } else t) s

/-- The sources for which confidential mode refuses a host route (R351). -/
def confSource (src : Nat) : Bool := (32 ≤ src && src < 64) || src == 72

/-- Set a source's route (R351, R555): a fixed one does not change, in confidential mode a refused host route reads as the Coachman's, and a source
that comes to a processor is unmasked together with the change. -/
def routeTo (src r : Nat) (s : State) : State :=
  let r := if r == 2 && confSource src && confidential s then 0 else r
  if sbServed src || srcRoute src s == r then s else
  let s := wr (EV_ROUTE.ROUTE (src / 16) (src % 16)) r (bindPend src s)
  if r < 2 && !evReserved src then unmaskOne src s else s

/-- Set a source's class (R351). -/
def classTo (src : Nat) (fast : Bool) (s : State) : State :=
  if srcFast src s == fast then s else wrB (EV_CLASS.FAST (src / 32) (src % 32)) fast (bindPend src s)

/-- Whether a source is active for a target in a bank (R353). -/
def isActive (fast : Bool) (src : Nat) (tgt : Target) (s : State) : Bool := s.ev.active.contains ⟨fast, src, tgt⟩

end Sys2Proof.Machine
end

