-- ==== Sys2Proof/Machine/Sha2.lean ====
section
/-! DEFINITION. The digest engine's functions (R425): SHA-256, SHA-384, SHA-512 of FIPS 180-4, HMAC of FIPS 198-1, and
HKDF of RFC 5869 over SHA-384 (R399), which the spec names; and the two CRCs (R275, R445). PRESUMED (log 6): the standards' own text. -/

namespace Sys2Proof

/-- The `n` words of `w` bits a constant of the standard packs, the first highest. -/
def cutWords (n packed : Nat) (w : Nat := 64) : List Nat := (List.range n).reverse.map (fun i => bits packed (w * i) w)

/-- The fractional parts of the cube roots of the first 80 primes, 64 bits each: the round constants (FIPS 180-4). -/
def cubeRoots : List Nat :=
  cutWords 8 0x428a2f98d728ae227137449123ef65cdb5c0fbcfec4d3b2fe9b5dba58189dbbc3956c25bf348b53859f111f1b605d019923f82a4af194f9bab1c5ed5da6d8118 ++
  cutWords 8 0xd807aa98a303024212835b0145706fbe243185be4ee4b28c550c7dc3d5ffb4e272be5d74f27b896f80deb1fe3b1696b19bdc06a725c71235c19bf174cf692694 ++
  cutWords 8 0xe49b69c19ef14ad2efbe4786384f25e30fc19dc68b8cd5b5240ca1cc77ac9c652de92c6f592b02754a7484aa6ea6e4835cb0a9dcbd41fbd476f988da831153b5 ++
  cutWords 8 0x983e5152ee66dfaba831c66d2db43210b00327c898fb213fbf597fc7beef0ee4c6e00bf33da88fc2d5a79147930aa72506ca6351e003826f142929670a0e6e70 ++
  cutWords 8 0x27b70a8546d22ffc2e1b21385c26c9264d2c6dfc5ac42aed53380d139d95b3df650a73548baf63de766a0abb3c77b2a881c2c92e47edaee692722c851482353b ++
  cutWords 8 0xa2bfe8a14cf10364a81a664bbc423001c24b8b70d0f89791c76c51a30654be30d192e819d6ef5218d69906245565a910f40e35855771202a106aa07032bbd1b8 ++
  cutWords 8 0x19a4c116b8d2d0c81e376c085141ab532748774cdf8eeb9934b0bcb5e19b48a8391c0cb3c5c95a634ed8aa4ae3418acb5b9cca4f7763e373682e6ff3d6b2b8a3 ++
  cutWords 8 0x748f82ee5defb2fc78a5636f43172f6084c87814a1f0ab728cc702081a6439ec90befffa23631e28a4506cebde82bde9bef9a3f7b2c67915c67178f2e372532b ++
  cutWords 8 0xca273eceea26619cd186b8c721c0c207eada7dd6cde0eb1ef57d4f7fee6ed17806f067aa72176fba0a637dc5a2c898a6113f9804bef90dae1b710b35131c471b ++
  cutWords 8 0x28db77f523047d8432caab7b40c724933c9ebe0a15c9bebc431d67c49c100d4c4cc5d4becb3e42b6597f299cfc657e2a5fcb6fab3ad6faec6c44198c4a475817

/-- The fractional parts of the square roots of the first eight primes: where SHA-512 starts, and SHA-256 with their upper halves. -/
def rootsLow : List Nat := cutWords 8 0x6a09e667f3bcc908bb67ae8584caa73b3c6ef372fe94f82ba54ff53a5f1d36f1510e527fade682d19b05688c2b3e6c1f1f83d9abfb41bd6b5be0cd19137e2179
/-- The fractional parts of the square roots of the ninth to sixteenth primes: where SHA-384 starts. -/
def rootsHigh : List Nat := cutWords 8 0xcbbb9d5dc1059ed8629a292a367cd5079159015a3070dd17152fecd8f70e593967332667ffc00b318eb44a8768581511db0c2e0d64f98fa747b5481dbefa4fa4

/-- What one word width of the standard fixes: its rounds' constants, and the turns of Σ0, Σ1, σ0, σ1; a σ's last amount is a shift. -/
structure ShaKind (w : Nat) where
  consts : List (BitVec w)
  sum0 : List Nat
  sum1 : List Nat
  mix0 : List Nat × Nat
  mix1 : List Nat × Nat
  deriving DecidableEq, Repr

/-- The 32-bit words: the upper half of each of the first 64 constants. -/
def sha32 : ShaKind 32 := ⟨(cubeRoots.take 64).map (fun x => BitVec.ofNat 32 (x / 2 ^ 32)), [2, 13, 22], [6, 11, 25], ([7, 18], 3), ([17, 19], 10)⟩
/-- The 64-bit words, which SHA-384 and SHA-512 share. -/
def sha64 : ShaKind 64 := ⟨cubeRoots.map (BitVec.ofNat 64), [28, 34, 39], [14, 18, 41], ([1, 8], 7), ([19, 61], 6)⟩

/-- The exclusive or of a word turned right by each amount. -/
def turned {w : Nat} (x : BitVec w) : List Nat → BitVec w
  | [] => 0
  | r :: rs => x.rotateRight r ^^^ turned x rs

/-- A σ function: the turned word, and the word shifted. -/
def mixed {w : Nat} (m : List Nat × Nat) (x : BitVec w) : BitVec w := (x >>> m.2) ^^^ turned x m.1

/-- The word the schedule puts before those it has, the newest first. -/
def nextWord {w : Nat} (kd : ShaKind w) (sched : List (BitVec w)) : BitVec w :=
  match sched.drop 14 with
  | y :: z :: _ => z + mixed kd.mix0 y + sched.getD 6 0 + mixed kd.mix1 (sched.getD 1 0)
  | _ => 0

/-- The working variables: a to d, and e to h, the newest first. -/
structure ShaVars (w : Nat) where
  front : List (BitVec w)
  back : List (BitVec w)
  deriving DecidableEq, Repr

/-- One round with its constant and its word of the schedule. Of each bit, Ch picks g or f by e; Maj is what two of a, b, c share. -/
def shaRound {w : Nat} (kd : ShaKind w) (word : BitVec w) (v : ShaVars w) : ShaVars w :=
  match v.front, v.back with
  | [a, b, c, d], [e, f, g, h] =>
    let pick := g ^^^ (e &&& (f ^^^ g))
    let shared := ((a ||| b) &&& c) ||| (a &&& b)
    let t := word + h + pick + turned e kd.sum1
    ⟨[t + shared + turned a kd.sum0, a, b, c], [d + t, e, f, g]⟩
  | _, _ => v

/-- The rounds of a block, one per constant; each takes the sixteenth newest word and extends the schedule by one. -/
def shaRounds {w : Nat} (kd : ShaKind w) : List (BitVec w) → List (BitVec w) → ShaVars w → ShaVars w
  | [], _, v => v
  | c :: cs, sched, v => shaRounds kd cs (nextWord kd sched :: sched) (shaRound kd (c + sched.getD 15 0) v)

/-- A block's sixteen words, the last first, taken into the chaining value. -/
def shaBlock {w : Nat} (kd : ShaKind w) (h block : List (BitVec w)) : List (BitVec w) :=
  let v := shaRounds kd kd.consts block ⟨h.take 4, h.drop 4⟩
  (h.zip (v.front ++ v.back)).map (fun p => p.1 + p.2)

/-- The whole blocks of a byte list taken in one after the other; `fuel` bounds them. -/
def shaTake {w : Nat} (kd : ShaKind w) : Nat → List Byte → List (BitVec w) → List (BitVec w)
  | 0, _, h => h
  | fuel + 1, bs, h =>
    let block := (cutWords 16 (beNat (bs.take (2 * w))) w).reverse.map (BitVec.ofNat w)
    if bs.length < 2 * w then h else shaTake kd fuel (bs.drop (2 * w)) (shaBlock kd h block)

/-- What the standard puts behind a message of `len` bytes in blocks of `blk`: a one bit, zeros, and its length in bits in the block's last eighth. -/
def shaTail (blk len : Nat) : List Byte :=
  let field := blk / 8
  let zeros := (blk - (len + 1 + field) % blk) % blk
  0x80 :: (List.replicate zeros 0 ++ beBytes field (8 * len))

/-- A SHA-2 digest of `m` from the starting words `h0`. -/
def shaRun {w : Nat} (kd : ShaKind w) (h0 : List Nat) (m : List Byte) : List Byte :=
  let p := m ++ shaTail (2 * w) m.length
  (shaTake kd p.length p (h0.map (BitVec.ofNat w))).flatMap (fun x => beBytes (w / 8) x.toNat)

/-- SHA-256 (R425). -/
def sha256 (m : List Byte) : List Byte := shaRun sha32 (rootsLow.map (· / 2 ^ 32)) m
/-- SHA-384 (R425). -/
def sha384 (m : List Byte) : List Byte := (shaRun sha64 rootsHigh m).take 48
/-- SHA-512 (R425). -/
def sha512 (m : List Byte) : List Byte := shaRun sha64 rootsLow m

/-- The algorithm codes of DG_CFG.ALG (R438). -/
def digestAlg (alg : Nat) (m : List Byte) : List Byte :=
  if alg = 0 then sha256 m else if alg = 1 then sha384 m else sha512 m

/-- The block size of an algorithm in bytes (R432). -/
def digestBlock (alg : Nat) : Nat := if alg = 0 then 64 else 128

/-- HMAC under FIPS 198-1 with a key no longer than a block (R432). -/
def hmacAlg (alg : Nat) (key m : List Byte) : List Byte :=
  let keyed (c : Byte) := (List.range (digestBlock alg)).map (fun i => key.getD i 0 ^^^ c)
  digestAlg alg (keyed 0x5C ++ digestAlg alg (keyed 0x36 ++ m))

/-- HMAC-SHA-384. -/
def hmac384 (key m : List Byte) : List Byte := hmacAlg 1 key m
/-- HMAC-SHA-256. -/
def hmac256 (key m : List Byte) : List Byte := hmacAlg 0 key m

/-- HKDF-Extract over SHA-384 (R399). -/
def hkdfExtract (salt ikm : List Byte) : List Byte := hmac384 salt ikm

/-- HKDF-Expand over SHA-384 to `n` bytes: each block T(i) is taken over the one before it (R399). -/
def hkdfExpand (prk info : List Byte) (n : Nat) : List Byte :=
  let block (last : List Byte) (i : Nat) := hmac384 prk (last ++ info ++ [BitVec.ofNat 8 (i + 1)])
  let made := (List.range (ceilDiv n 48)).foldl (fun (p : List Byte × List Byte) i => (p.1 ++ block p.2 i, block p.2 i)) ([], [])
  made.1.take n

/-- One bit of a reflected CRC-32. -/
def crc32Bit : Nat → BitVec 32 → BitVec 32
  | 0, c => c
  | n + 1, c => crc32Bit n (if c.getLsbD 0 then (c >>> 1) ^^^ 0xEDB88320 else c >>> 1)

/-- CRC-32 of IEEE 802.3 (R275, R447). -/
def crc32 (m : List Byte) : BitVec 32 :=
  (m.foldl (fun c b => crc32Bit 8 (c ^^^ b.setWidth 32)) 0xFFFFFFFF) ^^^ 0xFFFFFFFF

/-- One bit of the CRC-8 with polynomial x^8 + x^2 + x + 1 (R445). -/
def crc8Bit : Nat → BitVec 8 → BitVec 8
  | 0, c => c
  | n + 1, c => crc8Bit n (if c.getMsbD 0 then (c <<< 1) ^^^ 0x07 else c <<< 1)

/-- The check byte of an OTP data word (R445). -/
def crc8 (m : List Byte) : BitVec 8 := m.foldl (fun c b => crc8Bit 8 (c ^^^ b)) 0

end Sys2Proof
end

