-- ==== Sys2Proof/Machine/DigestOps.lean ====
section
/-! DEFINITION. The digest engine: views, ownership, suspension and messages (R425 to R435). -/

namespace Sys2Proof.Machine

/-- The view of a user (R426): 0 host, 1 Coachman, 2 Strongbox. -/
def dgViewOf : Target → Fin 3
  | .host => 0 | .coachman => 1 | .strongbox => 2
/-- The owner's code: 0 none, else the view plus 1 (R437). -/
def dgOwner (s : State) : Nat := rd (DG_OWN.OWNER 0) s
/-- Whether a view's user owns the engine. -/
def dgOwns (v : Fin 3) (s : State) : Bool := dgOwner s == v.val + 1
/-- A view's message. -/
def dgMsg (v : Fin 3) (s : State) : DgMsg := s.dg.msgs[v]
/-- Change a view's message. -/
def modDg (v : Fin 3) (f : DgMsg → DgMsg) (s : State) : State := { s with dg := { s.dg with msgs := s.dg.msgs.set v (f (dgMsg v s)) } }

/-- Holder of a rein: 0 none, 1 Coachman, 2 Strongbox (R385, R393). -/
def reinHolder (j : Nat) (s : State) : Nat := rd (SB_REINS.HOLDERS j) s
/-- A rein gets a holder, or none (R386); a heartbeat that waits for its answer then compares nothing (R388). -/
def reinSet (j v : Nat) (s : State) : State :=
  let void := s.sb.hbVoid || (s.sb.hbSent.isSome && reinHolder j s != v)
  wr (SB_REINS.HOLDERS j) v { s with sb := { s.sb with hbVoid := void } }

/-- Every view shows the owner, and rein DIGEST follows it (R427). -/
def dgSetOwner (o : Nat) (s : State) : State :=
  reinSet 6 (o - 1) (each (List.range 3) (fun v => wr (DG_OWN.OWNER v) o) s)
/-- A refused write is counted, in every view of DG_REFUSED (R426). -/
def dgRefuseWrite (s : State) : State := each (List.range 3) (fun v => inc (DG_REFUSED.WRITES v)) s
/-- The engine notes a write that keeps its owner from losing it (R428). -/
def dgTouch (s : State) : State := { s with dg := { s.dg with lastWrite := s.now } }

/-- The registers that a release clears (R427): configuration, state and result. -/
def dgClearRegs (v : Fin 3) (s : State) : State :=
  let s := wrs [(DG_CFG.ALG v, 1), (DG_CFG.HMAC v, 0), (DG_CFG.KEY_SRC v, 0), (DG_CFG.KEY_LEN v, 0), (DG_LAST_CNT.COUNT v, 4), (DG_SRC.ADDR v, 0),
    (DG_SRC_LEN.BYTES v, 0), (DG_MEM_CFG.FINAL v, 0), (DG_MEM_CFG.SEL v, 0), (DG_STATUS.ACTIVE v, 0), (DG_STATUS.DONE v, 0), (DG_STATUS.MEM_RUN v, 0)] s
  each (List.range 16) (fun w => wr (DG_RESULT.RESULT v w) 0) s

/-- The message ends with no result (R430, R435); of its chunk no further read is issued. -/
def dgEnd (v : Fin 3) (s : State) : State :=
  wrs [(DG_STATUS.ACTIVE v, 0), (DG_STATUS.MEM_RUN v, 0)] (modDg v (fun m => { m with bytes := [], ended := false, chunk := none })
    { s with mp := { s.mp with own := s.mp.own.filter (fun o => decide (o.dest ≠ .chunk v)) } })

/-- A release (R427, R429): everything of the view is cleared, and a suspended owner gets its message back. -/
def dgRelease (v : Fin 3) (s : State) : State :=
  let s := modDg v (fun _ => DgMsg.init) (dgClearRegs v (dgEnd v s))
  match s.dg.suspended with
  | some w => wr (DG_STATUS.SUSPENDED w) 0 (dgSetOwner (w + 1) { s with dg := { s.dg with suspended := none, lastWrite := s.now - s.dg.idle, grantAt := none } })
  | none => dgSetOwner 0 { s with dg := { s.dg with grantAt := none } }

/-- The current owner is suspended for the Strongbox (R429). -/
def dgSuspend (s : State) : State :=
  let w := dgOwner s - 1
  let s := each (List.range 3) (fun v => inc (DG_REFUSED.SUSPENDS v)) (wr (DG_STATUS.SUSPENDED w) 1 s)
  raise 89 { s with dg := { s.dg with suspended := some w, idle := s.now - s.dg.lastWrite } }

/-- A grant. -/
def dgGrant (v : Fin 3) (s : State) : State :=
  dgTouch (dgSetOwner (v.val + 1) (wrs [(DG_OWN.GRANTED v, 1), (DG_OWN.BUSY v, 0)] s))

/-- A claim that is refused (R427). -/
def dgRefuseClaim (v : Fin 3) (s : State) : State :=
  each (List.range 3) (fun w => inc (DG_REFUSED.CLAIMS w)) (wrs [(DG_OWN.GRANTED v, 0), (DG_OWN.BUSY v, 1)] s)

/-- The owner was granted the free engine in this very cycle, in which a user that goes before it claims as well (R427). -/
def dgOutranked (v : Fin 3) (s : State) : Bool := s.dg.grantAt == some s.now && dgOwner s < v.val + 1

/-- The engine is granted to the user that goes first, and the claim of the other, with what it has written since, is refused (R427). -/
def dgDisplace (v : Fin 3) (s : State) : State :=
  let old : Fin 3 := if dgOwner s == 2 then 1 else 0
  dgGrant v (dgRefuseClaim old (modDg old (fun _ => DgMsg.init) (dgClearRegs old (dgEnd old s))))

/-- A claim (R427, R429); the owner's own claim is granted and changes nothing else. Of claims that reach the free engine in one cycle the Strongbox's is
granted before the Coachman's, and that before the host's. -/
def dgClaim (v : Fin 3) (s : State) : State :=
  if dgOwner s == 0 then { dgGrant v s with dg := { (dgGrant v s).dg with grantAt := some s.now } }
  else if dgOwns v s then wrs [(DG_OWN.GRANTED v, 1), (DG_OWN.BUSY v, 0)] s
  else if dgOutranked v s then dgDisplace v s
  else if v.val == 2 then dgGrant v (dgSuspend s)
  else dgRefuseClaim v s

/-- The Strongbox uses the engine for a moment: another owner is suspended and gets it back (R418, R429). -/
def dgBorrow (s : State) : State :=
  if dgOwner s == 0 || dgOwns 2 s then s
  else
    let w := dgOwner s - 1
    wr (DG_STATUS.SUSPENDED w) 0 { dgSuspend s with dg := s.dg }

/-- The Coachman enters RESET or DEAD (R428): its ownership ends, and its suspended message is discarded. -/
def dgCoachmanDown (s : State) : State :=
  if dgOwns 1 s then markBit (DG_STATUS.EXPIRED 1) (dgRelease 1 s)
  else if s.dg.suspended == some 1 then
    wr (DG_STATUS.SUSPENDED 1) 0 (modDg 1 (fun _ => DgMsg.init) (dgClearRegs 1 { s with dg := { s.dg with suspended := none } }))
  else s

/-- A write of an input register from a view: ignored and counted when its user does not own the engine; from a suspended owner it
sets LOST besides (R426, R429). -/
def dgWrite (v : Fin 3) (input : Bool) (f : State → State) (s : State) : State :=
  if dgOwns v s then dgTouch (f s)
  else dgRefuseWrite (if input && s.dg.suspended == some v.val then markBit (DG_STATUS.LOST v) s else s)

/-- The result is cleared. -/
def dgNoResult (v : Fin 3) (s : State) : State := each (List.range 16) (fun w => wr (DG_RESULT.RESULT v w) 0) (wr (DG_STATUS.DONE v) 0 s)

/-- START (R430, R432, R435). -/
def dgStart (v : Fin 3) (s : State) : State :=
  let s := dgNoResult v (dgEnd v s)
  let s := clr [DG_STATUS.BAD_COUNT v, DG_STATUS.EARLY_READ v, DG_STATUS.MEM_ERR v, DG_STATUS.BAD_SRC v, DG_STATUS.BAD_KEY v, DG_STATUS.LOST v, DG_STATUS.EXPIRED v] s
  let alg := rd (DG_CFG.ALG v) s
  if alg == 3 || (rdB (DG_CFG.HMAC v) s && digestBlock alg < rd (DG_CFG.KEY_LEN v) s) then markBit (DG_STATUS.BAD_KEY v) s
  else wr (DG_STATUS.ACTIVE v) 1 s

/-- The message takes input: it is active, has not ended, and no chunk runs (R431, R435). -/
def dgTakes (v : Fin 3) (s : State) : Bool := rdB (DG_STATUS.ACTIVE v) s && !(dgMsg v s).ended && (dgMsg v s).chunk.isNone

/-- A word of message bytes (R430). -/
def dgData (v : Fin 3) (w : Nat) (s : State) : State :=
  if dgTakes v s then modDg v (fun m => { m with bytes := m.bytes ++ leBytes 4 w }) s else dgRefuseWrite s

/-- The last word (R430). -/
def dgLast (v : Fin 3) (w : Nat) (s : State) : State :=
  if !dgTakes v s then dgRefuseWrite s
  else
    let c := rd (DG_LAST_CNT.COUNT v) s
    if 4 < c then markBit (DG_STATUS.BAD_COUNT v) (dgEnd v s)
    else modDg v (fun m => { m with bytes := m.bytes ++ (leBytes 4 w).take c, ended := true }) s

/-- Whether a source is legal, and holds the chunk (R431). -/
def dgSrcOk (v : Fin 3) (s : State) : Bool :=
  let stop := rd (DG_SRC.ADDR v) s + rd (DG_SRC_LEN.BYTES v) s
  match rd (DG_MEM_CFG.SEL v) s with
  | 0 => true
  | 1 => v.val == 1 && stop ≤ 0x100000
  | 2 => v.val == 2 && stop ≤ 0x80000
  | _ => false

/-- MEM_GO (R431). -/
def dgMemGo (v : Fin 3) (s : State) : State :=
  if !dgTakes v s then dgRefuseWrite s
  else if !dgSrcOk v s then markBit (DG_STATUS.BAD_SRC v) (dgEnd v s)
  else
    wr (DG_STATUS.MEM_RUN v) 1 (modDg v (fun m => { m with
      memErr := false, chunk := some (rd (DG_SRC.ADDR v) s, rd (DG_SRC_LEN.BYTES v) s, rd (DG_MEM_CFG.SEL v) s, rdB (DG_MEM_CFG.FINAL v) s) }) s)

/-- A write of a key register (R432). -/
def dgKeyWrite (v : Fin 3) (w data : Nat) (s : State) : State :=
  modDg v (fun m => { m with key := slice m.key 0 (4 * w) ++ leBytes 4 data ++ slice m.key (4 * w + 4) (124 - 4 * w) }) s

end Sys2Proof.Machine
end

