-- ==== Sys2Proof/Machine/Fp.lean ====
section
/-! DEFINITION. The number formats of the array and of the post unit, exact sums and products, and rounding to nearest even
(R100 to R105, R111). A finite value is an exact dyadic number. -/

namespace Sys2Proof

/-- A floating value: NaN, an infinity, or a finite number `m * 2 ^ e`; `neg` is the sign of a zero. -/
inductive FVal where
  | nan
  | inf (neg : Bool)
  | fin (neg : Bool) (m : Int) (e : Int)
  deriving DecidableEq, Repr

/-- A floating format: exponent bits, mantissa bits, bias, and whether it has infinities (E4M3 has none, R101). -/
structure FFmt where
  ebits : Nat
  mbits : Nat
  bias : Nat
  infs : Bool
  deriving DecidableEq, Repr

/-- E4M3 (R101). -/
def fE4M3 : FFmt := ⟨4, 3, 7, false⟩
/-- E5M2 (R102). -/
def fE5M2 : FFmt := ⟨5, 2, 15, true⟩
/-- BF16 (R103). -/
def fBF16 : FFmt := ⟨8, 7, 127, true⟩
/-- FP32 (R103). -/
def fFP32 : FFmt := ⟨8, 23, 127, true⟩

/-- Width of a format's code in bits. -/
def FFmt.width (f : FFmt) : Nat := 1 + f.ebits + f.mbits

/-- The finite value with sign and magnitude. -/
def finv (neg : Bool) (m : Nat) (e : Int) : FVal := .fin neg (if neg then -(m : Int) else m) e

/-- The value of a code (R101 to R103). Subnormals are not flushed (R103). -/
def decodeF (f : FFmt) (c : Nat) : FVal :=
  let neg := bit c (f.ebits + f.mbits)
  let e := bits c f.mbits f.ebits
  let m := bits c 0 f.mbits
  let top := 2 ^ f.ebits - 1
  if f.infs && e == top then (if m == 0 then .inf neg else .nan)
  else if !f.infs && e == top && m == 2 ^ f.mbits - 1 then .nan
  else if e == 0 then finv neg m (1 - (f.bias : Int) - f.mbits)
  else finv neg (2 ^ f.mbits + m) ((e : Int) - f.bias - f.mbits)

/-- The canonical NaN of a format (R105, R111). -/
def nanCode (f : FFmt) : Nat :=
  if !f.infs then 0x7F else if f.mbits == 2 then 0x7E else (2 ^ f.ebits - 1) * 2 ^ f.mbits + 2 ^ (f.mbits - 1)

/-- A magnitude `m * 2 ^ -s` to the nearest integer, ties to even. -/
def rneShift (m s : Nat) : Nat :=
  let q := m / 2 ^ s
  let r := m % 2 ^ s
  if 2 * r > 2 ^ s || (2 * r == 2 ^ s && q % 2 == 1) then q + 1 else q

/-- A magnitude `m * 2 ^ e` rounded to nearest even with the mantissa of a format and an exponent unbounded above: the
mantissa and the exponent of its last place (R105, R111). -/
def roundMag (f : FFmt) (m : Nat) (e : Int) : Nat × Int :=
  let q : Int := max (e + (Nat.log2 m : Int) - f.mbits) (1 - (f.bias : Int) - f.mbits)
  if q ≤ e then (m * 2 ^ (e - q).toNat, q) else (rneShift m (q - e).toNat, q)

/-- The biggest finite magnitude of a format in units of its greatest last place, and that place. -/
def maxMag (f : FFmt) : Nat × Int :=
  if f.infs then (2 ^ (f.mbits + 1) - 1, ((2 ^ f.ebits - 2 : Nat) : Int) - (f.bias : Int) - f.mbits)
  else (2 ^ (f.mbits + 1) - 2, ((2 ^ f.ebits - 1 : Nat) : Int) - (f.bias : Int) - f.mbits)

/-- Whether a rounded magnitude exceeds the biggest finite one. -/
def overMag (f : FFmt) (r : Nat × Int) : Bool :=
  let x := maxMag f
  if r.2 ≤ x.2 then decide (x.1 * 2 ^ Int.toNat (x.2 - r.2) < r.1) else decide (x.1 < r.1 * 2 ^ Int.toNat (r.2 - x.2))

/-- The code of a rounded magnitude that is in range. -/
def packMag (f : FFmt) (neg : Bool) (r : Nat × Int) : Nat :=
  let s := b2n neg * 2 ^ (f.ebits + f.mbits)
  if r.1 < 2 ^ f.mbits then s + r.1
  else
    let up := if 2 ^ (f.mbits + 1) ≤ r.1 then 1 else 0
    let m := r.1 / 2 ^ up
    s + Int.toNat (r.2 + (up : Nat) + f.bias + f.mbits) * 2 ^ f.mbits + (m - 2 ^ f.mbits)

/-- Convert a value to a format (R105, R111): its code, whether it overflowed. `sat` is the SAT field of the FP8 types. -/
def encodeF (f : FFmt) (sat : Bool) (v : FVal) : Nat × Bool :=
  let s (neg : Bool) : Nat := b2n neg * 2 ^ (f.ebits + f.mbits)
  let maxc : Nat := if f.infs then (2 ^ f.ebits - 1) * 2 ^ f.mbits - 1 else 2 ^ (f.ebits + f.mbits) - 2
  let big (neg : Bool) : Nat :=
    if f.ebits + f.mbits == 7 && sat then s neg + maxc
    else if f.infs then s neg + (2 ^ f.ebits - 1) * 2 ^ f.mbits else nanCode f
  match v with
  | .nan => (nanCode f, false)
  | .inf neg => (big neg, f.ebits + f.mbits == 7 && (sat || !f.infs))
  | .fin neg m e =>
    if m == 0 then (s neg, false) else
    let r := roundMag f m.natAbs e
    if overMag f r then (big neg, true) else (packMag f neg r, false)

/-- A value rounded to FP32, with the rules of R105. -/
def rn32 (v : FVal) : FVal := decodeF fFP32 (encodeF fFP32 false v).1

/-- The exact product of two finite values, and the special products of R105. -/
def fmul (a b : FVal) : FVal :=
  match a, b with
  | .nan, _ => .nan
  | _, .nan => .nan
  | .inf s, .inf t => .inf (s != t)
  | .inf s, .fin t m _ => if m == 0 then .nan else .inf (s != t)
  | .fin s m _, .inf t => if m == 0 then .nan else .inf (s != t)
  | .fin s m e, .fin t n g => .fin (s != t) (m * n) (e + g)

/-- The exact sum of two finite dyadic numbers. -/
def dyAdd (a b : Int × Int) : Int × Int :=
  let e := min a.2 b.2
  (a.1 * (2 ^ (a.2 - e).toNat : Nat) + b.1 * (2 ^ (b.2 - e).toNat : Nat), e)

/-- The finite part of a value. -/
def finPart : FVal → Int × Int
  | .fin _ m e => (m, e)
  | _ => (0, 0)

/-- The exact sum of a list of terms, with the additions of R105; an exact zero is +0.0. -/
def fsum (ts : List FVal) : FVal :=
  if ts.any (fun t => decide (t = .nan)) then .nan
  else if ts.any (fun t => decide (t = .inf true)) && ts.any (fun t => decide (t = .inf false)) then .nan
  else if ts.any (fun t => decide (t = .inf true)) then .inf true
  else if ts.any (fun t => decide (t = .inf false)) then .inf false
  else let s := ts.foldl (fun a t => dyAdd a (finPart t)) (0, 0); .fin (decide (s.1 < 0)) s.1 s.2

/-- The negation of a value. -/
def fneg : FVal → FVal
  | .nan => .nan
  | .inf s => .inf (!s)
  | .fin s m e => .fin (!s) (-m) e

/-- Whether a value is less than another; zeros of both signs are equal; NaN is not less than anything. -/
def fLt (a b : FVal) : Bool :=
  match a, b with
  | .nan, _ => false
  | _, .nan => false
  | .inf s, .inf t => s && !t
  | .inf s, .fin _ _ _ => s
  | .fin _ _ _, .inf t => !t
  | .fin _ m e, .fin _ n g => let d := dyAdd (m, e) (-n, g); decide (d.1 < 0)

/-- Whether a value is negative zero. -/
def isNegZero : FVal → Bool
  | .fin s m _ => s && m == 0
  | _ => false

/-- The order of MIN and MAX, in which -0.0 lies below +0.0 (R112). -/
def fBelow (a b : FVal) : Bool := fLt a b || (isNegZero a && !isNegZero b && !fLt b a)

/-- MIN of two values (R112). -/
def fmin (a b : FVal) : FVal :=
  if a = .nan then .nan else if b = .nan then .nan else if fBelow b a then b else a
/-- MAX of two values (R112). -/
def fmax (a b : FVal) : FVal :=
  if a = .nan then .nan else if b = .nan then .nan else if fBelow a b then b else a
/-- The magnitude of a value. -/
def fabs : FVal → FVal
  | .nan => .nan
  | .inf _ => .inf false
  | .fin _ m e => .fin false m.natAbs e

/-- An integer as a value. -/
def fofInt (x : Int) : FVal := .fin (decide (x < 0)) x 0

/-- A value rounded to an integer, ties to even. -/
def roundInt (m e : Int) : Int :=
  if 0 ≤ e then m * (2 ^ e.toNat : Nat)
  else let r : Nat := rneShift m.natAbs (-e).toNat; if m < 0 then -(r : Int) else r

/-- sat32 (R104), and whether it limited. -/
def sat32 (x : Int) : Int × Bool :=
  if x < -2147483648 then (-2147483648, true) else if 2147483647 < x then (2147483647, true) else (x, false)

/-- The tie rule and shift of R108. -/
def rshiftRound (v : Int) (sh : Nat) (even : Bool) : Int :=
  if sh == 0 then v
  else
    let q := v / (2 ^ sh : Nat)
    let r := v % (2 ^ sh : Nat)
    let h : Int := (2 ^ (sh - 1) : Nat)
    if r > h then q + 1 else if r == h then (if even then (if q % 2 == 0 then q else q + 1) else q + 1) else q

/-- The types of tensor elements (R177): 0 INT8, 1 UINT8, 2 INT16, 3 INT32, 4 E4M3, 5 E5M2, 6 BF16, 7 FP32. -/
def tyBytes (t : Nat) : Nat := match t with | 2 => 2 | 6 => 2 | 3 => 4 | 7 => 4 | _ => 1

/-- Whether a type is an integer type. -/
def tyInt (t : Nat) : Bool := t < 4

/-- The format of a floating type. -/
def tyFmt (t : Nat) : FFmt := match t with | 4 => fE4M3 | 5 => fE5M2 | 6 => fBF16 | _ => fFP32

/-- The least and greatest value of an integer type. -/
def tyRange (t : Nat) : Int × Int :=
  match t with
  | 0 => (-128, 127) | 1 => (0, 255) | 2 => (-32768, 32767) | _ => (-2147483648, 2147483647)

/-- The integer that a code of an integer type stands for. -/
def tyVal (t c : Nat) : Int := if t == 1 then (c % 256 : Nat) else signed (8 * tyBytes t) c

/-- The code of an integer of an integer type. -/
def tyCode (t : Nat) (v : Int) : Nat := unsigned (8 * tyBytes t) v

/-- The events that a conversion counts: output saturations and overflows, and NaNs. -/
structure NumEv where
  sat : Nat
  nan : Nat
  deriving DecidableEq, Repr

/-- Two counts together. -/
def NumEv.add (a b : NumEv) : NumEv := ⟨a.sat + b.sat, a.nan + b.nan⟩

/-- Conversion of an FP32 value to an output type (R111). An infinity under SAT = 0 counts in OUT_SAT where the format has no infinity (E4M3, which makes it
0x7F) and not where it is kept (E5M2): the rule does not say which of the two is an overflow (DESIGN CHOICE, log 36). -/
def convertOut (t : Nat) (sat : Bool) (v : FVal) : Nat × NumEv :=
  if tyInt t then
    let r := tyRange t
    match v with
    | .nan => (0, ⟨0, 1⟩)
    | .inf neg => (tyCode t (if neg then r.1 else r.2), ⟨1, 0⟩)
    | .fin _ m e =>
      let x := roundInt m e
      if x < r.1 then (tyCode t r.1, ⟨1, 0⟩) else if r.2 < x then (tyCode t r.2, ⟨1, 0⟩) else (tyCode t x, ⟨0, 0⟩)
  else
    let o := encodeF (tyFmt t) sat v
    (o.1, ⟨b2n o.2, 0⟩)

/-- The parameters of an output path (R108, R109). -/
structure OutPath where
  float : Bool
  outTy : Nat
  rnd : Bool
  sh : Nat
  tableEn : Bool
  sat : Bool
  act : Nat
  zo : Int
  lo : Nat
  hi : Nat
  slope : Nat
  deriving DecidableEq, Repr

/-- The integer path from rshift_round on (R108). -/
def intTail (p : OutPath) (v : Int) : Nat × NumEv :=
  let v := rshiftRound v p.sh p.rnd + p.zo
  let r := tyRange p.outTy
  let ev : NumEv := ⟨b2n (decide (v < r.1) || decide (r.2 < v)), 0⟩
  let lo := signed 32 p.lo
  let hi := signed 32 p.hi
  (tyCode p.outTy (if v < lo then lo else if hi < v then hi else v), ev)

/-- The integer path (R108). -/
def intPath (p : OutPath) (x bias : Int) (m : Nat) : Nat × NumEv := intTail p ((sat32 (x + bias)).1 * m)

/-- The activation functions (R109), and the NaN that one returns, be it the input's or one that LEAKY makes. -/
def actFn (p : OutPath) (v : FVal) : FVal × NumEv :=
  if p.act == 0 then (v, ⟨0, 0⟩)
  else if v = .nan then (.nan, ⟨0, 1⟩)
  else if p.act == 1 then (if fLt (fofInt 0) v then v else fofInt 0, ⟨0, 0⟩)
  else if p.act == 2 then
    let w := if fLt v (fofInt 0) then rn32 (fmul v (decodeF fFP32 p.slope)) else v
    (w, ⟨0, b2n (decide (w = .nan))⟩)
  else
    let lo := decodeF fFP32 p.lo
    let hi := decodeF fFP32 p.hi
    (if fLt v lo then lo else if fLt hi v then hi else v, ⟨0, 0⟩)

/-- The floating path from the activation on (R109). -/
def floatTail (p : OutPath) (v : FVal) : Nat × NumEv :=
  let a := actFn p v
  let o := convertOut p.outTy p.sat a.1
  (o.1, a.2.add o.2)

/-- The floating path (R109). -/
def floatPath (p : OutPath) (x bias scale : FVal) : Nat × NumEv :=
  floatTail p (rn32 (fmul (rn32 (fsum [x, bias])) scale))

/-- An input code as an FP32 value: a floating code exactly, an integer code less its zero point (R109). -/
def inputF (t c : Nat) (z : Int) : FVal := if tyInt t then fofInt (tyVal t c - z) else decodeF (tyFmt t) c

/-- BINARY on the integer path (R112). -/
def binInt (op : Nat) (va vb : Int) : Int :=
  match op with
  | 0 => va + vb | 1 => va - vb | 2 => (va - vb).natAbs | 3 => min va vb | 4 => max va vb | _ => va * vb

/-- BINARY on the floating path (R112). -/
def binFloat (op : Nat) (a b : FVal) : FVal :=
  match op with
  | 0 => rn32 (fsum [a, b]) | 1 => rn32 (fsum [a, fneg b]) | 2 => fabs (rn32 (fsum [a, fneg b]))
  | 3 => fmin a b | 4 => fmax a b | _ => rn32 (fmul a b)

end Sys2Proof
end

