-- ==== Sys2Proof/Machine/Operands.lean ====
section
/-! DEFINITION. The structures that commands carry or name: the waybill image and its descriptors (R167 to R182, R248), the
job configuration (R337), and the addresses of regions, transfers and records (R215 to R222). -/

namespace Sys2Proof.Machine

/-- A field of the header of a waybill image (R167). -/
def wbF (img : List Byte) (word lo w : Nat) : Nat := bits (wordN img word) lo w

/-- N_COACH. -/
def wbNCoach (img : List Byte) : Nat := wbF img 4 0 5
/-- N_STAGE. -/
def wbNStage (img : List Byte) : Nat := wbF img 4 8 8
/-- PERIOD. -/
def wbPeriod (img : List Byte) : Nat := wbF img 4 16 3
/-- REF_PROG. -/
def wbRefProg (img : List Byte) : Bool := wbF img 4 19 1 == 1
/-- COLUMNS. -/
def wbColumns (img : List Byte) : Nat := wbF img 5 0 6
/-- LR_MAX. -/
def wbLrMax (img : List Byte) : Nat := wbF img 6 0 18
/-- LAT_NS. -/
def wbLatNs (img : List Byte) : Nat := wbF img 7 0 11
/-- RES_TOTAL. -/
def wbResTotal (img : List Byte) : Nat := wbF img 9 0 13
/-- LIVE_MAX. -/
def wbLiveMax (img : List Byte) : Nat := wordN img 14
/-- SPAN_MAX. -/
def wbSpanMax (img : List Byte) : Nat := wordN img 15
/-- Offset and length of section `k`: 0 stages, 1 coach programs, 2 Gig slots, 3 constants. -/
def wbSect (img : List Byte) (k : Nat) : Nat × Nat := (wordN img (16 + 2 * k), wordN img (17 + 2 * k))
/-- WEIGHTS_DIGEST, as the 48 bytes of the digest. -/
def wbWeightsDigest (img : List Byte) : List Byte := slice img 96 48
/-- The bytes that the signature covers (R168). -/
def wbSigned (img : List Byte) : List Byte := img.take (wordN img 2 - 128)

/-- A word of stage descriptor `k` (R170). -/
def stW (img : List Byte) (k word : Nat) : Nat := wordAt img ((wbSect img 0).1 + 64 * k + 4 * word)
/-- KIND of a stage: 0 CARRIAGE, 1 POST, 2 GIG, 3 RECORD, 4 TRANSFER. -/
def stKind (img : List Byte) (k : Nat) : Nat := bits (stW img k 0) 8 4
/-- PREEMPT_END of a stage. -/
def stPreemptEnd (img : List Byte) (k : Nat) : Bool := bit (stW img k 0) 12
/-- W of a stage. -/
def stLen (img : List Byte) (k : Nat) : Nat := stW img k 1
/-- RES of a stage. -/
def stRes (img : List Byte) (k : Nat) : Nat := bits (stW img k 2) 0 13
/-- N_FETCH, N_WRITE, N_SYNC, N_PREEMPT of a stage. -/
def stNFetch (img : List Byte) (k : Nat) : Nat := bits (stW img k 3) 0 16
/-- N_WRITE. -/
def stNWrite (img : List Byte) (k : Nat) : Nat := bits (stW img k 3) 16 16
/-- N_SYNC. -/
def stNSync (img : List Byte) (k : Nat) : Nat := bits (stW img k 4) 0 16
/-- N_PREEMPT. -/
def stNPreempt (img : List Byte) (k : Nat) : Nat := bits (stW img k 4) 16 5

/-- A fetch or write entry (R171). -/
structure XferEnt where
  region : Nat
  tag : Nat
  beats : Nat
  ofs : Nat
  buf : Nat
  issue : Nat
  deriving DecidableEq, Repr

/-- The entry at an offset of the image. -/
def xferAt (img : List Byte) (o : Nat) : XferEnt :=
  let w := wordAt img o
  ⟨bits w 0 4, bits w 4 8, bits w 16 16, wordAt img (o + 4), bits (wordAt img (o + 8)) 0 21, wordAt img (o + 12)⟩

/-- Fetch `j` of a stage. -/
def stFetch (img : List Byte) (k j : Nat) : XferEnt := xferAt img (stW img k 5 + 16 * j)
/-- Write `j` of a stage. -/
def stWrite (img : List Byte) (k j : Nat) : XferEnt := xferAt img (stW img k 6 + 16 * j)

/-- Synchronisation entry `j` of a stage: CYCLE, KIND, TAG (R173). -/
def stSync (img : List Byte) (k j : Nat) : Nat × Nat × Nat :=
  let o := stW img k 7 + 8 * j
  let w := wordAt img (o + 4)
  (wordAt img o, bits w 0 2, bits w 8 8)

/-- Interior preemption point `j` of a stage (R174). -/
def stPreempt (img : List Byte) (k j : Nat) : Nat := wordAt img (stW img k 8 + 4 * j)

/-- The body of a stage: offset and length. -/
def stBody (img : List Byte) (k : Nat) : Nat × Nat := (stW img k 9, stW img k 10)

/-- An entry of a coach program (R180). -/
structure ProgEnt where
  stage : Nat
  row : Nat
  col : Nat
  start : Nat
  slot : Nat
  deriving DecidableEq, Repr

/-- Offset and entry count of the program of a coach index: the sheet program, or the reference program (R180). -/
def progOf (img : List Byte) (ref : Bool) (i : Nat) : Nat × Nat :=
  let o := (wbSect img 1).1 + 8 * ((if ref then wbNCoach img else 0) + i)
  (wordAt img o, wordAt img (o + 4))

/-- Entry `e` of a program. -/
def progEnt (img : List Byte) (ref : Bool) (i e : Nat) : ProgEnt :=
  let o := (progOf img ref i).1 + 16 * e
  let w := wordAt img o
  ⟨bits w 0 8, bits w 8 2, bits w 10 6, wordAt img (o + 4), bits (wordAt img (o + 8)) 0 8⟩

/-- Every entry of every program: those of the sheet programs, or of the reference programs. -/
def progAll (img : List Byte) (ref : Bool) : List ProgEnt :=
  (List.range (wbNCoach img)).flatMap (fun i => (List.range (progOf img ref i).2).map (progEnt img ref i))

/-- A Gig slot entry (R182): coach index, row, start, length. -/
structure SlotEnt where
  coach : Nat
  row : Nat
  start : Nat
  len : Nat
  deriving DecidableEq, Repr

/-- The number of Gig slots: the length of the section in 16-byte entries. -/
def nSlots (img : List Byte) : Nat := (wbSect img 2).2 / 16
/-- Gig slot `k`. -/
def slotEnt (img : List Byte) (k : Nat) : SlotEnt :=
  let o := (wbSect img 2).1 + 16 * k
  let w := wordAt img o
  ⟨bits w 0 4, bits w 16 2, wordAt img (o + 4), wordAt img (o + 8)⟩

/-- A run descriptor (R175). -/
structure RunDesc where
  rw : Nat
  rh : Nat
  sy : Nat
  sx : Nat
  mode : Nat
  pitch : Nat
  npass : Nat
  actFmt : Nat
  wtFmt : Nat
  bank : Nat
  drain : Bool
  carriages : Nat
  post : Nat
  passOfs : Nat
  deriving DecidableEq, Repr

/-- Run `j` of a CARRIAGE stage. -/
def runDesc (img : List Byte) (k j : Nat) : RunDesc :=
  let o := (stBody img k).1 + 16 * j
  let a := wordAt img o
  let b := wordAt img (o + 4)
  let c := wordAt img (o + 8)
  ⟨bits a 0 10, bits a 10 10, bits a 20 4, bits a 24 4, bits a 28 3, bits b 0 13, bits b 13 11, bits b 24 2, bits b 26 1,
    bits b 27 1, bit b 28, bits c 0 4, bits c 8 8, wordAt img (o + 12)⟩

/-- The number of runs of a CARRIAGE body: the runs come first, and the post descriptors that they name fill the rest (log 21). -/
def nRuns (img : List Byte) (k : Nat) : Nat :=
  let len := (stBody img k).2
  let posts (n : Nat) : Nat := ((List.range n).filter (fun j => (runDesc img k j).drain)).foldl (fun m j => max m ((runDesc img k j).post + 1)) 0
  ((List.range (len / 16 + 1)).find? (fun n => 16 * n + 48 * posts n == len)).getD (len / 16)

/-- A pass entry (R176): BASE, WADDR, OY, OX. -/
structure PassEnt where
  base : Nat
  waddr : Nat
  oy : Nat
  ox : Nat
  deriving DecidableEq, Repr

/-- Pass `p` of a run. -/
def passEnt (img : List Byte) (r : RunDesc) (p : Nat) : PassEnt :=
  let o := r.passOfs + 8 * p
  let b := wordAt img (o + 4)
  ⟨bits (wordAt img o) 0 21, bits b 0 15, bits b 16 8, bits b 24 8⟩

/-- Tap inputs, tap outputs, activation vector bytes and weight load cycles of an operand mode (R92). -/
def modeShape (m : Nat) : Nat × Nat × Nat × Nat :=
  match m with
  | 0 => (32, 64, 32, 32) | 1 => (64, 64, 64, 32) | 2 => (64, 64, 64, 40) | 3 => (32, 64, 32, 32) | 4 => (64, 64, 64, 40)
  | _ => (16, 32, 32, 16)

/-- Weight bytes of a tap (R92). -/
def tapBytes (m : Nat) : Nat := match m with | 2 => 2560 | 4 => 2560 | 5 => 1024 | _ => 2048

/-- Cycles of a run without its first weight load (R95). -/
def runCycles (r : RunDesc) : Nat := r.npass * max (r.rw * r.rh) (modeShape r.mode).2.2.2

/-- The ranges of R94 for a run and its passes. -/
def runOk (img : List Byte) (r : RunDesc) : Bool :=
  let v := (modeShape r.mode).2.2.1
  let n := r.rw * r.rh
  1 ≤ n && n ≤ 512 && 1 ≤ r.sy && r.sy ≤ 8 && 1 ≤ r.sx && r.sx ≤ 8 && 1 ≤ r.pitch && r.pitch ≤ 4096 && 1 ≤ r.npass && r.npass ≤ 1024 &&
  (List.range r.npass).all (fun p =>
    let e := passEnt img r p
    e.base % v == 0 && e.base + (((r.rh - 1) * r.sy + e.oy) * r.pitch + (r.rw - 1) * r.sx + e.ox) * v + v ≤ 0x200000 &&
    64 * e.waddr + tapBytes r.mode ≤ 0x200000)

/-- A post descriptor (R177), by its words. -/
structure PostDesc where
  func : Nat
  op : Nat
  out : OutPath
  tsel : Nat
  inTy : Nat
  w4 : Nat
  w5 : Nat
  srcA : Nat
  srcB : Nat
  dst : Nat
  mask : Nat
  width : Nat
  height : Nat
  pitch : Nat
  groups : Nat
  param : Nat
  deriving DecidableEq, Repr

/-- The post descriptor at an offset of the image. -/
def postAt (img : List Byte) (o : Nat) : PostDesc :=
  let w (i : Nat) : Nat := wordAt img (o + 4 * i)
  ⟨bits (w 0) 0 4, bits (w 0) 4 4,
    ⟨bit (w 0) 12, bits (w 0) 8 4, bit (w 0) 13, bits (w 0) 14 6, bit (w 0) 20, bit (w 0) 23, bits (w 0) 24 2, signed 32 (w 1), w 2, w 3, w 4⟩,
    bits (w 0) 21 2, bits (w 0) 26 4, w 4, w 5, bits (w 6) 0 24, bits (w 7) 0 24, bits (w 8) 0 24, bits (w 8) 24 5,
    bits (w 9) 0 13, bits (w 9) 13 13, bits (w 10) 0 13, bits (w 10) 13 12, bits (w 11) 0 24⟩

/-- Post descriptor `i` of a CARRIAGE stage, after its runs, or of a POST stage. -/
def stPost (img : List Byte) (k i : Nat) : PostDesc :=
  postAt img ((stBody img k).1 + (if stKind img k == 0 then 16 * nRuns img k else 0) + 48 * i)

/-- The number of post descriptors of a POST stage. -/
def nPosts (img : List Byte) (k : Nat) : Nat := (stBody img k).2 / 48

/-- The fields of an output path that its stage's loading checks (R108, R109). -/
def outOk (o : OutPath) : Bool :=
  let r := tyRange o.outTy
  if o.float then !o.tableEn || o.outTy == 0 || o.outTy == 1 || o.outTy == 4 || o.outTy == 5
  else o.sh ≤ 47 && tyInt o.outTy && decide (r.1 ≤ signed 32 o.lo) && decide (signed 32 o.hi ≤ r.2) &&
    decide (signed 32 o.lo ≤ signed 32 o.hi) && (!o.tableEn || o.outTy ≤ 1)

/-- The path of a post function: CONVERT applies the floating one (R106). -/
def pathOf (d : PostDesc) : OutPath := if d.func == 4 then { d.out with float := true } else d.out

/-- The rules of R106, R108, R128 and R177 that a post descriptor must meet when its stage is loaded. -/
def postOk (d : PostDesc) : Bool :=
  let win (lo : Nat) : Bool := 1 ≤ bits d.w5 lo 4 && bits d.w5 lo 4 ≤ 8
  let ext (lo : Nat) (h : Nat) : Bool := d.func != 2 || bits d.w5 lo 4 ≤ h
  d.func ≤ 5 && 1 ≤ d.height && 1 ≤ d.width && ext 0 d.height && ext 4 d.width && d.out.outTy ≤ 7 && d.inTy ≤ 7 && (d.func == 3 || d.func == 5 || outOk (pathOf d)) &&
  (match d.func with | 0 => d.op ≤ 2 | 1 => d.op ≤ 5 | 2 => d.op ≤ 1 && win 0 && win 4 && win 8 && win 12 | _ => true)

/-- Whether the spec states no result of a post function with these fields: a floating input on the integer path, INT32 from the floating
path (R111), a table of a type that has no 8-bit code (R106), or a CLAMP whose bounds are out of order (R109). -/
def postOpen (d : PostDesc) (floatIn : Bool) : Bool :=
  let p := pathOf d
  let b (x y : Nat) : Bool := decide (decodeF fFP32 x = .nan) || decide (decodeF fFP32 y = .nan) || fLt (decodeF fFP32 y) (decodeF fFP32 x)
  match d.func with
  | 5 => false
  | 3 => tyBytes d.inTy != 1
  | _ => if p.float then p.outTy == 3 || (p.act == 3 && b p.lo p.hi) else floatIn

/-- A Gig layer descriptor (R178). -/
structure GigLayer where
  func : Nat
  inTy : Nat
  kh : Nat
  kw : Nat
  dy : Nat
  dx : Nat
  sy : Nat
  sx : Nat
  cin : Nat
  cout : Nat
  g : Nat
  padT : Nat
  padB : Nat
  padL : Nat
  padR : Nat
  padMode : Nat
  rsMode : Nat
  rsFactor : Nat
  pack4 : Bool
  inW : Nat
  inH : Nat
  src : Nat
  dst : Nat
  waddr : Nat
  post : Nat
  deriving DecidableEq, Repr

/-- Layer `j` of a GIG stage. -/
def gigLayer (img : List Byte) (k j : Nat) : GigLayer :=
  let o := (stBody img k).1 + 32 * j
  let w (i : Nat) : Nat := wordAt img (o + 4 * i)
  ⟨bits (w 0) 0 2, bits (w 0) 2 4, bits (w 0) 6 4, bits (w 0) 10 4, bits (w 0) 14 4, bits (w 0) 18 4, bits (w 0) 22 4, bits (w 0) 26 4,
    bits (w 1) 0 13, bits (w 1) 13 9, bits (w 1) 22 10, bits (w 2) 0 8, bits (w 2) 8 8, bits (w 7) 8 8, bits (w 7) 16 8,
    bits (w 2) 16 2, bits (w 2) 18 2, bits (w 2) 20 2, bit (w 2) 22, bits (w 3) 0 13, bits (w 3) 13 13,
    bits (w 4) 0 21, bits (w 5) 0 21, bits (w 6) 0 22, bits (w 7) 0 8⟩

/-- The number of layers of a GIG stage. -/
def nLayers (img : List Byte) (k : Nat) : Nat := (stBody img k).2 / 32

/-- The output extent along one dimension (R127). -/
def outExtent (h k d s lo hi : Nat) : Nat :=
  let ke := (k - 1) * d + 1
  if h + lo + hi < ke then 0 else (h + lo + hi - ke) / s + 1

/-- The source of a padded coordinate (R130); none is a ZERO pad. -/
def padSource (mode : Nat) (p : Int) (h : Nat) : Option Nat :=
  if 0 ≤ p && p < h then some p.toNat
  else match mode with
  | 0 => none
  | 1 => some (if p < 0 then 0 else h - 1)
  | _ => some (if p < 0 then (-p).toNat else (2 * ((h : Int) - 1) - p).toNat)

/-- Padding amounts within R130 along one dimension. -/
def padOk (mode h ke lo hi : Nat) : Bool := lo ≤ ke - 1 && hi ≤ ke - 1 && (mode != 2 || (lo ≤ h - 1 && hi ≤ h - 1))

/-- The rules of R128, R130 and R150 to R154 that a Gig layer must meet when its stage is loaded. -/
def layerOk (l : GigLayer) : Bool :=
  let ext : Bool := 1 ≤ l.inH && 1 ≤ l.inW
  match l.func with
  | 0 =>
    let ky := (l.kh - 1) * l.dy + 1
    let kx := (l.kw - 1) * l.dx + 1
    (l.inTy == 0 || l.inTy == 1 || l.inTy == 6) && 1 ≤ l.kh && 1 ≤ l.kw && 1 ≤ l.dy && l.dy ≤ 8 && 1 ≤ l.dx && l.dx ≤ 8 &&
    1 ≤ l.sy && l.sy ≤ 8 && 1 ≤ l.sx && l.sx ≤ 8 && 1 ≤ l.cout && l.cout ≤ 256 && 1 ≤ l.g && l.cin % l.g == 0 && l.cout % l.g == 0 &&
    l.kh * l.kw * (l.cin / l.g) ≤ 4096 && l.padMode ≤ 2 && padOk l.padMode l.inH ky l.padT l.padB && padOk l.padMode l.inW kx l.padL l.padR &&
    0 < outExtent l.inH l.kh l.dy l.sy l.padT l.padB && 0 < outExtent l.inW l.kw l.dx l.sx l.padL l.padR
  | 1 => ext && (l.inTy ≤ 2 || l.inTy == 4 || l.inTy == 5 || l.inTy == 6) && 2 ≤ l.cin && l.cin ≤ 256 && (!l.pack4 || l.cin ≤ 16)
  | 2 => ext && (l.inTy == 0 || l.inTy == 1 || l.inTy == 6) && 1 ≤ l.rsFactor && l.rsMode ≤ 2
  | _ => ext && (l.inTy == 0 || l.inTy == 1 || l.inTy == 4 || l.inTy == 5 || l.inTy == 6)

/-- The output path of a Gig layer: BILINEAR resampling takes that of its input's type, and a conversion the floating one (R150, R154). -/
def gigPath (l : GigLayer) (d : PostDesc) : PostDesc :=
  match l.func with
  | 2 => { d with out := { d.out with float := l.inTy == 6, sh := 2 * (l.rsFactor + 1) } }
  | 3 => { d with out := { d.out with float := true } }
  | _ => d

/-- The output path that a Gig layer uses meets R108 and R150; a resampling layer shares type and zero point between its input and output (R154). -/
def gigPostOk (l : GigLayer) (d : PostDesc) : Bool :=
  match l.func with
  | 1 => true
  | 2 => d.out.outTy == l.inTy && (l.rsMode != 1 || (outOk (gigPath l d).out && (!tyInt l.inTy || d.out.zo == signed 16 (bits d.w5 0 16))))
  | _ => d.out.outTy ≤ 7 && d.out.outTy != 3 && outOk (gigPath l d).out

/-- Whether the spec states no result of a Gig layer with this output path. -/
def gigOpen (l : GigLayer) (d : PostDesc) : Bool :=
  match l.func with
  | 0 => postOpen { d with func := 0 } (l.inTy == 6)
  | 3 => postOpen { d with func := 4 } false
  | _ => false

/-- The live directory (R248): STAGE_ID, POINT, N_EXT and EXT_OFS of its points. -/
def livePoints (img : List Byte) : List (Nat × Nat × Nat × Nat) :=
  let o := (wbSect img 3).1
  (List.range (bits (wordAt img o) 0 16)).map (fun i =>
    let w := wordAt img (o + 4 + 8 * i)
    (bits w 0 8, bits w 8 5, bits w 16 16, wordAt img (o + 8 + 8 * i)))

/-- The extents of a point: address, location, length (R248). -/
def liveExtents (img : List Byte) (pt : Nat × Nat × Nat × Nat) : List (Nat × Nat × Nat) :=
  (List.range pt.2.2.1).map (fun i =>
    let w := wordAt img (pt.2.2.2 + 8 * i)
    (bits w 0 21, bits w 21 3, bits (wordAt img (pt.2.2.2 + 8 * i + 4)) 0 22))

/-- The ranges of an extent (R248). -/
def extentOk (e : Nat × Nat × Nat) : Bool := e.1 % 64 == 0 && e.2.1 ≤ 5 && e.2.2 % 64 == 0 && 64 ≤ e.2.2 && e.2.2 ≤ 0x200000

/-- The point of the live directory for a stage and a point number. -/
def livePoint (img : List Byte) (stage point : Nat) : Option (Nat × Nat × Nat × Nat) :=
  (livePoints img).find? (fun p => p.1 == stage && p.2.1 == point)

/-- Where the post descriptors of Gig layers begin in the constant section: after the live directory and its extents (log 21). -/
def gigPostBase (img : List Byte) : Nat :=
  let o := (wbSect img 3).1
  let ends := (livePoints img).map (fun p => p.2.2.2 + 8 * p.2.2.1)
  ceilDiv (ends.foldl max (o + 4 + 8 * (livePoints img).length)) 64 * 64

/-- The post descriptor of a Gig layer's output path. -/
def gigPost (img : List Byte) (l : GigLayer) : PostDesc := postAt img (gigPostBase img + 48 * l.post)

/-- The lowest RES among the stages that hold a preemption point (R250). -/
def wbResPt (img : List Byte) : Nat :=
  ((List.range (wbNStage img)).filter (fun k => stPreemptEnd img k || stNPreempt img k != 0)).foldl
    (fun m k => min m (stRes img k)) 0x1FFF

/-- A stage may be loaded (R93, R128, R130, R150, R170, R171, R173, R248). ACT_FMT of a run in mode B16 is ignored: R175 gives it no BF16 code, and no
rule calls a value of it there a fault (DESIGN CHOICE, log 36). -/
def stageOk (img : List Byte) (k : Nat) : Bool :=
  let kind := stKind img k
  bits (stW img k 0) 0 8 == k && kind ≤ 4 && (kind == 0 || stNPreempt img k == 0) &&
  (List.range (stNFetch img k)).all (fun j => (stFetch img k j).region ≤ 6) &&
  (List.range (stNWrite img k)).all (fun j => (stWrite img k j).region ≤ 6) &&
  (List.range (stNSync img k)).all (fun j => (stSync img k j).2.1 != 3) &&
  (!stPreemptEnd img k || (match livePoint img k 31 with | some p => (liveExtents img p).all extentOk | none => false)) &&
  (List.range (stNPreempt img k)).all (fun j => match livePoint img k j with | some p => (liveExtents img p).all extentOk | none => false) &&
  (kind != 0 || (List.range (nRuns img k)).all (fun j => let r := runDesc img k j; r.mode ≤ 5 && 1 ≤ r.rw && 1 ≤ r.rh &&
    (!(r.mode ≤ 2) || r.actFmt ≤ 1) && (!(r.mode == 3 || r.mode == 4) || 2 ≤ r.actFmt) && (!r.drain || postOk (stPost img k r.post)))) &&
  (kind != 1 || (List.range (nPosts img k)).all (fun i => postOk (stPost img k i))) &&
  (kind != 2 || (List.range (nLayers img k)).all (fun j => let l := gigLayer img k j; layerOk l && gigPostOk l (gigPost img l)))

/-- Word `i` of a job configuration (R337). -/
def cfgW (cfg : List Byte) (i : Nat) : Nat := wordN cfg i
/-- COLUMNS. -/
def cfgColumns (cfg : List Byte) : Nat := bits (cfgW cfg 1) 0 6
/-- REF_MODE: variable data. -/
def cfgVariable (cfg : List Byte) : Bool := bit (cfgW cfg 1) 8
/-- MAP_EN. -/
def cfgMapEn (cfg : List Byte) : Bool := bit (cfgW cfg 1) 9
/-- LEFT_POS and RIGHT_POS, by side. -/
def cfgPartner (cfg : List Byte) (side : Nat) : Nat := if side == 0 then bits (cfgW cfg 1) 16 6 else bits (cfgW cfg 1) 24 6
/-- Whether the job has a partner on a side. -/
def cfgHasPartner (cfg : List Byte) (side : Nat) : Bool := cfgPartner cfg side != 0x3F
/-- DEPTH. -/
def cfgDepth (cfg : List Byte) : Nat := cfgW cfg 3
/-- H_ROWS. -/
def cfgHRows (cfg : List Byte) : Nat := bits (cfgW cfg 4) 0 16
/-- DEPTH_ROWS. -/
def cfgDepthRows (cfg : List Byte) : Nat := bits (cfgW cfg 4) 16 16
/-- SHEET_LINES. -/
def cfgSheetLines (cfg : List Byte) : Nat := bits (cfgW cfg 5) 0 24
/-- SHEETS. -/
def cfgSheets (cfg : List Byte) : Nat := bits (cfgW cfg 6) 0 8
/-- TILE_STRIDE. -/
def cfgTileStride (cfg : List Byte) : Nat := cfgW cfg 7
/-- SPILL_STRIDE. -/
def cfgSpillStride (cfg : List Byte) : Nat := cfgW cfg 8
/-- SHEET_STRIDE. -/
def cfgSheetStride (cfg : List Byte) : Nat := cfgW cfg 9
/-- SUM_SLOT. -/
def cfgSumSlot (cfg : List Byte) : Nat := cfgW cfg 10
/-- Base of region `r`. -/
def cfgBase (cfg : List Byte) (r : Nat) : Nat := cfgW cfg (11 + 3 * r) + 2 ^ 32 * bits (cfgW cfg (12 + 3 * r)) 0 16
/-- Size of region `r`. -/
def cfgSize (cfg : List Byte) (r : Nat) : Nat := cfgW cfg (13 + 3 * r)
/-- Tile rows of a sheet, the last one partial. -/
def cfgSheetRows (cfg : List Byte) : Nat := ceilDiv (cfgSheetLines cfg) 256

/-- What R221 and R216 to R220 need of a row: its job row, its first line, its sheet's epoch number and its row in the sheet. -/
structure RowPos where
  row : Nat
  line : Nat
  epoch : Nat
  rowInSheet : Nat
  deriving DecidableEq, Repr

/-- The byte offset of beat `i` of a transfer within its region (R171, R216, R219 to R221). `idx` is the coach index. -/
def beatOfs (cfg : List Byte) (region ofs i col idx : Nat) (p : RowPos) : Nat :=
  let band := cfgDepth cfg * 864
  let d := ofs + 64 * i
  match region with
  | 0 => col * band + ((p.line + cfgDepth cfg - 16) % cfgDepth cfg * 864 + d) % band
  | 1 => p.row % cfgHRows cfg * 27648 + d
  | 2 => (if cfgVariable cfg then p.epoch % 2 * (cfgSheetRows cfg * cfgColumns cfg * cfgTileStride cfg) else 0) +
      (p.rowInSheet * cfgColumns cfg + col) * cfgTileStride cfg + d
  | 3 => (if cfgVariable cfg then p.epoch % cfgSheets cfg * cfgSheetStride cfg else 0) + col * ((cfgSheetLines cfg + 32) * 864) +
      p.rowInSheet * 256 * 864 + d
  | 4 => d
  | 5 => idx * cfgSpillStride cfg + d
  | _ => (p.row % cfgDepthRows cfg * cfgColumns cfg + col) * 256 + d

/-- Whether a region is XTS (R215). -/
def regionXts (region : Nat) (conf : Bool) : Bool :=
  region == 2 || region == 5 || (conf && (region == 3 || region == 6))

/-- The offset of a record in RESULT, and of its defect map (R221). -/
def recOfs (cfg : List Byte) (row col : Nat) : Nat := (row % cfgDepthRows cfg * cfgColumns cfg + col) * 256
/-- The offset of a defect map. -/
def mapOfs (cfg : List Byte) (row col : Nat) : Nat :=
  cfgDepthRows cfg * cfgColumns cfg * 256 + (row % cfgDepthRows cfg * cfgColumns cfg + col) * 2048

/-- The offset of a sheet's summary in RESULT (R345). -/
def sumOfs (cfg : List Byte) (sheet : Nat) : Nat := cfgDepthRows cfg * cfgColumns cfg * 2304 + sheet % 4 * cfgSumSlot cfg

/-- The checks of R337 on a job configuration block; `spill` is the addition for a slice-group member (R249). -/
def cfgOk (cfg : List Byte) (spill : Nat) : Bool :=
  let cols := cfgColumns cfg
  let d := cfgDepth cfg
  cfgW cfg 0 == 0x47464343 && 1 ≤ cols && cols ≤ 40 && bits (cfgW cfg 1) 10 2 ≤ 2 &&
  (d == 8192 || d == 16384 || d == 32768 || d == 65536) && 32 ≤ cfgHRows cfg && 32 ≤ cfgDepthRows cfg &&
  1 ≤ cfgSheets cfg && (List.range 4).all (fun i => cfgW cfg (7 + i) % 64 == 0) &&
  (List.range 7).all (fun r => cfgBase cfg r % 8192 == 0) &&
  cols * d * 864 + d * 8 ≤ cfgSize cfg 0 && cfgHRows cfg * 27648 ≤ cfgSize cfg 1 &&
  cfgDepthRows cfg * cols * 2304 + 4 * cfgSumSlot cfg ≤ cfgSize cfg 6 && spill ≤ cfgSize cfg 5

/-- The sections of an image (R167, check 4 of R169): aligned, in the signed bytes, not overlapping, programs inside theirs. Sections that stand in another
order than R167's fail: check 4 does not name that case (DESIGN CHOICE, log 36). -/
def sectsOk (img : List Byte) : Bool :=
  let n := wordN img 2 - 128
  let s := (List.range 4).map (wbSect img)
  s.all (fun x => x.1 % 64 == 0 && 160 ≤ x.1 && x.1 + x.2 ≤ n) &&
  (List.range 3).all (fun k => let a := wbSect img k; let b := wbSect img (k + 1); a.1 + a.2 ≤ b.1) &&
  [false, true].all (fun ref => (ref && !wbRefProg img) || (List.range (wbNCoach img)).all (fun i =>
    let p := progOf img ref i
    let c := wbSect img 1
    c.1 ≤ p.1 && p.1 + 16 * p.2 ≤ c.1 + c.2))

/-- Check 5 of R169 on the header, the programs and the slots; `size` is the partition's size and `cols` the job's columns. -/
def headerOk (img : List Byte) (size cols : Nat) : Bool :=
  let per := wbPeriod img
  1 ≤ wbNCoach img && wbNCoach img ≤ 16 && 1 ≤ wbNStage img && wbNStage img ≤ 250 && (per == 1 || per == 2 || per == 4) &&
  1 ≤ wbColumns img && wbColumns img ≤ 40 && 500 ≤ wbLrMax img && wbLrMax img ≤ 160000 && 800 ≤ wbLatNs img && wbLatNs img ≤ 2000 &&
  wbNCoach img == size && cols ≤ wbColumns img &&
  [false, true].all (fun ref => (ref && !wbRefProg img) || (progAll img ref).all (fun e =>
    e.stage < wbNStage img && e.row < per && e.col < wbColumns img &&
    (if stKind img e.stage == 2 then decide (e.slot < nSlots img) else e.slot == 0xFF))) &&
  (List.range (nSlots img)).all (fun k => let x := slotEnt img k; x.coach < wbNCoach img && x.row < per)

/-- The row of a job that a context holds, by number. -/
def rowsOf (n : Ctx) (s : State) : List RowSt := match (cx n s).job with | some j => j.rows | none => []
/-- The place of a context's row 0 in its schedule period (R183). -/
def rowPhase (n : Ctx) (s : State) : Nat := match (cx n s).job with | some j => j.phase | none => 0

/-- The REFRASTER fetches of the tile of a job row in a column, each with its stage (R419). -/
def refFetches (img : List Byte) (row col : Nat) : List (Nat × XferEnt) :=
  let es := (progAll img false).filter (fun e => e.row == row % max 1 (wbPeriod img) && e.col == col)
  es.flatMap (fun e => (((List.range (stNFetch img e.stage)).map (stFetch img e.stage)).filter (fun f => f.region == 3)).map (fun f => (e.stage, f)))

/-- The reference digest of a tile exists: each of its REFRASTER fetches is complete (R419). -/
def tileWhole (img : List Byte) (row col : Nat) (refs : List RefPiece) : Bool :=
  let fs := refFetches img row col
  !fs.isEmpty && fs.all (fun f => refs.any (fun p => p.col == col && p.stage == f.1 && p.ofs == f.2.ofs))

/-- Every reference digest of a row exists (R419). -/
def rasterWhole (n : Ctx) (r : RowSt) (s : State) : Bool :=
  (List.range (cfgColumns (cx n s).cfg)).all (fun c => tileWhole (cx n s).image (r.row + rowPhase n s) c r.refs)

/-- Every record of a row has arrived (R418). -/
def rowWhole (n : Ctx) (r : RowSt) (s : State) : Bool := r.recs.length == cfgColumns (cx n s).cfg && r.recs.length != 0

/-- The complete rows that await absorption (R424). -/
def heldRows (n : Ctx) (s : State) : Nat := ((rowsOf n s).filter (fun r => !r.absorbed && !r.dropped && rowWhole n r s)).length

/-- Rows are held because a reference digest of the first of them is incomplete (R419, R424). -/
def rasterWaits (n : Ctx) (s : State) : Bool :=
  match (rowsOf n s).find? (fun r => !r.absorbed && !r.dropped) with
  | none => false
  | some r => cfgVariable (cx n s).cfg && rowWhole n r s && !rasterWhole n r s

end Sys2Proof.Machine
end

