-- ==== Sys2Proof/Machine/Host.lean ====
section
/-! DEFINITION. The host port's register target: reads and writes by kind, register pairs, refused accesses and the global
counters (R14, R15, R32 to R36, R253, R254). -/

namespace Sys2Proof.Machine

/-- Answer an access that is not served: counted, with HOST_ERR (source 77, log 12), and no effect (R32). An undefined offset of the PM window
is counted while PD_TT is off too: R32 drops the count of accesses outside that window alone, and says nothing of this one (log 35). -/
def hostErr (e : HostErr) (write : Bool) (s : State) : State :=
  let s := match hostErrCounter e with | some f => raise 77 (inc f s) | none => s
  emit (.resp write (hostErrStatus e) 0) s

/-- A host write that is served has its effect and is answered OK; another gets its error response (R32, R210). Under SCAN_SEL every
clock is gated, and nothing is served (R550, log 29). -/
def hostTo (a : Nat) (sec : Bool) (k : State → State) (s : State) : State :=
  if s.tap.code == 0x10 then s else
  match hostCheck a sec false s with
  | some e => hostErr e true s
  | none => emit (.resp true 0 0) (k s)

/-- A host read that is served returns a value, taken before its effect; another gets its error response. -/
def hostFrom (a : Nat) (sec : Bool) (v : State → Nat) (k : State → State) (s : State) : State :=
  if s.tap.code == 0x10 then s else
  match hostCheck a sec false s with
  | some e => hostErr e false s
  | none => emit (.resp false 0 (low32 (v s))) (k s)

/-- Of the pending writes of one setting, oldest first, the one that an epoch of the present cycle still applies when a further write comes in it: the last
that an earlier cycle made (R53, R253). -/
def keptOlder {α : Type} (at_ : α → Nat) (now : Nat) (l : List α) : List α := ((l.filter (fun w => at_ w < now)).getLast?).toList

/-- The pending value of an RW-E field, if one was written: the last (R14, R253). -/
def rweOf (f : Fld) (s : State) : Option Nat :=
  (s.rwe.reverse.find? (fun w => w.addr == f.addr && w.lo == f.lo)).map (·.value)

/-- Make a value pending in an RW-E field; of several only the last stays, beside one that an epoch of this very cycle would still apply (R53, R253). -/
def rwePut (f : Fld) (v : Nat) (s : State) : State :=
  let same := s.rwe.filter (fun w => w.addr == f.addr && w.lo == f.lo)
  { s with rwe := s.rwe.filter (fun w => !(w.addr == f.addr && w.lo == f.lo)) ++ keptOlder (·.at_) s.now same ++
      [⟨f.addr, f.lo, v % 2 ^ f.width, s.now, !rdB TT_CTRL.ENABLE s⟩] }

/-- The width of the field at an offset and bit. -/
def widthAt (a lo : Nat) : Nat :=
  match rowOf a with
  | none => 0
  | some r => match r.fields.find? (fun x => x.lo == lo) with | none => 0 | some x => x.width

/-- The pending values that take effect: at an epoch those written before its cycle (R53), at the rise of ENABLE those written while it was 0 (R253). -/
def rweDue (rise : Bool) (w : RweWrite) (s : State) : Bool := if rise then w.off else w.at_ < s.now

/-- Let the pending values that are due take effect, oldest first, at an epoch or at the rise of ENABLE (R53, R253). An older value of the same field is
superseded by them. -/
def rweApply (rise : Bool) (s : State) : State :=
  let due := s.rwe.filter (fun w => rweDue rise w s)
  let gone (w : RweWrite) := rweDue rise w s || due.any (fun v => v.addr == w.addr && v.lo == w.lo && w.at_ ≤ v.at_)
  let s := { s with rwe := s.rwe.filter (fun w => !gone w) }
  each due (fun w t => wr ⟨w.addr, w.lo, widthAt w.addr w.lo⟩ w.value t) s

/-- Pending edge padding takes effect as pending RW-E values do (R255). -/
def edgeApply (rise : Bool) (s : State) : State :=
  let due (w : EdgeWrite) := if rise then w.off else decide (w.at_ < s.now)
  each allCtx (fun n t => modCx n (fun c =>
    match (c.edgeNext.filter due).getLast? with
    | some w => { c with edge := w.edge, edgeNext := c.edgeNext.filter (fun v => !due v && w.at_ < v.at_) }
    | none => c) t) s

/-- Whether the unit that owns the RW-L fields at an offset runs (the register chapters' own statements). -/
def ownerRuns (a : Nat) (s : State) : Bool :=
  match a / 0x100000 with
  | 1 => rdB TT_CTRL.ENABLE s
  | 2 => let c := rd (CA_STATUS.STATE (a / 0x10000 % 16)) s; 1 ≤ c && c ≤ 3
  | 3 => let c := rd GG_STATUS.STATE s; 1 ≤ c && c ≤ 3
  | 11 => match s.flt.block with | some b => b.step ≤ 4 | none => false
  | _ => false

/-- A rejected write of an RW-L field: CFG_WRITE_REJECT once, counted once (R254). -/
def cfgReject (a : Nat) (s : State) : State :=
  raise 76 (wr GL_CFG_REJECTS.LAST_BLOCK (a / 0x100000) (inc GL_CFG_REJECTS.COUNT s))

/-- The value that a write stores in a field: the limits that the field's own description gives (R70, R75 to R77). -/
def storeLimit (f : Fld) (v : Nat) : Nat :=
  if f.addr == 0x100008 then (if v == 0 || 0x1000000 < v then 0x1000000 else v)
  else if f.addr == 0x100028 then clampNat 500 160000 v
  else if f.addr == 0x10002C then clampNat 1000 1000000 v
  else if f.addr == 0x100034 then max 1 v
  else v

/-- Registers whose fields have rows of their own: TT_CTRL, EV_PEND and EV_F_PEND, PM_LAN_CTRL, PM_THERM_CFG, DBG_CTRL,
MP_ERR_INFO, OTP_PROG_CTRL, and DG_OWN, DG_CTRL, DG_DATA, DG_LAST and DG_CNT_CLR (log 4). -/
def ownRow (a : Nat) : Bool :=
  a == 0x100000 || (0x700000 ≤ a && a < 0x700010) || (0x701000 ≤ a && a < 0x701010) || a == 0xB00800 || a == 0xB00034 || a == 0xC00000 ||
  a == 0x400014 || a == 0xA00028 || a == 0x900000 || a == 0x900008 || a == 0x900010 || a == 0x900014 || a == 0x9000C4

/-- Whether a host write reaches a field: of the mask bits, only those of sources that are routed to the host, in the bank of their
class (R351, R356). -/
def hostReaches (f : Fld) (s : State) : Bool :=
  if 0x700010 ≤ f.addr && f.addr < 0x700020 then
    let src := 8 * (f.addr - 0x700010) + f.lo; srcRoute src s == 2 && !srcFast src s
  else if 0x701010 ≤ f.addr && f.addr < 0x701020 then
    let src := 8 * (f.addr - 0x701010) + f.lo; srcRoute src s == 2 && srcFast src s
  else true

/-- Write one field of a register by its kind (R14). -/
def writeField (a data : Nat) (x : FRow) (s : State) : State :=
  let f : Fld := ⟨a, x.lo, x.width⟩
  let v := storeLimit f (bits data x.lo x.width)
  if !hostReaches f s then s else
  match x.kind with
  | .rw => wr f v s
  | .rwl => if ownerRuns a s then s else wr f v s
  | .rwe => rwePut f v s
  | .w1c => clearBits f v s
  | .ro => s
  | .wo => s

/-- A pair whose value is of kind RW-L (R14). -/
def pairLocked (a : Nat) : Bool := match rowOf a with | none => false | some r => r.fields.any (fun x => decide (x.kind = .rwl))

/-- Write one field of the digest registers in a view, by its kind (R14, R426): DG_CFG is held while the view's message is active (R435). -/
def dgField (v : Fin 3) (a data : Nat) (x : FRow) (s : State) : State :=
  let f : Fld := ⟨a + dgView v, x.lo, x.width⟩
  let d := bits data x.lo x.width
  match x.kind with
  | .rw => wr f d s
  | .rwl => if rdB (DG_STATUS.ACTIVE v) s then s else wr f d s
  | .w1c => clearBits f d s
  | .wo => if 0x900040 ≤ a && a < 0x9000C0 then dgKeyWrite v ((a - 0x900040) / 4) d s else s
  | .ro => s
  | .rwe => s

/-- A user's write of a digest register at an offset of the DG window, in its own view: ignored and counted while it does not own the engine
(R426, R436 to R443). The _HI half of DG_SRC waits for the _LO half in its view (R15). -/
def dgRegWrite (v : Fin 3) (a data : Nat) (s : State) : State :=
  match rowOf a with
  | none => s
  | some r =>
    if ownRow a || r.pair == 1 then s
    else if !dgOwns v s then dgRefuseWrite s
    else if r.pair == 2 then { s with hiHold := SMap.set (fun _ => 0) s.hiHold (a - 4 + dgView v) (low32 data) }
    else
      let rej := r.fields.any (fun x => decide (x.kind = .rwl)) && rdB (DG_STATUS.ACTIVE v) s
      let s := each r.fields (dgField v a data) s
      if rej then cfgReject a s else s

/-- The write of the _LO half of DG_SRC in a view (R15, R442). -/
def dgPairWrite (v : Fin 3) (a data : Nat) (s : State) : State :=
  match rowOf a with
  | none => s
  | some r =>
    if r.pair != 1 then s
    else if !dgOwns v s then dgRefuseWrite s
    else each r.fields (fun x => wr ⟨a + dgView v, x.lo, x.width⟩ (SMap.get (fun _ => 0) s.hiHold (a + dgView v) * 2 ^ 32 + low32 data)) s

/-- A host write of a register, by the kinds of its fields. The _HI register of a pair holds its value for the write of _LO
(R15), unless the pair is of kind RW-L and its owner runs (R14). -/
def regWrite (a data : Nat) (s : State) : State :=
  if a / 0x100000 == 9 then dgRegWrite 0 a data s else
  match rowOf a with
  | none => s
  | some r =>
    if r.pair == 2 then
      if pairLocked (a - 4) && ownerRuns a s then cfgReject a s
      else { s with hiHold := SMap.set (fun _ => 0) s.hiHold (a - 4) (low32 data) }
    else if ownRow a || r.pair == 1 then s
    else
      let rej := r.fields.any (fun x => decide (x.kind = .rwl)) && ownerRuns a s
      let s := each r.fields (writeField a data) s
      settle (if rej then cfgReject a s else s)

/-- A word of the UDS, MRK and LK regions, whose shadow the host does not see (R453). -/
def otpSecret (w : Nat) : Bool := (0x20 ≤ w && w ≤ 0x28) || (0x40 ≤ w && w < 0xC0)

/-- ENC_A has changed level within the last 1 s (R472). -/
def encMoves (s : State) : Bool := match s.pins.encAt with | some t => decide (s.now < t + ms 1000) | none => false

/-- Seconds since a unit in TRIAL started (R480). -/
def trialSeconds (u : Nat) (s : State) : Nat :=
  if h : u < 6 then (match s.sb.trialAt[u] with | some t => (s.now - t) / ms 1000 | none => 0) else 0

/-- The lifecycle lets the trace run (R546). -/
def traceLife (s : State) : Bool :=
  let lc := rd GL_STATUS.LIFECYCLE s
  lc == 1 || ((lc == 7 || lc == 0xF) && rdB GL_STATUS.DEBUG_UNLOCKED s)

/-- TRACE carries the selected group (R546, R549): a coach's groups are low while it is scrubbed. -/
def traceOn (s : State) : Bool :=
  let g := rd DBG_CTRL.GROUP s
  rdB DBG_CTRL.EN s && traceLife s && !confidential s && s.pins.tmuxEn && (32 ≤ g || rd (CA_STATUS.STATE (g / 2)) s != 4)

/-- The Gig engine passes from one coach to another: the first 32 cycles of a slot after a slot of another coach (R155, R157). That the pass stands at the begin
of the slot whose LEN includes it no rule says (DESIGN CHOICE, log 36). -/
def gigPasses (s : State) : Bool := s.gig.run.isSome && s.gig.passes && decide (arithNow s < s.gig.beginAt + 32) && rd GG_STATUS.STATE s == 2

/-- A register that confidential mode hides from the host, of a coach's and the Gig engine's counters and the address of MP_ERR (R115, R232). -/
def confHides (a : Nat) (s : State) : Bool :=
  confidential s && ((List.contains [2, 3] (a / 0x100000) && 0x10 ≤ a % 0x10000 && a % 0x10000 < 0x30) || a == 0x400018)

/-- A field as the host reads it: the straps (R33), the fields that confidential mode hides (R115, R199, R232), the event
bits that the host may see (R351, R356), queue states (R320, R322) and pending RW-E values (R14). -/
def hostField (a : Nat) (x : FRow) (s : State) : Nat :=
  let f : Fld := ⟨a, x.lo, x.width⟩
  let conf := confidential s
  let k : Fin 6 := if a < 0x680000 then ⟨a / 0x1000 % 4, by omega⟩ else 4
  let inBank (base : Nat) (fast : Bool) : Nat :=
    let src := 8 * (a - base) + x.lo
    if srcRoute src s == 2 && srcFast src s == fast then rd f s else 0
  let pend (base : Nat) (fast : Bool) : Nat :=
    let src := 8 * (a - base) + x.lo
    if pendRoute fast src s == 2 && pendHome fast src s then rd f s else 0
  if x.kind = .wo then 0
  else if f = GL_STATUS.TANDEM then b2n s.pins.tandem
  else if f = GL_STATUS.CHAIN_POS then s.pins.pos
  else if confHides a s then 0
  else if conf && List.contains [2, 3] (a / 0x100000) && a % 0x10000 == 0 && 16 ≤ x.lo then 0
  else if conf && 0x100 ≤ a && a < 0x220 && a % 0x20 == 0xC && x.lo == 24 then 0
  else if 0x700000 ≤ a && a < 0x700010 then pend 0x700000 false
  else if 0x701000 ≤ a && a < 0x701010 then pend 0x701000 true
  else if 0x700010 ≤ a && a < 0x700020 then inBank 0x700010 false
  else if 0x701010 ≤ a && a < 0x701020 then inBank 0x701010 true
  else if 0x700020 ≤ a && a < 0x700030 then
    let src := 8 * (a - 0x700020) + x.lo; b2n (s.ev.active.any (fun t => !t.fast && t.src == src))
  else if 0x701020 ≤ a && a < 0x701030 then
    let src := 8 * (a - 0x701020) + x.lo; b2n (s.ev.active.any (fun t => t.fast && t.src == src))
  else if a / 0x100000 == 6 && a % 0x1000 == 8 && x.lo == 0 then b2n (!(chan k s).msg.isEmpty)
  else if a / 0x100000 == 6 && a % 0x1000 == 8 && x.lo == 1 then (chan k s).words.length
  else if a / 0x100000 == 6 && a % 0x1000 == 0x24 then (chan k s).hdr
  else if a / 0x100000 == 6 && a % 0x1000 == 0x28 && x.lo == 0 then b2n (!(chan k s).k2h.isEmpty)
  else if a / 0x100000 == 6 && a % 0x1000 == 0x28 && x.lo == 1 then (chan k s).k2h.length
  else if (0xA01000 ≤ a && a < 0xA03000) && otpSecret (a % 0x1000 / 4) then 0
  else if 0x900100 ≤ a && a < 0x900140 && !dgOwns 0 s then 0
  else if 0x800040 ≤ a && a < 0x800080 then wordN (s.sb.log.getD (rd SB_LOG_IDX.IDX s) []) ((a - 0x800040) / 4)
  else if 0x800410 ≤ a && a < 0x800490 && a % 0x10 == 8 && x.lo == 2 then
    (match ctxOf ((a - 0x800400) / 0x10) with | some n => b2n (rasterWaits n s) | none => 0)
  else if 0x800410 ≤ a && a < 0x800490 && a % 0x10 == 8 && x.lo == 16 then
    (match ctxOf ((a - 0x800400) / 0x10) with | some n => heldRows n s | none => 0)
  else if 0x800500 ≤ a && a < 0x800560 && a % 0x10 == 0 && x.lo == 16 then trialSeconds ((a - 0x800500) / 0x10) s
  else if f = SB_UPD_STATUS.MOTION then b2n (encMoves s)
  else if f = SB_UPD_STATUS.SUPPLY_LOW then b2n s.pins.supplyLow
  else if f = SB_UPD_STATUS.ATTN then b2n (!s.pins.svcAttnN)
  else if f = SB_STATUS.ALARM then b2n (!s.pins.alarmN)
  else if f = GG_STATUS.STATE then (if gigPasses s then 3 else rd f s)
  else if f = TL_STATUS.BYPASS_HOLD then b2n s.pins.hold
  else if f = DBG_STATUS.ACTIVE then b2n (traceOn s)
  else if f = DBG_STATUS.TMUX_EN then b2n s.pins.tmuxEn
  else if f = PM_CLK_STATUS.ARITH_IDLE then b2n ((List.range 17).all (fun d => !domOn d s))
  else if x.kind = .rwe then (rweOf f s).getD (rd f s)
  else rd f s

/-- The word that a host read of an offset returns; the _HI register of a pair returns the snapshot (R15), unless confidential mode hides the pair (R115, R232). -/
def hostRead (a : Nat) (s : State) : Nat :=
  match rowOf a with
  | none => 0
  | some r =>
    if r.pair == 2 then (if confHides (a - 4) s then 0 else low32 (SMap.get (fun _ => 0) s.snap (a - 4)))
    else low32 ((r.fields.map (fun x => hostField a x s * 2 ^ x.lo)).sum)

/-- The whole value of a pair, as a read of its _LO register takes it (R15). -/
def pairValue (a : Nat) (s : State) : Nat :=
  match rowOf a with
  | none => 0
  | some r => (r.fields.map (fun x => hostField a x s)).sum

/-- Capture the rest of a pair's value into its snapshot (R15). -/
def snapPair (a : Nat) (s : State) : State :=
  { s with snap := SMap.set (fun _ => 0) s.snap a (pairValue a s / 2 ^ 32) }

/-- The write of a pair's _LO register commits the value held for _HI with it (R15), by the pair's kind. R15 obliges the writer to write _HI
first, and does not say what a write of _LO alone commits: it commits the value last held for _HI, and a read of _HI with no read of
_LO before it returns the last snapshot, 0 at reset (log 35). -/
def commitPair (a data : Nat) (s : State) : State :=
  if a / 0x100000 == 9 then dgPairWrite 0 a data s else
  match rowOf a with
  | none => s
  | some r =>
    if r.pair != 1 then s else
    let v := SMap.get (fun _ => 0) s.hiHold a * 2 ^ 32 + low32 data
    each r.fields (fun x t =>
      match x.kind with
      | .rw => if hostReaches ⟨a, x.lo, x.width⟩ t then wr ⟨a, x.lo, x.width⟩ v t else t
      | .rwl => if ownerRuns a t then cfgReject a t else wr ⟨a, x.lo, x.width⟩ v t
      | _ => t) s

/-- HOST_ACCESS_ERROR (R32, R210): an access that is not served; one that would be served is no case of this command, and under SCAN_SEL
nothing answers (R550, log 29). -/
def execHostAccessError (write : Bool) (addr : Nat) (beats sec : Bool) (s : State) : Host.Outcome State Fault Refusal :=
  .next (if s.tap.code == 0x10 then s else match hostCheck addr sec beats s with | some e => hostErr e write s | none => s)

/-- GL_CNT_CLR_CFG_REJECTS (R36). -/
def execGlCntClrCfgRejects (s : State) : Host.Outcome State Fault Refusal :=
  .next (hostTo 0x28 false (cntClr [GL_CFG_REJECTS.COUNT, GL_CFG_REJECTS.LAST_BLOCK]) s)

/-- GL_CNT_CLR_HOST_ERRS (R36). -/
def execGlCntClrHostErrs (s : State) : Host.Outcome State Fault Refusal :=
  .next (hostTo 0x28 false (cntClr [GL_HOST_ERRS.UNMAPPED, GL_HOST_ERRS.NOT_SECURE, GL_HOST_ERRS.DOMAIN_OFF]) s)

end Sys2Proof.Machine
end

