-- ==== Sys2Proof/Machine/Mailbox.lean ====
section
/-! DEFINITION. The mailbox channels: queues, doorbells, peer states, responses and notices (R305 to R330, R342 to R344). -/

namespace Sys2Proof.Machine

/-- Set doorbell bits for the K24 side of a channel (R312). -/
def bellK24 (k : Nat) (m : Nat) (s : State) : State := settle (markBits (MB.H2K_DB_PEND.PEND k) m s)

/-- Set doorbell bits for the host side of a channel (R312). -/
def bellHost (k : Nat) (m : Nat) (s : State) : State := settle (markBits (MB.K2H_DB_PEND.PEND k) m s)

/-- The processor of the K24 side of a channel is the Coachman (R305). -/
def chanCm (k : Fin 6) : Bool := k.val == 0 || k.val == 1 || k.val == 3

/-- The peer of a channel is READY or ASLEEP (R314). -/
def peerUp (k : Nat) (s : State) : Bool := rd (MB.H2K_STATUS.PEER k) s < 2

/-- The processor of a channel is READY: one that is ASLEEP reads nothing before its wake (R315). -/
def awake (k : Nat) (s : State) : Bool := rd (MB.H2K_STATUS.PEER k) s == 0

/-- FULL as a write of the present cycle finds it: its state at the start of the cycle (R311). -/
def h2kFull (k : Fin 6) (s : State) : Bool := !(chan k s).msg.isEmpty || (chan k s).fullClr == some s.now

/-- FULL of the K2H queue was 0 at the start of the present cycle and is 0 now: a message goes out (R310, R311). -/
def k2hFree (k : Fin 6) (s : State) : Bool := (chan k s).k2h.isEmpty && (chan k s).k2hClr != some s.now

/-- The Coachman runs: READY or ASLEEP (R314). -/
def cmUp (s : State) : Bool := peerUp 0 s

/-- The Strongbox runs, and serves its channels (R370 step 9). -/
def sbUp (s : State) : Bool := peerUp 2 s

/-- Record a discarded H2K message: ABORT, and doorbell ABORTED on the host side (R316, R317). -/
def recordAbort (k : Fin 6) (header : Nat) (s : State) : State :=
  let s := wrs [(MB.ABORT.OPCODE k, bits header 0 8), (MB.ABORT.SEQ k, bits header 8 8)] (markBit (MB.ABORT.VALID k) s)
  bellHost k 4 (inc (MB.ABORT.COUNT k) s)

/-- A word written to H2K_DATA (R309, R310). -/
def h2kWrite (k : Fin 6) (w : Nat) (s : State) : State :=
  let c := chan k s
  if h2kFull k s then inc (MB.CNT.WRITE_FULL k) (markBit (MB.H2K_STATUS.WRITE_FULL k) s)
  else if 8 ≤ c.words.length then markBit (MB.H2K_STATUS.OVERFLOW k) (setChan k { c with overflow := true } s)
  else setChan k { c with words := c.words ++ [w] } s

/-- DISCARD: the uncommitted words are dropped (R309). -/
def h2kDrop (k : Fin 6) (s : State) : State := setChan k { chan k s with words := [], overflow := false } s

/-- The uncommitted words as a commit finds them, with whether one was dropped for overflow: those that the peer's entry into RESET or DEAD has dropped in
this very cycle among them (R317). -/
def h2kWords (k : Fin 6) (s : State) : List Nat × Bool :=
  let c := chan k s
  match c.dropped with
  | some (t, ws, o) => if t == s.now then (ws ++ c.words, o || c.overflow) else (c.words, c.overflow)
  | none => (c.words, c.overflow)

/-- COMMIT (R309, R310, R317). -/
def h2kDoCommit (k : Fin 6) (s : State) : State :=
  let w := h2kWords k s
  let s' := setChan k { chan k (h2kDrop k s) with dropped := none } s
  if h2kFull k s then s
  else if w.1.isEmpty || w.1.length != 1 + bits (w.1.headD 0) 16 4 || w.2 then
    inc (MB.CNT.BAD_LENGTH k) (markBit (MB.H2K_STATUS.BAD_LENGTH k) s')
  else if tandemOn s && !peerUp k s then recordAbort k (w.1.headD 0) s'
  else bellK24 k 1 (setChan k { chan k s' with msg := w.1, readN := 0, heldAt := none } s')

/-- A read of K2H_DATA returns the next word of the committed message, 0 when none remains (R310). -/
def k2hNext (k : Fin 6) (s : State) : Nat := (chan k s).k2h.headD 0

/-- The read removes the word; the last word clears FULL and sets SPACE, an empty read sets UNDERRUN (R310). -/
def k2hRead (k : Fin 6) (s : State) : State :=
  let c := chan k s
  match c.k2h with
  | [] => inc (MB.CNT.UNDERRUN k) (markBit (MB.K2H_STATUS.UNDERRUN k) s)
  | [_] => bellK24 k 2 (setChan k { c with k2h := [], hdr := 0, k2hClr := some s.now } s)
  | _ :: r => setChan k { c with k2h := r } s

/-- Commit a K2H message into an empty queue: FULL, and doorbell MSG on the host side (R310). -/
def k2hPost (k : Fin 6) (words : List Nat) (s : State) : State :=
  bellHost k 1 (setChan k { chan k s with hdr := words.headD 0, k2h := words } s)

/-- Set a bit of the STATUS byte of a header. -/
def orStatus (words : List Nat) (b : Nat) : List Nat :=
  match words with
  | [] => []
  | h :: r => (h ||| b * 2 ^ 24) :: r

/-- Post a notice: flag LOST if an earlier one was lost (R343). -/
def postNotice (k : Fin 6) (words : List Nat) (s : State) : State :=
  let c := chan k s
  k2hPost k (if c.lost then orStatus words 1 else words) (setChan k { c with lost := false } s)

/-- Notices that SET_NOTICE_ROUTE cannot suppress, for which 16 entries are kept (R335, R343). -/
def unmaskable (code : Nat) : Bool := [0x07, 0x08, 0x09, 0x0A, 0x0B, 0x11].contains code

/-- Entries for waiting notices on a channel (R343). -/
def noticeCap (k : Fin 6) : Nat := if k.val == 3 then 256 else if k.val == 2 then 16 else 64

/-- The notice code and the context of a waiting RESULT_ROW_READY. -/
def isRowReady (w : List Nat) (ctx : Nat) : Bool := bits (w.headD 0) 0 8 == 1 && bits (w.getD 1 0) 0 4 == ctx

/-- Queue a notice that finds the K2H queue full: a RESULT_ROW_READY replaces an older one of its context, and one that
finds no free entry is lost, and counted by the Coachman firmware (R343). -/
def queueNotice (k : Fin 6) (words : List Nat) (s : State) : State :=
  let c := chan k s
  let code := bits (words.headD 0) 0 8
  let old := code == 1 && c.notices.any (fun w => isRowReady w (bits (words.getD 1 0) 0 4))
  if old then
    setChan k { c with notices := c.notices.filter (fun w => !isRowReady w (bits (words.getD 1 0) 0 4)) ++ [orStatus words 2] } s
  else
    let plain := (c.notices.filter (fun w => !unmaskable (bits (w.headD 0) 0 8))).length
    let full := noticeCap k ≤ c.notices.length || (k.val != 2 && !unmaskable code && noticeCap k - 16 ≤ plain)
    if full then
      let s := setChan k { c with lost := true } s
      if k.val == 2 then s else { s with mb := { s.mb with noticesLost := min 0xFFFF (s.mb.noticesLost + 1) } }
    else setChan k { c with notices := c.notices ++ [words] } s

/-- The peer runs, and MAILBOX_ABORTED is still to go out before any other message of the channel (R318). -/
def abortDue (k : Fin 6) (s : State) : Bool := k.val != 3 && peerUp k s && rdB (MB.ABORT.VALID k) s

/-- Post a notice, or queue it behind what waits (R342, R343). -/
def sendNotice (k : Fin 6) (words : List Nat) (s : State) : State :=
  let c := chan k s
  if k2hFree k s && c.resps.isEmpty && c.notices.isEmpty && !abortDue k s then postNotice k words s else queueNotice k words s

/-- The words of a notice (R308, R344). -/
def noticeWords (code flags : Nat) (payload : List Nat) : List Nat :=
  (code + payload.length * 2 ^ 16 + 2 ^ 20 + flags * 2 ^ 24) :: payload.map low32

/-- The channel of a notice of the Coachman firmware (R342). -/
def noticeChan (code : Nat) (s : State) : Fin 6 := if code ≤ 2 then 3 else if s.mb.route == 1 then 1 else 0

/-- A notice of the Coachman firmware, unless it is suppressed, or names a context (ID `ctx`, 0 for none) whose teardown has
begun (R257, R335). -/
def notice (code flags ctx : Nat) (payload : List Nat) (s : State) : State :=
  if !cmUp s then s
  else if bit s.mb.mask code && !unmaskable code then s
  else if ctx != 0 && 5 ≤ rd (GL_CTX_STATUS.STATE ctx) s && code != 7 && code != 8 then s
  else sendNotice (noticeChan code s) (noticeWords code flags payload) s

/-- A notice of the Strongbox firmware, on MB2 (R342). -/
def sbNotice (code : Nat) (payload : List Nat) (s : State) : State :=
  if sbUp s then sendNotice 2 (noticeWords code 0 payload) s else s

/-- A message as a request: its header fields and payload (R308). -/
structure Req where
  op : Nat
  seq : Nat
  len : Nat
  note : Bool
  words : List Nat
  deriving DecidableEq, Repr

/-- The request that waits on a channel. -/
def reqOf (k : Fin 6) (s : State) : Option Req :=
  match (chan k s).msg with
  | [] => none
  | h :: r => some ⟨bits h 0 8, bits h 8 8, bits h 16 4, bit h 20, r⟩

/-- Payload word `i` of a request, counted from 1. -/
def Req.w (r : Req) (i : Nat) : Nat := r.words.getD (i - 1) 0

/-- The firmware has read the last word of the committed message: FULL clears, SPACE is set on the sending side, and the doorbell is taken (R310, R313). -/
def takeMsg (k : Fin 6) (s : State) : State :=
  let s := setChan k { chan k s with msg := [], readN := 0, fullClr := some s.now } s
  bellHost k 2 (clearBits (MB.H2K_DB_PEND.PEND k) 1 s)

/-- Post a response, ahead of every waiting notice, or hold it behind earlier responses (R326, R343). -/
def answer (k : Fin 6) (imm : Bool) (op seq status : Nat) (payload : List Nat) (s : State) : State :=
  let words := (op + seq * 2 ^ 8 + payload.length * 2 ^ 16 + status * 2 ^ 24) :: payload.map low32
  let c := chan k s
  if k2hFree k s && c.resps.isEmpty && !abortDue k s then k2hPost k words s
  else setChan k { c with resps := c.resps ++ [(imm, words)] } s

/-- The firmware of a channel reads requests: its processor is awake (the Coachman's accepts commands from CMD_READY on), and it owes no
immediate response that waits (R33, R314, R343). Immediate commands are carried out in the order in which they were read (R328), so that the Coachman reads
none while a CREATE_CONTEXT awaits its coaches (R242), and none from a channel whose ABORT_JOB awaits its fence (R340, R343). -/
def reads (k : Fin 6) (s : State) : Bool :=
  s.tap.code != 0x10 && awake k s && (!chanCm k || (rdB GL_STATUS.CMD_READY s && !s.mb.deferred.any (fun d => d.op == 0x10 || (d.op == 0x22 && d.ch == k.val)))) &&
    !(chan k s).resps.any (·.1) &&
    (chanCm k || s.sb.resetDue.isNone)

/-- Serve a request of a given opcode on one of the channels that serve it: the message is read, then `body` carries it out.
Another message, or none, is no case of the command. -/
def serve (k : Fin 6) (chs : List Nat) (op : Nat) (body : Req → State → State) (s : State) : State :=
  match reqOf k s with
  | none => s
  | some r => if chs.contains k.val && r.op == op && !r.note && reads k s then body r (takeMsg k s) else s

/-- Payload words `i` to `j` as bytes. -/
def Req.bytes (r : Req) (i j : Nat) : List Byte := ((List.range (j + 1 - i)).map (fun k => r.w (i + k))).flatMap (leBytes 4)
/-- A 48-bit address in payload words `i` and `i + 1`. -/
def Req.addr (r : Req) (i : Nat) : Nat := r.w i + 2 ^ 32 * bits (r.w (i + 1)) 0 16

/-- Status codes (R330). -/
def stOK : Nat := 0
def stBUSY : Nat := 1
def stBAD_LENGTH : Nat := 2
def stBAD_OPCODE : Nat := 3
def stBAD_STATE : Nat := 4
def stAUTH_FAIL : Nat := 5
def stNO_RESOURCE : Nat := 6
def stCONTRACT : Nat := 7
def stABORTED : Nat := 8
def stREFUSED_STATE : Nat := 9
def stDIGEST_MISMATCH : Nat := 10
def stTIMEOUT : Nat := 11
def stFENCED : Nat := 12
def stNOT_CONFIDENTIAL : Nat := 13
def stROLLBACK : Nat := 14

/-- Answer an immediate command. -/
def reply (k : Fin 6) (r : Req) (status : Nat) (payload : List Nat) (s : State) : State := answer k true r.op r.seq status payload s

/-- Carry out an immediate command that gives a status, a payload and, when it succeeds, a new state. -/
def replyWith (k : Fin 6) (r : Req) (f : State → Except Nat (List Nat × State)) (s : State) : State :=
  match f s with
  | .error e => reply k r e [] s
  | .ok (p, s') => reply k r stOK p s'

/-- End a deferred command, or an ABORT_JOB that awaited its fence, with its response (R327, R340). -/
def endDeferred (d : Deferred) (status : Nat) (payload : List Nat) (s : State) : State :=
  let s := { s with mb := { s.mb with deferred := s.mb.deferred.filter (fun e => !(decide (e = d))) } }
  if h : d.ch < 6 then answer ⟨d.ch, h⟩ (d.op == 0x22) d.op d.seq status payload s else s

/-- The deferred command of a context (R328); an ABORT_JOB that awaits its fence is an immediate one. -/
def deferredOf (ctx : Nat) (s : State) : Option Deferred := s.mb.deferred.find? (fun d => d.ctx == ctx && d.op != 0x22)

/-- The fence that an ABORT_JOB awaits is complete, and it is answered (R340). -/
def abortAnswer (ctx : Nat) (s : State) : State :=
  match s.mb.deferred.find? (fun d => d.ctx == ctx && d.op == 0x22) with
  | some d => endDeferred d stOK [] s
  | none => s

/-- Begin a deferred command: at most 4 on a channel and one for a context (R327, R328). Its time counts from its reading, the wait for the digest engine included
(R332). -/
def defer (k : Fin 6) (r : Req) (ctx : Nat) (args : List Nat) (data : List Byte) (s : State) : State :=
  { s with mb := { s.mb with deferred := s.mb.deferred ++ [⟨k.val, r.op, r.seq, ctx, (chan k s).heldAt.getD s.now, args, data⟩] } }

/-- Whether a deferred command may begin (R327, R328). -/
def mayDefer (k : Fin 6) (ctx : Nat) (s : State) : Bool :=
  (s.mb.deferred.filter (fun d => d.ch == k.val && d.op != 0x22)).length < 4 && (deferredOf ctx s).isNone

/-- End the deferred command of a context with ABORTED (R328). -/
def abortDeferred (ctx : Nat) (s : State) : State :=
  match deferredOf ctx s with
  | some d => endDeferred d stABORTED [] s
  | none => s

/-- The channels whose K24 side is a processor. -/
def chansOf (p : Proc) : List (Fin 6) := match p with | .coachman => [0, 1, 3] | .strongbox => [2, 4, 5]

/-- The committed H2K message is discarded and recorded (R316, R317). -/
def discardMsg (k : Fin 6) (s : State) : State :=
  let c := chan k s
  recordAbort k (c.msg.headD 0) (setChan k { c with msg := [], readN := 0, fullClr := some s.now } s)

/-- A channel whose peer enters RESET or DEAD (R316 to R318, R343): in Tandem its queue and its doorbells are cleared; in Solo a message
that its peer has begun is discarded, and everything else waits. -/
def chanDown (k : Fin 6) (s : State) : State :=
  let c := chan k s
  let s := setChan k { c with resps := [], notices := [], lost := chanCm k } s
  if tandemOn s then
    let s := if k.val == 3 || c.msg.isEmpty then s else discardMsg k s
    let s := if k.val == 3 then s else setChan k { chan k (h2kDrop k s) with dropped := some (s.now, c.words, c.overflow) } s
    let s := wr (MB.H2K_DB_PEND.PEND k) 0 s
    if k.val == 3 then s else bellHost k 4 s
  else if c.readN == 0 then s else discardMsg k s

/-- MAILBOX_ABORTED goes out before any other message of a channel, as soon as the queue is free (R318). -/
def reportAbort (k : Fin 6) (s : State) : State :=
  if !abortDue k s || !k2hFree k s then s else
  let w := noticeWords 0x11 0 [rd (MB.ABORT.OPCODE k) s + rd (MB.ABORT.SEQ k) s * 2 ^ 8 + rd (MB.ABORT.COUNT k) s * 2 ^ 16]
  postNotice k w (wr (MB.ABORT.VALID k) 0 s)

/-- The firmware of a processor starts: it keeps the doorbell masks of its channels at 0, the Coachman as the host of MBS1 also that one
(R305, R315), and reports what was discarded (R318). -/
def fwStart (p : Proc) (s : State) : State :=
  let s := if p = .coachman then wr (MB.K2H_DB_MASK.MASK 5) 0 s else s
  each (chansOf p) (fun k t => settle (reportAbort k (setChan k { chan k t with mask := 0 } t))) s

/-- Free every rein that the Coachman holds (R386). -/
def freeReins (s : State) : State := each (List.range 8) (fun j t => if reinHolder j t == 1 then reinSet j 0 t else t) s

/-- The Coachman's processor stops: the digest engine and its reins are free of it, a heartbeat that it owes counts no more, and what its firmware held is lost, the
commands that it had begun and a partition that one had reserved among it (R343, R386, R389, R428). -/
def coachmanLost (s : State) : State :=
  let s := wr GL_STATUS.CMD_READY 0 (freeReins (dgCoachmanDown s))
  let s := each (s.mb.deferred.filter (·.op == 0x10)) (fun d => wr (GL_CTX_STATUS.PARTITION d.ctx) 0) s
  { s with
    sb := { s.sb with hbSent := none }
    mb := { s.mb with
      deferred := s.mb.deferred.filter (fun d => !List.contains [0, 1, 3] d.ch), regionBase := 0, regionSize := 0, route := 0, mask := 0, noticesLost := 0 } }

/-- A processor's peer state on its channels (R314): what its entry into RESET or DEAD, and its return to READY, do. -/
def setPeer (p : Proc) (st : Nat) (s : State) : State :=
  let s := if p = .coachman && 2 ≤ st then coachmanLost s else s
  let s := each (chansOf p) (fun k t =>
    let old := rd (MB.H2K_STATUS.PEER k) t
    let t := wr (MB.H2K_STATUS.PEER k) st t
    settle (if 2 ≤ st && old != st then chanDown k t else t)) s
  if st < 2 then fwStart p s else s

/-- In a FAB_CLK cycle the firmware of a channel may read one more word of the message that it will serve; when it does is open (R315,
R554), and the last word is read as the request is served (log 14). -/
def fwRead (k : Fin 6) (s : State) : State :=
  let c := chan k s
  if c.readN + 1 < c.msg.length && reads k s then
    let v := free s
    if v.1 % 2 == 1 then setChan k { c with readN := c.readN + 1 } v.2 else v.2
  else s

/-- In a FAB_CLK cycle a processor that runs may come to wait for an event, or leave that wait; with one of its lines high it is awake
within 2 µs, here at once (R314, R315, R352, log 14). The Strongbox does so without its channels too, from step 6 of the boot on. -/
def fwRest (p : Proc) (s : State) : State :=
  let tgt : Target := if p = .coachman then .coachman else .strongbox
  let up := (chansOf p).all (fun k => peerUp k s)
  if s.tap.code == 0x10 || !(up || (p = .strongbox && s.sb.runs)) then s else
  let v := free s
  let busy := (chansOf p).any (fun k => h2kLine k s) || evLine tgt true s || evLine tgt false s || (p = .coachman && k2hLine 5 s)
  let st := if busy then 0 else v.1 % 2
  let s := if p = .strongbox then { v.2 with sb := { v.2.sb with rests := st == 1 } } else v.2
  if up then each (chansOf p) (fun k => wr (MB.H2K_STATUS.PEER k) st) s else s

/-- What the firmware of the two processors does in a cycle in which no command comes. -/
def fwCycle (s : State) : State := fwRest .strongbox (fwRest .coachman (each (chansOf .coachman ++ chansOf .strongbox) fwRead s))

/-- The sending side of a channel is the host port, or the Coachman's own path for MBS1, on which nothing is sent while its processor does not run (R305, R314). -/
def senderTo (k : Fin 6) (ofs : Nat) (sec : Bool) (f : State → State) (s : State) : State :=
  if k.val == 5 then (if cmUp s then f s else s) else hostTo (mbBase k.val + ofs) sec f s

/-- H2K_DATA_WRITE (R309). -/
def execH2kDataWrite (ch : Chan) (data : Word) (sec : Bool) (s : State) : Host.Outcome State Fault Refusal :=
  .next (senderTo ch 0 sec (h2kWrite ch data.toNat) s)

/-- H2K_COMMIT (R309). -/
def execH2kCommit (ch : Chan) (sec : Bool) (s : State) : Host.Outcome State Fault Refusal :=
  .next (senderTo ch 4 sec (h2kDoCommit ch) s)

/-- H2K_DISCARD (R309). -/
def execH2kDiscard (ch : Chan) (sec : Bool) (s : State) : Host.Outcome State Fault Refusal :=
  .next (senderTo ch 4 sec (h2kDrop ch) s)

/-- H2K_DB_SET (R312): bits 2 to 0 are ignored. -/
def execH2kDbSet (ch : Chan) (data : Word) (sec : Bool) (s : State) : Host.Outcome State Fault Refusal :=
  .next (senderTo ch 0xC sec (bellK24 ch.val (data.toNat / 8 * 8)) s)

/-- K2H_DATA_READ (R310). -/
def execK2hDataRead (ch : Chan) (sec : Bool) (s : State) : Host.Outcome State Fault Refusal :=
  .next (if ch.val == 5 then (if cmUp s then k2hRead ch s else s) else hostFrom (mbBase ch.val + 0x20) sec (k2hNext ch) (k2hRead ch) s)

/-- MB_CNT_CLR_CNT (R325). -/
def execMbCntClrCnt (ch : Chan) (sec : Bool) (s : State) : Host.Outcome State Fault Refusal :=
  .next (senderTo ch 0x3C sec (cntClr [MB.CNT.BAD_LENGTH ch, MB.CNT.WRITE_FULL ch, MB.CNT.UNDERRUN ch]) s)

/-- MB_CNT_CLR_ABORT (R325). -/
def execMbCntClrAbort (ch : Chan) (sec : Bool) (s : State) : Host.Outcome State Fault Refusal :=
  .next (senderTo ch 0x3C sec (cntClr [MB.ABORT.COUNT ch]) s)

/-- The channels that serve an opcode (R334, R390, R422, R477). -/
def servedOn (op : Nat) : List Nat :=
  if [0x01, 0x02, 0x03, 0x04, 0x10, 0x11, 0x12, 0x13, 0x14, 0x15, 0x16, 0x17, 0x20, 0x21, 0x22, 0x30, 0x31, 0x32, 0x40, 0x41].contains op then [0, 1]
  else if [0x80, 0x84, 0x88].contains op then [2]
  else if [0x81, 0x82, 0x83, 0x85, 0x86, 0x87, 0x89, 0x8B].contains op then [4]
  else if op == 0x8A then [5] else []

/-- BAD_OPCODE_REQUEST (R326): a request that its channel does not serve. A message that is no request is read, as every committed one is
(R315), and no answer is due. -/
def execBadOpcodeRequest (ch : Chan) (s : State) : Host.Outcome State Fault Refusal :=
  .next (match reqOf ch s with
    | none => s
    | some r =>
      if r.note then (if reads ch s then takeMsg ch s else s)
      else if ch.val != 3 && !(servedOn r.op).contains ch.val && reads ch s then reply ch r stBAD_OPCODE [] (takeMsg ch s) else s)

/-- DEFERRED_TIMEOUT (R327): LOAD_WAYBILL or LOAD_WEIGHTS, which wait for the Strongbox, 2 s after it was read ends with TIMEOUT, with no effect. -/
def execDeferredTimeout (ch : Chan) (seq : BitVec 8) (s : State) : Host.Outcome State Fault Refusal :=
  .next (match s.mb.deferred.find? (fun d => d.ch == ch.val && d.seq == seq.toNat && [0x15, 0x16].contains d.op && d.at_ + ms 2000 ≤ s.now) with
    | some d => endDeferred d stTIMEOUT [] s
    | none => s)

/-- NOTICE_DEQUEUE (R318, R343): the K2H queue has room, and MAILBOX_ABORTED, or the next response or notice goes out. -/
def execNoticeDequeue (ch : Chan) (s : State) : Host.Outcome State Fault Refusal :=
  let c := chan ch s
  .next (if !k2hFree ch s then s else if abortDue ch s then reportAbort ch s else
    match c.resps with
    | (_, w) :: r => k2hPost ch w (setChan ch { c with resps := r } s)
    | [] => match c.notices with
      | w :: r => postNotice ch w (setChan ch { c with notices := r } s)
      | [] => s)

/-- The Coachman takes the doorbells of MBS1's host side, whose part it plays (R305, R313). -/
def takeHostBells (s : State) : State :=
  settle (clearBits (MB.K2H_DB_PEND.PEND 5) (rd (MB.K2H_DB_PEND.PEND 5) s) s)

/-- The firmware takes the doorbells that it finds pending (R313, R315). On MB3, bit 2 + n acknowledges the summaries of
context n (R345, log 15). -/
def takeBells (k : Fin 6) (s : State) : State :=
  let p := rd (MB.H2K_DB_PEND.PEND k) s
  let s := if k.val == 3 then each allCtx (fun n t => if bit p (2 + cid n) then modCx n (fun c => { c with sumOpen := [] }) t else t) s else s
  settle (clearBits (MB.H2K_DB_PEND.PEND k) p s)

end Sys2Proof.Machine
end

