-- ==== Sys2Proof/Machine/Events.lean ====
section
/-! DEFINITION. The event controller's commands and the Lantern's (R349 to R367). -/

namespace Sys2Proof.Machine

/-- The lowest-numbered source that drives a target's line of a class (R353). -/
def claimable (tgt : Target) (fast : Bool) (s : State) : Option Nat := (List.range 128).find? (fun src => drives tgt fast src s)

/-- Start a group's hold-off timer in a class, unless its time is 0 (R355). -/
def holdStart (fast : Bool) (g : Nat) (s : State) : State :=
  let t := rd (EV_HOLD.TIME fast g) s
  if t == 0 || holdRuns fast g s then s
  else wr (EV_HOLD.RUNNING fast g) 1 { s with ev := { s.ev with holds := s.ev.holds ++ [⟨fast, g, s.now, t⟩] } }

/-- A claim takes a source: pending clears, active sets, the group's hold-off starts (R353). -/
def takeSource (tgt : Target) (fast : Bool) (src : Nat) (s : State) : State :=
  let s := dropMoved fast src (clearBits (pendF fast src) 1 s)
  let s := { s with ev := { s.ev with active := ⟨fast, src, tgt⟩ :: s.ev.active.filter (fun x => !(x.fast == fast && x.src == src && x.tgt == tgt)) } }
  holdStart fast (src / 8) s

/-- The claim of a target and class; 0 when no source qualifies (R353). -/
def claimWord (tgt : Target) (fast : Bool) (s : State) : Nat :=
  match claimable tgt fast s with | some src => 2 ^ 31 + src | none => 0

/-- The effect of a claim. -/
def claim (tgt : Target) (fast : Bool) (s : State) : State :=
  match claimable tgt fast s with | some src => takeSource tgt fast src s | none => s

/-- A completion (R354): the active bit clears and a level source is sampled again in the following cycle; a spurious one is counted, where the counter
has power. -/
def complete (tgt : Target) (fast : Bool) (src : Nat) (s : State) : State :=
  if isActive fast src tgt s then
    { s with ev := { s.ev with
      active := s.ev.active.filter (fun x => !(x.fast == fast && x.src == src && x.tgt == tgt))
      resample := if levelSources.contains src then src :: s.ev.resample.filter (· != src) else s.ev.resample } }
  else if domOn 20 s then
    wr EV_SPURIOUS_EOI.LAST_SRC src (inc (if fast then EV_SPURIOUS_EOI.FAST else EV_SPURIOUS_EOI.NORMAL) s)
  else s

/-- Whether host writes reach a source's bits in a bank (R356, R357). -/
def hostOwns (fast : Bool) (src : Nat) (s : State) : Bool := !evReserved src && pendRoute fast src s == 2 && pendHome fast src s

/-- EVENT_LATCH (R350): a rising edge of a source at the boundary of its unit. The software sources have no input, and a
level source is sampled. -/
def execEventLatch (src : BitVec 7) (s : State) : Host.Outcome State Fault Refusal :=
  .next (if levelSources.contains src.toNat then settleOne src.toNat s
    else if 112 ≤ src.toNat then s else raise src.toNat s)

/-- Whether a processor's firmware is awake to serve its sources: the Strongbox's runs from step 6 of the boot on, whether its channels have power
or not (R314, R315, R370, R555). -/
def fwAwake (p : Proc) (s : State) : Bool :=
  match p with
  | .coachman => awake 0 s
  | .strongbox => if s.sb.runs then !s.sb.rests else awake 2 s

/-- EV_CLAIM (R353). The firmware of a processor that is awake claims a normal source only when no
fast one drives its line (R352), and takes the doorbells of the channel whose line it serves (R315). -/
def execEvClaim (tgt : Target) (fast : Bool) (s : State) : Host.Outcome State Fault Refusal :=
  .next (match tgt with
    | .host => hostFrom (0x700080 + evBank fast) false (claimWord .host fast) (claim .host fast) s
    | t =>
      if !fwAwake (if t = .coachman then .coachman else .strongbox) s || (!fast && evLine t true s) then s else
      let s' := claim t fast s
      match claimable t fast s with
      | some src =>
        if h : src < 6 then takeBells ⟨src, h⟩ s'
        else if src == 6 then takeHostBells s'
        else if src == 104 && tgt = .coachman then { s' with flt := { s'.flt with cmWdog := none } }
        else if src == 105 && tgt = .strongbox then { s' with flt := { s'.flt with sbWdog := none } } else s'
      | none => s')

/-- EV_EOI (R354). -/
def execEvEoi (tgt : Target) (fast : Bool) (src : BitVec 7) (s : State) : Host.Outcome State Fault Refusal :=
  .next (match tgt with
    | .host => hostTo (0x700084 + evBank fast) false (complete .host fast src.toNat) s
    | t => complete t fast src.toNat s)

/-- EV_DISCARD (R357). -/
def execEvDiscard (fast : Bool) (src : BitVec 7) (s : State) : Host.Outcome State Fault Refusal :=
  .next (hostTo (0x700088 + evBank fast) false (fun t => if hostOwns fast src.toNat t then dropMoved fast src.toNat (clearBits (pendF fast src.toNat) 1 t) else t) s)

/-- A write of a pending bit: 1 sets it, and 0 clears it unless hardware has set it in the same cycle (R356). -/
def pendWrite (fast : Bool) (src : Nat) (b : Bool) (s : State) : State :=
  if b then wr (pendF fast src) 1 s else dropMoved fast src (clearBits (pendF fast src) 1 s)

/-- EV_PEND_WRITE (R356): the bits of the sources that the host reaches take the written values. -/
def execEvPendWrite (fast : Bool) (w : Fin 4) (data : Word) (s : State) : Host.Outcome State Fault Refusal :=
  .next (hostTo (0x700000 + evBank fast + 4 * w.val) false
    (each (List.range 32) (fun b t => if hostOwns fast (32 * w.val + b) t then pendWrite fast (32 * w.val + b) (bit data.toNat b) t else t)) s)

/-- HOLDOFF_EXPIRE (R355): a timer that has run its time ends, and its group drives its line again. -/
def execHoldoffExpire (fast : Bool) (g : Fin 16) (s : State) : Host.Outcome State Fault Refusal :=
  .next (if s.ev.holds.any (fun h => h.fast == fast && h.group == g.val && h.start + us h.time ≤ s.now) then
      wr (EV_HOLD.RUNNING fast g.val) 0 { s with ev := { s.ev with holds := s.ev.holds.filter (fun h => !(h.fast == fast && h.group == g.val)) } }
    else s)

/-- EV_CNT_CLR_SPURIOUS (R365). -/
def execEvCntClrSpurious (s : State) : Host.Outcome State Fault Refusal :=
  .next (hostTo 0x700094 false (cntClr [EV_SPURIOUS_EOI.NORMAL, EV_SPURIOUS_EOI.FAST, EV_SPURIOUS_EOI.LAST_SRC]) s)

/-- AON_SENSE_EDGE (R349): an accepted level of a pin that PD_AON senses. ENC_MOTION and MARK_SEEN fire at a change,
SVC_SELECT at a fall. -/
def execAonSenseEdge (pin : SensePin) (level : Bool) (s : State) : Host.Outcome State Fault Refusal :=
  .next (match pin with
    | .encA => if level == s.pins.encA then s else raise 96 { s with pins := { s.pins with encA := level, encAt := some s.now } }
    | .sheetMark => if level == s.pins.mark then s else raise 97 { s with pins := { s.pins with mark := level } }
    | .svcCsN =>
      let fell := s.pins.svcCsN && !level
      let s := { s with pins := { s.pins with svcCsN := level } }
      if fell then raise 99 s else s)

/-- LANTERN_HIT (R359): a watched source fires while the Lantern records; its domain must be on. -/
def execLanternHit (src : BitVec 7) (s : State) : Host.Outcome State Fault Refusal :=
  .next (if evReserved src.toNat || !domOpen (srcDom src.toNat) s then s else lanternRecord src.toNat s)

/-- LANTERN_ARM (R367): a write of 1 arms the Lantern and clears FIRST_VALID, a write of 0 disarms it. -/
def execLanternArm (on : Bool) (s : State) : Host.Outcome State Fault Refusal :=
  .next (hostTo 0xB00800 false (fun t =>
    let t := wrB PM_LAN_CTRL.ARM on t
    if on then wr PM_LAN_HIT.FIRST_VALID 0 t else t) s)

/-- The controller leaves reset: the Lantern sets its recorded sources pending, in the bank of the reset class, with
LANTERN_WAKE if there is one; it stops recording at the end of that cycle, so that a hit that comes in it is recorded and latched (R360). -/
def lanternReturn (s : State) : State :=
  let hits := (List.range 16).filter (fun e => rdB (PM_LAN_HIT.ENTRIES e) s)
  let s := each hits (fun e t =>
    let src := rd (PM_LAN_SEL.SRC (e / 4) (e % 4)) t
    wr (PM_LAN_HIT.ENTRIES e) 0 (wr (pendF (evFastReset src) src) 1 t)) s
  let s := if hits.isEmpty then s else wr (pendF false 101) 1 s
  { s with pw := { s.pw with lanternEnd := s.pw.lantern } }

/-- What the controller does at the begin of a cycle: the Lantern of the cycle before stops recording, with no hit left to give back (R360), and the level
sources that were completed in that cycle are sampled again (R354, R358). -/
def evCycle (s : State) : State :=
  let s := if s.pw.lanternEnd then { each (List.range 16) (fun e => wr (PM_LAN_HIT.ENTRIES e) 0) s with pw := { s.pw with lantern := false, lanternEnd := false } } else s
  each s.ev.resample (fun src t => if sampled src t then latch src t else t) { s with ev := { s.ev with resample := [] } }

end Sys2Proof.Machine
end

