-- ==== Sys2Proof/Machine/Aes.lean ====
section
/-! DEFINITION. AES-256 (FIPS 197) and the modes the spec names: XTS under IEEE 1619 (R223), GCM (R275, R346, R407) and
key wrap with padding (R405). PRESUMED (log 6): the standards' own text. -/

namespace Sys2Proof

/-- The AES substitution table. -/
def aesSbox : List Byte :=
  [0x63, 0x7c, 0x77, 0x7b, 0xf2, 0x6b, 0x6f, 0xc5, 0x30, 0x1, 0x67, 0x2b, 0xfe, 0xd7, 0xab, 0x76, 0xca, 0x82, 0xc9, 0x7d, 0xfa, 0x59, 0x47, 0xf0, 0xad, 0xd4, 0xa2, 0xaf, 0x9c, 0xa4, 0x72, 0xc0]
  ++ [0xb7, 0xfd, 0x93, 0x26, 0x36, 0x3f, 0xf7, 0xcc, 0x34, 0xa5, 0xe5, 0xf1, 0x71, 0xd8, 0x31, 0x15, 0x4, 0xc7, 0x23, 0xc3, 0x18, 0x96, 0x5, 0x9a, 0x7, 0x12, 0x80, 0xe2, 0xeb, 0x27, 0xb2, 0x75]
  ++ [0x9, 0x83, 0x2c, 0x1a, 0x1b, 0x6e, 0x5a, 0xa0, 0x52, 0x3b, 0xd6, 0xb3, 0x29, 0xe3, 0x2f, 0x84, 0x53, 0xd1, 0x0, 0xed, 0x20, 0xfc, 0xb1, 0x5b, 0x6a, 0xcb, 0xbe, 0x39, 0x4a, 0x4c, 0x58, 0xcf]
  ++ [0xd0, 0xef, 0xaa, 0xfb, 0x43, 0x4d, 0x33, 0x85, 0x45, 0xf9, 0x2, 0x7f, 0x50, 0x3c, 0x9f, 0xa8, 0x51, 0xa3, 0x40, 0x8f, 0x92, 0x9d, 0x38, 0xf5, 0xbc, 0xb6, 0xda, 0x21, 0x10, 0xff, 0xf3, 0xd2]
  ++ [0xcd, 0xc, 0x13, 0xec, 0x5f, 0x97, 0x44, 0x17, 0xc4, 0xa7, 0x7e, 0x3d, 0x64, 0x5d, 0x19, 0x73, 0x60, 0x81, 0x4f, 0xdc, 0x22, 0x2a, 0x90, 0x88, 0x46, 0xee, 0xb8, 0x14, 0xde, 0x5e, 0xb, 0xdb]
  ++ [0xe0, 0x32, 0x3a, 0xa, 0x49, 0x6, 0x24, 0x5c, 0xc2, 0xd3, 0xac, 0x62, 0x91, 0x95, 0xe4, 0x79, 0xe7, 0xc8, 0x37, 0x6d, 0x8d, 0xd5, 0x4e, 0xa9, 0x6c, 0x56, 0xf4, 0xea, 0x65, 0x7a, 0xae, 0x8]
  ++ [0xba, 0x78, 0x25, 0x2e, 0x1c, 0xa6, 0xb4, 0xc6, 0xe8, 0xdd, 0x74, 0x1f, 0x4b, 0xbd, 0x8b, 0x8a, 0x70, 0x3e, 0xb5, 0x66, 0x48, 0x3, 0xf6, 0xe, 0x61, 0x35, 0x57, 0xb9, 0x86, 0xc1, 0x1d, 0x9e]
  ++ [0xe1, 0xf8, 0x98, 0x11, 0x69, 0xd9, 0x8e, 0x94, 0x9b, 0x1e, 0x87, 0xe9, 0xce, 0x55, 0x28, 0xdf, 0x8c, 0xa1, 0x89, 0xd, 0xbf, 0xe6, 0x42, 0x68, 0x41, 0x99, 0x2d, 0xf, 0xb0, 0x54, 0xbb, 0x16]

/-- The table as one number, entry `i` in its byte `i`. -/
def aesTable : Nat := leNat aesSbox

/-- SubBytes on one byte. -/
def aesSub (b : Byte) : Byte := BitVec.ofNat 8 (aesTable / 256 ^ b.toNat)
/-- Inverse SubBytes on one byte. -/
def aesInvSub (b : Byte) : Byte := BitVec.ofNat 8 (aesSbox.idxOf b)

/-- Multiplication by x in GF(2^8). -/
def xtime (b : Byte) : Byte := if b.getMsbD 0 then (b <<< 1) ^^^ 0x1B else b <<< 1

/-- Multiplication in GF(2^8), the second factor below 16. -/
def gfMul (b : Byte) (n : Nat) : Byte :=
  let b2 := xtime b; let b4 := xtime b2; let b8 := xtime b4
  (if bit n 0 then b else 0) ^^^ (if bit n 1 then b2 else 0) ^^^ (if bit n 2 then b4 else 0) ^^^ (if bit n 3 then b8 else 0)

/-- The round keys of AES-256 as 4-byte words, newest first, extended `n` times. -/
def aesExpand : Nat → Nat → Byte → List (List Byte) → List (List Byte)
  | 0, _, _, ws => ws
  | n + 1, i, rc, ws =>
    let prev := ws.headD []
    let back := ws.getD 7 []
    let t := if i % 8 = 0 then
        xorBytes (((prev.drop 1) ++ prev.take 1).map aesSub) [rc, 0, 0, 0]
      else if i % 8 = 4 then prev.map aesSub else prev
    aesExpand n (i + 1) (if i % 8 = 0 then xtime rc else rc) (xorBytes back t :: ws)

/-- The 60 round-key words of a 32-byte key, in order. -/
def aesKeys (key : List Byte) : List (List Byte) :=
  (aesExpand 52 8 1 ((List.range 8).map (fun i => slice key (4 * i) 4)).reverse).reverse

/-- Round key `r`, 16 bytes. -/
def aesRk (ks : List (List Byte)) (r : Nat) : List Byte := (List.range 4).flatMap (fun i => ks.getD (4 * r + i) [])

/-- ShiftRows on the column-major state. -/
def aesShift (s : List Byte) : List Byte := (List.range 16).map (fun i => s.getD ((i + 4 * (i % 4)) % 16) 0)
/-- Inverse ShiftRows. -/
def aesInvShift (s : List Byte) : List Byte := (List.range 16).map (fun i => s.getD ((i + 12 * (i % 4)) % 16) 0)

/-- MixColumns with the given circulant row. -/
def aesMix (row : List Nat) (s : List Byte) : List Byte :=
  (List.range 16).map (fun i =>
    (List.range 4).foldl (fun a j => a ^^^ gfMul (s.getD (4 * (i / 4) + j) 0) (row.getD ((j + 4 - i % 4) % 4) 0)) 0)

/-- Rounds 1 to 13 of the cipher, then the last round. -/
def aesRounds (ks : List (List Byte)) : Nat → Nat → List Byte → List Byte
  | 0, r, s => xorBytes (aesShift (s.map aesSub)) (aesRk ks r)
  | n + 1, r, s => aesRounds ks n (r + 1) (xorBytes (aesMix [2, 3, 1, 1] (aesShift (s.map aesSub))) (aesRk ks r))

/-- AES-256 encryption of one 16-byte block. -/
def aesEnc (key blk : List Byte) : List Byte :=
  let ks := aesKeys key
  aesRounds ks 13 1 (xorBytes (slice blk 0 16) (aesRk ks 0))

/-- The inverse rounds from round 13 down. -/
def aesInvRounds (ks : List (List Byte)) : Nat → List Byte → List Byte
  | 0, s => xorBytes ((aesInvShift s).map aesInvSub) (aesRk ks 0)
  | n + 1, s => aesInvRounds ks n (aesMix [14, 11, 13, 9] (xorBytes ((aesInvShift s).map aesInvSub) (aesRk ks (n + 1))))

/-- AES-256 decryption of one 16-byte block. -/
def aesDec (key blk : List Byte) : List Byte :=
  let ks := aesKeys key
  aesInvRounds ks 13 (xorBytes (slice blk 0 16) (aesRk ks 14))

/-- The tweak multiplied by the primitive element, little-endian (IEEE 1619). -/
def xtsMul (t : List Byte) : List Byte :=
  let x := leNat t
  leBytes 16 (Nat.xor (2 * x % 2 ^ 128) (if bit x 127 then 0x87 else 0))

/-- The tweak advanced `n` blocks. -/
def xtsMulN : Nat → List Byte → List Byte
  | 0, t => t
  | n + 1, t => xtsMulN n (xtsMul t)

/-- One block of XTS under the key halves of R401: block `j` of data unit `unit` (R223). -/
def xtsBlock (enc : Bool) (key : List Byte) (unit j : Nat) (blk : List Byte) : List Byte :=
  let t := xtsMulN j (aesEnc (slice key 32 32) (leBytes 16 unit))
  xorBytes ((if enc then aesEnc else aesDec) (slice key 0 32) (xorBytes (slice blk 0 16) t)) t

/-- A 64-byte beat at byte address `addr` under XTS (R223): the data unit is addr[47:12], the block addr[11:4]. -/
def xtsBeat (enc : Bool) (key : List Byte) (addr : Nat) (beat : List Byte) : List Byte :=
  (List.range 4).flatMap (fun i => xtsBlock enc key (addr / 4096 % 2 ^ 36) (addr / 16 % 256 + i) (slice beat (16 * i) 16))

/-- Multiplication in GCM's field, bits numbered from the most significant. -/
def ghashMul (x y : BitVec 128) : Nat → BitVec 128 → BitVec 128 → BitVec 128
  | 0, z, _ => z
  | n + 1, z, v =>
    let i := 127 - n
    ghashMul x y n (if x.getMsbD i then z ^^^ v else z)
      (if v.getLsbD 0 then (v >>> 1) ^^^ (0xE1#128 <<< 120) else v >>> 1)

/-- GHASH over 16-byte blocks. -/
def ghash (h : BitVec 128) : Nat → BitVec 128 → List Byte → BitVec 128
  | 0, y, _ => y
  | f + 1, y, m =>
    if m.isEmpty then y
    else ghash h f (ghashMul (y ^^^ BitVec.ofNat 128 (beNat (slice m 0 16))) h 128 0 h) (m.drop 16)

/-- Bytes filled with zeros to a multiple of 16. -/
def pad16 (m : List Byte) : List Byte := m ++ List.replicate ((16 - m.length % 16) % 16) 0

/-- GCM's counter mode from counter block `ctr`. -/
def gcmCtr (key iv : List Byte) : Nat → Nat → List Byte → List Byte
  | 0, _, _ => []
  | f + 1, c, m =>
    if m.isEmpty then [] else
      xorBytes (m.take 16) (aesEnc key (iv ++ beBytes 4 c)) ++ gcmCtr key iv f (c + 1) (m.drop 16)

/-- The GCM tag over additional data and ciphertext, for a 96-bit IV. -/
def gcmTag (key iv aad ct : List Byte) : List Byte :=
  let h := BitVec.ofNat 128 (beNat (aesEnc key (List.replicate 16 0)))
  let d := pad16 aad ++ pad16 ct ++ beBytes 8 (8 * aad.length) ++ beBytes 8 (8 * ct.length)
  xorBytes (beBytes 16 (ghash h (d.length + 1) 0 d).toNat) (aesEnc key (iv ++ beBytes 4 1))

/-- GCM encryption or decryption of the data part. -/
def gcmCrypt (key iv m : List Byte) : List Byte := gcmCtr key iv (m.length + 1) 2 m

/-- The rounds of key wrap (RFC 3394) over A and the list of half blocks. -/
def kwRounds (key : List Byte) (n : Nat) : Nat → List Byte → List (List Byte) → List Byte × List (List Byte)
  | 0, a, r => (a, r)
  | f + 1, a, r =>
    let t := 6 * n - f
    let i := (t - 1) % n
    let b := aesEnc key (a ++ r.getD i [])
    kwRounds key n f (xorBytes (b.take 8) (beBytes 8 t)) (r.set i (b.drop 8))

/-- The inverse rounds of key wrap. -/
def kwInvRounds (key : List Byte) (n : Nat) : Nat → List Byte → List (List Byte) → List Byte × List (List Byte)
  | 0, a, r => (a, r)
  | t + 1, a, r =>
    let i := t % n
    let b := aesDec key (xorBytes a (beBytes 8 (t + 1)) ++ r.getD i [])
    kwInvRounds key n t (b.take 8) (r.set i (b.drop 8))

/-- Key wrap with padding of more than 8 bytes (RFC 5649). -/
def kwpWrap (key m : List Byte) : List Byte :=
  let p := m ++ List.replicate ((8 - m.length % 8) % 8) 0
  let n := p.length / 8
  let w := kwRounds key n (6 * n) ([0xA6, 0x59, 0x59, 0xA6] ++ beBytes 4 m.length) ((List.range n).map (fun i => slice p (8 * i) 8))
  w.1 ++ w.2.flatten

/-- Unwrapping; none where the integrity check fails. -/
def kwpUnwrap (key c : List Byte) : Option (List Byte) :=
  let n := c.length / 8 - 1
  if n < 2 ∨ c.length % 8 ≠ 0 then none else
  let w := kwInvRounds key n (6 * n) (slice c 0 8) ((List.range n).map (fun i => slice c (8 + 8 * i) 8))
  let len := beNat (w.1.drop 4)
  let p := w.2.flatten
  if w.1.take 4 = [0xA6, 0x59, 0x59, 0xA6] ∧ 8 * (n - 1) < len ∧ len ≤ 8 * n ∧ (p.drop len).all (· = 0)
  then some (p.take len) else none

end Sys2Proof
end

