-- ==== Sys2Proof/Machine/P384.lean ====
section
/-! DEFINITION. P-384 arithmetic and ECDSA verification (R168, R380, R399, R407, R469). PRESUMED (log 6): the curve of
the standard the spec names. Signing takes the nonce that its caller draws. -/

namespace Sys2Proof

/-- The field prime of P-384. -/
def p384P : Nat := 2 ^ 384 - 2 ^ 128 - 2 ^ 96 + 2 ^ 32 - 1
/-- The group order of P-384. -/
def p384N : Nat := 0xffffffffffffffffffffffffffffffffffffffffffffffffc7634d81f4372ddf581a0db248b0a77aecec196accc52973
/-- The curve coefficient b. -/
def p384B : Nat := 0xb3312fa7e23ee7e4988e056be3f82d19181d9c6efe8141120314088f5013875ac656398d8a2ed19d2a85c8edd3ec2aef
/-- The base point. -/
def p384G : Nat × Nat :=
  (0xaa87ca22be8b05378eb1c71ef320ad746e1d3b628ba79b9859f741e082542a385502f25dbf55296c3a545e3872760ab7,
   0x3617de4a96262c6f5d9e98bf9292dc29f8f41dbd289a147ce9da3113b5f0b8c00a60b1ce1d7e819d7a431d7c90ea0e5f)

/-- Modular power by squaring; `fuel` bounds the bits of the exponent. -/
def powMod (m : Nat) : Nat → Nat → Nat → Nat → Nat
  | 0, _, _, acc => acc
  | f + 1, b, e, acc => if e = 0 then acc else powMod m f (b * b % m) (e / 2) (if e % 2 = 1 then acc * b % m else acc)

/-- The inverse modulo a prime. -/
def invMod (m a : Nat) : Nat := powMod m 400 (a % m) (m - 2) 1

/-- Point addition; none is the point at infinity. -/
def ecAdd : Option (Nat × Nat) → Option (Nat × Nat) → Option (Nat × Nat)
  | none, q => q
  | p, none => p
  | some (x1, y1), some (x2, y2) =>
    let m := p384P
    if x1 = x2 ∧ (y1 + y2) % m = 0 then none else
    let l := if x1 = x2 then (3 * x1 * x1 + (m - 3)) * invMod m (2 * y1) % m
      else (y2 + m - y1) * invMod m (x2 + m - x1) % m
    let x3 := (l * l + 2 * m - x1 - x2) % m
    some (x3, (l * (x1 + m - x3) + m - y1) % m)

/-- Scalar multiplication by double and add; `fuel` bounds the bits. -/
def ecMul : Nat → Nat → Option (Nat × Nat) → Option (Nat × Nat) → Option (Nat × Nat)
  | 0, _, _, acc => acc
  | f + 1, k, p, acc => if k = 0 then acc else ecMul f (k / 2) (ecAdd p p) (if k % 2 = 1 then ecAdd acc p else acc)

/-- The public key of a scalar. -/
def ecPublic (d : Nat) : Option (Nat × Nat) := ecMul 385 d (some p384G) none

/-- Is the point on the curve? -/
def ecOnCurve (q : Nat × Nat) : Bool :=
  decide (q.1 < p384P) && decide (q.2 < p384P) && (q.2 * q.2 % p384P == (q.1 * q.1 * q.1 + (p384P - 3) * q.1 + p384B) % p384P)

/-- ECDSA verification over a SHA-384 digest. -/
def ecdsaVerify (q : Nat × Nat) (digest : List Byte) (r s : Nat) : Bool :=
  if r = 0 ∨ p384N ≤ r ∨ s = 0 ∨ p384N ≤ s ∨ ecOnCurve q = false then false else
  let w := invMod p384N s
  let u1 := beNat digest * w % p384N
  let u2 := r * w % p384N
  match ecAdd (ecMul 385 u1 (some p384G) none) (ecMul 385 u2 (some q) none) with
  | none => false
  | some (x, _) => x % p384N == r

/-- An ECDSA signature over a SHA-384 digest under scalar `d` with nonce `k`: r and s. -/
def ecdsaSign (d : Nat) (digest : List Byte) (k : Nat) : Nat × Nat :=
  match ecPublic k with
  | none => (0, 0)
  | some (x, _) => (x % p384N, invMod p384N k * (beNat digest + x % p384N * d) % p384N)

/-- The x-coordinate of ECDH with a public point (R407). -/
def ecdhX (d : Nat) (q : Nat × Nat) : List Byte :=
  match ecMul 385 d (some q) none with
  | none => List.replicate 48 0
  | some (x, _) => beBytes 48 x

/-- The uncompressed SEC1 encoding of a point (R399); all zeros for the point at infinity. -/
def ecEncode (q : Option (Nat × Nat)) : List Byte :=
  match q with
  | none => List.replicate 97 0
  | some (x, y) => [0x04] ++ beBytes 48 x ++ beBytes 48 y

/-- The point of a 97-byte encoding (R399). -/
def ecDecode (bs : List Byte) : Nat × Nat := (beNat (slice bs 1 48), beNat (slice bs 49 48))

/-- A key hash is the SHA-384 of the encoding (R399). -/
def keyHash (enc : List Byte) : List Byte := sha384 (slice enc 0 97)

/-- A scalar from 56 bytes of HKDF output, big-endian (R399). -/
def ecScalar (c : List Byte) : Nat := beNat c % (p384N - 1) + 1

end Sys2Proof
end

