-- ==== Sys2Proof/Machine/Arith.lean ====
section
/-! DEFINITION. What the carriages, the post unit and the Gig engine compute: passes and accumulators (R92 to R105), the post
functions (R106 to R112, R143 to R148), and the Gig functions (R150 to R154). Memories stand here as functions from addresses. -/

namespace Sys2Proof

/-- Contents of a memory, by byte address. -/
abbrev Bytes := Nat → Byte

/-- The little-endian value of `n` bytes of a memory. -/
def rdN (m : Bytes) (a n : Nat) : Nat := leNat ((List.range n).map (fun i => m (a + i)))

/-- What a computation counts (R104, R108, R109, R111). -/
structure CEv where
  acc : Nat
  out : Nat
  nan : Nat
  deriving DecidableEq, Repr

/-- Nothing counted. -/
def CEv.none : CEv := ⟨0, 0, 0⟩
/-- Counts together. -/
def CEv.add (a b : CEv) : CEv := ⟨a.acc + b.acc, a.out + b.out, a.nan + b.nan⟩
/-- The counts of an output path. -/
def CEv.ofNum (e : NumEv) : CEv := ⟨0, e.sat, e.nan⟩

namespace Machine

/-- The index pair of group `g` of output `o` of a sparse tap (R98). -/
def sparseIdx (m : Bytes) (w o g : Nat) : Nat × Nat :=
  let n := (m (w + 2048 + o * 8 + g / 2)).toNat / (if g % 2 == 0 then 1 else 16)
  (n % 4, n / 4 % 4)

/-- A sparse tap whose indices obey i0 < i1 (R98). -/
def tapOk (mode : Nat) (m : Bytes) (w : Nat) : Bool :=
  !(mode == 2 || mode == 4) || (List.range 64).all (fun o => (List.range 16).all (fun g => let i := sparseIdx m w o g; decide (i.1 < i.2)))

/-- The inputs and the weight bytes that meet in one cycle of an output (R92, R97, R98): input index and weight code. -/
def tapPairs (mode : Nat) (m : Bytes) (w o : Nat) : List (Nat × Nat) :=
  match mode with
  | 1 => (List.range 64).map (fun i => (i, (m (w + o * 32 + i / 2)).toNat / (if i % 2 == 0 then 1 else 16) % 16))
  | 5 => (List.range 16).map (fun i => (i, rdN m (w + (o * 16 + i) * 2) 2))
  | 2 | 4 => (List.range 16).flatMap (fun g =>
      let i := sparseIdx m w o g
      [(4 * g + i.1, (m (w + o * 32 + 2 * g)).toNat), (4 * g + i.2, (m (w + o * 32 + 2 * g + 1)).toNat)])
  | _ => (List.range 32).map (fun i => (i, (m (w + o * 32 + i)).toNat))

/-- The sum of a cycle's products of integers, from a vector at an address and a tap's weights (R104). -/
def tapInt (mode actFmt : Nat) (m wts : Bytes) (a o : Nat) : Int :=
  ((tapPairs mode wts 0 o).map (fun p => tyVal (actFmt % 2) (m (a + p.1)).toNat * (if mode == 1 then signed 4 p.2 else tyVal 0 p.2))).sum

/-- A cycle's products of floating values (R105). -/
def tapFloat (mode actFmt wtFmt : Nat) (m wts : Bytes) (a o : Nat) : List FVal :=
  (tapPairs mode wts 0 o).map (fun p =>
    if mode == 5 then fmul (decodeF fBF16 (rdN m (a + 2 * p.1) 2)) (decodeF fBF16 p.2)
    else fmul (decodeF (if actFmt == 3 then fE5M2 else fE4M3) (m (a + p.1)).toNat) (decodeF (if wtFmt == 1 then fE5M2 else fE4M3) p.2))

/-- The address of the activation vector of a position in a pass (R94). -/
def actAddr (r : RunDesc) (t : PassEnt) (pos : Nat) : Nat :=
  t.base + ((pos / max 1 r.rw * r.sy + t.oy) * r.pitch + pos % max 1 r.rw * r.sx + t.ox) * (modeShape r.mode).2.2.1

/-- One cycle of the MAC array for one output: the accumulator's new code from the vector at an address and the tap in a weight register,
and whether it saturated (R96, R104, R105). -/
def macOne (r : RunDesc) (m wts : Bytes) (a o acc : Nat) : Nat × Bool :=
  if r.mode ≤ 2 then let z := sat32 (signed 32 acc + tapInt r.mode r.actFmt m wts a o); (unsigned 32 z.1, z.2)
  else ((encodeF fFP32 false (rn32 (fsum (decodeF fFP32 acc :: tapFloat r.mode r.actFmt r.wtFmt m wts a o)))).1, false)

/-- The outputs of an accumulator position in a mode (R92). -/
def modeOuts (mode : Nat) : Nat := if mode == 5 then 32 else 64

/-- The element at row `y`, column `x` and channel `c` of a stored tensor (log 21): channel groups of 32, each of HEIGHT rows of PITCH pixels. -/
def tensorAt (base height pitch sz y x c : Nat) : Nat := base + ((c / 32 * height + y) * pitch + x) * 32 * sz + c % 32 * sz

/-- A table lookup after an output path (R110). -/
def tableOut (p : OutPath) (tables : List Byte) (tsel c : Nat) : Nat := if p.tableEn then (tables.getD (256 * tsel + c % 256) 0).toNat else c

/-- The bias and the multiplier or scale of channel `c` (R177), in the coach buffer or, for a Gig layer, in the Gig pages (R149). -/
def paramAt (buf : Bytes) (d : PostDesc) (c : Nat) : Nat × Nat := (rdN buf (d.param + 8 * c) 4, rdN buf (d.param + 8 * c + 4) 4)

/-- The output path applied to an integer or a floating value with a channel's parameters (R108, R109). -/
def applyPath (buf : Bytes) (d : PostDesc) (c : Nat) (x : Int) (f : FVal) : Nat × NumEv :=
  let p := paramAt buf d c
  if d.out.float then floatPath d.out f (decodeF fFP32 p.1) (decodeF fFP32 p.2) else intPath d.out x (signed 32 p.1) (p.2 % 65536)

/-- One REQUANT element from the banks' codes, carriage by carriage (R107). On the floating path an INT32 accumulator enters as the exact integer, before any
rounding to FP32: R109 gives it no form (DESIGN CHOICE, log 35). -/
def requantOne (float : Bool) (buf : Bytes) (d : PostDesc) (c : Nat) (codes : List Nat) : Nat × NumEv :=
  if float then
    let vs := codes.map (decodeF fFP32)
    let f := vs.tail.foldl (fun a b => rn32 (fsum [a, b])) (vs.headD (.fin false 0 0))
    applyPath buf d c (signed 32 (encodeF fFP32 false f).1) f
  else
    let x := (sat32 ((codes.map (signed 32)).sum)).1
    applyPath buf d c x (fofInt x)

/-- What a computation writes: address and bytes of each element, in order, and what it counts. -/
abbrev Writes := List (Nat × List Byte) × CEv

/-- Put elements together. -/
def collect (l : List (Nat × Nat × Nat × NumEv)) : Writes :=
  (l.map (fun e => (e.1, leBytes e.2.1 e.2.2.1)), CEv.ofNum (l.foldl (fun a e => a.add e.2.2.2) ⟨0, 0⟩))

/-- REQUANT of a drained bank (R107): `acc k pos o` is the code in the bank of carriage `k`; the carriages are those drained
together. Channel numbers follow the carriages: 64 outputs each in SINGLE and for each pair in SUM2 (log 21). -/
def requant (acc : Nat → Nat → Nat → Nat) (buf : Bytes) (tables : List Byte) (r : RunDesc) (d : PostDesc) (carriages : List Nat) : Writes :=
  let k := modeOuts r.mode
  let first := match d.op with | 0 => carriages.headD 0 | 1 => carriages.headD 0 / 2 | _ => 0
  let sz := tyBytes d.out.outTy
  collect ((List.range (r.rw * r.rh)).flatMap (fun p => (List.range k).filterMap (fun o =>
    let c := k * first + o
    if 32 * d.groups ≤ c then none else
    let v := requantOne (3 ≤ r.mode) buf d c (carriages.map (fun q => acc q p o))
    some (tensorAt (d.dst % 0x200000) d.height d.pitch sz (p / max 1 r.rw) (p % max 1 r.rw) c, sz, tableOut d.out tables d.tsel v.1, v.2))))

/-- BINARY (R112, R145, R146). -/
def binaryOne (d : PostDesc) (a b : Nat) : Nat × NumEv :=
  let za := signed 16 (bits d.w5 0 16)
  let zb := signed 16 (bits d.w5 16 16)
  if d.out.float then floatTail d.out (binFloat d.op (inputF d.inTy a za) (inputF d.inTy b zb))
  else intTail d.out (binInt d.op ((tyVal d.inTy a - za) * signed 16 (bits d.w4 0 16)) ((tyVal d.inTy b - zb) * signed 16 (bits d.w4 16 16)))

/-- WINDOW (R112, R143): MAX or SUM of the codes of a window, in raster order; each addition of the floating path rounds. R177 gives its input zero point no
field, and it is 0 here (DESIGN CHOICE, log 35). -/
def windowOne (buf : Bytes) (d : PostDesc) (c : Nat) (codes : List Nat) : Nat × NumEv :=
  let vs := codes.map (tyVal d.inTy)
  let fs := codes.map (fun k => inputF d.inTy k 0)
  let x := if d.op == 0 then vs.foldl max (vs.headD 0) else vs.sum
  let f := if d.op == 0 then fs.foldl fmax (fs.headD (.fin false 0 0)) else fs.tail.foldl (fun a b => rn32 (fsum [a, b])) (fs.headD (.fin false 0 0))
  applyPath buf d c x f

/-- A post function other than REQUANT over stored tensors (R106, R110): `a` and `b` are the memories that hold SRC_A and SRC_B. The
extent is that of the input; a WINDOW's output has its own extent, and the same pitch (log 21). CONVERT takes its input zero point from word 5 [15:0], which
R177 gives for BINARY alone, and FUNC 0 in a POST stage acts as a copy (DESIGN CHOICE, log 35). -/
def postRun (a b buf : Bytes) (tables : List Byte) (d : PostDesc) : Writes :=
  let si := tyBytes d.inTy
  let so := tyBytes d.out.outTy
  let kh := max 1 (bits d.w5 0 4)
  let kw := max 1 (bits d.w5 4 4)
  let sy := max 1 (bits d.w5 8 4)
  let sx := max 1 (bits d.w5 12 4)
  let win := d.func == 2
  let oh := if win then outExtent d.height kh 1 sy 0 0 else d.height
  let ow := if win then outExtent d.width kw 1 sx 0 0 else d.width
  let ina (y x c : Nat) : Nat := rdN a (tensorAt (d.srcA % 0x200000) d.height d.pitch si y x c) si
  let inb (y x c : Nat) : Nat := rdN b (tensorAt (d.srcB % 0x200000) d.height d.pitch si y x c) si
  let size := match d.func with | 3 => 1 | 5 => si | _ => so
  let one (y x c : Nat) : Nat × NumEv :=
    match d.func with
    | 1 => binaryOne d (ina y x c) (inb y x c)
    | 2 => windowOne buf d c ((List.range kh).flatMap (fun i => (List.range kw).map (fun j => ina (y * sy + i) (x * sx + j) c)))
    | 3 => ((tables.getD (256 * d.tsel + ina y x c % 256) 0).toNat, ⟨0, 0⟩)
    | 4 =>
      let p := paramAt buf d c
      floatPath d.out (inputF d.inTy (ina y x c) (signed 16 (bits d.w5 0 16))) (decodeF fFP32 p.1) (decodeF fFP32 p.2)
    | _ => (ina y x c, ⟨0, 0⟩)
  let tab (v : Nat) : Nat := if d.func == 3 || d.func == 5 then v else tableOut d.out tables d.tsel v
  collect ((List.range (32 * d.groups)).flatMap (fun c => (List.range oh).flatMap (fun y => (List.range ow).map (fun x =>
    let v := one y x c
    (tensorAt (d.dst % 0x200000) oh d.pitch size y x c, size, tab v.1, v.2)))))

/-- The element at row `y`, column `x` and channel `c` of a Gig tensor: rows of pixels, each with its channels together (log 21). -/
def gigAt (base w ch sz y x c : Nat) : Nat := base + ((y * w + x) * ch + c) * sz

/-- Chunks of 64. -/
def chunks64 {α : Type} : Nat → List α → List (List α)
  | 0, _ => []
  | f + 1, l => if l.isEmpty then [] else l.take 64 :: chunks64 f (l.drop 64)

/-- One output of a Gig convolution (R151): the accumulator's value and its saturations. Its input zero point is ZA of the post descriptor, word 5 [15:0], for
which R177 names BINARY alone (DESIGN CHOICE, log 35). -/
def gigConvOne (buf wts : Bytes) (l : GigLayer) (za : Int) (oy ox o : Nat) : Int × FVal × Nat :=
  let cg := l.cin / max 1 l.g
  let go := o / max 1 (l.cout / max 1 l.g)
  let rr := l.kh * l.kw * cg
  let sz := tyBytes l.inTy
  let code (ky kx c : Nat) : Option Nat :=
    match padSource l.padMode (((oy * l.sy + ky * l.dy : Nat) : Int) - l.padT) l.inH, padSource l.padMode (((ox * l.sx + kx * l.dx : Nat) : Int) - l.padL) l.inW with
    | some y, some x => some (rdN buf (gigAt l.src l.inW l.cin sz y x (go * cg + c)) sz)
    | _, _ => none
  let js := (List.range rr).map (fun j => (j, code (j / max 1 cg / max 1 l.kw) (j / max 1 cg % max 1 l.kw) (j % max 1 cg)))
  if l.inTy == 6 then
    let prod (e : Nat × Option Nat) : FVal :=
      fmul (match e.2 with | some c => decodeF fBF16 c | none => .fin false 0 0) (decodeF fBF16 (rdN wts (l.waddr + (o * rr + e.1) * 2) 2))
    (0, (chunks64 65 js).foldl (fun a ch => rn32 (fsum (a :: ch.map prod))) (.fin false 0 0), 0)
  else
    let prod (e : Nat × Option Nat) : Int :=
      (match e.2 with | some c => tyVal l.inTy c | none => za) * tyVal 0 (wts (l.waddr + o * rr + e.1)).toNat
    let a := (chunks64 65 js).foldl (fun (a : Int × Nat) ch => let z := sat32 (a.1 + (ch.map prod).sum); (z.1, a.2 + b2n z.2)) (0, 0)
    (a.1, fofInt a.1, a.2)

/-- The index of the largest value of a position (R153), and whether every input is NaN. -/
def argmaxOf (ty : Nat) (codes : List Nat) : Nat × Bool :=
  let vs := codes.map (fun c => if tyInt ty then fofInt (tyVal ty c) else decodeF (tyFmt ty) c)
  let best := vs.zipIdx.foldl (fun (m : Option (FVal × Nat)) v =>
    if v.1 = .nan then m else match m with | none => some v | some b => if fLt b.1 v.1 then some v else some b) none
  match best with | some b => (b.2, false) | none => (0, true)

/-- The neighbours and weights of an output along one dimension under BILINEAR (R154): i0, i1, w0, w1. -/
def bilinear (f o h : Nat) : Nat × Nat × Int × Int :=
  let n : Int := 2 * (o : Int) + 1 - f
  let i0 := n / (2 * f : Nat)
  let w1 := n % (2 * f : Nat)
  let cl (i : Int) : Nat := (min (max i 0) ((h : Int) - 1)).toNat
  (cl i0, cl (i0 + 1), (2 * f : Nat) - w1, w1)

/-- A value divided by a power of two, which is exact. -/
def fhalve (k : Nat) : FVal → FVal
  | .fin s m e => .fin s m (e - k)
  | v => v

/-- One output of BILINEAR resampling (R154); `ina y x` gives the input code. Its input zero point is ZA, as for a convolution (DESIGN CHOICE, log 35). -/
def bilinearOne (d : PostDesc) (ty f : Nat) (h w : Nat) (ina : Nat → Nat → Nat) (oy ox : Nat) : Nat × NumEv :=
  let by_ := bilinear f oy h
  let bx := bilinear f ox w
  let k := Nat.log2 (2 * f)
  if tyInt ty then
    let za := signed 16 (bits d.w5 0 16)
    let at_ (y x : Nat) : Int := tyVal ty (ina y x) - za
    let v := by_.2.2.1 * (bx.2.2.1 * at_ by_.1 bx.1 + bx.2.2.2 * at_ by_.1 bx.2.1) + by_.2.2.2 * (bx.2.2.1 * at_ by_.2.1 bx.1 + bx.2.2.2 * at_ by_.2.1 bx.2.1)
    intTail { d.out with sh := 2 * k } v
  else
    let val (y x : Nat) : FVal := decodeF (tyFmt ty) (ina y x)
    let mix (p q : Int × FVal) : FVal := fhalve k (rn32 (fsum [fmul (fofInt p.1) p.2, fmul (fofInt q.1) q.2]))
    let row (y : Nat) : FVal := mix (bx.2.2.1, val y bx.1) (bx.2.2.2, val y bx.2.1)
    convertOut d.out.outTy d.out.sat (mix (by_.2.2.1, row by_.1) (by_.2.2.2, row by_.2.1))

/-- A Gig layer (R150 to R154, R178): `d` is the post descriptor of its output path. A packed row of odd IN_W ends in a byte whose high nibble is 0, and the
next row starts at a new byte; a NEAREST-down layer whose input extent is no multiple of f has ceil(extent / f) outputs. The spec states neither (DESIGN CHOICE,
log 36). -/
def gigRun (buf wts : Bytes) (tables : List Byte) (l : GigLayer) (d : PostDesc) : Writes :=
  let si := tyBytes l.inTy
  let so := tyBytes d.out.outTy
  let za := signed 16 (bits d.w5 0 16)
  let ina (y x c : Nat) : Nat := rdN buf (gigAt l.src l.inW l.cin si y x c) si
  let tab (v : Nat) : Nat := tableOut d.out tables d.tsel v
  match l.func with
  | 0 =>
    let oh := outExtent l.inH l.kh l.dy l.sy l.padT l.padB
    let ow := outExtent l.inW l.kw l.dx l.sx l.padL l.padR
    let es := (List.range oh).flatMap (fun y => (List.range ow).flatMap (fun x => (List.range l.cout).map (fun o =>
      let a := gigConvOne buf wts l za y x o
      let v := applyPath wts d o a.1 a.2.1
      ((gigAt l.dst ow l.cout so y x o, so, tab v.1, v.2), a.2.2))))
    let r := collect (es.map (·.1))
    (r.1, { r.2 with acc := (es.map (·.2)).sum })
  | 1 =>
    let es := (List.range l.inH).flatMap (fun y => (List.range l.inW).map (fun x => (y, x, argmaxOf l.inTy ((List.range l.cin).map (ina y x)))))
    let nans := (es.filter (fun e => e.2.2.2)).length
    let idx (y x : Nat) : Nat := if x < l.inW then (argmaxOf l.inTy ((List.range l.cin).map (ina y x))).1 else 0
    let ws := if l.pack4 then
        (List.range l.inH).flatMap (fun y => (List.range (ceilDiv l.inW 2)).map (fun i =>
          (l.dst + y * ceilDiv l.inW 2 + i, leBytes 1 (idx y (2 * i) % 16 + 16 * (idx y (2 * i + 1) % 16)))))
      else es.map (fun e => (l.dst + e.1 * l.inW + e.2.1, leBytes 1 e.2.2.1))
    (ws, ⟨0, 0, nans⟩)
  | 2 =>
    let f := 2 ^ l.rsFactor
    let oh := if l.rsMode == 2 then ceilDiv l.inH f else f * l.inH
    let ow := if l.rsMode == 2 then ceilDiv l.inW f else f * l.inW
    collect ((List.range oh).flatMap (fun y => (List.range ow).flatMap (fun x => (List.range l.cin).map (fun c =>
      if l.rsMode == 1 then
        let v := bilinearOne d l.inTy f l.inH l.inW (fun p q => ina p q c) y x
        (gigAt l.dst ow l.cin so y x c, so, tab v.1, v.2)
      else
        let v := if l.rsMode == 2 then ina (f * y) (f * x) c else ina (y / f) (x / f) c
        (gigAt l.dst ow l.cin si y x c, si, v, ⟨0, 0⟩)))))
  | _ =>
    collect ((List.range l.inH).flatMap (fun y => (List.range l.inW).flatMap (fun x => (List.range l.cin).map (fun c =>
      let p := paramAt wts d c
      let v := floatPath d.out (inputF l.inTy (ina y x c) za) (decodeF fFP32 p.1) (decodeF fFP32 p.2)
      (gigAt l.dst l.inW l.cin so y x c, so, tab v.1, v.2)))))

end Machine

end Sys2Proof
end

