-- ==== Sys2Proof/Machine/Units.lean ====
section
/-! DEFINITION. What several families do to coaches, contexts and memory ports: partitions, scrubs, fences, slots, jobs' rows,
fault records (R226, R237 to R243, R256, R262, R483), and the issue of memory transactions (R202 to R208, R214). -/

namespace Sys2Proof.Machine

/-- The coaches of a context's partition, ascending (R241). -/
def partMask (n : Ctx) (s : State) : Nat := rd (GL_CTX_STATUS.PARTITION (cid n)) s
/-- The coaches of a mask. -/
def coachesOf (m : Nat) : List Coach := allCoach.filter (fun c => bit m c.val)
/-- The coach index of a coach in a partition (R180). -/
def coachIndex (m : Nat) (c : Coach) : Nat := popcount c.val m
/-- Coach `i` of a partition. -/
def coachAt (m i : Nat) : Option Coach := (coachesOf m)[i]?

/-- A context exists and is not being torn down. -/
def ctxLive (n : Ctx) (s : State) : Bool := let t := cxState n s; 1 ≤ t && t ≤ 4
/-- The members of a slice group in the order of their creation (R241, R244). -/
def membersOf (m : Nat) (s : State) : List Ctx :=
  sortBy (fun a b => (cx a s).order ≤ (cx b s).order) (allCtx.filter (fun n => cxState n s != 0 && partMask n s == m && (cx n s).order != 0))
/-- The live members. -/
def liveMembers (m : Nat) (s : State) : List Ctx := (membersOf m s).filter (fun n => ctxLive n s)
/-- Whether a context's state is on its coaches. -/
def resident (n : Ctx) (s : State) : Bool := rdB (GL_CTX_STATUS.RESIDENT (cid n)) s

/-- SLICED shows whether a slice group has two or more members, and GL_CTXn_SLICE its slice length (R267, R268). -/
def showSliced (s : State) : State :=
  each allCtx (fun n t =>
    let on := cxState n t != 0 && cxState n t < 5 && 2 ≤ (liveMembers (partMask n t) t).length
    wrs [(GL_CTX_STATUS.SLICED (cid n), b2n on), (GL_CTX_SLICE.LEN (cid n), if on then (cx n t).sliceLen else 0),
      (GL_CTX_SLICE.UNIT (cid n), if on then (cx n t).sliceUnit else 0)] t) s

/-- The ID of the context whose state a coach holds (R117). -/
def coachCtxId (c : Coach) (s : State) : Nat := rd (CA_STATUS.CTX c.val) s
/-- The state of a coach (R117). -/
def coachState (c : Coach) (s : State) : Nat := rd (CA_STATUS.STATE c.val) s
/-- The context running on a coach, in GL_COACH_OWN (R265). -/
def ownF (c : Coach) : Fld := if c.val < 8 then GL_COACH_OWN0.COACH c.val else GL_COACH_OWN1.COACH (c.val - 8)

/-- The busy and stall counters of a coach count (R115). -/
def profOn (c : Coach) (s : State) : Bool := rdB (CA_CFG.PROF_EN c.val) s && !confidential s
/-- PROF_ON follows the condition of R115 (R117, R157). -/
def showProf (s : State) : State :=
  let s := each allCoach (fun c t => wrB (CA_STATUS.PROF_ON c.val) (domOn c.val t && profOn c t) t) s
  wrB GG_STATUS.PROF_ON (domOn 16 s && rdB GG_CFG.PROF_EN s && !confidential s) s

/-- The scrub of a coach begins (R262 step 1): it holds nothing from here on. -/
def scrubStart (c : Coach) (s : State) : State :=
  let s := wrs [(CA_STATUS.STATE c.val, 4), (CA_STATUS.CTX c.val, 0), (ownF c, 0)] s
  setCo c { CoachSt.init with scrubAt := some s.now, ran := (co c s).ran } s

/-- The resident context of a coach: the one that takes it when its scrub has passed. -/
def residentOn (c : Coach) (s : State) : Option Ctx :=
  allCtx.find? (fun n => ctxLive n s && resident n s && bit (partMask n s) c.val)

/-- A context takes a coach. With a waybill loaded its entries begin there from now on: CTX and COACHk name it, and the coach has its post tables and awaits
a release (R117). Without one the coach is IDLE, and carries ID 0 (R237). -/
def coachTake (c : Coach) (n : Ctx) (s : State) : State :=
  if !rdB (GL_WB_STATUS.LOADED (cid n)) s then wrs [(CA_STATUS.STATE c.val, 0), (CA_STATUS.CTX c.val, 0), (ownF c, 0)] s else
  let i := coachIndex (partMask n s) c
  let s := modCx n (fun x => if h : i < 16 then { x with prog := x.prog.set i { x.prog[i] with endPrev := max x.prog[i].endPrev (arithNow s) } } else x) s
  let s := modCo c (fun x => { x with tables := (cx n s).tables }) s
  wrs [(CA_STATUS.STATE c.val, 1), (CA_STATUS.CTX c.val, cid n), (ownF c, cid n)] s

/-- A coach leaves SCRUB: to its resident context, or to IDLE. -/
def coachFree (c : Coach) (s : State) : State :=
  match residentOn c s with
  | some n => coachTake c n s
  | none => wrs [(CA_STATUS.STATE c.val, 0), (CA_STATUS.CTX c.val, 0), (ownF c, 0)] s

/-- Add to a 64-bit counter of cycles while profiling is on. -/
def profAdd (c : Coach) (f : Fld) (n : Nat) (s : State) : State := if profOn c s then add f n s else s

/-- What unlisted bytes of an SRAM read as (R262). -/
def zeroByte : Nat → Byte := fun _ => 0

/-- Whether a synchronisation condition holds, and since which enabled cycle (R173). -/
def syncDone (x : CoachSt) (kind tag : Nat) : Option Nat :=
  if kind == 2 then (x.gigEnds.find? (fun e => e.1 == tag)).map (·.2)
  else (x.xfers.find? (fun f => f.write == (kind == 1) && f.tag == tag)).bind (·.doneAt)

/-- The enabled cycle up to which the stage on a coach may have advanced: a full write queue holds it (R192). -/
def coachNow (c : Coach) (s : State) : Nat := ((co c s).run.bind (·.fullAt)).getD (arithNow s)

/-- The stage cycle beyond which an entry does not go: the point of a switch (R249), or the cycle in which two flits meet (R89). -/
def haltAt (r : RunSt) : Option Nat :=
  match r.stop, r.clash with | some p, some x => some (min p x) | some p, none => some p | none, x => x

/-- Pass the synchronisation points that the stage has reached and whose conditions hold: the run, the cycles waited that are to be counted, those
of them waited for fetches, and whether the stage waits at a point (R173, R192). Those at or beyond the point at which it stops are left. -/
def syncPass (img : List Byte) (x : CoachSt) (now : Nat) : Nat → RunSt → Nat → Nat → RunSt × Nat × Nat × Bool
  | 0, r, w, m => (r, w, m, false)
  | f + 1, r, w, m =>
    if stNSync img r.stage ≤ r.sync then (r, w, m, false) else
    let y := stSync img r.stage r.sync
    let here := r.beginAt + r.waits + y.1
    if now < here || (match haltAt r with | some p => decide (p ≤ y.1) | none => false) then (r, w, m, false) else
    match syncDone x y.2.1 y.2.2 with
    | none => let d := now - here - r.lateN; ({ r with lateN := now - here }, w + d, if y.2.1 == 0 then m + d else m, true)
    | some t =>
      let d := t - here - r.lateN
      syncPass img x now f { r with sync := r.sync + 1, waits := r.waits + (t - here), lateN := 0 } (w + d) (if y.2.1 == 0 then m + d else m)

/-- The synchronisation points of the entry on a coach, passed as far as they can be. -/
def syncRun (c : Coach) (r : RunSt) (s : State) : RunSt × Nat × Nat × Bool :=
  syncPass (cx r.ctx s).image (co c s) (coachNow c s) (stNSync (cx r.ctx s).image r.stage + 1) r 0 0

/-- Settle a coach's synchronisation points: the cycles waited so far are counted as late data (R114, R192). -/
def syncSettle (c : Coach) (s : State) : State :=
  match (co c s).run with
  | none => s
  | some r =>
    let z := syncRun c r s
    let s := modCo c (fun x => { x with run := some z.1 }) s
    profAdd c (CA_STALL_MEM.COUNT c.val) z.2.2.1 (add (GL_WB_LATE_CYC.COUNT (cid r.ctx)) z.2.1 s)

/-- The cycles since the entry on a coach began, less its waits. -/
def stageTime (c : Coach) (s : State) : Nat :=
  match (co c s).run with | none => 0 | some r => coachNow c s - r.beginAt - r.waits

/-- The stage cycle that the entry on a coach has reached, once its points are settled; a waiting stage stands at its point, and one that
is halted stands there (R89, R173, R249). -/
def stageCycle (c : Coach) (s : State) : Nat :=
  match (co c s).run with
  | none => 0
  | some r =>
    let img := (cx r.ctx s).image
    let t := if r.sync < stNSync img r.stage then min (stageTime c s) (stSync img r.stage r.sync).1 else stageTime c s
    match haltAt r with | some p => min p t | none => t

/-- The contents of a coach's SRAM: carriages 0 to 3, and 4 for the coach buffer; another location reads as zeros. -/
def coachMem (x : CoachSt) (k : Nat) : Bytes := fun a => if h : k < 5 then SMap.get zeroByte (x.sram[k]) (a % 0x200000) else 0

/-- The key of an accumulator. -/
def accKey (carriage bank pos out : Nat) : Nat := ((carriage * 2 + bank) * 512 + pos) * 64 + out

/-- The key of the first byte of a weight register. -/
def tapKey (carriage reg : Nat) : Nat := (carriage * 2 + reg) * 4096

/-- A weight register of a carriage (R85). -/
def coachTap (x : CoachSt) (k reg : Nat) : Bytes := fun i => SMap.get zeroByte x.wregs (tapKey k reg + i)

/-- Load chunks of 64 bytes of a tap, from chunk `q` on, into a weight register of some carriages through their weight ports (R86, R95). -/
def loadTap (ks : List Nat) (reg waddr q n : Nat) (x : CoachSt) : CoachSt :=
  { x with wregs := ks.foldl (fun m k => SMap.setList zeroByte m (tapKey k reg + 64 * q)
    ((List.range (64 * n)).map (fun i => coachMem x k (64 * (waddr + q) + i)))) x.wregs }

/-- A tap in the weight registers of some carriages breaks R98. -/
def tapBad (mode : Nat) (ks : List Nat) (reg : Nat) (x : CoachSt) : Bool := ks.any (fun k => !tapOk mode (coachTap x k reg) 0)

/-- One cycle of the MAC arrays of some carriages: position `q` of pass `p` (R94 to R96, R104); the accumulators start from 0 in the first pass (R95). The saturations are counted. -/
def macCycle (ks : List Nat) (d : RunDesc) (t : PassEnt) (reg p q : Nat) (x : CoachSt) : CoachSt × Nat :=
  let z := (ks.flatMap (fun k => (List.range (modeOuts d.mode)).map (fun o => (k, o)))).foldl (fun (z : SMap Nat × Nat) e =>
    let key := accKey e.1 d.bank q e.2
    let a := macOne d (coachMem x e.1) (coachTap x e.1 reg) (actAddr d t q) e.2 (if p == 0 then 0 else SMap.get (fun _ => 0) z.1 key)
    (SMap.set (fun _ => 0) z.1 key a.1, z.2 + b2n a.2)) (x.acc, 0)
  ({ x with acc := z.1 }, z.2)

/-- The tap whose weights load while pass `p` of the run runs: that of the next pass, or of the first pass of the next run (R95). -/
def tapAfter (img : List Byte) (r : RunSt) (p : Nat) : Option (RunDesc × PassEnt) :=
  let d := runDesc img r.stage r.runIdx
  if p + 1 < d.npass then some (d, passEnt img d (p + 1))
  else if r.runIdx + 1 < nRuns img r.stage then let e := runDesc img r.stage (r.runIdx + 1); some (e, passEnt img e 0)
  else none

/-- A coach's run in progress as its cycles are carried out: the coach, the entry, and the cycles with MACs and the saturations to be counted. -/
structure RunWork where
  coach : CoachSt
  run : RunSt
  busy : Nat
  sats : Nat
  deriving DecidableEq, Repr

/-- The chunks of a run's first tap that have loaded before the run begins: those for which the last pass of the run before left cycles, none in the first run
of a stage (R95). -/
def preloaded (img : List Byte) (r : RunSt) : Nat :=
  if r.runIdx == 0 then 0 else
  let d := runDesc img r.stage (r.runIdx - 1)
  max (d.rw * d.rh) (modeShape d.mode).2.2.2

/-- The cycles of a run before its first pass, in which the rest of its first tap loads, one chunk a cycle: a pass cannot start until its weights have loaded
(R86, R95). In the first run of a stage these are all L; another run has such cycles only where its mode loads longer than the last pass before it ran. -/
def runLead (img : List Byte) (r : RunSt) : Nat := (modeShape (runDesc img r.stage r.runIdx).mode).2.2.2 - preloaded img r

/-- The weights that load in cycle `q` of a pass, into the register that is free, and whether the tap that is then loaded whole breaks R98. -/
def loadCycle (img : List Byte) (r : RunSt) (p q : Nat) (x : CoachSt) : CoachSt × Bool :=
  match tapAfter img r p with
  | none => (x, false)
  | some (e, t) =>
    let l := (modeShape e.mode).2.2.2
    let ks := setBits 4 e.carriages
    if l ≤ q then (x, false) else
    let y := loadTap ks (1 - r.reg) t.waddr q 1 x
    (y, q + 1 == l && tapBad e.mode ks (1 - r.reg) y)

/-- One cycle of a run (R86, R94, R95, R98): its reads find the SRAM as it was before the cycle. A tap that breaks R98 is DESC_FAULT, and with
`satFault` the stage's first saturation is NUMERIC (R116). -/
def runCycle (img : List Byte) (satFault : Bool) (z : RunWork) : RunWork :=
  let r := z.run
  let d := runDesc img r.stage r.runIdx
  let ks := setBits 4 d.carriages
  let l := (modeShape d.mode).2.2.2
  let lead := runLead img r
  if r.step < lead then
    let x := loadTap ks r.reg (passEnt img d 0).waddr (preloaded img r + r.step) 1 z.coach
    { z with coach := x, run := { r with step := r.step + 1, fault := if r.step + 1 == lead && tapBad d.mode ks r.reg x then some 1 else none } }
  else
    let n := d.rw * d.rh
    let m := max n l
    let p := (r.step - lead) / m
    let q := (r.step - lead) % m
    let a := if q < n then macCycle ks d (passEnt img d p) r.reg p q z.coach else (z.coach, 0)
    let b := loadCycle img r p q a.1
    { coach := b.1, busy := z.busy + b2n (q < n && !ks.isEmpty), sats := z.sats + a.2
      run := { r with
        step := r.step + 1, reg := if q + 1 == m then 1 - r.reg else r.reg, satSeen := r.satSeen || a.2 != 0
        fault := if b.2 then some 1 else if satFault && a.2 != 0 && !r.satSeen then some 2 else none } }

/-- Cycles of a run, up to a fault that it meets. -/
def runCyclesOf (img : List Byte) (satFault : Bool) : Nat → RunWork → RunWork
  | 0, z => z
  | k + 1, z => if z.run.fault.isSome then z else runCyclesOf img satFault k (runCycle img satFault z)

/-- The stage cycle at which the run in progress ends (R95). -/
def runEnd (img : List Byte) (r : RunSt) : Nat := r.runAt + runCycles (runDesc img r.stage r.runIdx) + runLead img r

/-- A run is in progress on a coach. -/
def runOn (img : List Byte) (r : RunSt) : Bool := stKind img r.stage == 0 && r.runIdx < nRuns img r.stage && !r.stalled

/-- Carry out the cycles of the run in progress before a stage cycle. A run with a value outside its range, or an address beyond the SRAM, is DESC_FAULT,
and no pass of it runs (R94). -/
def runTo (c : Coach) (t : Nat) (s : State) : State :=
  match (co c s).run with
  | none => s
  | some r =>
    let img := (cx r.ctx s).image
    if !runOn img r || r.fault.isSome then s
    else if r.step == 0 && r.runAt ≤ t && !runOk img (runDesc img r.stage r.runIdx) then modCo c (fun x => { x with run := some { r with fault := some 1 } }) s
    else
      let z := runCyclesOf img (rdB (CA_CFG.SAT_FAULT c.val) s) (min t (runEnd img r) - (r.runAt + r.step)) ⟨co c s, r, 0, 0⟩
      let s := setCo c { z.coach with run := some z.run } s
      let s := if z.sats != 0 then markBit (CA_STATUS.SAT_SEEN c.val) (add (CA_NUMERIC.ACC_SAT c.val) z.sats s) else s
      profAdd c (CA_BUSY.COUNT c.val) z.busy s

/-- The cycles of a stall on a bank up to a stage cycle are counted (R113, R114). -/
def stallTo (c : Coach) (t : Nat) (s : State) : State :=
  match (co c s).run with
  | none => s
  | some r =>
    if !r.stalled then s else
    profAdd c (CA_STALL_POST.COUNT c.val) (t - r.runAt - r.stallN) (modCo c (fun x => { x with run := some { r with stallN := t - r.runAt } }) s)

/-- The cycles for which a full write queue has held a stage so far count as a wait (R192). -/
def queueRoll (c : Coach) (s : State) : State :=
  match (co c s).run with
  | none => s
  | some r =>
    match r.fullAt with
    | none => s
    | some t =>
      let d := arithNow s - t
      add (GL_WB_LATE_CYC.COUNT (cid r.ctx)) d (modCo c (fun y => { y with run := some { r with fullAt := some (arithNow s), waits := r.waits + d } }) s)

/-- Bring the stage on a coach up to the present cycle: its waits, its run and its stalls. -/
def coachSettle (c : Coach) (s : State) : State :=
  let s := syncSettle c (queueRoll c s)
  stallTo c (stageCycle c s) (runTo c (stageCycle c s) s)

/-- A coach stops at once (R256 step 1): its stage is abandoned where it stands, and its state stays where it is. -/
def coachStop (c : Coach) (s : State) : State :=
  let s := modCo c (fun x => { x with run := none, xfers := [], prefetch := [], swRes := 0 }) (coachSettle c s)
  if coachState c s == 2 || coachState c s == 3 then wr (CA_STATUS.STATE c.val) 1 s else s

/-- The cycles of the running slot so far are counted while profiling is on (R159); how many of them it waited for data no rule says (log 24). -/
def gigSettle (s : State) : State :=
  match s.gig.run with
  | none => s
  | some _ =>
    let d := min (arithNow s - s.gig.beginAt) s.gig.len - s.gig.busyN
    let s := { s with gig := { s.gig with busyN := s.gig.busyN + d } }
    if d == 0 || !rdB GG_CFG.PROF_EN s || confidential s then s else
    let f := free s
    add GG_WAIT.COUNT (f.1 % (d + 1)) (add GG_BUSY.COUNT d f.2)

/-- A context's loaded waybill gives the Gig engine a stage. -/
def gigLoaded (n : Ctx) (s : State) : Bool :=
  rdB (GL_WB_STATUS.LOADED (cid n)) s && (List.range (wbNStage (cx n s).image)).any (fun k => stKind (cx n s).image k == 2)

/-- STATE of the Gig engine (R157): RUN with a slot, SCRUB while pages are cleared, LOADED with a stage resident, else IDLE; FAULT and RESET stay. -/
def showGig (s : State) : State :=
  if 5 ≤ rd GG_STATUS.STATE s || !domOn 16 s then s else
  wr GG_STATUS.STATE (if s.gig.run.isSome then 2 else if !s.gig.scrubs.isEmpty then 4 else if allCtx.any (fun n => gigLoaded n s) then 1 else 0) s

/-- The engine is free again after a slot that ended in an enabled cycle. -/
def gigFree (t : Nat) (s : State) : State :=
  let g := s.gig
  let s := { s with gig := { g with run := none, len := t - g.beginAt, past := ((rd GG_STATUS.CTX s, g.beginAt, t) :: g.past).take 32 } }
  showGig (wrs [(GG_STATUS.CTX, 0), (GG_STATUS.COACH, 0)] s)

/-- The Gig engine's slot stops. -/
def gigStop (s : State) : State :=
  if s.gig.run.isNone then s else
  let s := gigSettle s
  gigFree (min (arithNow s) (s.gig.beginAt + s.gig.len)) s

/-- Every coach and the Gig engine are brought up to the present cycle. -/
def settleUnits (s : State) : State := gigSettle (each allCoach coachSettle s)

/-- Stop every coach that holds a context, and a Gig slot of it. -/
def stopUnits (n : Ctx) (s : State) : State :=
  let s := if s.gig.run.isSome && rd GG_STATUS.CTX s == cid n then gigStop s else s
  each (allCoach.filter (fun c => coachCtxId c s == cid n)) coachStop s

/-- Disarm every Timetable slot of a context (R256). -/
def disarmSlots (n : Ctx) (s : State) : State :=
  each (List.range 256) (fun k t => if rdB (TT_SLOT_ACT.ARMED k) t && rd (TT_SLOT_ACT.CTX k) t == cid n then wr (TT_SLOT_ACT.ARMED k) 0 t else t) s

/-- Disarm the RELEASE and DEADLINE slots of a context: its job is over (R339, R340). -/
def disarmJob (n : Ctx) (s : State) : State :=
  each (List.range 256) (fun k t =>
    if rdB (TT_SLOT_ACT.ARMED k) t && rd (TT_SLOT_ACT.CTX k) t == cid n && (rd (TT_SLOT_ACT.ACTION k) t == 1 || rd (TT_SLOT_ACT.ACTION k) t == 2)
    then wr (TT_SLOT_ACT.ARMED k) 0 t else t) s

/-- Disarm the slots of one action, context and row. -/
def disarmRow (act : Nat) (n : Ctx) (row : Nat) (s : State) : State :=
  each (List.range 256) (fun k t =>
    if rdB (TT_SLOT_ACT.ARMED k) t && rd (TT_SLOT_ACT.CTX k) t == cid n && rd (TT_SLOT_ACT.ACTION k) t == act && rd (TT_SLOT_ACT.ARG k) t == row % 65536
    then wr (TT_SLOT_ACT.ARMED k) 0 t else t) s

/-- Arm the lowest free slot (R54); without a free slot nothing is armed (log 22). -/
def armSlot (act ctx arg line : Nat) (s : State) : State :=
  match (List.range 256).find? (fun k => !rdB (TT_SLOT_ACT.ARMED k) s) with
  | none => s
  | some k =>
    let s := wrs [(TT_SLOT_TGT.LINE k, line), (TT_SLOT_ACT.ACTION k, act), (TT_SLOT_ACT.CTX k, ctx), (TT_SLOT_ACT.ARG k, arg), (TT_SLOT_ACT.ARMED k, 1)] s
    { s with tt := { s.tt with armLine := SMap.set (fun _ => 0) s.tt.armLine k (rd TT_LINE.LINE s) } }

/-- A transfer is done for its synchronisation point (R173, R215, R225, R226). -/
def xferEnd (t : Nat) (x : Xfer) : Xfer := { x with issued := x.total, arrived := x.total, doneAt := some (x.doneAt.getD t) }

/-- The memory ports fence a context (R226 step 1): no beat of it is issued any more, and what was not issued counts as complete. -/
def mpFence (n : Ctx) (s : State) : State :=
  if rdB (MP_FENCE.FENCING (cid n)) s then s else
  let s := wr (MP_FENCE.FENCING (cid n)) 1 s
  let s := each allCoach (fun c t => modCo c (fun x => { x with xfers := x.xfers.map (fun f => if f.ctx == cid n && f.issued < f.total then xferEnd (arithNow t) f else f) }) t) s
  modCx n (fun c => { c with fenceAt := some s.now }) s

/-- The outstanding transactions of a context on the ports. -/
def txsOf (id : Nat) (s : State) : List Tx := s.mp.txs.filter (fun t => t.ctx == id && !t.abandoned)

/-- The lowest free identifier of a port, when the port is up and may hold another transaction of the kind (R206, R208, R228; log 22). -/
def freeId (port : Nat) (write : Bool) (s : State) : Option Nat :=
  if !bit (rd MP_STATUS.PORT_UP s) port then none else
  let on := s.mp.txs.filter (fun t => t.port == port)
  if (on.filter (fun t => t.write == write)).length < (if write then 64 else 128) then
    (List.range 256).find? (fun i => !on.any (fun t => t.id == i))
  else none

/-- The port of an address (R202). -/
def portOf (addr : Nat) : Nat := addr / 1024 % 8

/-- REQ_CTX of a context and region (R214). EPOCH of traffic without a context, context 0, is 0: the spec gives no value (DESIGN CHOICE, log 36). -/
def reqCtx (id region : Nat) (s : State) : Nat :=
  id + 16 * region + 256 * (if id == 0 then 0 else rd (GL_CTX_EPOCH.EPOCH id) s % 256)

/-- The beats from an address to the end of its 1 KiB block (R202). -/
def toBlockEnd (addr : Nat) : Nat := (1024 - addr % 1024) / 64

/-- Present one burst on the port of its address (R202 to R205): none when the port has no identifier left. -/
def presentTx (write : Bool) (id region addr first beats : Nat) (dest : Dest) (stage row col : Nat) (data : List Byte) (s : State) : Option State :=
  match freeId (portOf addr) write s with
  | none => none
  | some i =>
    let tx : Tx := {
      port := portOf addr, id := i, write := write, ctx := id, region := region, addr := addr, beats := beats, waiting := if write then beats + 1 else 1, got := 0
      dest := dest, stage := stage, row := row, col := col, at_ := s.now, zero := false, abandoned := false, first := first, data := data }
    some (emit (.mem tx.port i write (reqCtx id region s) addr beats (Config.reqSec (reqCtx id region s)) data) { s with mp := { s.mp with txs := s.mp.txs ++ [tx] } })

/-- What leaves a port for an address: XTS ciphertext in an XTS region (R223), or the bytes. -/
def portData (xts : Bool) (key : List Byte) (addr : Nat) (data : List Byte) : List Byte :=
  if xts then (List.range (ceilDiv data.length 64)).flatMap (fun i => xtsBeat true key (addr + 64 * i) (slice data (64 * i) 64)) else data

/-- The write data of a transaction as they leave (R204): WD_DATA, WD_STRB and WD_LAST of each beat. -/
def writeData (data : List Byte) : List (List Byte × Nat × Bool) :=
  let k := ceilDiv data.length 64
  (List.range k).map (fun i => (slice data (64 * i) 64, 2 ^ 64 - 1, i + 1 == k))

/-- Bursts of a contiguous stretch (R202): address and beats. -/
def bursts : Nat → Nat → Nat → List (Nat × Nat)
  | 0, _, _ => []
  | f + 1, addr, beats => if beats == 0 then [] else let k := min beats (toBlockEnd addr); (addr, k) :: bursts f (addr + 64 * k) (beats - k)

/-- An outstanding transaction that a burst must not overlap (R207). -/
def overlaps (write : Bool) (a beats : Nat) (s : State) : Bool :=
  s.mp.txs.any (fun t => !t.abandoned && (write || t.write) && decide (t.addr < a + 64 * beats) && decide (a < t.addr + 64 * t.beats))

/-- A write of the block's own that still waits for the ports meets a burst: a read of what it writes comes after its write-done response (R207). -/
def writeWaits (a beats : Nat) (s : State) : Bool :=
  s.mp.own.any (fun o => o.write && decide (o.addr + 64 * o.done < a + 64 * beats) && decide (a < o.addr + 64 * o.beats))

/-- A request of the block itself joins those that wait for the ports; with PD_MP off nothing reaches them. -/
def ownPush (o : Own) (s : State) : State :=
  if o.beats == 0 || !domOn 18 s then s else { s with mp := { s.mp with own := s.mp.own ++ [o] } }

/-- The whole beats that hold `len` bytes from an address. -/
def beatsOf (addr len : Nat) : Nat := if len == 0 then 0 else (addr + len - 1) / 64 - addr / 64 + 1

/-- The block reads bytes of memory for itself, for a destination (R209): whole beats. -/
def ownReadFor (dest : Dest) (cls ctx region addr len row : Nat) (s : State) : State :=
  ownPush ⟨cls, false, ctx, region, addr / 64 * 64, beatsOf addr len, 0, [], 0xFF, row, dest⟩ s

/-- The same for firmware: what the beats hold comes with the command that needs them (log 34). -/
def ownRead (cls ctx region addr len : Nat) (s : State) : State := ownReadFor .other cls ctx region addr len 0 s

/-- The block writes bytes for itself: whole beats, the last filled with zeros (R204). -/
def ownWrite (cls ctx region addr stage row : Nat) (data : List Byte) (s : State) : State :=
  ownPush ⟨cls, true, ctx, region, addr, ceilDiv data.length 64, 0, data ++ List.replicate ((64 - data.length % 64) % 64) 0, stage, row, .other⟩ s

/-- The initiator takes a transfer of a context (R211), in transactions of at most 16 beats (R203). -/
def initPush (write : Bool) (ctx addr len : Nat) (data : List Byte) (s : State) : State :=
  let k := ceilDiv len 64
  let data := data ++ List.replicate (64 * k - data.length) 0
  { s with mp := { s.mp with inits := s.mp.inits ++ (bursts k addr k).map (fun b =>
    { id := none, write := write, ctx := ctx, addr := b.1, beats := b.2, data := if write then slice data (b.1 - addr) (64 * b.2) else [] }) } }

/-- Find a row of a context. -/
def rowFind (n : Ctx) (r : Nat) (s : State) : Option RowSt := (rowsOf n s).find? (fun x => x.row == r)

/-- Change a row of a context. -/
def modRow (n : Ctx) (r : Nat) (f : RowSt → RowSt) (s : State) : State :=
  modCx n (fun c => { c with job := c.job.map (fun j => { j with rows := j.rows.map (fun x => if x.row == r then f x else x) }) }) s

/-- The position of a row (R220, R221). -/
def rowPos (n : Ctx) (r : Nat) (s : State) : RowPos :=
  match rowFind n r s, (cx n s).job with
  | some x, some j => ⟨r, j.j0 + 256 * r, x.epoch, x.rowInSheet⟩
  | none, some j => ⟨r, j.j0 + 256 * r, rd TT_EPOCH.NUMBER s, r⟩
  | _, none => ⟨r, 256 * r, rd TT_EPOCH.NUMBER s, r⟩

/-- A fault as its detector names it (R482, R507). -/
structure FaultRec where
  code : Nat
  level : Nat
  ctx : Nat
  coach : Nat
  stage : Nat
  row : Nat
  deriving DecidableEq, Repr

/-- Write a fault's record (R483): the first of an episode clears both records, the second fills the other, more are counted. -/
def faultRecord (u : Nat) (f : FaultRec) (s : State) : State :=
  let line := rd TT_LINE.LINE s
  let first := !rdB (GL_FLT_STATE.RECOVERING u) s || !rdB (GL_FLT_P0.VALID u) s
  let s := inc (GL_FLT_CNT.TOTAL u) s
  if first then
    let s := clr [GL_FLT_S0.VALID u, GL_FLT_S0.CODE u, GL_FLT_S0.LEVEL u, GL_FLT_S0.CTX u, GL_FLT_S0.COACH u, GL_FLT_S1.STAGE u, GL_FLT_S1.ROW u,
      GL_FLT_S2.LINE u, GL_FLT_CNT.EXTRA u] s
    let s := wrs [(GL_FLT_P0.VALID u, 1), (GL_FLT_P0.CODE u, f.code), (GL_FLT_P0.LEVEL u, f.level), (GL_FLT_P0.CTX u, f.ctx), (GL_FLT_P0.COACH u, f.coach),
      (GL_FLT_P1.STAGE u, f.stage), (GL_FLT_P1.ROW u, f.row), (GL_FLT_P2.LINE u, line), (GL_FLT_STATE.RECOVERING u, 1)] s
    if h : u < 21 then { s with flt := { s.flt with level := s.flt.level.set u f.level, code := s.flt.code.set u f.code } } else s
  else if !rdB (GL_FLT_S0.VALID u) s then
    wrs [(GL_FLT_S0.VALID u, 1), (GL_FLT_S0.CODE u, f.code), (GL_FLT_S0.LEVEL u, f.level), (GL_FLT_S0.CTX u, f.ctx), (GL_FLT_S0.COACH u, f.coach),
      (GL_FLT_S1.STAGE u, f.stage), (GL_FLT_S1.ROW u, f.row), (GL_FLT_S2.LINE u, line)] s
  else inc (GL_FLT_CNT.EXTRA u) s

/-- The episode of a unit ends (R483). -/
def episodeEnd (u : Nat) (s : State) : State :=
  let s := wr (GL_FLT_STATE.RECOVERING u) 0 s
  settle (if h : u < 21 then { s with flt := { s.flt with level := s.flt.level.set u 0 } } else s)

/-- The notice FAULT (R344, R491). -/
def faultNotice (f : FaultRec) (s : State) : State :=
  notice 0x0B 0 f.ctx [f.code + f.level * 2 ^ 8 + f.ctx * 2 ^ 12 + f.coach * 2 ^ 16, f.stage, f.row] s

/-- The preemption point at which the entry on a coach has stopped (R249 step 2). -/
def heldAt (c : Coach) (s : State) : Option Nat :=
  match (co c s).run with
  | none => none
  | some r => r.stop.bind (fun p => if p ≤ stageCycle c s then some p else none)

/-- The next interior preemption point of a stage from a cycle on (R174, R195). -/
def nextPoint (img : List Byte) (stage from_ : Nat) : Option Nat :=
  if stKind img stage != 0 then none else
  ((List.range (stNPreempt img stage)).map (stPreempt img stage)).foldl (fun m p =>
    if from_ ≤ p then some (match m with | none => p | some q => min p q) else m) none

/-- Whether the entry on a coach waits at a synchronisation point. -/
def waitsNow (c : Coach) (s : State) : Bool := match (co c s).run with | none => false | some r => (syncRun c r s).2.2.2

/-- A switch begins: the stage on a coach runs on to its next preemption point. What it has waited at that point is late data (R192, R249). -/
def holdStage (c : Coach) (s : State) : State :=
  let s := syncSettle c s
  match (co c s).run with
  | none => s
  | some r =>
    let img := (cx r.ctx s).image
    let t := stageCycle c s
    match nextPoint img r.stage t with
    | none => s
    | some p =>
      let w := if waitsNow c s && p == t then arithNow s - (r.beginAt + r.waits + t) else 0
      modCo c (fun x => { x with run := some { r with stop := some p, waits := r.waits + w, lateN := 0 } }) s

/-- A switch is given up: the stage on a coach goes on from the point at which it stopped. -/
def unholdStage (c : Coach) (s : State) : State :=
  match (co c s).run with
  | none => s
  | some r =>
    let d := match heldAt c s with | some p => stageTime c s - p | none => 0
    modCo c (fun x => { x with run := some { r with stop := none, beginAt := r.beginAt + d }, xfers := x.xfers.map (fun f => { f with issueAt := f.issueAt + d }) }) s

/-- A scrub of a coach between two contexts holds back what carries a context's ID: that of the one that left, or of the one that is
to be restored (R264). -/
def scrubHeld (id : Nat) (s : State) : Bool :=
  id != 0 && allCoach.any (fun c => (co c s).scrubAt.isSome && ((co c s).scrubOld == id || (co c s).scrubNext == id ||
    (match ctxOf id with | some n => bit (cx n s).moving c.val && (cx n s).switchTo.isNone | none => false)))

/-- The address of the save area of a coach index (R249). -/
def saveAddr (n : Ctx) (i : Nat) (s : State) : Nat :=
  let cfg := (cx n s).cfg
  cfgBase cfg 5 + popcount 16 (partMask n s) * cfgSpillStride cfg + i * 2162688

/-- The control state of a coach that a context has saved. -/
def saveFind (n : Ctx) (c : Coach) (s : State) : Option SaveSt :=
  ((cx n s).saves.find? (fun v => v.1 == coachIndex (partMask n s) c)).map (·.2)

/-- Something tagged with a context leaves the block, unless a scrub holds it back (R264). -/
def emitTagged (id : Nat) (o : Out) (s : State) : State :=
  if scrubHeld id s then { s with mp := { s.mp with held := s.mp.held ++ [(id, o)] } } else emit o s

end Sys2Proof.Machine
end

