-- ==== Sys2Proof/Machine/Attest.lean ====
section
/-! DEFINITION. Measurement, the key ladder, key items, and signed statements (R374 to R376, R396 to R406, R413 to R415, R420). -/

namespace Sys2Proof.Machine

/-- Measurement register `k` (R395). -/
def mrBytes (k : Nat) (s : State) : List Byte := (List.range 12).flatMap (fun w => leBytes 4 (rd (SB_MR.VALUE k w) s))

/-- Extend measurement register `k` with a digest, for a context's ID or 0 (R374, R376). -/
def extendMR (k kind ctx : Nat) (d : List Byte) (s : State) : State :=
  let s := dgBorrow s
  let seq := s.sb.seq + 1
  let e := leBytes 4 (k + ctx * 2 ^ 4 + kind * 2 ^ 8) ++ leBytes 4 (if ctx == 0 then 0 else low32 (rd (GL_CTX_EPOCH.EPOCH ctx) s)) ++ leBytes 4 seq ++ leBytes 4 0
  let m := sha384 (mrBytes k s ++ e ++ d)
  let s := each (List.range 12) (fun w => wr (SB_MR.VALUE k w) (wordN m w)) s
  let s := { s with sb := { s.sb with seq := seq } }
  if rdB SB_LOG_STATUS.FULL s then inc SB_LOG_STATUS.UNLOGGED s
  else
    let n := rd SB_LOG_STATUS.ENTRIES s + 1
    wrs [(SB_LOG_STATUS.ENTRIES, n), (SB_LOG_STATUS.FULL, b2n (n == 1024))] { s with sb := { s.sb with log := s.sb.log ++ [e ++ d] } }

/-- The identity hash of the device (R403). -/
def idHash (s : State) : List Byte := keyHash s.sb.identity

/-- The test root (R398). -/
def testRoot : List Byte := (List.range 32).map (BitVec.ofNat 8)

/-- PRK_root of a ladder root (R399). -/
def ladder (root : List Byte) : List Byte := hkdfExtract (ascii "Hokuez K24 ladder") root
/-- A key that the ladder derives from a root under a label (R400). -/
def ladderKey (root : List Byte) (label : String) (n : Nat) : List Byte := hkdfExpand (ladder root) (ascii label) n
/-- A key that is derived from a memory root or a link key under a salt (R400). -/
def saltedKey (salt ikm info : List Byte) (n : Nat) : List Byte := hkdfExpand (hkdfExtract salt ikm) info n
/-- 48 zero bytes. -/
def zeroSalt : List Byte := List.replicate 48 0

/-- The KEK (R400). -/
def kek (s : State) : List Byte := ladderKey s.sb.root "K24 kek v1" 32
/-- The bundle MAC key. -/
def bundleMac (s : State) : List Byte := ladderKey s.sb.root "K24 bundle mac v1" 48
/-- The hello key. -/
def helloKey (s : State) : List Byte := saltedKey zeroSalt s.tl.linkKey (ascii "K24 link hello v1") 32
/-- The session key of a chain nonce. -/
def sessionKey (nonce : List Byte) (s : State) : List Byte := saltedKey nonce s.tl.linkKey (ascii "K24 link session v1") 32
/-- The memory key of a context at an epoch. -/
def memoryKey (n : Ctx) (epoch : Nat) (s : State) : List Byte :=
  saltedKey zeroSalt s.sb.memRoot (ascii "K24 memory v1" ++ leBytes 1 (cid n) ++ leBytes 8 epoch) 64
/-- The scalar of the key that signs statements (R400). -/
def statementScalar (s : State) : Nat :=
  ecScalar (saltedKey (mrBytes 0 s) (ladderKey s.sb.root "K24 alias seed v1" 48) (ascii "K24 alias v1") 56)

/-- Load the key of slot n: the epoch takes another step while the halves are equal (R224, R401). -/
def loadSlotKey (n : Ctx) (s : State) : State :=
  let e := rd (GL_CTX_EPOCH.EPOCH (cid n)) s
  let k := memoryKey n e s
  let again := slice k 0 32 == slice k 32 32
  let s := if again then wr (GL_CTX_EPOCH.EPOCH (cid n)) (e + 1) s else s
  let k := if again then memoryKey n (e + 1) s else k
  raise 67 (wr (MP_KEY_STATE.SLOT n.val) 1 (modCx n (fun c => { c with key := k }) s))

/-- A signature as two 48-byte big-endian numbers, with a nonce that is a free value (log 6). -/
def signWith (d : Nat) (digest : List Byte) (s : State) : List Byte × State :=
  let f := free s
  let g := ecdsaSign d digest (f.1 % (p384N - 1) + 1)
  (beBytes 48 g.1 ++ beBytes 48 g.2, f.2)

/-- A signature check: the signer's 97-byte encoding, the digest, and r and s as 48 little-endian bytes each (R380, R407, R469). -/
def sigOk (enc digest r s : List Byte) : Bool := enc.headD 0 == 4 && ecdsaVerify (ecDecode enc) digest (leNat r) (leNat s)

/-- The item of a working slot in a 160-byte slot, if its checks hold (R405, R406). -/
def keyItem (b : List Byte) (s : State) : Option (Nat × Nat × Nat × Nat × List Byte) :=
  let kind := bits (wordN b 1) 0 8
  let usage := bits (wordN b 1) 8 8
  let len := bits (wordN b 1) 16 8
  let want := if kind == 1 then (if usage == 1 then 48 else if usage == 2 || usage == 3 then 32 else 0) else if kind == 2 && (usage == 1 || usage == 2) then 96 else 0
  if wordN b 0 != 0x314C424B || want == 0 || len != want || rd SB_KEY_STATUS.OTP_COUNTER s < wordN b 3 then none
  else if kind == 1 then
    match kwpUnwrap (kek s) (slice b 16 (len + 24)) with
    | some m => if slice m 0 16 == slice b 0 16 && m.length == 16 + len then some (kind, usage, wordN b 2, wordN b 3, slice m 16 len) else none
    | none => none
  else if hmac384 (bundleMac s) (slice b 0 112) == slice b 112 48 then some (kind, usage, wordN b 2, wordN b 3, slice b 16 96)
  else none

/-- Load an accepted item (R404, R406, R422): the slot, or none when all are in use; an item of a generation that is not higher is
ignored and counted. -/
def loadItem (x : Nat × Nat × Nat × Nat × List Byte) (s : State) : Option Nat × State :=
  let (kind, usage, id, gen, key) := x
  match s.sb.keys.find? (fun k => k.kind == kind && k.keyId == id) with
  | some k =>
    if gen ≤ k.gen then (some k.slot, inc SB_KEY_STATUS.STALE s)
    else (some k.slot, { s with sb := { s.sb with keys := ⟨k.slot, kind, usage, id, gen, key⟩ :: s.sb.keys.filter (fun y => y.slot != k.slot) } })
  | none =>
    match (List.range 16).find? (fun i => !s.sb.keys.any (fun k => k.slot == i)) with
    | none => (none, s)
    | some i => (some i, inc SB_KEY_STATUS.WORK_SLOTS { s with sb := { s.sb with keys := ⟨i, kind, usage, id, gen, key⟩ :: s.sb.keys } })

/-- The working key of a usage and identifier. -/
def workKey (kind usage id : Nat) (s : State) : Option (List Byte) :=
  (s.sb.keys.find? (fun k => k.kind == kind && k.usage == usage && k.keyId == id)).map (·.key)

/-- Head of a CBOR item in deterministic encoding (R413). -/
def cborHead (major n : Nat) : List Byte :=
  if n < 24 then beBytes 1 (major * 32 + n)
  else if n < 2 ^ 8 then beBytes 1 (major * 32 + 24) ++ beBytes 1 n
  else if n < 2 ^ 16 then beBytes 1 (major * 32 + 25) ++ beBytes 2 n
  else if n < 2 ^ 32 then beBytes 1 (major * 32 + 26) ++ beBytes 4 n
  else beBytes 1 (major * 32 + 27) ++ beBytes 8 n
/-- A CBOR unsigned integer. -/
def cborUint (n : Nat) : List Byte := cborHead 0 n
/-- A CBOR byte string. -/
def cborBytes (b : List Byte) : List Byte := cborHead 2 b.length ++ b
/-- A CBOR array. -/
def cborArray (l : List (List Byte)) : List Byte := cborHead 4 l.length ++ l.flatten
/-- A CBOR map of the entries' keys and values, keys ascending. -/
def cborMap (l : List (Nat × List Byte)) : List Byte := cborHead 5 l.length ++ l.flatMap (fun e => cborUint e.1 ++ e.2)

/-- Flags of a statement (R414 key 9). -/
def statementFlags (s : State) : Nat :=
  rd GL_STATUS.DEBUG_UNLOCKED s + 2 * rd GL_STATUS.CONFIDENTIAL s + 4 * b2n s.pins.tandem + 8 * rd SB_BOOT.SETTINGS_DEFAULT s + 16 * rd SB_KEY_STATUS.MRK_SUBST s +
    32 * rd SB_LOG_STATUS.FULL s + 64 * rd SB_KEY_STATUS.TEST_ROOT s + 128 * b2n (rd SB_BOOT.FALLBACK s != 0)

/-- The certificate chain reference (R414 key 4, R452): the identification words as sensed, or zeros for a blank region. -/
def chainRef (s : State) : List Byte :=
  if rd (OTP_LOCK.LOCKED 1) s == 1 then (List.range 4).flatMap (fun i => leBytes 4 (rd (OTP_SHADOW.DATA (0x30 + i)) s)) else List.replicate 16 0

/-- The payload of a statement (R414). -/
def statementPayload (ctx : Option Ctx) (final : Bool) (nonce : List Byte) (s : State) : List Byte :=
  cborMap ([(1, cborUint 0x484D0024), (2, cborBytes (idHash s)), (3, cborBytes s.sb.identity), (4, cborBytes (chainRef s)),
    (5, cborBytes (ecEncode (ecPublic s.sb.signKey))), (6, cborBytes s.sb.endorse), (7, cborUint s.sb.version[0]), (8, cborUint (rd SB_STATUS.LIFECYCLE s)),
    (9, cborUint (statementFlags s)), (10, cborBytes s.sb.bootId), (11, cborArray ((List.range 8).map (fun k => cborBytes (mrBytes k s)))),
    (12, cborArray [cborUint (rd SB_LOG_STATUS.ENTRIES s), cborUint (rd SB_LOG_STATUS.UNLOGGED s)]), (13, cborBytes nonce),
    (14, cborBytes (ecEncode (ecPublic s.sb.transport)))] ++
    (match ctx with
    | none => []
    | some n =>
      let l := (cx n s).ledger
      [(15, cborArray [cborUint (cid n), cborUint (rd (GL_CTX_EPOCH.EPOCH (cid n)) s), cborBytes l.head, cborUint (rd (SB_LEDGER_CNT.RECORDS (cid n)) s),
        cborUint l.count, cborUint l.lastRow, if final then [0xF5] else [0xF4]])]))

/-- A statement: tagged COSE_Sign1 under the statement key (R413). A MARGINAL or FAILED identification region raises OTP_ALARM (R452). -/
def statement (ctx : Option Ctx) (final : Bool) (nonce : List Byte) (s : State) : List Byte × State :=
  let prot := cborMap [(1, cborHead 1 34), (4, cborBytes (slice (keyHash (ecEncode (ecPublic s.sb.signKey))) 0 16))]
  let pay := statementPayload ctx final nonce s
  let tbs := cborArray [cborHead 3 10 ++ ascii "Signature1", cborBytes prot, cborBytes [], cborBytes pay]
  let g := signWith s.sb.signKey (sha384 tbs) s
  let s := if 3 ≤ rd (OTP_RGN0.STATE 1) s then raise 90 g.2 else g.2
  (cborHead 6 18 ++ cborArray [cborBytes prot, cborHead 5 0, cborBytes pay, cborBytes g.1], s)

/-- The final checkpoint of an END entry is signed and stored (R420). -/
def finalCheckpoint (n : Ctx) (s : State) : State :=
  let nonce := (cx n s).ledger.nonce
  let g := statement (some n) true (if nonce.isEmpty then List.replicate 8 0 else nonce) s
  wr (SB_LEDGER_STATE.FINAL_HELD (cid n)) 1 (modCx n (fun c => { c with ledger := { c.ledger with final := g.1 } }) g.2)

end Sys2Proof.Machine
end

