-- ==== Sys2Proof/Machine/Ledger.lean ====
section
/-! DEFINITION. The sheet ledgers (R416 to R420). -/

namespace Sys2Proof.Machine

/-- The ledger starts from its genesis when the context is created (R416). -/
def ledgerOpen (n : Ctx) (s : State) : State :=
  let g := sha384 (ascii "K24 ledger v1" ++ idHash s ++ leBytes 1 (cid n) ++ leBytes 8 (rd (GL_CTX_EPOCH.EPOCH (cid n)) s))
  let s := modCx n (fun c => { c with ledger := ⟨true, g, 0, 0, 0, false, [], []⟩ }) s
  wrs [(SB_LEDGER_CNT.RECORDS (cid n), 0), (SB_LEDGER_STATE.OPEN (cid n), 1), (SB_LEDGER_STATE.FINAL_HELD (cid n), 0)] s

/-- Absorb one entry (R416, R417). -/
def ledgerAbsorb (n : Ctx) (type : Nat) (body : List Byte) (s : State) : State :=
  let s := modCx n (fun c => { c with ledger := { c.ledger with head := sha384 (c.ledger.head ++ leBytes 1 type ++ body), count := c.ledger.count + 1 } }) s
  if type == 2 then inc (SB_LEDGER_CNT.RECORDS (cid n)) s else s

/-- The START entry (R417). -/
def ledgerStart (n : Ctx) (j0 : Nat) (s : State) : State :=
  ledgerAbsorb n 1 (leBytes 8 j0 ++ (List.range 8).flatMap (fun k => mrBytes k s)) s

/-- The END entry, with its checkpoint (R417, R420): cause 0 STOP, 1 ABORT, 2 TEARDOWN. -/
def ledgerEnd (n : Ctx) (cause : Nat) (s : State) : State :=
  finalCheckpoint n (ledgerAbsorb n 4 (leBytes 8 (rd TT_LINE.LINE s) ++ leBytes 1 cause) s)

/-- Absorb a whole row in column order, with its RASTER entry for variable data, through the digest engine with its priority (R418, R419,
R429). -/
def ledgerRow (n : Ctx) (r : RowSt) (raster : Option (List Byte)) (s : State) : State :=
  let s := modCx n (fun c => { c with ledger := { c.ledger with lastRow := r.row } }) (dgBorrow s)
  let s := match raster with
    | some d => ledgerAbsorb n 3 (leBytes 4 r.epoch ++ leBytes 2 r.rowInSheet ++ d) s
    | none => s
  each (sortBy (fun a b => a.column ≤ b.column) r.recs) (fun x t => ledgerAbsorb n 2 x.data t) s

end Sys2Proof.Machine
end

