-- ==== Sys2Proof/Machine/LinkOps.lean ====
section
/-! DEFINITION. Frames of the Tandem link: layout, sealing, sending (R275 to R281, R287, R291, R293). -/

namespace Sys2Proof.Machine

/-- A link port's hidden state. -/
def lport (p : LinkPort) (s : State) : PortSt := s.tl.ports[p]
/-- Change a link port. -/
def modPort (p : LinkPort) (f : PortSt → PortSt) (s : State) : State := { s with tl := { s.tl with ports := s.tl.ports.set p (f (lport p s)) } }
/-- The state field of a port (R298). -/
def portF (p : LinkPort) : Fld := if p.val == 0 then TL_STATUS.UP_STATE else TL_STATUS.DN_STATE
/-- The state of a port: 0 DOWN, 1 TRAINING, 2 UP, 3 REJECTED. -/
def portState (p : LinkPort) (s : State) : Nat := rd (portF p) s
/-- The position in use (R281). -/
def linkPos (s : State) : Nat := if rdB TL_CFG.POS_OVR_EN s then rd TL_CFG.POS_OVR s else s.pins.pos
/-- HEAD shows whether this block's position is 0 (R298). -/
def showHead (s : State) : State := wrB TL_STATUS.HEAD (linkPos s == 0) s
/-- The link controller works: Tandem configuration, with PD_TL open (R270). -/
def linkOn (s : State) : Bool := tandemOn s && domOpen 19 s

/-- The header of a frame (R275). -/
def frameHeader (type src dst : Nat) (bcast : Bool) (dir ctx len arg : Nat) (iv : List Byte) : List Byte :=
  leBytes 4 (type + src * 2 ^ 8 + dst * 2 ^ 14 + b2n bcast * 2 ^ 20 + dir * 2 ^ 21 + ctx * 2 ^ 22) ++ leBytes 4 len ++ leBytes 4 arg ++ leBytes 4 0 ++
    iv ++ leBytes 4 0

/-- Seal a frame: the payload encrypted, the header as additional data, the CRC over every byte before it (R275). -/
def sealFrame (key header iv payload : List Byte) : LinkFrame :=
  let ct := gcmCrypt key iv payload
  let tag := gcmTag key iv header ct
  ⟨header, ct, tag, (crc32 (header ++ ct ++ tag)).toNat⟩

/-- Fields of a received header. -/
def frType (f : LinkFrame) : Nat := bits (wordN f.header 0) 0 8
/-- SRC_POS. -/
def frSrc (f : LinkFrame) : Nat := bits (wordN f.header 0) 8 6
/-- DST_POS. -/
def frDst (f : LinkFrame) : Nat := bits (wordN f.header 0) 14 6
/-- BCAST. -/
def frBcast (f : LinkFrame) : Bool := bit (wordN f.header 0) 20
/-- CTX. -/
def frCtx (f : LinkFrame) : Nat := bits (wordN f.header 0) 22 4
/-- LEN. -/
def frLen (f : LinkFrame) : Nat := bits (wordN f.header 1) 0 16
/-- ARG. -/
def frArg (f : LinkFrame) : Nat := wordN f.header 2
/-- The IV. -/
def frIv (f : LinkFrame) : List Byte := slice f.header 16 12
/-- The count of a session frame's IV (R279). -/
def frCnt (f : LinkFrame) : Nat := leNat (slice f.header 20 8)
/-- A frame's plaintext under a key, if its tag is right (R280). -/
def frPlain (f : LinkFrame) (key : List Byte) : Option (List Byte) :=
  if gcmTag key (frIv f) f.header f.payload = f.tag then some (gcmCrypt key (frIv f) f.payload) else none

/-- The place of a position in the chain table. -/
def tableIdx (pos : Nat) (s : State) : Option Nat := s.tl.table.findIdx? (fun e => e.1 == pos)

/-- A port leads to a block of the chain table (R282). -/
def portUsed (p : LinkPort) (s : State) : Bool :=
  match tableIdx (linkPos s) s with
  | none => false
  | some i => rdB TL_STATUS.RING s || (if p.val == 0 then 0 < i else i + 1 < s.tl.table.length)

/-- Send a frame on a port: at once when it is UP; one for a port of the chain that is not UP is held (R274, R293), and nothing is queued for a port at an
end of the chain (log 23). A scrub holds back the frames of its contexts (R264), and while the block is fenced bulk frames are dropped (R276, R488). -/
def portSend (p : LinkPort) (f : LinkFrame) (s : State) : State :=
  if rdB GL_STATUS.FENCED s && frType f < 0x20 then s
  else if portState p s == 2 then emitTagged (frCtx f) (.link p.val f) (modPort p (fun x => { x with idles := false }) s)
  else if !portUsed p s then s
  else if frType f == 0x20 then modPort p (fun x => { x with held := x.held ++ [f] }) s
  else modPort p (fun x => { x with queue := x.queue ++ [f] }) s

/-- The IDLE frame: a header of zeros and its CRC (R275, R276). -/
def idleFrame : LinkFrame := ⟨List.replicate 32 0, [], [], (crc32 (List.replicate 32 0)).toNat⟩

/-- A port that is UP and has nothing else to send sends IDLE frames (R272); the outbox holds one for a stretch of them (log 23). -/
def linkCycle (s : State) : State :=
  if !linkOn s then s else
  each ((List.finRange 2).filter (fun p => portState p s == 2 && !(lport p s).idles)) (fun p t =>
    emit (.link p.val idleFrame) (modPort p (fun x => { x with idles := true }) t)) s

/-- TLp_TXIDLE: the PHY is asked for electrical idle while PD_TL is off or in reset, and while the port is DOWN or REJECTED (R545). -/
def txIdle (p : LinkPort) (s : State) : Bool := !domOn 19 s || s.pw.reset.isSome || portState p s == 0 || portState p s == 3

/-- The other port. -/
def otherPort (p : LinkPort) : LinkPort := if p.val == 0 then 1 else 0
/-- DIR of a frame that leaves on a port (R275). -/
def portDir (p : LinkPort) : Nat := if p.val == 0 then 1 else 0

/-- Forward a received frame on the other port. -/
def forward (p : LinkPort) (f : LinkFrame) (s : State) : State := portSend (otherPort p) f s

/-- Originate a session frame on the given ports (R279): the copies that leave on both ports carry one count (log 23). Nothing leaves
without a session key, and no bulk frame while the block is fenced (R488); one that a scrub holds back waits unsealed (R264). -/
def originate (ports : List LinkPort) (type dst : Nat) (bcast : Bool) (ctx arg : Nat) (payload : List Byte) (s : State) : State :=
  let urgent := 0x20 ≤ type
  if !linkOn s || s.tl.session.isEmpty || (rdB GL_STATUS.FENCED s && !urgent) then s
  else if scrubHeld ctx s then { s with tl := { s.tl with heldOut := s.tl.heldOut ++ [⟨ports, type, dst, bcast, ctx, arg, payload⟩] } } else
  let c := (if urgent then s.tl.sentUrgent else s.tl.sentBulk) + 1
  let s := { s with tl := { s.tl with sentUrgent := if urgent then c else s.tl.sentUrgent, sentBulk := if urgent then s.tl.sentBulk else c } }
  let iv := leBytes 4 (linkPos s + 64 * b2n urgent) ++ leBytes 8 c
  each ports (fun p t => portSend p (sealFrame t.tl.session (frameHeader type (linkPos t) dst bcast (portDir p) ctx payload.length arg iv) iv payload) t) s

/-- The port of the shorter way to a position, downstream on a tie (R287). -/
def portTo (pos : Nat) (s : State) : LinkPort :=
  match tableIdx (linkPos s) s, tableIdx pos s with
  | some a, some b =>
    if rdB TL_STATUS.RING s then
      let n := s.tl.table.length
      if (b + n - a) % n ≤ (a + n - b) % n then 1 else 0
    else if a < b then 1 else 0
  | _, _ => if linkPos s < pos then 1 else 0

/-- Send a CONTROL frame with its sub-code in ARG: 1 DISCOVER_REQ, 2 LINE_SYNC, 3 HALO_REQ, 4 SUMMARY_REQ (log 23). -/
def sendControl (ports : List LinkPort) (sub dst : Nat) (bcast : Bool) (ctx : Nat) (payload : List Byte) (s : State) : State :=
  originate ports 0x08 dst bcast ctx sub payload s

/-- The head's numbering of a line (R286). -/
def headLine (l : Nat) (s : State) : Nat := (l + rd TL_LINE_OFS.OFS s) % 2 ^ 48
/-- This block's own numbering of a line of the head. -/
def ownLine (l : Nat) (s : State) : Nat := (l + 2 ^ 48 - rd TL_LINE_OFS.OFS s) % 2 ^ 48
/-- The head's numbering of a sheet (R286). -/
def headEpoch (e : Nat) (s : State) : Nat := (e + rd TL_EPOCH_OFS.OFS s) % 2 ^ 32

/-- Contexts with a running Tandem job. -/
def tandemJobs (s : State) : List Ctx := allCtx.filter (fun n => cxState n s == 3 && (match (cx n s).job with | some j => j.tandem | none => false))

/-- Account an abort that is acted on, and post CHAIN_ABORT (R292, R301). -/
def abortNote (src cause ctx line : Nat) (s : State) : State :=
  let s := wrs [(TL_ABORT.LAST_SRC, src), (TL_ABORT.LAST_CAUSE, cause), (TL_ABORT.LAST_CTX, ctx)] (inc TL_ABORT.COUNT s)
  notice 0x09 0 0 [src + cause * 2 ^ 8 + ctx * 2 ^ 12, line] s

/-- The abort fence of a job (R24, R340): its coaches stop, the ports fence it, its slots are disarmed, its unposted rows are
discarded, and a deferred command for it ends. -/
def fenceJob (n : Ctx) (s : State) : State :=
  if cxState n s != 3 || (cx n s).abortFence then s else
  let s := mpFence n (disarmJob n (stopUnits n s))
  let s := modCx n (fun c => { c with
    abortFence := true
    job := c.job.map (fun j => { j with running := false, rows := j.rows.map (fun r => if r.posted then r else { r with dropped := true, recs := [] }) }) }) s
  abortDeferred (cid n) { s with tl := { s.tl with waits := s.tl.waits.filter (fun w => w.ctx != cid n), sumWaits := s.tl.sumWaits.filter (fun w => w.ctx != cid n) } }

/-- Originate an ABORT (R291): the frame leaves on both ports now and is repeated twice; CTX 0 covers every Tandem job. The
originator's own fence is the caller's. -/
def originateAbort (cause ctx : Nat) (s : State) : State :=
  if !linkOn s then s else
  let seq := (s.tl.abortSeq + 1) % 2 ^ 32
  let line := low32 (headLine (rd TT_LINE.LINE s) s)
  let payload := leBytes 4 cause ++ leBytes 4 line ++ List.replicate 24 0
  let s := { s with tl := { s.tl with abortSeq := seq, abortSeen := (linkPos s, seq) :: s.tl.abortSeen } }
  let s := originate [0, 1] 0x20 0 true ctx seq payload s
  let s := { s with tl := { s.tl with aborts := s.tl.aborts ++ [⟨ctx, seq, payload, 2, s.now⟩] } }
  abortNote (linkPos s) cause ctx line s

end Sys2Proof.Machine
end

