-- ==== Sys2Proof/Machine/Otp.lean ====
section
/-! DEFINITION. The one-time-programmable memory: sensing, copy states and programming (R445 to R461). -/

namespace Sys2Proof.Machine

/-- A word as it reads at the normal reference: data in bits 31 to 0, the check above (R449). -/
def otpN (w : Nat) (s : State) : Nat := SMap.get (fun _ => 0) s.otp.norm w
/-- A word as it reads at the tightened margin reference. -/
def otpT (w : Nat) (s : State) : Nat := SMap.get (fun _ => 0) s.otp.tight w

/-- First word and data words of the copy with region index `r` (R446). -/
def otpCopy (r : Nat) : Nat × Nat :=
  if r == 0 then (0x20, 8) else if r == 1 then (0x30, 8)
  else if r < 6 then (0x40 + 0x10 * (r - 2), 8)
  else if r < 10 then (0x80 + 0x10 * (r - 6), 8)
  else (0xC0 + 0x10 * (r - 10), 12)

/-- The region index of a data word (R446). -/
def otpRegion (w : Nat) : Option Nat :=
  (List.range 14).find? (fun r => (otpCopy r).1 ≤ w && w ≤ (otpCopy r).1 + (otpCopy r).2)

/-- The word of a data value with its check (R445). -/
def otpCoded (d : Nat) : Nat := low32 d + (crc8 (leBytes 4 d)).toNat * 2 ^ 32

/-- A data word fails its check at the normal reference (R449). -/
def otpBad (w : Nat) (s : State) : Bool := (otpRegion w).isSome && otpN w s != otpCoded (otpN w s)
/-- A word's two reads differ (R449). -/
def otpMarginal (w : Nat) (s : State) : Bool := otpN w s != otpT w s
/-- A word is blank at both references (R445). -/
def otpBlank (w : Nat) (s : State) : Bool := otpN w s == 0 && otpT w s == 0

/-- A copy of a bit counts as blown when either read shows it (R450). -/
def otpBit (w i : Nat) (s : State) : Bool := bit (otpN w s) i || bit (otpT w s) i
/-- The three copies of a lifecycle bit, a lock bit and a counter step (R446). -/
def lcCopies (j : Nat) (s : State) : List Bool := (List.range 3).map (fun c => otpBit c j s)
/-- The copies of a lock bit. -/
def lockCopies (r : Nat) (s : State) : List Bool := (List.range 3).map (fun c => otpBit (3 + c) r s)
/-- The copies of step `k + 1` of the counter. -/
def stepCopies (k : Nat) (s : State) : List Bool := (List.range 3).map (fun c => otpBit (6 + 4 * c + k / 32) (k % 32) s)
/-- The majority of three copies (R450). -/
def majority (l : List Bool) : Bool := 2 ≤ (l.filter id).length
/-- The copies of a bit do not all agree. -/
def split (l : List Bool) : Bool := l.any id && !l.all id

/-- The lifecycle bits as R377 resolves them. -/
def lcResolved (s : State) : Nat := ((List.range 5).map (fun j => b2n (majority (lcCopies j s)) * 2 ^ j)).sum
/-- The lock bit of a copy reads blown. -/
def otpLocked (r : Nat) (s : State) : Bool := majority (lockCopies r s)
/-- The resolved counter (R450). -/
def otpCounter (s : State) : Nat := ((List.range 128).filter (fun k => majority (stepCopies k s))).foldl (fun m k => max m (k + 1)) 0

/-- The data bytes of a copy as they read at the normal reference (R447). -/
def otpBytes (r : Nat) (s : State) : List Byte := (List.range (otpCopy r).2).flatMap (fun i => leBytes 4 (otpN ((otpCopy r).1 + i) s))
/-- Its region check word. -/
def otpCheckWord (r : Nat) (s : State) : Nat := low32 (otpN ((otpCopy r).1 + (otpCopy r).2) s)
/-- The words of a copy. -/
def otpWords (r : Nat) : List Nat := (List.range ((otpCopy r).2 + 1)).map ((otpCopy r).1 + ·)
/-- The region check word is not zero and equals the CRC-32 of the data words (R447). -/
def otpCheckOk (r : Nat) (s : State) : Bool := otpCheckWord r s != 0 && otpCheckWord r s == (crc32 (otpBytes r s)).toNat

/-- The state of a copy (R447): 0 BLANK, 1 OPEN, 2 VALID, 3 MARGINAL, 4 FAILED. -/
def otpState (r : Nat) (s : State) : Nat :=
  if !otpLocked r s then (if (otpWords r).all (fun w => otpN w s == 0) then 0 else 1)
  else if (otpWords r).any (fun w => otpBad w s) || !otpCheckOk r s then 4
  else if (otpWords r).any (fun w => otpMarginal w s) then 3
  else 2

/-- The highest-numbered copy whose lock bit reads blown (R448). -/
def otpActive (first : Nat) (s : State) : Option Nat := ((List.range 4).filter (fun k => otpLocked (first + k) s)).getLast?

/-- The code of a copy in OTP_ACTIVE (R460). -/
def activeCode : Option Nat → Nat
  | some k => k
  | none => 7

/-- A lifecycle encoding (R377). -/
def lcValid (v : Nat) : Bool := [0, 1, 3, 7, 0xF, 0x1F].contains v

/-- The words outside the reserved ones (R446). -/
def otpUsed : List Nat := List.range 0x12 ++ (List.range 14).flatMap otpWords

/-- The sense (R449 to R451): shadows, flags, resolved bits and copy states; ALARM, with OTP_ALARM. -/
def otpSense (s : State) : State :=
  let s := each otpUsed (fun w t => wrs [(OTP_SHADOW.DATA w, low32 (otpN w t)), (OTP_WFLAG.CHECK w, otpN w t / 2 ^ 32), (OTP_WFLAG.MARGINAL w, b2n (otpMarginal w t)),
    (OTP_WFLAG.BAD w, b2n (otpBad w t))] t) s
  let s := each (List.range 8) (fun r t => wr (OTP_RGN0.STATE r) (otpState r t) t) s
  let s := each (List.range 6) (fun k t => wr (OTP_RGN1.STATE k) (otpState (8 + k) t) t) s
  let s := each (List.range 14) (fun r t => wrs [(OTP_LOCK.LOCKED r, b2n (otpLocked r t)), (OTP_LOCK.SPLIT r, b2n (split (lockCopies r t)))] t) s
  let s := wrs [(OTP_STATUS.SENSE_DONE, 1), (OTP_STATUS.MARGINAL, (otpUsed.filter (fun w => otpMarginal w s)).length),
    (OTP_STATUS.BAD, (otpUsed.filter (fun w => otpBad w s)).length), (OTP_LC.RESOLVED, lcResolved s),
    (OTP_LC.SPLIT, ((List.range 5).map (fun j => b2n (split (lcCopies j s)) * 2 ^ j)).sum),
    (OTP_ACTIVE.MRK, activeCode (otpActive 2 s)), (OTP_ACTIVE.LK, activeCode (otpActive 6 s)), (OTP_ACTIVE.OWNER, activeCode (otpActive 10 s)),
    (SB_KEY_STATUS.OTP_COUNTER, otpCounter s)] s
  let bad := otpUsed.any (fun w => otpMarginal w s || otpBad w s) || (List.range 5).any (fun j => split (lcCopies j s)) ||
    (List.range 14).any (fun r => split (lockCopies r s)) || !lcValid (lcResolved s)
  if bad then raise 90 (wr OTP_STATUS.ALARM 1 s) else s

/-- Blow fuses of a word, as they read at each reference (R445). -/
def otpBlow (w vn vt : Nat) (s : State) : State :=
  { s with otp := { s.otp with
    norm := SMap.set (fun _ => 0) s.otp.norm w (otpN w s ||| vn)
    tight := SMap.set (fun _ => 0) s.otp.tight w (otpT w s ||| vt) } }

/-- Fuses of a word that were meant to be blown are blown only in part (R455): which, at each reference, is a free value. -/
def otpPartly (w v : Nat) (s : State) : State :=
  let a := free s
  let b := free a.2
  otpBlow w (v &&& a.1) (v &&& b.1) b.2

/-- Blow one fuse in all three copies of a bit word, copy 0 first (R455). -/
def otpBlowBit (words : List Nat) (i : Nat) (s : State) : State := each words (fun w => otpBlow w (2 ^ i) (2 ^ i)) s

/-- Blow a lock bit (R455). -/
def otpLock (r : Nat) (s : State) : State := otpBlowBit [3, 4, 5] r s

/-- The check of a LOCK (R455): no word is BAD or MARGINAL, and the region check word is right. -/
def otpLockOk (r : Nat) (s : State) : Bool := !(otpWords r).any (fun w => otpBad w s || otpMarginal w s) && otpCheckOk r s

/-- The words of a copy for a key: data words, then the region check word (R447). -/
def otpImage (key : List Byte) (n : Nat) : List Nat :=
  let d := slice key 0 (4 * n)
  (List.range n).map (fun i => wordN d i) ++ [(crc32 d).toNat]

/-- Program a word of a copy with WORD, whole or in part (R455). -/
def otpPut (r : Nat) (whole : Bool) (x : Nat × Nat) (s : State) : State :=
  let v := if x.1 == 0 then 0 else otpCoded x.1
  if whole then otpBlow ((otpCopy r).1 + x.2) v v s else otpPartly ((otpCopy r).1 + x.2) v s

/-- Program the words of a copy with WORD and lock it with LOCK (R455, R457). `blows` says that every fuse reads back blown; else the
first word is left partly blown. WORD refuses a copy that is not blank or is locked. The Bool answers whether the lock was accepted. -/
def otpProgram (r : Nat) (key : List Byte) (blows : Bool) (s : State) : Bool × State :=
  if otpLocked r s || !(otpWords r).all (fun w => otpBlank w s) then (false, s) else
  let s := each (otpImage key (otpCopy r).2).zipIdx (fun x => otpPut r (blows || x.2 != 0) x) s
  if blows && otpLockOk r s then (true, otpLock r s) else (false, s)

/-- The state of a copy and the active copy of a region as the last sense left them (R449, R460). -/
def sensedState (r : Nat) (s : State) : Nat := if r < 8 then rd (OTP_RGN0.STATE r) s else rd (OTP_RGN1.STATE (r - 8)) s
/-- The active copy of the region whose copy 0 has an index, if one. -/
def sensedActive (first : Nat) (s : State) : Option Nat :=
  let c := rd (if first == 2 then OTP_ACTIVE.MRK else if first == 6 then OTP_ACTIVE.LK else OTP_ACTIVE.OWNER) s
  if c < 4 then some c else none

/-- The copy of a region that a KEY_UPDATE programs (R457): the lowest BLANK one above the active copy, and none once a FAILED copy is
active. The copy states do not change until the next sense (R449), so that a second key for a region in one boot finds the same copy,
whose WORDs are then refused. -/
def copyLeft (first : Nat) (s : State) : Option Nat :=
  let a := sensedActive first s
  if (match a with | some k => sensedState (first + k) s == 4 | none => false) then none
  else (List.range 4).find? (fun k => (match a with | some i => decide (i < k) | none => true) && sensedState (first + k) s == 0)

/-- The region index of copy 0 that an entry of a key update programs (R446). -/
def KeyEntry.region (e : KeyEntry) : Option Nat := match e.target with | 1 => some 2 | 2 => some 6 | 3 => some 10 | _ => none

/-- Advance the counter to a step (R411); the resolved value is raised with each step (R449). -/
def otpAdvance (c : Nat) (s : State) : State :=
  let s := each ((List.range c).filter (fun k => otpCounter s ≤ k)) (fun k => otpBlowBit ((List.range 3).map (fun i => 6 + 4 * i + k / 32)) (k % 32)) s
  wr SB_KEY_STATUS.OTP_COUNTER (otpCounter s) s

/-- Why a direct GO is refused (R461): 1 STATE, 2 ADDRESS, 5 BUSY, 3 NOT_BLANK, 4 LOCKED; BUSY comes before what a read of the fuses
decides (log 25). -/
def otpRefusal (lock : Bool) (s : State) : Option Nat :=
  let w := rd OTP_PROG_ADDR.WORD s
  let r := if lock then rd OTP_PROG_ADDR.REGION s else (otpRegion w).getD 0
  if rd SB_STATUS.LIFECYCLE s != 1 then some 1
  else if r == 0 || 13 < r then some 2
  else if s.otp.op.isSome then some 5
  else if lock then none
  else if !otpBlank w s then some 3
  else if otpLocked r s then some 4
  else none

/-- A refused GO (R461). -/
def otpRefuse (c : Nat) (s : State) : State := wr OTP_PROG_STATUS.CAUSE c (markBit OTP_PROG_STATUS.REFUSED s)

/-- A direct GO (R455, R456): refused, or the operation starts. -/
def otpGo (lock : Bool) (s : State) : State :=
  match otpRefusal lock s with
  | some c => otpRefuse c s
  | none =>
    let d := rd OTP_PROG_DATA.DATA s
    wrs [(OTP_STATUS.PROG_BUSY, 1), (OTP_PROG_STATUS.BUSY, 1)]
      { s with otp := { s.otp with op := some ⟨lock, rd OTP_PROG_ADDR.WORD s, if d == 0 then 0 else otpCoded d, rd OTP_PROG_ADDR.REGION s, s.now⟩ } }

/-- A lock bit is left partly blown (log 25). -/
def otpLockPartly (r : Nat) (s : State) : State := each [3, 4, 5] (fun w => otpPartly w (2 ^ r)) s

/-- The direct operation ends after its read-back (R455, R456): `ok` says that the intended fuses read blown at both references. -/
def otpEnd (ok : Bool) (o : OtpOp) (s : State) : State :=
  let s := { s with otp := { s.otp with op := none } }
  let s := if o.lock then
      let s := if otpLockOk o.region s then s else markBit OTP_PROG_STATUS.UNVERIFIED s
      if ok then otpLock o.region s else otpLockPartly o.region s
    else if ok then otpBlow o.word o.value o.value s else otpPartly o.word o.value s
  let s := if ok then s else markBit OTP_PROG_STATUS.VERIFY_FAIL s
  wrs [(OTP_STATUS.PROG_BUSY, 0), (OTP_PROG_STATUS.BUSY, 0)] (markBit OTP_PROG_STATUS.DONE s)

/-- A direct operation runs that began in an earlier cycle, so that an operation of the Strongbox waits for it (R455). -/
def otpHeld (s : State) : Bool := match s.otp.op with | some o => o.at_ != s.now | none => false
/-- The Strongbox goes first: a direct operation that began in the same cycle is refused (R455). -/
def otpFirst (s : State) : State :=
  if s.otp.op.isNone then s else
  otpRefuse 5 (wrs [(OTP_STATUS.PROG_BUSY, 0), (OTP_PROG_STATUS.BUSY, 0)] { s with otp := { s.otp with op := none } })

/-- The lifecycle bits that a transition still has to blow (R381). -/
def lcBits (target : Nat) (s : State) : List Nat := (List.range 5).filter (fun j => bit target j && !majority (lcCopies j s))

/-- Power is lost while a key entry waits to be programmed or is being programmed: how far its words came is a free value (R411, R455). -/
def otpCut (e : KeyEntry) (s : State) : State :=
  match e.region with
  | none => s
  | some first =>
    match copyLeft first s with
    | none => s
    | some k =>
      let r := first + k
      if otpLocked r s || !(otpWords r).all (fun w => otpBlank w s) then s else
      let ws := otpImage e.key (otpCopy r).2
      let f := free s
      let n := f.1 % (ws.length + 1)
      let s := each (ws.zipIdx.take (n + 1)) (fun x => otpPut r (x.2 != n) x) f.2
      if n == ws.length then otpLockPartly r s else s

/-- Power is lost during an operation: a WORD may be left partly blown (R455), and so may a lock bit or a lifecycle bit (log 25). -/
def otpAbandon (s : State) : State :=
  let s := match s.otp.op with
    | none => s
    | some o =>
      let s := { s with otp := { s.otp with op := none } }
      if o.lock then otpLockPartly o.region s else otpPartly o.word o.value s
  let s := match s.sb.keyJob with
    | some j => (match j.todo with | e :: _ => otpCut e s | [] => s)
    | none => s
  match s.sb.resetDue with
  | some d => (match d.prog with | some p => each (lcBits p.1 s) (fun j t => each [0, 1, 2] (fun w => otpPartly w (2 ^ j)) t) s | none => s)
  | none => s

/-- OTP_PROG_WORD (R455, R461). -/
def execOtpProgWord (s : State) : Host.Outcome State Fault Refusal := .next (hostTo 0xA00028 false (otpGo false) s)

/-- OTP_PROG_LOCK (R456, R461). -/
def execOtpProgLock (s : State) : Host.Outcome State Fault Refusal := .next (hostTo 0xA00028 false (otpGo true) s)

/-- OTP_PROG_DONE (R455). -/
def execOtpProgDone (readbackOk : Bool) (s : State) : Host.Outcome State Fault Refusal :=
  .next (match s.otp.op with | some o => otpEnd readbackOk o s | none => s)

end Sys2Proof.Machine
end

