-- ==== Sys2Proof/Machine/Power.lean ====
section
/-! DEFINITION. Power domains, resets, deep sleep, clocks and temperature (R512 to R532). The boot's steps stand in Boot. -/

namespace Sys2Proof.Machine

/-- Forget the register fields whose offset satisfies `p`: they read as their reset values (R13). -/
def forgetRegs (p : Nat → Bool) (s : State) : State :=
  { s with
    regs := SMap.forget (fun k => p (k / 64)) s.regs
    snap := SMap.forget p s.snap
    hiHold := SMap.forget p s.hiHold
    rwe := s.rwe.filter (fun w => !p w.addr) }

/-- Whether an event bit's key belongs to a source that the part in PD_SB serves (R349). -/
def sbServedKey (k : Nat) : Bool :=
  let a := k / 64
  (0x700000 ≤ a && a < 0x700020 && sbServed (a % 0x10 * 8 + k % 64)) || (0x701000 ≤ a && a < 0x701020 && sbServed (a % 0x10 * 8 + k % 64))

/-- Whether a bit's key belongs to EV_RAW, the last sample of a source: a reset of the controller makes no edge of a source that stays
high, so that nothing but the Lantern's hits is pending after it (R350, R359, R360). -/
def rawKey (k : Nat) : Bool := 0x700030 ≤ k / 64 && k / 64 < 0x700040

/-- The offsets whose registers have reset domain DOMAIN in domain `d` (R13, R28); the views outside the window follow the
mailboxes' and the digest engine's. -/
def domAddr (d a : Nat) : Bool :=
  if d < 16 then a / 0x10000 == 0x20 + d
  else if d == 16 then a / 0x100000 == 3
  else if d == 17 then a / 0x100000 == 1
  else if d == 18 then a / 0x100000 == 4
  else if d == 19 then a / 0x100000 == 5
  else if d == 20 then a / 0x100000 == 6 || a / 0x100000 == 7 || a / 0x100000 == 16
  else if d == 21 then a / 0x100000 == 8 || a / 0x100000 == 9 || a / 0x100000 == 10 || a / 0x100000 == 17 || a / 0x100000 == 25
  else if d == 23 then a / 0x100000 == 12
  else false

/-- Every key slot is cleared when PD_MP goes off (R224). -/
def clearKeys (s : State) : State := each allCtx (fun n => modCx n (fun c => { c with key := [], fenceAt := none })) s

/-- What a unit keeps besides its registers is lost with its domain (R515). -/
def unitClear (d : Nat) (s : State) : State :=
  if h : d < 16 then setCo ⟨d, h⟩ CoachSt.init s else
  match d with
  | 16 => { s with gig := GigSt.init }
  | 17 => { s with tt := TtSt.init }
  | 18 => { clearKeys s with mp := MpSt.init }
  | 19 => { s with tl := TlSt.init }
  | 20 => { s with mb := MbSt.init, ev := { active := s.ev.active.filter (fun x => sbServed x.src), holds := [], moved := [], resample := s.ev.resample.filter sbServed } }
  | 21 => let s := otpAbandon s; { s with sb := SbSt.init, dg := DgSt.init, pins := { s.pins with svcAttnN := true } }
  | _ => s

/-- A domain resets: its registers of reset domain DOMAIN, and the contents of its units (R13, R515). With PD_CM the Coachman stops (R20, R33, R428). -/
def domainReset (d : Nat) (s : State) : State :=
  let s := if d == 20 then wr GL_STATUS.CM_RELEASED 0 (coachmanLost s) else s
  let kept := s.regs.filter (fun e => sbServedKey e.1 || rawKey e.1)
  let s := forgetRegs (domAddr d) s
  let s := unitClear d s
  let s := if d == 20 then { s with regs := kept.foldl (fun m e => SMap.set fieldReset m e.1 e.2) s.regs } else s
  let s := if d == 21 then
      clr [PM_THERM_STATUS.TEMP, PM_THERM_STATUS.LEVEL, PM_THERM_STATUS.HOT_SENSOR, PM_CLK_STATUS.ARITH_OK, PM_CLK_STATUS.FAB_OK]
        { s with regs := SMap.forget sbServedKey s.regs }
    else s
  settle s

/-- A domain is switched off: its fences close and its ON bit clears (R515). From the begin of PD_CM's switch-off the Lantern records (R359). -/
def switchOff (d : Nat) (s : State) : State :=
  let s := { s with pw := { s.pw with queue := s.pw.queue.filter (· != d) } }
  if !domOn d s then s else
  let s := wr (PM_PWR_STATUS.ON d) 0 (if d == 19 then holdFall s else s)
  settle { s with pw := { s.pw with falling := s.pw.falling ++ [(d, s.now)], lantern := s.pw.lantern || d == 20, lanternEnd := s.pw.lanternEnd && d != 20 } }

/-- Request a domain off: one that ramps is switched off after its ramp, and one that is to come up again stays off (R515). -/
def powerOff (d : Nat) (s : State) : State :=
  let s := wr (PM_PWR_REQ.REQ d) 0 s
  if s.pw.onAfter.contains d then { s with pw := { s.pw with onAfter := s.pw.onAfter.filter (· != d) } }
  else if s.pw.ramps.any (·.1 == d) then { s with pw := { s.pw with offAfter := s.pw.offAfter ++ [d] } }
  else switchOff d s

/-- Switch a domain off and lose its contents at once; a ramp of it, and what waits to switch it, is given up. -/
def powerLost (d : Nat) (s : State) : State :=
  let s := if d == 19 then holdFall s else s
  let other (l : List Nat) : List Nat := l.filter (· != d)
  let s := { s with pw := { s.pw with
    ramps := s.pw.ramps.filter (·.1 != d), queue := other s.pw.queue, falling := s.pw.falling.filter (·.1 != d)
    offAfter := other s.pw.offAfter, onAfter := other s.pw.onAfter } }
  domainReset d (wrs [(PM_PWR_STATUS.ON d, 0), (PM_PWR_REQ.REQ d, 0)] s)

/-- The reset sequencer begins to switch PD_CM off, where it is on: the Lantern records from here (R359). -/
def lanternBegin (s : State) : State :=
  { s with pw := { s.pw with lantern := s.pw.lantern || domOn 20 s, lanternEnd := s.pw.lanternEnd && !domOn 20 s } }

/-- The order in which a block reset switches the domains off (R519). -/
def resetOrder : List Nat := List.range 17 ++ [23, 19, 18, 20, 17, 21]

/-- The registers of reset domain BLOCK, which lie in the GL window (R13). -/
def blockAddr (a : Nat) : Bool := a < 0x100000

/-- Every domain but PD_AON is off, and everything outside PD_AON is lost; the lifecycle latch stays (R377, R518, R522). -/
def allOff (s : State) : State :=
  let s := each resetOrder powerLost (lanternBegin s)
  let lc := rd GL_STATUS.LIFECYCLE s
  let s := wr GL_STATUS.LIFECYCLE lc (forgetRegs blockAddr s)
  settle { s with
    ctx := Vector.replicate 8 CtxSt.init
    ev := EvSt.init
    mb := MbSt.init
    flt := { FltSt.init with lastReset := s.flt.lastReset, dumpNew := s.flt.dumpNew, dumpCode := s.flt.dumpCode }
    pw := { s.pw with ramps := [], queue := [], falling := [], offAfter := [], onAfter := [], fenced := [], bootStep := 0 } }

/-- Count a fault-driven block reset (R493). -/
def countFltReset (s : State) : State :=
  { add PM_FLT_RESETS.RECENT (if rd PM_FLT_RESETS.RECENT s < 3 then 1 else 0) (inc PM_FLT_RESETS.TOTAL s) with flt := { s.flt with lastReset := s.now } }

/-- A block reset begins (R519): its cause is recorded, STATE reads WAKING, BYPASS_HOLD falls, every fence closes. One in
progress serves both, and keeps the first cause unless the second is of the security class. During a trip, or while the block
sleeps after one, the reset is merged with the trip's (R527). -/
def beginReset (cause : Nat) (fault : Bool) (s : State) : State :=
  let s := if fault && s.pw.reset.isNone then countFltReset s else s
  let s := if cause == 5 then s else { s with pw := { s.pw with unlock := false } }
  if rdB PM_THERM_STATUS.TRIP s || rd PM_SLEEP.STATE s == 2 then { s with pw := { s.pw with merged := true } }
  else match s.pw.reset with
  | some r =>
    if cause == 2 then { wr PM_RST_CAUSE.CAUSE 2 s with pw := { s.pw with reset := some { r with cause := 2 } } } else s
  | none =>
    let s := wr GL_STATUS.LIFECYCLE 0 (wr PM_SLEEP.STATE 3 (inc PM_RST_CAUSE.COUNT (wr PM_RST_CAUSE.CAUSE cause s)))
    let s := lanternBegin s
    let s := each resetOrder (fun d t => wrs [(PM_PWR_STATUS.ON d, 0), (PM_PWR_REQ.REQ d, 0)] t) s
    settle { holdFall s with
      tap := TapSt.init
      pw := { s.pw with
        reset := some ⟨cause, s.now, fault⟩, bootStep := 0, ramps := [], queue := [], falling := [], offAfter := [],
        onAfter := [], sleepStep := 0, wakeDue := none } }

/-- The code of a processor as a holder (R393). -/
def procCode : Proc → Nat
  | .coachman => 1 | .strongbox => 2

/-- Whether a power request would break the order of R29: a domain counts as on when it is on, ramps, waits for a ramp or for its own
switch-off, or is off in a partition reset that brings it on again (R489). -/
def orderBreaks (d : Nat) (on : Bool) (s : State) : Bool :=
  let resets (e : Nat) : Bool := e < 16 && s.pw.fenced.contains e && s.flt.partAt.any (·.isSome)
  let up (e : Nat) : Bool := domOn e s || s.pw.ramps.any (·.1 == e) || s.pw.queue.contains e || s.pw.onAfter.contains e || resets e
  let work := (List.range 17) ++ [18, 19]
  if on then
    if d == 21 || d == 22 then false
    else !domOn 21 s || (work.contains d && !(domOn 17 s && domOn 20 s))
  else if d == 21 then (List.range 24).any (fun e => e != 21 && e != 22 && up e)
  else if d == 17 || d == 20 then work.any up
  else false

/-- Why a power request is refused, in the order of R513: 1 ORDER, 2 NO_REIN, 3 TRIP, 4 SLEEP. -/
def pwrRefusal (who : Proc) (d : Nat) (on : Bool) (s : State) : Option Nat :=
  if orderBreaks d on s then some 1
  else if reinHolder 2 s != procCode who then some 2
  else if on && rdB PM_THERM_STATUS.TRIP s then some 3
  else if rd PM_SLEEP.STATE s == 1 then some 4
  else none

/-- A request of a domain through the reset sequencer (R513): whether it is accepted, and its effect. -/
def pwrRequest (who : Proc) (d : Nat) (on : Bool) (s : State) : Bool × State :=
  if d == 22 then (true, s) else
  match pwrRefusal who d on s with
  | some c =>
    let s := wrs [(PM_PWR_REFUSE.LAST_DOMAIN, d), (PM_PWR_REFUSE.LAST_CAUSE, c)] (inc PM_PWR_REFUSE.COUNT s)
    (false, if c == 2 then inc SB_REINS.DENIED s else s)
  | none => (true, if on then powerOn d s else powerOff d s)

/-- PD_MP has come up: outside a boot, whose steps 13 and 14 do it (R370), the Strongbox has loaded its keys again, and the ports train; which of them are
up is free (R206, R228, log 35). -/
def portsUp (s : State) : State :=
  if s.pw.bootStep != 0 then s else
  let f := free s
  wrs [(MP_STATUS.KEYS_READY, 1), (MP_STATUS.PORT_UP, f.1)] f.2

/-- PD_CM has come up: the Lantern gives its hits back, and outside a boot, whose step 9 does it, the firmware or ROM that serves the Strongbox's channels takes them up
again, and unmasks its sources there (R314, R315, R360, R373, R378, R555). -/
def channelsUp (s : State) : State :=
  let s := lanternReturn s
  let rom := s.pw.bootStep == 0 && (rd SB_STATUS.LIFECYCLE s == 0 || rd SB_STATUS.STAGE s == 14)
  if !(rom || rdB GL_STATUS.SB_READY s) then s else
  let s := setPeer .strongbox 0 s
  if s.sb.runs then unmask 1 false s else s

/-- The ramp of a domain completes (R514); a coach of a partition is scrubbed before it runs an entry (R242). -/
def rampDone (d : Nat) (s : State) : State :=
  let s := { s with pw := { s.pw with ramps := s.pw.ramps.filter (·.1 != d) } }
  let s := match s.pw.queue with
    | [] => s
    | q :: r => { s with pw := { s.pw with queue := r, ramps := s.pw.ramps ++ [(q, s.now)] } }
  let s := showProf (wrs [(PM_PWR_STATUS.ON d, 1), (PM_PWR_REQ.REQ d, 1)] s)
  let s := if d == 20 then channelsUp s else s
  let s := if d == 18 then portsUp { s with mp := { s.mp with winAt := s.now } } else s
  let s := if d == 19 then showHead { s with tl := { s.tl with linkKey := s.sb.linkKey }, sb := { s.sb with keyCheck := true } } else s
  let s := raise 102 (settle s)
  let s := if h : d < 16 then (if allCtx.any (fun n => bit (partMask n s) d) then scrubStart ⟨d, h⟩ s else s) else s
  if s.pw.offAfter.contains d then
    switchOff d (wrB (PM_PWR_REQ.REQ d) (s.pw.onAfter.contains d) { s with pw := { s.pw with offAfter := s.pw.offAfter.filter (· != d) } })
  else s

/-- PWR_REQ (R513). -/
def execPwrReq (who : Proc) (d : Dom) (on : Bool) (s : State) : Host.Outcome State Fault Refusal :=
  .next (pwrRequest who d.val on s).2

/-- PWR_RAMP_DONE (R514). -/
def execPwrRampDone (d : Dom) (s : State) : Host.Outcome State Fault Refusal :=
  .next (if s.pw.ramps.any (·.1 == d.val) then rampDone d.val s else s)

/-- PWR_OFF (R515): the switch of a falling domain is open; a request that waited for it takes a ramp. -/
def execPwrOff (d : Dom) (s : State) : Host.Outcome State Fault Refusal :=
  .next (if s.pw.falling.any (·.1 == d.val) then
      let s := domainReset d.val { s with pw := { s.pw with falling := s.pw.falling.filter (·.1 != d.val) } }
      if s.pw.onAfter.contains d.val then startRamp d.val { s with pw := { s.pw with onAfter := s.pw.onAfter.filter (· != d.val) } } else s
    else s)

/-- BLOCK_RESET_DOMAINS_OFF (R519): every domain but PD_AON is off, and PD_SB is powered again at step 2 of the boot. -/
def execBlockResetDomainsOff (s : State) : Host.Outcome State Fault Refusal :=
  .next (match s.pw.reset with
    | none => s
    | some _ => let s := allOff s; bootBegin { s with pw := { s.pw with reset := none } })

/-- A staging session is open, or an activation is in progress (R521). -/
def updBusy (s : State) : Bool := rdB SB_UPD_STATUS.SESSION s || s.sb.activation.isSome || (match s.sb.resetDue with | some d => d.cause == 6 | none => false)

/-- Why a deep-sleep request is refused (R521): 1 CONTEXTS, 2 UPDATE, 3 TRIP. -/
def sleepRefusal (s : State) : Option Nat :=
  if allCtx.any (fun n => cxState n s != 0) then some 1
  else if updBusy s then some 2
  else if rdB PM_THERM_STATUS.TRIP s then some 3
  else none

/-- PM_SLEEP_DEEP (R521). -/
def execPmSleepDeep (s : State) : Host.Outcome State Fault Refusal :=
  .next (hostTo 0xB00010 false (fun s =>
    if rd PM_SLEEP.STATE s != 0 then s else
    match sleepRefusal s with
    | some c => wr PM_SLEEP.CAUSE c (markBit PM_SLEEP.REFUSED s)
    | none => { wr PM_SLEEP.STATE 1 s with pw := { s.pw with sleepStep := 2, sleepAt := s.now } }) s)

/-- A step of the deep-sleep entry (R521): 2 the chain is left and the Strongbox claims POWER (R556), 3 the working domains go
off, 4 PD_CM and PD_TT, 5 PD_SB; then ASLEEP, and a wake that waited begins (R523). -/
def sleepStep (s : State) : State :=
  match s.pw.sleepStep with
  | 2 => { holdFall (reinSet 2 2 (wr TL_CFG.JOINED 0 s)) with pw := { s.pw with sleepStep := 3 } }
  | 3 => let s := each ((List.range 17) ++ [23, 19, 18]) powerLost s; { s with pw := { s.pw with sleepStep := 4 } }
  | 4 =>
    let s := each [20, 17] powerLost (lanternBegin s)
    { s with pw := { s.pw with sleepStep := 5 } }
  | 5 =>
    let due := s.pw.wakeDue
    let s := wr PM_SLEEP.STATE 2 (allOff { s with pw := { s.pw with sleepStep := 0, wakeDue := none } })
    match due with | some c => wake c s | none => s
  | _ => s

/-- SLEEP_ENTRY_STEP (R521). -/
def execSleepEntryStep (s : State) : Host.Outcome State Fault Refusal := .next (sleepStep s)

/-- PM_WAKE (R523): HOST_WAKE is raised, and a block that is not awake wakes. -/
def execPmWake (s : State) : Host.Outcome State Fault Refusal :=
  .next (hostTo 0xB00014 false (fun s => wake 7 (raise 100 s)) s)

/-- PM_RESET (R520): the key begins a block reset, or wakes a sleeping block with cause HOST; nothing during a trip. -/
def execPmReset (key : Word) (s : State) : Host.Outcome State Fault Refusal :=
  .next (hostTo 0xB00018 false (fun s =>
    if key.toNat != 0xB10C || rdB PM_THERM_STATUS.TRIP s then s
    else if rd PM_SLEEP.STATE s == 2 || rd PM_SLEEP.STATE s == 1 then wake 1 s
    else beginReset 1 false s) s)

/-- One clock of a monitor window (R517): `ok` says that the count lies within 5 % of nominal. Returns the windows outside and
inside the tolerance in a row, and the new OK bit. -/
def clockWindow (ok okBit : Bool) (bad good : Nat) : Nat × Nat × Bool :=
  if ok then (0, good + 1, okBit || decide (10 ≤ good + 1)) else (bad + 1, 0, okBit && decide (bad + 1 < 10))

/-- CLOCK_MONITOR_WINDOW (R517): the cycles of ARITH_CLK and FAB_CLK counted in a window of 10 µs, 18,000 and 12,000 nominal. -/
def execClockMonitorWindow (arith fab : Nat) (s : State) : Host.Outcome State Fault Refusal :=
  .next (if !domOn 21 s then s else
    let a := clockWindow (17100 ≤ arith && arith ≤ 18900) (rdB PM_CLK_STATUS.ARITH_OK s) s.pw.arithBad s.pw.arithGood
    let f := clockWindow (11400 ≤ fab && fab ≤ 12600) (rdB PM_CLK_STATUS.FAB_OK s) s.pw.fabBad s.pw.fabGood
    let s := if rdB PM_CLK_STATUS.ARITH_OK s && !a.2.2 then markBit PM_CLK_STATUS.ARITH_LOST s else s
    let s := if rdB PM_CLK_STATUS.FAB_OK s && !f.2.2 then markBit PM_CLK_STATUS.FAB_LOST s else s
    let s := wrB PM_CLK_STATUS.FAB_OK f.2.2 (wrB PM_CLK_STATUS.ARITH_OK a.2.2 s)
    { s with pw := { s.pw with arithBad := a.1, arithGood := a.2.1, fabBad := f.1, fabGood := f.2.1 } })

/-- The thermal level changes: the gating pattern restarts, THERMAL is posted, and its source follows (R525, R526). -/
def setLevel (l : Nat) (s : State) : State :=
  let s := { s with pw := { s.pw with gateAcc := arithNow s, gateAt := s.now, belowSince := none } }
  let s := settle (wr PM_THERM_STATUS.LEVEL l s)
  notice 0x10 0 0 [l, unsigned 32 (signed 12 (rd PM_THERM_STATUS.TEMP s))] s

/-- The domain of a temperature sensor (R524): the fabric's is PD_TT (log 16). -/
def sensorDom (i : Nat) : Nat := if i == 18 then 21 else i

/-- The threshold at which a level is entered, in 0.1 °C (R525). -/
def levelAt (l : Nat) (s : State) : Int := if l == 1 then rd PM_THERM_CFG.THROTTLE s else rd PM_THERM_CFG.CRIT s

/-- The highest reading and its sensor, the lowest of equals, among the sensors whose domain is on. -/
def hottest (temps : List Int) (s : State) : Option (Int × Nat) :=
  (temps.zipIdx.filter (fun x => x.2 < 19 && domOn (sensorDom x.2) s)).foldl
    (fun m x => match m with | none => some x | some y => if y.1 < x.1 then some x else some y) none

/-- THERMAL_SAMPLE (R524, R525): the readings of sensors 0 to 18 in 0.1 °C. -/
def execThermalSample (temps : List Int) (s : State) : Host.Outcome State Fault Refusal :=
  .next (if !domOn 21 s then s else
    match hottest temps s with
    | none => s
    | some (t, i) =>
      let s := wrs [(PM_THERM_STATUS.TEMP, unsigned 12 t), (PM_THERM_STATUS.HOT_SENSOR, i)] s
      let l := rd PM_THERM_STATUS.LEVEL s
      let want := if levelAt 2 s ≤ t then 2 else if levelAt 1 s ≤ t then 1 else 0
      if l < want then setLevel want s
      else if l != 0 && decide (t < levelAt l s - 50) then
        (if s.pw.belowSince.isSome then s else { s with pw := { s.pw with belowSince := some s.now } })
      else { s with pw := { s.pw with belowSince := none } })

/-- THERMAL_LEVEL_FALL (R525): 10 ms below the threshold less 5 °C. -/
def execThermalLevelFall (s : State) : Host.Outcome State Fault Refusal :=
  .next (match s.pw.belowSince with
    | some t => if rd PM_THERM_STATUS.LEVEL s != 0 && t + ms 10 ≤ s.now then setLevel (rd PM_THERM_STATUS.LEVEL s - 1) s else s
    | none => s)

/-- Write PM_FLT_LAST (R509). -/
def fltLast (security : Bool) (code level ctx unit : Nat) (s : State) : State :=
  wrs [(PM_FLT_LAST.NEW, 1), (PM_FLT_LAST.SECURITY, b2n security), (PM_FLT_LAST.CODE, code), (PM_FLT_LAST.LEVEL, level), (PM_FLT_LAST.CTX, ctx), (PM_FLT_LAST.UNIT, unit)] s

/-- THERMAL_TRIP (R527): 125 °C for 100 µs at the trip sensor. A reset in progress or due is merged, and a dump is abandoned. -/
def execThermalTrip (s : State) : Host.Outcome State Fault Refusal :=
  .next (if rdB PM_THERM_STATUS.TRIP s then s else
    let due := s.flt.block.isSome || s.flt.security.isSome
    let s := if due && s.pw.reset.isNone then countFltReset s else s
    let s := match s.flt.block with
      | some b => fltLast false b.code b.level b.ctx b.unit s
      | none => s
    let s := match s.flt.security with | some f => fltLast true f.code 8 0 f.unit s | none => s
    let merged := s.pw.merged || due || s.pw.reset.isSome
    let s := allOff s
    let s := wrs [(PM_THERM_STATUS.TRIP, 1), (PM_RST_CAUSE.CAUSE, 8), (PM_SLEEP.STATE, 2)] (markBit PM_THERM_STATUS.TRIPPED s)
    let s := holdFall s
    { s with
      pins := { s.pins with alarmN := false }
      pw := { s.pw with tripAt := s.now, merged := merged, reset := none, sleepStep := 0, wakeDue := none } })

/-- THERMAL_TRIP_CLEAR (R527): below 105 °C for 1 s. -/
def execThermalTripClear (s : State) : Host.Outcome State Fault Refusal :=
  .next (if rdB PM_THERM_STATUS.TRIP s && s.pw.tripAt + ms 1000 ≤ s.now then wr PM_THERM_STATUS.TRIP 0 s else s)

/-- PM_THERM_CFG_WRITE (R532): both thresholds are limited, and CRIT stays 5 °C above THROTTLE. -/
def execPmThermCfgWrite (data : Word) (s : State) : Host.Outcome State Fault Refusal :=
  .next (hostTo 0xB00034 false (fun s =>
    let t := clampNat 700 1150 (bits data.toNat 0 12)
    let c := clampNat 800 1200 (bits data.toNat 16 12)
    wrs [(PM_THERM_CFG.THROTTLE, t), (PM_THERM_CFG.CRIT, max c (t + 50))] s) s)

/-- SUPPLY_LOW_EDGE (R537): the pin's level, as source 98 and the update guards see it. -/
def execSupplyLowEdge (level : Bool) (s : State) : Host.Outcome State Fault Refusal :=
  .next (settle { s with pins := { s.pins with supplyLow := level } })

/-- POWER_GOOD_RISE (R370 step 1, R533): PD_AON powers up, its registers reset, and the straps are sampled. -/
def execPowerGoodRise (straps : Straps) (s : State) : Host.Outcome State Fault Refusal :=
  .next (if s.pins.pwrGood then s else
    { State.reset with
      now := s.now, freeN := s.freeN, out := s.out, pending := s.pending, otp := s.otp, flash := s.flash
      pins := { s.pins with pwrGood := true, tandem := straps.tandem, pos := straps.pos.toNat, hold := false, alarmN := true, pwrCycN := true, svcAttnN := true }
      pw := { PwSt.init with bootStep := 1, bootAt := s.now, gateAt := s.now } })

/-- POWER_GOOD_FALL (R533): every domain is off at once, PD_AON with them. -/
def execPowerGoodFall (s : State) : Host.Outcome State Fault Refusal :=
  .next (if !s.pins.pwrGood then s else
    let s := wr (PM_PWR_STATUS.ON 22) 0 (allOff s)
    { s with pins := { s.pins with pwrGood := false, hold := false }, pw := { PwSt.init with gateAt := s.now } })

end Sys2Proof.Machine
end

