-- ==== Sys2Proof/Machine/Timetable.lean ====
section
/-! DEFINITION. The Timetable: encoder, line counter, motion states, rate, marks and index pulse (R40 to R66, R83). Its slots
and the opening of an epoch stand in Rows. -/

namespace Sys2Proof.Machine

/-- The motion state (R48). -/
def ttState (s : State) : Nat := rd TT_STATUS.STATE s
/-- The line counter. -/
def ttLine (s : State) : Nat := rd TT_LINE.LINE s
/-- TT_LINE counts in this state (R45). -/
def ttCounts (s : State) : Bool := ttState s == 1 || ttState s == 2 || (ttState s == 6 && rd TT_BACK.LINES s == 0)
/-- Time counts towards a hang in this state (R485). -/
def ttMoves (s : State) : Bool := ttState s == 1 || ttState s == 2
/-- The enabled ARITH_CLK cycles since one of them that count towards a hang: those in which the Timetable was in RUN or CRAWL (R485). -/
def movedSince (a : Nat) (s : State) : Nat :=
  let now := arithNow s
  let gaps := (match s.tt.stillAt with | some b => [(b, now)] | none => []) ++ s.tt.still
  (now - a) - ((gaps.map (fun g => g.2 - max g.1 a)).sum)
/-- Nothing is posted for sheet work (R60, R65). -/
def withheld (s : State) : Bool :=
  ttState s == 4 || ttState s == 5 || ((ttState s == 3 || ttState s == 6) && rd TT_BACK.LINES s != 0)

/-- The output LINE_STAMP[47:0] (R46). -/
def lineStamp (s : State) : Nat := s.tt.stamp
/-- The output LINE_STAMP_HOLD: high while PD_TT is off or in reset, and while nothing is posted for sheet work (R46, R538). -/
def lineStampHold (s : State) : Bool := !domOn 17 s || s.pw.reset.isSome || withheld s

/-- The inputs that R40 filters. -/
inductive PressIn where
  | encA | encB | encZ | mark
  deriving DecidableEq, Repr
/-- The place of an input's time. -/
def PressIn.idx : PressIn → Fin 4
  | .encA => 0 | .encB => 1 | .encZ => 2 | .mark => 3
/-- The filter time of an input in FAB_CLK cycles (R40). -/
def filterTime (i : PressIn) (s : State) : Nat :=
  match i with | .mark => us (rd TT_MARK_CFG.FILTER s + 1) | _ => 8 * (rd TT_ENC_CFG.FILTER s + 1)
/-- Whether an input can have held a new level for `k` filter times since its accepted level last changed; a shorter pulse is ignored (R40). The
commands stand for accepted edges, and the input before its acceptance is not the block's state (log 35). -/
def inputHeld (k : Nat) (i : PressIn) (s : State) : Bool :=
  match s.tt.levelAt[i.idx] with | none => true | some t => decide (t + k * filterTime i s ≤ s.now)
/-- The accepted level of an input changes now. -/
def inputTaken (i : PressIn) (s : State) : State := { s with tt := { s.tt with levelAt := s.tt.levelAt.set i.idx (some s.now) } }

/-- The mean is valid (R50). -/
def rateValid (s : State) : Bool := s.tt.intervals.length == 8
/-- The rate at full width (R50). -/
def rateFull (s : State) : Nat :=
  if !rateValid s || ttState s == 3 || ttState s == 0 || s.tt.halted then 0 else 19200000000 / rd TT_PERIOD.PERIOD s
/-- TT_RATE shows the rate, saturated (R50). -/
def showRate (s : State) : State := wr TT_RATE.LPS (min (rateFull s) 0x3FFFF) s

/-- The effective period p (R51). -/
def effPeriod (s : State) : Nat :=
  let t := ttState s
  if (t == 1 || t == 2 || t == 4 || t == 5) && rateValid s then min (rd TT_PERIOD.PERIOD s) 38400000 else 38400000
/-- FAB_CLK cycles of `n` lines (R51). -/
def fabCycles (n : Nat) (s : State) : Nat := ceilDiv (n * effPeriod s) 16
/-- ARITH_CLK cycles of `n` lines (R51). -/
def arithCycles (n : Nat) (s : State) : Nat := ceilDiv (n * effPeriod s * 3) 32
/-- Lines of `c` ARITH_CLK cycles at a period (R51). -/
def linesOfArith (c p : Nat) : Nat := ceilDiv (c * 32) (3 * p)
/-- A slack of `c` ARITH_CLK cycles in lines at the effective period (R51). -/
def slackLines (c : Nat) (s : State) : Nat := linesOfArith c (effPeriod s)

/-- Rows keep whether RUN has lasted since their release (R58). -/
def spoilRows (s : State) : State :=
  each allCtx (fun n t => modCx n (fun c => { c with job := c.job.map (fun j => { j with rows := j.rows.map (fun r => { r with allRun := false }) }) }) t) s

/-- Enter a motion state (R48): what leaving RUN or CRAWL, and entering STOP or FAULT, is remembered for. -/
def ttEnter (st : Nat) (s : State) : State :=
  let old := ttState s
  if old == st then s else
  let s := wr TT_STATUS.STATE st s
  let s := if old == 1 then spoilRows s else s
  let leaves := (old == 1 || old == 2) && st != 1 && st != 2
  let s := { s with tt := { s.tt with
    sawHalt := (if leaves then false else s.tt.sawHalt) || st == 3 || st == 6
    fastLines := 0
    still := if st == 1 || st == 2 then (match s.tt.stillAt with | some a => (a, arithNow s) :: s.tt.still | none => s.tt.still) else s.tt.still
    stillAt := if st == 1 || st == 2 then none else some (s.tt.stillAt.getD (arithNow s))
    cleanLines := if st == 6 then 0 else s.tt.cleanLines
    halted := if st == 6 || st == 3 then s.tt.halted else false } }
  raise 25 (showRate s)

/-- The notice ENCODER_FAULT with its event (R67, R349). -/
def encoderFault (cause : Nat) (s : State) : State := notice 0x05 0 0 [cause, ttLine s] (raise (if cause == 4 then 28 else 27) s)

/-- The Timetable enters FAULT (R60, R63). -/
def ttFault (cause : Nat) (s : State) : State := encoderFault cause (wr TT_STATUS.CAUSE cause (ttEnter 6 s))

/-- FAULT is left (R64): for RETURN when TT_BACK is not 0, else for CRAWL; the fault window clears (R63). -/
def faultLeave (s : State) : State :=
  let s := { s with tt := { s.tt with illegal := [], spikes := [], halted := false } }
  ttEnter (if rd TT_BACK.LINES s == 0 then 2 else 5) s

/-- The records of discarded rows that the coaches still hold go nowhere: their writes leave the coach buffers' lists (R60). -/
def dropRecords (gone : Nat → Bool) (n : Ctx) (s : State) : State :=
  each allCoach (fun c t => modCo c (fun x => { x with xfers := x.xfers.filter (fun f => !(f.ctx == cid n && 256 ≤ f.tag && gone f.row)) }) t) s

/-- Discard the unposted rows that satisfy `p`: each counts as skipped, and nothing is written or absorbed for them (R60, R496). -/
def discardRows (p : RowSt → Bool) (n : Ctx) (s : State) : State :=
  let k := ((rowsOf n s).filter (fun r => !r.posted && !r.dropped && p r)).length
  let s := dropRecords (fun x => (rowsOf n s).any (fun r => r.row == x && !r.posted && p r)) n s
  let s := modCx n (fun c => { c with job := c.job.map (fun j => { j with rows := j.rows.map (fun r => if !r.posted && p r then { r with dropped := true, recs := [] } else r) }) }) s
  add TT_ROW_CNT.SKIPPED k s

/-- A reversal deeper than TT_REV_MAX (R60, R65): the withheld records are discarded. A row of which any record is finished is dropped whole,
and one of which none is stays, with the stages that run for it: R60 says neither (log 35). -/
def reverseDeep (s : State) : State :=
  let s := each allCtx (discardRows (fun r => !r.recs.isEmpty)) (wr TT_BACK.LINES 0 s)
  if ttState s == 6 then encoderFault 3 (wr TT_STATUS.CAUSE 3 s) else ttFault 3 s

/-- A counted line at the rate of R50: overspeed and its runs of 256 lines (R62). -/
def overspeedLine (s : State) : State :=
  if rd TT_RATE_MAX.LPS s < rateFull s then
    let k := s.tt.overLines + 1
    let s := { s with tt := { s.tt with overLines := k, underLines := 0 } }
    if 256 ≤ k && !rdB TT_STATUS.OVERSPEED s then
      let s := raise 26 (wr TT_STATUS.OVERSPEED 1 s)
      notice 0x04 0 0 [rd TT_RATE.LPS s, rd TT_RATE_MAX.LPS s] s
    else s
  else
    let k := s.tt.underLines + 1
    let s := { s with tt := { s.tt with underLines := k, overLines := 0 } }
    if 256 ≤ k then wr TT_STATUS.OVERSPEED 0 s else s

/-- TT_LINE counts one line (R45): the hysteresis of CRAWL, the floor of RUN, overspeed, and the clean lines of FAULT. -/
def countLine (s : State) : State :=
  let s := overspeedLine (wr TT_LINE.LINE ((ttLine s + 1) % 2 ^ 48) s)
  match ttState s with
  | 1 => if rateFull s < 500 then ttEnter 2 s else s
  | 2 =>
    let k := if 550 ≤ rateFull s then s.tt.fastLines + 1 else 0
    if 256 ≤ k then ttEnter 1 s else { s with tt := { s.tt with fastLines := k } }
  | 6 => { s with tt := { s.tt with cleanLines := s.tt.cleanLines + 1 } }
  | _ => s

/-- TT_BACK counts down in RETURN, which ends when it reaches 0 (R48, R60). -/
def returnLine (s : State) : State :=
  let s := wr TT_BACK.LINES (rd TT_BACK.LINES s - 1) s
  if rd TT_BACK.LINES s == 0 then ttEnter (if 500 ≤ rateFull s && !s.tt.sawHalt then 1 else 2) s else s

/-- A forward line boundary in the state in force (R45, R48, R65). The boundary that takes STOP to CRAWL is itself counted: R45 counts those
crossed in CRAWL and does not say which state a boundary that changes the state is crossed in (log 35). -/
def boundaryForward (s : State) : State :=
  match ttState s with
  | 0 => s
  | 3 => if rd TT_BACK.LINES s == 0 then countLine (ttEnter 2 s) else returnLine (ttEnter 5 s)
  | 4 => returnLine (ttEnter 5 s)
  | 5 => returnLine s
  | 6 => if rd TT_BACK.LINES s == 0 then countLine s else wr TT_BACK.LINES (rd TT_BACK.LINES s - 1) s
  | _ => countLine s

/-- A backward line boundary (R60, R65). -/
def boundaryBackward (s : State) : State :=
  if ttState s == 0 then s else
  let s := if ttState s == 6 then { s with tt := { s.tt with cleanLines := 0 } } else ttEnter 4 s
  if rd TT_REV_MAX.LINES s < rd TT_BACK.LINES s + 1 then reverseDeep s else wr TT_BACK.LINES (rd TT_BACK.LINES s + 1) s

/-- An event of the fault window (R63): those since the 256th most recent boundary. -/
def inWindow (bounds : Nat) (l : List Nat) : List Nat := l.filter (fun b => bounds ≤ b + 255)

/-- The Timetable enters FAULT when the window holds 16 events of one kind (R63). -/
def windowCheck (s : State) : State :=
  if ttState s == 6 || ttState s == 0 then s
  else if 16 ≤ (inWindow s.tt.bounds s.tt.illegal).length then ttFault 1 s
  else if 16 ≤ (inWindow s.tt.bounds s.tt.spikes).length then ttFault 2 s
  else s

/-- The rate is measured at a boundary (R50), and a spike is judged against the mean before it (R63). -/
def rateMeasure (s : State) : State :=
  let s := { s with tt := { s.tt with bounds := s.tt.bounds + 1, stopRef := s.now, halted := false } }
  match s.tt.lastB with
  | none => { s with tt := { s.tt with lastB := some s.now } }
  | some t =>
    let d := s.now - t
    let spike := ttState s == 1 && rateValid s && decide (d * 64 < rd TT_PERIOD.PERIOD s)
    let s := if spike then
        { inc TT_ENC_ERR.SPIKE s with tt := { s.tt with spikes := s.tt.bounds :: inWindow s.tt.bounds s.tt.spikes, cleanLines := 0 } }
      else s
    let l := (d :: s.tt.intervals).take 8
    let s := { s with tt := { s.tt with lastB := some s.now, intervals := l } }
    let s := if l.length == 8 then wr TT_PERIOD.PERIOD (min (2 * l.sum) 0xFFFFFFF) s else s
    showRate s

/-- A line boundary (R44): measured, then counted in its direction. -/
def boundary (fwd : Bool) (s : State) : State :=
  let s := rateMeasure s
  let s := if fwd then boundaryForward s else boundaryBackward s
  windowCheck (showRate s)

/-- The divider takes one count (R44). -/
def count (fwd : Bool) (s : State) : State :=
  let s := { s with tt := { s.tt with zNet := s.tt.zNet + (if fwd then 1 else -1) } }
  let step := rd TT_STEP.STEP s
  if fwd then
    let a := s.tt.acc + step
    if 0x1000000 ≤ a then boundary true { s with tt := { s.tt with acc := a - 0x1000000 } } else { s with tt := { s.tt with acc := a } }
  else if s.tt.acc < step then boundary false { s with tt := { s.tt with acc := s.tt.acc + 0x1000000 - step } }
  else { s with tt := { s.tt with acc := s.tt.acc - step } }

/-- The count of accepted levels in each decoder mode (R41, R42): none, a direction, or an illegal transition (`none` of the
inner option). -/
def decodeEdge (mode : Nat) (a0 b0 a b : Bool) : Option (Option Bool) :=
  if mode ≤ 1 then
    if a != a0 && b != b0 then some none
    else if a != a0 then some (some (a != b0))
    else if b != b0 && mode == 0 then some (some (b == a0))
    else none
  else if a && !a0 then some (some (!b0)) else none

/-- STOP_TIMEOUT (R61, R65): no boundary for TT_STOP_TO.TIME. -/
def execStopTimeout (s : State) : Host.Outcome State Fault Refusal :=
  .next (if s.now < s.tt.stopRef + us (rd TT_STOP_TO.TIME s) then s else
    match ttState s with
    | 0 => s
    | 3 => s
    | 6 => showRate { s with tt := { s.tt with halted := true } }
    | _ => ttEnter 3 s)

/-- Schedule an epoch by rising line, unless four are scheduled (R53). A line of 2^48 or beyond is kept as it is, and TT_LINE, which wraps below it, never
reaches it: the spec does not say that it wraps (DESIGN CHOICE, log 36). -/
def schedule (line mark : Nat) (s : State) : State :=
  if 4 ≤ s.tt.epochs.length then inc TT_MARK_CNT.OVF s
  else
    let lo := s.tt.epochs.filter (fun e => e.1 ≤ line)
    let hi := s.tt.epochs.filter (fun e => line < e.1)
    { s with tt := { s.tt with epochs := lo ++ [(line, mark)] ++ hi } }

/-- An accepted edge of SHEET_MARK to `level` is tested (R52, R53). -/
def sheetMark (level : Bool) (s : State) : State :=
  if rd TT_MARK_CFG.SRC s == 1 || level == rdB TT_MARK_CFG.POL s then s
  else if ttState s != 1 && ttState s != 2 then s
  else if (match s.tt.lastMark with | some m => decide (ttLine s < m + rd TT_MARK_WIN.GAP s) | none => false) then inc TT_ENC_ERR.MARK_SPUR s
  else if 4 ≤ s.tt.epochs.length then inc TT_MARK_CNT.OVF s
  else schedule (ttLine s + rd TT_MARK_OFS.LINES s) (ttLine s)
    { s with tt := { s.tt with lastMark := some (ttLine s), epochMark := some (ttLine s) } }

/-- The accepted level of SHEET_MARK changes. -/
def markTaken (level : Bool) (s : State) : State := let s := inputTaken .mark s; { s with tt := { s.tt with mark := level } }

/-- SHEET_MARK_EDGE (R40, R52, R53): SHEET_MARK has held `level` for its filter time. The level that it has already is no change of it. -/
def execSheetMarkEdge (level : Bool) (s : State) : Host.Outcome State Fault Refusal :=
  .next (if !domOpen 17 s || level == s.tt.mark || !inputHeld 1 .mark s then s else sheetMark level (markTaken level s))

/-- MARK_SYNTH (R52): the next synthesised mark is reached. -/
def execMarkSynth (s : State) : Host.Outcome State Fault Refusal :=
  let m := s.tt.enLine + s.tt.synthK * rd TT_SHEET_LEN.LINES s
  .next (if rd TT_MARK_CFG.SRC s == 1 && rdB TT_CTRL.ENABLE s && rd TT_SHEET_LEN.LINES s != 0 && m ≤ ttLine s then
      schedule (m + rd TT_MARK_OFS.LINES s) m { s with tt := { s.tt with synthK := s.tt.synthK + 1, epochMark := some m } }
    else s)

/-- MARK_FALLBACK (R52): no mark within TT_SHEET_LEN + WIN lines after the previous epoch's mark. With TT_SHEET_LEN at 0 no fallback is decided: R80 says that
0 disables synthesis, and a repeat of 0 lines would decide one at every line (DESIGN CHOICE, log 36). -/
def execMarkFallback (s : State) : Host.Outcome State Fault Refusal :=
  .next (match s.tt.epochMark with
    | none => s
    | some m =>
      if rd TT_MARK_CFG.SRC s == 2 && rdB TT_CTRL.ENABLE s && rd TT_SHEET_LEN.LINES s != 0 && m + rd TT_SHEET_LEN.LINES s + rd TT_MARK_WIN.WIN s < ttLine s then
        let m2 := m + rd TT_SHEET_LEN.LINES s
        let s := raise 30 (inc TT_MARK_CNT.MISSED (markBit TT_STATUS.MARK_MISSED s))
        schedule (m2 + rd TT_MARK_OFS.LINES s) m2 { s with tt := { s.tt with epochMark := some m2 } }
      else s)

/-- An accepted rising edge of ENC_Z ends an interval, which is checked (R66). -/
def indexEdge (s : State) : State :=
  if !rdB TT_ENC_CFG.Z_EN s || !rdB TT_CTRL.ENABLE s then s else
  let d := (s.tt.zNet.natAbs : Int) - rd TT_Z_CFG.COUNTS s
  let s := if s.tt.zSeen && decide (rd TT_Z_CFG.TOL s < d.natAbs) then inc TT_ENC_ERR.Z_ERR s else s
  { wr TT_STATUS.Z_LOST 0 s with tt := { s.tt with zNet := 0, zSeen := true } }

/-- INDEX_EDGE (R40, R66): ENC_Z has held 1 for its filter time, after it held 0 for as long. -/
def execIndexEdge (s : State) : Host.Outcome State Fault Refusal :=
  .next (if !domOpen 17 s || !inputHeld 2 .encZ s then s else indexEdge (inputTaken .encZ s))

/-- INDEX_LOST (R66): 1.5 times TT_Z_CFG.COUNTS without an index edge. -/
def execIndexLost (s : State) : Host.Outcome State Fault Refusal :=
  .next (if rdB TT_ENC_CFG.Z_EN s && rdB TT_CTRL.ENABLE s && s.tt.zSeen && !rdB TT_STATUS.Z_LOST s && decide (3 * rd TT_Z_CFG.COUNTS s ≤ 2 * s.tt.zNet.natAbs) then
      encoderFault 4 (wr TT_STATUS.Z_LOST 1 s)
    else s)

/-- The rise of ENABLE (R44, R45, R50, R62, R63, R253). Epochs that were scheduled and have not opened, and the last accepted mark, end with it:
R53 is silent on them (log 35). -/
def enableRise (load : Bool) (s : State) : State :=
  let s := if load then wr TT_LINE.LINE (rd TT_LINE_SET.LINE s) s else s
  let s := wrs [(TT_CTRL.ENABLE, 1), (TT_PERIOD.PERIOD, 0xFFFFFFF), (TT_STATUS.OVERSPEED, 0), (TT_EPOCH.NUMBER, 0), (TT_BACK.LINES, 0)] s
  let s := { s with tt := { TtSt.init with encA := s.tt.encA, encB := s.tt.encB, mark := s.tt.mark, stopRef := s.now, enLine := ttLine s, armLine := s.tt.armLine, levelAt := s.tt.levelAt, stamp := s.tt.stamp, released := s.tt.released, still := s.tt.still, stillAt := s.tt.stillAt } }
  ttEnter 2 (edgeApply true (rweApply true s))

/-- TT_ENABLE (R45, R68): a write of ENABLE at 1, with or without LOAD. -/
def execTtEnable (load : Bool) (s : State) : Host.Outcome State Fault Refusal :=
  .next (hostTo 0x100000 false (fun s => if rdB TT_CTRL.ENABLE s then s else enableRise load s) s)

/-- TT_LOAD (R45): a write of LOAD that leaves ENABLE as it is. -/
def execTtLoad (s : State) : Host.Outcome State Fault Refusal :=
  .next (hostTo 0x100000 false (fun s => if rdB TT_CTRL.ENABLE s then s else wr TT_LINE.LINE (rd TT_LINE_SET.LINE s) s) s)

/-- TT_CLR_FAULT (R64, R68): ignored outside FAULT. -/
def execTtClrFault (s : State) : Host.Outcome State Fault Refusal :=
  .next (hostTo 0x100000 false (fun s => if ttState s == 6 then faultLeave s else s) s)

/-- TT_CNT_CLR_ENC_ERR (R83). -/
def execTtCntClrEncErr (s : State) : Host.Outcome State Fault Refusal :=
  .next (hostTo 0x100068 false (cntClr [TT_ENC_ERR.ILLEGAL, TT_ENC_ERR.SPIKE, TT_ENC_ERR.Z_ERR, TT_ENC_ERR.MARK_SPUR]) s)

/-- TT_CNT_CLR_MARK_CNT (R83). -/
def execTtCntClrMarkCnt (s : State) : Host.Outcome State Fault Refusal :=
  .next (hostTo 0x100068 false (cntClr [TT_MARK_CNT.MISSED, TT_MARK_CNT.OVF]) s)

/-- TT_CNT_CLR_ROW_CNT (R83). -/
def execTtCntClrRowCnt (s : State) : Host.Outcome State Fault Refusal :=
  .next (hostTo 0x100068 false (cntClr [TT_ROW_CNT.SKIPPED, TT_ROW_CNT.WAIVED]) s)

/-- TT_CNT_CLR_DL_MISS (R83). -/
def execTtCntClrDlMiss (s : State) : Host.Outcome State Fault Refusal :=
  .next (hostTo 0x100068 false (cntClr [TT_DL_MISS.COUNT]) s)

end Sys2Proof.Machine
end

