-- ==== Sys2Proof/Machine/Rows.lean ====
section
/-! DEFINITION. Tile rows: the slots that release and judge them, epochs, the posting of results and sheet summaries
(R54 to R58, R183, R184, R218 to R222, R286, R287, R290, R345, R348, R418, R419). -/

namespace Sys2Proof.Machine

/-- An armed slot that is due (R54): its target is reached, TT_LINE counts and has moved since it was armed. -/
def slotDue (k : Nat) (s : State) : Bool :=
  rdB (TT_SLOT_ACT.ARMED k) s && rd (TT_SLOT_TGT.LINE k) s ≤ ttLine s && SMap.get (fun _ => 0) s.tt.armLine k != ttLine s

/-- A slot fires: it is due, TT_LINE counts, its action is the one named, and no lower slot is due (R54). While the block is
fenced, RELEASE, DEADLINE and SLICE actions are suppressed and their slots stay armed (R488). -/
def slotFires (k : Slot) (acts : List Nat) (s : State) : Bool :=
  let a := rd (TT_SLOT_ACT.ACTION k.val) s
  let held : Bool := rdB GL_STATUS.FENCED s
  let sup (x : Nat) : Bool := held && 1 ≤ x && x ≤ 3
  domOpen 17 s && ttCounts s && slotDue k.val s && acts.contains a && !sup a &&
  (List.range k.val).all (fun j => !slotDue j s || sup (rd (TT_SLOT_ACT.ACTION j) s))

/-- The slot disarms itself (R54). -/
def slotDisarm (k : Slot) (s : State) : State := wr (TT_SLOT_ACT.ARMED k.val) 0 s

/-- Arm the next rows of a job (R56), two ahead of the next release (log 22), up to the row at which it stops. No SIGNAL slot is armed: R337
gives a job's configuration no field for the lines that R84's chapter says it names (log 35). -/
def armRows (n : Ctx) (s : State) : State :=
  match (cx n s).job with
  | none => s
  | some j =>
    let stop := j.stopRow.getD (j.armRow + 2)
    let rows := (List.range 2).map (j.armRow + ·) |>.filter (fun r => r < j.relRow + 2 && r < stop)
    let s := each rows (fun r t =>
      let l := j.j0 + 256 * r + 255
      armSlot 2 (cid n) (r % 65536) (l + 2048) (armSlot 1 (cid n) (r % 65536) (l + 16) t)) s
    modCx n (fun c => { c with job := some { j with armRow := j.armRow + rows.length } }) s

/-- The job row that a slot's ARG names (R57). -/
def argRow (j : JobSt) (arg : Nat) : Nat := j.judged + (arg + 65536 - j.judged % 65536) % 65536

/-- Whether a coach index has an entry for a row in the program of a waybill. -/
def hasEntry (img : List Byte) (i row : Nat) : Bool :=
  (List.range (progOf img false i).2).any (fun e => (progEnt img false i e).row == row % max 1 (wbPeriod img))

/-- A row that every coach of its partition has finished (R184). -/
def rowFinished (n : Ctx) (r : RowSt) (s : State) : Bool :=
  r.dropped || (List.range (popcount 16 (partMask n s))).all (fun i => bit r.coachDone i || !hasEntry (cx n s).image i (r.row + rowPhase n s))

/-- The rows held beyond the oldest unfinished row (R184). -/
def rowsHeld (n : Ctx) (s : State) : Nat :=
  let live := (rowsOf n s).filter (fun r => !r.dropped)
  match live.find? (fun r => !rowFinished n r s) with
  | none => 0
  | some o => (live.filter (fun r => o.row < r.row)).length

/-- The sheet of a line: the latest epoch at or before it, with its line (R220). -/
def sheetOf (line : Nat) (s : State) : Nat × Nat :=
  match s.tt.opened.find? (fun e => e.2 ≤ line) with | some e => e | none => (rd TT_EPOCH.NUMBER s, rd TT_EPOCH_LINE.LINE s)

/-- A new row of a job. -/
def newRow (j : JobSt) (r : Nat) (dropped mismatch : Bool) (s : State) : RowSt :=
  let line := j.j0 + 256 * r
  let e := sheetOf line s
  { row := r, relAt := s.now, relArith := arithNow s, epoch := e.1, rowInSheet := (line - e.2) / 256, mismatch := mismatch, memErr := false, errCols := [],
    allRun := ttState s == 1, overrun := false, coachDone := 0, recs := [], refs := [], padded := [], absorbed := false, posted := false, dropped := dropped }

/-- Add a row to a job, keeping the last 32 and every one that is not posted. -/
def addRow (n : Ctx) (x : RowSt) (s : State) : State :=
  modCx n (fun c => { c with job := c.job.map (fun j => { j with
    relRow := x.row + 1
    rows := j.rows.filter (fun r => x.row < r.row + 32 || !(r.posted || r.dropped)) ++ [x] }) }) s

/-- DEADLINE_MISS of a row: late (0, R58) or refused (1, R184). -/
def deadlineMiss (n : Ctx) (r reason : Nat) (s : State) : State :=
  notice 0x03 0 (cid n) [cid n + reason * 2 ^ 8, r, ttLine s] (raise 29 s)

/-- The link controller reads one side's strip of a row: 16 pixel columns of each of its 288 lines, at most 2 beats a line (R287); the beats go to the strip. -/
def stripReads (n : Ctx) (r side : Nat) (s : State) : State :=
  let cfg := (cx n s).cfg
  let ofs := if side == 0 then 48 else 768
  let p := rowPos n r s
  each (List.range 288) (fun l =>
    let a := cfgBase cfg 0 + (if side == 0 then 0 else cfgColumns cfg - 1) * (cfgDepth cfg * 864) + (p.line + cfgDepth cfg - 16 + l) % cfgDepth cfg * 864 + ofs
    ownReadFor (.strip r side l (a % 64) (beatsOf a 48)) 2 (cid n) 0 a 48 r) s

/-- The ports read the stamp entry of a line for a row's release (R216, R218). -/
def stampRead (n : Ctx) (row line : Nat) (s : State) : State :=
  let cfg := (cx n s).cfg
  let a := cfgBase cfg 0 + cfgColumns cfg * cfgDepth cfg * 864 + line % cfgDepth cfg * 8
  ownReadFor (.stamp row line (a % 64)) 1 (cid n) 0 a 8 row s

/-- The two stamps that a release reads: that of the first line of the row's window, and that of its last line (R218). -/
def stampReads (n : Ctx) (row first : Nat) (s : State) : State := stampRead n row (first + 255) (stampRead n row ((first + 2 ^ 48 - 16) % 2 ^ 48) s)

/-- A stamp entry has come: one that does not hold its line is a mismatch, counted once for a release and flagged in the row (R218). -/
def stampBack (n : Ctx) (row line e : Nat) (s : State) : State :=
  match rowFind n row s with
  | none => s
  | some r => if e == line || r.mismatch then s else modRow n row (fun x => { x with mismatch := true }) (inc (MP_CTX_RING.STAMP_MISMATCH (cid n)) s)

/-- The HALO frame of a strip goes to its partner (R287). -/
def haloSend (n : Ctx) (x : Strip) (s : State) : State :=
  let dst := cfgPartner (cx n s).cfg x.side
  originate [portTo dst s] 0x10 dst false (cid n) (x.row % 2 ^ 31 + (1 - x.side) * 2 ^ 31) x.data s

/-- A beat of a line of a strip has come, the `place`th from the one in which the line begins at `ofs`: with its last line whole, the strip's frame leaves
(R287). Fill blocks are no part of it. -/
def stripBack (n : Ctx) (row side line ofs beats place : Nat) (bs : List Byte) (s : State) : State :=
  match s.tl.strips.find? (fun x => x.ctx == cid n && x.row == row && x.side == side) with
  | none => s
  | some x =>
    let i := 64 * place - ofs
    let part := (bs.drop (ofs - 64 * place)).take (48 - i)
    let at_ := 48 * line + i
    let y := { x with data := x.data.take at_ ++ part ++ x.data.drop (at_ + part.length), lines := if place + 1 == beats then x.lines + 1 else x.lines }
    let s := { s with tl := { s.tl with strips := s.tl.strips.map (fun z => if z == x then y else z) } }
    if x.lines < 288 && y.lines == 288 then haloSend n y s else s

/-- The strips of a released row are read for the partners, and theirs are awaited (R287, R288). -/
def haloRelease (n : Ctx) (r : Nat) (s : State) : State :=
  let cfg := (cx n s).cfg
  match (cx n s).job with
  | none => s
  | some j =>
    if !j.tandem then s else
    each [0, 1] (fun side t =>
      if !cfgHasPartner cfg side then t else
      let t := stripReads n r side t
      { t with tl := { t.tl with
        strips := (t.tl.strips.filter (fun x => x.ctx != cid n || r < x.row + 4)) ++ [⟨cid n, r, side, List.replicate 13824 0, 0⟩]
        waits := if t.tl.arrived.contains (cid n, r, side) then t.tl.waits else t.tl.waits ++ [⟨cid n, r, side, t.now, 0⟩] } }) s

/-- A RELEASE slot's effect on its row (R55, R184, R218). -/
def releaseRow (n : Ctx) (arg : Nat) (s : State) : State :=
  match (cx n s).job with
  | none => s
  | some j =>
    if cxState n s != 3 || !j.running then s else
    let r := argRow j arg
    let s := haloRelease n r s
    let s :=
      if ttState s == 6 then addRow n (newRow j r true false s) (inc TT_ROW_CNT.SKIPPED s)
      else if 4 ≤ rowsHeld n s then
        let s := addRow n (newRow j r true false s) (inc (GL_WB_DROPS.ROWS (cid n)) (disarmRow 2 n r s))
        deadlineMiss n r 1 (raise 75 s)
      else
        let s := stampReads n r (j.j0 + 256 * r) s
        addRow n (newRow j r false false s) { s with tt := { s.tt with released := s.tt.released + 1 } }
    armRows n s

/-- SLOT_RELEASE (R54 to R57). -/
def execSlotRelease (n : Slot) (_obs : RowObs) (s : State) : Host.Outcome State Fault Refusal :=
  .next (if !slotFires n [1] s then s else
    let s := slotDisarm n s
    match ctxOf (rd (TT_SLOT_ACT.CTX n.val) s) with
    | some c => releaseRow c (rd (TT_SLOT_ACT.ARG n.val) s) s
    | none => s)

/-- A DEADLINE slot judges its row (R57, R58): waived if the state left RUN since the release, whether or not the notice was posted (log 35),
else met, or missed unless the cycle still posts it. -/
def judgeRow (n : Ctx) (arg : Nat) (s : State) : State :=
  match (cx n s).job with
  | none => s
  | some j =>
    let r := argRow j arg
    let s := modCx n (fun c => { c with job := c.job.map (fun x => { x with judged := r + 1 }) }) s
    match j.rows.find? (fun x => x.row == r) with
    | none => s
    | some x =>
      if !x.allRun || ttState s != 1 then inc TT_ROW_CNT.WAIVED s
      else if x.posted then s
      else { s with tt := { s.tt with dueRows := s.tt.dueRows ++ [(n.val, r)] } }

/-- The end of a cycle in which DEADLINE slots have fired: a row whose notice it has not posted is missed (R58). -/
def deadlineCycle (s : State) : State :=
  each s.tt.dueRows (fun d t =>
    match ctxOf (d.1 + 1) with
    | none => t
    | some n => match rowFind n d.2 t with
      | none => t
      | some x => if x.posted then t else deadlineMiss n d.2 0 (inc TT_DL_MISS.COUNT t)) { s with tt := { s.tt with dueRows := [] } }

/-- SLOT_DEADLINE (R58). -/
def execSlotDeadline (n : Slot) (s : State) : Host.Outcome State Fault Refusal :=
  .next (if !slotFires n [2] s then s else
    let s := slotDisarm n s
    match ctxOf (rd (TT_SLOT_ACT.CTX n.val) s) with
    | some c => judgeRow c (rd (TT_SLOT_ACT.ARG n.val) s) s
    | none => s)

/-- A context has work for its turn: it is RUNNING, or a reference pass is pending (R244). -/
def hasWork (n : Ctx) (s : State) : Bool := cxState n s == 3 || (ctxLive n s && (cx n s).refRun.isSome)

/-- The next member after `n` with work (R244). -/
def nextMember (n : Ctx) (s : State) : Option Ctx :=
  let ms := membersOf (partMask n s) s
  let i := ms.findIdx (· == n)
  ((ms.drop (i + 1)) ++ ms.take i).find? (fun m => m != n && hasWork m s)

/-- The length of a context's slice, its debt deducted but not below half (R251), and the debt that stays. -/
def sliceLen (n : Ctx) (s : State) : Nat × Nat :=
  let c := cx n s
  let d := rd (GL_CTX_DEBT.CARRIED (cid n)) s
  let unit := if c.sliceUnit == 0 then ceilDiv (d * 16) (effPeriod s) else ceilDiv d 1200
  let cut := min unit (c.sliceLen / 2)
  (c.sliceLen - cut, if unit ≤ c.sliceLen / 2 then 0 else d - (if c.sliceUnit == 0 then cut * effPeriod s / 16 else cut * 1200))

/-- A slice begins (R245, R251): a SLICE slot is armed for a sheet-bound one. -/
def sliceBegin (n : Ctx) (s : State) : State :=
  if (cx n s).sliceLen == 0 || (liveMembers (partMask n s) s).length < 2 then s else
  let l := sliceLen n s
  let s := wr (GL_CTX_DEBT.CARRIED (cid n)) l.2 s
  let s := modCx n (fun c => { c with sliceAt := s.now, sliceLine := ttLine s, sliceCut := l.1 }) s
  if (cx n s).sliceUnit == 0 then armSlot 3 (cid n) 0 (ttLine s + l.1) s else s

/-- A slice ends (R244, R249 step 1): a switch towards the next member with work begins, or the member keeps its coaches; each
coach runs on to its next preemption point. -/
def sliceEnd (n : Ctx) (s : State) : State :=
  if !resident n s || (cx n s).switchTo.isSome then s else
  let s := raise 31 s
  match nextMember n s with
  | none => sliceBegin n s
  | some m =>
    let s := modCx n (fun c => { c with switchE := some s.now, switchP := none, switchTo := some m.val, moving := partMask n s }) s
    each (coachesOf (partMask n s)) holdStage s

/-- The overrun of the previous entry is charged (R193). -/
def chargeOverrun (c : Coach) (n : Ctx) (p : ProgPos) (ref : Bool) (s : State) : State :=
  let s := wrs [(GL_WB_OVERRUN.LAST_STAGE (cid n), p.prevStage), (GL_WB_OVERRUN.LAST_COACH (cid n), c.val)]
    (markBit (GL_WB_STATUS.OVERRUN_SEEN (cid n)) (raise 74 (inc (GL_WB_OVERRUN.COUNT (cid n)) s)))
  let first := if ref then !(cx n s).refOverrun else (match rowFind n p.prevRow s with | some r => !r.overrun | none => true)
  let s := if ref then modCx n (fun x => { x with refOverrun := true }) s else modRow n p.prevRow (fun r => { r with overrun := true }) s
  if first then
    notice 0x06 0 (cid n) [cid n + (if confidential s then 0 else c.val) * 2 ^ 4 + p.prevStage * 2 ^ 8, p.prevRow, p.prevWaits] s
  else s

/-- The delay of a switch is charged to the incoming context, under STAGE_ID 0xFF (R194, R251, R261). The notice names the first row that the context has not
finished: no rule says which row such a charge has (DESIGN CHOICE, log 36). -/
def switchCharge (c : Coach) (m : Ctx) (d : Nat) (s : State) : State :=
  if d == 0 then s else
  let row := match (rowsOf m s).find? (fun r => !rowFinished m r s) with | some r => r.row | none => 0
  chargeOverrun c m ⟨0, 0, 0, 3 * d / 2, 0xFF, row⟩ (cx m s).refRun.isSome s

/-- SLOT_SLICE (R55, R245). -/
def execSlotSlice (n : Slot) (s : State) : Host.Outcome State Fault Refusal :=
  .next (if !slotFires n [3] s then s else
    let s := slotDisarm n s
    match ctxOf (rd (TT_SLOT_ACT.CTX n.val) s) with
    | some c => sliceEnd c s
    | none => s)

/-- SLOT_SIGNAL (R55): sources 16 to 23. -/
def execSlotSignal (n : Slot) (s : State) : Host.Outcome State Fault Refusal :=
  .next (if !slotFires n [4] s then s else raise (16 + rd (TT_SLOT_ACT.ARG n.val) s % 8) (slotDisarm n s))

/-- SLOT_NONE (R55). -/
def execSlotNone (n : Slot) (s : State) : Host.Outcome State Fault Refusal :=
  .next (if !slotFires n [0, 5, 6, 7] s then s else slotDisarm n s)

/-- The head broadcasts LINE_SYNC, and its own offsets are zero (R286, log 23). -/
def sendLineSync (s : State) : State :=
  let s := wrs [(TL_LINE_OFS.OFS, 0), (TL_EPOCH_OFS.OFS, 0), (TL_STATUS.SYNCED, 1)] s
  sendControl [0, 1] 2 0 true 0 (leBytes 4 (rd TT_EPOCH.NUMBER s) ++ leBytes 8 (rd TT_EPOCH_LINE.LINE s) ++ leBytes 4 0)
    { s with tl := { s.tl with syncDue := false } }

/-- EPOCH_OPEN (R53, R64, R255, R286): the earliest scheduled epoch that TT_LINE has reached. -/
def execEpochOpen (s : State) : Host.Outcome State Fault Refusal :=
  .next (match s.tt.epochs with
    | [] => s
    | e :: r =>
      if ttLine s < e.1 || !ttCounts s then s else
      let num := (rd TT_EPOCH.NUMBER s + 1) % 2 ^ 32
      let s := wrs [(TT_EPOCH.NUMBER, num), (TT_EPOCH_LINE.LINE, e.1)] s
      let s := { s with tt := { s.tt with epochs := r, opened := ((num, e.1) :: s.tt.opened).take 8 } }
      let s := raise 24 (edgeApply false (rweApply false s))
      let s := if ttState s == 6 && 256 ≤ s.tt.cleanLines then faultLeave s else s
      if s.tl.syncDue && linkOn s && linkPos s == 0 then sendLineSync s else s)

/-- A write of the block into a region of a context (R215). -/
def writeRegionAs (n : Ctx) (region ofs stage row : Nat) (data : List Byte) (s : State) : State :=
  ownWrite 3 (cid n) region (cfgBase (cx n s).cfg region + ofs) stage row data s

/-- The same, outside every stage. -/
def writeRegion (n : Ctx) (region ofs : Nat) (data : List Byte) (s : State) : State := writeRegionAs n region ofs 0xFF 0 data s

/-- A record of the outbound bounce ring (R346, R348): KIND, TARGET and plaintext. Returns its offset and COUNT. -/
def bounceOut (n : Ctx) (kind target : Nat) (data : List Byte) (s : State) : (Nat × Nat) × State :=
  let c := cx n s
  let cfg := c.cfg
  let cnt := c.bounce.countOut + 1
  let row := cfgColumns cfg * (256 + if cfgMapEn cfg then 2048 else 0)
  let stride := ceilDiv (32 + row + 16) 4096 * 4096
  let slots := (c.bounce.size - c.bounce.outOfs) / stride
  let ofs := c.bounce.outOfs + (cnt - 1) % slots * stride
  let data := pad16 data
  let hdr := wordsBytes [0x31434E42, cid n + 16 + kind * 2 ^ 8, low32 cnt, cnt / 2 ^ 32, data.length, target, 0, 0]
  let iv := leBytes 8 cnt ++ leBytes 4 (cid n + 16)
  let ct := gcmCrypt c.bounce.key iv data
  let rec_ := hdr ++ ct ++ gcmTag c.bounce.key iv hdr ct
  let s := initPush true (cid n) (c.bounce.base + ofs) rec_.length rec_ s
  ((ofs, cnt), modCx n (fun c => { c with bounce := { c.bounce with countOut := cnt } }) s)

/-- The words of a SUMMARY payload (R290). -/
def summaryBytes (x : SummarySt) : List Byte :=
  wordsBytes [x.sheet, x.rows + x.records * 2 ^ 16, x.flagged + x.flags * 2 ^ 16, 0, 0, 0, 0, 0] ++ x.vectors

/-- The merged summary of a sheet (R345), cut at SUM_SLOT. -/
def mergedSummary (slot : Nat) (xs : List SummarySt) : List Byte :=
  let tot (f : SummarySt → Nat) : Nat := (xs.map f).sum
  let flags := xs.foldl (fun a x => a ||| x.flags) 0
  let body (fl : Nat) : List Byte :=
    wordsBytes [(xs.headD ⟨0, 0, 0, 0, 0, 0, []⟩).sheet, tot (·.rows) % 65536 + tot (·.records) % 65536 * 2 ^ 16, tot (·.flagged) % 65536 + fl * 2 ^ 16, 0, 0, 0, 0, 0] ++
      xs.flatMap (fun x => leBytes 4 (x.pos + x.vectors.length * 2 ^ 16) ++ x.vectors)
  if (body flags).length ≤ slot then body flags else (body (flags ||| 4)).take slot

/-- The blocks whose summaries a sheet needs (R38, R290): those of the chain table that the job covers. Of a Tandem job these are this block, its halo
partners, and of the others those of a free mask: no field gives them (R285, log 36). A job of its own, or one that gives it no halo partner, covers this
block alone. -/
def summaryBlocks (n : Ctx) (s : State) : List Nat :=
  match (cx n s).job with
  | some j =>
    let cfg := (cx n s).cfg
    if j.tandem && [0, 1].any (fun k => cfgHasPartner cfg k) then
      (s.tl.table.map (·.1)).filter (fun p => p == linkPos s || [0, 1].any (fun k => cfgHasPartner cfg k && cfgPartner cfg k == p) || bit j.covers p)
    else [linkPos s]
  | none => [linkPos s]

/-- The head posts SHEET_SUMMARY when every block's summary of the sheet is present (R38, R290, R345). -/
def summaryTry (n : Ctx) (sheet : Nat) (s : State) : State :=
  let xs := sortBy (fun a b => a.pos ≤ b.pos) ((cx n s).summaries.filter (fun x => x.sheet == sheet))
  if withheld s || scrubHeld (cid n) s || !(summaryBlocks n s).all (fun p => xs.any (fun x => x.pos == p)) then s else
  let bytes := mergedSummary (cfgSumSlot (cx n s).cfg) xs
  let ofs := sumOfs (cx n s).cfg sheet
  let s := writeRegion n 6 ofs bytes s
  let conf := rdB (GL_CTX_STATUS.CONFIDENTIAL (cid n)) s
  let b := if conf then bounceOut n 3 sheet bytes s else ((ofs, 0), s)
  let reused := (cx n s).sumOpen.any (fun x => x % 4 == sheet % 4)
  let flags := xs.foldl (fun a x => a ||| x.flags) 0 % 4 * 4 + b2n reused * 16
  let s := modCx n (fun c => { c with summaries := c.summaries.filter (fun x => x.sheet != sheet), sumOpen := sheet :: c.sumOpen.filter (fun x => x % 4 != sheet % 4) })
    { b.2 with tl := { b.2.tl with sumWaits := b.2.tl.sumWaits.filter (fun w => !(w.ctx == cid n && w.sheet == sheet)) } }
  notice 0x02 flags (cid n) [cid n, sheet, (xs.map (·.records)).sum, (xs.map (·.flagged)).sum, b.1.1, bytes.length] s

/-- The running summary of this block takes a posted row; FLAGGED and the vectors depend on bytes that Gobex's report alone lays
out, so both are free values (log 24). -/
def summaryRow (n : Ctx) (r : RowSt) (s : State) : State :=
  let sheet := (match (cx n s).job with | some j => if j.tandem then headEpoch r.epoch s else r.epoch | none => r.epoch)
  let f := free s
  let s := f.2
  let x := match (cx n s).summaries.find? (fun x => x.sheet == sheet && x.pos == 64) with | some x => x | none => ⟨sheet, 64, 0, 0, 0, 0, []⟩
  let x := { x with rows := x.rows + 1, records := x.records + r.recs.length, flagged := (x.flagged + f.1 % (r.recs.length + 1)) % 65536,
                    flags := x.flags ||| (b2n r.memErr + 2 * b2n r.mismatch) }
  modCx n (fun c => { c with summaries := x :: c.summaries.filter (fun y => !(y.sheet == sheet && y.pos == 64)) }) s

/-- Of a context's summaries those of its last four sheets are kept (R290). -/
def sumsKeep (id : Nat) (xs : List (Nat × Nat × List Byte)) : List (Nat × Nat × List Byte) :=
  (xs.filter (fun x => x.1 == id)).take 4 ++ xs.filter (fun x => x.1 != id)

/-- The last row of a sheet is posted: this block's summary is whole, and goes to the head or is the head's own (R290). -/
def summaryEnd (n : Ctx) (sheet : Nat) (s : State) : State :=
  match (cx n s).summaries.find? (fun x => x.sheet == sheet && x.pos == 64) with
  | none => s
  | some x =>
    let v := freeBytes 16 s
    let s := v.2
    let x := { x with pos := linkPos s, vectors := v.1 }
    let rest := (cx n s).summaries.filter (fun y => !(y.sheet == sheet && y.pos == 64))
    let tandem := match (cx n s).job with | some j => j.tandem | none => false
    if tandem && linkPos s != 0 then
      let pay := summaryBytes x
      let s := modCx n (fun c => { c with summaries := rest }) s
      originate [portTo 0 s] 0x11 0 false (cid n) sheet pay { s with tl := { s.tl with sums := sumsKeep (cid n) ((cid n, sheet, pay) :: s.tl.sums) } }
    else
      let s := modCx n (fun c => { c with summaries := x :: rest }) s
      let s := if tandem then { s with tl := { s.tl with sumWaits := s.tl.sumWaits ++ [⟨cid n, sheet, ttLine s, 0⟩] } } else s
      summaryTry n sheet s

/-- The last row of a sheet is posted: its summary goes out, but for a Tandem job only if every row that the job has of the sheet has been posted (R290). -/
def summaryDue (n : Ctx) (r : RowSt) (sheet : Nat) (s : State) : State :=
  let tandem := match (cx n s).job with | some j => j.tandem | none => false
  let whole := (cx n s).summaries.any (fun x => x.sheet == sheet && x.pos == 64 && x.rows == min r.rowInSheet r.row + 1)
  if tandem && !whole then modCx n (fun c => { c with summaries := c.summaries.filter (fun y => !(y.sheet == sheet && y.pos == 64)) }) s
  else summaryEnd n sheet s

/-- RECORD writes of a row that the memory has not answered (R38). -/
def recordOpen (n : Ctx) (row : Nat) (s : State) : Bool :=
  s.mp.txs.any (fun t => t.ctx == cid n && (match t.dest with | .record _ r => r == row | _ => false) && !t.abandoned) ||
  allCoach.any (fun c => (co c s).xfers.any (fun x => x.ctx == cid n && x.row == row && !x.data.isEmpty && x.issued < x.total))

/-- Post RESULT_ROW_READY for the oldest absorbed row whose records are written (R38, R222, R344, R348). -/
def postRow (n : Ctx) (s : State) : State :=
  match (rowsOf n s).find? (fun r => !r.posted && !r.dropped) with
  | none => s
  | some r =>
    if !r.absorbed || withheld s || scrubHeld (cid n) s || recordOpen n r.row s then s else
    let s := modRow n r.row (fun x => { x with posted := true }) s
    let s := add (MP_CTX_RES_PROD.ROWS (cid n)) 1 s
    let conf := rdB (GL_CTX_STATUS.CONFIDENTIAL (cid n)) s
    let recs := sortBy (fun a b => a.column ≤ b.column) r.recs
    let b := if conf then bounceOut n 2 r.row (recs.flatMap (·.data) ++ recs.flatMap (·.map)) s else ((0, 0), s)
    let s := notice 0x01 (4 * b2n r.memErr + 8 * b2n r.mismatch) (cid n) [cid n, r.row, r.epoch, rd (MP_CTX_RES_PROD.ROWS (cid n)) b.2, b.1.1, b.1.2] b.2
    let s := summaryRow n r s
    let sheet := (match (cx n s).job with | some j => if j.tandem then headEpoch r.epoch s else r.epoch | none => r.epoch)
    if r.rowInSheet + 1 == cfgSheetRows (cx n s).cfg then summaryDue n r sheet s else s

/-- Post every row that may be posted, the oldest first (R38). -/
def postRows (n : Ctx) (s : State) : State := each (List.range (rowsOf n s).length) (fun _ => postRow n) s

/-- Nothing keeps sheet work back any more: the withheld rows and summaries are posted in their order (R60, R65). -/
def sheetResume (s : State) : State :=
  each allCtx (fun n t => each ((cx n t).summaries.map (·.sheet)) (summaryTry n) (postRows n t)) s

/-- What the Timetable does, after which withheld sheet work goes out if nothing withholds it any longer (R60). -/
def thenResume (f : State → State) (s : State) : State :=
  let t := f s
  if withheld s && !withheld t then sheetResume t else t

/-- The levels that the filters of ENC_A and ENC_B let through (R40). -/
def filtered (a b : Bool) (s : State) : Bool × Bool :=
  (if a == s.tt.encA || inputHeld 1 .encA s then a else s.tt.encA, if b == s.tt.encB || inputHeld 1 .encB s then b else s.tt.encB)

/-- The accepted levels of ENC_A and ENC_B are taken (R40). -/
def encTaken (a b : Bool) (s : State) : State :=
  let s := when_ (b != s.tt.encB) (inputTaken .encB) (when_ (a != s.tt.encA) (inputTaken .encA) s)
  { s with tt := { s.tt with encA := a, encB := b } }

/-- What a change of the accepted levels of ENC_A and ENC_B counts (R41 to R44). -/
def encCount (d : Option (Option Bool)) (s : State) : State :=
  match d with
  | none => s
  | some none =>
    windowCheck { inc TT_ENC_ERR.ILLEGAL s with tt := { s.tt with illegal := s.tt.bounds :: inWindow s.tt.bounds s.tt.illegal, cleanLines := 0 } }
  | some (some f) => count (f != rdB TT_ENC_CFG.INV_DIR s) s

/-- ENC_EDGE (R40 to R44): ENC_A and ENC_B have held these levels. -/
def execEncEdge (a b : Bool) (s : State) : Host.Outcome State Fault Refusal :=
  .next (if !domOpen 17 s then s else
    let l := filtered a b s
    let d := decodeEdge (rd TT_ENC_CFG.MODE s) s.tt.encA s.tt.encB l.1 l.2
    let s := encTaken l.1 l.2 s
    if !rdB TT_CTRL.ENABLE s then s else thenResume (encCount d) s)

/-- TT_DISABLE (R60, R68): a write of ENABLE at 0. With TT_BACK at 0 finished records are still posted (R49). -/
def execTtDisable (s : State) : Host.Outcome State Fault Refusal :=
  .next (hostTo 0x100000 false (fun s =>
    if !rdB TT_CTRL.ENABLE s then s else
    thenResume (fun s =>
      let s := if rd TT_BACK.LINES s != 0 then each allCtx (discardRows (fun _ => true)) (wr TT_BACK.LINES 0 s) else s
      ttEnter 0 (wr TT_CTRL.ENABLE 0 s)) s) s)

/-- The reference digest of a tile: over the bytes of its REFRASTER fetches in address order (R419). -/
def tileDigest (refs : List RefPiece) (col : Nat) : List Byte :=
  sha384 ((sortBy (fun a b => a.ofs ≤ b.ofs) (refs.filter (fun p => p.col == col))).flatMap (·.bytes))

/-- The raster digest of a row: the SHA-384 of its tiles' reference digests in column order (R419); none while one is missing. -/
def rasterDigest (n : Ctx) (r : RowSt) (s : State) : Option (List Byte) :=
  if rasterWhole n r s then some (sha384 ((List.range (cfgColumns (cx n s).cfg)).flatMap (tileDigest r.refs))) else none

/-- LEDGER_ABSORB_ROW (R418, R419): the oldest row whose records have all arrived is absorbed, and posted once it is written. -/
def execLedgerAbsorbRow (n : Ctx) (s : State) : Host.Outcome State Fault Refusal :=
  .next (match (rowsOf n s).find? (fun r => !r.absorbed && !r.dropped) with
    | none => postRows n s
    | some r =>
      let s := postRows n s
      if withheld s || !domOpen 21 s || !rowWhole n r s then s else
      let go (raster : Option (List Byte)) : State :=
        postRows n (modRow n r.row (fun x => { x with absorbed := true }) (ledgerRow n r raster s))
      if cfgVariable (cx n s).cfg then
        (match rasterDigest n r s with
        | none => s
        | some d => go (some d))
      else go none)

end Sys2Proof.Machine
end

