-- ==== Sys2Proof/Machine/Teardown.lean ====
section
/-! DEFINITION. Teardown, scrubs and the places of contexts on their coaches (R249, R256 to R263, R494 to R496). -/

namespace Sys2Proof.Machine

/-- Close the fence of a domain whose unit an escalation stops or resets (R487). -/
def fenceShut (d : Nat) (s : State) : State := { s with pw := { s.pw with fenced := d :: s.pw.fenced.filter (· != d) } }
/-- Open it again. -/
def fenceOpen (d : Nat) (s : State) : State := { s with pw := { s.pw with fenced := s.pw.fenced.filter (· != d) } }

/-- A scrub of a coach begins in a domain whose fence is open again (R262). -/
def scrubBegin (c : Coach) (s : State) : State := scrubStart c (fenceOpen c.val s)

/-- The place in a coach program of the first entry of a row (R180, R181, R495); there is one for each coach of the waybill. -/
def progAtRow (img : List Byte) (i row : Nat) : ProgPos :=
  if wbNCoach img ≤ i then ⟨0, 0, 0, 0, 0, 0⟩ else
  let per := max 1 (wbPeriod img)
  let es := (List.range (progOf img false i).2).map (progEnt img false i)
  ⟨es.findIdx (fun e => e.row == row % per), row - row % per, 0, 0, 0, 0⟩

/-- The coaches of a context begin a program: none of its entries has begun (R172). -/
def freshCoaches (n : Ctx) (s : State) : State :=
  each ((coachesOf (partMask n s)).filter (fun c => coachCtxId c s == cid n)) (fun c => modCo c (fun x => { x with begun := false, winRes := 0, winLeft := 0 })) s

/-- A context's coach programs start, or restart, at the first entry of a row (R338, R495, R496): what is held on its coaches or in
its save areas counts no more. -/
def progStart (n : Ctx) (row : Nat) (s : State) : State :=
  freshCoaches n <| modCx n (fun c => { c with
    prog := Vector.ofFn (fun i => progAtRow c.image i.val (row + rowPhase n s)), saves := []
    job := c.job.map (fun j => { j with fromRow := row }) }) s

/-- A reference pass starts its programs from their first entries (R180, R496). -/
def refStart (n : Ctx) (s : State) : State :=
  freshCoaches n <| modCx n (fun c => { c with prog := Vector.replicate 16 ⟨0, 0, 0, 0, 0, 0⟩, saves := [], refRun := some (arithNow s), refCoaches := 0, refOverrun := false }) s

/-- Whether the capture window of a row has passed out of its ring (R216, R496). -/
def windowGone (n : Ctx) (row : Nat) (s : State) : Bool :=
  match (cx n s).job with
  | some j => j.j0 + 256 * row + cfgDepth (cx n s).cfg ≤ ttLine s + 16
  | none => false

/-- Discard the unposted rows whose window is gone; their DEADLINE slots are disarmed without a miss (R340, R496). -/
def discardGone (n : Ctx) (s : State) : State :=
  let gone := ((rowsOf n s).filter (fun r => !r.posted && !r.dropped && windowGone n r.row s)).map (·.row)
  discardRows (fun r => gone.contains r.row) n (each gone (disarmRow 2 n) s)

/-- A context that was stopped for a replay resumes: at the first row it has not posted, or with its reference pass anew (R496). -/
def resume (n : Ctx) (s : State) : State :=
  if (cx n s).refRun.isSome then refStart n s else
  let s := discardGone n s
  match (cx n s).job with
  | none => s
  | some j =>
    let first := match j.rows.find? (fun r => !r.posted && !r.dropped) with | some r => r.row | none => j.relRow
    let s := modCx n (fun c => { c with job := c.job.map (fun j => { j with rows := j.rows.map (fun r =>
      if first ≤ r.row && !r.absorbed then { r with coachDone := 0, recs := [], refs := [] } else r) }) }) s
    progStart n first s

/-- A transfer of a switch at a point, given by stage, row and column: a coach's live list under tag 512, its control state under tag 513 at byte 2 MiB of
the save area (R249). -/
def swXfer (write : Bool) (n : Ctx) (p : Nat × Nat × Nat) (tag beats : Nat) (data : List Byte) (s : State) : Xfer := {
  write := write, region := 5, tag := tag, ctx := cid n, row := p.2.1, col := p.2.2, stage := p.1, ofs := if tag == 512 then 0 else 0x200000, buf := 0
  data := data, total := beats, issued := 0, arrived := 0, issueAt := arithNow s, waits0 := 0, res := 0, doneAt := none }

/-- A coach begins to save or to restore: its transfers, and the reservation of the switch from the next window on (R249, R250). -/
def swBegin (c : Coach) (res : Nat) (xs : List Xfer) (s : State) : State :=
  modCo c (fun x => { x with xfers := xs.filter (·.total != 0), swRes := res, winRes := 0, winLeft := 0 }) s

/-- A coach reads a save area of the incoming context back (R249 step 5); one that saved nothing is ready at once. -/
def restoreBegin (c : Coach) (m : Ctx) (res : Nat) (s : State) : State :=
  let s := wr (CA_STATUS.STATE c.val) 3 s
  match saveFind m c s with
  | none => swBegin c res [] s
  | some v =>
    let p := match v.run with | some r => (r.stage, r.row, r.col) | none => (0xFF, 0, 0)
    swBegin c res [swXfer false m p 512 ((v.live.map (·.2.2)).sum / 64) [] s, swXfer false m p 513 64 [] s] s

/-- A context takes its coaches: they run it from its program, or its save areas are restored first (R249 step 5, R262). -/
def takeCoaches (n : Ctx) (s : State) : State :=
  if (cx n s).saves.isEmpty then
    let s := wr (GL_CTX_STATUS.RESIDENT (cid n)) 1 s
    let s := each ((coachesOf (partMask n s)).filter (fun c => coachState c s != 4 && domOn c.val s)) (fun c => coachTake c n) s
    sliceBegin n s
  else
    let s := each ((coachesOf (partMask n s)).filter (fun c => coachState c s != 4)) (fun c => restoreBegin c n (wbResPt (cx n s).image)) s
    modCx n (fun c => { c with switchP := some s.now, moving := partMask n s }) s

/-- A member that holds its group's coaches, or is taking them. -/
def holds (n : Ctx) (s : State) : Bool := ctxLive n s && (resident n s || (cx n s).moving != 0 || (cx n s).switchTo.isSome)

/-- The member of a slice group to which its coaches pass: the next one with work, else its first (R244). -/
def passTo (after : Nat) (mask : Nat) (s : State) : Option Ctx :=
  let ms := liveMembers mask s
  match (ms.filter (fun n => after < (cx n s).order) ++ ms).find? (fun n => hasWork n s) with | some n => some n | none => ms.head?

/-- The coaches of a partition pass to the next member of the slice group, or to the free pool (R244, R256 step 6). -/
def passCoaches (after : Nat) (mask : Nat) (s : State) : State :=
  if (liveMembers mask s).any (fun n => holds n s) then s else
  match passTo after mask s with
  | some n => takeCoaches n s
  | none => each ((coachesOf mask).filter (fun c => coachState c s != 4)) coachFree s

/-- CONTEXT_RETIRE leaves on both ports (R256 step 2, R294). -/
def sendRetire (n : Ctx) (s : State) : State :=
  let seq := (s.tl.retireSeq + 1) % 2 ^ 32
  let s := modCx n (fun c => { c with retireSent := s.now }) { s with tl := { s.tl with retireSeq := seq } }
  originate [0, 1] 0x21 0 true (cid n) seq (List.replicate 16 0) s

/-- A waiting notice names a context (R344). -/
def names (id : Nat) (w : List Nat) : Bool :=
  let k := bits (w.headD 0) 0 8
  if k == 9 || k == 11 then bits (w.getD 1 0) 12 4 == id else [1, 2, 3, 6].contains k && bits (w.getD 1 0) 0 4 == id

/-- Notices that name a context wait on another channel than that of its CONTEXT_TORN_DOWN (R257, R342). -/
def namedElsewhere (n : Ctx) (s : State) : Bool :=
  (chansOf .coachman).any (fun k => k != noticeChan 7 s && (chan k s).notices.any (names (cid n)))

/-- CONTEXT_TORN_DOWN or CONTEXT_SCRUBBED: it waits until the notices that name the context and were queued before have been posted (R257). -/
def tornNotice (n : Ctx) (code : Nat) (payload : List Nat) (s : State) : State :=
  if (cx n s).tornDue.isEmpty && !namedElsewhere n s then notice code 0 (cid n) payload s
  else modCx n (fun c => { c with tornDue := c.tornDue ++ [(code, payload)] }) s

/-- A cycle of the notices that wait so. -/
def tornCycle (s : State) : State :=
  each (allCtx.filter (fun n => !(cx n s).tornDue.isEmpty)) (fun n t =>
    if namedElsewhere n t then t else
    each (cx n t).tornDue (fun d => notice d.1 0 (cid n) d.2) (modCx n (fun c => { c with tornDue := [] }) t)) s

/-- A context's ID is free again (R238, R259); its ledger is kept (R260). -/
def quarantineTry (n : Ctx) (s : State) : State :=
  if cxState n s == 7 && rd (GL_CTX_RETIRE.PEERS_PENDING (cid n)) s == 0 && rdB (GL_CTX_RETIRE.TIMER_DONE (cid n)) s then
    wrs [(GL_CTX_STATUS.STATE (cid n), 0), (GL_CTX_STATUS.CONFIDENTIAL (cid n), 0), (SB_LEDGER_STATE.OPEN (cid n), 0)]
      (modCx n (fun c => { CtxSt.init with ledger := c.ledger, tornDue := c.tornDue }) s)
  else s

/-- Every scrub of a teardown has passed (R256 step 6): the delay that it made in a switch is charged (R261), and episodes at level CONTEXT that awaited it end (R483). -/
def tearScrubbed (n : Ctx) (s : State) : State :=
  if !(cxState n s == 6 && (cx n s).scrubCoaches == 0 && !(cx n s).scrubPages) then s else
  let mask := partMask n s
  let ord := (cx n s).order
  let s := tornNotice n 0x08 [cid n] s
  let s := wrs [(GL_CTX_STATUS.STATE (cid n), 7), (GL_CTX_STATUS.PARTITION (cid n), 0), (GL_WB_STATUS.LOADED (cid n), 0)] (modCx n (fun c => { c with order := 0 }) s)
  let s := match (cx n s).tearDelay.bind (fun d => (ctxOf (d.1 + 1)).map (fun m => (m, d.2))), (coachesOf mask).head? with
    | some (m, t), some c => if ctxLive m s then switchCharge c m (s.now - t) s else s
    | _, _ => s
  let us := (List.finRange 21).filter (fun u => rdB (GL_FLT_STATE.RECOVERING u.val) s && s.flt.level[u] == 1 && rd (GL_FLT_P0.CTX u.val) s == cid n)
  let s := each us (fun u => episodeEnd u.val) s
  let s := if (liveMembers mask s).isEmpty && s.flt.replay.isSome then s else passCoaches ord mask s
  quarantineTry n (showGig (showSliced s))

/-- Gig pages of a context are being scrubbed (R256 step 5, R262). -/
def pageScrub (n : Ctx) (s : State) : State :=
  if (List.finRange 64).any (fun i => s.gig.pages[i] == cid n) then
    showGig (modCx n (fun c => { c with scrubPages := true }) { s with gig := { s.gig with scrubs := s.gig.scrubs ++ [(cid n, s.now)] } })
  else s

/-- The port's fence of a torn-down context is complete (R226 steps 3 and 4, R256 steps 4 and 5): the slot is retired, CONTEXT_TORN_DOWN
with the context's bounce key (R412), CONTEXT_TORN_DOWN
is posted, and what holds the context's state is scrubbed; an ABORT_JOB that awaited the fence is answered (R340). -/
def tearFenced (n : Ctx) (s : State) : State :=
  let s := wrs [(MP_FENCE.FENCING (cid n), 0), (MP_KEY_STATE.SLOT n.val, 2)] s
  let hold := (coachesOf (partMask n s)).filter (fun c => (coachCtxId c s == cid n || bit (cx n s).scrubCoaches c.val) && domOn c.val s)
  let s := modCx n (fun c => { c with
    key := [], fenceAt := none, abortFence := false, abortRx := false, scrubCoaches := (hold.map (fun c => 2 ^ c.val)).sum, bounce := { c.bounce with key := [] } }) s
  let s := raise 65 (raise 67 (wr (GL_CTX_STATUS.STATE (cid n)) 6 s))
  let s := tornNotice n 0x07 [cid n + (cx n s).tearReason * 2 ^ 8, low32 (rd (GL_CTX_EPOCH.EPOCH (cid n)) s)] s
  let next := (passTo (cx n s).order (partMask n s) s).elim 0 cid
  let s := each hold (fun c t => modCo c (fun x => { x with scrubOld := cid n, scrubNext := next }) (scrubBegin c t)) s
  tearScrubbed n (pageScrub n (abortAnswer (cid n) s))

/-- The firmware writes TT_RATE_MAX with the lowest LR_MAX among the running jobs (R62, R188); the value takes effect at the next sheet
epoch, or when ENABLE rises, as every write of an RW-E field does (R14, R253). With none running it writes nothing (log 30). -/
def showRateMax (s : State) : State :=
  match (allCtx.filter (fun n => cxState n s == 3)).map (fun n => clampNat 500 160000 (wbLrMax (cx n s).image)) with
  | [] => s
  | r :: rs => rwePut TT_RATE_MAX.LPS (rs.foldl min r) s

/-- The incoming context of a switch is torn down (R261, log 30): the switch goes on towards the next member with work. Without one it is
given up, or, when a coach has saved, it leads back to the context that it leaves. -/
def switchTurn (o : Ctx) (s : State) : State :=
  match nextMember o s with
  | some m => modCx o (fun c => { c with switchTo := some m.val }) s
  | none =>
    let cs := coachesOf (partMask o s)
    if cs.any (fun c => coachState c s == 3) then modCx o (fun c => { c with switchTo := some o.val }) s
    else each cs unholdStage (modCx o (fun c => { c with switchTo := none, switchE := none, moving := 0 }) s)

/-- A BOUNCE_KEY that waits on MBS0 for a context whose teardown begins is read, and ends with ABORTED (R422). -/
def bounceKeyEnd (n : Ctx) (s : State) : State :=
  match reqOf 4 s with
  | none => s
  | some r =>
    if r.op == 0x87 && !r.note && r.len == 4 && ctxOf (bits (r.w 1) 0 4) == some n && peerUp 4 s && !(chan 4 s).resps.any (·.1) then
      reply 4 r stABORTED [] (takeMsg 4 s)
    else s

/-- Teardown begins (R256 steps 1 and 2): `reason` is 0 for DESTROY, 1 for a fault. -/
def tearDown (n : Ctx) (reason : Nat) (s : State) : State :=
  if !ctxLive n s then s else
  let units := (coachesOf (partMask n s)).filter (fun c => coachCtxId c s == cid n)
  let s := stopUnits n (disarmSlots n s)
  let s := if reason == 1 then each units (fun c => fenceShut c.val) s else s
  let s := mpFence n s
  let s := bounceKeyEnd n (abortDeferred (cid n) s)
  let s := wrs [(GL_CTX_STATUS.STATE (cid n), 5), (GL_CTX_STATUS.RESIDENT (cid n), 0), (GL_CTX_DEBT.CARRIED (cid n), 0)] s
  let s := ledgerEnd n 2 s
  let s := { s with tl := { s.tl with
    ports := s.tl.ports.map (fun p => { p with queue := p.queue.filter (fun f => frCtx f != cid n) })
    waits := s.tl.waits.filter (fun w => w.ctx != cid n), strips := s.tl.strips.filter (fun x => x.ctx != cid n)
    sumWaits := s.tl.sumWaits.filter (fun w => w.ctx != cid n), heldOut := s.tl.heldOut.filter (fun f => f.ctx != cid n) }, mp := { s.mp with
    held := s.mp.held.filter (fun x => x.1 != cid n), own := s.mp.own.filter (fun o => o.ctx != cid n)
    inits := s.mp.inits.filter (fun t => t.ctx != cid n || t.id.isSome) } }
  let others := if linkOn s then s.tl.table.length - 1 else 0
  let s := wrs [(GL_CTX_RETIRE.PEERS_PENDING (cid n), others), (GL_CTX_RETIRE.TIMER_DONE (cid n), 0), (GL_CTX_RETIRE.RESENDS (cid n), 0)] s
  let s := each (allCtx.filter (fun o => (cx o s).switchTo == some n.val && o != n)) (fun o => switchTurn o) s
  let delay := (switchMate n s).map (fun m => (m.val, if (cx n s).switchP.isSome then s.now else (cx n s).switchE.getD s.now))
  let back := (coachesOf (if (cx n s).switchTo.isNone then (cx n s).moving else 0)).filter (fun c => coachState c s == 3)
  let s := modCx n (fun c => { c with
    tearReason := reason, tearDelay := delay, job := none, refRun := none, edgeNext := [], switchTo := none, switchE := none, moving := 0
    scrubCoaches := (back.map (fun c => 2 ^ c.val)).sum, summaries := [], retireAt := some s.now, retireSent := s.now, retireN := others + 1, retirePeers := [] }) s
  let s := if linkOn s then sendRetire n s else s
  let s := { s with flt := { s.flt with replay := s.flt.replay.map (fun r => { r with todo := r.todo.filter (· != cid n), all := r.all.filter (· != cid n) }) } }
  showRateMax (showSliced s)

end Sys2Proof.Machine
end

