-- ==== Sys2Proof/Machine/Faults.lean ====
section
/-! DEFINITION. Fault handling: classes, records, the graded escalation, replay, and resets (R481 to R506). -/

namespace Sys2Proof.Machine

/-- The coaches that a COACH or PARTITION escalation of a unit concerns: the partition of a coach, or the coach alone; for the Gig
engine, the partitions of the contexts named (R489, R495). -/
def faultSet (u : Nat) (ns : List Ctx) (s : State) : Nat :=
  if u < 16 then
    match allCtx.find? (fun n => cxState n s != 0 && bit (partMask n s) u) with
    | some n => partMask n s
    | none => 2 ^ u
  else ns.foldl (fun m n => m ||| partMask n s) 0

/-- The contexts whose partition meets a set of coaches. -/
def inSet (mask : Nat) (s : State) : List Ctx := allCtx.filter (fun n => cxState n s != 0 && partMask n s &&& mask != 0)

/-- An escalation that reaches contexts with a Tandem job originates ABORT first, and fences them (R291, R492). -/
def abortFault (ns : List Ctx) (s : State) : State :=
  each (ns.filter (fun n => (tandemJobs s).contains n && !(cx n s).abortFence)) (fun n t => fenceJob n (originateAbort 1 (cid n) t)) s

/-- The suspects of a fault at level COACH (R494): none whose job an abort covers (R26). -/
def suspects (u : Nat) (f : FaultRec) (s : State) : List Nat :=
  let recent (l : List (Nat × Nat)) : List Nat := (l.filter (fun e => s.tt.released < e.2 + 16)).map (·.1)
  let l :=
    if f.code < 0x10 && f.ctx != 0 then [f.ctx]
    else if f.code == 0x13 then [f.ctx]
    else if h : u < 16 then recent (co ⟨u, h⟩ s).ran
    else recent s.gig.ran
  (List.range 9).filter (fun i => l.contains i && (match ctxOf i with | some n => ctxLive n s && !(cx n s).abortFence | none => false))

/-- The rein of a control that the recovery writes (R385, R386, R488, R518): its holder makes the write, and where none holds it the
Coachman claims it first, or the Strongbox where the Coachman does not run, so that the write takes effect and none is counted in
SB_REINS.DENIED. DESIGN CHOICE (log 36): the spec does not say who claims it. -/
def reinTake (j : Nat) (s : State) : State := if reinHolder j s == 0 then reinSet j (if cmUp s then 1 else 2) s else s

/-- The reset of a coach, or of the Gig engine's logic, begins (R486, R495 step 2). -/
def resetUnit (u : Nat) (s : State) : State :=
  let s := reinTake 3 s
  let s := wr (if u < 16 then CA_STATUS.STATE u else GG_STATUS.STATE) 6 (fenceShut u s)
  if h : u < 17 then { s with flt := { s.flt with resetAt := s.flt.resetAt.set u (some s.now) } } else s

/-- Stop the coaches of a set, and a Gig slot of one of them (R495 step 1). -/
def stopSet (mask : Nat) (s : State) : State :=
  let s := match s.gig.run with | some c => if bit mask c.val then gigStop s else s | none => s
  each (coachesOf mask) coachStop s

/-- Level COACH (R494, R495). -/
def levelCoach (u : Nat) (f : FaultRec) (s : State) : State :=
  let sus := suspects u f s
  let ns := sus.filterMap ctxOf
  let mask := faultSet u ns s
  let s := abortFault (inSet mask s) s
  let holders := (allCtx.filter (fun n => resident n s && partMask n s &&& mask != 0)).map cid
  let s := each (coachesOf mask) (fun c => fenceShut c.val) (stopSet mask (if u == 16 then gigStop s else s))
  resetUnit u { s with flt := { s.flt with replay := some ⟨u, mask, 0, sus, none, [], sus, 0, 0, 0, holders, []⟩ } }

/-- Level PARTITION (R489): the coaches' domains are switched off, and a teardown of the unit that is still pending is dropped (R490). A job that a received ABORT covers keeps its context (R26). -/
def levelPartition (u mask : Nat) (s : State) : State :=
  let s := abortFault (inSet mask s) s
  let s := stopSet mask s
  let s := each (coachesOf mask) (fun c t => fenceShut c.val (powerLost c.val t)) (reinTake 3 s)
  if h : u < 17 then { s with flt := { s.flt with
    replay := none, due := s.flt.due.filter (fun d => d.1 != u), resetAt := s.flt.resetAt.set u none, partAt := s.flt.partAt.set u (some (s.now, mask))
    spared := ((inSet mask s).filter (fun n => (cx n s).abortRx)).map cid ++ s.flt.spared } } else s

/-- Level BLOCK, step 1 of R499, with the block fence of R488; lower levels are superseded (R490). -/
def levelBlock (u : Nat) (f : FaultRec) (s : State) : State :=
  let s := if linkOn s && !(tandemJobs s).isEmpty then originateAbort 1 0 s else s
  let s := wr GL_STATUS.FENCED 1 (reinTake 4 s)
  let s := each (List.range 17) fenceShut (each allCoach coachStop (gigStop s))
  { s with
    pins := { s.pins with alarmN := false }
    flt := { s.flt with
      replay := none, resetAt := Vector.replicate 17 none, partAt := Vector.replicate 17 none, due := []
      block := some ⟨f.code, 4, f.ctx, u, rd TT_LINE.LINE s, s.now, 1, false, false, if f.code == 0x24 then 1 else 0, []⟩ } }

/-- A received ABORT covers the job of a context: an escalation at level PARTITION that is under way does not tear the context down (R26, R484). -/
def abortCovers (n : Ctx) (s : State) : State :=
  if !(cx n s).abortFence then s else
  let s := modCx n (fun c => { c with abortRx := true }) s
  if s.flt.partAt.any (fun p => match p with | some (_, m) => partMask n s &&& m != 0 | none => false) then
    { s with flt := { s.flt with spared := cid n :: s.flt.spared.filter (· != cid n) } }
  else s

/-- The level at which a fault is taken (R482, R484): a second fault of a coach in recovery goes one level above the level in
progress, and one of a second coach of a partition that recovers at level COACH goes to PARTITION. -/
def takenLevel (u : Nat) (f : FaultRec) (s : State) : Nat :=
  if u < 16 then
    let own := if h : u < 21 then s.flt.level[u] else 0
    let mask := faultSet u [] s
    if rdB (GL_FLT_STATE.RECOVERING u) s then max f.level (own + 1)
    else if (List.finRange 21).any (fun d => d.val != u && d.val < 16 && bit mask d.val && rdB (GL_FLT_STATE.RECOVERING d.val) s && s.flt.level[d] == 2) then max 3 f.level
    else f.level
  else f.level

/-- Carry out a level (R489). The teardown of a context with a Tandem job awaits the end of the cycle, in which an ABORT of the job may still come (R26). -/
def escalate (u level : Nat) (f : FaultRec) (s : State) : State :=
  match level with
  | 0 => episodeEnd u s
  | 1 => match ctxOf f.ctx with
    | some n =>
      if (tandemJobs s).contains n then { s with flt := { s.flt with due := s.flt.due ++ [(u, f.code, f.ctx, f.coach, f.stage, f.row)] } }
      else tearDown n 1 s
    | none => episodeEnd u s
  | 2 => levelCoach u f s
  | 3 => levelPartition u (match s.flt.replay with | some r => if r.unit == u then r.coaches else faultSet u ((ctxOf f.ctx).toList) s | none => faultSet u ((ctxOf f.ctx).toList) s) s
  | _ => levelBlock u f s

/-- The end of a cycle in which teardowns of contexts with Tandem jobs were due: each proceeds, with its own ABORT first, unless an abort has covered the job
(R26, R291, R492). -/
def faultCycle (s : State) : State :=
  each s.flt.due (fun d t =>
    match ctxOf d.2.2.1 with
    | none => t
    | some n => if (cx n t).abortFence then episodeEnd d.1 t else settle (tearDown n 1 (abortFault [n] t))) { s with flt := { s.flt with due := [] } }

/-- The replay that runs judges a fault: it arises on the suspect's set or in its Gig slots (R496). -/
def replayJudges (u : Nat) (f : FaultRec) (s : State) : Bool :=
  match s.flt.replay with
  | none => false
  | some r => f.level ≤ 2 && (match r.cur with
    | none => false
    | some n => (u < 16 && bit r.coaches u) || (f.ctx == n && f.code != 0x03 && f.code != 0x04))

/-- A fault during a suspect's replay that the replay judges: the suspect has faulted alone (R496). -/
def replayGuilt (u : Nat) (s : State) : State :=
  match s.flt.replay with
  | none => s
  | some r =>
    match r.cur with
    | none => s
    | some n =>
      let s := each (coachesOf r.coaches) (fun c => fenceShut c.val) (stopSet r.coaches (if u == 16 then gigStop s else s))
      let s := { s with flt := { s.flt with replay := some { r with unit := if u ≤ 16 then u else r.unit, cur := none, guilty := n :: r.guilty } } }
      if u ≤ 16 then resetUnit u s else each (coachesOf r.coaches) scrubBegin
        { s with flt := { s.flt with replay := s.flt.replay.map (fun x => { x with scrubs := x.coaches }) } }

/-- An inference-class fault of a unit (R481 to R491). None is taken while a block reset is in progress; one during a BLOCK escalation, a third of an episode,
or one of a context already in teardown or whose job an abort fences, is recorded and has no other effect (R26, R484, R506). At level REPORT nothing else
changes, an episode of the unit that is under way least of all (R483, R489). FAULT is posted for each fault that is recorded (R491). -/
def raiseFault (u : Nat) (f : FaultRec) (s : State) : State :=
  if s.pw.reset.isSome then s else
  let judged := replayJudges u f s
  let busy := rdB (GL_FLT_STATE.RECOVERING u) s
  let third := busy && rdB (GL_FLT_S0.VALID u) s
  let level := if judged then f.level else takenLevel u f s
  let torn := f.code < 0x10 && (match ctxOf f.ctx with | some n => decide (5 ≤ cxState n s) | none => false)
  let covered := f.code < 0x10 && (match ctxOf f.ctx with | some n => (cx n s).abortFence | none => false)
  let f := { f with level := level }
  let s := faultRecord u f s
  let s := settle (if third then s else faultNotice f s)
  if s.flt.block.isSome then s
  else if torn then (if busy then s else episodeEnd u s)
  else if judged then settle (replayGuilt u s)
  else if third then s
  else if covered || level == 0 then (if busy then s else episodeEnd u s)
  else
    let s := if h : u < 21 then { s with flt := { s.flt with level := s.flt.level.set u (max level s.flt.level[u]) } } else s
    settle (escalate u level f s)

/-- A fault of a coach with the place of the entry that runs on it. -/
def coachFault (c : Coach) (code level : Nat) (s : State) : State :=
  match (co c s).run with
  | some r => raiseFault c.val ⟨code, level, cid r.ctx, c.val, r.stage, r.row⟩ s
  | none => raiseFault c.val ⟨code, level, coachCtxId c s, c.val, 0xFF, 0⟩ s

/-- A fault-driven block reset begins, or the fourth within 60 s requests a power cycle (R493, R498, R499). -/
def faultReset (cause : Nat) (s : State) : State :=
  let s := { s with flt := { s.flt with block := none, replay := none, security := none } }
  if rd PM_FLT_RESETS.RECENT s == 3 then holdFall { s with pins := { s.pins with pwrCycN := false } } else beginReset cause true s

/-- The one-step reset of a security-class fault (R498). -/
def securityReset (code unit : Nat) (s : State) : State :=
  let s := fltLast true code 8 0 unit (wr GL_STATUS.FENCED 1 s)
  faultReset 2 { s with pins := { s.pins with alarmN := false } }

/-- Strongbox firmware, or its ROM from step 3 of the boot on, can act (R370, R484). -/
def sbActs (s : State) : Bool := sbUp s || s.sb.runs || 3 < s.pw.bootStep

/-- A security-class fault that the Strongbox raises (R388, R498): it acts at once, or SECURITY_FAULT stays pending. -/
def securityFault (code : Nat) (s : State) : State :=
  if s.pw.reset.isSome then s
  else if sbActs s then securityReset code 21 s
  else settle { s with flt := { s.flt with security := some ⟨code, 21, s.now⟩ } }

/-- The outcome of the replays (R496). -/
def replayOutcome (r : Replay) (s : State) : State :=
  let g := r.guilty.filterMap ctxOf
  let s := { s with flt := { s.flt with replay := none } }
  if 2 ≤ g.length then
    let s := wr (if r.unit < 16 then CA_STATUS.STATE r.unit else GG_STATUS.STATE) 5 s
    let f : FaultRec := ⟨if h : r.unit < 21 then s.flt.code[r.unit] else 0, 3, 0, r.unit % 16, 0xFF, 0⟩
    levelPartition r.unit r.coaches (faultNotice f s)
  else
    let s := each ((r.all.filterMap ctxOf).filter (fun n => !g.contains n && ctxLive n s)) resume s
    let back := (r.holders.filterMap ctxOf).filter (fun n => ctxLive n s && !g.contains n)
    let s := each allCtx (fun n t => if partMask n t &&& r.coaches != 0 then wr (GL_CTX_STATUS.RESIDENT (cid n)) 0 t else t) s
    let s := each back takeCoaches s
    let s := each g (fun n => tearDown n 1) s
    each g (fun n t => passCoaches 0 (partMask n t) t) s

/-- The next suspect's replay begins, or the replays are over (R495 steps 3 and 4, R496). -/
def replayNext (s : State) : State :=
  match s.flt.replay with
  | none => s
  | some r =>
    match r.todo with
    | [] => replayOutcome r s
    | i :: rest =>
      match ctxOf i with
      | none => s
      | some n =>
        let s := discardGone n s
        let last := match (cx n s).job with | some j => j.relRow | none => 0
        let ref := (cx n s).refRun.isSome
        let first := match (cx n s).job with
          | some j => (match j.rows.find? (fun x => last ≤ x.row + 16 && !x.dropped) with | some x => x.row | none => last)
          | none => 0
        let s := { s with flt := { s.flt with replay := some { r with todo := rest, cur := some i, row := first, stop := if ref then first else last, dueAt := s.now, done := [] } } }
        let s := if ref then refStart n s else progStart n first s
        let s := each allCtx (fun m t => if partMask m t &&& r.coaches != 0 then wrB (GL_CTX_STATUS.RESIDENT (cid m)) (m == n) t else t) s
        each (coachesOf (partMask n s)) (fun c => coachTake c n) s

/-- The suspect under replay has run its window, or its pass (R495). -/
def replayRan (s : State) : Bool :=
  match s.flt.replay with
  | none => false
  | some r =>
    match r.cur with
    | none => false
    | some i =>
      match ctxOf i with
      | none => true
      | some n =>
        let full := 2 ^ popcount 16 (partMask n s) - 1
        if (cx n s).refRun.isSome then (cx n s).refCoaches == full
        else r.row == r.stop && (rowsOf n s).all (fun x => x.row < (match (cx n s).job with | some j => j.fromRow | none => 0) || r.stop ≤ x.row || x.dropped ||
          r.done.any (fun d => d.1 == x.row && d.2 == full))

/-- GIG_HANG (R485): a slot has run for LEN + 100 µs. -/
def execGigHang (s : State) : Host.Outcome State Fault Refusal :=
  .next (match s.gig.run with
    | none => s
    | some c =>
      if ttMoves s && s.gig.len + 180000 ≤ movedSince s.gig.beginAt s then
        let (stage, row) := match (co c s).run with | some r => (r.stage, r.row) | none => (0xFF, 0)
        raiseFault 16 ⟨0x13, 2, rd GG_STATUS.CTX s, c.val, stage, row⟩ s
      else s)

/-- CM_WDOG (R485): the Coachman's watchdog expires for the first time. -/
def execCmWdog (s : State) : Host.Outcome State Fault Refusal :=
  .next (if cmUp s && s.flt.cmWdog.isNone then raise 104 { s with flt := { s.flt with cmWdog := some s.now } } else s)

/-- CM_HANG (R314, R485): a second expiry, or three heartbeat misses in a row. -/
def execCmHang (s : State) : Host.Outcome State Fault Refusal :=
  .next (if cmUp s && ((match s.flt.cmWdog with | some t => decide (t + ms 50 ≤ s.now) | none => false) || 3 ≤ rd SB_HB.MISSES s) then
      raiseFault 19 ⟨0x24, 4, 0, 0, 0xFF, 0⟩ (setPeer .coachman 3 s)
    else s)

/-- SB_WDOG (R485, R498): the watchdog expires, and 1 ms later, without a restart by the Strongbox's firmware, the reset sequencer acts itself. -/
def execSbWdog (s : State) : Host.Outcome State Fault Refusal :=
  .next (if !domOn 21 s || s.pw.reset.isSome then s else
    match s.flt.sbWdog with
    | none => raise 105 { s with flt := { s.flt with sbWdog := some s.now } }
    | some t => if s.now < t + ms 1 then s else securityReset 0x43 20 s)

/-- SB_CLOCK (R482, R498). -/
def execSbClock (s : State) : Host.Outcome State Fault Refusal :=
  .next (if domOn 21 s && s.pw.reset.isNone then securityReset 0x45 20 s else s)

/-- SB_ECC (R482, R498). -/
def execSbEcc (s : State) : Host.Outcome State Fault Refusal :=
  .next (if domOn 21 s then securityFault 0x44 s else s)

/-- COACH_RESET_DONE (R495 step 2): every coach of the set is scrubbed. Unit 16 is the Gig engine. -/
def execCoachResetDone (u : Fin 17) (s : State) : Host.Outcome State Fault Refusal :=
  .next (if s.flt.resetAt[u].isNone then s else settle <|
    let s := { s with flt := { s.flt with resetAt := s.flt.resetAt.set u none } }
    let s := if u.val == 16 then episodeEnd 16 (showGig (wr GG_STATUS.STATE 0 (fenceOpen 16 s))) else s
    match s.flt.replay with
    | none => if h : u.val < 16 then scrubBegin ⟨u.val, h⟩ s else s
    | some r =>
      let s := { s with flt := { s.flt with replay := some { r with scrubs := r.coaches } } }
      if r.coaches == 0 then replayNext s else each (coachesOf r.coaches) scrubBegin s)

/-- COACH_RESET_HANG (R486, R490): the level PARTITION follows. -/
def execCoachResetHang (u : Fin 17) (s : State) : Host.Outcome State Fault Refusal :=
  .next (match s.flt.resetAt[u] with
    | none => s
    | some t =>
      if u.val == 16 || s.now < t + us 100 || s.pw.reset.isSome then s else
      let f : FaultRec := ⟨0x20, 3, rd (GL_FLT_P0.CTX u.val) s, u.val, 0xFF, 0⟩
      let s := faultNotice f (faultRecord 20 f s)
      settle (escalate u.val 3 f { s with flt := { s.flt with level := s.flt.level.set u.val 3 } }))

/-- PART_RESET_DONE (R26, R489): the domains that the escalation switched off are on again, their coaches are scrubbed, and every context of the partition is
torn down whose job no received ABORT has covered. -/
def execPartResetDone (u : Fin 17) (s : State) : Host.Outcome State Fault Refusal :=
  .next (match s.flt.partAt[u] with
    | none => s
    | some (_, all) =>
      if s.pw.reset.isSome then s else settle <|
      let mask := (((List.range 16).filter (fun d => bit all d && s.pw.fenced.contains d && !domOn d s)).map (2 ^ ·)).sum
      let ns := (inSet mask s).filter (fun n => !s.flt.spared.contains (cid n))
      let s := { s with flt := { s.flt with partAt := s.flt.partAt.set u none, spared := s.flt.spared.filter (fun i => !((inSet mask s).map cid).contains i) } }
      let s := each (coachesOf mask) (fun c t => scrubBegin c (showProf (wrs [(PM_PWR_STATUS.ON c.val, 1), (PM_PWR_REQ.REQ c.val, 1)] t))) s
      let s := each ns (fun n => tearDown n 1) s
      let s := each ns (fun n t => tearScrubbed n (modCx n (fun c => { c with scrubCoaches := c.scrubCoaches - (c.scrubCoaches &&& mask) }) t)) s
      let s := if u.val == 16 then episodeEnd 16 (showGig (wr GG_STATUS.STATE 0 (fenceOpen 16 s))) else s
      if rdB (GL_FLT_STATE.RECOVERING 20) s then episodeEnd 20 s else s)

/-- PART_RESET_HANG (R486). -/
def execPartResetHang (u : Fin 17) (s : State) : Host.Outcome State Fault Refusal :=
  .next (match s.flt.partAt[u] with
    | none => s
    | some (t, _) => if s.now < t + ms 1 then s else raiseFault 20 ⟨0x21, 4, 0, u.val % 16, 0xFF, 0⟩ s)

/-- GIG_RESET_HANG (R486). -/
def execGigResetHang (s : State) : Host.Outcome State Fault Refusal :=
  .next (match s.flt.resetAt[16] with
    | none => s
    | some t => if s.now < t + us 100 then s else raiseFault 20 ⟨0x22, 4, 0, 0, 0xFF, 0⟩ s)

/-- SEQ_TIMEOUT (R486, R499 step 6): a block reset has not brought every domain to reset within 10 ms. -/
def execSeqTimeout (s : State) : Host.Outcome State Fault Refusal :=
  .next (match s.pw.reset with
    | none => s
    | some r => if s.now < r.start + ms 10 then s else holdFall { s with pins := { s.pins with pwrCycN := false } })

/-- A replay is over: its set stops and is scrubbed before what follows (R495 step 4). -/
def replayScrub (r : Replay) (s : State) : State :=
  let s := { stopSet r.coaches s with flt := { (stopSet r.coaches s).flt with replay := some { r with cur := none, scrubs := r.coaches } } }
  if r.coaches == 0 then replayNext s else each (coachesOf r.coaches) scrubBegin s

/-- A received ABORT takes a context out of the replays: what is pending against its job is discarded (R26, R484). -/
def replayLeave (n : Ctx) (s : State) : State :=
  match s.flt.replay with
  | none => s
  | some r =>
    let other (l : List Nat) : List Nat := l.filter (· != cid n)
    let x := { r with todo := other r.todo, all := other r.all, guilty := other r.guilty }
    if r.cur == some (cid n) then replayScrub x s else { s with flt := { s.flt with replay := some x } }

/-- REPLAY_END (R495 step 4, R496): the set is scrubbed before what follows. -/
def execReplayEnd (s : State) : Host.Outcome State Fault Refusal :=
  .next (match s.flt.replay with
    | none => s
    | some r =>
      if !replayRan s then s else replayScrub r s)

/-- REPLAY_ROW_RELEASE (R218, R495): the suspect's next row of the window, 256 lines after the one before at its LR_MAX, with the stamps of a release. -/
def execReplayRowRelease (_obs : RowObs) (s : State) : Host.Outcome State Fault Refusal :=
  .next (match s.flt.replay with
    | none => s
    | some r =>
      match r.cur.bind ctxOf with
      | none => s
      | some n =>
        if r.stop ≤ r.row || s.now < r.dueAt then s else
        let due := s.now + ceilDiv (256 * (19200000000 / max 1 (wbLrMax (cx n s).image))) 16
        let s := { s with flt := { s.flt with replay := some { r with row := r.row + 1, dueAt := due } } }
        let s := discardGone n s
        let first := (match (cx n s).job with | some j => j.j0 | none => 0) + 256 * r.row
        stampReads n r.row first (modRow n r.row (fun x => { x with relAt := s.now, relArith := arithNow s, mismatch := x.posted && x.mismatch }) s))

/-- SECURITY_RESET_FALLBACK (R498): SECURITY_FAULT has been pending for 100 µs without a block reset. -/
def execSecurityResetFallback (s : State) : Host.Outcome State Fault Refusal :=
  .next (match s.flt.security with
    | none => s
    | some f => if s.pw.reset.isSome || s.now < f.at_ + us 100 then s else securityReset f.code f.unit s)

/-- FLT_RESETS_DECAY (R493). -/
def execFltResetsDecay (s : State) : Host.Outcome State Fault Refusal :=
  .next (if s.flt.lastReset + ms 60000 ≤ s.now then wr PM_FLT_RESETS.RECENT 0 s else s)

end Sys2Proof.Machine
end

