-- ==== Sys2Proof/Machine/Ports.lean ====
section
/-! DEFINITION. The memory ports: windows, responses, fences, hangs and counters (R172, R202 to R213, R223 to R233). -/

namespace Sys2Proof.Machine

/-- The end of a cycle: each port on which a request or a beat of write data was presented in it and not accepted counts it (R213). -/
def stallCycle (s : State) : State :=
  each ((List.range 8).filter (fun p => s.mp.txs.any (fun t => t.port == p && t.waiting != 0 && t.at_ ≤ s.now))) (fun p => inc (MP_P_STALL.COUNT p)) s

/-- Change the transactions that satisfy `p`. -/
def modTxs (p : Tx → Bool) (f : Tx → Tx) (s : State) : State := { s with mp := { s.mp with txs := s.mp.txs.map (fun t => if p t then f t else t) } }

/-- Find a transaction by port and identifier. -/
def txFind (p : Port) (id : Nat) (s : State) : Option Tx := s.mp.txs.find? (fun t => t.port == p.val && t.id == id)

/-- A transaction leaves the ports. -/
def txGone (t : Tx) (s : State) : State := { s with mp := { s.mp with txs := s.mp.txs.filter (fun x => !(x.port == t.port && x.id == t.id)) } }

/-- A beat of a tag comes after the entry that runs has begun to wait for it (R192). Of two synchronisation entries with one CYCLE the stage waits for the
first, and the wait for the second begins when the first has passed: no rule says so (DESIGN CHOICE, log 36). -/
def lateTag (c : Coach) (tag : Nat) (write : Bool) (s : State) : Bool :=
  match (co c s).run with
  | none => false
  | some r =>
    let z := syncRun c r s
    let y := stSync (cx r.ctx s).image r.stage z.1.sync
    z.2.2.2 && y.2.1 == b2n write && y.2.2 == tag && decide (z.1.beginAt + z.1.waits + y.1 < arithNow s)

/-- Beats of a coach's transfer arrive, or are accepted, in the present cycle (R173, R192): a transfer whose last beat this is is done. -/
def xferArrive (c : Coach) (tag ctx n : Nat) (write : Bool) (s : State) : State :=
  let s := if n != 0 && lateTag c tag write s then add (GL_WB_LATE_BEATS.COUNT ctx) n s else s
  modCo c (fun x =>
    match x.xfers.findIdx? (fun f => f.write == write && f.tag == tag && f.ctx == ctx && f.arrived < f.total) with
    | none => x
    | some i => { x with xfers := x.xfers.modify i (fun f =>
        let a := min f.total (f.arrived + n)
        { f with arrived := a, doneAt := if a == f.total then some (f.doneAt.getD (arithNow s)) else f.doneAt }) }) s

/-- Whether a pixel column of the strip lies outside the valid columns, towards a side without a partner (R133, R134, R217). -/
def edgeOutside (cfg : List Byte) (e : EdgeSt) (px : Int) : Bool :=
  (decide (px < e.first) && !(cfgHasPartner cfg 0 && decide (px < 0))) ||
  (decide ((e.last : Int) < px) && !(cfgHasPartner cfg 1 && decide (256 * (cfgColumns cfg : Int) ≤ px)))

/-- Where a byte of a fetched window comes from once R133 and R134 have filled its borders: a ZERO border, the byte at an offset of the window, or a pixel outside
the window, which no fetch of the tile brings. -/
inductive EdgeByte where
  | zero
  | held (o : Nat)
  | unheld
  deriving DecidableEq, Repr

/-- Where the byte at offset `o` of a fetched window comes from (R133, R134). The window of column c starts at pixel 256c − 16, 864 bytes a line; the lines
before the job's first line belong to row 0. -/
def edgeSource (cfg : List Byte) (e : EdgeSt) (row col o : Nat) : EdgeByte :=
  let x0 : Int := 256 * (col : Int) - 16
  let px : Int := x0 + ((o % 864 / 3 : Nat) : Int)
  let sx : Option Int :=
    if edgeOutside cfg e px then (padSource e.pad (px - e.first) (e.last + 1 - e.first)).map (fun k => (k : Int) + e.first - x0)
    else some (px - x0)
  let sl : Option Nat :=
    if row == 0 && o / 864 < 16 then (padSource e.pad (((o / 864 : Nat) : Int) - 16) (2 ^ 48)).map (· + 16) else some (o / 864)
  match sx, sl with
  | some x, some l => if 0 ≤ x && x < 288 then .held (864 * l + 3 * x.toNat + o % 3) else .unheld
  | _, _ => .zero

/-- The same in a halo strip, 48 bytes a line (R219): of the strips of row 0 the lines before the job's first line are filled (R133). -/
def haloSource (e : EdgeSt) (row o : Nat) : EdgeByte :=
  let l := o % 13824 / 48
  if row == 0 && l < 16 then (match padSource e.pad ((l : Int) - 16) (2 ^ 48) with | some k => .held (o - 48 * l + 48 * (k + 16)) | none => .zero) else .held o

/-- Where the byte at offset `o` of a fetch of a region comes from; regions without a border rule keep what was fetched. -/
def borderSource (cfg : List Byte) (e : EdgeSt) (region row col o : Nat) : EdgeByte :=
  match region with
  | 0 => edgeSource cfg e row col o
  | 1 => haloSource e row o
  | 3 => edgeSource cfg e row col o
  | _ => .held o

/-- The bytes of a finished fetch `f` once the fetch `x` of the same window has come whole: each border byte whose source lies in `x` takes it, and those
of `x` itself take a source from any finished fetch `fs` of the window; `fill` stands for a source that none of them holds, a pixel of the capture ring or the raster that the block has not read (log 24). -/
def bordered (cfg : List Byte) (e : EdgeSt) (buf : Bytes) (fs : List Xfer) (x f : Xfer) (fill : List Byte) : List Byte :=
  let holds (g : Xfer) (o : Nat) : Bool := g.ofs ≤ o && o < g.ofs + 64 * g.total
  (List.range (64 * f.total)).map (fun i =>
    let o := f.ofs + i
    let old := buf (f.buf + i)
    match borderSource cfg e f.region f.row f.col o with
    | .zero => 0
    | .unheld => if f.tag == x.tag then fill.getD i 0 else old
    | .held k =>
      if k == o then old
      else if holds x k then buf (x.buf + (k - x.ofs))
      else if f.tag != x.tag then old
      else match fs.find? (fun g => holds g k) with
        | some g => buf (g.buf + (k - g.ofs))
        | none => fill.getD i 0)

/-- A fetch whose bytes have all arrived: the borders of a tile, of its halo strips or of its reference are filled (R133, R134), also those of the
fetches of the same window that came before it, and a reference fetch is kept for its digest (R419). -/
def fetchDone (c : Coach) (x : Xfer) (s : State) : State :=
  match ctxOf x.ctx with
  | none => s
  | some n =>
    if x.region != 0 && x.region != 1 && x.region != 3 then s else
    let cfg := (cx n s).cfg
    let e := (cx n s).edge
    let fr := freeBytes (64 * x.total) s
    let s := fr.2
    let fs := (co c s).xfers.filter (fun f => !f.write && f.doneAt.isSome && f.ctx == x.ctx && f.region == x.region && f.row == x.row && f.col == x.col && f.stage == x.stage)
    let buf := coachMem (co c s) 4
    let put (m : SMap Byte) (f : Xfer) : SMap Byte := SMap.setList zeroByte m f.buf (bordered cfg e buf fs x f fr.1)
    let s := modCo c (fun y => { y with sram := y.sram.set 4 (put ((fs.filter (fun f => f.tag != x.tag)).foldl put y.sram[4]) x) }) s
    let moved := x.region != 1 && (List.range (64 * x.total)).any (fun i => edgeOutside cfg e (256 * (x.col : Int) - 16 + (((x.ofs + i) % 864 / 3 : Nat) : Int)))
    let piece (f : Xfer) : RefPiece := ⟨f.col, f.stage, f.ofs, bordered cfg e buf fs x f fr.1⟩
    let pieces := ((fs.filter (fun f => f.tag != x.tag)) ++ [x]).map piece
    modRow n x.row (fun r => { r with
      padded := if moved then x.col :: r.padded.filter (· != x.col) else r.padded
      refs := if x.region == 3 && cfgVariable cfg then
          r.refs.filter (fun y => !pieces.any (fun p => p.col == y.col && p.stage == y.stage && p.ofs == y.ofs)) ++ pieces
        else r.refs }) s

/-- Where byte `k` of a packed live list belongs: its location and its address there (R249). -/
def livePlace : List (Nat × Nat × Nat) → Nat → Option (Nat × Nat)
  | [], _ => none
  | e :: es, k => if k < e.2.2 then some (e.2.1, e.1 + k) else livePlace es (k - e.2.2)

/-- 64 bytes of a live list go back into their location: an SRAM, or the post tables (R249 step 5). -/
def livePut (es : List (Nat × Nat × Nat)) (k : Nat) (bs : List Byte) (x : CoachSt) : CoachSt :=
  match livePlace es k with
  | none => x
  | some (loc, a) =>
    if h : loc < 5 then { x with sram := x.sram.set loc (SMap.setList zeroByte (x.sram[loc]) a bs) }
    else { x with tables := (x.tables.take a ++ bs ++ x.tables.drop (a + bs.length)).take 1024 }

/-- The bytes of beats of a transfer go where it puts them: the coach buffer, or for tag 512 the places of a live list (R90, R249). What a control state
reads as has no form in the rules (log 20). -/
def beatsPut (c : Coach) (f : Xfer) (place : Nat) (bs : List Byte) (s : State) : State :=
  if f.tag < 512 then modCo c (fun x => { x with sram := x.sram.set 4 (SMap.setList zeroByte (x.sram[4]) (f.buf + 64 * place) bs) }) s
  else if f.tag == 512 then
    let es := ((ctxOf f.ctx).bind (fun n => saveFind n c s)).elim [] (·.live)
    modCo c (fun x => (List.range (bs.length / 64)).foldl (fun y k => livePut es (64 * (place + k)) (slice bs (64 * k) 64) y) x) s
  else s

/-- The coach buffer takes a beat of a fetch: its context, its tag, its place in the fetch and its bytes (R90). -/
def bufferBeat (c : Coach) (b : Beat) (s : State) : State :=
  let s := modCo c (fun x => { x with takenAt := some s.now }) s
  match (co c s).xfers.find? (fun f => !f.write && f.tag == b.tag && f.ctx == b.ctx && f.arrived < f.total) with
  | none => s
  | some f =>
    let s := beatsPut c f b.place b.data s
    let s := xferArrive c f.tag f.ctx 1 false s
    if f.arrived + 1 == f.total then fetchDone c { f with arrived := f.total } s else s

/-- A read beat reaches the prefetch queues of its coach, and the coach buffer if it has taken none in this cycle (R88, R90). -/
def deliver (c : Coach) (b : Beat) (s : State) : State :=
  if (co c s).prefetch.isEmpty && (co c s).takenAt != some s.now then bufferBeat c b s
  else modCo c (fun x => { x with prefetch := x.prefetch ++ [b] }) s

/-- The coach buffer takes the oldest beat of its prefetch queues (R90). -/
def coachTakes (c : Coach) (s : State) : State :=
  match (co c s).prefetch with
  | [] => s
  | b :: rest => bufferBeat c b (modCo c (fun x => { x with prefetch := rest }) s)

/-- One cycle of every coach's prefetch queues. -/
def prefetchCycle (s : State) : State := each (allCoach.filter (fun c => !(co c s).prefetch.isEmpty)) coachTakes s

/-- MEM_ERR (R225): reported, and flagged in the record of the result, of which the transfer's tile column is given; the block's own traffic belongs to no
result (R218, R289). -/
def memErr (ctx coach stage row : Nat) (col : Option Nat) (s : State) : State :=
  let s := match ctxOf ctx, col with
    | some n, some k => modRow n row (fun r => { r with memErr := true, errCols := k :: r.errCols.filter (· != k) }) s
    | _, _ => s
  raiseFault 17 ⟨0x03, 0, ctx, coach, stage, row⟩ (raise 64 s)

/-- The coach of a transaction. -/
def txCoach (t : Tx) : Nat := match t.dest with | .coach c _ => c | .record c _ => c | _ => 0

/-- The tile column of a transaction that a coach's entry issued. -/
def txCol (t : Tx) : Option Nat := match t.dest with | .coach _ _ => some t.col | .record _ _ => some t.col | _ => none

/-- An error response is counted and recorded (R225, R232). -/
def errRecord (t : Tx) (status : Nat) (s : State) : State :=
  let s := inc (if t.write then MP_P_ERRS.WR_ERR t.port else MP_P_ERRS.RD_ERR t.port) s
  let s := if rdB MP_ERR_INFO.VALID s then wr MP_ERR_INFO.MORE 1 s else
    wrs [(MP_ERR_INFO.PORT, t.port), (MP_ERR_INFO.WRITE, b2n t.write), (MP_ERR_INFO.STATUS, status), (MP_ERR_INFO.CTX, t.ctx),
      (MP_ERR_INFO.REGION, if t.ctx == 0 then 15 else t.region), (MP_ERR_ADDR.ADDR, t.addr)] (markBit MP_ERR_INFO.VALID s)
  memErr t.ctx (txCoach t) t.stage t.row (txCol t) s

/-- The latency of a finished read (R212, R213), in ns at 1.2 GHz; one above the bound is a late read (R349). -/
def latency (t : Tx) (s : State) : State :=
  let ns := (s.now - t.at_) * 5 / 6
  let s := if rd (MP_P_LAT_MAX.NS t.port) s < ns then wr (MP_P_LAT_MAX.NS t.port) (min ns 0xFFFF) s else s
  if rd MP_LAT_BOUND.BOUND_NS s * 6 < (s.now - t.at_) * 5 then raise 69 (inc (MP_P_LATE.COUNT t.port) s) else s

/-- An orphan's response (R226 step 5): discarded undecrypted; the last one frees the identifier. -/
def orphan (t : Tx) (last : Bool) (s : State) : State :=
  let s := inc (MP_P_ORPHAN.DISCARDED t.port) s
  if last then wr (MP_P_ORPHAN.HELD t.port) (rd (MP_P_ORPHAN.HELD t.port) s - 1) (txGone t s) else s

/-- A transaction whose last beat or response is in is finished: a coach's read is measured (R213). -/
def txEnd (t : Tx) (s : State) : State := txGone t (if t.write then s else latency t s)

/-- The beats of a transaction that have been delivered become zeros (R225). -/
def zeroBeats (c : Coach) (t : Tx) (tag : Nat) (s : State) : State :=
  match (co c s).xfers.find? (fun f => !f.write && f.tag == tag && f.ctx == t.ctx && f.arrived < f.total) with
  | none => s
  | some f => beatsPut c f t.first (List.replicate (64 * t.got) 0) (modCo c (fun x => { x with
      prefetch := x.prefetch.map (fun b => if b.ctx == t.ctx && b.tag == tag && t.first ≤ b.place && b.place < t.first + t.got then { b with data := List.replicate 64 0 } else b) }) s)

/-- The bytes of a read beat as its destination gets them: zeros after an error (R225), and decrypted in an XTS region (R223). -/
def plainBeat (t : Tx) (bad : Bool) (data : List Byte) (s : State) : List Byte :=
  if t.zero || bad then List.replicate 64 0 else
  let n := ctxOf t.ctx
  if n.isSome && regionXts t.region (rdB (GL_CTX_STATUS.CONFIDENTIAL t.ctx) s) then xtsBeat false (n.elim [] (fun n => (cx n s).key)) (t.addr + 64 * t.got) (slice data 0 64)
  else slice data 0 64

/-- A read beat goes to a destination of the block's own: a stamp (R218), a strip (R287), or a chunk of the digest engine, of which only an error is kept
here (R435). -/
def ownBeat (t : Tx) (bad : Bool) (bs : List Byte) (s : State) : State :=
  match t.dest, ctxOf t.ctx with
  | .stamp row line ofs, some n => stampBack n row line (leNat (slice bs ofs 8)) s
  | .strip row side line ofs beats, some n => stripBack n row side line ofs beats (t.first + t.got) bs s
  | .chunk v, _ => if bad then modDg v (fun m => { m with memErr := true }) s else s
  | _, _ => s

/-- A read beat on the initiator (R211): the transaction whose last one it is is over. What a BOUNCE_IN's reads bring comes with its BOUNCE_IN_DONE. -/
def initBeat (id : Nat) (s : State) : State :=
  let mine (t : InitTx) : Bool := t.id == some id && !t.write
  let l := s.mp.inits.map (fun t => if mine t then { t with got := t.got + 1, waiting := 0 } else t)
  { s with mp := { s.mp with inits := l.filter (fun t => !(mine t && t.beats ≤ t.got)) } }

/-- The write-done response of a transaction of the initiator. -/
def initWritten (id : Nat) (s : State) : State := { s with mp := { s.mp with inits := s.mp.inits.filter (fun t => !(t.id == some id && t.write)) } }

/-- The surroundings accept what the initiator has presented longest: a request, then its data beat by beat (R203). -/
def initAccept (s : State) : State :=
  match s.mp.inits.findIdx? (fun t => t.id.isSome && t.waiting != 0) with
  | none => s
  | some i => { s with mp := { s.mp with inits := s.mp.inits.modify i (fun t => { t with waiting := t.waiting - 1 }) } }

/-- MP_READ_RESPONSE (R204, R211, R223, R225, R226, R235): one beat of read data; port 8 stands for the initiator (log 32). A stopped coach's data are
discarded at its fence (R487). -/
def execMpReadResponse (p : Port) (rsp : MemRsp) (s : State) : Host.Outcome State Fault Refusal :=
  .next (if p.val == 8 then initBeat rsp.id s else
    match txFind p rsp.id s with
    | none => s
    | some t =>
      if t.write then s else
      let last := t.got + 1 == t.beats
      let bad := rsp.status.val != 0
      let s := modTxs (fun x => x.port == t.port && x.id == t.id) (fun x => { x with got := x.got + 1, waiting := 0, zero := x.zero || bad }) s
      let s := inc (MP_P_BEATS.COUNT t.port) s
      if t.abandoned then orphan t last s else
      let s := if bad then errRecord t rsp.status.val s else s
      let bs := plainBeat t bad rsp.data s
      let s := match t.dest with
        | .coach c tag =>
          if h : c < 16 then
            if !domOpen c s || (tag < 512 && coachCtxId ⟨c, h⟩ s != t.ctx) then s else
            deliver ⟨c, h⟩ ⟨t.ctx, tag, t.first + t.got, bs⟩ (if bad then zeroBeats ⟨c, h⟩ t tag s else s)
          else s
        | _ => ownBeat t bad bs s
      if last then txEnd t s else s)

/-- The beats of a port once the oldest waiting one has been accepted: `at_` is the cycle from which the next one is presented. Write data
follow the request in the same cycle, and one another in the next; the other transactions of the port come after (R205, log 32). -/
def presented (q : Tx) (now : Nat) (x : Tx) : Tx :=
  if x.port == q.port && x.id == q.id then
    { x with waiting := x.waiting - 1, data := if q.write && q.waiting ≤ q.beats then x.data.drop 64 else x.data, at_ := if q.write && q.waiting != q.beats + 1 then now + 1 else now }
  else if x.port == q.port && x.waiting != 0 && x.at_ ≤ now then { x with at_ := now + 1 }
  else x

/-- MP_BEAT_ACCEPTED (R206): a port accepts the oldest beat that it had left waiting, the request of a transaction, then its data in order, also those of a
transaction that a fence has abandoned; port 8 stands for the initiator (R203, R211). A coach's write beats count as accepted once the port takes them (R173). -/
def execMpBeatAccepted (p : Port) (s : State) : Host.Outcome State Fault Refusal :=
  .next (if p.val == 8 then initAccept s else
    match s.mp.txs.find? (fun t => t.port == p.val && t.waiting != 0) with
    | none => s
    | some t =>
      let full := if t.write then t.beats + 1 else 1
      let s := modTxs (fun _ => true) (presented t s.now) s
      if t.write && t.waiting != full then
        let s := inc (MP_P_BEATS.COUNT p.val) s
        match t.dest with
        | .coach c tag => if h : c < 16 then (if t.abandoned then s else xferArrive ⟨c, h⟩ tag t.ctx 1 true s) else s
        | _ => s
      else s)

/-- HALO strips written by the link controller become fetchable with their write-done response (R136, R219): the strip's row and
side stand in the transaction. -/
def haloWritten (t : Tx) (s : State) : State :=
  if t.region == 1 && t.dest == .other && !s.mp.own.any (fun o => o.region == 1 && o.write && o.ctx == t.ctx && o.row == t.row && o.stage == t.stage) && !s.mp.txs.any (fun x => x.region == 1 && x.write && x.ctx == t.ctx && x.row == t.row && x.stage == t.stage && !(x.port == t.port && x.id == t.id)) then
    { s with tl := { s.tl with
      arrived := (t.ctx, t.row, t.stage) :: s.tl.arrived
      waits := s.tl.waits.filter (fun w => !(w.ctx == t.ctx && w.row == t.row && w.side == t.stage)) } }
  else s

/-- MP_WRITE_DONE (R204, R211, R225, R235): the response of a write; port 8 stands for the initiator. A failed RECORD write counts as written (R38). -/
def execMpWriteDone (p : Port) (id : Nat) (status : Fin 4) (s : State) : Host.Outcome State Fault Refusal :=
  .next (if p.val == 8 then initWritten id s else
    match txFind p id s with
    | none => s
    | some t =>
      if !t.write then s
      else
        let s := if t.waiting == 0 then s else add (MP_P_BEATS.COUNT p.val) (min t.waiting t.beats) s
        if t.abandoned then orphan t true s
        else
          let s := if status.val != 0 then errRecord t status.val s else s
          let s := match t.dest with
            | .coach c tag => if h : c < 16 then xferArrive ⟨c, h⟩ tag t.ctx (min t.waiting t.beats) true s else s
            | _ => s
          let s := haloWritten t (txGone t s)
          match t.dest, ctxOf t.ctx with
          | .record _ _, some n => postRows n s
          | _, _ => s)

/-- The beats of a kind that may still be issued in this window (R209, R289): results and fills that the firmware writes share its limit, and the dump, which
alone goes while the block is fenced, has none. -/
def ownLeft (cls : Nat) (s : State) : Nat :=
  match cls with | 0 => s.mp.digestLeft | 2 => s.mp.linkLeft | 3 => if rdB GL_STATUS.FENCED s then 16 else s.mp.fwLeft | _ => s.mp.fwLeft

/-- Beats of a kind are issued. -/
def ownSpend (cls k : Nat) (s : State) : State :=
  { s with mp := { s.mp with
    digestLeft := if cls == 0 then s.mp.digestLeft - k else s.mp.digestLeft
    fwLeft := if cls == 1 || (cls == 3 && !rdB GL_STATUS.FENCED s) then s.mp.fwLeft - k else s.mp.fwLeft
    linkLeft := if cls == 2 then s.mp.linkLeft - k else s.mp.linkLeft } }

/-- A request may go: no scrub holds back its context (R264), and it is no read of a chunk whose message is in the save bank (R429). -/
def ownMay (o : Own) (s : State) : Bool :=
  !scrubHeld o.ctx s && (match o.dest with | .chunk v => s.dg.suspended != some v.val | _ => true)

/-- Issue the next burst of a kind's oldest request that no scrub holds back, if it may go (R202, R207 to R209, R224, R226, R227, R264, R488): dump traffic
alone goes while the block is fenced. -/
def ownIssue (cls : Nat) (s : State) : Option State :=
  match s.mp.own.findIdx? (fun o => o.cls == cls && ownMay o s) with
  | none => none
  | some i =>
    match s.mp.own[i]? with
    | none => none
    | some o =>
      let gone := { s with mp := { s.mp with own := s.mp.own.eraseIdx i } }
      let a := o.addr + 64 * o.done
      let left := o.beats - o.done
      let slot := match ctxOf o.ctx with | some n => rd (MP_KEY_STATE.SLOT n.val) s | none => 1
      let key := match ctxOf o.ctx with | some n => (cx n s).key | none => []
      let xts := o.ctx != 0 && regionXts o.region (rdB (GL_CTX_STATUS.CONFIDENTIAL o.ctx) s)
      if o.ctx != 0 && rdB (MP_FENCE.FENCING o.ctx) s then some gone
      else if o.write && slot == 2 then some (wr MP_RETIRED_DROPS.LAST_CTX o.ctx (add MP_RETIRED_DROPS.COUNT (bursts left a left).length gone))
      else if slot == 2 || (slot == 0 && xts) then some (memErr o.ctx 0 o.stage o.row none gone)
      else if rdB GL_STATUS.FENCED s && o.ctx != 0 then some gone
      else
        let k := min (min left (toBlockEnd a)) (ownLeft cls s)
        if k == 0 || overlaps o.write a k s then none else
        match presentTx o.write o.ctx o.region a o.done k o.dest o.stage o.row 0 (portData (xts && o.write) key a (slice o.data (64 * o.done) (64 * k))) s with
        | none => none
        | some t => some (ownSpend cls k { t with mp := { t.mp with
            own := if o.done + k == o.beats then t.mp.own.eraseIdx i else t.mp.own.set i { o with done := o.done + k } } })

/-- Issue what may be issued now, kind by kind. -/
def ownGo : Nat → State → State
  | 0, s => s
  | f + 1, s => match (List.range 4).findSome? (fun k => ownIssue k s) with | none => s | some t => ownGo f t

/-- A cycle of the requests of the block itself. -/
def ownCycle (s : State) : State := if s.mp.own.isEmpty || !domOpen 18 s then s else ownGo ((s.mp.own.map (·.beats)).sum + s.mp.own.length) s

/-- Issue the next transaction of the initiator (R203, R211): at most 16 are outstanding; a write of a retired context is dropped (R227). -/
def initStep (s : State) : Option State :=
  match s.mp.inits.findIdx? (fun t => t.id.isNone && !scrubHeld t.ctx s) with
  | none => none
  | some i =>
    match s.mp.inits[i]? with
    | none => none
    | some t =>
      let gone := { s with mp := { s.mp with inits := s.mp.inits.eraseIdx i } }
      if t.write && (match ctxOf t.ctx with | some n => rd (MP_KEY_STATE.SLOT n.val) s == 2 | none => false) then
        some (wr MP_RETIRED_DROPS.LAST_CTX t.ctx (add MP_RETIRED_DROPS.COUNT 1 gone))
      else if rdB GL_STATUS.FENCED s then none
      else match (List.range 16).find? (fun k => !s.mp.inits.any (fun u => u.id == some k)) with
        | none => none
        | some k => some (emit (.init k t.write (reqCtx t.ctx 15 s) t.addr t.beats (Config.reqSec (reqCtx t.ctx 15 s)) t.data)
            { s with mp := { s.mp with inits := s.mp.inits.set i { t with id := some k, waiting := if t.write then t.beats + 1 else 1 } } })

/-- Issue what may be issued now. -/
def initGo : Nat → State → State
  | 0, s => s
  | f + 1, s => match initStep s with | none => s | some t => initGo f t

/-- A cycle of the initiator: what may go is issued. -/
def initCycle (s : State) : State := if s.mp.inits.isEmpty || !domOpen 17 s then s else initGo s.mp.inits.length s

/-- Identifiers held for abandoned transactions: more than 32 on one port hang the memory (R226, R485). -/
def heldHung (p : Nat) (s : State) : Bool := 32 < rd (MP_P_ORPHAN.HELD p) s

/-- Abandon the outstanding transactions that satisfy `p` (R226 step 3): each is answered with an error inside the block. -/
def abandon (p : Tx → Bool) (s : State) : State :=
  let ts := s.mp.txs.filter (fun t => p t && !t.abandoned)
  let s := modTxs (fun t => p t && !t.abandoned) (fun t => { t with abandoned := true }) s
  let s := each ts (fun t u => inc MP_FENCE.ABANDONED (inc (MP_P_ORPHAN.HELD t.port) u)) s
  if (List.range 8).any (fun q => heldHung q s) && !rdB (GL_FLT_STATE.RECOVERING 17) s then raiseFault 17 ⟨0x23, 4, 0, 0, 0xFF, 0⟩ s else s

/-- FENCE_COMPLETE (R226, R256): no transaction of a context in teardown remains, on the ports or on the initiator. -/
def execFenceComplete (n : Ctx) (s : State) : Host.Outcome State Fault Refusal :=
  .next (if cxState n s == 5 && (cx n s).fenceAt.isSome && (txsOf (cid n) s).isEmpty && !s.mp.inits.any (fun t => t.ctx == cid n) then tearFenced n s else s)

/-- FENCE_DRAIN_TIMEOUT (R226): at T + 50 µs the rest is abandoned. -/
def execFenceDrainTimeout (n : Ctx) (s : State) : Host.Outcome State Fault Refusal :=
  .next (match (cx n s).fenceAt with
    | none => s
    | some t =>
      if s.now < t + us 50 then s else
      let s := abandon (fun x => x.ctx == cid n) s
      let s := add MP_FENCE.ABANDONED (s.mp.inits.filter (fun t => t.ctx == cid n)).length
        { s with mp := { s.mp with inits := s.mp.inits.filter (fun t => t.ctx != cid n) } }
      if cxState n s == 5 then tearFenced n s else s)

/-- MEM_HUNG (R485): too many identifiers held, or a request unaccepted for 10 ms. -/
def execMemHung (p : Port) (s : State) : Host.Outcome State Fault Refusal :=
  .next (if p.val == 8 then s else if heldHung p.val s || s.mp.txs.any (fun t => t.port == p.val && t.waiting == (if t.write then t.beats + 1 else 1) && !t.abandoned && t.at_ + ms 10 ≤ s.now)
    then raiseFault 17 ⟨0x23, 4, 0, 0, 0xFF, 0⟩ s else s)

/-- MP_ERR_INFO_CLEAR (R232). -/
def execMpErrInfoClear (s : State) : Host.Outcome State Fault Refusal :=
  .next (hostTo 0x400014 false (fun s => if rdB (freshF MP_ERR_INFO.VALID) s then s else clr [MP_ERR_INFO.VALID, MP_ERR_INFO.MORE] s) s)

/-- MP_CNT_CLR_PORTS (R233). -/
def execMpCntClrPorts (s : State) : Host.Outcome State Fault Refusal :=
  .next (hostTo 0x400020 false (each (List.range 8) (fun p => cntClr [MP_P_LAT_MAX.NS p, MP_P_LATE.COUNT p, MP_P_STALL.COUNT p, MP_P_ERRS.RD_ERR p, MP_P_ERRS.WR_ERR p,
    MP_P_ORPHAN.DISCARDED p])) s)

/-- MP_CNT_CLR_BEATS (R233). -/
def execMpCntClrBeats (s : State) : Host.Outcome State Fault Refusal :=
  .next (hostTo 0x400020 false (each (List.range 8) (fun p => cntClr [MP_P_BEATS.COUNT p])) s)

/-- MP_CNT_CLR_DROPS (R233). -/
def execMpCntClrDrops (s : State) : Host.Outcome State Fault Refusal :=
  .next (hostTo 0x400020 false (cntClr [MP_RETIRED_DROPS.COUNT, MP_RETIRED_DROPS.LAST_CTX, MP_FENCE.ABANDONED]) s)

/-- MP_CNT_CLR_RING (R233). -/
def execMpCntClrRing (s : State) : Host.Outcome State Fault Refusal :=
  .next (hostTo 0x400020 false (each allCtx (fun n => cntClr [MP_CTX_RING.OVERWRITE (cid n), MP_CTX_RING.STAMP_MISMATCH (cid n)])) s)

end Sys2Proof.Machine
end

