-- ==== Sys2Proof/Machine/Coach.lean ====
section
/-! DEFINITION. The coaches: entries, transfers, synchronisation points, runs, drains and stage ends (R86 to R124, R166 to R195). -/

namespace Sys2Proof.Machine

/-- The context on a coach, with its coach index there (R180). -/
def onCoach (c : Coach) (s : State) : Option (Ctx × Nat) := (ctxOf (coachCtxId c s)).map (fun n => (n, coachIndex (partMask n s) c))

/-- An entry that a coach can begin: whether it belongs to a reference program, its index, the entry, its row and its planned begin. -/
structure NextEnt where
  ref : Bool
  index : Nat
  base : Nat
  ent : ProgEnt
  row : Nat
  planned : Nat
  deriving DecidableEq, Repr

/-- The next entry of a sheet program whose row has been released (R181); entries of rows that are not run are passed over. -/
def nextSheet (n : Ctx) (i : Nat) (s : State) : Nat → Nat → Nat → Option NextEnt
  | 0, _, _ => none
  | f + 1, e, base =>
    let img := (cx n s).image
    let cnt := (progOf img false i).2
    if cnt == 0 then none
    else if cnt ≤ e then nextSheet n i s f 0 (base + max 1 (wbPeriod img))
    else
      let ent := progEnt img false i e
      match (cx n s).job with
      | none => none
      | some j =>
        let row := base + ent.row - j.phase
        if base + ent.row < j.fromRow + j.phase then nextSheet n i s f (e + 1) base
        else match j.rows.find? (fun r => r.row == row) with
        | none => if row < j.relRow then nextSheet n i s f (e + 1) base else none
        | some r =>
          let held := match s.flt.replay with | some p => p.cur == some (cid n) && decide (p.row ≤ row) | none => false
          if r.dropped then nextSheet n i s f (e + 1) base
          else if held then none
          else some ⟨false, e, base, ent, row, r.relArith + ent.start⟩

/-- The next entry of a coach. -/
def nextEntry (c : Coach) (s : State) : Option (Ctx × Nat × NextEnt) :=
  match onCoach c s with
  | none => none
  | some (n, i) =>
    if h : i < 16 then
      let p := (cx n s).prog[i]
      match (cx n s).refRun with
      | some t =>
        if p.entry < (progOf (cx n s).image true i).2 then
          let e := progEnt (cx n s).image true i p.entry
          some (n, i, ⟨true, p.entry, 0, e, e.row, t + e.start⟩)
        else none
      | none =>
        if cxState n s != 3 then none
        else (nextSheet n i s (40 * ((progOf (cx n s).image false i).2 + 1)) p.entry p.base).map (fun e => (n, i, e))
    else none

/-- A coach is held back by a replay of another suspect (R495). -/
def replayHolds (c : Coach) (n : Ctx) (s : State) : Bool :=
  match s.flt.replay with | some r => bit r.coaches c.val && r.cur != some (cid n) | none => false

/-- A coach stands at a preemption point between entries (R195). -/
def atPoint (c : Coach) (n : Ctx) (i : Nat) (s : State) : Bool :=
  !(co c s).begun || ((cx n s).job.isNone && (cx n s).refRun.isNone) || (if h : i < 16 then stPreemptEnd (cx n s).image ((cx n s).prog[i]).prevStage else true)

/-- The entry that a coach may begin now, if any (R181, R249, R488). -/
def readyEntry (c : Coach) (s : State) : Option (Ctx × Nat × NextEnt) :=
  if !domOpen c.val s || coachState c s != 1 || (co c s).run.isSome || rdB GL_STATUS.FENCED s then none else
  match nextEntry c s with
  | none => none
  | some (n, i, e) =>
    if (cx n s).abortFence || replayHolds c n s || ((cx n s).switchTo.isSome && atPoint c n i s) || arithNow s < e.planned then none
    else some (n, i, e)

/-- An entry begins on a coach (R172, R181, R193, R494). -/
def beginEntry (c : Coach) (n : Ctx) (i : Nat) (e : NextEnt) (beginAt : Nat) (s : State) : State :=
  if h : i < 16 then
    let p := (cx n s).prog[i]
    let s := if p.prevWaits != 0 && e.planned < beginAt then chargeOverrun c n p e.ref s else s
    let s := wr (GL_WB_DELAY.MAX (cid n)) (max (rd (GL_WB_DELAY.MAX (cid n)) s) (min (beginAt - e.planned) 0xFFFFFFFF)) s
    let s := modCx n (fun x => { x with prog := x.prog.set i { p with entry := e.index, base := e.base } }) s
    let res := stRes (cx n s).image e.ent.stage
    let s := modCo c (fun x => { x with
      run := some { ctx := n, index := i, entry := e.index, stage := e.ent.stage, row := e.row, col := e.ent.col, slot := e.ent.slot, planned := e.planned,
                    beginAt := beginAt, waits := 0, sync := 0, admitted := 0, runIdx := 0, runAt := 0, stalled := false, drains := [],
                    drainAt := 0, satSeen := false, nanSeen := false, fullAt := none,
                    stop := if (cx n s).switchTo.isSome then nextPoint (cx n s).image e.ent.stage 0 else none }
      winRes := if x.begun then x.winRes else res
      winLeft := if x.begun then x.winLeft else res
      lastRes := res, begun := true
      ran := (cid n, s.tt.released) :: x.ran.filter (·.1 != cid n) }) s
    wr (CA_STATUS.STATE c.val) 2 s
  else s

/-- SYNC_WAIT_END (R173). -/
def execSyncWaitEnd (c : Coach) (s : State) : Host.Outcome State Fault Refusal :=
  .next (if coachState c s != 2 then s else syncSettle c s)

/-- COACH_HANG's condition (R485): the stage waits at one point, or for its write queue (R192), for 10 ms, which the rule does not name among the waits
(DEDUCED, log 36), or has not advanced for 1 ms outside a wait; only
time in RUN or CRAWL counts. A stage cycle passes in every enabled cycle outside a wait, so that a stage stands still outside one from its planned end on. -/
def hangDue (c : Coach) (s : State) : Bool :=
  let s := syncSettle c s
  match (co c s).run with
  | none => false
  | some r =>
    let y := stSync (cx r.ctx s).image r.stage r.sync
    let w := waitsNow c s
    coachState c s == 2 && ttMoves s && (match r.fullAt with
      | some t => decide (18000000 ≤ movedSince t s)
      | none => if w then decide (18000000 ≤ movedSince (r.beginAt + r.waits + y.1) s)
        else decide (1800000 ≤ movedSince (r.beginAt + r.waits + stLen (cx r.ctx s).image r.stage) s))

/-- COACH_HANG (R485). -/
def execCoachHang (c : Coach) (s : State) : Host.Outcome State Fault Refusal :=
  .next (if hangDue c s then coachFault c 0x11 2 s else s)

/-- Whether every burst of a transfer lies in its region (R215). -/
def xferInside (cfg : List Byte) (region ofs total col idx : Nat) (p : RowPos) : Bool :=
  (List.range total).all (fun i => beatOfs cfg region ofs i col idx p + 64 ≤ cfgSize cfg region)

/-- A transfer joins a coach's list; a finished one of its tag and direction leaves it. -/
def pushXfer (c : Coach) (x : Xfer) (s : State) : State :=
  modCo c (fun y => { y with xfers := y.xfers.filter (fun f => !(f.write == x.write && f.tag == x.tag && f.doneAt.isSome)) ++ [x] }) s

/-- Admit one transfer entry of the stage at its ISSUE (R171, R172, R215, R226). -/
def admitOne (c : Coach) (r : RunSt) (write : Bool) (e : XferEnt) (s : State) : State :=
  let n := r.ctx
  let inside := xferInside (cx n s).cfg e.region e.ofs e.beats r.col r.index (rowPos n r.row s)
  let stop := rdB (MP_FENCE.FENCING (cid n)) s
  let x : Xfer := {
    write := write, region := e.region, tag := e.tag, ctx := cid n, row := r.row, col := r.col, stage := r.stage, ofs := e.ofs, buf := e.buf,
    data := [], total := e.beats, issued := 0, arrived := 0, issueAt := r.beginAt + r.waits + e.issue, waits0 := (co c s).waited + r.waits, res := (co c s).winRes, doneAt := none }
  let s := pushXfer c (if !inside || stop then xferEnd (arithNow s) x else x) s
  if inside || stop then s else raiseFault 17 ⟨0x01, 1, cid n, c.val, r.stage, r.row⟩ s

/-- Admit the transfers of the stage whose ISSUE it has reached, in the order of their ISSUE cycles, fetches before writes of one cycle (R172). -/
def admitDue (c : Coach) (s : State) : State :=
  match (co c s).run with
  | none => s
  | some r =>
    let img := (cx r.ctx s).image
    let t := stageCycle c s
    let due (e : XferEnt) : Bool := r.admitted ≤ e.issue && e.issue ≤ t
    let fs := ((List.range (stNFetch img r.stage)).map (fun j => (false, stFetch img r.stage j))).filter (fun e => due e.2)
    let ws := ((List.range (stNWrite img r.stage)).map (fun j => (true, stWrite img r.stage j))).filter (fun e => due e.2)
    let s := modCo c (fun x => { x with run := x.run.map (fun r => { r with admitted := t + 1 }) }) s
    each (sortBy (fun a b => a.2.issue ≤ b.2.issue) (fs ++ ws)) (fun e u => if (co c u).run.isSome then admitOne c r e.1 e.2 u else u) s

/-- A transfer of a RECORD stage: its record and map carry tags above those of R171; the tags from 512 on are those of a switch. -/
def recXfer (x : Xfer) : Bool := 256 ≤ x.tag && x.tag < 512

/-- The destination of a transfer's transactions. -/
def xferDest (c : Coach) (x : Xfer) : Dest := if recXfer x then .record c.val x.row else .coach c.val x.tag

/-- The region address of beat `i` of a coach's transfer. -/
def xferAddr (c : Coach) (n : Ctx) (x : Xfer) (i : Nat) (s : State) : Nat :=
  let cfg := (cx n s).cfg
  if 512 ≤ x.tag then saveAddr n (coachIndex (partMask n s) c) s + x.ofs + 64 * i else
  cfgBase cfg x.region + beatOfs cfg x.region x.ofs i x.col (coachIndex (partMask n s) c) (rowPos n x.row s)

/-- Beats from beat `i` on that follow one another without leaving a 1 KiB block, at most `k` (R202, R216). -/
def runBeats (addr : Nat → Nat) (i k : Nat) : Nat :=
  let a := addr i
  ((List.range (min k (toBlockEnd a))).takeWhile (fun j => addr (i + j) == a + 64 * j)).length

/-- The bursts of the beats from `i` to `total` (R202). -/
def burstsLeft (addr : Nat → Nat) : Nat → Nat → Nat → Nat
  | 0, _, _ => 0
  | f + 1, i, total => if total ≤ i then 0 else 1 + burstsLeft addr f (i + max 1 (runBeats addr i (min 16 (total - i)))) total

/-- What a coach's prefetch queues hold or keep room for, beats that have not arrived and beats that the coach buffer has not taken, and what its write queue
holds, beats that are not accepted (R88, R90, R205). -/
def queued (c : Coach) (write : Bool) (s : State) : Nat :=
  ((s.mp.txs.filter (fun t => t.write == write && !t.abandoned && (match t.dest with | .coach d _ => d == c.val | .record d _ => d == c.val | _ => false))).map
    (fun t => if write then min t.waiting t.beats else t.beats - t.got)).sum + (if write then 0 else (co c s).prefetch.length)

/-- Replace the transfer at a place of a coach's list; a record's transfer leaves it once it is issued whole. -/
def putXfer (c : Coach) (i : Nat) (x : Xfer) (s : State) : State :=
  modCo c (fun y => { y with xfers := if recXfer x && x.issued == x.total then y.xfers.eraseIdx i else y.xfers.set i x }) s

/-- A coach has come to the point of a switch, where it issues no further beats (R249 step 2). -/
def atStop (c : Coach) (s : State) : Bool :=
  match onCoach c s with
  | none => false
  | some (n, i) => (cx n s).switchTo.isSome && (if (co c s).run.isSome then (heldAt c s).isSome else atPoint c n i s)

/-- Issue the next burst of a coach, if it may go; a record stays in the coach buffer while sheet work is withheld (R60, R172, R202, R206 to R208, R219, R224, R226, R227). -/
def issueStep (c : Coach) (s : State) : Option State :=
  match (co c s).xfers.findIdx? (fun x => x.issued < x.total && !(withheld s && recXfer x)) with
  | none => none
  | some i =>
    match (co c s).xfers[i]? with
    | none => none
    | some x =>
      match ctxOf x.ctx with
      | none => none
      | some n =>
        if rdB (MP_FENCE.FENCING x.ctx) s then some (putXfer c i (xferEnd (arithNow s) x) s)
        else if rdB GL_STATUS.FENCED s || !domOpen 18 s || !domOpen c.val s || (x.tag < 512 && atStop c s) || scrubHeld x.ctx s then none
        else
          let conf := rdB (GL_CTX_STATUS.CONFIDENTIAL x.ctx) s
          let xts := regionXts x.region conf
          let slot := rd (MP_KEY_STATE.SLOT n.val) s
          let refused := slot == 2 || (slot == 0 && xts)
          if refused then
            let ends := putXfer c i (xferEnd (arithNow s) x) s
            if x.write && slot == 2 then
              some (wr MP_RETIRED_DROPS.LAST_CTX x.ctx (add MP_RETIRED_DROPS.COUNT (burstsLeft (fun j => xferAddr c n x j s) x.total x.issued x.total) ends))
            else
              let zero := if x.write then ends else beatsPut c x x.issued (List.replicate (64 * (x.total - x.issued)) 0) ends
              some (memErr x.ctx c.val x.stage x.row (some x.col) zero)
          else if x.region == 1 && !x.write && !s.tl.arrived.contains (x.ctx, x.row, if 13824 ≤ x.ofs then 1 else 0) then none
          else
            let room := if x.write then 256 - queued c true s else 1024 - queued c false s
            let addr (j : Nat) : Nat := xferAddr c n x j s
            let k := runBeats addr x.issued (min (min (x.total - x.issued) (co c s).winLeft) (min room 16))
            let a := addr x.issued
            if k == 0 then
              if x.write && room == 0 then
                (match (co c s).run with
                | some r => if r.fullAt.isNone && !waitsNow c s then some (modCo c (fun y => { y with run := some { r with fullAt := some (arithNow s) } }) s) else none
                | none => none)
              else none
            else if overlaps x.write a k s || (!x.write && writeWaits a k s) then none
            else
              let plain := if !x.write then [] else if x.data.isEmpty then SMap.getList zeroByte ((co c s).sram[4]) (x.buf + 64 * x.issued) (64 * k) else slice x.data (64 * x.issued) (64 * k)
              match presentTx x.write x.ctx x.region a x.issued k (xferDest c x) x.stage x.row x.col (portData (xts && x.write) (cx n s).key a plain) s with
              | none => none
              | some t => some (modCo c (fun y => { y with winLeft := y.winLeft - k }) (putXfer c i { x with issued := x.issued + k } t))

/-- Issue what may be issued now. -/
def issueAll (c : Coach) : Nat → State → State
  | 0, s => s
  | f + 1, s => match issueStep c s with | none => s | some t => issueAll c f t

/-- A stage that a full write queue held goes on once the queue has room: the stall counts as a wait (R192). -/
def queueRoom (c : Coach) (s : State) : State :=
  match (co c s).run with
  | none => s
  | some r =>
    match r.fullAt with
    | none => s
    | some t =>
      if queued c true s < 256 then
        let d := arithNow s - t
        add (GL_WB_LATE_CYC.COUNT (cid r.ctx)) d (modCo c (fun y => { y with run := some { r with fullAt := none, waits := r.waits + d } }) s)
      else s

/-- Change the entry that runs. -/
def modRun (c : Coach) (f : RunSt → RunSt) (s : State) : State := modCo c (fun x => { x with run := x.run.map f }) s

/-- Count the numeric events of a coach, with NUMERIC at the first of its kind in the stage (R104, R108, R111, R116). -/
def coachNumeric (c : Coach) (e : CEv) (s : State) : State :=
  match (co c s).run with
  | none => s
  | some r =>
    let s := add (CA_NUMERIC.NAN c.val) e.nan (add (CA_NUMERIC.OUT_SAT c.val) e.out (add (CA_NUMERIC.ACC_SAT c.val) e.acc s))
    let s := if e.acc != 0 then markBit (CA_STATUS.SAT_SEEN c.val) s else s
    let s := if e.nan != 0 then markBit (CA_STATUS.NAN_SEEN c.val) s else s
    let s := modRun c (fun r => { r with satSeen := r.satSeen || e.acc != 0, nanSeen := r.nanSeen || e.nan != 0 }) s
    if (e.acc != 0 && !r.satSeen && rdB (CA_CFG.SAT_FAULT c.val) s) || (e.nan != 0 && !r.nanSeen && rdB (CA_CFG.NAN_FAULT c.val) s) then coachFault c 0x02 1 s
    else s

/-- Bytes put at an address of an SRAM; those beyond its end fall at its start (log 21). -/
def sramPut (m : SMap Byte) (a : Nat) (bs : List Byte) : SMap Byte :=
  SMap.setList zeroByte (SMap.setList zeroByte m a (bs.take (0x200000 - a))) 0 (bs.drop (0x200000 - a))

/-- Write elements into the SRAMs of a mask (R177). -/
def sramWrite (c : Coach) (mask : Nat) (ws : List (Nat × List Byte)) (s : State) : State :=
  each ((List.finRange 5).filter (fun k => bit mask k.val)) (fun k => modCo c (fun x => { x with
    sram := x.sram.set k (ws.foldl (fun m w => sramPut m (w.1 % 0x200000) w.2) x.sram[k]) })) s

/-- Writes whose values the spec does not state: free bytes, and free counts (log 24). -/
def freeWrites (w : Writes) (s : State) : Writes × State :=
  let b := freeBytes (w.1.map (·.2.length)).sum s
  let f := free b.2
  let g := free f.2
  ((w.1.zipIdx.map (fun e => (e.1.1, slice b.1 (e.2 * e.1.2.length) e.1.2.length)), ⟨w.2.acc, f.1 % (w.1.length + 1), g.1 % (w.1.length + 1)⟩), g.2)

/-- Writes, with free values where the spec states none. -/
def settleOpen (isOpen : Bool) (w : Writes) (s : State) : Writes × State := if isOpen then freeWrites w s else (w, s)

/-- The drains of a run: the carriages drained together. A sum takes both carriages of a pair, or all four, whichever of them the run names (R107). -/
def drainGroups (op carriages : Nat) : List Nat :=
  match op with
  | 0 => (setBits 4 carriages).map (2 ^ ·)
  | 1 => [3, 12].filter (fun p => p &&& carriages != 0)
  | _ => [15]

/-- A run waits for a drain of its bank (R113). -/
def bankBusy (drains : List (Nat × Nat × Nat)) (d : RunDesc) : Bool := drains.any (fun q => q.2.1 == d.bank && q.1 &&& d.carriages != 0)

/-- The post functions of a POST stage, in order, as far as `k` elements of theirs in all (R106, R177). An output goes to every location of DST_MASK and to
that of its address. -/
def postStage (c : Coach) (img : List Byte) (stage k : Nat) (s : State) : State :=
  ((List.range (nPosts img stage)).foldl (fun (z : Nat × State) i =>
    let d := stPost img stage i
    let m := co c z.2
    let w := settleOpen (postOpen d (!tyInt d.inTy)) (postRun (coachMem m (d.srcA / 0x200000)) (coachMem m (d.srcB / 0x200000)) (coachMem m 4) m.tables d) z.2
    (z.1 - w.1.1.length, if z.1 == 0 then z.2 else coachNumeric c w.1.2 (sramWrite c (d.mask ||| 2 ^ (d.dst / 0x200000)) (w.1.1.take z.1) w.2))) (k, s)).2

/-- The code that a padded position holds under ZERO (R131). -/
def zeroCode (b : Border) : Nat :=
  if b.maxPool then (match b.ty with | 0 => 0x80 | 4 => 0xFE | 5 => 0xFC | 6 => 0xFF80 | _ => 0)
  else if b.ty ≤ 1 then unsigned 8 b.zeroPoint else 0

/-- What a border of a map holds (R130, R131): every position around the map, from the map as it stands in the first of the locations. -/
def borderWrites (m : Bytes) (b : Border) : List (Nat × List Byte) :=
  let sz := tyBytes b.ty
  let h := b.top + b.height + b.bottom
  let at_ (y x c : Nat) : Nat := tensorAt (b.base % 0x200000) h b.pitch sz y x c
  (List.range (32 * b.groups)).flatMap (fun c => (List.range h).flatMap (fun y => (List.range (b.left + b.width + b.right)).filterMap (fun x =>
    if b.top ≤ y && y < b.top + b.height && b.left ≤ x && x < b.left + b.width then none else
    some (at_ y x c, match padSource b.mode ((y : Int) - b.top) b.height, padSource b.mode ((x : Int) - b.left) b.width with
      | some p, some q => leBytes sz (rdN m (at_ (p + b.top) (q + b.left) c) sz)
      | _, _ => leBytes sz (zeroCode b)))))

/-- The post unit, or the stop of the coach buffer, writes a border (R132). -/
def borderPut (c : Coach) (b : Border) (s : State) : State :=
  sramWrite c b.mask (borderWrites (coachMem (co c s) ((setBits 5 b.mask).headD 4)) b) s

/-- ENTRY_BEGIN (R89, R132, R181). -/
def execEntryBegin (c : Coach) (obs : BeginObs) (s : State) : Host.Outcome State Fault Refusal :=
  .next (match readyEntry c s with
    | none => s
    | some (n, i, e) =>
      if h : i < 16 then
        if stKind (cx n s).image e.ent.stage == 2 then s else
        let s := modRun c (fun r => { r with clash := obs.collision }) (beginEntry c n i e (max e.planned ((cx n s).prog[i]).endPrev) s)
        if stKind (cx n s).image e.ent.stage == 0 then each (obs.borders.filter (fun b => b.mode == 0)) (borderPut c) s else s
      else s)

/-- An error of more than one bit stands in the SRAM, and the word is used as it stands (R87). -/
def eccPut (c : Coach) (e : EccObs) (s : State) : State :=
  match e with
  | .uncorrected loc word flip =>
    if h : loc < 5 then
      let a := word * 8 % 0x200000
      modCo c (fun x => { x with sram := x.sram.set loc (SMap.setList zeroByte (x.sram[loc]) a
        (leBytes 8 (Nat.xor (rdN (coachMem x loc) a 8) flip))) }) s
    else s
  | _ => s

/-- What the ECC found on a read of a coach's SRAM (R87). -/
def coachEcc (c : Coach) (e : EccObs) (s : State) : State :=
  match e with
  | .clean => s
  | .corrected _ k => markBit (CA_STATUS.ECC_SEEN c.val) (add (CA_ECC.CORR c.val) k s)
  | .uncorrected _ _ _ => coachFault c 0x10 2 (markBit (CA_STATUS.ECC_SEEN c.val) (inc (CA_ECC.UNCORR c.val) s))

/-- The fault that the run on a coach has met is raised: no pass follows DESC_FAULT, and a run goes on after NUMERIC (R94, R98, R116). -/
def runFault (c : Coach) (s : State) : State :=
  match (co c s).run.bind (·.fault) with
  | some 2 => coachFault c 0x02 1 (modRun c (fun r => { r with fault := none }) s)
  | some 1 => coachFault c 0x01 1 (modRun c (fun r => { r with fault := some 0 }) s)
  | _ => s

/-- The stage cycle that the drains on a coach have reached: a drain is completed at the point of a switch too (R249 step 2). -/
def drainCycle (c : Coach) (s : State) : Nat := if (heldAt c s).isSome then stageTime c s else stageCycle c s

/-- The stage cycle at which the run in progress ended, once it is reached; a run that breaks R94 is over as it begins. -/
def runEnded (c : Coach) (s : State) : Option Nat :=
  match (co c s).run with
  | none => none
  | some r =>
    let img := (cx r.ctx s).image
    let e := if runOk img (runDesc img r.stage r.runIdx) then runEnd img r else r.runAt
    if runOn img r && r.fault.isNone && e ≤ stageCycle c s then some e else none

/-- The stage cycle at which the first drain ended, once it is reached (R113). -/
def drainEnded (c : Coach) (s : State) : Option Nat :=
  match (co c s).run with
  | none => none
  | some r => if !r.drains.isEmpty && r.drainAt + 256 ≤ drainCycle c s then some (r.drainAt + 256) else none

/-- What a drain of a bank writes: its first `k` elements, those that its flits have carried (R89, R107). FUNC of its
descriptor is not looked at, as R106 gives a drain no choice of function (DESIGN CHOICE, log 35). -/
def drainWrites (c : Coach) (r : RunSt) (q : Nat × Nat × Nat) (k : Nat) (s : State) : State :=
  let img := (cx r.ctx s).image
  let d := runDesc img r.stage q.2.2
  let p := stPost img r.stage d.post
  let acc (i pos o : Nat) : Nat := SMap.get (fun _ => 0) (co c s).acc (accKey i q.2.1 pos o)
  let z := settleOpen (postOpen p (3 ≤ d.mode)) (requant acc (coachMem (co c s) 4) (co c s).tables d p (setBits 4 q.1)) s
  coachNumeric c z.1.2 (sramWrite c p.mask (z.1.1.take k) z.2)

/-- The run in progress ends (R95, R113): its drains join the queue, and the next run waits for its bank. -/
def finishRun (c : Coach) (s : State) : State :=
  match (co c s).run with
  | none => s
  | some r =>
    let img := (cx r.ctx s).image
    let e := runEnd img r
    let s := runTo c e s
    if ((co c s).run.bind (·.fault)).isSome then runFault c s else
    let d := runDesc img r.stage r.runIdx
    let ds := if d.drain then r.drains ++ (drainGroups (stPost img r.stage d.post).op d.carriages).map (fun m => (m, d.bank, r.runIdx)) else r.drains
    let next := runDesc img r.stage (r.runIdx + 1)
    modRun c (fun r => { r with
      runIdx := r.runIdx + 1, runAt := e, step := 0, drains := ds, drainAt := if r.drains.isEmpty then e else r.drainAt
      stalled := decide (r.runIdx + 1 < nRuns img r.stage) && bankBusy ds next, stallN := 0 }) s

/-- The first drain ends: its output stands in the SRAMs, and a run that waited for the bank begins (R107, R113). -/
def finishDrain (c : Coach) (s : State) : State :=
  match (co c s).run with
  | none => s
  | some r =>
    match r.drains with
    | [] => s
    | q :: rest =>
      let t := r.drainAt + 256
      let s := stallTo c t (runTo c t s)
      if ((co c s).run.bind (·.fault)).isSome then runFault c s else
      let img := (cx r.ctx s).image
      let free := r.stalled && !bankBusy rest (runDesc img r.stage r.runIdx)
      let s := modRun c (fun r => { r with drains := rest, drainAt := t, stalled := r.stalled && !free, runAt := if free then t else r.runAt }) s
      drainWrites c r q 32768 s

/-- Two flits meet on the shift ring in the cycle that the stage has reached: the elements before them have been delivered, 128 a cycle, and the
stage stops (R89). -/
def clashStop (c : Coach) (s : State) : State :=
  match (co c s).run with
  | none => s
  | some r =>
    match r.clash with
    | none => s
    | some x =>
      if stageCycle c s < x then s else
      let s := match r.drains with
        | q :: _ => drainWrites c r q (128 * (x - r.drainAt)) s
        | [] => if stKind (cx r.ctx s).image r.stage == 1 then postStage c (cx r.ctx s).image r.stage (128 * x) s else s
      coachFault c 0x01 1 s

/-- What a coach has come to is carried out in its order, up to a run's end or a drain's end as wanted; a drain that ends with a run comes first.
With nothing of the kind due the stage is brought up to the present cycle. -/
def coachEvents (c : Coach) (wantRun : Bool) : Nat → State → State
  | 0, s => s
  | f + 1, s =>
    match runEnded c s, drainEnded c s with
    | none, none => clashStop c (runFault c (coachSettle c s))
    | some _, none => if wantRun then finishRun c s else coachEvents c wantRun f (finishRun c s)
    | none, some _ => if wantRun then coachEvents c wantRun f (finishDrain c s) else finishDrain c s
    | some a, some b =>
      if a < b then (if wantRun then finishRun c s else coachEvents c wantRun f (finishRun c s))
      else if wantRun then coachEvents c wantRun f (finishDrain c s) else finishDrain c s

/-- CARRIAGE_RUN_END (R87, R95, R113). -/
def execCarriageRunEnd (c : Coach) (ecc : EccObs) (s : State) : Host.Outcome State Fault Refusal :=
  .next (if (co c s).run.isNone then s else coachEcc c ecc (coachEvents c true 8 (eccPut c ecc (syncSettle c (queueRoll c s)))))

/-- Every run of the stage on a coach has run and drained. -/
def allDrained (c : Coach) (s : State) : Bool :=
  match (co c s).run with | none => false | some r => decide (nRuns (cx r.ctx s).image r.stage ≤ r.runIdx) && r.drains.isEmpty

/-- BANK_DRAIN_END (R87, R107, R113, R132): one drain takes 256 cycles. The borders that copy output values follow the drain of the last run. -/
def execBankDrainEnd (c : Coach) (obs : DrainObs) (s : State) : Host.Outcome State Fault Refusal :=
  .next (if (co c s).run.isNone then s else
    let s := coachEvents c false 8 (eccPut c obs.ecc (syncSettle c (queueRoll c s)))
    coachEcc c obs.ecc (if allDrained c s then each (obs.borders.filter (fun b => b.mode != 0)) (borderPut c) s else s))

/-- The coach issues what its stage has reached and its window still holds (R87, R172). -/
def transferIssue (c : Coach) (ecc : EccObs) (s : State) : State :=
  let s := admitDue c (syncSettle c (queueRoom c (eccPut c ecc s)))
  coachEcc c ecc (issueAll c (4 * (co c s).winLeft + 2 * (co c s).xfers.length + 2) s)

/-- TRANSFER_ISSUE (R172). -/
def execTransferIssue (obs : IssueObs) (s : State) : Host.Outcome State Fault Refusal := .next (transferIssue obs.coach obs.ecc s)

/-- Bytes 0 to 31 of a result record (R221). -/
def recordHead (n : Ctx) (r : RunSt) (map : Bool) (s : State) : List Byte :=
  let p := rowPos n r.row s
  let x := rowFind n r.row s
  let memErr := match x with | some x => x.errCols.contains r.col | none => false
  let bad := match x with | some x => x.mismatch | none => false
  let pad := match x with | some x => x.padded.contains r.col | none => false
  wordsBytes [cid n + r.col * 16 + p.rowInSheet % 65536 * 65536, low32 p.epoch, low32 p.line, p.line / 2 ^ 32 % 65536,
    low32 (r.row * cfgColumns (cx n s).cfg + r.col), b2n map + 2 * b2n memErr + 4 * b2n bad + 8 * b2n pad, 0, 0]

/-- A RECORD stage ends (R179, R221, R222): its record and map leave for the RESULT region, and the ledger gets the record. A row
that has been discarded, or that is replayed after it was posted, writes nothing (R495). The map is written when the body and the
configuration both say so (R179, R337, log 33). -/
def recordStage (c : Coach) (r : RunSt) (s : State) : State :=
  let n := r.ctx
  let img := (cx n s).image
  let cfg := (cx n s).cfg
  match rowFind n r.row s with
  | none => s
  | some x =>
    if x.posted || x.dropped then s else
    let o := (stBody img r.stage).1
    let map := bit (wordAt img (o + 8)) 0 && cfgMapEn cfg
    let buf (a k : Nat) : List Byte := SMap.getList zeroByte ((co c s).sram[4]) (a % 0x200000) k
    let data := recordHead n r map s ++ buf (wordAt img o + 32) 224
    let defects := if map then buf (wordAt img (o + 4)) 2048 else []
    let s := if decide (cfgDepthRows cfg ≤ r.row - rd (MP_CTX_RES_CONS.ROWS (cid n)) s) && decide (rd (MP_CTX_RES_CONS.ROWS (cid n)) s ≤ r.row) then inc (MP_CTX_RING.OVERWRITE (cid n)) s else s
    let mk (tag ofs : Nat) (bs : List Byte) : Xfer := {
      write := true, region := 6, tag := tag, ctx := cid n, row := r.row, col := r.col, stage := r.stage,
      ofs := ofs, buf := 0, data := bs, total := bs.length / 64, issued := 0, arrived := 0, issueAt := arithNow s, waits0 := (co c s).waited + r.waits, res := (co c s).winRes, doneAt := none }
    let idx := recOfs cfg r.row r.col
    let s := modCo c (fun y => { y with xfers := y.xfers ++ [mk 256 0 data] ++ (if map then [mk 257 (mapOfs cfg r.row r.col - idx) defects] else []) }) s
    modRow n r.row (fun x => { x with recs := x.recs.filter (·.column != r.col) ++ [⟨r.col, data, defects⟩] }) s

/-- The entry on a coach is the last of its row in the period, or the last of a reference program. -/
def lastOfRow (img : List Byte) (ref : Bool) (i e : Nat) : Bool :=
  (List.range (progOf img ref i).2).all (fun k => k ≤ e || (!ref && (progEnt img ref i k).row != (progEnt img ref i e).row))

/-- A coach has finished a row, or its reference program. -/
def rowDone (r : RunSt) (s : State) : State :=
  let n := r.ctx
  let ref := (cx n s).refRun.isSome
  if !lastOfRow (cx n s).image ref r.index r.entry then s
  else if ref then modCx n (fun c => { c with refCoaches := c.refCoaches ||| 2 ^ r.index }) s
  else
    let s := modRow n r.row (fun x => { x with coachDone := x.coachDone ||| 2 ^ r.index }) s
    { s with flt := { s.flt with replay := s.flt.replay.map (fun p =>
      if p.cur != some (cid n) then p else
      let old := match p.done.find? (fun d => d.1 == r.row) with | some d => d.2 | none => 0
      { p with done := (r.row, old ||| 2 ^ r.index) :: p.done.filter (fun d => d.1 != r.row) }) } }

/-- The stage on a coach has come to its end: stage cycle W is reached, and nothing of it is left to do (R166). -/
def stageOver (c : Coach) (r : RunSt) (s : State) : Bool :=
  let img := (cx r.ctx s).image
  decide (stLen img r.stage ≤ stageCycle c s) && !(syncRun c r s).2.2.2 && decide (stNSync img r.stage ≤ r.sync) && r.fullAt.isNone && r.fault.isNone && r.clash.isNone &&
  !(stKind img r.stage == 2 && s.gig.run == some c) &&
  !(runOn img r && decide (runEnd img r ≤ stLen img r.stage)) && !(!r.drains.isEmpty && decide (r.drainAt + 256 ≤ stLen img r.stage))

/-- A stage ends once its work is done, and the coach's next entry may begin (R87, R132, R166, R179). -/
def endStage (c : Coach) (ecc : EccObs) (bs : List Border) (s : State) : State :=
  let s := clashStop c (runFault c (coachSettle c s))
  match (co c s).run with
  | none => s
  | some r =>
    if coachState c s != 2 || !stageOver c r s then s else
    let img := (cx r.ctx s).image
    let s := eccPut c ecc (admitDue c s)
    let s := if stKind img r.stage == 1 then each bs (borderPut c) (postStage c img r.stage (2 ^ 32) s) else s
    let s := coachEcc c ecc (if stKind img r.stage == 3 then recordStage c r s else s)
    match (co c s).run with
    | none => s
    | some r =>
      let t := r.beginAt + stLen img r.stage + r.waits
      let s := modCx r.ctx (fun x => if h : r.index < 16 then { x with
        prog := x.prog.set r.index { x.prog[r.index] with entry := r.entry + 1, endPrev := t, prevWaits := r.waits, prevStage := r.stage, prevRow := r.row } } else x) s
      let s := rowDone r (modCo c (fun x => { x with run := none, waited := x.waited + r.waits }) s)
      wr (CA_STATUS.STATE c.val) 1 s

/-- STAGE_END (R166). -/
def execStageEnd (obs : EndObs) (s : State) : Host.Outcome State Fault Refusal := .next (endStage obs.coach obs.ecc obs.borders s)

/-- The cycles that the entries of a coach have waited, that of a wait in progress and of a full write queue among them. -/
def waitedSoFar (c : Coach) (s : State) : Nat :=
  match (co c s).run with
  | none => (co c s).waited
  | some r =>
    let z := syncRun c r s
    let y := stSync (cx r.ctx s).image r.stage z.1.sync
    (co c s).waited + z.1.waits + (if z.2.2.2 then coachNow c s - (z.1.beginAt + z.1.waits + y.1) else 0) + (arithNow s - coachNow c s)

/-- A transfer still waits for reservation after its issue allowance, counted in the cycles in which the coach's stages went on (R172). -/
def exceeds (c : Coach) (s : State) : Bool :=
  (co c s).winLeft == 0 && (co c s).xfers.any (fun x => decide (x.issued < x.total) && x.res != 0 &&
    decide (x.issueAt + (waitedSoFar c s - x.waits0) + ceilDiv (1800 * x.total) x.res + 1800 < arithNow s))

/-- The contexts of coaches at which a beat waits beyond its allowance, each once (R172, R200). -/
def exceeders (s : State) : List Ctx := allCtx.filter (fun n => allCoach.any (fun c => coachCtxId c s == cid n && exceeds c s))

/-- MP_WINDOW_END (R172, R209, R250, R289): a window of 1,200 cycles ends and the next begins. -/
def execMpWindowEnd (s : State) : Host.Outcome State Fault Refusal :=
  .next (if !domOn 18 s || s.now < s.mp.winAt + 1200 then s else
    let s := each (exceeders s) (fun n => inc (GL_WB_DROPS.RES_EXCEED (cid n))) s
    let s := each allCoach (fun c => modCo c (fun x =>
      if x.swRes != 0 then { x with winRes := x.swRes, winLeft := x.swRes } else if x.begun then { x with winRes := x.lastRes, winLeft := x.lastRes } else x)) s
    { s with mp := { s.mp with winAt := s.mp.winAt + 1200, linkLeft := 32, digestLeft := 10, fwLeft := 10 } })

/-- A clear of a coach's counters; it has no effect in confidential mode (R124). -/
def caClear (c : Coach) (fs : List Fld) (s : State) : State :=
  hostTo (0x200030 + 0x10000 * c.val) false (fun t => if confidential t then t else cntClr fs (coachSettle c t)) s

/-- CA_CNT_CLR_BUSY (R124). -/
def execCaCntClrBusy (c : Coach) (s : State) : Host.Outcome State Fault Refusal := .next (caClear c [CA_BUSY.COUNT c.val] s)

/-- CA_CNT_CLR_STALL (R124). -/
def execCaCntClrStall (c : Coach) (s : State) : Host.Outcome State Fault Refusal :=
  .next (caClear c [CA_STALL_MEM.COUNT c.val, CA_STALL_POST.COUNT c.val] s)

/-- CA_CNT_CLR_NUMERIC (R124). -/
def execCaCntClrNumeric (c : Coach) (s : State) : Host.Outcome State Fault Refusal :=
  .next (caClear c [CA_NUMERIC.ACC_SAT c.val, CA_NUMERIC.OUT_SAT c.val, CA_NUMERIC.NAN c.val] s)

/-- CA_CNT_CLR_ECC (R124). -/
def execCaCntClrEcc (c : Coach) (s : State) : Host.Outcome State Fault Refusal := .next (caClear c [CA_ECC.CORR c.val, CA_ECC.UNCORR c.val] s)

end Sys2Proof.Machine
end

