-- ==== Sys2Proof/Machine/Gig.lean ====
section
/-! DEFINITION. The Gig engine: its slots, the entries that use them, its faults, page scrubs and counters (R149 to R163, R182, R262). -/

namespace Sys2Proof.Machine

/-- Cycles of overlap of two intervals. -/
def overlapLen (a b x y : Nat) : Nat := min b y - max a x

/-- Whether a slot of a waybill is named by an entry of its sheet programs (R155). -/
def sheetSlot (img : List Byte) (k : Nat) : Bool := (progAll img false).any (fun e => stKind img e.stage == 2 && e.slot == k)

/-- The planned slots of a context: begin in enabled cycles, and when it ended, once it has (R182). -/
def plannedSlots (m : Ctx) (s : State) : List (Nat × Option Nat) :=
  let img := (cx m s).image
  if cxState m s != 3 then [] else
  ((rowsOf m s).filter (fun r => !r.dropped)).flatMap (fun r => (List.range (nSlots img)).filterMap (fun k =>
    let x := slotEnt img k
    let a := r.relArith + x.start
    let ends := match coachAt (partMask m s) x.coach with | some c => (co c s).gigEnds | none => []
    if x.row == (r.row + rowPhase m s) % max 1 (wbPeriod img) && sheetSlot img k then
      some (a, (ends.find? (fun g => g.1 == k && decide (a ≤ g.2))).map (·.2)) else none))

/-- The planned slots of every other context. -/
def foreignSlots (n : Ctx) (s : State) : List (Nat × Option Nat) := (allCtx.filter (· != n)).flatMap (fun m => plannedSlots m s)

/-- The first cycle from `ready` on in which a slot of a length may begin (R182): the engine is free from `free` on, and each foreign slot planned at or after
`ready` and before the slot's end has ended. -/
def gigFirst (ready free len : Nat) (slots : List (Nat × Option Nat)) : Option Nat :=
  let ok (b : Nat) : Bool := ready ≤ b && free ≤ b && slots.all (fun x => !(decide (ready ≤ x.1) && decide (x.1 < b + len)) || (match x.2 with | some t => decide (t ≤ b) | none => false))
  ((ready :: free :: slots.filterMap (·.2)).filter ok).min?

/-- When a ready GIG entry became ready (R181). -/
def gigReady (c : Coach) (s : State) : Option (Ctx × Nat × NextEnt × Nat) :=
  match readyEntry c s with
  | none => none
  | some (n, i, e) =>
    if stKind (cx n s).image e.ent.stage != 2 then none
    else if h : i < 16 then some (n, i, e, max e.planned ((cx n s).prog[i]).endPrev) else none

/-- Another entry that plans no slot became ready earlier, and takes the engine first (R182). -/
def gigBehind (c : Coach) (t : Nat) (s : State) : Bool :=
  allCoach.any (fun d => d != c && (match gigReady d s with | some (_, _, e, u) => e.ref && (decide (u < t) || (u == t && decide (d.val < c.val))) | none => false))

/-- GIG_ENTRY_BEGIN (R155, R181, R182): the engine is free, and the slot ends before the next one of another context. The entry begins in the first cycle in
which it may; the cycles from its readiness on in which no slot of its own context ran are foreign waits. -/
def execGigEntryBegin (c : Coach) (s : State) : Host.Outcome State Fault Refusal :=
  .next (match gigReady c s with
    | none => s
    | some (n, i, e, ready) =>
      let len := (slotEnt (cx n s).image e.ent.slot).len
      if s.gig.run.isSome || !domOpen 16 s || (e.ref && gigBehind c ready s) then s else
      match gigFirst ready (s.gig.beginAt + s.gig.len) len (foreignSlots n s) with
      | none => s
      | some b =>
        if arithNow s < b then s else
        let own := ((s.gig.past.filter (fun x => x.1 == cid n)).map (fun x => overlapLen x.2.1 x.2.2 ready b)).sum
        let s := beginEntry c n i e b (add (GL_WB_FOREIGN.COUNT (cid n)) (b - ready - own) s)
        let s := modCo c (fun x => { x with gigEnds := x.gigEnds.filter (fun g => g.1 != e.ent.slot) })
          { s with gig := { s.gig with run := some c, beginAt := b, len := len, busyN := 0, lastCoach := some c, passes := s.gig.lastCoach.any (fun d => decide (d ≠ c))
                                       ran := (cid n, s.tt.released) :: s.gig.ran.filter (fun x => x.1 != cid n) } }
        showGig (wrs [(GG_STATUS.CTX, cid n), (GG_STATUS.COACH, c.val)] s))

/-- The Gig SRAM through a context's pages, in ascending order (R243, log 21). -/
def gigMem (n : Ctx) (s : State) : Bytes :=
  let ps := (List.finRange 64).filter (fun i => s.gig.pages[i] == cid n)
  fun a => match ps[a / 65536]? with | some p => SMap.get zeroByte s.gig.sram (65536 * p.val + a % 65536) | none => 0

/-- The bytes of a context's pages. -/
def gigBytes (n : Ctx) (s : State) : Nat := 65536 * ((List.finRange 64).filter (fun i => s.gig.pages[i] == cid n)).length

/-- A fault of the Gig engine with the context and entry of its slot. -/
def gigFault (code level : Nat) (c : Coach) (s : State) : State :=
  match (co c s).run with
  | some r => raiseFault 16 ⟨code, level, cid r.ctx, c.val, r.stage, r.row⟩ s
  | none => raiseFault 16 ⟨code, level, 0, c.val, 0xFF, 0⟩ s

/-- Count the numeric events of a slot, with NUMERIC at the first (R156, R161). -/
def gigNumeric (c : Coach) (e : CEv) (s : State) : State :=
  let s := add GG_NUMERIC.NAN e.nan (add GG_NUMERIC.OUT_SAT e.out (add GG_NUMERIC.ACC_SAT e.acc s))
  let s := if e.acc != 0 then markBit GG_STATUS.SAT_SEEN s else s
  let s := if e.nan != 0 then markBit GG_STATUS.NAN_SEEN s else s
  if (e.acc != 0 && rdB GG_CFG.SAT_FAULT s) || (e.nan != 0 && rdB GG_CFG.NAN_FAULT s) then gigFault 0x02 1 c s else s

/-- An error of more than one bit stands in the Gig SRAM, or in the coach buffer that the slot uses, and the word is used as it stands (R87, R149). -/
def gigEccPut (c : Coach) (e : EccObs) (s : State) : State :=
  match e with
  | .uncorrected 5 word flip =>
    let a := word * 8 % 0x400000
    { s with gig := { s.gig with sram := SMap.setList zeroByte s.gig.sram a (leBytes 8 (Nat.xor (rdN (SMap.get zeroByte s.gig.sram) a 8) flip)) } }
  | _ => eccPut c e s

/-- What the ECC found during a slot: in the Gig SRAM (R156), or in the coach buffer (R87). -/
def gigEcc (c : Coach) (e : EccObs) (s : State) : State :=
  match e with
  | .clean => s
  | .corrected 5 k => markBit GG_STATUS.ECC_SEEN (add GG_ECC.CORR k s)
  | .uncorrected 5 _ _ => gigFault 0x05 1 c (markBit GG_STATUS.ECC_SEEN (inc GG_ECC.UNCORR s))
  | _ => coachEcc c e s

/-- The layers of a slot, in order (R178): the coach buffer afterwards, and what was counted. The weights, the biases and the table set lie in the pages
of the context (R149); the tables are their last 1,024 bytes, and PARAM addresses the pages as WADDR does (log 35). -/
def gigLayers (n : Ctx) (c : Coach) (k : Nat) (s : State) : State × CEv :=
  let img := (cx n s).image
  let m := gigMem n s
  let tables := (List.range 1024).map (fun i => m (gigBytes n s - 1024 + i))
  (List.range (nLayers img k)).foldl (fun a j =>
    let l := gigLayer img k j
    let d := gigPost img l
    let z := settleOpen (gigOpen l d) (gigRun (coachMem (co c a.1) 4) m tables l { d with param := d.param % 0x400000 }) a.1
    (sramWrite c 16 z.1.1 z.2, a.2.add z.1.2)) (s, CEv.none)

/-- GIG_SLOT_END (R151 to R156): the slot's layers are done. -/
def execGigSlotEnd (ecc : EccObs) (s : State) : Host.Outcome State Fault Refusal :=
  .next (match s.gig.run with
    | none => s
    | some c =>
      match (co c s).run with
      | none => gigStop s
      | some r =>
        let t := s.gig.beginAt + s.gig.len
        if arithNow s < t then s else
        let z := gigLayers r.ctx c r.stage (gigEccPut c ecc (gigSettle s))
        let s := modCo c (fun x => { x with gigEnds := (r.slot, t) :: x.gigEnds.filter (fun g => g.1 != r.slot) }) z.1
        gigEcc c ecc (gigNumeric c z.2 (gigFree t s)))

/-- GIG_ECC_IDLE (R156): a double-bit error while no slot runs, handled at level COACH. -/
def execGigEccIdle (s : State) : Host.Outcome State Fault Refusal :=
  .next (if s.gig.run.isSome || !domOpen 16 s then s else
    raiseFault 16 ⟨0x05, 2, 0, 0, 0xFF, 0⟩ (markBit GG_STATUS.ECC_SEEN (inc GG_ECC.UNCORR s)))

/-- GIG_PAGE_SCRUB_END (R256 step 5, R262): the pages of a torn-down context are cleared and free. -/
def execGigPageScrubEnd (n : Ctx) (s : State) : Host.Outcome State Fault Refusal :=
  .next (match s.gig.scrubs.find? (fun x => x.1 == cid n) with
    | none => s
    | some x =>
      let ps := (List.finRange 64).filter (fun i => s.gig.pages[i] == cid n)
      if s.now < x.2 + ceilDiv (2 * (256 + 128 * ps.length)) 3 then s else
      let s := { s with gig := { s.gig with
        scrubs := s.gig.scrubs.filter (fun y => y.1 != cid n)
        pages := s.gig.pages.map (fun p => if p == cid n then 0 else p)
        sram := SMap.forget (fun a => ps.any (fun i => a / 65536 == i.val)) s.gig.sram } }
      showGig (tearScrubbed n (modCx n (fun c => { c with scrubPages := false }) s)))

/-- A clear of the Gig engine's counters; it has no effect in confidential mode (R163). -/
def ggClear (fs : List Fld) (s : State) : State := hostTo 0x300030 false (fun t => if confidential t then t else cntClr fs (gigSettle t)) s

/-- GG_CNT_CLR_BUSY (R163). -/
def execGgCntClrBusy (s : State) : Host.Outcome State Fault Refusal := .next (ggClear [GG_BUSY.COUNT] s)
/-- GG_CNT_CLR_WAIT (R163). -/
def execGgCntClrWait (s : State) : Host.Outcome State Fault Refusal := .next (ggClear [GG_WAIT.COUNT] s)
/-- GG_CNT_CLR_NUMERIC (R163). -/
def execGgCntClrNumeric (s : State) : Host.Outcome State Fault Refusal := .next (ggClear [GG_NUMERIC.ACC_SAT, GG_NUMERIC.OUT_SAT, GG_NUMERIC.NAN] s)
/-- GG_CNT_CLR_ECC (R163). -/
def execGgCntClrEcc (s : State) : Host.Outcome State Fault Refusal := .next (ggClear [GG_ECC.CORR, GG_ECC.UNCORR] s)

end Sys2Proof.Machine
end

