-- ==== Sys2Proof/Machine/Access.lean ====
section
/-! DEFINITION. Host accesses of registers that a running unit's work changes: writes of fields, and reads of counter pairs (R14, R15, R115). -/

namespace Sys2Proof.Machine

/-- The unit whose window holds an address is brought up to the present cycle: a coach, or the Gig engine. -/
def settleAt (addr : Nat) (s : State) : State :=
  if addr / 0x100000 == 2 then (let c : Coach := ⟨addr / 0x10000 % 16, Nat.mod_lt _ (by decide)⟩; if domOn c.val s then coachSettle c s else s)
  else if addr / 0x100000 == 3 then (if domOn 16 s then gigSettle s else s)
  else s

/-- An access to CA_Cn_CFG or GG_CFG, whose PROF_EN switches the counters (R118, R158), or to CA_Cn_STATUS, whose sticky bits the cycles passed have set (R117). -/
def profAddr (addr : Nat) : Bool := addr / 0x100000 == 2 && (addr % 0x10000 == 4 || addr % 0x10000 == 0) || addr == 0x300004

/-- A write that a processor makes through its own path, at the offset that the register has in the window (R362, R426). Its sources and routes are the Coachman's to
set; the digest registers are those of the processor's view. No rule gives it another register there. -/
def pathWrite (p : Proc) (a data : Nat) (s : State) : State :=
  if a / 0x100000 == 9 then
    (match p with
    | .coachman => if cmUp s && domOpen 21 s then dgRegWrite 1 a data s else s
    | .strongbox => if domOpen 21 s then dgRegWrite 2 a data s else s)
  else if p = .strongbox || !cmUp s || a % 4 != 0 then s
  else if 0x700040 ≤ a && a < 0x700050 then each (List.range 32) (fun b => classTo (8 * (a - 0x700040) + b) (bit data b)) s
  else if 0x700050 ≤ a && a < 0x700070 then each (List.range 16) (fun j => routeTo (4 * (a - 0x700050) + j) (bits data (2 * j) 2)) s
  else s

/-- The processor whose own path an address names: 1 the Coachman, 2 the Strongbox, in bits 48 and 49, which no host address has. How a command names the path no
rule says (DESIGN CHOICE, log 36). -/
def procOf (addr : Nat) : Option Proc := if addr / 2 ^ 48 == 1 then some .coachman else if addr / 2 ^ 48 == 2 then some .strongbox else none

/-- REG_WRITE (R14): a write of a register whose fields have no row of their own, by the host, or by a processor through its own path (R362, R426). One of PROF_EN
counts from the next cycle on (R115). -/
def execRegWrite (addr : Nat) (data : Word) (sec : Bool) (s : State) : Host.Outcome State Fault Refusal :=
  .next (match procOf addr with
    | some p => pathWrite p (addr % 2 ^ 48) data.toNat s
    | none => hostTo addr sec (fun t => if profAddr addr then showProf (regWrite addr data.toNat (settleAt addr t)) else regWrite addr data.toNat t) s)

/-- PAIR_LO_WRITE (R15): by the host, or by a processor in its view of the digest registers (R426, R442). -/
def execPairLoWrite (addr : Nat) (data : Word) (sec : Bool) (s : State) : Host.Outcome State Fault Refusal :=
  .next (match procOf addr with
    | some .coachman => if cmUp s && domOpen 21 s && addr % 2 ^ 48 / 0x100000 == 9 then dgPairWrite 1 (addr % 2 ^ 48) data.toNat s else s
    | some .strongbox => if domOpen 21 s && addr % 2 ^ 48 / 0x100000 == 9 then dgPairWrite 2 (addr % 2 ^ 48) data.toNat s else s
    | none => hostTo addr sec (commitPair addr data.toNat) s)

/-- PAIR_LO_READ (R15): the count of the present cycle. -/
def execPairLoRead (addr : Nat) (sec : Bool) (s : State) : Host.Outcome State Fault Refusal :=
  .next (hostFrom addr sec (fun t => pairValue addr (settleAt addr t)) (fun t => { t with snap := (snapPair addr (settleAt addr t)).snap }) s)

end Sys2Proof.Machine
end

