-- ==== Sys2Proof/Machine/Contexts.lean ====
section
/-! DEFINITION. Contexts over time: switches, slices, scrubs, retirement, the abort fence (R244 to R263). -/

namespace Sys2Proof.Machine

/-- The preemption point at which a coach stands: stage and point number (31 for the end of a stage), and the stage cycle of an
interior one (R195, R248). -/
def standsAt (c : Coach) (n : Ctx) (i : Nat) (s : State) : Option (Nat × Nat × Nat) :=
  match (co c s).run with
  | none => if atPoint c n i s then some (if h : i < 16 then ((cx n s).prog[i]).prevStage else 0, 31, 0) else none
  | some r =>
    let img := (cx r.ctx s).image
    (heldAt c s).map (fun p => (r.stage, (List.range (stNPreempt img r.stage)).findIdx (fun j => stPreempt img r.stage j == p), p))

/-- The extents of a point, and none before the first entry of a program. -/
def pointExtents (c : Coach) (n : Ctx) (stage point : Nat) (s : State) : List (Nat × Nat × Nat) :=
  if !(co c s).begun then [] else
  match livePoint (cx n s).image stage point with | some p => liveExtents (cx n s).image p | none => []

/-- The control state that a coach saves at a point (R249 step 3). A cycle of the coach stands in it as the stage cycle of its point, and the cycle of an ISSUE
as its age there. -/
def saveOf (c : Coach) (n : Ctx) (at_ : Nat × Nat × Nat) (s : State) : SaveSt :=
  let x := co c s
  let held := match x.run with | some r => r.beginAt + r.waits + at_.2.2 | none => arithNow s
  { live := pointExtents c n at_.1 at_.2.1 s
    run := x.run.map (fun r => { r with beginAt := at_.2.2, fullAt := none, stop := none })
    xfers := x.xfers.map (fun f => { f with issueAt := held - f.issueAt }), gigEnds := x.gigEnds, begun := x.begun, lastRes := x.lastRes, waited := x.waited }

/-- The bytes of a live list, in the order of its extents (R249). -/
def liveBytes (es : List (Nat × Nat × Nat)) (x : CoachSt) : List Byte :=
  es.flatMap (fun e => if h : e.2.1 < 5 then SMap.getList zeroByte x.sram[e.2.1] e.1 e.2.2 else slice x.tables e.1 e.2.2)

/-- The last coach of the set reaches its point (R249, R251): P, the debt of the outgoing context, and the incoming one's delay. -/
def switchReached (o m : Ctx) (c : Coach) (s : State) : State :=
  let d := s.now - ((cx o s).switchE.getD s.now)
  switchCharge c m d (add (GL_CTX_DEBT.CARRIED (cid o)) d (modCx o (fun x => { x with switchP := some s.now }) s))

/-- When a coach of a set came to its point, in enabled cycles; one that saves came there before the others. -/
def stoodSince (c : Coach) (o : Ctx) (s : State) : Option Nat :=
  let i := coachIndex (partMask o s) c
  if coachState c s == 3 then some 0 else if 3 < coachState c s then none
  else (standsAt c o i s).map (fun p => match (co c s).run with | some r => r.beginAt + r.waits + p.2.2 | none => if h : i < 16 then ((cx o s).prog[i]).endPrev else 0)

/-- The coach with the last of some times. -/
def lastOf (c : Coach) (f : Coach → Nat) (cs : List Coach) : Coach := cs.foldl (fun a b => if f a ≤ f b then b else a) c

/-- A switch whose coaches have all come to their points has its P in this cycle (R249, R251); the delay stands under the coach that came last. -/
def switchSeen (o : Ctx) (s : State) : State :=
  match switchMate o s with
  | none => s
  | some m =>
    if (cx o s).switchP.isSome then s else
    let s := each (coachesOf (partMask o s)) syncSettle s
    match coachesOf (partMask o s) with
    | [] => s
    | c :: cs => if (c :: cs).all (fun d => (stoodSince d o s).isSome) then switchReached o m (lastOf c (fun d => (stoodSince d o s).getD 0) cs) s else s

/-- A cycle of the switches under way. -/
def switchCycle (s : State) : State := each (allCtx.filter (fun o => (cx o s).switchTo.isSome)) switchSeen s

/-- The beats that a coach has issued are in: its reads have arrived, its writes are accepted, and no drain runs (R249 step 2). -/
def coachQuiet (c : Coach) (s : State) : Bool :=
  queued c false s == 0 && queued c true s == 0 && (co c s).prefetch.isEmpty && (match (co c s).run with | some r => r.drains.isEmpty | none => true)

/-- PREEMPT_POINT_REACHED (R87, R249 steps 2 and 3): the coach is quiet at its point, and saves; an error on its reads may stop it there. One that is IDLE holds
nothing of a context (R237). -/
def execPreemptPointReached (obs : IssueObs) (s : State) : Host.Outcome State Fault Refusal :=
  .next (let c := obs.coach
    let s := syncSettle c s
    match allCtx.find? (fun o => (cx o s).switchTo.isSome && bit (cx o s).moving c.val) with
    | none => s
    | some o =>
      match switchMate o s, standsAt c o (coachIndex (partMask o s) c) s with
      | some m, some p =>
        if 3 ≤ coachState c s || !coachQuiet c s then s else
        let s := coachEcc c obs.ecc (eccPut c obs.ecc s)
        if 3 ≤ coachState c s then s else
        let i := coachIndex (partMask o s) c
        let s := if coachCtxId c s != cid o then s else
          let v := saveOf c o p s
          let b := freeBytes 4096 s
          let at_ := match v.run with | some r => (r.stage, r.row, r.col) | none => (p.1, if h : i < 16 then ((cx o s).prog[i]).prevRow else 0, 0)
          let live := liveBytes v.live (co c s)
          let s := modCx o (fun x => { x with saves := (i, v) :: x.saves.filter (·.1 != i) }) b.2
          swBegin c (wbResPt (cx o s).image + wbResPt (cx m s).image) [swXfer true o at_ 512 (live.length / 64) live s, swXfer true o at_ 513 64 b.1 s]
            (modCo c (fun x => { x with run := none }) s)
        raise (48 + c.val) (wrs [(CA_STATUS.STATE c.val, 3), (ownF c, 0), (GL_CTX_STATUS.RESIDENT (cid o), 0)] s)
      | _, _ => s)

/-- Every transfer of a coach's switch is over: its last beat is accepted, or has arrived (R249). -/
def swOver (c : Coach) (s : State) : Bool := (co c s).xfers.all (fun x => x.arrived == x.total)

/-- SWITCH_SAVE_DONE (R249 step 4): every coach of the set has had its last save beat accepted, and is scrubbed; the incoming context is to be restored. -/
def execSwitchSaveDone (o : Ctx) (s : State) : Host.Outcome State Fault Refusal :=
  .next (match switchMate o s with
    | none => s
    | some m =>
      let cs := coachesOf (partMask o s)
      if cs.isEmpty || (cx o s).switchP.isNone || !cs.all (fun c => coachState c s == 3 && swOver c s) then s else
      let p := (cx o s).switchP
      let s := modCx o (fun x => { x with switchTo := none, switchE := none, moving := 0 }) s
      let s := modCx m (fun x => { x with moving := partMask m s, switchP := p }) s
      each cs (fun c t => modCo c (fun x => { x with scrubOld := cid o }) (scrubStart c (raise (48 + c.val) t))) s)

/-- The context that is to be restored on a coach (R249 step 5). -/
def incoming (c : Coach) (s : State) : Option Ctx := allCtx.find? (fun m => bit (cx m s).moving c.val && (cx m s).switchTo.isNone && ctxLive m s)

/-- A coach comes out of its scrub: it is restored in a switch, or goes to whoever holds it (R249 step 5, R256 step 6, R262). -/
def scrubLeave (c : Coach) (s : State) : State :=
  let old := (ctxOf (co c s).scrubOld).elim 0 (fun o => if ctxLive o s then wbResPt (cx o s).image else 0)
  let s := modCo c (fun x => { x with scrubAt := none, scrubOld := 0, scrubNext := 0 }) s
  match incoming c s with
  | some m => restoreBegin c m (old + wbResPt (cx m s).image) s
  | none => coachFree c s

/-- The bookkeeping of a passed scrub (R256, R263, R495): the teardowns and the replay that waited for it. -/
def scrubPassed (c : Coach) (s : State) : State :=
  let b := 2 ^ c.val
  let s := scrubLeave c s
  let eps := (List.finRange 16).filter (fun u => u.val == c.val && rdB (GL_FLT_STATE.RECOVERING u.val) s &&
    (s.flt.level[u.val]'(by omega) == 3 || s.flt.code[u.val]'(by omega) == 0x12))
  let s := if s.flt.replay.isNone then each eps (fun u => episodeEnd u.val) s else s
  let s := each allCtx (fun n t =>
    if cxState n t == 6 && bit (cx n t).scrubCoaches c.val then tearScrubbed n (modCx n (fun x => { x with scrubCoaches := x.scrubCoaches - b }) t) else t) s
  match s.flt.replay with
  | none => s
  | some r =>
    if !bit r.scrubs c.val then s else
    let left := r.scrubs - b
    let s := { s with flt := { s.flt with replay := some { r with scrubs := left } } }
    if left != 0 then s else
    let us := (List.finRange 16).filter (fun u => bit r.coaches u.val && rdB (GL_FLT_STATE.RECOVERING u.val) s && s.flt.level[u.val]'(by omega) == 2)
    replayNext (each us (fun u => episodeEnd u.val) s)

/-- What a scrub held back goes on its way when its contexts are no longer held (R264): transfers and frames, strips, rows, summaries. -/
def scrubRelease (s : State) : State :=
  let go := s.mp.held.filter (fun x => !scrubHeld x.1 s)
  let fs := s.tl.heldOut.filter (fun f => !scrubHeld f.ctx s)
  let s := { s with mp := { s.mp with held := s.mp.held.filter (fun x => scrubHeld x.1 s) }, tl := { s.tl with heldOut := s.tl.heldOut.filter (fun f => scrubHeld f.ctx s) } }
  let s := each go (fun x => emit x.2) s
  let s := each fs (fun f => originate f.ports f.type f.dst f.bcast f.ctx f.arg f.payload) s
  each allCtx (fun n t => each ((cx n t).summaries.map (·.sheet)) (summaryTry n) (postRows n t)) s

/-- SCRUB_END (R262, R263): 8,448 ARITH_CLK cycles are 5,632 of FAB_CLK, and `pass` is the outcome of the read-back. -/
def execScrubEnd (c : Coach) (pass : Bool) (s : State) : Host.Outcome State Fault Refusal :=
  .next (match (co c s).scrubAt with
    | none => s
    | some t =>
      if s.now < t + 5632 then s else
      let s := inc GL_SCRUB.COUNT s
      if pass then raise (48 + c.val) (scrubRelease (scrubPassed c s))
      else
        let s := scrubRelease (modCo c (fun x => { x with scrubAt := none, scrubOld := 0, scrubNext := 0 }) (inc GL_SCRUB.FAIL s))
        raiseFault c.val ⟨0x12, 2, 0, c.val, 0xFF, 0⟩ s)

/-- The weights of the pass that an entry is to run next, loaded anew: those that a coach held before its scrub are gone (R91, R247, log 35). -/
def tapReload (img : List Byte) (r : RunSt) (x : CoachSt) : CoachSt :=
  if stKind img r.stage != 0 || nRuns img r.stage ≤ r.runIdx then x else
  let d := runDesc img r.stage r.runIdx
  let l := (modeShape d.mode).2.2.2
  loadTap (setBits 4 d.carriages) r.reg (passEnt img d ((r.step - runLead img r) / max 1 (max (d.rw * d.rh) l))).waddr 0 l x

/-- A coach takes back the control state of a context (R249 step 6); its live state, the post tables among it, is already in place. -/
def restoreCoach (c : Coach) (m : Ctx) (v : SaveSt) (tables : List Byte) (s : State) : State :=
  let t := arithNow s
  let s := modCo c (fun x => { x with
    tables := tables, xfers := v.xfers.map (fun f => { f with issueAt := t - f.issueAt }), gigEnds := v.gigEnds, begun := v.begun, lastRes := v.lastRes
    waited := v.waited, winRes := v.lastRes, winLeft := v.lastRes, run := v.run.map (fun r => { r with beginAt := t - r.beginAt - r.waits }) }) s
  let s := match v.run with | some r => modCo c (tapReload (cx m s).image r) s | none => s
  modCx m (fun x => { x with saves := x.saves.filter (·.1 != coachIndex (partMask m s) c) }) s

/-- SWITCH_RESTORE_DONE (R249 step 6): the coach's last restore beat is in and it resumes the incoming context; with the last coach its slice begins. -/
def execSwitchRestoreDone (c : Coach) (s : State) : Host.Outcome State Fault Refusal :=
  .next (match incoming c s with
    | none => s
    | some m =>
      if coachState c s != 3 || scrubHeld (cid m) s || !swOver c s then s else
      let tables := (co c s).tables
      let s := modCo c (fun x => { x with xfers := [], swRes := 0 }) (coachTake c m s)
      let s := match saveFind m c s with | some v => restoreCoach c m v tables s | none => s
      let s := if (co c s).run.isSome then wr (CA_STATUS.STATE c.val) 2 s else s
      let s := modCx m (fun x => { x with moving := x.moving - 2 ^ c.val }) s
      if (cx m s).moving != 0 then s else
      let took := ceilDiv (s.now - (cx m s).switchP.getD s.now) 1200
      let s := wr (GL_CTX_SWITCH.MAX_US (cid m)) (max (rd (GL_CTX_SWITCH.MAX_US (cid m)) s) (min took 0xFFFF)) (inc (GL_CTX_SWITCH.COUNT (cid m)) s)
      sliceBegin m (wr (GL_CTX_STATUS.RESIDENT (cid m)) 1 s))

/-- TIME_SLICE_EXPIRE (R245): a time-bound slice, or the time limit of a sheet-bound one, for which p is taken as it stands when the event is judged:
R51 names no moment (DESIGN CHOICE, log 36). -/
def execTimeSliceExpire (n : Ctx) (s : State) : Host.Outcome State Fault Refusal :=
  .next (let x := cx n s
    let len := if x.sliceUnit == 0 then fabCycles x.sliceCut s else us x.sliceCut
    if x.sliceLen == 0 || !resident n s || x.switchTo.isSome || (liveMembers (partMask n s) s).length < 2 || s.now < x.sliceAt + len then s
    else sliceEnd n (disarmRow 3 n 0 s))

/-- RETIRE_TIMER_EXPIRE (R259): 2 × N × 350 ns after the retire. -/
def execRetireTimerExpire (n : Ctx) (s : State) : Host.Outcome State Fault Refusal :=
  .next (match (cx n s).retireAt with
    | none => s
    | some t => if cxState n s < 5 || s.now < t + 840 * (cx n s).retireN then s else quarantineTry n (wr (GL_CTX_RETIRE.TIMER_DONE (cid n)) 1 s))

/-- RETIRE_RESEND (R259): every 10 ms, up to three times. -/
def execRetireResend (n : Ctx) (s : State) : Host.Outcome State Fault Refusal :=
  .next (if cxState n s < 5 || rd (GL_CTX_RETIRE.PEERS_PENDING (cid n)) s == 0 || 3 ≤ rd (GL_CTX_RETIRE.RESENDS (cid n)) s ||
      s.now < (cx n s).retireSent + ms 10 || !linkOn s then s
    else sendRetire n (inc (GL_CTX_RETIRE.RESENDS (cid n)) s))

/-- A job is over: its context is STOPPED, and its debt and its DELAY of slices are discarded (R238, R251). -/
def jobOver (n : Ctx) (s : State) : State :=
  let s := wrs [(GL_CTX_STATUS.STATE (cid n), 4), (GL_CTX_DEBT.CARRIED (cid n), 0)] s
  showRateMax (modCx n (fun c => { c with job := none }) s)

/-- ABORT_FENCE_DONE (R24, R340): the fence of an aborted job is complete, and the context is STOPPED with its key still loaded. -/
def execAbortFenceDone (n : Ctx) (s : State) : Host.Outcome State Fault Refusal :=
  .next (if cxState n s != 3 || !(cx n s).abortFence || !(txsOf (cid n) s).isEmpty then s else
    let s := ledgerEnd n 1 (wr (MP_FENCE.FENCING (cid n)) 0 s)
    abortAnswer (cid n) (jobOver n (raise 65 (modCx n (fun c => { c with abortFence := false, abortRx := false, fenceAt := none }) s))))

/-- GL_WB_CNT_CLR (R201): of a wait in progress the cycles so far are counted first, and go with the rest. -/
def execGlWbCntClr (mask : BitVec 8) (s : State) : Host.Outcome State Fault Refusal :=
  .next (hostTo 0x240 false (fun s => each (allCtx.filter (fun n => bit mask.toNat n.val)) (fun n => cntClr [GL_WB_LATE_CYC.COUNT (cid n), GL_WB_LATE_BEATS.COUNT (cid n),
    GL_WB_OVERRUN.COUNT (cid n), GL_WB_OVERRUN.LAST_STAGE (cid n), GL_WB_OVERRUN.LAST_COACH (cid n), GL_WB_DELAY.MAX (cid n), GL_WB_FOREIGN.COUNT (cid n),
    GL_WB_DROPS.ROWS (cid n), GL_WB_DROPS.RES_EXCEED (cid n)])
    (each (allCoach.filter (fun c => match (co c s).run with | some r => bit mask.toNat r.ctx.val | none => false)) (fun c t => syncSettle c (queueRoll c t)) s)) s)

end Sys2Proof.Machine
end

