-- ==== Sys2Proof/Machine/Directory.lean ====
section
/-! DEFINITION. The boot flash: directory, slots and image checks (R371, R372, R463, R464, R469). -/

namespace Sys2Proof.Machine

/-- A byte of the flash that nothing has written reads as erased (log 9). -/
def flashErased (_ : Nat) : Byte := 0xFF
/-- Bytes of the flash. -/
def flashRead (o n : Nat) (s : State) : List Byte := SMap.getList flashErased s.flash o n
/-- Write the flash. -/
def flashWrite (o : Nat) (b : List Byte) (s : State) : State := { s with flash := SMap.setList flashErased s.flash o b }

/-- The unique device secret as its region holds it (R446). -/
def udsBytes (s : State) : List Byte := otpBytes 0 s
/-- The directory key of the current boot (R372). -/
def dirKey (s : State) : List Byte := ladderKey (if otpState 0 s == 2 then udsBytes s else testRoot) "K24 directory v1" 48
/-- The directory key of the test root. -/
def dirTestKey : List Byte := ladderKey testRoot "K24 directory v1" 48

/-- The words of a directory copy in the flash (R464). -/
def dirWords (c : Nat) (s : State) : List Nat := (List.range 40).map (wordN (flashRead (0x1000 * c) 160 s))
/-- A copy is authentic under a key. -/
def dirOk (key : List Byte) (c : Nat) (s : State) : Bool :=
  (dirWords c s).headD 0 == 0x31524944 && hmac384 key (flashRead (0x1000 * c) 160 s) == flashRead (0x1000 * c + 160) 48 s
/-- The authentic copy with the higher GEN. -/
def dirBest (key : List Byte) (s : State) : Option Nat :=
  match dirOk key 0 s, dirOk key 1 s with
  | true, true => if (dirWords 0 s).getD 1 0 < (dirWords 1 s).getD 1 0 then some 1 else some 0
  | true, false => some 0
  | false, true => some 1
  | false, false => none

/-- A word of the directory in force. -/
def dirW (i : Nat) (s : State) : Nat := s.sb.dir.getD i 0
/-- Active slot of a unit: 0 A, 1 B. -/
def dirActive (u : Nat) (s : State) : Nat := bits (dirW (4 + 6 * u) s) 0 1
/-- STATE of a unit: 0 CONFIRMED, 1 PENDING, 2 TRIAL. -/
def dirState (u : Nat) (s : State) : Nat := bits (dirW (4 + 6 * u) s) 1 2
/-- The record of the other slot: 0 EMPTY, 1 STAGED, 2 PREVIOUS. -/
def dirInactive (u : Nat) (s : State) : Nat := bits (dirW (4 + 6 * u) s) 3 2
/-- VERSION of the image in a slot. -/
def dirVer (u b : Nat) (s : State) : Nat := dirW (5 + 6 * u + b) s
/-- Flash offset of a slot. -/
def dirBase (u b : Nat) (s : State) : Nat := dirW (7 + 6 * u + b) s
/-- Bytes in each slot. -/
def dirSize (u : Nat) (s : State) : Nat := dirW (9 + 6 * u) s

/-- Change a word of the directory in force; the flash changes with `dirWrite`. -/
def dirSet (i v : Nat) (s : State) : State := { s with sb := { s.sb with dir := s.sb.dir.set i v } }
/-- Set the record of a unit. -/
def dirRecord (u active st inactive : Nat) (s : State) : State := dirSet (4 + 6 * u) (active + 2 * st + 8 * inactive) s
/-- Set VER of a slot. -/
def dirSetVer (u b v : Nat) (s : State) : State := dirSet (5 + 6 * u + b) v s

/-- The update registers show the directory as of its last write (R478, R480). -/
def dirShow (s : State) : State :=
  let s := each (List.range 6) (fun u t => wrs [(SB_UPD_STATE.ACTIVE u, dirActive u t), (SB_UPD_STATE.STATE u, dirState u t),
    (SB_UPD_STATE.INACTIVE u, dirInactive u t), (SB_UPD_VER_A.VERSION u, dirVer u 0 t), (SB_UPD_VER_B.VERSION u, dirVer u 1 t)] t) s
  wr SB_UPD_STATUS.LOCK (dirW 2 s) s

/-- The directory is rewritten in the other copy with GEN + 1 (R464); its HMAC passes through the digest engine (R432). -/
def dirWrite (s : State) : State :=
  let s := dgBorrow (dirSet 1 ((dirW 1 s + 1) % 2 ^ 32) s)
  let b := wordsBytes s.sb.dir
  let c := 1 - s.sb.dirCopy
  dirShow { flashWrite (0x1000 * c) (b ++ hmac384 (dirKey s) b) s with sb := { s.sb with dirCopy := c } }

/-- The words of an image's header (R469). -/
def imgW (base i : Nat) (s : State) : Nat := wordN (flashRead base 128 s) i
/-- IMAGE_LEN. -/
def imgLen (base : Nat) (s : State) : Nat := imgW base 2 s
/-- VERSION. -/
def imgVersion (base : Nat) (s : State) : Nat := imgW base 4 s
/-- SETTINGS_FMT. -/
def imgSettingsFmt (base : Nat) (s : State) : Nat := bits (imgW base 1 s) 16 16
/-- The digest of the signed bytes, which is also the image's measurement (R375, R469). -/
def imgDigest (base : Nat) (s : State) : List Byte := sha384 (flashRead base (imgLen base s - 256) s)

/-- The key hash that an image's SIGNER must have (R463, R469): none where the unit does not allow the signer. -/
def signerHash (u signer keyId : Nat) (s : State) : Option (List Byte) :=
  let test := rd SB_STATUS.LIFECYCLE s == 1
  match signer with
  | 0 => if (u == 0 || u == 2 || u == 3) && test then some (Config.romKeyHash 0) else none
  | 1 => if u == 1 && !s.sb.owner.isEmpty then some s.sb.owner else none
  | 2 => if u == 0 || u == 2 || u == 3 || u == 4 || (u == 1 && s.sb.ownerBlank) then some (Config.romKeyHash 2) else none
  | 3 => if u == 4 then (workKey 2 2 keyId s).map (fun k => keyHash (0x04 :: k)) else none
  | _ => none

/-- The signature or HMAC of an image verifies (R469). -/
def imgSigned (u base : Nat) (s : State) : Bool :=
  let b := flashRead (base + imgLen base s - 256) 256 s
  let signer := bits (wordN b 1) 0 8
  if u == 5 then
    signer == 4 && (match workKey 1 1 (wordN b 0) s with | some k => hmac384 k (imgDigest base s) == slice b 16 48 | none => false)
  else match signerHash u signer (wordN b 0) s with
    | some h => keyHash (slice b 112 97) == h && sigOk (slice b 112 97) (imgDigest base s) (slice b 16 48) (slice b 64 48)
    | none => false

/-- The fields of an image's header agree with R469. -/
def imgHeaderOk (u base : Nat) (s : State) : Bool :=
  imgW base 0 s == 0x31445055 && bits (imgW base 1 s) 0 16 == u + 256 && imgW base 3 s == 0x484D0024 && imgW base 4 s != 0 &&
  imgW base 5 s * 4096 == imgLen base s && 4096 ≤ imgLen base s && imgLen base s ≤ dirSize u s

/-- A slot of a unit passes its checks (R371, R469, R473). -/
def slotOk (u b : Nat) (s : State) : Bool :=
  let base := dirBase u b s
  imgHeaderOk u base s && imgSigned u base s && (u != 5 || imgSettingsFmt base s == s.sb.settingsFmt)

/-- The items of a key bundle (R406): its 160-byte slots after the header, but for those that are blank, all zeros or erased (log 27). -/
def bundleItems (base : Nat) (s : State) : List (List Byte) :=
  let body := (imgLen base s - 384) / 160
  let all := (List.range body).map (fun i => flashRead (base + 128 + 160 * i) 160 s)
  all.filter (fun b => !(b.all (· == 0) || b.all (· == 0xFF)))

/-- The bundle in a slot is accepted: it passes its checks, and not every item of a non-empty bundle fails (R406). -/
def bundleOk (b : Nat) (s : State) : Bool :=
  let items := bundleItems (dirBase 1 b s) s
  slotOk 1 b s && (items.isEmpty || items.any (fun i => (keyItem i s).isSome))

/-- A bundle that passes its checks is refused because every item of it fails; each of them raises KEY_EVENT (R406). -/
def bundleRefused (b : Nat) (s : State) : State := if slotOk 1 b s && !bundleOk b s then raise 94 s else s

/-- Load an item of the bundle: one that fails is skipped and raises KEY_EVENT (R406). One that is skipped, stale or without a slot
leaves the bundle not loaded as a whole (R476). -/
def bundleItem (b : List Byte) (s : State) : State :=
  let n := rd SB_KEY_STATUS.STALE s
  let r := match keyItem b s with
    | some x => let l := loadItem x s; (l.1.isSome && rd SB_KEY_STATUS.STALE l.2 == n, l.2)
    | none => (false, raise 94 s)
  if r.1 then r.2 else { r.2 with sb := { r.2.sb with bundleWhole := false } }

/-- Load the items of a bundle (R406). -/
def bundleLoad (b : Nat) (s : State) : State :=
  each (bundleItems (dirBase 1 b s) s) bundleItem { s with sb := { s.sb with bundleWhole := true } }

end Sys2Proof.Machine
end

