-- ==== Sys2Proof/Machine/Boot.lean ====
section
/-! DEFINITION. The boot from power good or from a block reset to READY (R370 to R373, R377, R378, R396, R397, R403, R406, R452, R500, R555). -/

namespace Sys2Proof.Machine

/-- The lifecycle state as the Strongbox reports it (R377): 0 RAW, 1 TEST, 3 PROVISION, 7 FIELD, 0xF RETURN, 0x1F SCRAP. -/
def lifecycle (s : State) : Nat := rd SB_STATUS.LIFECYCLE s
/-- This boot is unlocked (R382). -/
def unlocked (s : State) : Bool := rdB SB_STATUS.DEBUG_UNLOCKED s
/-- The next step of the boot, and the stage that it shows. -/
def bootNext (step stage : Nat) (s : State) : State := wr SB_STATUS.STAGE stage { s with pw := { s.pw with bootStep := step } }
/-- The boot stops here. -/
def bootStop (s : State) : State := { s with pw := { s.pw with bootStep := 0 } }
/-- A halted boot asserts ALARM_N (R373). -/
def bootHalt (cause : Nat) (s : State) : State := bootStop { wr SB_STATUS.HALT cause s with pins := { s.pins with alarmN := false } }
/-- The Strongbox powers PD_TT and PD_CM with rein POWER in its hand (R556). -/
def powerHostSide (s : State) : State := (pwrRequest .strongbox 20 true (pwrRequest .strongbox 17 true s).2).2

/-- Both monitored clocks are in tolerance: without that, step 9 of the boot waits before it powers the domains (R517). -/
def clocksOk (s : State) : Bool := rdB PM_CLK_STATUS.ARITH_OK s && rdB PM_CLK_STATUS.FAB_OK s

/-- The first slot that passes, beginning with the active one (R371). -/
def pickSlot (u : Nat) (ok : Nat → Bool) (s : State) : Option Nat :=
  let a := dirActive u s
  if ok a then some a else if ok (1 - a) then some (1 - a) else none

/-- Units 0 and 5 were activated together and are both in TRIAL (R473): a unit that is in TRIAL at a reset falls back, so that they come to
it in one boot by no other way. -/
def joint (s : State) : Bool := dirState 0 s == 2 && dirState 5 s == 2

/-- A unit in TRIAL falls back to its other slot (R371). -/
def fallBack (u : Nat) (s : State) : State :=
  wr SB_BOOT.FALLBACK (rd SB_BOOT.FALLBACK s ||| 2 ^ u) (dirRecord u (1 - dirActive u s) 0 (dirInactive u s) s)

/-- A unit starts from a slot: SB_BOOT records it; from the slot that the directory does not name, the directory is rewritten before
the next step (R371), and with unit 0 falls back the unit 5 that was activated with it (R473). A unit in TRIAL starts its health time
(R476). -/
def startUnit (u b : Nat) (s : State) : State :=
  let s := if b == 1 then wr SB_BOOT.SLOT (rd SB_BOOT.SLOT s ||| 2 ^ u) s else s
  let v := imgVersion (dirBase u b s) s
  let s := if b == dirActive u s then s
    else
      let s := if u == 0 && joint s then fallBack 5 s else s
      wr SB_BOOT.FALLBACK (rd SB_BOOT.FALLBACK s ||| 2 ^ u) (dirWrite (dirSetVer u (1 - b) 0 (dirSetVer u b v (dirRecord u b 0 0 s))))
  { s with sb := { s.sb with
    version := if h : u < 6 then s.sb.version.set u v else s.sb.version
    trialAt := if h : u < 6 then (if dirState u s == 2 then s.sb.trialAt.set u (some s.now) else s.sb.trialAt) else s.sb.trialAt } }

/-- The digest of the image in a slot of a unit. -/
def slotDigest (u b : Nat) (s : State) : List Byte := imgDigest (dirBase u b s) s

/-- Step 3: the OTP is sensed, the lifecycle latch and the unlock latch decide (R370, R377, R378, R382, R452). A value that is none of the six is
treated as SCRAP (R373). -/
def bootOtp (s : State) : State :=
  let s := otpSense s
  let lc := rd OTP_LC.RESOLVED s
  let open_ := s.pw.unlock && (lc == 7 || lc == 0xF)
  let st (first : Nat) : Nat := match otpActive first s with | some k => otpState (first + k) s | none => 0
  let s := wrs [(GL_STATUS.LIFECYCLE, lc), (SB_STATUS.LIFECYCLE, lc), (GL_STATUS.DEBUG_UNLOCKED, b2n open_), (SB_STATUS.DEBUG_UNLOCKED, b2n open_),
    (SB_KEY_STATUS.UDS_SET, b2n (otpState 0 s == 2)), (SB_KEY_STATUS.MRK_FUSED, b2n (st 2 == 2)), (SB_KEY_STATUS.LK_FUSED, b2n (st 6 == 2)),
    (SB_KEY_STATUS.OWNER_SET, b2n (st 10 == 2))] s
  let owner := match otpActive 10 s with | some k => if st 10 == 2 then otpBytes (10 + k) s else [] | none => []
  let s := { s with sb := { s.sb with owner := owner, ownerBlank := (otpActive 10 s).isNone } }
  let s := if 3 ≤ st 10 then raise 90 s else s
  if lc == 0x1F || !lcValid lc then bootStop (bootNext 0 15 (pwrRequest .strongbox 17 true s).2)
  else if lc == 0 then { powerHostSide s with pw := { (powerHostSide s).pw with bootStep := 9 } }
  else bootNext 4 2 s

/-- Step 4: the boot identifier and the epoch counters are drawn (R240, R414); `ok` says that the start-up tests passed. -/
def bootTrng (ok : Bool) (s : State) : State :=
  if !ok then bootHalt 1 s else
  let f := freeBytes 16 s
  let s := { f.2 with sb := { f.2.sb with bootId := f.1 } }
  let s := each allCtx (fun n t => let e := free t; wr (GL_CTX_EPOCH.EPOCH (cid n)) (e.1 / 2 ^ 16 * 2 ^ 16) e.2) s
  bootNext 5 3 s

/-- The directory of a block whose copies both fail (R371). -/
def dirRebuilt (s : State) : State :=
  let c := if (dirWords 0 s).getD 1 0 < (dirWords 1 s).getD 1 0 then 1 else 0
  let s := wr SB_BOOT.DIR_BAD 1 { s with sb := { s.sb with dir := dirWords c s, dirCopy := c } }
  let s := dirSet 0 0x31524944 s
  dirWrite (each (List.range 6) (fun u t => dirSetVer u 1 0 (dirSetVer u 0 (imgVersion (dirBase u 0 t) t) (dirRecord u 0 0 0 t))) s)

/-- The slot choice of one unit (R371). -/
def dirChoose (u : Nat) (s : State) : State :=
  if dirState u s == 2 then fallBack u s
  else if dirState u s == 1 then dirRecord u (dirActive u s) 2 (dirInactive u s) s else s

/-- The copy of the directory that is accepted (R371, R372): in PROVISION also one that verifies under the test root alone, in FIELD and
RETURN none that does. -/
def dirAccepted (s : State) : Option Nat :=
  if (lifecycle s == 7 || lifecycle s == 0xF) && otpState 0 s != 2 then none
  else match dirBest (dirKey s) s with
  | some c => some c
  | none => if lifecycle s == 3 then dirBest dirTestKey s else none

/-- Step 5: the directory (R371, R372). -/
def bootDirectory (s : State) : State :=
  let c := dirAccepted s
  bootNext 6 4 (match c with
    | none => dirRebuilt s
    | some c =>
      let s := { s with sb := { s.sb with dir := dirWords c s, dirCopy := c } }
      let t := each (List.range 6) dirChoose s
      if decide (t.sb.dir = s.sb.dir) then dirShow t else dirWrite t)

/-- Step 6: the Strongbox firmware, or recovery (R370, R373, R375). -/
def bootFirmware (s : State) : State :=
  match pickSlot 0 (fun b => slotOk 0 b s) s with
  | none =>
    let s := powerHostSide { wr SB_STATUS.HALT 2 s with pins := { s.pins with alarmN := false } }
    bootNext 9 14 s
  | some b =>
    let s := extendMR 0 1 0 (slotDigest 0 b s) (startUnit 0 b s)
    bootNext 7 5 { unmask 1 true s with sb := { s.sb with settingsFmt := imgSettingsFmt (dirBase 0 b s) s, runs := true, rests := false } }

/-- The unique device secret at step 7 (R397, R452): kept, generated in PROVISION, or refused; the Bool answers whether the boot goes on. A
directory that was accepted under the test root alone is rewritten (R372). -/
def bootUds (ok : Bool) (s : State) : Bool × State :=
  let lc := lifecycle s
  let st := otpState 0 s
  if lc == 3 && st == 2 && !dirOk (dirKey s) s.sb.dirCopy s then (true, dirWrite s)
  else if lc == 1 || st == 2 then (true, s)
  else if 3 ≤ st then (false, raise 90 s)
  else if lc == 3 && st == 0 then
    let f := freeBytes 32 s
    let p := otpProgram 0 f.1 ok f.2
    if p.1 && otpState 0 p.2 == 2 then (true, dirWrite p.2) else (false, p.2)
  else (false, s)

/-- The roots of this boot (R396, R452). -/
def bootRoots (s : State) : State :=
  let lc := lifecycle s
  let fused := (lc == 3 || lc == 7) && !unlocked s
  let root := if lc == 1 || unlocked s then testRoot else udsBytes s
  let region (first : Nat) : Nat × List Byte := match otpActive first s with | some k => (otpState (first + k) s, otpBytes (first + k) s) | none => (0, [])
  let m := region 2
  let l := region 6
  let mem := if fused && m.1 == 2 then m.2 else ladderKey root "K24 memory root v1" 32
  let link := if fused then (if l.1 == 2 then l.2 else []) else if lc == 1 || lc == 7 then ladderKey root "K24 link root v1" 32 else []
  let s := if fused && 3 ≤ m.1 then raise 90 (wr SB_KEY_STATUS.MRK_SUBST 1 s) else s
  let s := if fused && 3 ≤ l.1 then raise 90 s else s
  wr SB_KEY_STATUS.TEST_ROOT (b2n (lc == 1 || unlocked s)) { s with sb := { s.sb with root := root, memRoot := mem, linkKey := link } }

/-- The identity, statement and transport keys and the endorsement (R400, R403). -/
def bootIdentity (s : State) : State :=
  let d := ecScalar (ladderKey s.sb.root "K24 identity v1" 56)
  let a := statementScalar s
  let v := s.sb.version[0]
  let g := signWith d (sha384 (ecEncode (ecPublic a) ++ mrBytes 0 s ++ leBytes 4 v)) s
  { g.2 with sb := { g.2.sb with
    identity := ecEncode (ecPublic d), signKey := a, endorse := g.1, transport := ecScalar (ladderKey s.sb.root "K24 transport v1" 56) } }

/-- Step 7: the key ladder and the key bundle (R370, R373, R406). -/
def bootKeys (ok : Bool) (s : State) : State :=
  let u := bootUds ok s
  if !u.1 then bootHalt 3 u.2 else
  let s := bootIdentity (bootRoots u.2)
  let a := dirActive 1 s
  match pickSlot 1 (fun b => bundleOk b s) s with
  | none => bootHalt 3 (bundleRefused (1 - a) (bundleRefused a s))
  | some b => bootNext 8 6 (bundleLoad b (startUnit 1 b (if b == a then s else bundleRefused a s)))

/-- Step 8: the settings store (R370, R373, R473). What it holds is a free value, the bound one from 800 to
2,000 ns (R229, log 27). -/
def bootSettings (s : State) : State :=
  let s := match pickSlot 5 (fun b => slotOk 5 b s) s with
    | none => wrs [(SB_BOOT.SETTINGS_DEFAULT, 1), (MP_LAT_BOUND.BOUND_NS, 1200)] s
    | some b =>
      let s := extendMR 7 6 0 (slotDigest 5 b s) (startUnit 5 b s)
      let l := free s
      let j := free l.2
      wr MP_LAT_BOUND.BOUND_NS (800 + l.1 % 1201) { j.2 with sb := { j.2.sb with autoJoin := j.1 % 2 == 1 } }
  bootNext 9 6 (if clocksOk s then powerHostSide s else s)

/-- Step 9: the Strongbox serves its channels (R370); in RAW and in recovery the ROM does, and the boot stops (R373, R378). -/
def bootServe (s : State) : State :=
  let s := setPeer .strongbox 0 s
  if lifecycle s == 0 || rd SB_STATUS.STAGE s == 14 then bootStop s else bootNext 10 7 (unmask 1 false (wr GL_STATUS.SB_READY 1 s))

/-- Step 10: the Coachman firmware (R370, R373, R375). -/
def bootCoachman (s : State) : State :=
  match pickSlot 2 (fun b => slotOk 2 b s) s with
  | none => bootHalt 4 s
  | some b => bootNext 11 8 (extendMR 1 1 0 (slotDigest 2 b s) (startUnit 2 b s))

/-- Step 11: the Gig microcode and the waybill library (R370, R373, R375). -/
def bootGig (s : State) : State :=
  let s := match pickSlot 3 (fun b => slotOk 3 b s) s with
    | none => wr SB_BOOT.GIG_UNAVAIL 1 s
    | some b => extendMR 2 1 0 (slotDigest 3 b s) (startUnit 3 b s)
  let s := match pickSlot 4 (fun b => slotOk 4 b s) s with
    | none => wr SB_BOOT.LIB_UNAVAIL 1 s
    | some b => startUnit 4 b s
  bootNext 12 9 s

/-- The Coachman is released (R20, R389, R556): rein CM_RUN is freed and POWER passes to the Coachman. -/
def releaseCoachman (s : State) : State :=
  setPeer .coachman 0 <| unmask 0 false (wrs [(SB_REINS.HOLDERS 0, 0), (SB_REINS.HOLDERS 2, 1), (GL_STATUS.CM_RELEASED, 1), (SB_HB.MISSES, 0)] s)

/-- Step 16: READY (R370, R474, R499, R500). -/
def bootReady (s : State) : State :=
  let s := wrs [(GL_STATUS.CMD_READY, 1), (PM_SLEEP.STATE, 0)] (bootNext 0 10 { s with pins := { s.pins with alarmN := true } })
  let s := if !rdB PM_FLT_LAST.NEW s then s else
    let f : FaultRec := ⟨rd PM_FLT_LAST.CODE s, rd PM_FLT_LAST.LEVEL s, rd PM_FLT_LAST.CTX s, 0, 0, 0⟩
    let s := wr PM_FLT_LAST.NEW 0 (faultNotice f s)
    if rdB PM_DUMP_INFO.VALID s && s.flt.dumpNew then
      let s := notice 0x0C 0 0 [rd PM_DUMP_LEN.BYTES s, rd PM_DUMP_INFO.SEQ s, s.flt.dumpCode] s
      { s with flt := { s.flt with dumpNew := false } }
    else s
  each ([0, 1, 5].filter (fun u => if h : u < 6 then s.sb.trialAt[u].isSome else false)) (fun u t => sbNotice 0x0E [u, if h : u < 6 then t.sb.version[u] else 0] t) s

/-- A step of the boot completes (R370). A step that needs a domain completes only when that domain is on. A ladder output that fails its
check is the fault KEY_FAULT (R25, R482). -/
def bootStep (obs : BootObs) (s : State) : State :=
  match s.pw.bootStep with
  | 1 => bootBegin s
  | 2 => if domOn 21 s then bootNext 3 1 (wrs [(SB_REINS.HOLDERS 0, 2), (SB_REINS.HOLDERS 1, 2), (SB_REINS.HOLDERS 2, 2), (SB_REINS.HOLDERS 7, 2)] s) else s
  | 3 => bootOtp s
  | 4 => bootTrng obs.ok s
  | 5 => bootDirectory s
  | 6 => bootFirmware s
  | 7 => if obs.keyOk then bootKeys obs.ok s else securityFault 0x42 s
  | 8 => bootSettings s
  | 9 => if domOn 17 s && domOn 20 s then bootServe s else if clocksOk s && rd (PM_PWR_REQ.REQ 20) s == 0 then powerHostSide s else s
  | 10 => bootCoachman s
  | 11 => bootGig s
  | 12 =>
    let s := releaseCoachman s
    bootNext 13 9 (pwrRequest .coachman 18 true s).2
  | 13 => if domOn 18 s then bootNext 14 9 (wr MP_STATUS.KEYS_READY 1 s) else s
  | 14 =>
    let s := wr MP_STATUS.PORT_UP obs.ports.toNat s
    if tandemOn s then bootNext 15 9 (pwrRequest .coachman 19 true s).2 else bootNext 16 9 s
  | 15 => if domOn 19 s then bootNext 16 9 (holdSettle (if s.sb.autoJoin then wr TL_CFG.JOINED 1 s else s)) else s
  | 16 => bootReady s
  | _ => s

/-- BOOT_STEP_DONE (R370). -/
def execBootStepDone (obs : BootObs) (s : State) : Host.Outcome State Fault Refusal := .next (bootStep obs s)

end Sys2Proof.Machine
end

