-- ==== Sys2Proof/Machine/Link.lean ====
section
/-! DEFINITION. The Tandem link at work: training, discovery, line sync, halo strips, summaries, aborts, retirement, counters
(R272 to R296, R302, R402). -/

namespace Sys2Proof.Machine

/-- LEN suits the type (R276, R277). -/
def frLenOk (f : LinkFrame) : Bool :=
  let n := frLen f
  n == f.payload.length && f.header.length == 32 && f.tag.length == (if frType f == 0 then 0 else 16) &&
  (match frType f with
  | 0x00 => n == 0
  | 0x01 => n == 32
  | 0x02 => 24 ≤ n && n ≤ 528 && n % 8 == 0
  | 0x03 => 24 ≤ n && n ≤ 528 && n % 8 == 0
  | 0x08 => 16 ≤ n && n ≤ 64 && n % 16 == 0
  | 0x10 => n == 13824
  | 0x11 => 32 ≤ n && n ≤ 4096 && n % 16 == 0
  | 0x20 => n == 32
  | 0x21 => n == 16
  | 0x22 => n == 16
  | _ => false)

/-- The CRC is right (R275). -/
def frCrcOk (f : LinkFrame) : Bool := f.crc == (crc32 (f.header ++ f.payload ++ f.tag)).toNat

/-- The frame is for this block. -/
def frForMe (f : LinkFrame) (s : State) : Bool := frBcast f || frDst f == linkPos s

/-- The CRC of a frame, inverted: an earlier block found the error (R277). -/
def frInverted (f : LinkFrame) : Nat := 2 ^ 32 - 1 - (crc32 (f.header ++ f.payload ++ f.tag)).toNat

/-- A frame is dropped for its format or its CRC (R277): a copy that was forwarded meanwhile leaves with its CRC inverted, and the block that finds it so does
not count it again. -/
def frameDrop (p : LinkPort) (f : LinkFrame) (kind : FrameFault) (s : State) : State :=
  let q := otherPort p
  let through := (frBcast f || frDst f != linkPos s) && portState q s == 2 && 0x08 ≤ frType f
  let s := if through && decide (kind = .crc) then portSend q { f with crc := frInverted f } s else s
  if decide (kind = .crc) && f.crc == frInverted f then s
  else raise 87 (inc (match kind with | .crc => TL_P_ERR.CRC p.val | _ => TL_P_ERR.LEN p.val) s)

/-- A frame of one of the given types arrives on a port that carries frames: UP, or for a HELLO in TRAINING. -/
def linkRx (p : LinkPort) (types : List Nat) (f : LinkFrame) (k : State → State) (s : State) : State :=
  if !linkOn s || !types.contains (frType f) || portState p s != (if frType f == 0x01 then 1 else 2) then s
  else if !frLenOk f then frameDrop p f .length s
  else if !frCrcOk f then frameDrop p f .crc s
  else k s

/-- FRAME_ERR (R277). -/
def execFrameErr (p : LinkPort) (f : LinkFrame) (kind : FrameFault) (s : State) : Host.Outcome State Fault Refusal :=
  .next (if !linkOn s || portState p s == 0 || portState p s == 3 then s else frameDrop p f kind s)

/-- The notice CHAIN_CHANGED with its cause, which TL_STATUS keeps (R298, R344). -/
def chainChanged (cause : Nat) (s : State) : State :=
  let s := wr TL_STATUS.CAUSE cause s
  notice 0x0A 0 0 [cause + rd TL_STATUS.CHAIN s * 2 ^ 4 + rd TL_STATUS.RING s * 2 ^ 6 + rd TL_STATUS.N_BLOCKS s * 2 ^ 8] s

/-- Abort every running Tandem job of the block (R24, R291). -/
def abortTandem (cause : Nat) (s : State) : State :=
  let ns := tandemJobs s
  if ns.isEmpty then s else each ns fenceJob (originateAbort cause 0 s)

/-- The block enters STANDBY (R283, R284). -/
def standby (cause : Nat) (s : State) : State := abortTandem 5 (chainChanged cause (raise 83 (wr TL_STATUS.CHAIN 3 s)))

/-- A discovery is under way; STANDBY is left only at its end (R284, R298). -/
def discovering (s : State) : State := if rd TL_STATUS.CHAIN s == 3 then s else wr TL_STATUS.CHAIN 1 s

/-- A port's state changes. -/
def setPort (p : LinkPort) (st : Nat) (s : State) : State := raise 81 (wr (portF p) st s)

/-- The entry of this block in a chain table (R282). -/
def ownEntry (s : State) : List Byte := leBytes 4 (linkPos s) ++ slice (idHash s) 0 4

/-- Send a frame under the link key, as a broadcast with a fresh IV (R279): DISCOVER or CHAIN_TABLE, of origin `src`. -/
def sendChain (p : LinkPort) (type src arg : Nat) (payload : List Byte) (s : State) : State :=
  if portState p s != 2 then s else
  let v := freeBytes 12 s
  portSend p (sealFrame (helloKey v.2) (frameHeader type src 0 true (portDir p) 0 payload.length arg v.1) v.1 payload) v.2

/-- The head originates DISCOVER on its downstream port (R282). -/
def discover (s : State) : State :=
  if !linkOn s || linkPos s != 0 || portState 1 s != 2 then s else
  let v := freeBytes 16 s
  discovering (sendChain 1 0x02 0 1 (v.1 ++ ownEntry v.2) { v.2 with tl := { v.2.tl with nonce := v.1 } })

/-- A port has come UP or has left UP (R282, R283): the head discovers anew, another block asks for it on its other port. -/
def portTurned (p : LinkPort) (s : State) : State :=
  let s := discovering (modPort p (fun x => { x with changedAt := some s.now }) s)
  if linkPos s == 0 then (if p.val == 1 then discover s else s)
  else if portState (otherPort p) s == 2 then sendControl [otherPort p] 1 0 false 0 (List.replicate 16 0) s
  else s

/-- A port enters TRAINING (R272, R303). -/
def trainStart (p : LinkPort) (cause : Nat) (s : State) : State :=
  let up := portState p s == 2
  let s := wr (TL_P_TRAIN.LAST_CAUSE p.val) cause (inc (TL_P_TRAIN.COUNT p.val) (setPort p 1 s))
  let s := modPort p (fun x => { x with trainAt := some s.now, downAt := none, locked := false, peerOk := false }) s
  if up then portTurned p (abortTandem 2 s) else s

/-- LINK_CHANNEL_CHANGE (R272, R296). -/
def execLinkChannelChange (p : LinkPort) (s : State) : Host.Outcome State Fault Refusal :=
  .next (if linkOn s then trainStart p 6 s else s)

/-- The HELLO of a port: position, hardware type and role in its first words (R272, log 23); it is a bulk frame, and none leaves while the block is fenced
(R276, R488). -/
def sendHello (p : LinkPort) (s : State) : State :=
  if rdB GL_STATUS.FENCED s then s else
  let v := freeBytes 12 s
  let pay := wordsBytes [linkPos s, 0x484D0024, p.val, 0, 0, 0, 0, 0]
  let s := emit (.link p.val (sealFrame (helloKey s) (frameHeader 0x01 (linkPos s) 0 false (portDir p) 0 32 0 v.1) v.1 pay)) v.2
  modPort p (fun x => { x with helloAt := s.now }) s

/-- LINK_BLOCK_LOCK (R272 steps 2 and 3). -/
def execLinkBlockLock (p : LinkPort) (s : State) : Host.Outcome State Fault Refusal :=
  .next (if !linkOn s || portState p s != 1 || (lport p s).locked then s else sendHello p (modPort p (fun x => { x with locked := true }) s))

/-- HELLO_REPEAT (R272). -/
def execHelloRepeat (p : LinkPort) (s : State) : Host.Outcome State Fault Refusal :=
  .next (let x := lport p s
    if !linkOn s || portState p s != 1 || !x.locked || x.peerOk || s.now < x.helloAt + us 50 then s else sendHello p s)

/-- A port comes UP (R272 step 4, R274, R278, R293): held aborts leave first, then the queued urgent frames, then the others in their order. -/
def portUp (p : LinkPort) (s : State) : State :=
  let s := setPort p 2 s
  let x := lport p s
  let s := modPort p (fun y => { y with held := [], queue := [], trainAt := none, idles := false }) s
  let s := each x.held (fun f t => inc TL_ABORT.HELD (portSend p f t)) s
  portTurned p (each (x.queue.filter (fun f => 0x20 ≤ frType f) ++ x.queue.filter (fun f => frType f < 0x20)) (portSend p) s)

/-- A HELLO that is refused: 6 KEY, 7 ROLE as causes of CHAIN_CHANGED, 4 and 5 as causes of training (R273). -/
def portReject (p : LinkPort) (cause : Nat) (s : State) : State :=
  chainChanged cause (wr (TL_P_TRAIN.LAST_CAUSE p.val) (cause - 2) (setPort p 3 (modPort p (fun x => { x with trainAt := none }) s)))

/-- HELLO_RX (R272, R273). -/
def execHelloRx (p : LinkPort) (f : LinkFrame) (s : State) : Host.Outcome State Fault Refusal :=
  .next (linkRx p [0x01] f (fun s =>
    if !(lport p s).locked then s else
    match frPlain f (helloKey s) with
    | none => portReject p 6 (inc (TL_P_ERR.AUTH p.val) s)
    | some m =>
      if wordN m 2 == p.val then portReject p 7 s
      else portUp p (modPort p (fun x => { x with peerOk := true, peerPos := bits (wordN m 0) 0 6 }) s)) s)

/-- LINK_TRAIN_TIMEOUT (R273, R293). -/
def execLinkTrainTimeout (p : LinkPort) (s : State) : Host.Outcome State Fault Refusal :=
  .next (match (lport p s).trainAt with
    | none => s
    | some t =>
      if !linkOn s || portState p s != 1 || s.now < t + ms 2 then s
      else wr (TL_P_TRAIN.LAST_CAUSE p.val) 3 (setPort p 0 (modPort p (fun x => { x with trainAt := none, downAt := some s.now, held := [] }) s)))

/-- LINK_RETRAIN_DELAY (R273). -/
def execLinkRetrainDelay (p : LinkPort) (s : State) : Host.Outcome State Fault Refusal :=
  .next (match (lport p s).downAt with
    | none => s
    | some t => if !linkOn s || portState p s != 0 || s.now < t + ms 10 then s else trainStart p 3 s)

/-- LINK_LOCK_LOST (R274, R291). -/
def execLinkLockLost (p : LinkPort) (cause : LockLoss) (s : State) : Host.Outcome State Fault Refusal :=
  .next (if !linkOn s || portState p s != 2 then s else trainStart p (match cause with | .lock => 1 | .headers => 2) s)

/-- The entries of a table's payload: position and identity. -/
def tableEntries (m : List Byte) : List (Nat × Nat) :=
  (List.range ((m.length - 16) / 8)).map (fun k => (bits (wordN m (4 + 2 * k)) 0 6, wordN m (5 + 2 * k)))

/-- Retires that waited for a discovery are given up (R259). -/
def retireGiveUp (s : State) : State :=
  each (allCtx.filter (fun n => cxState n s == 7 && rd (GL_CTX_RETIRE.RESENDS (cid n)) s == 3)) (fun n t =>
    quarantineTry n (wr (GL_CTX_RETIRE.PEERS_PENDING (cid n)) 0 t)) s

/-- A frame that a scrub holds back on a port, sealed already (R264). -/
def heldOn (p : LinkPort) (x : Nat × Out) : Bool := match x.2 with | .link q _ => q == p.val | _ => false

/-- Frames queued under the previous session key are dropped and counted (R402), those among them that a scrub holds back. -/
def dropQueued (s : State) : State :=
  each [0, 1] (fun p t =>
    let x := lport p t
    let late := (t.mp.held.filter (heldOn p)).length
    modPort p (fun y => { y with held := [], queue := [] }) (add (TL_P_ERR.AUTH p.val) (x.held.length + x.queue.length + late)
      { t with mp := { t.mp with held := t.mp.held.filter (fun h => !heldOn p h) } })) s

/-- A chain table is recorded (R279, R282, R283): `m` is its payload, `cause` the cause of a conflict or 0. -/
def recordTable (m : List Byte) (ring : Bool) (cause : Nat) (s : State) : State :=
  let es := tableEntries m
  let old := s.tl.table
  let self := linkPos s
  let s := each (List.range 64) (fun k t => match es[k]? with
    | some e => wrs [(TL_TABLE.POS k, e.1), (TL_TABLE.VALID k, 1), (TL_TABLE.SELF k, b2n (e.1 == self)), (TL_TABLE_ID.ID k, e.2)] t
    | none => clr [TL_TABLE.POS k, TL_TABLE.VALID k, TL_TABLE.SELF k, TL_TABLE_ID.ID k] t) s
  let s := wrs [(TL_STATUS.RING, b2n ring), (TL_STATUS.N_BLOCKS, es.length)] (dropQueued s)
  let nonce := slice m 0 16
  let s := { s with tl := { s.tl with
    table := es, nonce := nonce, session := sessionKey nonce s, sentBulk := 0, sentUrgent := 0, accepted := [], syncDue := self == 0
    ports := s.tl.ports.map (fun x => { x with changedAt := none }) }, sb := { s.sb with keyCheck := true } }
  if cause != 0 then standby cause s
  else
    let s := raise 82 (wr TL_STATUS.CHAIN 2 s)
    let s := if es == old then s else chainChanged (if es.any (fun e => !old.contains e) then 1 else 2) s
    retireGiveUp s

/-- ARG of DISCOVER and CHAIN_TABLE: the entries, bit 31 the conflict flag, with the cause in [30:28] (R283, log 23). -/
def chainArg (k cause : Nat) : Nat := k + (if cause == 0 then 0 else 2 ^ 31 + cause * 2 ^ 28)
/-- The cause of a flagged frame. -/
def argCause (a : Nat) : Nat := if bit a 31 then bits a 28 3 else 0

/-- A DISCOVER passes this block (R282, R283). -/
def discoverPass (f : LinkFrame) (m : List Byte) (s : State) : State :=
  let es := tableEntries m
  let last := (es.getLast?.map (·.1)).getD 0
  let own : Nat := if linkPos s == 0 then 3 else if linkPos s ≤ last then 5 else 0
  let s := if own == 0 then s else standby own s
  let cause := if argCause (frArg f) == 0 then own else argCause (frArg f)
  let m' := m ++ ownEntry s
  if 64 ≤ es.length then s
  else if portState 1 s == 2 then sendChain 1 0x02 (frSrc f) (chainArg (es.length + 1) cause) m' s
  else
    let s := sendChain 0 0x03 (linkPos s) (chainArg (es.length + 1) cause) m' s
    recordTable m' false cause s

/-- DISCOVER_RX (R282, R283). -/
def execDiscoverRx (p : LinkPort) (f : LinkFrame) (s : State) : Host.Outcome State Fault Refusal :=
  .next (linkRx p [0x02] f (fun s =>
    match frPlain f (helloKey s) with
    | none => inc (TL_P_ERR.AUTH p.val) s
    | some m =>
      if p.val != 0 then s
      else if linkPos s == 0 && slice m 0 16 == s.tl.nonce then
        let cause := argCause (frArg f)
        recordTable m true cause (sendChain 1 0x03 0 (chainArg (tableEntries m).length cause) m s)
      else discoverPass f m (discovering s)) s)

/-- CHAIN_TABLE_RX (R282, R283). -/
def execChainTableRx (p : LinkPort) (f : LinkFrame) (s : State) : Host.Outcome State Fault Refusal :=
  .next (linkRx p [0x03] f (fun s =>
    match frPlain f (helloKey s) with
    | none => inc (TL_P_ERR.AUTH p.val) s
    | some m => if p.val == 0 && linkPos s == 0 then s else recordTable m (p.val == 0) (argCause (frArg f)) (forward p f s)) s)

/-- NO_HEAD (R283). -/
def execNoHead (s : State) : Host.Outcome State Fault Refusal :=
  .next (if !linkOn s || !(List.finRange 2).any (fun p => match (lport p s).changedAt with | some t => decide (t + ms 10 ≤ s.now) | none => false) then s
    else standby 4 { s with tl := { s.tl with ports := s.tl.ports.map (fun x => { x with changedAt := none }) } })

/-- A session frame passes this block (R278, R280, R294): it is forwarded, and its plaintext is given if the block consumes it. -/
def sessionRx (p : LinkPort) (f : LinkFrame) (s : State) : Option (List Byte) × State :=
  let urgent : Bool := 0x20 ≤ frType f
  if frSrc f == linkPos s || (rdB GL_STATUS.FENCED s && !urgent) then (none, s)
  else if !urgent && s.tl.retired.contains (frCtx f) then (none, inc TL_DROPS.RETIRED s)
  else
    let s := if frType f == 0x20 || frBcast f || frDst f != linkPos s then forward p f s else s
    if !frForMe f s then (none, s)
    else match frPlain f s.tl.session with
    | none => (none, inc (TL_P_ERR.AUTH p.val) s)
    | some m =>
      let cls := b2n urgent
      let last := match s.tl.accepted.find? (fun a => a.1 == frSrc f && a.2.1 == cls) with | some a => a.2.2 | none => 0
      if s.tl.session.isEmpty then (none, inc (TL_P_ERR.AUTH p.val) s)
      else if frCnt f ≤ last then (none, if frBcast f && rdB TL_STATUS.RING s then s else inc (TL_P_ERR.REPLAY p.val) s)
      else (some m, { s with tl := { s.tl with accepted := (frSrc f, cls, frCnt f) :: s.tl.accepted.filter (fun a => !(a.1 == frSrc f && a.2.1 == cls)) } })

/-- Receive a session frame and act on its plaintext. -/
def sessionOn (p : LinkPort) (types : List Nat) (f : LinkFrame) (k : List Byte → State → State) (s : State) : State :=
  linkRx p types f (fun s => match sessionRx p f s with | (some m, t) => k m t | (none, t) => t) s

/-- A CONTROL frame of a sub-code. -/
def controlOn (p : LinkPort) (sub : Nat) (f : LinkFrame) (k : List Byte → State → State) (s : State) : State :=
  if frArg f == sub then sessionOn p [0x08] f k s else s

/-- DISCOVER_REQ_RX (R282). -/
def execDiscoverReqRx (p : LinkPort) (f : LinkFrame) (s : State) : Host.Outcome State Fault Refusal :=
  .next (controlOn p 1 f (fun _ => discover) s)

/-- LINE_SYNC_RX (R286). -/
def execLineSyncRx (p : LinkPort) (f : LinkFrame) (s : State) : Host.Outcome State Fault Refusal :=
  .next (controlOn p 2 f (fun m s =>
    let own := rd TT_EPOCH_LINE.LINE s
    if s.tt.opened.isEmpty || own + 16 < ttLine s then wr TL_STATUS.SYNCED 0 s
    else
      let s := wrs [(TL_LINE_OFS.OFS, (leNat (slice m 4 8) + 2 ^ 48 - own) % 2 ^ 48), (TL_EPOCH_OFS.OFS, (wordN m 0 + 2 ^ 32 - rd TT_EPOCH.NUMBER s) % 2 ^ 32)] s
      raise 86 (wr TL_STATUS.SYNCED 1 s)) s)

/-- A context with a running Tandem job, by ID. -/
def tandemCtx (id : Nat) (s : State) : Option Ctx := (tandemJobs s).find? (fun n => cid n == id)

/-- HALO_RX (R219, R288, R289): the strip is written at the rate that the link has. -/
def execHaloRx (p : LinkPort) (f : LinkFrame) (s : State) : Host.Outcome State Fault Refusal :=
  .next (sessionOn p [0x10] f (fun m s =>
    match tandemCtx (frCtx f) s with
    | none => inc TL_DROPS.NO_CTX s
    | some n =>
      let row := bits (frArg f) 0 31
      let side := bits (frArg f) 31 1
      let h := cfgHRows (cx n s).cfg
      let newest := match (cx n s).job with | some j => j.relRow - 1 | none => 0
      if row + (h - 2) < newest then inc TL_DROPS.NO_CTX s
      else ownWrite 2 (cid n) 1 (cfgBase (cx n s).cfg 1 + (row % cfgHRows (cx n s).cfg * 2 + side) * 13824) side row m s) s)

/-- HALO_REQ_TIMER (R288). -/
def execHaloReqTimer (n : Ctx) (row : Nat) (side : LinkPort) (s : State) : Host.Outcome State Fault Refusal :=
  .next (match s.tl.waits.find? (fun w => w.ctx == cid n && w.row == row && w.side == side.val) with
    | none => s
    | some w =>
      if !linkOn s || s.now < w.at_ + us 100 * (w.reqs + 1) then s else
      let rest := s.tl.waits.filter (fun x => !(x.ctx == w.ctx && x.row == w.row && x.side == w.side))
      if w.reqs < 3 then
        let dst := cfgPartner (cx n s).cfg side.val
        sendControl [portTo dst s] 3 dst false (cid n) (wordsBytes [row % 2 ^ 31 + side.val * 2 ^ 31, 0, 0, 0])
          (inc TL_HALO.REQ { s with tl := { s.tl with waits := { w with reqs := w.reqs + 1 } :: rest } })
      else
        let s := raise 85 (inc TL_HALO.LOST { s with tl := { s.tl with waits := rest } })
        raiseFault 18 ⟨0x04, 1, cid n, 0, 0xFF, row⟩ s)

/-- HALO_REQ_RX (R288): the stored strip is sent again. -/
def execHaloReqRx (p : LinkPort) (f : LinkFrame) (s : State) : Host.Outcome State Fault Refusal :=
  .next (controlOn p 3 f (fun m s =>
    let row := bits (wordN m 0) 0 31
    let side := bits (wordN m 0) 31 1
    match s.tl.strips.find? (fun x => x.ctx == frCtx f && x.row % 2 ^ 31 == row && x.side == 1 - side) with
    | none => if (tandemCtx (frCtx f) s).isNone then inc TL_DROPS.NO_CTX s else s
    | some x => if x.lines < 288 then s else originate [portTo (frSrc f) s] 0x10 (frSrc f) false x.ctx (row + side * 2 ^ 31) x.data (inc TL_HALO.RESENT s)) s)

/-- SUMMARY_RX (R38, R290). -/
def execSummaryRx (p : LinkPort) (f : LinkFrame) (s : State) : Host.Outcome State Fault Refusal :=
  .next (sessionOn p [0x11] f (fun m s =>
    match tandemCtx (frCtx f) s with
    | none => inc TL_DROPS.NO_CTX s
    | some n =>
      let w (i : Nat) : Nat := wordN m i
      let x : SummarySt := ⟨w 0, frSrc f, bits (w 1) 0 16, bits (w 1) 16 16, bits (w 2) 0 16, bits (w 2) 16 2, m.drop 32⟩
      summaryTry n x.sheet (modCx n (fun c => { c with summaries := x :: c.summaries.filter (fun y => !(y.sheet == x.sheet && y.pos == x.pos)) }) s)) s)

/-- SUMMARY_REQ_TIMER (R290). -/
def execSummaryReqTimer (n : Ctx) (s : State) : Host.Outcome State Fault Refusal :=
  .next (match s.tl.sumWaits.find? (fun w => w.ctx == cid n && w.line + 256 * (w.reqs + 1) ≤ ttLine s) with
    | none => s
    | some w =>
      if !linkOn s then s else
      let rest := s.tl.sumWaits.filter (fun x => !(x.ctx == w.ctx && x.sheet == w.sheet))
      if w.reqs < 3 then
        let missing := (summaryBlocks n s).filter (fun q => !(cx n s).summaries.any (fun x => x.sheet == w.sheet && x.pos == q))
        each missing (fun q t => sendControl [portTo q t] 4 q false (cid n) (wordsBytes [w.sheet, 0, 0, 0]) t)
          { s with tl := { s.tl with sumWaits := { w with reqs := w.reqs + 1 } :: rest } }
      else fenceJob n (originateAbort 4 (cid n) { s with tl := { s.tl with sumWaits := rest } }))

/-- SUMMARY_REQ_RX (R290). -/
def execSummaryReqRx (p : LinkPort) (f : LinkFrame) (s : State) : Host.Outcome State Fault Refusal :=
  .next (controlOn p 4 f (fun m s =>
    match s.tl.sums.find? (fun x => x.1 == frCtx f && x.2.1 == wordN m 0) with
    | none => if (tandemCtx (frCtx f) s).isNone then inc TL_DROPS.NO_CTX s else s
    | some x => originate [portTo 0 s] 0x11 0 false x.1 x.2.1 x.2.2 s) s)

/-- ABORT_RX (R24, R26, R292). A pair of SRC_POS and sequence number is remembered until PD_TL resets, over new discoveries and sessions: R292
does not say for how long (log 35). The replay of a job that the ABORT covers is discarded (R26). -/
def execAbortRx (p : LinkPort) (f : LinkFrame) (s : State) : Host.Outcome State Fault Refusal :=
  .next (sessionOn p [0x20] f (fun m s =>
    let k := (frSrc f, frArg f)
    if s.tl.abortSeen.contains k then s else
    let s := { s with tl := { s.tl with abortSeen := k :: s.tl.abortSeen } }
    let ns := if frCtx f == 0 then tandemJobs s else (ctxOf (frCtx f)).toList.filter (fun n => ctxLive n s)
    if ns.isEmpty && frCtx f != 0 then s
    else abortNote (frSrc f) (bits (wordN m 0) 0 3) (frCtx f) (wordN m 1) (raise 80 (each ns abortCovers (each ns replayLeave (each ns fenceJob s))))) s)

/-- ABORT_REPEAT (R291). -/
def execAbortRepeat (s : State) : Host.Outcome State Fault Refusal :=
  .next (match s.tl.aborts.find? (fun a => a.at_ + us 1 ≤ s.now) with
    | none => s
    | some a =>
      let rest := s.tl.aborts.filter (fun b => b.seq != a.seq)
      originate [0, 1] 0x20 0 true a.ctx a.seq a.payload
        { s with tl := { s.tl with aborts := rest ++ (if a.left ≤ 1 then [] else [{ a with left := a.left - 1, at_ := s.now }]) } })

/-- A bulk frame of another block, tagged with a context (R294). -/
def bulkOf (id : Nat) (f : LinkFrame) (s : State) : Bool := frType f < 0x20 && frCtx f == id && frSrc f != linkPos s

/-- Bulk frames tagged with a retired context that this block has yet to forward are dropped and counted (R258, R294): those queued for a port, and those
that a scrub holds back. -/
def dropRetired (id : Nat) (s : State) : State :=
  let gone (x : Nat × Out) : Bool := match x.2 with | .link _ f => bulkOf id f s | _ => false
  let k := (s.mp.held.filter gone).length + ((List.finRange 2).map (fun p => ((lport p s).queue.filter (fun f => bulkOf id f s)).length)).sum
  add TL_DROPS.RETIRED k { s with
    mp := { s.mp with held := s.mp.held.filter (fun x => !gone x) }
    tl := { s.tl with ports := s.tl.ports.map (fun x => { x with queue := x.queue.filter (fun f => !bulkOf id f s) }) } }

/-- CONTEXT_RETIRE_RX (R258, R294). -/
def execContextRetireRx (p : LinkPort) (f : LinkFrame) (s : State) : Host.Outcome State Fault Refusal :=
  .next (sessionOn p [0x21] f (fun _ s =>
    let s := dropRetired (frCtx f) { s with tl := { s.tl with retired := frCtx f :: s.tl.retired.filter (· != frCtx f) } }
    originate [portTo (frSrc f) s] 0x22 (frSrc f) false (frCtx f) (frArg f) (List.replicate 16 0) s) s)

/-- RETIRE_ACK_RX (R259, R294). -/
def execRetireAckRx (p : LinkPort) (f : LinkFrame) (s : State) : Host.Outcome State Fault Refusal :=
  .next (sessionOn p [0x22] f (fun _ s =>
    let s := raise 84 s
    match ctxOf (frCtx f) with
    | none => s
    | some n =>
      if cxState n s < 5 || (cx n s).retirePeers.contains (frSrc f) then s else
      let s := modCx n (fun c => { c with retirePeers := frSrc f :: c.retirePeers }) s
      quarantineTry n (wr (GL_CTX_RETIRE.PEERS_PENDING (cid n)) (rd (GL_CTX_RETIRE.PEERS_PENDING (cid n)) s - 1) s)) s)

/-- BYPASS_HOLD_MIN_LOW (R295). -/
def execBypassHoldMinLow (s : State) : Host.Outcome State Fault Refusal :=
  .next (match s.pins.lowAt with
    | none => s
    | some t => if s.now < t + ms 10 then s else holdSettle { s with pins := { s.pins with lowAt := none } })

/-- A clear of link counters (R302). -/
def tlClear (fs : List Fld) (s : State) : State := hostTo 0x500020 false (cntClr fs) s

/-- TL_CNT_CLR_PORTS (R302). -/
def execTlCntClrPorts (s : State) : Host.Outcome State Fault Refusal :=
  .next (tlClear ((List.range 2).flatMap (fun p => [TL_P_ERR.CRC p, TL_P_ERR.LEN p, TL_P_ERR.AUTH p, TL_P_ERR.REPLAY p, TL_P_TRAIN.COUNT p])) s)

/-- TL_CNT_CLR_ABORT (R302). -/
def execTlCntClrAbort (s : State) : Host.Outcome State Fault Refusal := .next (tlClear [TL_ABORT.COUNT, TL_ABORT.HELD] s)

/-- TL_CNT_CLR_DROPS (R302). -/
def execTlCntClrDrops (s : State) : Host.Outcome State Fault Refusal := .next (tlClear [TL_DROPS.RETIRED, TL_DROPS.NO_CTX] s)

/-- TL_CNT_CLR_HALO (R302). -/
def execTlCntClrHalo (s : State) : Host.Outcome State Fault Refusal := .next (tlClear [TL_HALO.REQ, TL_HALO.RESENT, TL_HALO.LOST] s)

end Sys2Proof.Machine
end

