-- ==== Sys2Proof/Machine/Commands.lean ====
section
/-! DEFINITION. The commands of the Coachman firmware that identify, create, configure and destroy: R326 to R337, R346, R347,
with R237 to R245 and R281 to R296 for what they do. Jobs.lean holds those that load and run work. -/

namespace Sys2Proof.Machine

/-- The status of the first check that fails. -/
def firstFail (l : List (Bool × Nat)) : Option Nat := (l.find? (·.1)).map (·.2)

/-- Serve a command of the Coachman firmware: FENCED while the block is fenced, then its LEN (R326, R329). -/
def serveCm (ch : Fin 6) (op len : Nat) (body : Req → State → State) (s : State) : State :=
  serve ch [0, 1] op (fun r t =>
    match firstFail [(rdB GL_STATUS.FENCED t && op != 0x01, stFENCED), (r.len != len, stBAD_LENGTH)] with
    | some e => reply ch r e [] t
    | none => body r t) s

/-- The context that a request names, if the command is legal in its state (R329, R334); DESTROY_CONTEXT is carried out while an abort
fences the job (R261). -/
def serveCtx (ch : Fin 6) (op len : Nat) (states : List Nat) (body : Ctx → Req → State → State) (s : State) : State :=
  serveCm ch op len (fun r t =>
    match ctxOf (bits (r.w 1) 0 4) with
    | none => reply ch r stCONTRACT [] t
    | some n =>
      match firstFail [((cx n t).abortFence && op != 0x11, stFENCED), (!states.contains (cxState n t), stBAD_STATE)] with
      | some e => reply ch r e [] t
      | none => body n r t) s

/-- The same for a deferred command: BUSY where none may begin (R327, R328). -/
def serveDeferred (ch : Fin 6) (op len : Nat) (states : List Nat) (body : Ctx → Req → State → State) (s : State) : State :=
  serveCtx ch op len states (fun n r t => if mayDefer ch (cid n) t then body n r t else reply ch r stBUSY [] t) s

/-- IDENTIFY (R335): the versions are those of unit 2, the Coachman firmware (R463). -/
def identify (ch : Fin 6) (r : Req) (s : State) : State :=
  let v := s.sb.version[2]
  reply ch r stOK [3 + bits v 0 8 * 2 ^ 8 + bits v 16 8 * 2 ^ 16, hostRead 0 s, hostRead 4 s,
    rd GL_STATUS.CONFIDENTIAL s + 2 * rd GL_STATUS.DEBUG_UNLOCKED s + 4 * b2n s.pins.tandem + 2 ^ 8 * rd GL_STATUS.LIFECYCLE s] s

/-- SET_CMD_REGION (R334, R335). -/
def setCmdRegion (ch : Fin 6) (r : Req) (s : State) : State :=
  match firstFail [(s.mb.deferred.any (·.op == 0x15), stBUSY),
      (r.addr 1 % 8192 != 0 || r.w 3 % 8192 != 0 || decide (2 ^ 30 < r.w 3), stCONTRACT)] with
  | some e => reply ch r e [] s
  | none => reply ch r stOK [] { s with mb := { s.mb with regionBase := r.addr 1, regionSize := r.w 3 } }

/-- SET_NOTICE_ROUTE (R335). -/
def setNoticeRoute (ch : Fin 6) (r : Req) (s : State) : State :=
  reply ch r stOK [] { s with mb := { s.mb with route := bits (r.w 1) 0 1, mask := r.w 2 } }

/-- A sum over the coaches and the Gig engine, cut to a width. -/
def unitSum (w : Nat) (f : Nat → Fld) (g : Fld) (s : State) : Nat :=
  min (((List.range 16).map (fun c => rd (f c) s)).sum + rd g s) (2 ^ w - 1)

/-- GET_COUNTERS (R335). -/
def getCounters (ch : Fin 6) (r : Req) (s : State) : State :=
  let s := settleUnits s
  let busy := unitSum 64 CA_BUSY.COUNT GG_BUSY.COUNT s
  reply ch r stOK [busy % 2 ^ 32, busy / 2 ^ 32, unitSum 32 CA_NUMERIC.ACC_SAT GG_NUMERIC.ACC_SAT s, unitSum 32 CA_NUMERIC.OUT_SAT GG_NUMERIC.OUT_SAT s,
    unitSum 32 CA_NUMERIC.NAN GG_NUMERIC.NAN s, unitSum 32 CA_ECC.CORR GG_ECC.CORR s,
    unitSum 16 CA_ECC.UNCORR GG_ECC.UNCORR s + 2 ^ 16 * s.mb.noticesLost] s

/-- Checks 1 to 4 of CREATE_CONTEXT (R239). -/
def createFail (n : Ctx) (r : Req) (s : State) : Option Nat :=
  let k := bits (r.w 1) 4 5
  let mask := bits (r.w 2) 0 16
  firstFail [((cx n s).abortFence, stFENCED), (ctxLive n s, stBAD_STATE), (decide (5 ≤ cxState n s), stBUSY),
    (decide (k < 1) || decide (16 < k) || (mask != 0 && popcount 16 mask != k) || (bit (r.w 1) 10 && mask == 0), stCONTRACT),
    (bit (r.w 1) 9 && (lifecycle s != 7 || unlocked s || rdB SB_KEY_STATUS.MRK_SUBST s), stREFUSED_STATE)]

/-- The partition of a new context (R241): an existing slice group, a mask of free coaches, or the lowest free ones. -/
def pickCoaches (k mask : Nat) (join : Bool) (s : State) : Option Nat :=
  let used := (allCtx.map (fun m => partMask m s)).foldl (· ||| ·) 0
  let open_ := (List.range 16).filter (fun c => !bit used c)
  if join then (let g := membersOf mask s; if g.isEmpty || 8 ≤ g.length then none else some mask)
  else if mask != 0 then (if mask &&& used == 0 then some mask else none)
  else if open_.length < k then none
  else some ((open_.take k).map (2 ^ ·)).sum

/-- A domain that is off is on its way up: it ramps to stay on, or waits for a ramp or for its own switch-off (R514, R515). -/
def comesUp (d : Nat) (s : State) : Bool :=
  s.pw.queue.contains d || s.pw.onAfter.contains d || (s.pw.ramps.any (·.1 == d) && !s.pw.offAfter.contains d)

/-- Switch off the coaches that a command powered (R242). -/
def unpower (ds : List Nat) (s : State) : State := each ds (fun d t => (pwrRequest .coachman d false t).2) s

/-- Power up the coaches of a partition that are off (R242): whether none is refused, and those powered for this command, which are switched off again after a
refusal. -/
def powerCoaches (cs : List Coach) (s : State) : Bool × List Nat × State :=
  let z := cs.foldl (fun (a : Bool × List Nat × State) c =>
    if !a.1 || domOn c.val a.2.2 || comesUp c.val a.2.2 then a
    else
      let p := pwrRequest .coachman c.val true a.2.2
      (p.1, if p.1 then c.val :: a.2.1 else a.2.1, p.2)) (true, [], s)
  if z.1 then z else (false, [], unpower z.2.1 z.2.2)

/-- Confidential mode begins (R384, R549): the host routes that it refuses become the Coachman's (R351). -/
def setConfidential (s : State) : State :=
  if confidential s then s else
  let s := wrs [(GL_STATUS.CONFIDENTIAL, 1), (SB_STATUS.CONFIDENTIAL, 1)] (settleUnits s)
  let s := each ((List.range 128).filter (fun src => confSource src && srcRoute src s == 2)) (fun src => routeTo src 0) s
  showProf (if domOn 23 s then wrs [(DBG_CTRL.EN, 0), (DBG_STATUS.CAUSE, 2)] s else s)

/-- A member whose teardown is under way still holds coaches of the partition, or their scrub for it is due: they pass on at its step 6 (R256, R267). -/
def tornHolds (mask : Nat) (s : State) : Bool :=
  allCtx.any (fun m => partMask m s == mask && (cxState m s == 5 || cxState m s == 6) &&
    ((coachesOf mask).any (fun c => coachCtxId c s == cid m) || (cx m s).scrubCoaches != 0))

/-- A context comes to life on a partition (R238 to R242, R244, R267, R412, R416). -/
def createDone (n : Ctx) (mask : Nat) (conf : Bool) (s : State) : State :=
  let id := cid n
  let order := (allCtx.map (fun m => (cx m s).order)).foldl max 0 + 1
  let key := if conf then freeBytes 32 s else ([], s)
  let s := key.2
  let s := setCx n { CtxSt.init with order := order, tornDue := (cx n s).tornDue, bounce := { CtxSt.init.bounce with key := key.1 } } s
  let s := forgetRegs (fun a => a / 0x20 == (0x100 + 0x20 * id) / 0x20 || a / 0x10 == (0x400200 + 0x10 * id) / 0x10) s
  let s := wrs [(GL_CTX_EPOCH.EPOCH id, rd (GL_CTX_EPOCH.EPOCH id) s + 1), (GL_CTX_STATUS.STATE id, 1), (GL_CTX_STATUS.CONFIDENTIAL id, b2n conf),
    (GL_CTX_STATUS.PARTITION id, mask), (GL_CTX_STATUS.RESIDENT id, 0), (GL_CTX_SWITCH.COUNT id, 0), (GL_CTX_SWITCH.MAX_US id, 0),
    (GL_CTX_DEBT.CARRIED id, 0)] s
  let s := ledgerOpen n (loadSlotKey n s)
  let s := showSliced (if conf then setConfidential s else s)
  let others := (liveMembers mask s).filter (· != n)
  match others.find? (fun m => holds m s) with
  | some m => if others.length == 1 then sliceBegin m s else s
  | none => if tornHolds mask s then s else takeCoaches n s

/-- The end of a CREATE_CONTEXT whose coaches are up (R242). A key slot that fails its read-back after the loading is the fault KEY_FAULT (R25, R482). -/
def createEnd (ch : Fin 6) (n : Ctx) (mask : Nat) (conf keyOk : Bool) (seq : Nat) (s : State) : State :=
  let t := createDone n mask conf s
  if keyOk then answer ch true 0x10 seq stOK [] t else securityFault 0x42 t

/-- CREATE_CONTEXT (R239, R242): with every coach up it is answered at once; until they are its partition is reserved, and the command waits (log 31). -/
def createContext (ch : Fin 6) (keyOk : Bool) (r : Req) (s : State) : State :=
  match ctxOf (bits (r.w 1) 0 4) with
  | none => reply ch r stCONTRACT [] s
  | some n =>
    match createFail n r s with
    | some e => reply ch r e [] s
    | none =>
      match pickCoaches (bits (r.w 1) 4 5) (bits (r.w 2) 0 16) (bit (r.w 1) 10) s with
      | none => reply ch r stNO_RESOURCE [] s
      | some mask =>
        let p := powerCoaches (coachesOf mask) s
        let s := p.2.2
        if !p.1 then reply ch r stNO_RESOURCE [] s
        else if (coachesOf mask).all (fun c => domOn c.val s) then createEnd ch n mask (bit (r.w 1) 9) keyOk r.seq s
        else wr (GL_CTX_STATUS.PARTITION (cid n)) mask
          (defer ch r (cid n) [mask, b2n (bit (r.w 1) 9), b2n keyOk, (p.2.1.map (2 ^ ·)).sum] [] s)

/-- A CREATE_CONTEXT that awaits its coaches ends when all are up, or with NO_RESOURCE when one will not come up (R242). -/
def createStep (d : Deferred) (s : State) : State :=
  match ctxOf d.ctx with
  | none => s
  | some n =>
    let mask := d.args.getD 0 0
    let cs := coachesOf mask
    let t := { s with mb := { s.mb with deferred := s.mb.deferred.filter (fun e => !(decide (e = d))) } }
    if h : d.ch < 6 then
      if cs.all (fun c => domOn c.val s) then createEnd ⟨d.ch, h⟩ n mask (d.args.getD 1 0 == 1) (d.args.getD 2 0 == 1) d.seq t
      else if cs.all (fun c => domOn c.val s || comesUp c.val s) then s
      else answer ⟨d.ch, h⟩ true d.op d.seq stNO_RESOURCE [] (unpower (setBits 16 (d.args.getD 3 0)) (wr (GL_CTX_STATUS.PARTITION (cid n)) 0 t))
    else s

/-- A cycle of a CREATE_CONTEXT that waits. -/
def createCycle (s : State) : State := if cmUp s then each (s.mb.deferred.filter (·.op == 0x10)) createStep s else s

/-- A bounce record in the host-to-K24 direction (R346, R347): its plaintext, TARGET and COUNT, or the status of the first check that
fails. -/
def bounceRecord (n : Ctx) (kind ofs len : Nat) (tag rec : List Byte) (s : State) : Except Nat (List Byte × Nat × Nat) :=
  let b := (cx n s).bounce
  let w (i : Nat) : Nat := wordN rec i
  let count := w 2 + 2 ^ 32 * w 3
  let hdr := slice rec 0 32
  let ct := slice rec 32 (len - 32)
  let iv := leBytes 8 count ++ leBytes 4 (cid n)
  match firstFail [(decide (b.outOfs < ofs + len) || decide (len < 32) || len != 32 + w 4 || w 4 % 16 != 0, stBAD_LENGTH),
      (w 0 != 0x31434E42 || bits (w 1) 0 4 != cid n || bits (w 1) 4 1 != 0 || bits (w 1) 8 4 != kind || decide (count ≤ b.countIn), stAUTH_FAIL),
      (gcmTag b.key iv hdr ct != tag, stDIGEST_MISMATCH)] with
  | some e => .error e
  | none => .ok (gcmCrypt b.key iv ct, w 5, count)

/-- A record is accepted: its COUNT is the last accepted one (R347). -/
def bounceTaken (n : Ctx) (count : Nat) (s : State) : State := modCx n (fun c => { c with bounce := { c.bounce with countIn := count } }) s

/-- The plaintext of a command block, of the length that the command requires (R332), or of a bounce record of KIND 0 for a
confidential context (R333, R347). -/
def commandBlock (n : Ctx) (r : Req) (want : List Byte → Nat) (block : List Byte) (s : State) : Except Nat (List Byte × State) :=
  if rdB (GL_CTX_STATUS.CONFIDENTIAL (cid n)) s then
    match bounceRecord n 0 (r.w 2) (r.w 3) (r.bytes 4 7) block s with
    | .error e => .error e
    | .ok (pt, _, count) => if pt.length != want pt then .error stBAD_LENGTH else .ok (pt, bounceTaken n count s)
  else
    let b := slice block 0 (r.w 3)
    match firstFail [(decide (s.mb.regionSize < r.w 2 + r.w 3) || r.w 2 % 64 != 0 || r.w 3 != want b, stBAD_LENGTH),
        (slice (sha384 b) 0 16 != r.bytes 4 7, stDIGEST_MISMATCH)] with
    | some e => .error e
    | none => .ok (b, s)

/-- The block of a command is read (R332, R346): through the memory ports with CTX 0 and in CLEAR, or for a confidential context by the initiator. One that
lies outside its region, or is not aligned, is not read. -/
def blockRead (n : Ctx) (r : Req) (s : State) : State :=
  let b := (cx n s).bounce
  if rdB (GL_CTX_STATUS.CONFIDENTIAL (cid n)) s then
    (if b.outOfs < r.w 2 + r.w 3 || r.w 3 < 32 then s else initPush false (cid n) (b.base + r.w 2) (r.w 3) [] s)
  else if s.mb.regionSize < r.w 2 + r.w 3 || r.w 2 % 64 != 0 then s
  else ownRead 1 0 15 (s.mb.regionBase + r.w 2) (r.w 3) s

/-- The message of a command waits for the digest engine from this cycle on: the wait is part of the command's time (R327, R332). -/
def blockHold (ch : Fin 6) (s : State) : State :=
  if (chan ch s).heldAt.isNone then setChan ch { chan ch s with heldAt := some s.now } s else s

/-- A command that reads a plain block waits while the digest engine has another owner (R332). -/
def blockWaits (ch : Fin 6) (op : Nat) (s : State) : Bool :=
  dgOwner s != 0 && dgOwner s != 2 &&
  (match reqOf ch s with
  | none => false
  | some r => r.op == op && !r.note && reads ch s && (match ctxOf (bits (r.w 1) 0 4) with | some n => !rdB (GL_CTX_STATUS.CONFIDENTIAL (cid n)) s | none => false))

/-- The sizes that the layouts of SPILL, REFRASTER and REFPAGE need (R220, R249, R337). -/
def areasOk (n : Ctx) (cfg : List Byte) (s : State) : Bool :=
  let k := popcount 16 (partMask n s)
  let group := 2 ≤ (liveMembers (partMask n s) s).length
  let cols := cfgColumns cfg
  cfgOk cfg (k * cfgSpillStride cfg + if group then k * 2162688 else 0) &&
  (if cfgVariable cfg then cfgSheets cfg * cfgSheetStride cfg else cols * ((cfgSheetLines cfg + 32) * 864)) ≤ cfgSize cfg 3 &&
  cfgSheetRows cfg * cols * cfgTileStride cfg * (if cfgVariable cfg then 2 else 1) ≤ cfgSize cfg 2

/-- CONFIG_CONTEXT (R337, R375). -/
def configContext (ch : Fin 6) (block : List Byte) (n : Ctx) (r : Req) (s : State) : State :=
  let s := blockRead n r s
  match commandBlock n r (fun _ => 128) block s with
  | .error e => reply ch r e [] s
  | .ok (cfg, s) =>
    if !areasOk n cfg s then reply ch r stCONTRACT [] s else
    let edge : EdgeSt := ⟨bits (cfgW cfg 1) 10 2, bits (cfgW cfg 2) 0 14, bits (cfgW cfg 2) 16 14⟩
    reply ch r stOK [] (modCx n (fun c => { c with cfg := cfg, edge := edge, edgeNext := [] }) (extendMR 6 5 (cid n) (sha384 cfg) s))

/-- SET_EDGE (R255, R335, R336): in RUNNING at the next epoch. -/
def setEdge (ch : Fin 6) (n : Ctx) (r : Req) (s : State) : State :=
  let e : EdgeSt := ⟨bits (r.w 1) 8 2, bits (r.w 2) 0 14, bits (r.w 3) 0 14⟩
  if 2 < e.pad then reply ch r stCONTRACT [] s
  else reply ch r stOK [] (modCx n (fun c => if cxState n s == 3 then { c with edgeNext := keptOlder (·.at_) s.now c.edgeNext ++ [⟨e, s.now, !rdB TT_CTRL.ENABLE s⟩] } else { c with edge := e, edgeNext := [] }) s)

/-- SET_SLICE (R245, R268). -/
def setSlice (ch : Fin 6) (n : Ctx) (r : Req) (s : State) : State :=
  let unit := bits (r.w 1) 8 1
  let len := bits (r.w 2) 0 24
  let lr := if rdB (GL_WB_STATUS.LOADED (cid n)) s then wbLrMax (cx n s).image else 500
  if len < (if unit == 0 then ceilDiv lr 500 else 2000) then reply ch r stCONTRACT [] s else
  let s := showSliced (modCx n (fun c => { c with sliceLen := len, sliceUnit := unit }) s)
  reply ch r stOK [] (if resident n s && (cx n s).switchTo.isNone then sliceBegin n (disarmRow 3 n 0 s) else s)

/-- Serve a chain command (R334): REFUSED_STATE in Solo, BAD_STATE while a Tandem job runs (`force`: even then) or PD_TL is off. -/
def serveChain (ch : Fin 6) (op len : Nat) (force : Req → Bool) (body : Req → State → State) (s : State) : State :=
  serveCm ch op len (fun r t =>
    match firstFail [(!tandemOn t, stREFUSED_STATE), ((!(tandemJobs t).isEmpty && !force r) || !domOpen 19 t, stBAD_STATE)] with
    | some e => reply ch r e [] t
    | none => reply ch r stOK [] (body r t)) s

/-- CHAIN_POSITION (R281, R284): the head discovers anew, another block asks the head for it. -/
def chainPosition (r : Req) (s : State) : State :=
  let s := wrs [(TL_CFG.POS_OVR, bits (r.w 1) 0 6), (TL_CFG.POS_OVR_EN, bits (r.w 1) 8 1)] s
  let s := showHead s
  if linkPos s == 0 then discover s else sendControl [0, 1] 1 0 false 0 (List.replicate 16 0) s

/-- BOUNCE_SETUP (R335, R347). -/
def bounceSetup (ch : Fin 6) (n : Ctx) (r : Req) (s : State) : State :=
  match firstFail [(!rdB (GL_CTX_STATUS.CONFIDENTIAL (cid n)) s, stNOT_CONFIDENTIAL),
      (r.addr 2 % 4096 != 0 || r.w 4 % 4096 != 0 || r.w 5 % 4096 != 0 || decide (2 ^ 28 < r.w 4) || decide (r.w 4 ≤ r.w 5), stCONTRACT)] with
  | some e => reply ch r e [] s
  | none => reply ch r stOK [] (modCx n (fun c => { c with bounce := { c.bounce with set := true, base := r.addr 2, size := r.w 4, outOfs := r.w 5 } }) s)

/-- BOUNCE_IN (R335, R347): the extent is checked at once, and the initiator starts to read. -/
def bounceIn (ch : Fin 6) (n : Ctx) (r : Req) (s : State) : State :=
  match firstFail [(!rdB (GL_CTX_STATUS.CONFIDENTIAL (cid n)) s, stNOT_CONFIDENTIAL),
      (decide ((cx n s).bounce.outOfs < r.w 2 + r.w 3) || decide (r.w 3 < 32), stBAD_LENGTH)] with
  | some e => reply ch r e [] s
  | none => initPush false (cid n) ((cx n s).bounce.base + r.w 2) (r.w 3) [] (defer ch r (cid n) [r.w 2, r.w 3] (r.bytes 4 7) s)

/-- The deferred command of an opcode that a context has in progress. -/
def deferredOp (n : Ctx) (op : Nat) (s : State) : Option Deferred := s.mb.deferred.find? (fun d => d.ctx == cid n && d.op == op)

/-- IDENTIFY (R335). -/
def execIdentify (ch : Chan) (s : State) : Host.Outcome State Fault Refusal := .next (serveCm ch 0x01 0 (identify ch) s)
/-- SET_CMD_REGION (R335). -/
def execSetCmdRegion (ch : Chan) (s : State) : Host.Outcome State Fault Refusal := .next (serveCm ch 0x02 3 (setCmdRegion ch) s)
/-- SET_NOTICE_ROUTE (R335). -/
def execSetNoticeRoute (ch : Chan) (s : State) : Host.Outcome State Fault Refusal := .next (serveCm ch 0x03 2 (setNoticeRoute ch) s)
/-- GET_COUNTERS (R335). -/
def execGetCounters (ch : Chan) (s : State) : Host.Outcome State Fault Refusal := .next (serveCm ch 0x04 0 (getCounters ch) s)
/-- CREATE_CONTEXT (R239). -/
def execCreateContext (obs : CreateObs) (s : State) : Host.Outcome State Fault Refusal := .next (serveCm obs.ch 0x10 2 (createContext obs.ch obs.keyOk) s)
/-- DESTROY_CONTEXT (R336): answered OK at step 1 of R256. -/
def execDestroyContext (ch : Chan) (s : State) : Host.Outcome State Fault Refusal :=
  .next (serveCtx ch 0x11 1 [1, 2, 3, 4] (fun n r t => reply ch r stOK [] (tearDown n 0 t)) s)
/-- CONFIG_CONTEXT (R337). -/
def execConfigContext (ch : Chan) (block : BlockRead) (s : State) : Host.Outcome State Fault Refusal :=
  .next (if blockWaits ch 0x12 s then blockHold ch s else serveCtx ch 0x12 7 [1, 2, 4] (configContext ch block) s)
/-- SET_EDGE (R335). -/
def execSetEdge (ch : Chan) (s : State) : Host.Outcome State Fault Refusal := .next (serveCtx ch 0x13 3 [1, 2, 3, 4] (setEdge ch) s)
/-- SET_SLICE (R245). -/
def execSetSlice (ch : Chan) (s : State) : Host.Outcome State Fault Refusal := .next (serveCtx ch 0x14 2 [1, 2, 4] (setSlice ch) s)
/-- CHAIN_POSITION (R281). -/
def execChainPosition (ch : Chan) (s : State) : Host.Outcome State Fault Refusal :=
  .next (serveChain ch 0x30 1 (fun _ => false) chainPosition s)
/-- CHAIN_JOIN (R295). -/
def execChainJoin (ch : Chan) (s : State) : Host.Outcome State Fault Refusal :=
  .next (serveChain ch 0x31 0 (fun _ => false) (fun _ t => holdSettle (wr TL_CFG.JOINED 1 t)) s)
/-- CHAIN_LEAVE (R295, R335). -/
def execChainLeave (ch : Chan) (s : State) : Host.Outcome State Fault Refusal :=
  .next (serveChain ch 0x32 1 (fun r => bit (r.w 1) 0) (fun _ t => holdSettle (wr TL_CFG.JOINED 0 t)) s)
/-- BOUNCE_SETUP (R335). -/
def execBounceSetup (ch : Chan) (s : State) : Host.Outcome State Fault Refusal := .next (serveCtx ch 0x40 5 [1, 2, 4] (bounceSetup ch) s)
/-- BOUNCE_IN (R347). -/
def execBounceIn (ch : Chan) (s : State) : Host.Outcome State Fault Refusal := .next (serveDeferred ch 0x41 7 [2, 3, 4] (bounceIn ch) s)
/-- BOUNCE_IN_DONE (R211, R347): with every read of the record answered, a verified record of KIND 1 is written to REFRASTER under the context's key. -/
def execBounceInDone (n : Ctx) (rec : List Byte) (s : State) : Host.Outcome State Fault Refusal :=
  .next (match deferredOp n 0x41 s with
    | none => s
    | some d =>
      if s.mp.inits.any (fun t => t.ctx == cid n && !t.write) then s else
      match bounceRecord n 1 (d.args.getD 0 0) (d.args.getD 1 0) d.data rec s with
      | .error e => endDeferred d e [] s
      | .ok (pt, target, count) =>
        if cfgSize (cx n s).cfg 3 < target + pt.length then endDeferred d stBAD_LENGTH [] s
        else endDeferred d stOK [] (bounceTaken n count (writeRegion n 3 target pt s)))

end Sys2Proof.Machine
end

