-- ==== Sys2Proof/Machine/Debug.lean ====
section
/-! DEFINITION. The trace's register and the test access port (R546 to R552). -/

namespace Sys2Proof.Machine

/-- A write of DBG_CTRL from the host (R549, R551). -/
def dbgWrite (d : Nat) (s : State) : State :=
  let refuse (c : Nat) (s : State) : State := wr DBG_STATUS.CAUSE c (markBit DBG_STATUS.REFUSED s)
  if reinHolder 5 s != 0 then refuse 3 (if bit d 0 then wr DBG_CTRL.EN 0 s else s)
  else
    let turned := rdB DBG_CTRL.EN s && bits d 8 6 != rd DBG_CTRL.GROUP s
    let s := wrs [(DBG_CTRL.DIV, bits d 1 3), (DBG_CTRL.GROUP, bits d 8 6)] s
    let s := if turned then { s with tap := { s.tap with quiet := s.now + 2 ^ bits d 1 3 } } else s
    if !bit d 0 then wr DBG_CTRL.EN 0 s
    else if !traceLife s then refuse 1 (wr DBG_CTRL.EN 0 s)
    else if confidential s then refuse 2 (wr DBG_CTRL.EN 0 s)
    else wr DBG_CTRL.EN 1 s

/-- DBG_CTRL_WRITE (R551). -/
def execDbgCtrlWrite (data : Word) (sec : Bool) (s : State) : Host.Outcome State Fault Refusal :=
  .next (hostTo 0xC00000 sec (dbgWrite data.toNat) s)

/-- TMUX_EN_FALL (R549): EN is kept. -/
def execTmuxEnFall (s : State) : Host.Outcome State Fault Refusal := .next { s with pins := { s.pins with tmuxEn := false } }

/-- TMUX_EN_RISE (R549). -/
def execTmuxEnRise (s : State) : Host.Outcome State Fault Refusal := .next { s with pins := { s.pins with tmuxEn := true } }

/-- The test access port works only in TEST (R550). -/
def tapOn (s : State) : Bool := rd GL_STATUS.LIFECYCLE s == 1

/-- Another instruction takes effect: leaving SCAN_SEL starts a block reset, whose cause the spec does not give (log 29). -/
def tapSelect (code : Nat) (s : State) : State :=
  let leaves : Bool := s.tap.code == 0x10 && code != 0x10
  let s := { s with tap := { s.tap with code := code } }
  if !leaves then s else
  let s := beginReset 1 false s
  let f := free s
  wr PM_RST_CAUSE.CAUSE f.1 f.2

/-- TAP_BYPASS (R550): every unlisted code acts as BYPASS. -/
def execTapBypass (code : BitVec 8) (s : State) : Host.Outcome State Fault Refusal :=
  .next (if tapOn s && !([0x10, 0x20, 0x21].contains code.toNat) then tapSelect code.toNat s else s)

/-- TAP_SCAN_SEL (R550). -/
def execTapScanSel (s : State) : Host.Outcome State Fault Refusal := .next (if tapOn s then tapSelect 0x10 s else s)

/-- Every SRAM of the block is overwritten (R550): it reads as unwritten afterwards, and what the Strongbox kept in its own is gone (log 9). -/
def mbistWipe (s : State) : State :=
  { s with
    coach := s.coach.map (fun x => { x with sram := Vector.replicate 5 [], tables := List.replicate 1024 0 })
    gig := { s.gig with sram := [] }
    sb := SbSt.init
    tl := { s.tl with strips := [], sums := [] } }

/-- TAP_MBIST_RUN (R550). -/
def execTapMbistRun (s : State) : Host.Outcome State Fault Refusal :=
  .next (if !tapOn s then s else
    let s := tapSelect 0x20 (mbistWipe s)
    { s with tap := { s.tap with running := true, result := 0 } })

/-- TAP_MBIST_RESULT (R550). -/
def execTapMbistResult (s : State) : Host.Outcome State Fault Refusal := .next (if tapOn s then tapSelect 0x21 s else s)

/-- TAP_TEST_LOGIC_RESET (R550). -/
def execTapTestLogicReset (s : State) : Host.Outcome State Fault Refusal := .next (if tapOn s then tapSelect 0xFF s else s)

/-- MBIST_DONE (R550): bit j of the result is 1 when family j, of 20, passed; bit 31 says that the run is complete. -/
def execMbistDone (fails : BitVec 31) (s : State) : Host.Outcome State Fault Refusal :=
  .next (if !s.tap.running then s else
    { s with tap := { s.tap with running := false, result := 2 ^ 31 + (((List.range 20).filter (fun j => !bit fails.toNat j)).map (2 ^ ·)).sum } })

end Sys2Proof.Machine
end

