-- ==== Sys2Proof/Machine/Strongbox.lean ====
section
/-! DEFINITION. The Strongbox firmware at work: identification, lifecycle, debug unlock, keys and statements on its channels, the
reins, and the heartbeats (R379 to R390, R406 to R412, R415, R422). -/

namespace Sys2Proof.Machine

/-- The ROM serves the channels: in RAW and in recovery (R390). -/
def romServes (s : State) : Bool := lifecycle s == 0 || rd SB_STATUS.STAGE s == 14

/-- Serve a Strongbox command: its LEN is checked (R326), and the ROM answers BAD_OPCODE to all but SB_IDENTIFY and LC_ADVANCE (R390). -/
def serveSb (ch : Fin 6) (chs : List Nat) (op : Nat) (lens : List Nat) (body : Req → State → State) (s : State) : State :=
  serve ch chs op (fun r t =>
    if romServes t && op != 0x80 && op != 0x82 then reply ch r stBAD_OPCODE [] t
    else if rdB GL_STATUS.FENCED t then reply ch r stFENCED [] t
    else if !lens.contains r.len then reply ch r stBAD_LENGTH [] t
    else body r t) s

/-- The block of a Strongbox command (R390): `want` is the length that the command requires, if one. -/
def sbBlock (r : Req) (want : Option Nat) (block : List Byte) : Option Nat :=
  let len := r.w 3
  if r.w 1 % 64 != 0 || (match want with | some n => len != n | none => false) then some stBAD_LENGTH
  else if slice (sha384 (slice block 0 len)) 0 16 != r.bytes 4 7 then some stDIGEST_MISMATCH
  else none

/-- The block of a Strongbox command is read through the memory ports (R390), a signed item together with its companion block of `more`
bytes (R409); one whose address or length is wrong is not read (R332). -/
def sbRead (r : Req) (want : Option Nat) (more : Nat) (s : State) : State :=
  if r.w 1 % 64 != 0 || (match want with | some n => r.w 3 != n | none => false) then s else ownRead 1 0 15 (r.addr 1) (r.w 3 + more) s

/-- A write of bytes with CTX 0, in CLEAR. -/
def writeClear (a : Nat) (b : List Byte) (s : State) : State := ownWrite 1 0 15 a 0xFF 0 b s

/-- Every context is FREE. -/
def allFree (s : State) : Bool := allCtx.all (fun n => cxState n s == 0)

/-- SB_IDENTIFY (R390). Without a ladder root the block has no identity, and what word 4 holds then is a free value (log 28). -/
def sbIdentify (ch : Fin 6) (r : Req) (s : State) : State :=
  let f := if s.sb.root.isEmpty then free s else (wordN (idHash s) 0, s)
  reply ch r stOK [hostRead 0x800000 f.2, hostRead 0x800004 f.2, f.2.sb.version[0], f.1] f.2

/-- SB_CHALLENGE (R380, R384, R390). -/
def sbChallenge (ch : Fin 6) (r : Req) (s : State) : State :=
  if confidential s then reply ch r stREFUSED_STATE [] s else
  let f := freeBytes 24 s
  reply ch r stOK ((List.range 6).map (wordN f.1)) { f.2 with sb := { f.2.sb with challenge := f.1 } }

/-- The key hash for a token's SIGNER (R380). -/
def tokenSigner (code : Nat) (s : State) : List Byte := if code == 1 then s.sb.owner else if code == 0 || code == 2 then Config.romKeyHash code else []

/-- A token's fields, nonce, companion block and signature (R380, R409). -/
def tokenOk (kind target : Nat) (signers : List Nat) (t : List Byte) (s : State) : Bool :=
  let signer := bits (wordN t 1) 16 8
  let enc := slice t 192 97
  wordN t 0 == 0x31544B54 && bits (wordN t 1) 0 8 == kind && bits (wordN t 1) 8 8 == target && signers.contains signer &&
  slice t 8 48 == idHash s && !s.sb.challenge.isEmpty && slice t 56 24 == s.sb.challenge &&
  !(tokenSigner signer s).isEmpty && keyHash enc == tokenSigner signer s && sigOk enc (sha384 (slice t 0 96)) (slice t 96 48) (slice t 144 48)

/-- The first token that is checked consumes the challenge (R380). -/
def useChallenge (s : State) : State := { s with sb := { s.sb with challenge := [] } }

/-- The transitions without a token (R379). -/
def lcFree (lc target : Nat) : Bool := (lc == 0 && target == 1) || ([0, 1, 3, 0xF].contains lc && target == 0x1F)
/-- The transitions with a token: the signer's code (R379). -/
def lcToken (lc target : Nat) : Option Nat :=
  if lc == 1 && target == 3 then some 0
  else if (lc == 3 && target == 7) || (lc == 7 && target == 0xF) || (lc == 7 && target == 0x1F) then some 1
  else none

/-- The further conditions of a transition (R379): to FIELD, the device secret and the owner key are locked and valid; a token of the
owner key needs the owner key (R452). -/
def lcReady (lc target : Nat) (s : State) : Bool :=
  (target != 7 || (rdB SB_KEY_STATUS.UDS_SET s && rdB SB_KEY_STATUS.OWNER_SET s)) && (lcToken lc target != some 1 || !s.sb.owner.isEmpty)

/-- The owner key is refused because its active copy is MARGINAL or FAILED; OTP_ALARM is raised again where that outcome is applied (R451,
R452). -/
def refuseOwner (needed : Bool) (s : State) : State := if needed && s.sb.owner.isEmpty && !s.sb.ownerBlank then raise 90 s else s

/-- A reset is answered with OK and follows within 10 ms (R381, R382, R474). -/
def resetLater (cause : Nat) (prog : Option (Nat × Bool)) (s : State) : State := { s with sb := { s.sb with resetDue := some ⟨cause, s.now, prog⟩ } }

/-- Program the lifecycle bits up to a target (R381): `blows` says that the read-back shows all three copies blown; else LC_VERIFY. -/
def lcProgram (target : Nat) (blows : Bool) (s : State) : State :=
  let js := (List.range 5).filter (fun j => bit target j && !bit (lifecycle s) j)
  if blows then each js (fun j => otpBlowBit [0, 1, 2] j) s
  else securityFault 0x41 (each js (fun j t => each [0, 1, 2] (fun w => otpPartly w (2 ^ j)) t) { s with sb := { s.sb with resetDue := none } })

/-- A step of something that must be done within a time of its beginning comes in an idle cycle by a free choice, and at the latest 20
cycles before that time. DESIGN CHOICE (log 36): the spec bounds the time and does not state it. -/
def paced (at_ limit : Nat) (s : State) : Bool × State :=
  let f := free s
  (f.1 % 2 == 1 || at_ + limit ≤ s.now + 20, f.2)

/-- A cycle of a reset that is due: the lifecycle bits are programmed, once no earlier operation of the OTP runs (R455), and then the reset
begins. -/
def resetCycle (s : State) : State :=
  match s.sb.resetDue with
  | none => s
  | some d =>
    if s.pw.reset.isSome then s else
    let p := paced d.at_ (ms 10) s
    if !p.1 then p.2 else
    match d.prog with
    | some (target, blows) =>
      if otpHeld p.2 then p.2 else
      let s := otpFirst { p.2 with sb := { p.2.sb with resetDue := some { d with prog := none } } }
      lcProgram target blows s
    | none => beginReset d.cause false { p.2 with sb := { p.2.sb with resetDue := none } }

/-- A key that was loaded into a slot is read back; that the check fails is a free value (R482). -/
def checkCycle (s : State) : State :=
  if !s.sb.keyCheck || !sbActs s then s else
  let f := free { s with sb := { s.sb with keyCheck := false } }
  if f.1 % 2 == 1 then securityFault 0x42 f.2 else f.2

/-- LC_ADVANCE (R379 to R381, R390). -/
def lcAdvance (ch : Fin 6) (block : List Byte) (blows : Bool) (r : Req) (s : State) : State :=
  let lc := lifecycle s
  let target := if r.len == 1 then bits (r.w 1) 8 8 else bits (wordN block 1) 8 8
  let s := if r.len == 7 then sbRead r (some 192) 128 s else s
  match (if r.len == 7 then sbBlock r (some 192) block else none) with
  | some e => reply ch r e [] s
  | none =>
    if !(if r.len == 1 then lcFree lc target else (lcToken lc target).isSome) || !lcReady lc target s then
      reply ch r stREFUSED_STATE [] (refuseOwner (r.len == 7 && lcToken lc target == some 1) s)
    else if !allFree s then reply ch r stBAD_STATE [] s
    else if r.len == 7 && !tokenOk 1 target ((lcToken lc target).toList) block s then reply ch r stAUTH_FAIL [] (useChallenge s)
    else resetLater 4 (some (target, blows)) (reply ch r stOK [] (useChallenge s))

/-- DEBUG_UNLOCK (R382, R384). -/
def debugUnlock (ch : Fin 6) (block : List Byte) (r : Req) (s : State) : State :=
  let lc := lifecycle s
  let own := lc == 7 || bits (wordN block 1) 16 8 == 1
  let s := sbRead r (some 192) 128 s
  match sbBlock r (some 192) block with
  | some e => reply ch r e [] s
  | none =>
    if !(lc == 7 || lc == 0xF) || confidential s || rdB TL_CFG.JOINED s then reply ch r stREFUSED_STATE [] s
    else if own && s.sb.owner.isEmpty then reply ch r stREFUSED_STATE [] (refuseOwner true s)
    else if !allFree s then reply ch r stBAD_STATE [] s
    else if !tokenOk 2 0 (if lc == 7 then [1] else [1, 2]) block s then reply ch r stAUTH_FAIL [] (useChallenge s)
    else
      let s := reply ch r stOK [] (useChallenge s)
      resetLater 5 none { s with pw := { s.pw with unlock := true } }

/-- SB_ATTEST (R415, R420). -/
def sbAttest (ch : Fin 6) (block : List Byte) (r : Req) (s : State) : State :=
  let ctx := bits (wordN block 1) 0 4
  let final := bit (wordN block 1) 8
  let len := bits (wordN block 5) 0 7
  let out := wordN block 2 + 2 ^ 32 * bits (wordN block 3) 0 16
  let s := sbRead r (some 128) 0 s
  match sbBlock r (some 128) block with
  | some e => reply ch r e [] s
  | none =>
    if wordN block 0 != 0x31525441 || 8 < ctx || wordN block 4 < 1536 || len < 8 || 64 < len then reply ch r stCONTRACT [] s
    else match ctxOf ctx with
    | none =>
      if final then reply ch r stBAD_STATE [] s
      else
        let g := statement none false (slice block 64 len) s
        reply ch r stOK [g.1.length] (writeClear out g.1 g.2)
    | some n =>
      let l := (cx n s).ledger
      if !l.opened || (final && !rdB (SB_LEDGER_STATE.FINAL_HELD ctx) s) then reply ch r stBAD_STATE [] s
      else
        let s := modCx n (fun c => { c with ledger := { c.ledger with nonce := slice block 64 len } }) s
        let g := if final then (l.final, s) else statement (some n) false (slice block 64 len) s
        reply ch r stOK [g.1.length] (writeClear out g.1 g.2)

/-- Entry `i` of the plaintext entries. -/
def keyEntry (pt : List Byte) (i : Nat) : KeyEntry :=
  let b := slice pt (128 * i) 128
  ⟨bits (wordN b 0) 0 8, bits (wordN b 0) 8 8, wordN b 1, bits (wordN b 2) 0 8, slice b 32 (bits (wordN b 2) 0 8)⟩

/-- TARGET, USAGE and LEN of an entry are legal (R408, R410 check 9). -/
def KeyEntry.legal (e : KeyEntry) : Bool :=
  match e.target with
  | 1 | 2 => e.usage == 0 && e.len == 32
  | 3 => e.usage == 0 && e.len == 48
  | 4 => (e.usage == 1 && e.len == 48) || ((e.usage == 2 || e.usage == 3) && e.len == 32)
  | 5 => (e.usage == 1 || e.usage == 2) && e.len == 96
  | _ => false

/-- The 160-byte item of a BLOB or VERIFY entry (R405, R408). -/
def keyEntryItem (e : KeyEntry) (gen : Nat) (s : State) : List Byte :=
  let hdr := leBytes 4 0x314C424B ++ leBytes 4 ((if e.target == 4 then 1 else 2) + e.usage * 2 ^ 8 + e.len * 2 ^ 16) ++ leBytes 4 e.keyId ++ leBytes 4 gen
  slice (hdr ++ (if e.target == 4 then kwpWrap (kek s) (hdr ++ e.key) else e.key ++ hmac384 (bundleMac s) (hdr ++ e.key))) 0 160

/-- The entries of a message, decrypted, if the tag verifies (R407). -/
def keyEntries (m : List Byte) (n : Nat) (s : State) : Option (List KeyEntry) :=
  let z := ecdhX s.sb.transport (beNat (slice m 80 48), beNat (slice m 128 48))
  let key := saltedKey (slice m 32 48) z (ascii "K24 key update v1") 32
  let ct := slice m 208 (128 * n)
  if gcmTag key (slice m 176 12) (slice m 0 192) ct == slice m 192 16 then
    some ((List.range n).map (keyEntry (gcmCrypt key (slice m 176 12) ct)))
  else none

/-- Checks 1 to 10 of a key-update message (R410): the status of the first that fails, or the entries. -/
def keyUpdateCheck (m : List Byte) (r : Req) (s : State) : Except Nat (List KeyEntry) :=
  let lc := lifecycle s
  let n := bits (wordN m 1) 8 8
  let len := r.w 3
  let enc := slice m len 97
  let ownerFree := lc == 3 && s.sb.ownerBlank
  match sbBlock r none m with
  | some e => .error e
  | none =>
    if !(lc == 3 || lc == 7) || unlocked s || (s.sb.owner.isEmpty && !ownerFree) then .error stREFUSED_STATE
    else if wordN m 0 != 0x3150554B || bits (wordN m 1) 0 8 != 1 || n < 1 || 8 < n || len != 304 + 128 * n then .error stBAD_LENGTH
    else if slice m 32 48 != idHash s then .error stAUTH_FAIL
    else if !ownerFree && keyHash enc != s.sb.owner then .error stAUTH_FAIL
    else if !sigOk enc (sha384 (slice m 0 (len - 96))) (slice m (len - 96) 48) (slice m (len - 48) 48) then .error stAUTH_FAIL
    else if bits (wordN m 1) 16 8 ≤ rd SB_KEY_STATUS.OTP_COUNTER s || 128 < bits (wordN m 1) 16 8 then .error stAUTH_FAIL
    else match keyEntries m n s with
    | none => .error stDIGEST_MISMATCH
    | some es =>
      if s.sb.ownerBlank && !es.any (fun e => e.target == 3 && e.key == keyHash enc) then .error stAUTH_FAIL
      else if !es.all KeyEntry.legal || wordN m 2 % 64 != 0 then .error stCONTRACT
      else if es.any (fun e => e.region.isSome) && !allFree s then .error stBAD_STATE
      else if es.any (fun e => match e.region with | some f => (copyLeft f s).isNone | none => false) ||
          wordN m 4 < 160 * (es.filter (fun e => e.region.isNone)).length then .error stNO_RESOURCE
      else .ok es

/-- The region of an entry is programmed and locked (R411, R457); the Bool answers whether the lock was accepted. -/
def programRegion (e : KeyEntry) (blows : Bool) (s : State) : Bool × State :=
  match e.region with
  | none => (true, s)
  | some f => match copyLeft f s with | some k => otpProgram (f + k) e.key blows s | none => (false, s)

/-- KEY_UPDATE (R410, R411): an accepted message advances the counter, and the rest follows; `blows` says that the fuses programmed read
back blown. -/
def keyUpdate (ch : Fin 6) (m : List Byte) (blows : Bool) (r : Req) (s : State) : State :=
  if s.sb.keyJob.isSome then reply ch r stBUSY [] s else
  let s := sbRead r none 128 s
  match keyUpdateCheck m r s with
  | .error e => reply ch r e [] (refuseOwner (e == stREFUSED_STATE && (lifecycle s == 3 || lifecycle s == 7) && !unlocked s) s)
  | .ok es =>
    let c := bits (wordN m 1) 16 8
    let s := raise 94 (otpAdvance c s)
    { s with sb := { s.sb with keyJob := some {
        ch := ch, seq := r.seq, counter := c, blows := blows, todo := es.filter (fun e => e.region.isSome),
        items := es.filter (fun e => e.region.isNone), out := wordN m 2 + 2 ^ 32 * bits (wordN m 3) 0 16, at_ := s.now } } }

/-- The KEY_UPDATE in progress ends with an answer. -/
def keyAnswer (j : KeyJob) (status : Nat) (payload : List Nat) (s : State) : State :=
  answer j.ch false 0x85 j.seq status payload { s with sb := { s.sb with keyJob := none } }

/-- A cycle of the KEY_UPDATE in progress (R411): the next region in entry order, which ends it where its lock is refused; after the last,
the output items, and OK. -/
def keyCycle (s : State) : State :=
  match s.sb.keyJob with
  | none => s
  | some j =>
    if s.pw.reset.isSome then s else
    let p := paced j.at_ (ms 600) s
    if !p.1 then p.2 else
    match j.todo with
    | e :: es =>
      let o := programRegion e j.blows p.2
      if o.1 then { o.2 with sb := { o.2.sb with keyJob := some { j with todo := es } } } else keyAnswer j stNO_RESOURCE [] o.2
    | [] =>
      let items := j.items.flatMap (fun e => keyEntryItem e j.counter p.2)
      let s := if items.isEmpty then p.2 else writeClear j.out items p.2
      keyAnswer j stOK [rd SB_KEY_STATUS.OTP_COUNTER s, items.length] s

/-- What the Strongbox does in a cycle besides its commands: a KEY_UPDATE in progress, the check of a loaded key, a reset that is due. -/
def sbCycle (s : State) : State := resetCycle (checkCycle (keyCycle s))

/-- KEY_LOAD (R406, R422). -/
def keyLoad (ch : Fin 6) (block : List Byte) (r : Req) (s : State) : State :=
  let s := sbRead r (some 160) 0 s
  match sbBlock r (some 160) block with
  | some e => reply ch r e [] s
  | none =>
    match keyItem block s with
    | none => reply ch r stAUTH_FAIL [] s
    | some x =>
      match loadItem x s with
      | (some i, t) => reply ch r stOK [i] { t with sb := { t.sb with keyCheck := true } }
      | (none, t) => reply ch r stNO_RESOURCE [] t

/-- BOUNCE_KEY (R412). -/
def bounceKey (ch : Fin 6) (r : Req) (s : State) : State :=
  match ctxOf (bits (r.w 1) 0 4) with
  | none => reply ch r stCONTRACT [] s
  | some n =>
    if !ctxLive n s || !rdB (GL_CTX_STATUS.CONFIDENTIAL (cid n)) s || (cx n s).bounce.keySent then reply ch r stBAD_STATE [] s
    else match workKey 1 2 (r.w 2) s with
    | none => reply ch r stNO_RESOURCE [] s
    | some k =>
      let s := writeClear (r.addr 3) (kwpWrap k (cx n s).bounce.key) s
      reply ch r stOK [] (modCx n (fun c => { c with bounce := { c.bounce with keySent := true } }) s)

/-- A processor can act on the reins: the Coachman while it runs, the Strongbox while its domain is on. -/
def procRuns (who : Proc) (s : State) : Bool := match who with | .coachman => cmUp s | .strongbox => domOn 21 s
/-- The view of a processor on the digest engine. -/
def procView : Proc → Fin 3
  | .coachman => 1 | .strongbox => 2

/-- A claim of a rein (R386); rein DIGEST is the ownership of the digest engine (R427). -/
def reinClaim (who : Proc) (j : Nat) (s : State) : State :=
  if j == 6 then dgClaim (procView who) s
  else
    let h := reinHolder j s
    match who with
    | .strongbox => reinSet j 2 s
    | .coachman => if h == 0 && !List.contains [0, 1, 7] j then reinSet j 1 s else s

/-- The holder frees a rein (R386). -/
def reinRelease (who : Proc) (j : Nat) (s : State) : State :=
  if j == 6 then (if dgOwns (procView who) s then dgRelease (procView who) s else s)
  else if reinHolder j s == procCode who then reinSet j 0 s else s

/-- The Strongbox's view (R387), without SEQ. -/
def sbView (s : State) : Nat :=
  lifecycle s + 32 * b2n (confidential s) + 64 * b2n (unlocked s) + 128 * b2n s.pins.tandem + 256 * ((List.range 8).map (fun j => reinHolder j s * 4 ^ j)).sum

/-- The units that are confirmed together with a unit: 0 and 5 where they were activated together (R473). -/
def confirmSet (u : Nat) (s : State) : List Nat := if (u == 0 || u == 5) && joint s then [0, 5] else [u]

/-- A unit is confirmed, and the one that was activated with it (R473, R476). -/
def confirmUnit (u : Nat) (s : State) : State :=
  dirWrite (each (confirmSet u s) (fun v t =>
    let t := { t with sb := { t.sb with trialAt := if h : v < 6 then t.sb.trialAt.set v none else t.sb.trialAt } }
    dirRecord v (dirActive v t) 0 (dirInactive v t) t) s)

/-- A unit is in TRIAL and its time has not run out (R476, R477). -/
def inTrial (u : Nat) (s : State) : Bool := dirState u s == 2 && !rdB (SB_UPD_STATE.EXPIRED u) s

/-- A unit may be confirmed: it is in TRIAL in its time, and so is the unit that was activated with it (R473, R476). -/
def confirmable (u : Nat) (s : State) : Bool := inTrial u s && (confirmSet u s).all (fun v => inTrial v s)

/-- The Strongbox's own conditions (R476). -/
def sbHealthy (s : State) : Bool :=
  rd SB_STATUS.STAGE s == 10 && !rdB SB_BOOT.SETTINGS_DEFAULT s && 1000 ≤ s.sb.hbClean && s.sb.bundleWhole

/-- The Strongbox confirms its own units when their conditions are met (R476). -/
def sbConfirm (s : State) : State := if sbHealthy s then each [0, 1, 5] (fun u t => if confirmable u t then confirmUnit u t else t) s else s

/-- HEARTBEAT_SEND (R387): at the earliest after the 0.97 ms of a fast timer. -/
def heartbeatSend (s : State) : State :=
  if !sbUp s || !cmUp s || s.sb.hbSent.isSome || (s.sb.hbNum != 0 && s.now < s.sb.hbAt + us 970) then s else
  let n := s.sb.hbNum + 1
  let v := sbView s + 2 ^ 24 * (n % 256)
  emit (.heartbeat v) (inc SB_HB.COUNT { s with sb := { s.sb with hbNum := n, hbAt := s.now, hbSent := some (v, s.now), hbVoid := false } })

/-- A match, or a void comparison, of a heartbeat that was answered in time. -/
def heartbeatGood (void : Bool) (s : State) : State :=
  sbConfirm { s with sb := { s.sb with hbBad := s.sb.hbBad && void, hbClean := s.sb.hbClean + 1 } }

/-- A non-void mismatch (R388): the second in a row, whatever void comparisons and misses lie between, raises REINS_MISMATCH. -/
def heartbeatBad (sent view : Nat) (s : State) : State :=
  let d := sent ^^^ view
  let again := s.sb.hbBad
  let s := wrs [(SB_HB.LAST_LC, b2n (bits d 0 5 != 0)), (SB_HB.LAST_MODE, b2n (bits d 5 3 != 0)), (SB_HB.LAST_REINS, b2n (bits d 8 16 != 0))] (inc SB_HB.MISMATCHES s)
  let s := { s with sb := { s.sb with hbBad := true, hbClean := 0 } }
  if again then securityFault 0x40 (raise 91 s) else s

/-- HEARTBEAT_ANSWER (R388). -/
def heartbeatAnswer (view : Nat) (s : State) : State :=
  match s.sb.hbSent with
  | none => s
  | some (v, t) =>
    if !cmUp s || t + us 200 < s.now then s else
    let s := wr SB_HB.MISSES 0 { s with sb := { s.sb with hbSent := none } }
    if s.sb.hbVoid || sbView s != v % 2 ^ 24 then heartbeatGood true s
    else if view == v then heartbeatGood false s
    else heartbeatBad v view s

/-- HEARTBEAT_MISS (R389): no miss while the Coachman is in RESET or DEAD. -/
def heartbeatMiss (s : State) : State :=
  match s.sb.hbSent with
  | none => s
  | some (_, t) =>
    if s.now < t + us 200 then s else
    let s := { s with sb := { s.sb with hbSent := none } }
    if !cmUp s then s else
    raise 92 (wr SB_HB.MISSES (min 3 (rd SB_HB.MISSES s + 1)) { s with sb := { s.sb with hbClean := 0 } })

/-- SB_IDENTIFY (R390). -/
def execSbIdentify (ch : Chan) (s : State) : Host.Outcome State Fault Refusal := .next (serveSb ch [2] 0x80 [0] (sbIdentify ch) s)
/-- SB_CHALLENGE (R390). -/
def execSbChallenge (ch : Chan) (s : State) : Host.Outcome State Fault Refusal := .next (serveSb ch [4] 0x81 [0] (sbChallenge ch) s)
/-- LC_ADVANCE (R381, R390). -/
def execLcAdvance (ch : Chan) (block : BlockRead) (blows : Bool) (s : State) : Host.Outcome State Fault Refusal :=
  .next (serveSb ch [4] 0x82 [7, 1] (lcAdvance ch block blows) s)
/-- DEBUG_UNLOCK (R382). -/
def execDebugUnlock (ch : Chan) (block : BlockRead) (s : State) : Host.Outcome State Fault Refusal :=
  .next (serveSb ch [4] 0x83 [7] (debugUnlock ch block) s)
/-- SB_ATTEST (R415). The block that it reads is its operand. -/
def execSbAttest (ch : Chan) (block : BlockRead) (s : State) : Host.Outcome State Fault Refusal :=
  .next (serveSb ch [2] 0x84 [7] (sbAttest ch block) s)
/-- KEY_UPDATE (R410, R411). -/
def execKeyUpdate (ch : Chan) (block : BlockRead) (blows : Bool) (s : State) : Host.Outcome State Fault Refusal :=
  .next (serveSb ch [4] 0x85 [7] (keyUpdate ch block blows) s)
/-- KEY_LOAD (R406, R422). -/
def execKeyLoad (ch : Chan) (block : BlockRead) (s : State) : Host.Outcome State Fault Refusal :=
  .next (serveSb ch [4] 0x86 [7] (keyLoad ch block) s)
/-- BOUNCE_KEY (R412). -/
def execBounceKey (ch : Chan) (s : State) : Host.Outcome State Fault Refusal := .next (serveSb ch [4] 0x87 [4] (bounceKey ch) s)
/-- REIN_CLAIM (R386). -/
def execReinClaim (who : Proc) (rein : Fin 8) (s : State) : Host.Outcome State Fault Refusal :=
  .next (if procRuns who s then reinClaim who rein.val s else s)
/-- REIN_RELEASE (R386). -/
def execReinRelease (who : Proc) (rein : Fin 8) (s : State) : Host.Outcome State Fault Refusal :=
  .next (if procRuns who s then reinRelease who rein.val s else s)
/-- HEARTBEAT_SEND (R387). -/
def execHeartbeatSend (s : State) : Host.Outcome State Fault Refusal := .next (heartbeatSend s)
/-- HEARTBEAT_ANSWER (R388). -/
def execHeartbeatAnswer (view : HbView) (s : State) : Host.Outcome State Fault Refusal := .next (heartbeatAnswer (view.words.headD 0) s)
/-- HEARTBEAT_MISS (R389). -/
def execHeartbeatMiss (s : State) : Host.Outcome State Fault Refusal := .next (heartbeatMiss s)

end Sys2Proof.Machine
end

