-- ==== Sys2Proof/Machine/Digest.lean ====
section
/-! DEFINITION. The digest engine's commands (R427 to R435, R444). -/

namespace Sys2Proof.Machine

/-- A user reaches the engine through its view: the host through its window, a processor while it runs, and all only while PD_SB is on (R426). -/
def dgAccess (user : Target) (ofs : Nat) (f : State → State) (s : State) : State :=
  match user with
  | .host => hostTo (0x900000 + ofs) false f s
  | .coachman => if cmUp s && domOpen 21 s then f s else s
  | .strongbox => if domOpen 21 s then f s else s

/-- The key of a message: the key registers, or, for the Strongbox, one of the two ladder keys that it takes for such messages, the bundle MAC key or the directory
key (R400, R432); which of them is free (log 26). -/
def dgKey (v : Fin 3) (s : State) : List Byte × State :=
  if v.val == 2 && rdB (DG_CFG.KEY_SRC v) s then (if (free s).1 % 2 == 1 then bundleMac s else dirKey s, (free s).2)
  else (slice (dgMsg v s).key 0 (rd (DG_CFG.KEY_LEN v) s), s)

/-- The result of an ended message (R433): the words beyond the digest read zero; a message with LOST set has none (R429). -/
def dgFinish (v : Fin 3) (s : State) : State :=
  if rdB (DG_STATUS.LOST v) s then dgEnd v s
  else
    let k := dgKey v s
    let m := (dgMsg v s).bytes
    let alg := rd (DG_CFG.ALG v) s
    let d := if rdB (DG_CFG.HMAC v) s then hmacAlg alg k.1 m else digestAlg alg m
    let s := each (List.range 16) (fun w => wr (DG_RESULT.RESULT v w) (wordN d w)) (dgEnd v k.2)
    raise 88 (wr (DG_STATUS.DONE v) 1 s)

/-- DG_CLAIM (R427, R429). -/
def execDgClaim (user : Target) (s : State) : Host.Outcome State Fault Refusal := .next (dgAccess user 0 (dgClaim (dgViewOf user)) s)

/-- DG_RELEASE (R427): from the owner's view only. -/
def execDgRelease (user : Target) (s : State) : Host.Outcome State Fault Refusal :=
  .next (dgAccess user 0 (fun t => if dgOwns (dgViewOf user) t then dgRelease (dgViewOf user) t else dgRefuseWrite t) s)

/-- DG_START (R430). -/
def execDgStart (user : Target) (s : State) : Host.Outcome State Fault Refusal :=
  .next (dgAccess user 8 (dgWrite (dgViewOf user) false (dgStart (dgViewOf user))) s)

/-- DG_ABORT (R435). -/
def execDgAbort (user : Target) (s : State) : Host.Outcome State Fault Refusal :=
  .next (dgAccess user 8 (dgWrite (dgViewOf user) false (fun t => dgNoResult (dgViewOf user) (dgEnd (dgViewOf user) t))) s)

/-- MEM_GO; a chunk that begins in DRAM is read through the memory ports, with CTX 0 and in CLEAR (R209, R431). -/
def dgMemRead (v : Fin 3) (s : State) : State :=
  let t := dgMemGo v s
  match (dgMsg v s).chunk, (dgMsg v t).chunk with
  | none, some (a, len, 0, _) => ownReadFor (.chunk v) 0 0 15 a len 0 t
  | _, _ => t

/-- DG_MEM_GO (R431). -/
def execDgMemGo (user : Target) (s : State) : Host.Outcome State Fault Refusal :=
  .next (dgAccess user 8 (dgWrite (dgViewOf user) true (dgMemRead (dgViewOf user))) s)

/-- DG_DATA_WRITE (R430). -/
def execDgDataWrite (user : Target) (data : Word) (s : State) : Host.Outcome State Fault Refusal :=
  .next (dgAccess user 0x10 (dgWrite (dgViewOf user) true (dgData (dgViewOf user) data.toNat)) s)

/-- DG_LAST_WRITE (R430). -/
def execDgLastWrite (user : Target) (data : Word) (s : State) : Host.Outcome State Fault Refusal :=
  .next (dgAccess user 0x14 (dgWrite (dgViewOf user) true (dgLast (dgViewOf user) data.toNat)) s)

/-- What a read of a result word returns (R426, R433). -/
def dgResult (v : Fin 3) (w : Nat) (s : State) : Nat := if dgOwns v s && rdB (DG_STATUS.DONE v) s then rd (DG_RESULT.RESULT v w) s else 0

/-- What the read does: EARLY_READ in the owner's view while DONE is 0 (R433). -/
def dgEarly (v : Fin 3) (s : State) : State := if dgOwns v s && !rdB (DG_STATUS.DONE v) s then markBit (DG_STATUS.EARLY_READ v) s else s

/-- DG_RESULT_READ (R433). -/
def execDgResultRead (user : Target) (w : Fin 16) (s : State) : Host.Outcome State Fault Refusal :=
  .next (match user with
    | .host => hostFrom (0x900100 + 4 * w.val) false (dgResult 0 w.val) (dgEarly 0) s
    | u => dgAccess u 0x100 (dgEarly (dgViewOf u)) s)

/-- The owner's view, if a user owns the engine. -/
def dgOwnerView (s : State) : Option (Fin 3) := if h : 1 ≤ dgOwner s ∧ dgOwner s ≤ 3 then some ⟨dgOwner s - 1, by omega⟩ else none

/-- Reads of a view's chunk are still to be issued or answered (R431). -/
def dgReading (v : Fin 3) (s : State) : Bool := s.mp.own.any (fun o => decide (o.dest = .chunk v)) || s.mp.txs.any (fun t => decide (t.dest = .chunk v))

/-- DG_CHUNK_DONE (R431, R435): the bytes of the chunk, once each of its reads is answered, or an error response of DRAM, which its read has charged to the block
(R225). -/
def execDgChunkDone (data : List Byte) (err : Bool) (s : State) : Host.Outcome State Fault Refusal :=
  .next (match dgOwnerView s with
    | none => s
    | some v =>
      match (dgMsg v s).chunk with
      | none => s
      | some (_, len, sel, final) =>
        if dgReading v s then s
        else if (err || (dgMsg v s).memErr) && sel == 0 then markBit (DG_STATUS.MEM_ERR v) (dgEnd v s)
        else
          let s := wr (DG_STATUS.MEM_RUN v) 0 s
          modDg v (fun m => { m with bytes := m.bytes ++ slice data 0 len, chunk := none, ended := final }) s)

/-- DG_DONE (R433). -/
def execDgDone (s : State) : Host.Outcome State Fault Refusal :=
  .next (match dgOwnerView s with
    | none => s
    | some v => if rdB (DG_STATUS.ACTIVE v) s && (dgMsg v s).ended then dgFinish v s else s)

/-- DG_EXPIRE (R428): 10 ms without a write. -/
def execDgExpire (s : State) : Host.Outcome State Fault Refusal :=
  .next (match dgOwnerView s with
    | none => s
    | some v => if v.val != 2 && s.dg.lastWrite + ms 10 ≤ s.now then markBit (DG_STATUS.EXPIRED v) (dgRelease v s) else s)

/-- DG_CNT_CLR (R444). -/
def execDgCntClr (user : Target) (s : State) : Host.Outcome State Fault Refusal :=
  .next (dgAccess user 0xC4 (fun t =>
    if dgOwns (dgViewOf user) t then each (List.range 3) (fun v => cntClr [DG_REFUSED.CLAIMS v, DG_REFUSED.WRITES v, DG_REFUSED.SUSPENDS v]) t else dgRefuseWrite t) s)

end Sys2Proof.Machine
end

