-- ==== Sys2Proof/Machine/Dump.lean ====
section
/-! DEFINITION. The dump of a BLOCK escalation and the resets that end it (R499 to R506). -/

namespace Sys2Proof.Machine

/-- Bytes that the dump region holds for sections and header (R503, R510). -/
def dumpRoom (s : State) : Nat := rd PM_DUMP_SIZE.BYTES s / 4096 * 4096 - 256
/-- The number of the dump in progress: those written since PD_AON powered up, with it; the count saturates (R16, R511). -/
def dumpSeq (s : State) : Nat := min (rd PM_DUMP_INFO.SEQ s + 1) 0xFFFF
/-- The base of the dump region. -/
def dumpBase (s : State) : Nat := rd PM_DUMP_BASE.ADDR s / 4096 * 4096

/-- PM_FLT_LAST takes the fault that reached BLOCK, and the block reset begins (R499 steps 4 and 5); the fourth reset within 60 s is level
POWER instead (R493). -/
def dumpEnd (b : BlockEsc) (s : State) : State :=
  faultReset 3 (fltLast false b.code (if rd PM_FLT_RESETS.RECENT s == 3 then 5 else b.level) b.ctx b.unit s)

/-- BLOCK_DRAIN_DONE (R499 step 2, R501): nothing is outstanding, or 50 µs have passed and what is left is abandoned. Where no dump
is written the reset follows. -/
def execBlockDrainDone (s : State) : Host.Outcome State Fault Refusal :=
  .next (match s.flt.block with
    | none => s
    | some b =>
      let sent := s.mp.inits.filter (fun t => t.ctx != 0)
      let left := s.mp.txs.any (fun t => t.ctx != 0 && !t.abandoned) || !sent.isEmpty
      if b.step != 1 || (left && s.now < b.start + us 50) then s else
      let s := abandon (fun t => t.ctx != 0) s
      let s := add MP_FENCE.ABANDONED sent.length { s with mp := { s.mp with inits := s.mp.inits.filter (fun t => t.ctx == 0) } }
      if rd PM_DUMP_SIZE.BYTES s < 0x10000 then dumpEnd b s
      else if rdB PM_DUMP_INFO.VALID s then dumpEnd b (inc PM_DUMP_INFO.SKIPPED s)
      else { s with flt := { s.flt with block := some { b with step := 2 } } })

/-- Offsets of the registers of a window's rows whose domain is on. -/
def dumpOffsets (s : State) : List Nat :=
  ((regsGl ++ regsTt ++ regsCa ++ regsGg ++ regsMp ++ regsTl ++ regsEv ++ regsSb ++ regsOtp).flatMap (fun r =>
    (List.range r.count).map (fun i => r.base + r.stride * i))).filter (fun a =>
      a != 0x700080 && a != 0x701080 && !(0xA01000 ≤ a && a < 0xA03000) && (match windowDom a with | some d => domOn d s | none => false))

/-- The section of fault records (R503). -/
def dumpFaults (s : State) : List Byte :=
  ((List.range 21).flatMap (fun u => (List.range 8).flatMap (fun i => leBytes 4 (hostRead (0x800 + 0x20 * u + 4 * i) s)))) ++
    leBytes 4 (hostRead 0xAC0 s) ++ List.replicate 28 0

/-- The sections of a dump, by type (R503, R504); the Coachman's SRAM holds firmware data that the spec does not lay out, a free value. -/
def dumpSections (b : BlockEsc) (s : State) : List (Nat × List Byte) × State :=
  let base := [(1, dumpFaults s), (2, (dumpOffsets s).flatMap (fun a => leBytes 4 a ++ leBytes 4 (hostRead a s))), (3, s.sb.log.flatten)]
  if confidential s then (base, s) else
  let f := freeBytes 0x100000 s
  let coach := if h : b.unit < 16 then
      let x := co ⟨b.unit, h⟩ s
      [(5, ((List.finRange 5).flatMap (fun k => SMap.getList zeroByte x.sram[k] 0 0x200000)) ++ x.tables)]
    else []
  (base ++ [(4, f.1)] ++ coach, f.2)

/-- Cut sections at the room that is left, each with its entry of the directory; nothing follows a cut one (R502, R503). -/
def dumpCut : Nat → List (Nat × List Byte) → List (Nat × List Byte)
  | _, [] => []
  | room, (t, d) :: r => if d.length + 16 ≤ room then (t, d) :: dumpCut (room - 16 - d.length) r else if room < 16 then [] else [(t, d.take (room - 16))]

/-- The dump up to its trailer (R502). -/
def dumpBytes (b : BlockEsc) (part : Bool) (s : State) : (List Byte × Bool) × State :=
  let x := dumpSections b s
  let cut := dumpCut (dumpRoom s - 64) x.1
  let trunc := cut != x.1
  let body := cut.flatMap (·.2)
  let dir := (cut.foldl (fun (a : List Byte × Nat) e => (a.1 ++ wordsBytes [e.1, a.2, e.2.length, 0], a.2 + e.2.length)) ([], 64 + 16 * cut.length)).1
  let flags := 1 + b.writer * 2 ^ 8 + rd GL_STATUS.CONFIDENTIAL s * 2 ^ 9 + b2n part * 2 ^ 10 + b2n trunc * 2 ^ 11 + rd GL_STATUS.DEBUG_UNLOCKED s * 2 ^ 12
  let len := 64 + 16 * cut.length + body.length
  let hdr := wordsBytes [0x31504D44, flags, dumpSeq s, b.code + b.level * 2 ^ 8 + b.ctx * 2 ^ 12 + b.unit * 2 ^ 16,
    low32 b.line, b.line / 2 ^ 32, len, cut.length] ++ slice s.sb.bootId 0 16 ++ List.replicate 16 0
  ((hdr ++ dir ++ body, trunc), x.2)

/-- A write of the dump writer, which no limit meets (R209, R501). -/
def dumpWrite (a : Nat) (b : List Byte) (s : State) : State := ownWrite 3 0 15 a 0xFF 0 b s

/-- DUMP_DONE (R499 step 3, R501 to R504): `errors` says that a write received an error response (R506). -/
def execDumpDone (obs : DumpObs) (s : State) : Host.Outcome State Fault Refusal :=
  .next (match s.flt.block with
    | none => s
    | some b =>
      if b.step != 2 then s else
      let x := dumpBytes b obs.errors s
      dumpWrite (dumpBase s) x.1.1 { x.2 with flt := { x.2.flt with block := some { b with step := 3, partial_ := obs.errors, truncated := x.1.2, dump := x.1.1 } } })

/-- A dump of which `written` bytes stand in DRAM at the bound: its header, which the writer ends with, gives their number (R502, R505). -/
def dumpPartial (written : Nat) (d : List Byte) : List Byte :=
  let n := max 64 (min written d.length)
  slice d 0 24 ++ leBytes 4 n ++ slice d 28 (n - 28)

/-- DUMP_TIMEOUT (R506): the dump is cut at the 100 ms bound, with `written` bytes. -/
def execDumpTimeout (written : Nat) (s : State) : Host.Outcome State Fault Refusal :=
  .next (match s.flt.block with
    | none => s
    | some b =>
      if b.step != 2 || s.now < b.start + us 50 + ms 100 then s else
      let x := dumpBytes b true s
      let d := dumpPartial written x.1.1
      dumpWrite (dumpBase s) d { x.2 with flt := { x.2.flt with block := some { b with step := 3, partial_ := true, truncated := x.1.2, dump := d } } })

/-- The trailer (R505). -/
def dumpTrailer (seq len : Nat) (dump : List Byte) (s : State) : List Byte × State :=
  let t := wordsBytes [0x31475344, seq, len, 0] ++ sha384 (slice dump 0 len) ++ slice (keyHash (ecEncode (ecPublic s.sb.signKey))) 0 16
  let f := free s
  let g := ecdsaSign s.sb.signKey (sha384 t) (f.1 % (p384N - 1) + 1)
  (t ++ leBytes 48 g.1 ++ leBytes 48 g.2 ++ List.replicate 80 0, f.2)

/-- The trailer stands at DUMP_LEN (R505); its first beat holds the dump's last bytes too, since every write is of whole beats (R204). -/
def trailerWrite (b : BlockEsc) (t : List Byte) (s : State) : State :=
  let n := b.dump.length / 64 * 64
  dumpWrite (dumpBase s + n) (b.dump.drop n ++ t) s

/-- DUMP_TRAILER_DONE (R499 steps 4 and 5, R505): `dump` is the dump as read back from DRAM. -/
def execDumpTrailerDone (dump : List Byte) (s : State) : Host.Outcome State Fault Refusal :=
  .next (match s.flt.block with
    | none => s
    | some b =>
      if b.step != 3 then s else
      let len := b.dump.length
      let seq := dumpSeq s
      let t := dumpTrailer seq len dump s
      let s := trailerWrite b t.1 t.2
      let s := markBit PM_DUMP_INFO.VALID s
      let s := wrs [(PM_DUMP_INFO.PARTIAL, b2n b.partial_), (PM_DUMP_INFO.TRUNCATED, b2n b.truncated), (PM_DUMP_INFO.WRITER, b.writer),
        (PM_DUMP_INFO.CONFIDENTIAL, rd GL_STATUS.CONFIDENTIAL s), (PM_DUMP_INFO.SEQ, seq), (PM_DUMP_LEN.BYTES, len + 256)] s
      dumpEnd b { s with flt := { s.flt with dumpNew := true, dumpCode := b.code } })

end Sys2Proof.Machine
end

