-- ==== Sys2Proof/Machine/Jobs.lean ====
section
/-! DEFINITION. The commands of the Coachman firmware that load waybills and weights, run reference passes, and start, stop and
abort jobs (R155, R169, R183, R243, R250, R336, R338 to R340). -/

namespace Sys2Proof.Machine

/-- Contexts with a resident waybill, but for one (R169). -/
def waybills (n : Ctx) (s : State) : List Ctx := allCtx.filter (fun m => m != n && rdB (GL_WB_STATUS.LOADED (cid m)) s)

/-- Four rows at a line rate, in units of 1 / LR ARITH_CLK cycles: a row lasts 256 lines at 1.8 GHz (R183). -/
def fourRows : Nat := 4 * 460800000000

/-- The slots of the sheet programs over four rows at a line rate: places within the four rows, and lengths (R155, R183). -/
def slotSpans (img : List Byte) (lr : Nat) : List (Nat × Nat) :=
  (List.range 4).flatMap (fun q => (List.range (nSlots img)).filterMap (fun k =>
    let x := slotEnt img k
    if x.row == q % max 1 (wbPeriod img) && sheetSlot img k then some ((q * 460800000000 + x.start * lr) % fourRows, x.len * lr) else none))

/-- Two spans overlap on the circle of four rows. -/
def spansMeet (a b : Nat × Nat) : Bool := (b.1 + fourRows - a.1) % fourRows < a.2 || (a.1 + fourRows - b.1) % fourRows < b.2

/-- Some two spans of a list overlap. -/
def selfMeets : List (Nat × Nat) → Bool
  | [] => false
  | a :: r => r.any (spansMeet a) || selfMeets r

/-- The longest stretch of spans that follow one another without a gap. -/
def longestRun (l : List (Nat × Nat)) : Nat :=
  let l2 := sortBy (fun a b => a.1 ≤ b.1) (l ++ l.map (fun x => (x.1 + fourRows, x.2)))
  (l2.foldl (fun (a : Nat × Nat × Nat) x =>
    let (b, e, best) := a
    if x.1 ≤ e then (b, max e (x.1 + x.2), max best (max e (x.1 + x.2) - b)) else (x.1, x.1 + x.2, max best x.2)) (0, 0, 0)).2.2

/-- Check 8 of R169: no two slots overlap, and no context waits longer than 32,768 cycles for slots of the others (R155, R183). -/
def slotsOk (img : List Byte) (others : List (List Byte)) : Bool :=
  let pair (o : List Byte) : Bool :=
    let lr := min (wbLrMax img) (wbLrMax o)
    !(slotSpans img lr).any (fun a => (slotSpans o lr).any (spansMeet a))
  let all := img :: others
  let lr := all.foldl (fun m o => min m (wbLrMax o)) 160000
  !selfMeets (slotSpans img (wbLrMax img)) && others.all pair &&
  (List.range all.length).all (fun k => longestRun ((all.eraseIdx k).flatMap (fun o => slotSpans o lr)) ≤ 32768 * lr)

/-- The switch time of R250 in µs, from an outgoing to an incoming waybill. -/
def switchUs (o i : List Byte) (bound : Nat) : Nat :=
  let res := wbResPt o + wbResPt i
  if res == 0 then 261 else
  3 + 1 + ceilDiv (16 * (wbLiveMax o + 4)) res + 8 + 1 + ceilDiv (16 * (wbLiveMax i + 4)) res + ceilDiv bound 1000

/-- Every pair of members of a slice group switches within 260 µs in both directions (R250). -/
def switchOk (n : Ctx) (img : List Byte) (s : State) : Bool :=
  let imgs := ((liveMembers (partMask n s) s).filter (fun m => m == n || rdB (GL_WB_STATUS.LOADED (cid m)) s)).map (fun m => if m == n then img else (cx m s).image)
  (List.range imgs.length).all (fun i => (List.range imgs.length).all (fun j =>
    i == j || switchUs (imgs.getD i []) (imgs.getD j []) (rd MP_LAT_BOUND.BOUND_NS s) ≤ 260))

/-- The Gig pages of a waybill (R149, R243): the weights and the biases of its layers as far as they reach, and a table set (log 30). -/
def wbPages (img : List Byte) : Nat :=
  let ends := ((List.range (wbNStage img)).filter (fun k => stKind img k == 2)).flatMap (fun k => (List.range (nLayers img k)).flatMap (fun j =>
    let l := gigLayer img k j
    [if l.func == 0 then l.waddr + l.kh * l.kw * (l.cin / max 1 l.g) * l.cout * (if l.inTy == 6 then 2 else 1) else 0,
      if l.func == 0 || l.func == 3 then (gigPost img l).param % 0x400000 + 8 * (if l.func == 0 then l.cout else l.cin) else 0]))
  if ends.isEmpty then 0 else ceilDiv (ends.foldl max 0 + 1024) 65536

/-- Pages of the Gig SRAM with an owner. -/
def pagesOf (id : Nat) (s : State) : List (Fin 64) := (List.finRange 64).filter (fun i => s.gig.pages[i] == id)

/-- The signature of a waybill image verifies under its KEY_ID (R168). -/
def wbSignatureOk (img : List Byte) (s : State) : Bool :=
  let o := wordN img 2 - 128
  match workKey 2 1 (wordAt img o) s with
  | none => false
  | some k => sigOk (4#8 :: k) (sha384 (wbSigned img)) (slice img (o + 16) 48) (slice img (o + 64) 48)

/-- The checks of a waybill from the second of R169 on, in their order, with those of R243 and R250. -/
def waybillFail (n : Ctx) (img : List Byte) (s : State) : Option Nat :=
  let others := (waybills n s).map (fun m => (cx m s).image)
  let limit := if tandemOn s then 4448 else 4480
  firstFail [(!List.contains [1, 4] (cxState n s), stBAD_STATE),
    (wordN img 0 != 0x314C4257 || wordN img 1 != 1 + 40 * 2 ^ 16 || wordN img 3 != 0x484D0024, stAUTH_FAIL),
    (!wbSignatureOk img s, stAUTH_FAIL),
    (!sectsOk img, stBAD_LENGTH),
    (wordN img 2 % 64 != 0 || !headerOk img (popcount 16 (partMask n s)) (cfgColumns (cx n s).cfg), stCONTRACT),
    (decide (wbLatNs img < rd MP_LAT_BOUND.BOUND_NS s), stCONTRACT),
    (decide (limit < wbResTotal img + (others.map wbResTotal).sum), stCONTRACT),
    (!slotsOk img others, stCONTRACT),
    (decide (216000 < wbSpanMax img) || decide (2048 < wbLiveMax img), stCONTRACT),
    (!switchOk n img s, stCONTRACT),
    (decide ((pagesOf 0 s).length + (pagesOf (cid n) s).length < wbPages img), stNO_RESOURCE)]

/-- The pages of a waybill are allocated (R243), beside those that the context has. -/
def takePages (n : Ctx) (k : Nat) (s : State) : State :=
  each ((pagesOf 0 s).take (k - (pagesOf (cid n) s).length)) (fun i t => { t with gig := { t.gig with pages := t.gig.pages.set i (cid n) } }) s

/-- A waybill is loaded (R20, R21, R169): its digest extends register 3, its pages and tables are in place, its coaches await releases, and
a stage with an error in a field raises DESC_FAULT. -/
def waybillLoad (n : Ctx) (img : List Byte) (d : Deferred) (s : State) : State :=
  let s := extendMR 3 2 (cid n) (sha384 (wbSigned img)) s
  let a := freeBytes 1024 s
  let s := modCx n (fun c => { c with image := img, tables := a.1, refDone := false }) (takePages n (wbPages img) a.2)
  let s := wrs [(GL_CTX_STATUS.STATE (cid n), 1), (GL_WB_STATUS.LOADED (cid n), 1), (GL_WB_STATUS.N_COACH (cid n), wbNCoach img),
    (GL_WB_STATUS.LAT_NS (cid n), wbLatNs img)] s
  let s := if resident n s then each ((coachesOf (partMask n s)).filter (fun c => coachState c s < 2 && domOn c.val s)) (fun c => coachTake c n) s else s
  let s := showGig s
  match (List.range (wbNStage img)).find? (fun k => !stageOk img k) with
  | none => endDeferred d stOK [] s
  | some k =>
    let c := (coachesOf (partMask n s)).head?.map (·.val) |>.getD 0
    raiseFault (if stKind img k == 2 then 16 else c) ⟨0x01, 1, cid n, c, k, 0⟩ s

/-- LOAD_WAYBILL: the block is read and checked (R169 check 1, R332, R333, R336). -/
def loadWaybill (ch : Fin 6) (block : List Byte) (n : Ctx) (r : Req) (s : State) : State :=
  if rdB SB_BOOT.GIG_UNAVAIL s then reply ch r stREFUSED_STATE [] s else
  let s := blockRead n r s
  match commandBlock n r (fun b => wordN b 2) block s with
  | .error e => reply ch r e [] s
  | .ok (img, s) => defer ch r (cid n) [] img s

/-- LOAD_WEIGHTS (R335, R336). -/
def loadWeights (ch : Fin 6) (n : Ctx) (r : Req) (s : State) : State :=
  match firstFail [(cxState n s == 1 && !rdB (GL_WB_STATUS.LOADED (cid n)) s, stBAD_STATE),
      (r.w 2 % 64 != 0 || decide (cfgSize (cx n s).cfg 4 < r.w 2 + r.w 3), stCONTRACT)] with
  | some e => reply ch r e [] s
  | none => ownReadFor (.measure (cid n)) 0 (cid n) 4 (cfgBase (cx n s).cfg 4 + r.w 2) (r.w 3) 0 (defer ch r (cid n) [r.w 2, r.w 3] [] s)

/-- Digest reads of a context are still to be issued or answered (R209). -/
def measuring (n : Ctx) (s : State) : Bool :=
  s.mp.own.any (fun o => decide (o.dest = .measure (cid n))) || s.mp.txs.any (fun t => decide (t.dest = .measure (cid n)) && !t.abandoned)

/-- The weights that the Gig layers read are in the context's pages: where the image holds them is Gobex's, so their bytes are
free values (R243, log 24). -/
def fillPages (n : Ctx) (s : State) : State :=
  each (pagesOf (cid n) s) (fun i t =>
    let v := freeBytes 65536 t
    { v.2 with gig := { v.2.gig with sram := SMap.setList zeroByte v.2.gig.sram (65536 * i.val) v.1 } }) s

/-- LOAD_WEIGHTS ends (R169, R336). -/
def weightsLoad (n : Ctx) (data : List Byte) (d : Deferred) (s : State) : State :=
  match firstFail [(!List.contains [1, 4] (cxState n s), stBAD_STATE), (sha384 data != wbWeightsDigest (cx n s).image, stDIGEST_MISMATCH)] with
  | some e => endDeferred d e [] s
  | none => endDeferred d stOK [] (wr (GL_CTX_STATUS.STATE (cid n)) 2 (fillPages n (extendMR 4 3 (cid n) (sha384 data) s)))

/-- New work of a member: it takes the coaches of a holder that has none and whose slice has no length, so that nothing else would end
it (R244, log 30). -/
def claimCoaches (n : Ctx) (s : State) : State :=
  match (liveMembers (partMask n s) s).find? (fun m => m != n && resident m s) with
  | some m => if hasWork m s || (cx m s).sliceLen != 0 then s else sliceEnd m s
  | none => s

/-- REF_PASS (R336, R375): the raster is read for its measurement; the pass starts once it has been. -/
def refPass (ch : Fin 6) (raster : List Byte) (n : Ctx) (r : Req) (s : State) : State :=
  let cfg := (cx n s).cfg
  if cfg.isEmpty || cfgVariable cfg || !wbRefProg (cx n s).image then reply ch r stBAD_STATE [] s else
  let len := cfgColumns cfg * ((cfgSheetLines cfg + 32) * 864)
  let s := modCx n (fun c => { c with refDone := false }) (defer ch r (cid n) [] (sha384 (slice raster 0 len)) s)
  ownReadFor (.measure (cid n)) 0 (cid n) 3 (cfgBase cfg 3) len 0 s

/-- A reference pass whose raster has been read extends register 5 and starts (R375). -/
def passBegin (d : Deferred) (s : State) : State :=
  match ctxOf d.ctx with
  | none => s
  | some n =>
    if (cx n s).refRun.isSome || measuring n s || !sbUp s then s
    else claimCoaches n (refStart n (extendMR 5 4 (cid n) d.data s))

/-- The reference passes that can start in a cycle. -/
def passCycle (s : State) : State := each (s.mb.deferred.filter (fun d => d.op == 0x17)) passBegin s

/-- Running jobs of other contexts. -/
def otherJobs (n : Ctx) (s : State) : List JobSt := (allCtx.filter (fun m => m != n && cxState m s == 3)).filterMap (fun m => (cx m s).job)

/-- A line lies on the release grid (R183). -/
def onGrid (n : Ctx) (j0 : Nat) (s : State) : Bool := j0 % 2 == 0 && (otherJobs n s).all (fun j => (j0 + 256 * j.j0 - j.j0) % 256 == 0)

/-- The next epoch line: the next scheduled one, or the last one and a sheet later (log 22). -/
def nextEpochLine (s : State) : Nat :=
  match s.tt.epochs.find? (fun e => ttLine s < e.1) with
  | some e => e.1
  | none => max (ttLine s + 1) (rd TT_EPOCH_LINE.LINE s + rd TT_SHEET_LEN.LINES s)

/-- J0 of a job in this block's numbering (R338): as given, or the first even line on the grid at or after the next epoch line. -/
def jobLine (n : Ctx) (r : Req) (s : State) : Nat :=
  if bit (r.w 1) 8 then (if tandemOn s then ownLine (r.addr 2) s else r.addr 2)
  else
    let e := nextEpochLine s
    match otherJobs n s with
    | [] => e + e % 2
    | j :: _ => e + (j.j0 + 256 * e - e) % 256

/-- The place of row 0 on the common origin of rows modulo 4 (R183). -/
def jobPhase (n : Ctx) (j0 : Nat) (s : State) : Nat :=
  match otherJobs n s with
  | [] => 0
  | j :: _ => (((j.phase : Int) + ((j0 : Int) - j.j0) / 256) % 4).toNat

/-- A row's slot of the outbound ring holds every summary (R348). -/
def ringOk (cfg : List Byte) : Bool :=
  let row := cfgColumns cfg * (256 + if cfgMapEn cfg then 2048 else 0)
  32 + cfgSumSlot cfg + 16 ≤ ceilDiv (32 + row + 16) 4096 * 4096

/-- The checks of START_JOB (R37, R183, R188, R285, R337, R338, R348). -/
def startFail (n : Ctx) (r : Req) (j0 : Nat) (s : State) : Option Nat :=
  let cfg := (cx n s).cfg
  let partners := (List.range 2).filter (fun k => cfgHasPartner cfg k) |>.map (cfgPartner cfg)
  firstFail [(cfg.isEmpty || (!cfgVariable cfg && !(cx n s).refDone), stBAD_STATE),
    (tandemOn s && (rd TL_STATUS.CHAIN s != 2 || !rdB TL_STATUS.SYNCED s || rd TT_MARK_CFG.SRC s == 1), stBAD_STATE),
    (decide (wbColumns (cx n s).image < cfgColumns cfg), stCONTRACT),
    (tandemOn s && partners.any (fun p => !s.tl.table.any (·.1 == p)), stCONTRACT),
    (decide (wbLrMax (cx n s).image < rd TT_RATE.LPS s), stCONTRACT),
    (rdB (GL_CTX_STATUS.CONFIDENTIAL (cid n)) s && !ringOk cfg, stCONTRACT),
    (bit (r.w 1) 8 && (!onGrid n j0 s || decide (j0 < ttLine s)), stCONTRACT)]

/-- A job starts (R238, R244, R338, R417). -/
def jobStart (n : Ctx) (j0 : Nat) (s : State) : State :=
  let tandem := tandemOn s
  let f := if tandem then free s else (0, s)
  let s := f.2
  let job : JobSt := {
    j0 := j0, phase := jobPhase n j0 s, tandem := tandem, running := true, covers := f.1 % 2 ^ 64, armRow := 0, relRow := 0, judged := 0, stopRow := none, fromRow := 0, rows := []}
  let s := ledgerStart n j0 s
  let s := wr (GL_CTX_STATUS.STATE (cid n)) 3 (modCx n (fun c => { c with job := some job, summaries := [] }) s)
  let s := { s with tl := { s.tl with
    syncDue := s.tl.syncDue || (tandem && linkPos s == 0)
    retired := s.tl.retired.filter (· != cid n)
    arrived := s.tl.arrived.filter (fun a => a.1 != cid n) } }
  claimCoaches n (showRateMax (armRows n (progStart n 0 s)))

/-- START_JOB (R338). -/
def startJob (ch : Fin 6) (n : Ctx) (r : Req) (s : State) : State :=
  let j0 := jobLine n r s
  match startFail n r j0 s with
  | some e => reply ch r e [] s
  | none => reply ch r stOK [] (jobStart n j0 s)

/-- Disarm the slots of rows that a job does not release any more. -/
def disarmFrom (n : Ctx) (row : Nat) (s : State) : State :=
  match (cx n s).job with
  | none => s
  | some j => each (List.range (j.armRow - row)) (fun k t => disarmRow 2 n (row + k) (disarmRow 1 n (row + k) t)) s

/-- No row from this one on is released (R339). -/
def stopAt (n : Ctx) (row : Nat) (s : State) : State :=
  let s := disarmFrom n row s
  modCx n (fun c => { c with job := c.job.map (fun j => { j with stopRow := some row, armRow := min j.armRow row }) }) s

/-- The row after the last row of the current sheet (R339). -/
def sheetStop (j : JobSt) (cfg : List Byte) (s : State) : Nat :=
  let stop := match s.tt.epochs.find? (fun e => ttLine s < e.1) with | some e => e.1 | none => rd TT_EPOCH_LINE.LINE s + cfgSheetLines cfg
  max j.relRow (ceilDiv (stop - j.j0) 256)

/-- STOP_JOB (R339). -/
def stopJob (ch : Fin 6) (n : Ctx) (r : Req) (s : State) : State :=
  match (cx n s).job with
  | none => reply ch r stBAD_STATE [] s
  | some j => stopAt n (if bit (r.w 2) 0 || ttState s == 3 then j.relRow else sheetStop j (cx n s).cfg s) (defer ch r (cid n) [] [] s)

/-- A stopped job's context has released its last row, and every released row is posted or discarded (R339). -/
def stopDone (n : Ctx) (s : State) : Bool :=
  match (cx n s).job with
  | none => false
  | some j => (match j.stopRow with | some r => decide (r ≤ j.relRow) | none => false) && j.rows.all (fun r => r.posted || r.dropped)

/-- A job ends by STOP (R238, R339, R417); a slice without a length ends with its work (log 30). -/
def jobStop (n : Ctx) (s : State) : State :=
  let s := jobOver n (ledgerEnd n 0 (disarmJob n s))
  if (cx n s).sliceLen == 0 && (nextMember n s).isSome then sliceEnd n s else s

/-- LOAD_WAYBILL (R336). -/
def execLoadWaybill (ch : Chan) (block : BlockRead) (s : State) : Host.Outcome State Fault Refusal :=
  .next (if blockWaits ch 0x15 s then blockHold ch s else serveDeferred ch 0x15 7 [1, 4] (loadWaybill ch block) s)
/-- LOAD_WAYBILL_DONE (R169). -/
def execLoadWaybillDone (n : Ctx) (s : State) : Host.Outcome State Fault Refusal :=
  .next (match deferredOp n 0x15 s with
    | none => s
    | some d =>
      if !sbUp s then s else
      match waybillFail n d.data s with
      | some e => endDeferred d e [] s
      | none => waybillLoad n d.data d s)
/-- LOAD_WEIGHTS (R336). -/
def execLoadWeights (ch : Chan) (s : State) : Host.Outcome State Fault Refusal := .next (serveDeferred ch 0x16 3 [1, 4] (loadWeights ch) s)
/-- LOAD_WEIGHTS_DONE (R169, R336). -/
def execLoadWeightsDone (n : Ctx) (data : List Byte) (s : State) : Host.Outcome State Fault Refusal :=
  .next (match deferredOp n 0x16 s with
    | none => s
    | some d => if sbUp s && !measuring n s then weightsLoad n (slice data 0 (d.args.getD 1 0)) d s else s)
/-- REF_PASS (R336). -/
def execRefPass (ch : Chan) (raster : List Byte) (s : State) : Host.Outcome State Fault Refusal :=
  .next (serveDeferred ch 0x17 1 [2, 4] (refPass ch raster) s)
/-- REF_PASS_DONE (R37, R180, R336): every coach of the partition has run its reference program. -/
def execRefPassDone (n : Ctx) (s : State) : Host.Outcome State Fault Refusal :=
  .next (match deferredOp n 0x17 s with
    | none => s
    | some d =>
      let replayed := match s.flt.replay with | some r => r.cur == some (cid n) || r.todo.contains (cid n) | none => false
      if (cx n s).refRun.isNone || replayed || (cx n s).refCoaches != 2 ^ popcount 16 (partMask n s) - 1 then s
      else endDeferred d stOK [] (modCx n (fun c => { c with refRun := none, refDone := true }) s))
/-- START_JOB (R338). -/
def execStartJob (ch : Chan) (s : State) : Host.Outcome State Fault Refusal := .next (serveCtx ch 0x20 3 [2, 4] (startJob ch) s)
/-- STOP_JOB (R339). -/
def execStopJob (ch : Chan) (s : State) : Host.Outcome State Fault Refusal := .next (serveDeferred ch 0x21 2 [3] (stopJob ch) s)
/-- STOP_JOB_DONE (R339): with the Timetable in STOP a job that awaits its sheet's end stops at once. -/
def execStopJobDone (n : Ctx) (s : State) : Host.Outcome State Fault Refusal :=
  .next (match deferredOp n 0x21 s, (cx n s).job with
    | some d, some j =>
      let s := if ttState s == 3 then stopAt n j.relRow s else s
      if cxState n s == 3 && stopDone n s then endDeferred d stOK [] (jobStop n s) else s
    | _, _ => s)
/-- ABORT_JOB (R328, R340): answered when the fence is complete; in Tandem an ABORT with cause HOST leaves. -/
def execAbortJob (ch : Chan) (s : State) : Host.Outcome State Fault Refusal :=
  .next (serveCtx ch 0x22 1 [3] (fun n r t =>
    let tandem := (tandemJobs t).contains n
    let t := defer ch r (cid n) [] [] (fenceJob n t)
    if tandem then originateAbort 3 (cid n) t else t) s)

end Sys2Proof.Machine
end

