-- ==== Sys2Proof/Machine/Update.lean ====
section
/-! DEFINITION. Field update: the service port, staging, activation and health (R463 to R477). -/

namespace Sys2Proof.Machine

/-- OP, SEQ, LEN and ARG of a request frame (R466). -/
def svcOp (f : List Byte) : Nat := bits (wordN f 0) 0 8
/-- SEQ. -/
def svcSeq (f : List Byte) : Nat := bits (wordN f 0) 8 8
/-- LEN. -/
def svcLen (f : List Byte) : Nat := bits (wordN f 1) 0 16
/-- ARG. -/
def svcArg (f : List Byte) : Nat := wordN f 2
/-- The payload. -/
def svcBody (f : List Byte) : List Byte := slice f 16 (svcLen f)

/-- The port serves transactions from the end of step 5 of the boot (R544). -/
def svcServes (s : State) : Bool := domOpen 21 s && 4 ≤ rd SB_STATUS.STAGE s && rd SB_STATUS.STAGE s != 15
/-- A request is being processed, or its response is unread (R467), or a reset is due. -/
def svcBusy (s : State) : Bool := s.sb.svc.resp.isSome || (match s.sb.activation with | some a => a.svc | none => false) || s.sb.resetDue.isSome
/-- Requests of a keyed session carry a tag; SVC_HELLO carries none (R468, log 28). -/
def svcTagged (f : List Byte) (s : State) : Bool := !s.sb.svc.key.isEmpty && svcOp f != 1
/-- The bytes that a frame's header implies (R467). -/
def svcSize (f : List Byte) (s : State) : Nat := 20 + svcLen f + (if svcTagged f s then 16 else 0)
/-- The byte count is right, with LEN in its range. -/
def svcLenOk (f : List Byte) (s : State) : Bool := 20 ≤ f.length && svcLen f ≤ 4096 && f.length == svcSize f s
/-- The CRC is right (R466). -/
def svcCrcOk (f : List Byte) : Bool := crc32 (slice f 0 (f.length - 4)) == BitVec.ofNat 32 (leNat (slice f (f.length - 4) 4))

/-- Change the session's hidden state. -/
def modSvc (g : SvcSt → SvcSt) (s : State) : State := { s with sb := { s.sb with svc := g s.sb.svc } }
/-- The tag of a request or a response (R468): `dir` is 0 or 1. -/
def svcTag (dir : Nat) (body : List Byte) (s : State) : List Byte := slice (hmac256 s.sb.svc.key (s.sb.svc.nonce ++ leBytes 1 dir ++ body)) 0 16

/-- The response to a request is made (R466, R467): what its ARG holds is a free value (log 28). -/
def svcAnswerTo (op seq status : Nat) (tagged : Bool) (payload : List Byte) (s : State) : State :=
  let a := freeBytes 4 s
  let b := leBytes 4 (op + seq * 2 ^ 8 + status * 2 ^ 16) ++ leBytes 4 payload.length ++ a.1 ++ leBytes 4 0 ++ payload
  let b := if tagged then b ++ svcTag 1 b a.2 else b
  modSvc (fun v => { v with resp := some (b ++ leBytes 4 (crc32 b).toNat) }) a.2

/-- Answer a request with a status and a payload. -/
def svcAnswer (f : List Byte) (status : Nat) (payload : List Byte) (s : State) : State :=
  svcAnswerTo (svcOp f) (svcSeq f) status (svcTagged f s) payload s

/-- The SERVICE key that is loaded, in the lowest slot (R468). -/
def serviceKey (s : State) : List Byte :=
  match (List.range 16).filterMap (fun i => s.sb.keys.find? (fun k => k.slot == i && k.kind == 1 && k.usage == 3)) with
  | k :: _ => k.key
  | [] => []

/-- The tag and SEQ of a request of a keyed session are right (R468); without a session none is accepted once a SERVICE key is loaded (log 28). -/
def svcAuthOk (f : List Byte) (s : State) : Bool :=
  if svcTagged f s then
    svcSeq f == (s.sb.svc.lastSeq + 1) % 256 && slice f (16 + svcLen f) 16 == svcTag 0 (slice f 0 (16 + svcLen f)) s
  else svcOp f == 1 || s.sb.svc.isOpen || (serviceKey s).isEmpty

/-- Serve a request frame of some OPs whose length and CRC are right; another, or one that finds the Strongbox busy, is no case of the command. -/
def svcTake (ops : Nat → Bool) (f : List Byte) (body : State → State) (s : State) : State :=
  if !svcServes s || svcBusy s || !ops (svcOp f) || !svcLenOk f s || !svcCrcOk f then s
  else
    let s := modSvc (fun v => { v with lastAt := s.now }) s
    if !svcAuthOk f s then inc SB_SVC_CNT.AUTH (svcAnswer f stAUTH_FAIL [] s)
    else body (modSvc (fun v => { v with lastSeq := svcSeq f }) s)

/-- The staging session ends (R471). -/
def stagingEnd (s : State) : State :=
  clr [SB_UPD_STATUS.SESSION, SB_UPD_STATUS.UNIT, SB_UPD_STATUS.BLOCKS] (modSvc (fun v => { v with manifest := [], written := [] }) s)

/-- A staging session is open. -/
def staging (s : State) : Bool := rdB SB_UPD_STATUS.SESSION s
/-- Its unit. -/
def stagingUnit (s : State) : Nat := rd SB_UPD_STATUS.UNIT s
/-- The guard of R472 refuses. -/
def guardRefuses (s : State) : Bool :=
  (rd SB_STATUS.STAGE s != 10 || lifecycle s == 1) && (encMoves s || s.pins.supplyLow || bit (dirW 2 s) 0)
/-- A notice of the Strongbox firmware about an update: none in recovery or in a halted boot (R476). -/
def updNotice (code u v : Nat) (s : State) : State :=
  if rd SB_STATUS.STAGE s == 14 || rd SB_STATUS.HALT s != 0 then s else sbNotice code [u, v] s

/-- The response payload of SVC_HELLO (R468). An identity that no ladder has made yet is a free value (log 28). -/
def helloPayload (nonce : List Byte) (s : State) : List Byte × State :=
  let f := if s.sb.root.isEmpty then freeBytes 48 s else (idHash s, s)
  let w1 := rd SB_STATUS.STAGE s + lifecycle s * 2 ^ 8 + b2n (!(serviceKey s).isEmpty) * 2 ^ 16 + bits (dirW 2 s) 0 1 * 2 ^ 17
  (leBytes 4 (hostRead 0 s) ++ leBytes 4 w1 ++ List.replicate 8 0 ++ f.1 ++ nonce ++ List.replicate 16 0, f.2)

/-- SVC_HELLO (R468). -/
def svcHello (f : List Byte) (s : State) : State :=
  let s := stagingEnd s
  if svcLen f != 0 then svcAnswer f stBAD_LENGTH [] s else
  let n := freeBytes 16 s
  let k := serviceKey n.2
  let p := helloPayload n.1 n.2
  let s := svcAnswerTo 1 (svcSeq f) stOK false p.1 p.2
  wrB SB_UPD_STATUS.AUTH (!k.isEmpty) (modSvc (fun v => { v with isOpen := true, nonce := n.1, lastSeq := svcSeq f, key := k }) s)

/-- The checks of SVC_BEGIN (R470): the status of the first that fails. -/
def beginCheck (m : List Byte) (s : State) : Option Nat :=
  let u := bits (wordN m 1) 0 8
  let n := wordN m 5
  let fmt := bits (wordN m 1) 16 16
  let lc := lifecycle s
  if staging s || s.sb.activation.isSome then some stBUSY
  else if lc == 0 || lc == 0x1F || guardRefuses s then some stREFUSED_STATE
  else if wordN m 0 != 0x31445055 || bits (wordN m 1) 8 8 != 1 || wordN m 3 != 0x484D0024 || 5 < u then some stAUTH_FAIL
  else if bit (wordN m 6) 0 && slice m 32 48 != idHash s then some stAUTH_FAIL
  else if n * 4096 != wordN m 2 || dirSize u s < wordN m 2 || m.length != 128 + (if u < 2 then 48 * n else 0) then some stBAD_LENGTH
  else if dirState u s != 0 || dirInactive u s == 1 || (u == 5 && dirState 0 s != 0) then some stBAD_STATE
  else if wordN m 4 < dirVer u (dirActive u s) s then some stROLLBACK
  else if u == 0 && fmt != imgSettingsFmt (dirBase 5 (dirActive 5 s) s) s &&
      !(dirInactive 5 s == 1 && imgSettingsFmt (dirBase 5 (1 - dirActive 5 s) s) s == fmt) then some stBAD_STATE
  else none

/-- SVC_BEGIN (R470). -/
def svcBegin (f : List Byte) (s : State) : State :=
  let m := svcBody f
  let u := bits (wordN m 1) 0 8
  match beginCheck m s with
  | some e => svcAnswer f e [] s
  | none =>
    let s := if dirInactive u s == 2 then dirWrite (dirSetVer u (1 - dirActive u s) 0 (dirRecord u (dirActive u s) (dirState u s) 0 s)) else s
    let s := modSvc (fun v => { v with manifest := m, written := [] }) (wrs [(SB_UPD_STATUS.SESSION, 1), (SB_UPD_STATUS.UNIT, u), (SB_UPD_STATUS.BLOCKS, 0)] s)
    svcAnswer f stOK [] s

/-- SVC_DATA (R471); outside a staging session it fails with BAD_STATE (log 28). -/
def svcData (f : List Byte) (s : State) : State :=
  let m := s.sb.svc.manifest
  let u := stagingUnit s
  let b := svcArg f
  let d := svcBody f
  if guardRefuses s then svcAnswer f stREFUSED_STATE [] s
  else if !staging s then svcAnswer f stBAD_STATE [] s
  else if wordN m 5 ≤ b then svcAnswer f stCONTRACT [] s
  else if svcLen f != 4096 then svcAnswer f stBAD_LENGTH [] s
  else if (u < 2 && sha384 d != slice m (128 + 48 * b) 48) || (b == 0 && slice d 0 128 != slice m 0 128) then svcAnswer f stDIGEST_MISMATCH [] s
  else
    let s := flashWrite (dirBase u (1 - dirActive u s) s + 4096 * b) d s
    let s := modSvc (fun v => { v with written := b :: v.written.filter (· != b) }) s
    svcAnswer f stOK [] (wr SB_UPD_STATUS.BLOCKS s.sb.svc.written.length s)

/-- SVC_END (R471). -/
def svcEnd (f : List Byte) (s : State) : State :=
  let m := s.sb.svc.manifest
  let u := stagingUnit s
  let b := 1 - dirActive u s
  if svcLen f != 0 then svcAnswer f stBAD_LENGTH [] s
  else if guardRefuses s then svcAnswer f stREFUSED_STATE [] s
  else if !staging s then svcAnswer f stBAD_STATE [] s
  else if s.sb.svc.written.length != wordN m 5 then svcAnswer f stBAD_LENGTH [] (stagingEnd s)
  else if u < 2 && !(imgHeaderOk u (dirBase u b s) s && imgSigned u (dirBase u b s) s) then svcAnswer f stAUTH_FAIL [] (stagingEnd s)
  else
    let v := wordN m 4
    let s := dirWrite (dirSetVer u b v (dirRecord u (dirActive u s) (dirState u s) 1 (stagingEnd s)))
    updNotice 0x0D u v (svcAnswer f stOK [] s)

/-- The update record of a unit as its registers show it (R480). -/
def updRecord (u : Nat) (s : State) : List Nat := [hostRead (0x800500 + 0x10 * u) s, hostRead (0x800504 + 0x10 * u) s, hostRead (0x800508 + 0x10 * u) s]

/-- SVC_STATUS (R467). -/
def svcStatus (f : List Byte) (s : State) : State :=
  if svcLen f != 0 then svcAnswer f stBAD_LENGTH [] s else svcAnswer f stOK ((List.range 6).flatMap (fun u => wordsBytes (updRecord u s))) s

/-- SVC_DISCARD (R471). -/
def svcDiscard (f : List Byte) (s : State) : State :=
  let u := svcArg f
  if svcLen f != 0 then svcAnswer f stBAD_LENGTH [] s
  else if 5 < u then svcAnswer f stCONTRACT [] s
  else if dirInactive u s != 1 then svcAnswer f stBAD_STATE [] s
  else svcAnswer f stOK [] (dirWrite (dirSetVer u (1 - dirActive u s) 0 (dirRecord u (dirActive u s) (dirState u s) 0 s)))

/-- The checks of ACTIVATE (R474). -/
def activateCheck (u : Nat) (s : State) : Option Nat :=
  if 5 < u then some stCONTRACT
  else if staging s || s.sb.activation.isSome then some stBUSY
  else if dirInactive u s != 1 then some stBAD_STATE
  else if dirVer u (1 - dirActive u s) s < dirVer u (dirActive u s) s then some stROLLBACK
  else if (if u == 4 then s.mb.deferred.any (fun d => d.op == 0x15) else !allFree s) then some stBAD_STATE
  else if s.pins.supplyLow || guardRefuses s then some stREFUSED_STATE
  else none

/-- Unit 0 needs the staged settings (R473). -/
def needsSettings (s : State) : Bool :=
  dirInactive 5 s == 1 && imgSettingsFmt (dirBase 0 (1 - dirActive 0 s) s) s != imgSettingsFmt (dirBase 5 (dirActive 5 s) s) s

/-- The record of a unit whose staged slot becomes active in a state (R474, R475). -/
def dirSwitch (st u : Nat) (s : State) : State := dirRecord u (1 - dirActive u s) st 2 s

/-- The Coachman is held in reset (R475 step 1): its firmware's state is lost, and the block is in no chain. -/
def holdCoachman (s : State) : State :=
  let s := setPeer .coachman 2 (wrs [(SB_REINS.HOLDERS 0, 2), (GL_STATUS.CM_RELEASED, 0), (GL_STATUS.CMD_READY, 0), (TL_CFG.JOINED, 0)] s)
  holdSettle { s with flt := { s.flt with cmWdog := none } }

/-- An activation whose checks pass begins (R474, R475). `ok` answers OK before a reset. -/
def activateBegin (u : Nat) (a : Activation) (ok : State → State) (s : State) : State :=
  if u == 0 || u == 1 || u == 5 then
    let s := if u == 0 && needsSettings s then dirSwitch 1 5 s else s
    resetLater 6 none (ok (dirWrite (dirSwitch 1 u s)))
  else
    let s := { s with sb := { s.sb with activation := some a } }
    if u == 4 then s else holdCoachman s

/-- SVC_ACTIVATE (R474). -/
def svcActivate (f : List Byte) (s : State) : State :=
  let u := svcArg f
  if svcLen f != 0 then svcAnswer f stBAD_LENGTH [] s else
  match activateCheck u s with
  | some e => svcAnswer f e [] s
  | none => activateBegin u ⟨u, true, 0, svcSeq f, s.now⟩ (svcAnswer f stOK []) s

/-- ACTIVATE (R474, R477). -/
def activate (ch : Fin 6) (r : Req) (s : State) : State :=
  let u := bits (r.w 1) 0 3
  match activateCheck u s with
  | some e => reply ch r e [] s
  | none => activateBegin u ⟨u, false, ch.val, r.seq, s.now⟩ (reply ch r stOK []) s

/-- The answer of an activation that has ended. -/
def activateAnswer (a : Activation) (status : Nat) (s : State) : State :=
  let s := { s with sb := { s.sb with activation := none } }
  if a.svc then svcAnswerTo 7 a.seq status (!s.sb.svc.key.isEmpty) [] s
  else if h : a.ch < 6 then answer ⟨a.ch, h⟩ false 0x89 a.seq status [] s else s

/-- Coachman firmware has been verified and measured in this boot, whose earlier steps completed (R20, R370, R373). -/
def cmVerified (s : State) : Bool := s.sb.version[2] != 0 && (rd SB_STATUS.HALT s == 0 || rd SB_STATUS.HALT s == 4)
/-- The Coachman starts again (R475 step 4); without verified firmware it stays in reset (R20). -/
def restartCoachman (u : Nat) (s : State) : State := if u == 4 || !cmVerified s then s else wr GL_STATUS.CMD_READY 1 (releaseCoachman s)

/-- A unit runs from the slot that was staged (R475 steps 3 and 4, R476). -/
def activated (u : Nat) (s : State) : State :=
  let b := 1 - dirActive u s
  let s := dirWrite (dirSwitch 2 u s)
  let s := if u == 2 || u == 3 then extendMR (u - 1) 7 0 (slotDigest u b s) s else s
  let slot := rd SB_BOOT.SLOT s
  let s := wr SB_BOOT.SLOT (if b == 1 then slot ||| 2 ^ u else slot - (slot &&& 2 ^ u)) s
  let s := wr (SB_UPD_STATE.EXPIRED u) 0 (if u == 3 then wr SB_BOOT.GIG_UNAVAIL 0 s else if u == 4 then wr SB_BOOT.LIB_UNAVAIL 0 s else s)
  if h : u < 6 then { s with sb := { s.sb with
    version := s.sb.version.set u (dirVer u b s), trialAt := s.sb.trialAt.set u (some s.now), due := s.sb.due.set u false } } else s

/-- ACTIVATE_COMPLETE (R475): the staged image is verified; on failure the active one runs on. -/
def activateComplete (s : State) : State :=
  match s.sb.activation with
  | none => s
  | some a =>
    if slotOk a.unit (1 - dirActive a.unit s) s then
      let s := restartCoachman a.unit (activated a.unit s)
      updNotice 0x0E a.unit (dirVer a.unit (dirActive a.unit s) s) (activateAnswer a stOK s)
    else activateAnswer a stAUTH_FAIL (restartCoachman a.unit s)

/-- UPDATE_STATUS (R477). -/
def updateStatus (ch : Fin 6) (r : Req) (s : State) : State :=
  let u := bits (r.w 1) 0 3
  if 5 < u then reply ch r stCONTRACT [] s else reply ch r stOK (updRecord u s) s

/-- CONFIRM_HEALTH on MBS1 (R476, R477). -/
def confirmHealth (ch : Fin 6) (r : Req) (s : State) : State :=
  let u := bits (r.w 1) 0 3
  if 5 < u then reply ch r stCONTRACT [] s
  else if !confirmable u s then reply ch r stBAD_STATE [] s
  else reply ch r stOK [] (confirmUnit u s)

/-- UPDATE_LOCK (R472, R477). -/
def updateLock (ch : Fin 6) (r : Req) (s : State) : State :=
  if !(lifecycle s == 3 || lifecycle s == 7) then reply ch r stREFUSED_STATE [] s
  else reply ch r stOK [] (dirWrite (dirSet 2 (bits (r.w 1) 0 1) s))

/-- SVC_HELLO (R468). -/
def execSvcHello (f : List Byte) (s : State) : Host.Outcome State Fault Refusal := .next (svcTake (· == 1) f (svcHello f) s)
/-- SVC_BEGIN (R470). -/
def execSvcBegin (f : List Byte) (s : State) : Host.Outcome State Fault Refusal := .next (svcTake (· == 2) f (svcBegin f) s)
/-- SVC_DATA (R471). -/
def execSvcData (f : List Byte) (s : State) : Host.Outcome State Fault Refusal := .next (svcTake (· == 3) f (svcData f) s)
/-- SVC_END (R471). -/
def execSvcEnd (f : List Byte) (s : State) : Host.Outcome State Fault Refusal := .next (svcTake (· == 4) f (svcEnd f) s)
/-- SVC_STATUS (R467). -/
def execSvcStatus (f : List Byte) (s : State) : Host.Outcome State Fault Refusal :=
  .next (svcTake (· == 5) f (svcStatus f) s)
/-- SVC_DISCARD (R471). -/
def execSvcDiscard (f : List Byte) (s : State) : Host.Outcome State Fault Refusal := .next (svcTake (· == 6) f (svcDiscard f) s)
/-- SVC_ACTIVATE (R474). -/
def execSvcActivate (f : List Byte) (s : State) : Host.Outcome State Fault Refusal := .next (svcTake (· == 7) f (svcActivate f) s)
/-- SVC_BAD_OP (R467). -/
def execSvcBadOp (f : List Byte) (s : State) : Host.Outcome State Fault Refusal :=
  .next (svcTake (fun o => o == 0 || 7 < o) f (svcAnswer f stBAD_OPCODE []) s)

/-- SVC_FRAME_ERROR (R467): a frame with a wrong byte count or CRC is answered with BAD_LENGTH and counted; one that finds the Strongbox
busy is dropped and counted. -/
def execSvcFrameError (f : List Byte) (s : State) : Host.Outcome State Fault Refusal :=
  .next (if !svcServes s then s
    else if svcBusy s then inc SB_SVC_CNT.DROPPED s
    else if !svcLenOk f s then inc SB_SVC_CNT.LEN (svcAnswer f stBAD_LENGTH [] s)
    else if !svcCrcOk f then inc SB_SVC_CNT.CRC (svcAnswer f stBAD_LENGTH [] s)
    else s)

/-- SVC_RESPONSE_READY (R467): SVC_ATTN_N goes low. -/
def execSvcResponseReady (s : State) : Host.Outcome State Fault Refusal :=
  .next (if s.sb.svc.resp.isSome && svcServes s then { s with pins := { s.pins with svcAttnN := false } } else s)

/-- SVC_READ (R467): the READ takes the response; while SVC_ATTN_N is high it returns zero bytes. -/
def execSvcRead (s : State) : Host.Outcome State Fault Refusal :=
  .next (if !svcServes s then s else
    match s.pins.svcAttnN, s.sb.svc.resp with
    | false, some b => emit (.svc b) (modSvc (fun v => { v with resp := none }) { s with pins := { s.pins with svcAttnN := true } })
    | _, _ => emit .svcZero s)

/-- SVC_SESSION_TIMEOUT (R471): no request for 10 s. -/
def execSvcSessionTimeout (s : State) : Host.Outcome State Fault Refusal :=
  .next (if staging s && s.sb.svc.lastAt + ms 10000 ≤ s.now then stagingEnd s else s)

/-- UPDATE_STATUS (R477). -/
def execUpdateStatus (ch : Chan) (s : State) : Host.Outcome State Fault Refusal := .next (serveSb ch [2] 0x88 [1] (updateStatus ch) s)
/-- ACTIVATE (R474). -/
def execActivate (ch : Chan) (s : State) : Host.Outcome State Fault Refusal := .next (serveSb ch [4] 0x89 [1] (activate ch) s)
/-- ACTIVATE_COMPLETE (R475). -/
def execActivateComplete (s : State) : Host.Outcome State Fault Refusal := .next (activateComplete s)
/-- CONFIRM_HEALTH (R476): on a channel, or by the Strongbox firmware for its own units. -/
def execConfirmHealth (src : HealthSrc) (s : State) : Host.Outcome State Fault Refusal :=
  .next (match src with
    | .channel ch => serveSb ch [5] 0x8A [1] (confirmHealth ch) s
    | .own u => if sbUp s && sbHealthy s && [0, 1, 5].contains u.val && confirmable u.val s then confirmUnit u.val s else s)
/-- UPDATE_LOCK (R472). -/
def execUpdateLock (ch : Chan) (s : State) : Host.Outcome State Fault Refusal := .next (serveSb ch [4] 0x8B [1] (updateLock ch) s)

/-- A unit in TRIAL has run for a time, by the fastest timer (R476). -/
def trialRan (u : Fin 6) (t : Nat) (s : State) : Bool := inTrial u.val s && (match s.sb.trialAt[u] with | some a => decide (a + ms t ≤ s.now) | none => false)

/-- HEALTH_DUE (R476): 45 s of the Strongbox's timer, at the earliest 43.65 s. -/
def execHealthDue (u : Fin 6) (s : State) : Host.Outcome State Fault Refusal :=
  .next (if trialRan u 43650 s && !s.sb.due[u] then updNotice 0x0F u.val 15 { s with sb := { s.sb with due := s.sb.due.set u true } } else s)

/-- HEALTH_EXPIRED (R476): 60 s of the Strongbox's timer, at the earliest 58.2 s. -/
def execHealthExpired (u : Fin 6) (s : State) : Host.Outcome State Fault Refusal :=
  .next (if trialRan u 58200 s then wr (SB_UPD_STATE.EXPIRED u.val) 1 s else s)

end Sys2Proof.Machine
end

