-- ==== Sys2Proof/Machine/Dispatch.lean ====
section
/-! DEFINITION. One arm per command: its meaning, or its rejection by name. -/

namespace Sys2Proof.Machine

def exec (i : Instr) (s : State) : Host.Outcome State Fault Refusal :=
  match i with
  | .regWrite addr data sec => Sys2Proof.Machine.execRegWrite addr data sec s
  | .pairLoRead addr sec => Sys2Proof.Machine.execPairLoRead addr sec s
  | .pairLoWrite addr data sec => Sys2Proof.Machine.execPairLoWrite addr data sec s
  | .hostAccessError write addr beats sec => Sys2Proof.Machine.execHostAccessError write addr beats sec s
  | .glCntClrCfgRejects => Sys2Proof.Machine.execGlCntClrCfgRejects s
  | .glCntClrHostErrs => Sys2Proof.Machine.execGlCntClrHostErrs s
  | .encEdge a b => Sys2Proof.Machine.execEncEdge a b s
  | .stopTimeout => Sys2Proof.Machine.execStopTimeout s
  | .sheetMarkEdge level => Sys2Proof.Machine.execSheetMarkEdge level s
  | .markSynth => Sys2Proof.Machine.execMarkSynth s
  | .markFallback => Sys2Proof.Machine.execMarkFallback s
  | .epochOpen => Sys2Proof.Machine.execEpochOpen s
  | .indexEdge => Sys2Proof.Machine.execIndexEdge s
  | .indexLost => Sys2Proof.Machine.execIndexLost s
  | .ttEnable load => Sys2Proof.Machine.execTtEnable load s
  | .ttDisable => Sys2Proof.Machine.execTtDisable s
  | .ttLoad => Sys2Proof.Machine.execTtLoad s
  | .ttClrFault => Sys2Proof.Machine.execTtClrFault s
  | .slotRelease n obs => Sys2Proof.Machine.execSlotRelease n obs s
  | .slotDeadline n => Sys2Proof.Machine.execSlotDeadline n s
  | .slotSlice n => Sys2Proof.Machine.execSlotSlice n s
  | .slotSignal n => Sys2Proof.Machine.execSlotSignal n s
  | .slotNone n => Sys2Proof.Machine.execSlotNone n s
  | .ttCntClrEncErr => Sys2Proof.Machine.execTtCntClrEncErr s
  | .ttCntClrMarkCnt => Sys2Proof.Machine.execTtCntClrMarkCnt s
  | .ttCntClrRowCnt => Sys2Proof.Machine.execTtCntClrRowCnt s
  | .ttCntClrDlMiss => Sys2Proof.Machine.execTtCntClrDlMiss s
  | .entryBegin c obs => Sys2Proof.Machine.execEntryBegin c obs s
  | .gigEntryBegin c => Sys2Proof.Machine.execGigEntryBegin c s
  | .gigSlotEnd ecc => Sys2Proof.Machine.execGigSlotEnd ecc s
  | .transferIssue obs => Sys2Proof.Machine.execTransferIssue obs s
  | .syncWaitEnd c => Sys2Proof.Machine.execSyncWaitEnd c s
  | .carriageRunEnd c ecc => Sys2Proof.Machine.execCarriageRunEnd c ecc s
  | .bankDrainEnd c obs => Sys2Proof.Machine.execBankDrainEnd c obs s
  | .stageEnd obs => Sys2Proof.Machine.execStageEnd obs s
  | .caCntClrBusy c => Sys2Proof.Machine.execCaCntClrBusy c s
  | .caCntClrStall c => Sys2Proof.Machine.execCaCntClrStall c s
  | .caCntClrNumeric c => Sys2Proof.Machine.execCaCntClrNumeric c s
  | .caCntClrEcc c => Sys2Proof.Machine.execCaCntClrEcc c s
  | .ggCntClrBusy => Sys2Proof.Machine.execGgCntClrBusy s
  | .ggCntClrWait => Sys2Proof.Machine.execGgCntClrWait s
  | .ggCntClrNumeric => Sys2Proof.Machine.execGgCntClrNumeric s
  | .ggCntClrEcc => Sys2Proof.Machine.execGgCntClrEcc s
  | .gigEccIdle => Sys2Proof.Machine.execGigEccIdle s
  | .mpWindowEnd => Sys2Proof.Machine.execMpWindowEnd s
  | .mpReadResponse p rsp => Sys2Proof.Machine.execMpReadResponse p rsp s
  | .mpWriteDone p id status => Sys2Proof.Machine.execMpWriteDone p id status s
  | .fenceComplete n => Sys2Proof.Machine.execFenceComplete n s
  | .fenceDrainTimeout n => Sys2Proof.Machine.execFenceDrainTimeout n s
  | .memHung p => Sys2Proof.Machine.execMemHung p s
  | .mpErrInfoClear => Sys2Proof.Machine.execMpErrInfoClear s
  | .mpCntClrPorts => Sys2Proof.Machine.execMpCntClrPorts s
  | .mpCntClrBeats => Sys2Proof.Machine.execMpCntClrBeats s
  | .mpCntClrDrops => Sys2Proof.Machine.execMpCntClrDrops s
  | .mpCntClrRing => Sys2Proof.Machine.execMpCntClrRing s
  | .ledgerAbsorbRow n => Sys2Proof.Machine.execLedgerAbsorbRow n s
  | .preemptPointReached obs => Sys2Proof.Machine.execPreemptPointReached obs s
  | .switchSaveDone n => Sys2Proof.Machine.execSwitchSaveDone n s
  | .switchRestoreDone c => Sys2Proof.Machine.execSwitchRestoreDone c s
  | .timeSliceExpire n => Sys2Proof.Machine.execTimeSliceExpire n s
  | .scrubEnd c pass => Sys2Proof.Machine.execScrubEnd c pass s
  | .retireTimerExpire n => Sys2Proof.Machine.execRetireTimerExpire n s
  | .retireResend n => Sys2Proof.Machine.execRetireResend n s
  | .glWbCntClr mask => Sys2Proof.Machine.execGlWbCntClr mask s
  | .linkChannelChange p => Sys2Proof.Machine.execLinkChannelChange p s
  | .linkBlockLock p => Sys2Proof.Machine.execLinkBlockLock p s
  | .helloRepeat p => Sys2Proof.Machine.execHelloRepeat p s
  | .helloRx p f => Sys2Proof.Machine.execHelloRx p f s
  | .linkTrainTimeout p => Sys2Proof.Machine.execLinkTrainTimeout p s
  | .linkRetrainDelay p => Sys2Proof.Machine.execLinkRetrainDelay p s
  | .linkLockLost p cause => Sys2Proof.Machine.execLinkLockLost p cause s
  | .discoverRx p f => Sys2Proof.Machine.execDiscoverRx p f s
  | .chainTableRx p f => Sys2Proof.Machine.execChainTableRx p f s
  | .noHead => Sys2Proof.Machine.execNoHead s
  | .discoverReqRx p f => Sys2Proof.Machine.execDiscoverReqRx p f s
  | .lineSyncRx p f => Sys2Proof.Machine.execLineSyncRx p f s
  | .haloRx p f => Sys2Proof.Machine.execHaloRx p f s
  | .haloReqTimer n row side => Sys2Proof.Machine.execHaloReqTimer n row side s
  | .haloReqRx p f => Sys2Proof.Machine.execHaloReqRx p f s
  | .summaryRx p f => Sys2Proof.Machine.execSummaryRx p f s
  | .summaryReqTimer n => Sys2Proof.Machine.execSummaryReqTimer n s
  | .summaryReqRx p f => Sys2Proof.Machine.execSummaryReqRx p f s
  | .abortRx p f => Sys2Proof.Machine.execAbortRx p f s
  | .abortRepeat => Sys2Proof.Machine.execAbortRepeat s
  | .contextRetireRx p f => Sys2Proof.Machine.execContextRetireRx p f s
  | .retireAckRx p f => Sys2Proof.Machine.execRetireAckRx p f s
  | .bypassHoldMinLow => Sys2Proof.Machine.execBypassHoldMinLow s
  | .tlCntClrPorts => Sys2Proof.Machine.execTlCntClrPorts s
  | .tlCntClrAbort => Sys2Proof.Machine.execTlCntClrAbort s
  | .tlCntClrDrops => Sys2Proof.Machine.execTlCntClrDrops s
  | .tlCntClrHalo => Sys2Proof.Machine.execTlCntClrHalo s
  | .h2kDataWrite ch data sec => Sys2Proof.Machine.execH2kDataWrite ch data sec s
  | .h2kCommit ch sec => Sys2Proof.Machine.execH2kCommit ch sec s
  | .h2kDiscard ch sec => Sys2Proof.Machine.execH2kDiscard ch sec s
  | .h2kDbSet ch data sec => Sys2Proof.Machine.execH2kDbSet ch data sec s
  | .k2hDataRead ch sec => Sys2Proof.Machine.execK2hDataRead ch sec s
  | .mbCntClrCnt ch sec => Sys2Proof.Machine.execMbCntClrCnt ch sec s
  | .mbCntClrAbort ch sec => Sys2Proof.Machine.execMbCntClrAbort ch sec s
  | .badOpcodeRequest ch => Sys2Proof.Machine.execBadOpcodeRequest ch s
  | .deferredTimeout ch seq => Sys2Proof.Machine.execDeferredTimeout ch seq s
  | .noticeDequeue ch => Sys2Proof.Machine.execNoticeDequeue ch s
  | .identify ch => Sys2Proof.Machine.execIdentify ch s
  | .setCmdRegion ch => Sys2Proof.Machine.execSetCmdRegion ch s
  | .setNoticeRoute ch => Sys2Proof.Machine.execSetNoticeRoute ch s
  | .getCounters ch => Sys2Proof.Machine.execGetCounters ch s
  | .createContext obs => Sys2Proof.Machine.execCreateContext obs s
  | .destroyContext ch => Sys2Proof.Machine.execDestroyContext ch s
  | .configContext ch block => Sys2Proof.Machine.execConfigContext ch block s
  | .setEdge ch => Sys2Proof.Machine.execSetEdge ch s
  | .setSlice ch => Sys2Proof.Machine.execSetSlice ch s
  | .loadWaybill ch block => Sys2Proof.Machine.execLoadWaybill ch block s
  | .loadWaybillDone n => Sys2Proof.Machine.execLoadWaybillDone n s
  | .loadWeights ch => Sys2Proof.Machine.execLoadWeights ch s
  | .loadWeightsDone n data => Sys2Proof.Machine.execLoadWeightsDone n data s
  | .refPass ch raster => Sys2Proof.Machine.execRefPass ch raster s
  | .refPassDone n => Sys2Proof.Machine.execRefPassDone n s
  | .startJob ch => Sys2Proof.Machine.execStartJob ch s
  | .stopJob ch => Sys2Proof.Machine.execStopJob ch s
  | .stopJobDone n => Sys2Proof.Machine.execStopJobDone n s
  | .abortJob ch => Sys2Proof.Machine.execAbortJob ch s
  | .abortFenceDone n => Sys2Proof.Machine.execAbortFenceDone n s
  | .chainPosition ch => Sys2Proof.Machine.execChainPosition ch s
  | .chainJoin ch => Sys2Proof.Machine.execChainJoin ch s
  | .chainLeave ch => Sys2Proof.Machine.execChainLeave ch s
  | .bounceSetup ch => Sys2Proof.Machine.execBounceSetup ch s
  | .bounceIn ch => Sys2Proof.Machine.execBounceIn ch s
  | .bounceInDone n rec => Sys2Proof.Machine.execBounceInDone n rec s
  | .eventLatch src => Sys2Proof.Machine.execEventLatch src s
  | .evClaim tgt fast => Sys2Proof.Machine.execEvClaim tgt fast s
  | .evEoi tgt fast src => Sys2Proof.Machine.execEvEoi tgt fast src s
  | .evDiscard fast src => Sys2Proof.Machine.execEvDiscard fast src s
  | .evPendWrite fast w data => Sys2Proof.Machine.execEvPendWrite fast w data s
  | .holdoffExpire fast g => Sys2Proof.Machine.execHoldoffExpire fast g s
  | .evCntClrSpurious => Sys2Proof.Machine.execEvCntClrSpurious s
  | .aonSenseEdge pin level => Sys2Proof.Machine.execAonSenseEdge pin level s
  | .lanternHit src => Sys2Proof.Machine.execLanternHit src s
  | .lanternArm on => Sys2Proof.Machine.execLanternArm on s
  | .powerGoodRise straps => Sys2Proof.Machine.execPowerGoodRise straps s
  | .powerGoodFall => Sys2Proof.Machine.execPowerGoodFall s
  | .bootStepDone obs => Sys2Proof.Machine.execBootStepDone obs s
  | .sbIdentify ch => Sys2Proof.Machine.execSbIdentify ch s
  | .sbChallenge ch => Sys2Proof.Machine.execSbChallenge ch s
  | .lcAdvance ch block blows => Sys2Proof.Machine.execLcAdvance ch block blows s
  | .debugUnlock ch block => Sys2Proof.Machine.execDebugUnlock ch block s
  | .sbAttest ch block => Sys2Proof.Machine.execSbAttest ch block s
  | .keyUpdate ch block blows => Sys2Proof.Machine.execKeyUpdate ch block blows s
  | .keyLoad ch block => Sys2Proof.Machine.execKeyLoad ch block s
  | .bounceKey ch => Sys2Proof.Machine.execBounceKey ch s
  | .reinClaim who rein => Sys2Proof.Machine.execReinClaim who rein s
  | .reinRelease who rein => Sys2Proof.Machine.execReinRelease who rein s
  | .heartbeatSend => Sys2Proof.Machine.execHeartbeatSend s
  | .heartbeatAnswer view => Sys2Proof.Machine.execHeartbeatAnswer view s
  | .heartbeatMiss => Sys2Proof.Machine.execHeartbeatMiss s
  | .dgClaim user => Sys2Proof.Machine.execDgClaim user s
  | .dgRelease user => Sys2Proof.Machine.execDgRelease user s
  | .dgStart user => Sys2Proof.Machine.execDgStart user s
  | .dgAbort user => Sys2Proof.Machine.execDgAbort user s
  | .dgMemGo user => Sys2Proof.Machine.execDgMemGo user s
  | .dgDataWrite user data => Sys2Proof.Machine.execDgDataWrite user data s
  | .dgLastWrite user data => Sys2Proof.Machine.execDgLastWrite user data s
  | .dgResultRead user w => Sys2Proof.Machine.execDgResultRead user w s
  | .dgChunkDone data err => Sys2Proof.Machine.execDgChunkDone data err s
  | .dgDone => Sys2Proof.Machine.execDgDone s
  | .dgExpire => Sys2Proof.Machine.execDgExpire s
  | .dgCntClr user => Sys2Proof.Machine.execDgCntClr user s
  | .otpProgWord => Sys2Proof.Machine.execOtpProgWord s
  | .otpProgLock => Sys2Proof.Machine.execOtpProgLock s
  | .otpProgDone readbackOk => Sys2Proof.Machine.execOtpProgDone readbackOk s
  | .svcHello f => Sys2Proof.Machine.execSvcHello f s
  | .svcBegin f => Sys2Proof.Machine.execSvcBegin f s
  | .svcData f => Sys2Proof.Machine.execSvcData f s
  | .svcEnd f => Sys2Proof.Machine.execSvcEnd f s
  | .svcStatus f => Sys2Proof.Machine.execSvcStatus f s
  | .svcDiscard f => Sys2Proof.Machine.execSvcDiscard f s
  | .svcActivate f => Sys2Proof.Machine.execSvcActivate f s
  | .svcBadOp f => Sys2Proof.Machine.execSvcBadOp f s
  | .svcRead => Sys2Proof.Machine.execSvcRead s
  | .svcResponseReady => Sys2Proof.Machine.execSvcResponseReady s
  | .svcSessionTimeout => Sys2Proof.Machine.execSvcSessionTimeout s
  | .updateStatus ch => Sys2Proof.Machine.execUpdateStatus ch s
  | .activate ch => Sys2Proof.Machine.execActivate ch s
  | .activateComplete => Sys2Proof.Machine.execActivateComplete s
  | .confirmHealth src => Sys2Proof.Machine.execConfirmHealth src s
  | .updateLock ch => Sys2Proof.Machine.execUpdateLock ch s
  | .healthDue u => Sys2Proof.Machine.execHealthDue u s
  | .healthExpired u => Sys2Proof.Machine.execHealthExpired u s
  | .coachHang c => Sys2Proof.Machine.execCoachHang c s
  | .gigHang => Sys2Proof.Machine.execGigHang s
  | .cmWdog => Sys2Proof.Machine.execCmWdog s
  | .cmHang => Sys2Proof.Machine.execCmHang s
  | .sbWdog => Sys2Proof.Machine.execSbWdog s
  | .sbClock => Sys2Proof.Machine.execSbClock s
  | .coachResetDone u => Sys2Proof.Machine.execCoachResetDone u s
  | .coachResetHang u => Sys2Proof.Machine.execCoachResetHang u s
  | .partResetDone u => Sys2Proof.Machine.execPartResetDone u s
  | .partResetHang u => Sys2Proof.Machine.execPartResetHang u s
  | .gigResetHang => Sys2Proof.Machine.execGigResetHang s
  | .seqTimeout => Sys2Proof.Machine.execSeqTimeout s
  | .replayEnd => Sys2Proof.Machine.execReplayEnd s
  | .securityResetFallback => Sys2Proof.Machine.execSecurityResetFallback s
  | .blockDrainDone => Sys2Proof.Machine.execBlockDrainDone s
  | .dumpDone obs => Sys2Proof.Machine.execDumpDone obs s
  | .dumpTimeout written => Sys2Proof.Machine.execDumpTimeout written s
  | .dumpTrailerDone dump => Sys2Proof.Machine.execDumpTrailerDone dump s
  | .fltResetsDecay => Sys2Proof.Machine.execFltResetsDecay s
  | .pwrReq who d on => Sys2Proof.Machine.execPwrReq who d on s
  | .pwrRampDone d => Sys2Proof.Machine.execPwrRampDone d s
  | .pwrOff d => Sys2Proof.Machine.execPwrOff d s
  | .blockResetDomainsOff => Sys2Proof.Machine.execBlockResetDomainsOff s
  | .pmSleepDeep => Sys2Proof.Machine.execPmSleepDeep s
  | .sleepEntryStep => Sys2Proof.Machine.execSleepEntryStep s
  | .pmWake => Sys2Proof.Machine.execPmWake s
  | .pmReset key => Sys2Proof.Machine.execPmReset key s
  | .clockMonitorWindow arith fab => Sys2Proof.Machine.execClockMonitorWindow arith fab s
  | .thermalSample temps => Sys2Proof.Machine.execThermalSample temps s
  | .thermalLevelFall => Sys2Proof.Machine.execThermalLevelFall s
  | .thermalTrip => Sys2Proof.Machine.execThermalTrip s
  | .thermalTripClear => Sys2Proof.Machine.execThermalTripClear s
  | .pmThermCfgWrite data => Sys2Proof.Machine.execPmThermCfgWrite data s
  | .supplyLowEdge level => Sys2Proof.Machine.execSupplyLowEdge level s
  | .dbgCtrlWrite data sec => Sys2Proof.Machine.execDbgCtrlWrite data sec s
  | .tmuxEnFall => Sys2Proof.Machine.execTmuxEnFall s
  | .tapBypass code => Sys2Proof.Machine.execTapBypass code s
  | .tapScanSel => Sys2Proof.Machine.execTapScanSel s
  | .tapMbistRun => Sys2Proof.Machine.execTapMbistRun s
  | .tapMbistResult => Sys2Proof.Machine.execTapMbistResult s
  | .mbistDone fails => Sys2Proof.Machine.execMbistDone fails s
  | .frameErr p f kind => Sys2Proof.Machine.execFrameErr p f kind s
  | .mpBeatAccepted p => Sys2Proof.Machine.execMpBeatAccepted p s
  | .sbEcc => Sys2Proof.Machine.execSbEcc s
  | .svcFrameError f => Sys2Proof.Machine.execSvcFrameError f s
  | .tmuxEnRise => Sys2Proof.Machine.execTmuxEnRise s
  | .tapTestLogicReset => Sys2Proof.Machine.execTapTestLogicReset s
  | .gigPageScrubEnd n => Sys2Proof.Machine.execGigPageScrubEnd n s
  | .replayRowRelease obs => Sys2Proof.Machine.execReplayRowRelease obs s

end Sys2Proof.Machine
end

