-- ==== Sys2Proof/Machine/Step.lean ====
section
/-! DEFINITION. One step: the command at the front of the queue acts on the block, or, with none waiting, a FAB_CLK cycle
passes (log 1, log 2, log 14). -/

namespace Sys2Proof.Machine

/-- A FAB_CLK cycle in which no command comes: what the firmware does in it, the switches and commands that wait for something, and what the ports issue; then
the clock advances, and the event controller and the prefetch act on the new cycle. -/
def idle (s : State) : State := prefetchCycle (evCycle (tick (stallCycle (deadlineCycle (faultCycle (linkCycle (initCycle (ownCycle (tornCycle (createCycle (switchCycle (passCycle (sbCycle (fwCycle s))))))))))))))

/-- Take the first waiting command and carry it out on the block with the rest of the queue; on an empty queue the clock advances. -/
def step (s : State) : Host.Outcome State Fault Refusal :=
  match s.pending with
  | [] => .next (idle s)
  | i :: rest => exec i { s with pending := rest }

/-- The state with the command that a word spells at the front of its queue; no word spells one. -/
def State.withFetchWord (s : State) (nbits w : Nat) : State :=
  match decodeTableWord nbits w with
  | none => s
  | some i => { s with pending := i :: s.pending }

end Sys2Proof.Machine
end

