-- ==== Sys2Proof/WellFormed.lean ====
section
/-! DEFINITION. Well-formed commands: operands that the surroundings can give. The bounds are those of the fields that
bring them: the host port's addresses (R210), a response's identifier and beat (R204), a
frame's header and tag (R275), an answer's one word (R388), sensors 0 to 18 (R524), a chunk of the digest engine (R431), a request frame of the service port (R466). -/

namespace Sys2Proof

/-- A register's address as a host access names it (R31, R210). -/
def hostAddr (a : Nat) : Bool := a < 0x1000000 && a % 4 == 0

/-- A register's address as a write names it: the host's, or one on a processor's own path (log 36). -/
def pathAddr (a : Nat) : Bool := a / 2 ^ 48 ≤ 2 && hostAddr (a % 2 ^ 48)

/-- A corrected observation names at least one error, and an uncorrectable one at least two wrong bits of a word of its SRAM (R85, R87, R149). -/
def EccObs.wf (e : EccObs) : Bool :=
  match e with
  | .clean => true
  | .corrected loc n => loc ≤ 5 && 1 ≤ n
  | .uncorrected loc word flip => loc ≤ 5 && word < (if loc == 5 then 0x80000 else 0x40000) && flip < 2 ^ 64 && flip != 0 && flip &&& (flip - 1) != 0

/-- A border lies in the SRAMs of a coach, around a map with the widths of R177 and within the limits of R130. -/
def Border.wf (b : Border) : Bool :=
  1 ≤ b.mask && b.mask < 32 && b.base < 0x200000 && b.ty ≤ 7 && 1 ≤ b.height && b.height < 8192 && 1 ≤ b.width && b.width < 8192 && b.pitch < 8192 &&
  b.groups < 4096 && b.mode ≤ 2 && (b.mode != 2 || (b.top ≤ b.height - 1 && b.bottom ≤ b.height - 1 && b.left ≤ b.width - 1 && b.right ≤ b.width - 1)) &&
  -128 ≤ b.zeroPoint && b.zeroPoint ≤ 255

/-- An identifier has 8 bits, and data come in beats of 64 bytes (R204). -/
def MemRsp.wf (r : MemRsp) : Bool := r.id < 256 && (r.data.isEmpty || r.data.length == 64)

/-- A frame has a header of 32 bytes, a tag of 16, which an IDLE frame lacks, and a CRC of 32 bits (R275). -/
def LinkFrame.wf (f : LinkFrame) : Bool := f.header.length == 32 && (f.tag.length == 16 || f.tag.isEmpty) && f.crc < 2 ^ 32

/-- An answer to a heartbeat is one word (R388). -/
def HbView.wf (v : HbView) : Bool := v.words.length == 1 && v.words.all (· < 2 ^ 32)

/-- A command whose operands its source can give. -/
def Instr.wf (i : Instr) : Bool :=
  match i with
  | .regWrite addr _ _ => pathAddr addr
  | .pairLoRead addr _ => hostAddr addr
  | .pairLoWrite addr _ _ => pathAddr addr
  | .hostAccessError _ addr _ _ => addr < 2 ^ 48
  | .gigSlotEnd ecc => ecc.wf
  | .entryBegin _ x => x.borders.all Border.wf
  | .transferIssue x => x.ecc.wf
  | .carriageRunEnd _ ecc => ecc.wf
  | .bankDrainEnd _ x => x.ecc.wf && x.borders.all Border.wf
  | .stageEnd x => x.ecc.wf && x.borders.all Border.wf
  | .mpReadResponse _ rsp => rsp.wf
  | .mpWriteDone _ id _ => id < 256
  | .helloRx _ f => f.wf
  | .discoverRx _ f => f.wf
  | .chainTableRx _ f => f.wf
  | .discoverReqRx _ f => f.wf
  | .lineSyncRx _ f => f.wf
  | .haloRx _ f => f.wf
  | .haloReqTimer _ row _ => row < 2 ^ 32
  | .haloReqRx _ f => f.wf
  | .summaryRx _ f => f.wf
  | .summaryReqRx _ f => f.wf
  | .abortRx _ f => f.wf
  | .contextRetireRx _ f => f.wf
  | .retireAckRx _ f => f.wf
  | .heartbeatAnswer view => view.wf
  | .dgChunkDone data _ => data.length < 2 ^ 32
  | .svcHello f => f.length ≤ 4132
  | .svcBegin f => f.length ≤ 4132
  | .svcData f => f.length ≤ 4132
  | .svcEnd f => f.length ≤ 4132
  | .svcStatus f => f.length ≤ 4132
  | .svcDiscard f => f.length ≤ 4132
  | .svcActivate f => f.length ≤ 4132
  | .svcBadOp f => f.length ≤ 4132
  | .thermalSample temps => temps.length == 19
  | .frameErr _ f _ => f.crc < 2 ^ 32
  | .glCntClrCfgRejects | .glCntClrHostErrs | .encEdge _ _ | .stopTimeout | .sheetMarkEdge _ | .markSynth | .markFallback | .epochOpen | .indexEdge |
    .indexLost | .ttEnable _ | .ttDisable | .ttLoad | .ttClrFault | .slotRelease _ _ | .slotDeadline _ | .slotSlice _ | .slotSignal _ | .slotNone _ | .ttCntClrEncErr |
    .ttCntClrMarkCnt | .ttCntClrRowCnt | .ttCntClrDlMiss | .gigEntryBegin _ | .syncWaitEnd _ |
    .caCntClrBusy _ | .caCntClrStall _ | .caCntClrNumeric _ | .caCntClrEcc _ | .ggCntClrBusy | .ggCntClrWait | .ggCntClrNumeric | .ggCntClrEcc |
    .gigEccIdle | .mpWindowEnd | .fenceComplete _ | .fenceDrainTimeout _ | .memHung _ | .mpErrInfoClear | .mpCntClrPorts | .mpCntClrBeats |
    .mpCntClrDrops | .mpCntClrRing | .ledgerAbsorbRow _ | .preemptPointReached _ | .switchSaveDone _ | .switchRestoreDone _ | .timeSliceExpire _ |
    .scrubEnd _ _ | .retireTimerExpire _ | .retireResend _ | .glWbCntClr _ | .linkChannelChange _ | .linkBlockLock _ | .helloRepeat _ |
    .linkTrainTimeout _ | .linkRetrainDelay _ | .linkLockLost _ _ | .noHead | .summaryReqTimer _ | .abortRepeat | .bypassHoldMinLow |
    .tlCntClrPorts | .tlCntClrAbort | .tlCntClrDrops | .tlCntClrHalo | .h2kDataWrite _ _ _ | .h2kCommit _ _ | .h2kDiscard _ _ | .h2kDbSet _ _ _ |
    .k2hDataRead _ _ | .mbCntClrCnt _ _ | .mbCntClrAbort _ _ | .badOpcodeRequest _ | .deferredTimeout _ _ | .noticeDequeue _ | .identify _ |
    .setCmdRegion _ | .setNoticeRoute _ | .getCounters _ | .createContext _ | .destroyContext _ | .configContext _ _ | .setEdge _ | .setSlice _ |
    .loadWaybill _ _ | .loadWaybillDone _ | .loadWeights _ | .loadWeightsDone _ _ | .refPass _ _ | .refPassDone _ | .startJob _ | .stopJob _ |
    .stopJobDone _ | .abortJob _ | .abortFenceDone _ | .chainPosition _ | .chainJoin _ | .chainLeave _ | .bounceSetup _ | .bounceIn _ |
    .bounceInDone _ _ | .eventLatch _ | .evClaim _ _ | .evEoi _ _ _ | .evDiscard _ _ | .evPendWrite _ _ _ | .holdoffExpire _ _ | .evCntClrSpurious |
    .aonSenseEdge _ _ | .lanternHit _ | .lanternArm _ | .powerGoodRise _ | .powerGoodFall | .bootStepDone _ | .sbIdentify _ | .sbChallenge _ |
    .lcAdvance _ _ _ | .debugUnlock _ _ | .sbAttest _ _ | .keyUpdate _ _ _ | .keyLoad _ _ | .bounceKey _ | .reinClaim _ _ | .reinRelease _ _ |
    .heartbeatSend | .heartbeatMiss | .dgClaim _ | .dgRelease _ | .dgStart _ | .dgAbort _ | .dgMemGo _ | .dgDataWrite _ _ | .dgLastWrite _ _ |
    .dgResultRead _ _ | .dgDone | .dgExpire | .dgCntClr _ | .otpProgWord | .otpProgLock | .otpProgDone _ | .svcRead | .svcResponseReady |
    .svcSessionTimeout | .updateStatus _ | .activate _ | .activateComplete | .confirmHealth _ | .updateLock _ | .healthDue _ | .healthExpired _ |
    .coachHang _ | .gigHang | .cmWdog | .cmHang | .sbWdog | .sbClock | .coachResetDone _ | .coachResetHang _ | .partResetDone _ | .partResetHang _ |
    .gigResetHang | .seqTimeout | .replayEnd | .replayRowRelease _ | .securityResetFallback | .blockDrainDone | .dumpDone _ | .dumpTimeout _ | .dumpTrailerDone _ |
    .fltResetsDecay | .pwrReq _ _ _ | .pwrRampDone _ | .pwrOff _ | .blockResetDomainsOff | .pmSleepDeep | .sleepEntryStep | .pmWake | .pmReset _ |
    .clockMonitorWindow _ _ | .thermalLevelFall | .thermalTrip | .thermalTripClear | .svcFrameError _ | .pmThermCfgWrite _ | .supplyLowEdge _ | .dbgCtrlWrite _ _ |
    .tmuxEnFall | .tapBypass _ | .tapScanSel | .tapMbistRun | .tapMbistResult | .mbistDone _ | .mpBeatAccepted _ | .sbEcc | .tmuxEnRise |
    .tapTestLogicReset | .gigPageScrubEnd _ => true

end Sys2Proof
end

