-- ==== Sys2Proof/Safety.lean ====
section
/-! DEFINITION. What the statements call safe: commands that wait are well formed, stores are in canonical form, fuses only go from
unblown to blown. -/

namespace Sys2Proof.Machine

/-- Every command that waits is one that its source can give. -/
def State.queueWf (s : State) : Bool := s.pending.all Instr.wf

/-- The register file is in canonical form. -/
def State.regsWf (s : State) : Bool := SMap.wf fieldReset s.regs

/-- What the register pairs hold is in canonical form (R15). -/
def State.pairsWf (s : State) : Bool := SMap.wf (fun _ => 0) s.snap && SMap.wf (fun _ => 0) s.hiHold

/-- A register's field of kind RW-E (R14). -/
def rweField (a lo : Nat) : Bool :=
  match rowOf a with
  | none => false
  | some r => r.fields.any (fun x => x.lo == lo && decide (x.kind = .rwe))

/-- Values are pending in RW-E fields alone (R253). -/
def State.rweWf (s : State) : Bool := s.rwe.all (fun w => rweField w.addr w.lo)

/-- The one-time-programmable memory is in canonical form, as it reads at both margin references (R449). -/
def State.otpWf (s : State) : Bool := SMap.wf (fun _ => 0) s.otp.norm && SMap.wf (fun _ => 0) s.otp.tight

/-- Fuses of a word that are blown at the normal margin reference (R449). -/
def State.fuses (s : State) (w : Nat) : Nat := SMap.get (fun _ => 0) s.otp.norm w

/-- Every fuse that is blown in one state is blown in another (R445). -/
def State.fusesLe (s t : State) : Prop := ∀ w j, bit (s.fuses w) j = true → bit (t.fuses w) j = true

/-- The registers whose fields the latching of an event can write: pending and sampled bits, what the Lantern records, and the power
requests and the cause of a wake (R350, R351, R359, R523). -/
def evAddr (a : Nat) : Bool :=
  (0x700000 ≤ a && a < 0x700010) || (0x701000 ≤ a && a < 0x701010) || (0x700030 ≤ a && a < 0x700040) || a == 0xB00814 || a == 0xB00004 || a == 0xB0001C

/-- The fields of the model's own, which hold what a write of the present cycle finds (R14, R36): no register holds them. -/
def ownKey (k : Nat) : Bool := 0x2000000 ≤ k / 64

/-- The fields that the latching of an event can write: those, and the state and the lifecycle that a wake shows (R523). -/
def evKey (k : Nat) : Bool := evAddr (k / 64) || k == PM_SLEEP.STATE.key || k == GL_STATUS.LIFECYCLE.key || ownKey k

/-- Every register field but those of a list reads as before. -/
def State.kept (fs : List Fld) (s t : State) : Prop := ∀ f : Fld, ownKey f.key = false → (∀ g ∈ fs, f.key ≠ g.key) → rd f t = rd f s

/-- Every register field but those of a list, and those that the latching of an event can write, reads as before. -/
def State.keptEv (fs : List Fld) (s t : State) : Prop := ∀ f : Fld, evKey f.key = false → (∀ g ∈ fs, f.key ≠ g.key) → rd f t = rd f s

/-- The fields that a message can write besides: those of the mailbox channels, MBS1 among them (R306). -/
def msgKey (k : Nat) : Bool := evKey k || k / 64 / 0x100000 == 6 || k / 64 / 0x100000 == 16

/-- Every register field but those of a list, and those that an event or a message of a mailbox can write, reads as before. -/
def State.keptMsg (fs : List Fld) (s t : State) : Prop := ∀ f : Fld, msgKey f.key = false → (∀ g ∈ fs, f.key ≠ g.key) → rd f t = rd f s

/-- Every register field outside a list of windows (R28), and outside those that an event or a message of a mailbox can write, reads as
before. -/
def State.keptWin (ws : List Nat) (s t : State) : Prop := ∀ f : Fld, msgKey f.key = false → ws.contains (f.key / 64 / 0x100000) = false → rd f t = rd f s

/-- No frame waits for a scrub, no row waits to be posted, and no summary to be merged (R38, R264, R290). -/
abbrev State.noneWaits (s : State) : Prop :=
  s.tl.heldOut = [] ∧ ∀ n, (∀ x ∈ rowsOf n s, x.posted = true ∨ x.dropped = true ∨ x.absorbed = false) ∧ (cx n s).summaries = []

/-- What the waits of the stages are counted in (R114, R192). -/
def waitCounts : List Fld := allCoach.map (fun c => CA_STALL_MEM.COUNT c.val) ++ allCtx.map (fun n => GL_WB_LATE_CYC.COUNT (cid n))

/-- No escalation and no reset is in progress, and a unit's episode is not open: its next fault is the first of an episode (R483, R484). -/
def State.calm (u : Nat) (s : State) : Prop :=
  s.regsWf = true ∧ s.pw.reset = none ∧ s.flt.block = none ∧ s.flt.replay = none ∧ rdB (GL_FLT_STATE.RECOVERING u) s = false ∧ tandemJobs s = []

/-- A fault opens an episode of a unit: it is counted and recorded, with the level at which it is taken (R483). -/
def State.recorded (u code level : Nat) (s t : State) : Prop :=
  rd (GL_FLT_CNT.TOTAL u) t = min (rd (GL_FLT_CNT.TOTAL u) s + 1) (2 ^ (GL_FLT_CNT.TOTAL u).width - 1) ∧ rd (GL_FLT_P0.VALID u) t = 1 ∧
  rd (GL_FLT_P0.CODE u) t = code ∧ rd (GL_FLT_P0.LEVEL u) t = level ∧ rd (GL_FLT_P2.LINE u) t = rd TT_LINE.LINE s % 2 ^ 32 ∧ rd (GL_FLT_S0.VALID u) t = 0

/-- A rein as it is when whoever makes a reset or a fence has taken it where it was free: the Coachman's while it runs (R385). -/
def State.reinTaken (j : Nat) (s : State) : Nat := if rd (SB_REINS.HOLDERS j) s = 0 then (if cmUp s = true then 1 else 2) else rd (SB_REINS.HOLDERS j) s

/-- A fault is taken at level COACH (R494, R495): recorded, the unit is being reset behind its closed fence, and a replay of its suspects
is prepared. -/
def State.coachLevel (u : Fin 17) (code : Nat) (s t : State) : Prop :=
  s.recorded u.val code 2 t ∧ rd (GL_FLT_STATE.RECOVERING u.val) t = 1 ∧ rd (if u.val < 16 then CA_STATUS.STATE u.val else GG_STATUS.STATE) t = 6 ∧
  t.flt.resetAt[u] = some s.now ∧ t.pw.fenced.contains u.val = true ∧ rd (SB_REINS.HOLDERS 3) t = s.reinTaken 3 ∧ ∃ r, t.flt.replay = some r ∧ r.unit = u.val ∧ r.cur = none ∧ r.guilty = []

/-- A fault is taken at level BLOCK (R488, R499 step 1): recorded, the block is fenced, ALARM_N is low, and every lower level is superseded. -/
def State.blockLevel (u code : Nat) (s t : State) : Prop :=
  s.recorded u code 4 t ∧ rd (GL_FLT_STATE.RECOVERING u) t = 1 ∧ rd GL_STATUS.FENCED t = 1 ∧ t.pins.alarmN = false ∧ t.flt.replay = none ∧
  rd (SB_REINS.HOLDERS 4) t ≠ 0 ∧ (cmUp t = cmUp s → rd (SB_REINS.HOLDERS 4) t = s.reinTaken 4) ∧ ∃ b, t.flt.block = some b ∧ b.code = code ∧ b.unit = u ∧ b.start = s.now ∧ b.step = 1

/-- A counter's value for a count: it stays at its maximum (R16). -/
def sat (f : Fld) (n : Nat) : Nat := min n (2 ^ f.width - 1)

/-- A host access to an offset is served: the clocks run, and the port's checks pass (R32, R550). The register file is in its
canonical form. -/
def State.served (a : Nat) (sec : Bool) (s : State) : Prop := s.regsWf = true ∧ (s.tap.code == 0x10) = false ∧ hostCheck a sec false s = none

/-- A port takes a frame of a type: the link works, the port carries frames of that type, and LEN and CRC are right (R270, R275, R277). -/
def State.takes (p : LinkPort) (type : Nat) (f : LinkFrame) (s : State) : Prop :=
  linkOn s = true ∧ frType f = type ∧ portState p s = (if type = 0x01 then 1 else 2) ∧ frLenOk f = true ∧ frCrcOk f = true

/-- A sender reaches a register of a mailbox channel: MBS1 on the Coachman's own path while it runs, the others through the host port (R305). -/
def State.mbReach (k : Fin 6) (ofs : Nat) (sec : Bool) (s : State) : Prop := s.regsWf = true ∧ (k.val = 5 → cmUp s = true) ∧ (k.val ≠ 5 → s.served (mbBase k.val + ofs) sec)

/-- The outbox after a write of a sender to a mailbox channel: on MBS1 nothing is answered on the host port. -/
def State.mbAnswer (k : Fin 6) (s : State) : List Out := if k.val = 5 then s.out else .resp true 0 0 :: s.out

/-- A request waits on a channel, its firmware reads, and the channel's K2H queue has room for the answer, which no MAILBOX_ABORTED precedes (R308, R310,
R318, R326, R343). -/
def State.request (k : Fin 6) (op len : Nat) (r : Req) (s : State) : Prop :=
  s.regsWf = true ∧ reqOf k s = some r ∧ r.op = op ∧ r.len = len ∧ r.note = false ∧ reads k s = true ∧ k2hFree k s = true ∧ (chan k s).resps = [] ∧
    abortDue k s = false

/-- A request of the Coachman firmware in a block that is not fenced (R326, R329). -/
def State.cmRequest (k : Fin 6) (op len : Nat) (r : Req) (s : State) : Prop :=
  s.request k op len r ∧ k.val < 2 ∧ rdB GL_STATUS.FENCED s = false

/-- One that names a context whose job no abort fences (R329). -/
def State.ctxRequest (k : Fin 6) (op len : Nat) (n : Ctx) (r : Req) (s : State) : Prop :=
  s.cmRequest k op len r ∧ ctxOf (bits (r.w 1) 0 4) = some n ∧ (cx n s).abortFence = false

/-- A response stands in a channel's K2H queue (R308, R310, R326). -/
def State.answers (k : Fin 6) (op seq status : Nat) (payload : List Nat) (t : State) : Prop :=
  (chan k t).k2h = (op + seq * 2 ^ 8 + payload.length * 2 ^ 16 + status * 2 ^ 24) :: payload.map low32 ∧
  (chan k t).hdr = op + seq * 2 ^ 8 + payload.length * 2 ^ 16 + status * 2 ^ 24

/-- A request of the Strongbox firmware in a block that is not fenced (R326, R329). -/
def State.sbRequest (k : Fin 6) (op len : Nat) (r : Req) (s : State) : Prop := s.request k op len r ∧ rdB GL_STATUS.FENCED s = false

/-- A channel's K2H queue has room for a response, and nothing goes out before it (R308, R310, R318, R343). -/
def State.room (k : Fin 6) (s : State) : Prop := s.regsWf = true ∧ k2hFree k s = true ∧ (chan k s).resps = [] ∧ abortDue k s = false

/-- A deferred command of a context waits for its end on a channel whose K2H queue has room for its response (R327). -/
def State.awaits (ch : Fin 6) (n : Ctx) (op : Nat) (d : Deferred) (s : State) : Prop :=
  s.regsWf = true ∧ deferredOp n op s = some d ∧ d.ch = ch.val ∧ d.op = op ∧ k2hFree ch s = true ∧ (chan ch s).resps = [] ∧ abortDue ch s = false

/-- The Coachman firmware's commands with one opcode and one length: channel, OPCODE and LEN (R334). -/
def cmRow (i : Instr) : Option (Fin 6 × Nat × Nat) :=
  match i with
  | .identify k => some (k, 0x01, 0) | .setCmdRegion k => some (k, 0x02, 3) | .setNoticeRoute k => some (k, 0x03, 2) | .getCounters k => some (k, 0x04, 0)
  | .createContext x => some (x.ch, 0x10, 2) | .destroyContext k => some (k, 0x11, 1) | .configContext k _ => some (k, 0x12, 7) | .setEdge k => some (k, 0x13, 3)
  | .setSlice k => some (k, 0x14, 2) | .loadWaybill k _ => some (k, 0x15, 7) | .loadWeights k => some (k, 0x16, 3) | .refPass k _ => some (k, 0x17, 1)
  | .startJob k => some (k, 0x20, 3) | .stopJob k => some (k, 0x21, 2) | .abortJob k => some (k, 0x22, 1) | .chainPosition k => some (k, 0x30, 1)
  | .chainJoin k => some (k, 0x31, 0) | .chainLeave k => some (k, 0x32, 1) | .bounceSetup k => some (k, 0x40, 5) | .bounceIn k => some (k, 0x41, 7)
  | _ => none

/-- The Strongbox firmware's commands with fixed lengths: the channel of the request, the channel that serves it, OPCODE, and the lengths it
takes (R390, R415, R422, R477). -/
def sbRow (i : Instr) : Option (Fin 6 × Fin 6 × Nat × List Nat) :=
  match i with
  | .sbIdentify k => some (k, 2, 0x80, [0]) | .sbChallenge k => some (k, 4, 0x81, [0]) | .lcAdvance k _ _ => some (k, 4, 0x82, [7, 1])
  | .debugUnlock k _ => some (k, 4, 0x83, [7]) | .sbAttest k _ => some (k, 2, 0x84, [7]) | .keyUpdate k _ _ => some (k, 4, 0x85, [7])
  | .keyLoad k _ => some (k, 4, 0x86, [7]) | .bounceKey k => some (k, 4, 0x87, [4]) | .updateStatus k => some (k, 2, 0x88, [1])
  | .activate k => some (k, 4, 0x89, [1]) | .updateLock k => some (k, 4, 0x8B, [1])
  | _ => none

/-- A user of the digest engine reaches the register at an offset of its view (R426). -/
def State.dgReach (user : Target) (ofs : Nat) (s : State) : Prop :=
  match user with
  | .host => s.served (0x900000 + ofs) false
  | .coachman => s.regsWf = true ∧ cmUp s = true ∧ domOpen 21 s = true
  | .strongbox => s.regsWf = true ∧ domOpen 21 s = true

/-- The outbox after a write of a user of the digest engine: the host alone is answered on a port. -/
def State.dgAnswer (user : Target) (s : State) : List Out := match user with | .host => .resp true 0 0 :: s.out | _ => s.out

/-- A request frame of an OP reaches the service port while it is free, with the right length and CRC, and it is authentic (R466 to R468). -/
def State.svcRequest (op : Nat) (f : List Byte) (s : State) : Prop :=
  s.regsWf = true ∧ svcServes s = true ∧ svcBusy s = false ∧ svcOp f = op ∧ svcLenOk f s = true ∧ svcCrcOk f = true ∧ svcAuthOk f s = true

/-- The service port holds a response; what its ARG holds is a free value (R466 to R468, log 28). -/
def State.svcAnswers (f : List Byte) (status : Nat) (tagged : Bool) (payload : List Byte) (t : State) : Prop :=
  ∃ a b c : List Byte, a.length = 4 ∧
    b = leBytes 4 (svcOp f + svcSeq f * 2 ^ 8 + status * 2 ^ 16) ++ leBytes 4 payload.length ++ a ++ leBytes 4 0 ++ payload ∧
    c = (if tagged then b ++ svcTag 1 b t else b) ∧ t.sb.svc.resp = some (c ++ leBytes 4 (crc32 c).toNat)

/-- The service port's rows: the OPs that each takes, and its frame (R467). -/
def svcRow (i : Instr) : Option ((Nat → Bool) × List Byte) :=
  match i with
  | .svcHello f => some ((· == 1), f) | .svcBegin f => some ((· == 2), f) | .svcData f => some ((· == 3), f) | .svcEnd f => some ((· == 4), f)
  | .svcStatus f => some ((· == 5), f) | .svcDiscard f => some ((· == 6), f) | .svcActivate f => some ((· == 7), f)
  | .svcBadOp f => some ((fun o => o == 0 || 7 < o), f)
  | _ => none

/-- The block is awake, no reset is in progress, and no trip holds (R519, R521, R527). -/
def State.awake (s : State) : Prop := s.pw.reset = none ∧ rd PM_THERM_STATUS.TRIP s = 0 ∧ rd PM_SLEEP.STATE s = 0

/-- The Coachman is held in reset for an update (R475 step 1). -/
def State.coachmanHeld (t : State) : Prop :=
  rd GL_STATUS.CM_RELEASED t = 0 ∧ rd GL_STATUS.CMD_READY t = 0 ∧ rd (SB_REINS.HOLDERS 0) t = 2 ∧ cmUp t = false ∧ rd TL_CFG.JOINED t = 0

/-- The staged slot of a unit has become the active one, and the block reset that starts it is due (R474). -/
def State.switched (u : Nat) (s t : State) : Prop :=
  dirActive u t = 1 - dirActive u s ∧ dirState u t = 1 ∧ dirInactive u t = 2 ∧ t.sb.resetDue = some ⟨6, s.now, none⟩ ∧ t.pw.reset = s.pw.reset

/-- A security-class fault has been acted on: PM_FLT_LAST names it, the block is fenced, and the block reset begins, or the power cycle is requested
(R493, R498, R509). -/
def State.secured (code unit : Nat) (s t : State) : Prop :=
  rd PM_FLT_LAST.NEW t = 1 ∧ rd PM_FLT_LAST.SECURITY t = 1 ∧ rd PM_FLT_LAST.CODE t = code ∧ rd PM_FLT_LAST.CTX t = 0 ∧ rd PM_FLT_LAST.UNIT t = unit ∧ rd GL_STATUS.FENCED t = 1 ∧
  t.pins.alarmN = false ∧ t.pins.hold = false ∧ (rd PM_FLT_RESETS.RECENT s = 3 → t.pins.pwrCycN = false) ∧
  (rd PM_FLT_RESETS.RECENT s < 3 → t.pw.reset = some ⟨2, s.now, true⟩ ∧ rd PM_FLT_RESETS.RECENT t = rd PM_FLT_RESETS.RECENT s + 1 ∧ rd PM_RST_CAUSE.CAUSE t = 2)

/-- A BLOCK escalation has ended in the block reset, and PM_FLT_LAST names its fault (R493, R499, R509). -/
def State.blockReset (b : BlockEsc) (s t : State) : Prop :=
  rd PM_FLT_LAST.NEW t = 1 ∧ rd PM_FLT_LAST.SECURITY t = 0 ∧ rd PM_FLT_LAST.CODE t = b.code % 2 ^ PM_FLT_LAST.CODE.width ∧
  rd PM_FLT_LAST.UNIT t = b.unit % 2 ^ PM_FLT_LAST.UNIT.width ∧ t.flt.block = none ∧ t.pw.reset = some ⟨3, s.now, true⟩ ∧ rd PM_RST_CAUSE.CAUSE t = 3 ∧
  rd PM_FLT_RESETS.RECENT t = rd PM_FLT_RESETS.RECENT s + 1

/-- Every domain but PD_AON is off (R518). -/
def State.dark (t : State) : Prop := ∀ d, d < 24 → d ≠ 22 → rd (PM_PWR_STATUS.ON d) t = 0

/-- What a view shows of its message's progress and result (R440, R443). -/
def dgShown (v : Nat) : List Fld := DG_STATUS.ACTIVE v :: DG_STATUS.MEM_RUN v :: DG_STATUS.DONE v :: (List.range 16).map (DG_RESULT.RESULT v)

/-- The error bits of a view that a START clears (R430). -/
def dgErrors (v : Nat) : List Fld :=
  [DG_STATUS.BAD_COUNT v, DG_STATUS.EARLY_READ v, DG_STATUS.MEM_ERR v, DG_STATUS.BAD_SRC v, DG_STATUS.BAD_KEY v, DG_STATUS.LOST v, DG_STATUS.EXPIRED v]

/-- The configuration of a view, which a release sets back (R427). -/
def dgConfig (v : Nat) : List Fld :=
  [DG_CFG.ALG v, DG_CFG.HMAC v, DG_CFG.KEY_SRC v, DG_CFG.KEY_LEN v, DG_LAST_CNT.COUNT v, DG_SRC.ADDR v, DG_SRC_LEN.BYTES v, DG_MEM_CFG.FINAL v, DG_MEM_CFG.SEL v]

/-- The owner as every view and the reins show it (R427). -/
def dgOwnFields : List Fld := SB_REINS.HOLDERS 6 :: (List.range 3).map DG_OWN.OWNER

/-- The invariant of the block that every command keeps: what waits is well formed, and every store is canonical. -/
def State.inv (s : State) : Bool := s.queueWf && s.regsWf && s.pairsWf && s.rweWf && s.otpWf

/-- A host write has cleared counters: they read 0, what is added to them in the same cycle will be lost, the host is answered OK, and nothing else
changes (R36). -/
def State.cleared (fs : List Fld) (s t : State) : Prop :=
  (∀ f ∈ fs, rd f t = 0 ∧ rd (clearedF f) t = 1) ∧ s.kept fs t ∧ t = { s with regs := t.regs, out := .resp true 0 0 :: s.out }

/-- A host row's access is a write: all are but the read of a pair. -/
def hostWrites (i : Instr) : Bool := match i with | .pairLoRead _ _ => false | _ => true

/-- The coaches whose running stage belongs to a context of a mask, with their waits counted up to now: a clear of the contexts' counters
comes after them (R192, R201). -/
def State.waitsCounted (mask : BitVec 8) (s : State) : State :=
  each (allCoach.filter (fun c => match (co c s).run with | some r => bit mask.toNat r.ctx.val | none => false)) (fun c t => syncSettle c (queueRoll c t)) s

/-- The offset and the secure flag of the host access that a command is, where it is one; the digest engine's rows and MBS1 have other
senders too. -/
def hostRow (i : Instr) : Option (Nat × Bool) :=
  match i with
  | .regWrite a _ sec => if a < 2 ^ 48 then some (a, sec) else none
  | .pairLoWrite a _ sec => if a < 2 ^ 48 then some (a, sec) else none
  | .pairLoRead a sec => some (a, sec)
  | .glCntClrCfgRejects => some (0x28, false) | .glCntClrHostErrs => some (0x28, false)
  | .ttEnable _ => some (0x100000, false) | .ttDisable => some (0x100000, false) | .ttLoad => some (0x100000, false)
  | .ttClrFault => some (0x100000, false) | .ttCntClrEncErr => some (0x100068, false) | .ttCntClrMarkCnt => some (0x100068, false)
  | .ttCntClrRowCnt => some (0x100068, false) | .ttCntClrDlMiss => some (0x100068, false)
  | .caCntClrBusy c => some (0x200030 + 0x10000 * c.val, false) | .caCntClrStall c => some (0x200030 + 0x10000 * c.val, false)
  | .caCntClrNumeric c => some (0x200030 + 0x10000 * c.val, false) | .caCntClrEcc c => some (0x200030 + 0x10000 * c.val, false)
  | .ggCntClrBusy => some (0x300030, false) | .ggCntClrWait => some (0x300030, false) | .ggCntClrNumeric => some (0x300030, false)
  | .ggCntClrEcc => some (0x300030, false) | .mpErrInfoClear => some (0x400014, false) | .mpCntClrPorts => some (0x400020, false)
  | .mpCntClrBeats => some (0x400020, false) | .mpCntClrDrops => some (0x400020, false) | .mpCntClrRing => some (0x400020, false)
  | .glWbCntClr _ => some (0x240, false) | .tlCntClrPorts => some (0x500020, false) | .tlCntClrAbort => some (0x500020, false)
  | .tlCntClrDrops => some (0x500020, false) | .tlCntClrHalo => some (0x500020, false)
  | .evCntClrSpurious => some (0x700094, false) | .evDiscard fast _ => some (0x700088 + evBank fast, false)
  | .evPendWrite fast w _ => some (0x700000 + evBank fast + 4 * w.val, false) | .lanternArm _ => some (0xB00800, false)
  | .pmThermCfgWrite _ => some (0xB00034, false)
  | _ => none

end Sys2Proof.Machine
end

