-- ==== Sys2Proof/Certificates/Slice0/Obligations.lean ====
section
/-! DEFINITION. The statements for the provers: what the commands of the block do, by the rules of the spec. -/

open Sys2Proof Sys2Proof.Machine

/-- A step takes the command at the front of the queue and runs it on the block with the rest of the queue; on an empty queue a cycle
passes, with what the block does in it of its own (log 1, log 2, log 14: the model's own). -/
def Obligations.StepRunsTheFrontCommand : Prop :=
  (∀ (c : Instr) (r : List Instr) (s : State), step { s with pending := c :: r } = exec c { s with pending := r }) ∧
  (∀ s : State, s.pending = [] → step s = .next (idle s) ∧ (idle s).now = s.now + 1 ∧ (idle s).pending = [])

/-- No command stops the model, and none touches the queue or the clock; what has left the block stays so, and free values are only
taken, never given back (log 1, log 2, log 5, log 7: the model's own). -/
def Obligations.CommandsKeepQueueClockAndOutbox : Prop :=
  ∀ (c : Instr) (s : State), ∃ t, exec c s = .next t ∧ t.pending = s.pending ∧ t.now = s.now ∧ s.out <:+ t.out ∧ s.freeN ≤ t.freeN

/-- Every step keeps the invariant: well-formed commands wait, and registers, pairs and fuses are held in canonical form. -/
def Obligations.StoresStayCanonicalUnderEveryStep : Prop :=
  ∀ s t : State, s.inv = true → step s = .next t → t.inv = true

/-- The state right after reset meets the invariant, and its registers read their reset values (R13). -/
def Obligations.ResetStateIsCanonical : Prop :=
  State.reset.inv = true ∧ ∀ f : Fld, rd f State.reset = fieldReset f.key

/-- A blown fuse stays blown in every step (R445). -/
def Obligations.BlownFusesStayBlown : Prop :=
  ∀ s t : State, s.otpWf = true → step s = .next t → s.fusesLe t

/-- A host access that is not served is answered with its error and has no other effect than its count and its event (R32, R35). -/
def Obligations.RefusedHostAccessIsAnsweredAndCounted : Prop :=
  ∀ (s : State) (w b sec : Bool) (a : Nat) (e : HostErr), s.regsWf = true → (s.tap.code == 0x10) = false →
    hostCheck a sec b s = some e →
    ∃ t, exec (.hostAccessError w a b sec) s = .next t ∧ t.out = .resp w (hostErrStatus e) 0 :: s.out ∧
      t = { s with regs := t.regs, pw := t.pw, out := t.out } ∧
      match hostErrCounter e with
      | none => t.regs = s.regs
      | some f => rd f t = min (rd f s + 1) 255 ∧ s.keptEv [f] t

/-- Every host access, whatever its row, is refused in the same way when it is not served, and does nothing while SCAN_SEL gates the
clocks (R32, R550, log 29). -/
def Obligations.EveryHostRowIsRefusedAlike : Prop :=
  ∀ (i : Instr) (a : Nat) (sec : Bool) (s : State), hostRow i = some (a, sec) →
    (∀ e, (s.tap.code == 0x10) = false → hostCheck a sec false s = some e → exec i s = exec (.hostAccessError (hostWrites i) a false sec) s) ∧
    ((s.tap.code == 0x10) = true → exec i s = .next s)

/-- A host write of a register with one field has the effect of the field's kind (R14, R253, R254); the registers with rows of their own,
the digest engine's and the event masks of sources that the host does not serve are left out (log 4). A W1C bit that hardware has set in
the same cycle stays (R14). A write of PROF_EN counts up to the present cycle what it has counted, and shows in PROF_ON (R115, R117, R157). -/
def Obligations.RegisterWriteFollowsTheFieldsKind : Prop :=
  (∀ (s : State) (a : Nat) (d : Word) (sec : Bool) (r : RRow) (x : FRow), s.served a sec → rowOf a = some r → r.pair = 0 → r.fields = [x] →
    ownRow a = false → profAddr a = false → a / 0x100000 ≠ 9 → hostReaches ⟨a, x.lo, x.width⟩ s = true → evKey (Fld.key ⟨a, x.lo, x.width⟩) = false →
    ∃ t, exec (.regWrite a d sec) s = .next t ∧ t.out = .resp true 0 0 :: s.out ∧
      (x.kind = .rw → rd ⟨a, x.lo, x.width⟩ t = storeLimit ⟨a, x.lo, x.width⟩ (bits d.toNat x.lo x.width) % 2 ^ x.width ∧ s.keptEv [⟨a, x.lo, x.width⟩] t) ∧
      (x.kind = .ro → s.keptEv [] t) ∧
      (x.kind = .w1c → (rd ⟨a, x.lo, x.width⟩ s < 2 ^ x.width) →
        rd ⟨a, x.lo, x.width⟩ t = (rd ⟨a, x.lo, x.width⟩ s - (rd ⟨a, x.lo, x.width⟩ s &&& storeLimit ⟨a, x.lo, x.width⟩ (bits d.toNat x.lo x.width)) |||
          (rd ⟨a, x.lo, x.width⟩ s &&& rd (freshF ⟨a, x.lo, x.width⟩) s)) ∧
        s.keptEv [⟨a, x.lo, x.width⟩] t) ∧
      (x.kind = .rwe → rweOf ⟨a, x.lo, x.width⟩ t = some (storeLimit ⟨a, x.lo, x.width⟩ (bits d.toNat x.lo x.width) % 2 ^ x.width) ∧ s.keptEv [] t) ∧
      (x.kind = .rwl → ownerRuns a s = false →
        rd ⟨a, x.lo, x.width⟩ t = storeLimit ⟨a, x.lo, x.width⟩ (bits d.toNat x.lo x.width) % 2 ^ x.width ∧ s.keptEv [⟨a, x.lo, x.width⟩] t) ∧
      (x.kind = .rwl → ownerRuns a s = true →
        rd GL_CFG_REJECTS.COUNT t = min (rd GL_CFG_REJECTS.COUNT s + 1) 65535 ∧ rd GL_CFG_REJECTS.LAST_BLOCK t = a / 0x100000 % 16 ∧
        s.keptEv [GL_CFG_REJECTS.COUNT, GL_CFG_REJECTS.LAST_BLOCK] t)) ∧
  (∀ (s : State) (c : Coach) (d : Word) (sec : Bool), s.served (0x200004 + 0x10000 * c.val) sec →
    ∃ t, exec (.regWrite (0x200004 + 0x10000 * c.val) d sec) s = .next t ∧ rd (CA_CFG.PROF_EN c.val) t = bits d.toNat 0 1 ∧
      rd (CA_STATUS.PROF_ON c.val) t = b2n (bit d.toNat 0 && !confidential s) ∧ t.out = .resp true 0 0 :: s.out ∧
      (ownerRuns (0x200004 + 0x10000 * c.val) s = false → (coachSettle c s).keptEv ([CA_CFG.PROF_EN c.val, CA_CFG.SAT_FAULT c.val, CA_CFG.NAN_FAULT c.val, GG_STATUS.PROF_ON] ++
        allCoach.map (fun k => CA_STATUS.PROF_ON k.val)) t) ∧
      (ownerRuns (0x200004 + 0x10000 * c.val) s = true → rd GL_CFG_REJECTS.COUNT t = min (rd GL_CFG_REJECTS.COUNT s + 1) 65535 ∧
        (coachSettle c s).keptEv ([CA_CFG.PROF_EN c.val, GL_CFG_REJECTS.COUNT, GL_CFG_REJECTS.LAST_BLOCK, GG_STATUS.PROF_ON] ++
          allCoach.map (fun k => CA_STATUS.PROF_ON k.val)) t)) ∧
  (∀ (s : State) (d : Word) (sec : Bool), s.served 0x300004 sec →
    ∃ t, exec (.regWrite 0x300004 d sec) s = .next t ∧ rd GG_CFG.PROF_EN t = bits d.toNat 0 1 ∧
      rd GG_STATUS.PROF_ON t = b2n (bit d.toNat 0 && !confidential s) ∧ t.out = .resp true 0 0 :: s.out ∧
      (ownerRuns 0x300004 s = false → (gigSettle s).keptEv ([GG_CFG.PROF_EN, GG_CFG.SAT_FAULT, GG_CFG.NAN_FAULT, GG_STATUS.PROF_ON] ++
        allCoach.map (fun k => CA_STATUS.PROF_ON k.val)) t) ∧
      (ownerRuns 0x300004 s = true → rd GL_CFG_REJECTS.COUNT t = min (rd GL_CFG_REJECTS.COUNT s + 1) 65535 ∧
        (gigSettle s).keptEv ([GG_CFG.PROF_EN, GL_CFG_REJECTS.COUNT, GL_CFG_REJECTS.LAST_BLOCK, GG_STATUS.PROF_ON] ++ allCoach.map (fun k => CA_STATUS.PROF_ON k.val)) t))

/-- A read of a pair's _LO register answers its low word, as it is in that cycle, and captures the rest for _HI; a write of _LO commits the
whole value with the value held for _HI (R15). -/
def Obligations.RegisterPairsAreReadAndWrittenWhole : Prop :=
  (∀ (s : State) (a : Nat) (sec : Bool), s.served a sec → s.pairsWf = true →
    ∃ t, exec (.pairLoRead a sec) s = .next t ∧ t.out = .resp false 0 (pairValue a (settleAt a s) % 2 ^ 32) :: s.out ∧
      SMap.get (fun _ => 0) t.snap a = pairValue a (settleAt a s) / 2 ^ 32 ∧ (∀ b, b ≠ a → SMap.get (fun _ => 0) t.snap b = SMap.get (fun _ => 0) s.snap b) ∧
      t = { s with snap := t.snap, out := t.out }) ∧
  (∀ (s : State) (a : Nat) (d : Word) (sec : Bool) (r : RRow) (x : FRow), s.served a sec → rowOf a = some r → r.pair = 1 → r.fields = [x] →
    x.kind = .rw → a / 0x100000 ≠ 9 → a < 0x700000 →
    ∃ t, exec (.pairLoWrite a d sec) s = .next t ∧
      rd ⟨a, x.lo, x.width⟩ t = (SMap.get (fun _ => 0) s.hiHold a * 2 ^ 32 + d.toNat) % 2 ^ x.width ∧
      s.kept [⟨a, x.lo, x.width⟩] t ∧ t = { s with regs := t.regs, out := .resp true 0 0 :: s.out })

/-- A write of 1 to a clear bit of the global, Timetable, coach and Gig counters clears its fields and nothing else, a running unit being brought up
to the present cycle first; in confidential mode those of the coaches and the Gig engine stay (R36, R83, R124, R163). What is added to a counter in the cycle of its clear is lost
at the cycle's end (R36). -/
def Obligations.GlobalTimetableAndEngineCountersClear : Prop :=
  ∀ s : State,
    (s.served 0x28 false → ∃ t, exec .glCntClrCfgRejects s = .next t ∧ s.cleared [GL_CFG_REJECTS.COUNT, GL_CFG_REJECTS.LAST_BLOCK] t) ∧
    (s.served 0x28 false → ∃ t, exec .glCntClrHostErrs s = .next t ∧ s.cleared [GL_HOST_ERRS.UNMAPPED, GL_HOST_ERRS.NOT_SECURE, GL_HOST_ERRS.DOMAIN_OFF] t) ∧
    (s.served 0x100068 false → ∃ t, exec .ttCntClrEncErr s = .next t ∧ s.cleared [TT_ENC_ERR.ILLEGAL, TT_ENC_ERR.SPIKE, TT_ENC_ERR.Z_ERR, TT_ENC_ERR.MARK_SPUR] t) ∧
    (s.served 0x100068 false → ∃ t, exec .ttCntClrMarkCnt s = .next t ∧ s.cleared [TT_MARK_CNT.MISSED, TT_MARK_CNT.OVF] t) ∧
    (s.served 0x100068 false → ∃ t, exec .ttCntClrRowCnt s = .next t ∧ s.cleared [TT_ROW_CNT.SKIPPED, TT_ROW_CNT.WAIVED] t) ∧
    (s.served 0x100068 false → ∃ t, exec .ttCntClrDlMiss s = .next t ∧ s.cleared [TT_DL_MISS.COUNT] t) ∧
    (confidential s = false →
      (s.served 0x300030 false → ∃ t, exec .ggCntClrBusy s = .next t ∧ (gigSettle s).cleared [GG_BUSY.COUNT] t) ∧
      (s.served 0x300030 false → ∃ t, exec .ggCntClrWait s = .next t ∧ (gigSettle s).cleared [GG_WAIT.COUNT] t) ∧
      (s.served 0x300030 false → ∃ t, exec .ggCntClrNumeric s = .next t ∧ (gigSettle s).cleared [GG_NUMERIC.ACC_SAT, GG_NUMERIC.OUT_SAT, GG_NUMERIC.NAN] t) ∧
      (s.served 0x300030 false → ∃ t, exec .ggCntClrEcc s = .next t ∧ (gigSettle s).cleared [GG_ECC.CORR, GG_ECC.UNCORR] t) ∧
      ∀ c : Coach,
        (s.served (0x200030 + 0x10000 * c.val) false → ∃ t, exec (.caCntClrBusy c) s = .next t ∧ (coachSettle c s).cleared [CA_BUSY.COUNT c.val] t) ∧
        (s.served (0x200030 + 0x10000 * c.val) false → ∃ t, exec (.caCntClrStall c) s = .next t ∧ (coachSettle c s).cleared [CA_STALL_MEM.COUNT c.val, CA_STALL_POST.COUNT c.val] t) ∧
        (s.served (0x200030 + 0x10000 * c.val) false → ∃ t, exec (.caCntClrNumeric c) s = .next t ∧ (coachSettle c s).cleared [CA_NUMERIC.ACC_SAT c.val, CA_NUMERIC.OUT_SAT c.val, CA_NUMERIC.NAN c.val] t) ∧
        (s.served (0x200030 + 0x10000 * c.val) false → ∃ t, exec (.caCntClrEcc c) s = .next t ∧ (coachSettle c s).cleared [CA_ECC.CORR c.val, CA_ECC.UNCORR c.val] t)) ∧
    (confidential s = true →
      (s.served 0x300030 false → ∀ i ∈ [Instr.ggCntClrBusy, .ggCntClrWait, .ggCntClrNumeric, .ggCntClrEcc],
        exec i s = .next { s with out := .resp true 0 0 :: s.out }) ∧
      ∀ c : Coach, s.served (0x200030 + 0x10000 * c.val) false → ∀ i ∈ [Instr.caCntClrBusy c, .caCntClrStall c, .caCntClrNumeric c, .caCntClrEcc c],
        exec i s = .next { s with out := .resp true 0 0 :: s.out }) ∧
    (s.gig.run = none → gigSettle s = s) ∧ (∀ c : Coach, (co c s).run = none → coachSettle c s = s) ∧
    (s.regsWf = true → ∀ f : Fld, ownKey f.key = false → rd (clearedF f) s ≠ 0 → rd f (tick s) = 0)

/-- The counters of the memory ports, the waybills and the Tandem link clear in the same way (R201, R233, R302); the record of the last memory
error is given free, but for one that the same cycle brings (R232). A wait in progress is counted up to the clear first (R192). -/
def Obligations.PortWaybillAndLinkCountersClear : Prop :=
  ∀ s : State,
    (s.served 0x400014 false → rdB (freshF MP_ERR_INFO.VALID) s = false → ∃ t, exec .mpErrInfoClear s = .next t ∧ rd MP_ERR_INFO.VALID t = 0 ∧ rd MP_ERR_INFO.MORE t = 0 ∧
      s.kept [MP_ERR_INFO.VALID, MP_ERR_INFO.MORE] t ∧ t = { s with regs := t.regs, out := .resp true 0 0 :: s.out }) ∧
    (s.served 0x400014 false → rdB (freshF MP_ERR_INFO.VALID) s = true → exec .mpErrInfoClear s = .next { s with out := .resp true 0 0 :: s.out }) ∧
    (s.served 0x400020 false → ∃ t, exec .mpCntClrPorts s = .next t ∧ s.cleared ((List.range 8).flatMap (fun p => [MP_P_LAT_MAX.NS p, MP_P_LATE.COUNT p, MP_P_STALL.COUNT p, MP_P_ERRS.RD_ERR p,
      MP_P_ERRS.WR_ERR p, MP_P_ORPHAN.DISCARDED p])) t) ∧
    (s.served 0x400020 false → ∃ t, exec .mpCntClrBeats s = .next t ∧ s.cleared ((List.range 8).map (fun p => MP_P_BEATS.COUNT p)) t) ∧
    (s.served 0x400020 false → ∃ t, exec .mpCntClrDrops s = .next t ∧ s.cleared [MP_RETIRED_DROPS.COUNT, MP_RETIRED_DROPS.LAST_CTX, MP_FENCE.ABANDONED] t) ∧
    (s.served 0x400020 false → ∃ t, exec .mpCntClrRing s = .next t ∧ s.cleared (allCtx.flatMap (fun n => [MP_CTX_RING.OVERWRITE (cid n), MP_CTX_RING.STAMP_MISMATCH (cid n)])) t) ∧
    (∀ mask : BitVec 8, s.served 0x240 false → ∃ t, exec (.glWbCntClr mask) s = .next t ∧ (s.waitsCounted mask).cleared ((allCtx.filter (fun n => mask.getLsbD n.val)).flatMap (fun n => [GL_WB_LATE_CYC.COUNT (cid n),
      GL_WB_LATE_BEATS.COUNT (cid n), GL_WB_OVERRUN.COUNT (cid n), GL_WB_OVERRUN.LAST_STAGE (cid n), GL_WB_OVERRUN.LAST_COACH (cid n), GL_WB_DELAY.MAX (cid n),
      GL_WB_FOREIGN.COUNT (cid n), GL_WB_DROPS.ROWS (cid n), GL_WB_DROPS.RES_EXCEED (cid n)])) t) ∧
    (s.served 0x500020 false → ∃ t, exec .tlCntClrPorts s = .next t ∧ s.cleared ((List.range 2).flatMap (fun p => [TL_P_ERR.CRC p, TL_P_ERR.LEN p, TL_P_ERR.AUTH p, TL_P_ERR.REPLAY p, TL_P_TRAIN.COUNT p])) t) ∧
    (s.served 0x500020 false → ∃ t, exec .tlCntClrAbort s = .next t ∧ s.cleared [TL_ABORT.COUNT, TL_ABORT.HELD] t) ∧
    (s.served 0x500020 false → ∃ t, exec .tlCntClrDrops s = .next t ∧ s.cleared [TL_DROPS.RETIRED, TL_DROPS.NO_CTX] t) ∧
    (s.served 0x500020 false → ∃ t, exec .tlCntClrHalo s = .next t ∧ s.cleared [TL_HALO.REQ, TL_HALO.RESENT, TL_HALO.LOST] t)

/-- An accepted count steps the divider and the net count of the index interval, and nothing else while no line boundary is crossed; an
illegal transition is counted (R41 to R44, R63). A level of ENC_A or ENC_B is accepted when it has held for the filter time, as the model counts it
(R40, log 35). -/
def Obligations.EncoderCountsStepTheDivider : Prop :=
  ∀ (s : State) (a b f : Bool) (l : Bool × Bool), s.regsWf = true → domOpen 17 s = true → rdB TT_CTRL.ENABLE s = true → filtered a b s = l →
    (decodeEdge (rd TT_ENC_CFG.MODE s) s.tt.encA s.tt.encB l.1 l.2 = some (some f) → f ≠ rdB TT_ENC_CFG.INV_DIR s → s.tt.acc + rd TT_STEP.STEP s < 0x1000000 →
      exec (.encEdge a b) s = .next { s with tt := { (encTaken l.1 l.2 s).tt with zNet := s.tt.zNet + 1, acc := s.tt.acc + rd TT_STEP.STEP s } }) ∧
    (decodeEdge (rd TT_ENC_CFG.MODE s) s.tt.encA s.tt.encB l.1 l.2 = some (some f) → f = rdB TT_ENC_CFG.INV_DIR s → rd TT_STEP.STEP s ≤ s.tt.acc →
      exec (.encEdge a b) s = .next { s with tt := { (encTaken l.1 l.2 s).tt with zNet := s.tt.zNet - 1, acc := s.tt.acc - rd TT_STEP.STEP s } }) ∧
    (decodeEdge (rd TT_ENC_CFG.MODE s) s.tt.encA s.tt.encB l.1 l.2 = some none → (inWindow s.tt.bounds s.tt.illegal).length < 15 →
      (inWindow s.tt.bounds s.tt.spikes).length < 16 →
      ∃ t, exec (.encEdge a b) s = .next t ∧ rd TT_ENC_ERR.ILLEGAL t = sat TT_ENC_ERR.ILLEGAL (rd TT_ENC_ERR.ILLEGAL s + 1) ∧ s.kept [TT_ENC_ERR.ILLEGAL] t ∧
        t = { s with regs := t.regs, tt := { (encTaken l.1 l.2 s).tt with illegal := s.tt.bounds :: inWindow s.tt.bounds s.tt.illegal, cleanLines := 0 } }) ∧
    (l = (s.tt.encA, s.tt.encB) → exec (.encEdge a b) s = .next s) ∧
    (∀ t, a ≠ s.tt.encA → s.tt.levelAt[PressIn.encA.idx] = some t → (l.1 = a ↔ t + 8 * (rd TT_ENC_CFG.FILTER s + 1) ≤ s.now)) ∧
    (∀ t, b ≠ s.tt.encB → s.tt.levelAt[PressIn.encB.idx] = some t → (l.2 = b ↔ t + 8 * (rd TT_ENC_CFG.FILTER s + 1) ≤ s.now)) ∧
    (l.1 ≠ s.tt.encA → (encTaken l.1 l.2 s).tt.levelAt[PressIn.encA.idx] = some s.now) ∧ (l.2 ≠ s.tt.encB → (encTaken l.1 l.2 s).tt.levelAt[PressIn.encB.idx] = some s.now)

/-- In RUN and CRAWL a forward line boundary adds 1 to TT_LINE, modulo 2^48, and leaves the remainder of the divider in the accumulator
(R44, R45); LINE_STAMP takes the value at the next edge of FAB_CLK, and its HOLD output is low (R46, R538). -/
def Obligations.ForwardBoundaryCountsOneLine : Prop :=
  ∀ (s : State) (a b f : Bool) (l : Bool × Bool), s.regsWf = true → domOpen 17 s = true → rdB TT_CTRL.ENABLE s = true → (ttState s = 1 ∨ ttState s = 2) → filtered a b s = l →
    decodeEdge (rd TT_ENC_CFG.MODE s) s.tt.encA s.tt.encB l.1 l.2 = some (some f) → f ≠ rdB TT_ENC_CFG.INV_DIR s → 0x1000000 ≤ s.tt.acc + rd TT_STEP.STEP s →
    ∃ t, exec (.encEdge a b) s = .next t ∧ rd TT_LINE.LINE t = (rd TT_LINE.LINE s + 1) % 2 ^ 48 ∧
      t.tt.acc = s.tt.acc + rd TT_STEP.STEP s - 0x1000000 ∧ t.coach = s.coach ∧ t.otp = s.otp ∧ t.out = s.out ∧
      lineStamp t = lineStamp s ∧ lineStamp (tick t) = rd TT_LINE.LINE t ∧ (s.pw.reset = none → lineStampHold s = false)

/-- No boundary for TT_STOP_TO enters STOP with rate 0, or, in FAULT, sets the rate to 0 (R61, R65); TT_CTRL's rows switch the Timetable on
in CRAWL, with what was written while it was off (R14, R253), and off to IDLE, load TT_LINE, and leave FAULT (R45, R60, R64, R68). -/
def Obligations.MotionStatesFollowTheirCommands : Prop :=
  ∀ s : State, s.regsWf = true → s.rweWf = true →
    (s.tt.stopRef + us (rd TT_STOP_TO.TIME s) ≤ s.now → (ttState s = 1 ∨ ttState s = 2 ∨ ttState s = 4 ∨ ttState s = 5) →
      ∃ t, exec .stopTimeout s = .next t ∧ rd TT_STATUS.STATE t = 3 ∧ rd TT_RATE.LPS t = 0 ∧ s.keptEv [TT_STATUS.STATE, TT_RATE.LPS] t ∧
        t = { s with regs := t.regs, pw := t.pw, tt := t.tt, ctx := t.ctx }) ∧
    (s.tt.stopRef + us (rd TT_STOP_TO.TIME s) ≤ s.now → ttState s = 6 →
      ∃ t, exec .stopTimeout s = .next t ∧ rd TT_RATE.LPS t = 0 ∧ s.kept [TT_RATE.LPS] t ∧ t = { s with regs := t.regs, tt := { s.tt with halted := true } }) ∧
    (∀ load, s.served 0x100000 false → rdB TT_CTRL.ENABLE s = false →
      ∃ t, exec (.ttEnable load) s = .next t ∧ rd TT_CTRL.ENABLE t = 1 ∧ rd TT_STATUS.STATE t = 2 ∧ rd TT_BACK.LINES t = 0 ∧ rd TT_EPOCH.NUMBER t = 0 ∧
        rd TT_LINE.LINE t = (if load then rd TT_LINE_SET.LINE s % 2 ^ 48 else rd TT_LINE.LINE s) ∧ t.tt.acc = 0 ∧ t.tt.intervals = [] ∧
        t.rwe = s.rwe.filter (fun w => !(w.off || s.rwe.any (fun v => v.off && v.addr == w.addr && v.lo == w.lo && decide (w.at_ ≤ v.at_)))) ∧
        (∀ n, (cx n s).edgeNext = [] → (cx n t).edge = (cx n s).edge) ∧ (∀ n w, (cx n s).edgeNext = [w] → w.off = true → (cx n t).edge = w.edge ∧ (cx n t).edgeNext = []) ∧
        t.out = .resp true 0 0 :: s.out) ∧
    (s.served 0x100000 false → rdB TT_CTRL.ENABLE s = true → rd TT_BACK.LINES s ≠ 0 →
      ∃ t, exec .ttDisable s = .next t ∧ rd TT_CTRL.ENABLE t = 0 ∧ rd TT_STATUS.STATE t = 0 ∧ rd TT_BACK.LINES t = 0) ∧
    (s.served 0x100000 false → rdB TT_CTRL.ENABLE s = false → exec .ttDisable s = .next { s with out := .resp true 0 0 :: s.out }) ∧
    (s.served 0x100000 false → rdB TT_CTRL.ENABLE s = true → rd TT_BACK.LINES s = 0 → withheld s = false →
      ∃ t, exec .ttDisable s = .next t ∧ rd TT_CTRL.ENABLE t = 0 ∧ rd TT_STATUS.STATE t = 0 ∧ s.keptEv [TT_CTRL.ENABLE, TT_STATUS.STATE, TT_RATE.LPS] t ∧
        t = { s with regs := t.regs, pw := t.pw, tt := t.tt, ctx := t.ctx, out := .resp true 0 0 :: s.out }) ∧
    (s.served 0x100000 false → rdB TT_CTRL.ENABLE s = false →
      ∃ t, exec .ttLoad s = .next t ∧ rd TT_LINE.LINE t = rd TT_LINE_SET.LINE s % 2 ^ 48 ∧ s.kept [TT_LINE.LINE] t ∧
        t = { s with regs := t.regs, out := .resp true 0 0 :: s.out }) ∧
    (s.served 0x100000 false → rdB TT_CTRL.ENABLE s = true →
      exec .ttLoad s = .next { s with out := .resp true 0 0 :: s.out } ∧ ∀ load, exec (.ttEnable load) s = .next { s with out := .resp true 0 0 :: s.out }) ∧
    (s.served 0x100000 false → ttState s = 6 →
      ∃ t, exec .ttClrFault s = .next t ∧ rd TT_STATUS.STATE t = (if rd TT_BACK.LINES s = 0 then 2 else 5) ∧ t.tt.illegal = [] ∧ t.tt.spikes = [] ∧
        s.keptEv [TT_STATUS.STATE, TT_RATE.LPS] t ∧ t = { s with regs := t.regs, pw := t.pw, tt := t.tt, ctx := t.ctx, out := .resp true 0 0 :: s.out })

/-- An accepted mark schedules an epoch at mark + TT_MARK_OFS, or is counted as spurious or as an overflow (R53); a synthesised mark and
a fallback do so at their own lines (R52). A level of SHEET_MARK is accepted when it has held for the filter time, as the model counts it (R40,
log 35). -/
def Obligations.MarksScheduleEpochs : Prop :=
  ∀ s : State, s.regsWf = true →
    (∀ level : Bool, inputHeld 1 .mark s = false ∨ level = s.tt.mark → exec (.sheetMarkEdge level) s = .next s) ∧
    (∀ t, s.tt.levelAt[PressIn.mark.idx] = some t → (inputHeld 1 .mark s = true ↔ t + us (rd TT_MARK_CFG.FILTER s + 1) ≤ s.now)) ∧
    (∀ level : Bool, domOpen 17 s = true → inputHeld 1 .mark s = true → level ≠ s.tt.mark → level = rdB TT_MARK_CFG.POL s ∨ rd TT_MARK_CFG.SRC s = 1 →
      exec (.sheetMarkEdge level) s = .next (markTaken level s)) ∧
    (∀ level : Bool, domOpen 17 s = true → inputHeld 1 .mark s = true → level ≠ s.tt.mark → rd TT_MARK_CFG.SRC s ≠ 1 → level ≠ rdB TT_MARK_CFG.POL s → (ttState s = 1 ∨ ttState s = 2) →
      ((∀ m, s.tt.lastMark = some m → m + rd TT_MARK_WIN.GAP s ≤ ttLine s) → s.tt.epochs.length < 4 →
        ∃ t, exec (.sheetMarkEdge level) s = .next t ∧ t.tt.epochs.length = s.tt.epochs.length + 1 ∧
          (ttLine s + rd TT_MARK_OFS.LINES s, ttLine s) ∈ t.tt.epochs ∧ (∀ e ∈ s.tt.epochs, e ∈ t.tt.epochs) ∧
          t = { s with tt := { (markTaken level s).tt with lastMark := some (ttLine s), epochMark := some (ttLine s), epochs := t.tt.epochs } }) ∧
      ((∀ m, s.tt.lastMark = some m → m + rd TT_MARK_WIN.GAP s ≤ ttLine s) → 4 ≤ s.tt.epochs.length →
        ∃ t, exec (.sheetMarkEdge level) s = .next t ∧ rd TT_MARK_CNT.OVF t = sat TT_MARK_CNT.OVF (rd TT_MARK_CNT.OVF s + 1) ∧
          s.kept [TT_MARK_CNT.OVF] t ∧ t = { s with regs := t.regs, tt := (markTaken level s).tt }) ∧
      (∀ m, s.tt.lastMark = some m → ttLine s < m + rd TT_MARK_WIN.GAP s →
        ∃ t, exec (.sheetMarkEdge level) s = .next t ∧ rd TT_ENC_ERR.MARK_SPUR t = sat TT_ENC_ERR.MARK_SPUR (rd TT_ENC_ERR.MARK_SPUR s + 1) ∧
          s.kept [TT_ENC_ERR.MARK_SPUR] t ∧ t = { s with regs := t.regs, tt := (markTaken level s).tt })) ∧
    (∀ m, m = s.tt.enLine + s.tt.synthK * rd TT_SHEET_LEN.LINES s → rd TT_MARK_CFG.SRC s = 1 → rdB TT_CTRL.ENABLE s = true → rd TT_SHEET_LEN.LINES s ≠ 0 →
      m ≤ ttLine s → s.tt.epochs.length < 4 →
      ∃ t, exec .markSynth s = .next t ∧ (m + rd TT_MARK_OFS.LINES s, m) ∈ t.tt.epochs ∧ t.tt.epochs.length = s.tt.epochs.length + 1 ∧
        t = { s with tt := { s.tt with synthK := s.tt.synthK + 1, epochMark := some m, epochs := t.tt.epochs } }) ∧
    (∀ m, s.tt.epochMark = some m → rd TT_MARK_CFG.SRC s = 2 → rdB TT_CTRL.ENABLE s = true → rd TT_SHEET_LEN.LINES s ≠ 0 →
      m + rd TT_SHEET_LEN.LINES s + rd TT_MARK_WIN.WIN s < ttLine s → s.tt.epochs.length < 4 →
      ∃ t, exec .markFallback s = .next t ∧ rd TT_STATUS.MARK_MISSED t = 1 ∧ rd TT_MARK_CNT.MISSED t = sat TT_MARK_CNT.MISSED (rd TT_MARK_CNT.MISSED s + 1) ∧
        (m + rd TT_SHEET_LEN.LINES s + rd TT_MARK_OFS.LINES s, m + rd TT_SHEET_LEN.LINES s) ∈ t.tt.epochs ∧
        t.tt.epochMark = some (m + rd TT_SHEET_LEN.LINES s) ∧ s.keptEv [TT_STATUS.MARK_MISSED, TT_MARK_CNT.MISSED] t ∧
        t = { s with regs := t.regs, pw := t.pw, tt := t.tt })

/-- When TT_LINE reaches the earliest scheduled epoch, TT_EPOCH counts it, TT_EPOCH_LINE records its line, and a pending RW-E value, and the
valid columns of a SET_EDGE, that were written before take effect (R53, R253, R255). -/
def Obligations.EpochOpensAtItsLine : Prop :=
  ∀ (s : State) (e : Nat × Nat) (r : List (Nat × Nat)), s.regsWf = true → s.rweWf = true → s.tt.epochs = e :: r → e.1 ≤ ttLine s → ttCounts s = true →
    ∃ t, exec .epochOpen s = .next t ∧ rd TT_EPOCH.NUMBER t = (rd TT_EPOCH.NUMBER s + 1) % 2 ^ 32 ∧ rd TT_EPOCH_LINE.LINE t = e.1 % 2 ^ 48 ∧
      t.tt.epochs = r ∧ t.rwe = s.rwe.filter (fun w => !(decide (w.at_ < s.now))) ∧
      (∀ w, s.rwe = [w] → w.at_ < s.now → ttState s ≠ 6 → s.tl.syncDue = false → evKey (Fld.key ⟨w.addr, w.lo, 0⟩) = false →
        rd ⟨w.addr, w.lo, 0⟩ t = w.value % 2 ^ widthAt w.addr w.lo) ∧
      (ttState s ≠ 6 → ∀ n w, (cx n s).edgeNext = [w] → (w.at_ < s.now → (cx n t).edge = w.edge ∧ (cx n t).edgeNext = []) ∧
        (s.now ≤ w.at_ → (cx n t).edge = (cx n s).edge ∧ (cx n t).edgeNext = [w]))

/-- An index edge clears Z_LOST, restarts its interval, and counts Z_ERR when the interval's net count misses TT_Z_CFG by more than TOL;
1.5 × COUNTS without one sets Z_LOST (R66). An edge is accepted after two filter times, as the model counts them (R40, log 35). -/
def Obligations.IndexPulseIsChecked : Prop :=
  ∀ s : State, s.regsWf = true → rdB TT_ENC_CFG.Z_EN s = true → rdB TT_CTRL.ENABLE s = true →
    (inputHeld 2 .encZ s = false → exec .indexEdge s = .next s) ∧
    (∀ t, s.tt.levelAt[PressIn.encZ.idx] = some t → (inputHeld 2 .encZ s = true ↔ t + 2 * (8 * (rd TT_ENC_CFG.FILTER s + 1)) ≤ s.now)) ∧
    (domOpen 17 s = true → inputHeld 2 .encZ s = true →
      ∃ t, exec .indexEdge s = .next t ∧ rd TT_STATUS.Z_LOST t = 0 ∧
        rd TT_ENC_ERR.Z_ERR t = (if s.tt.zSeen = true ∧ rd TT_Z_CFG.TOL s < ((s.tt.zNet.natAbs : Int) - rd TT_Z_CFG.COUNTS s).natAbs
          then sat TT_ENC_ERR.Z_ERR (rd TT_ENC_ERR.Z_ERR s + 1) else rd TT_ENC_ERR.Z_ERR s) ∧
        s.kept [TT_STATUS.Z_LOST, TT_ENC_ERR.Z_ERR] t ∧ t = { s with regs := t.regs, tt := { (inputTaken .encZ s).tt with zNet := 0, zSeen := true } }) ∧
    (s.tt.zSeen = true → rdB TT_STATUS.Z_LOST s = false → 3 * rd TT_Z_CFG.COUNTS s ≤ 2 * s.tt.zNet.natAbs →
      ∃ t, exec .indexLost s = .next t ∧ rd TT_STATUS.Z_LOST t = 1 ∧ s.keptMsg [TT_STATUS.Z_LOST] t ∧
        t = { s with regs := t.regs, pw := t.pw, mb := t.mb })

/-- A slot that fires disarms itself; SIGNAL raises its source, NONE has no other effect, and SLICE ends the slice of its context's resident
member, so that a switch to the next member begins (R54, R55, R245, R249). -/
def Obligations.SignalNoneAndSliceSlotsFire : Prop :=
  ∀ (s : State) (k : Slot), s.regsWf = true →
    (slotFires k [0, 5, 6, 7] s = true →
      ∃ t, exec (.slotNone k) s = .next t ∧ rd (TT_SLOT_ACT.ARMED k.val) t = 0 ∧ s.kept [TT_SLOT_ACT.ARMED k.val] t ∧ t = { s with regs := t.regs }) ∧
    (slotFires k [4] s = true → domOn 20 s = true →
      ∃ t, exec (.slotSignal k) s = .next t ∧ rd (TT_SLOT_ACT.ARMED k.val) t = 0 ∧
        (let src := 16 + rd (TT_SLOT_ACT.ARG k.val) s % 8; rd (pendF (srcFast src s) src) t = 1) ∧
        s.keptEv [TT_SLOT_ACT.ARMED k.val] t ∧ t = { s with regs := t.regs, pw := t.pw }) ∧
    (∀ c m, slotFires k [3] s = true → ctxOf (rd (TT_SLOT_ACT.CTX k.val) s) = some c → resident c (slotDisarm k s) = true → (cx c s).switchTo = none →
      nextMember c (raise 31 (slotDisarm k s)) = some m →
      ∃ t, exec (.slotSlice k) s = .next t ∧ rd (TT_SLOT_ACT.ARMED k.val) t = 0 ∧ (cx c t).switchTo = some m.val ∧ (cx c t).switchE = some s.now ∧ (cx c t).switchP = none ∧
        (cx c t).moving = partMask c s ∧
        (∀ x, x ≠ c → cx x t = cx x s) ∧ (∀ d, d ∉ coachesOf (partMask c s) ∨ (co d s).run = none → co d t = co d s) ∧
        s.keptEv (TT_SLOT_ACT.ARMED k.val :: waitCounts) t ∧ t = { s with regs := t.regs, pw := t.pw, ctx := t.ctx, coach := t.coach })

/-- A RELEASE slot of a running job hands its row over and reads the stamps of its window through the ports (R55, R218), or in FAULT counts it as
skipped (R60); a DEADLINE slot judges its row: waived at once, or due, to be counted and reported as missed at the end of its cycle unless its notice is
posted by then (R57, R58; that a row is waived whose notice is posted is the model's reading, log 35). A slot that does not fire does nothing. -/
def Obligations.ReleaseAndDeadlineSlotsJudgeRows : Prop :=
  (∀ (s : State) (k : Slot), (slotFires k [1] s = false → ∀ obs : RowObs, exec (.slotRelease k obs) s = .next s) ∧
    (slotFires k [2] s = false → exec (.slotDeadline k) s = .next s)) ∧
  (∀ (s : State) (k : Slot) (c : Ctx) (j : JobSt) (obs : RowObs) (r : Nat), s.regsWf = true → ctxOf (rd (TT_SLOT_ACT.CTX k.val) s) = some c → (cx c s).job = some j →
    r = argRow j (rd (TT_SLOT_ACT.ARG k.val) s) →
    (slotFires k [1] s = true → cxState c s = 3 → j.running = true → ttState s ≠ 6 → rowsHeld c s < 4 → j.tandem = false →
      ∃ t, exec (.slotRelease k obs) s = .next t ∧ t.tt.released = s.tt.released + 1 ∧
        t.mp = (stampReads c r (j.j0 + 256 * r) s).mp ∧
        ∃ j' x, (cx c t).job = some j' ∧ j'.relRow = r + 1 ∧ x ∈ j'.rows ∧ x.row = r ∧ x.relAt = s.now ∧ x.dropped = false ∧ x.posted = false ∧ x.mismatch = false) ∧
    (slotFires k [1] s = true → cxState c s = 3 → j.running = true → ttState s = 6 → j.tandem = false →
      ∃ t, exec (.slotRelease k obs) s = .next t ∧ t.tt.released = s.tt.released ∧ t.mp = s.mp ∧
        rd TT_ROW_CNT.SKIPPED t = sat TT_ROW_CNT.SKIPPED (rd TT_ROW_CNT.SKIPPED s + 1) ∧
        ∃ j' x, (cx c t).job = some j' ∧ x ∈ j'.rows ∧ x.row = r ∧ x.dropped = true) ∧
    (∀ x, slotFires k [2] s = true → j.rows.find? (fun y => y.row == r) = some x →
      ∃ t, exec (.slotDeadline k) s = .next t ∧ rd (TT_SLOT_ACT.ARMED k.val) t = 0 ∧ (cx c t).job = some { j with judged := r + 1 } ∧
        t.tt.dueRows = (if x.posted = false ∧ x.allRun = true ∧ ttState s = 1 then s.tt.dueRows ++ [(c.val, r)] else s.tt.dueRows) ∧
        rd TT_ROW_CNT.WAIVED t = (if ¬(x.allRun = true ∧ ttState s = 1) then sat TT_ROW_CNT.WAIVED (rd TT_ROW_CNT.WAIVED s + 1) else rd TT_ROW_CNT.WAIVED s) ∧
        s.kept [TT_SLOT_ACT.ARMED k.val, TT_ROW_CNT.WAIVED] t ∧
        t = { s with regs := t.regs, ctx := t.ctx, tt := { s.tt with dueRows := t.tt.dueRows } })) ∧
  (∀ (s : State) (c : Ctx) (r : Nat) (x : RowSt), s.regsWf = true → s.tt.dueRows = [(c.val, r)] → rowFind c r s = some x →
    (deadlineCycle s).tt.dueRows = [] ∧
    rd TT_DL_MISS.COUNT (deadlineCycle s) = (if x.posted = true then rd TT_DL_MISS.COUNT s else sat TT_DL_MISS.COUNT (rd TT_DL_MISS.COUNT s + 1)) ∧
    s.keptMsg [TT_DL_MISS.COUNT] (deadlineCycle s) ∧ (x.posted = true → deadlineCycle s = { s with tt := { s.tt with dueRows := [] } }))

/-- A ready entry begins: its run starts at the planned cycle or at the end of the entry before, the coach is RUN, an overrun of the previous entry is
charged, and the ZERO borders of the map that it produces are written (R132, R172, R181, R193). A GIG entry takes the free engine in the first cycle in which its
slot meets no planned slot of another context that has not ended, and its foreign wait is counted (R155, R182). -/
def Obligations.EntriesBeginOnTheirCoaches : Prop :=
  (∀ (s : State) (c : Coach) (n : Ctx) (i : Fin 16) (e : NextEnt) (k : Option Nat) (bs : List Border), s.regsWf = true →
    (readyEntry c s = some (n, i.val, e) → stKind (cx n s).image e.ent.stage ≠ 2 →
      ∃ t r, exec (.entryBegin c ⟨k, bs⟩) s = .next t ∧ (co c t).run = some r ∧ r.ctx = n ∧ r.stage = e.ent.stage ∧ r.row = e.row ∧ r.col = e.ent.col ∧
        r.beginAt = max e.planned ((cx n s).prog[i]).endPrev ∧ r.waits = 0 ∧ r.sync = 0 ∧ r.clash = k ∧ rd (CA_STATUS.STATE c.val) t = 2 ∧
        (co c t).sram = (if stKind (cx n s).image e.ent.stage = 0 then (co c (each (bs.filter (fun b => b.mode == 0)) (borderPut c) s)).sram else (co c s).sram) ∧
        rd (GL_WB_OVERRUN.COUNT (cid n)) t = (if ((cx n s).prog[i]).prevWaits ≠ 0 ∧ e.planned < ((cx n s).prog[i]).endPrev
          then sat (GL_WB_OVERRUN.COUNT (cid n)) (rd (GL_WB_OVERRUN.COUNT (cid n)) s + 1) else rd (GL_WB_OVERRUN.COUNT (cid n)) s) ∧
        (∀ d, d ≠ c → co d t = co d s) ∧
        s.keptMsg [CA_STATUS.STATE c.val, GL_WB_DELAY.MAX (cid n), GL_WB_OVERRUN.COUNT (cid n), GL_WB_OVERRUN.LAST_STAGE (cid n), GL_WB_OVERRUN.LAST_COACH (cid n),
          GL_WB_STATUS.OVERRUN_SEEN (cid n)] t ∧
        t = { s with regs := t.regs, pw := t.pw, mb := t.mb, ctx := t.ctx, coach := t.coach }) ∧
    (∀ ready b, gigReady c s = some (n, i.val, e, ready) → s.gig.run = none → domOpen 16 s = true → (e.ref = true → gigBehind c ready s = false) →
      gigFirst ready (s.gig.beginAt + s.gig.len) (slotEnt (cx n s).image e.ent.slot).len (foreignSlots n s) = some b → b ≤ arithNow s →
      ∃ t r, exec (.gigEntryBegin c) s = .next t ∧ (co c t).run = some r ∧ r.stage = e.ent.stage ∧ r.beginAt = b ∧ t.gig.run = some c ∧
        t.gig.beginAt = b ∧ t.gig.len = (slotEnt (cx n s).image e.ent.slot).len ∧ t.gig.busyN = 0 ∧
        rd (GL_WB_FOREIGN.COUNT (cid n)) t = sat (GL_WB_FOREIGN.COUNT (cid n)) (rd (GL_WB_FOREIGN.COUNT (cid n)) s +
          (b - ready - ((s.gig.past.filter (fun x => x.1 == cid n)).map (fun x => overlapLen x.2.1 x.2.2 ready b)).sum)) ∧
        (rd GG_STATUS.STATE s < 5 → rd GG_STATUS.STATE t = 2) ∧ rd GG_STATUS.CTX t = cid n ∧ rd GG_STATUS.COACH t = c.val ∧ rd (CA_STATUS.STATE c.val) t = 2 ∧
        (∀ d, d ≠ c → co d t = co d s))) ∧
  (∀ (ready free len b : Nat) (slots : List (Nat × Option Nat)), gigFirst ready free len slots = some b →
    let allowed (b : Nat) : Prop := ready ≤ b ∧ free ≤ b ∧ ∀ x ∈ slots, ready ≤ x.1 → x.1 < b + len → ∃ t, x.2 = some t ∧ t ≤ b
    allowed b ∧ ∀ b', allowed b' → b ≤ b')

/-- A Gig slot ends after its planned length: the engine is free again, what is left of its busy cycles is counted, its layers have written the coach buffer, and
the coach's slot has ended (R151, R155, R157, R159); a double-bit error of the Gig SRAM is the fault 0x05 besides (R156). Pages of a torn-down context are cleared and
free (R262; that a read of a page takes as long as a coach's is the model's, log 21). -/
def Obligations.GigSlotsEndAndPagesAreScrubbed : Prop :=
  ∀ s : State, s.regsWf = true →
    (∀ (c : Coach) (r : RunSt) (ecc : EccObs), s.gig.run = some c → (co c s).run = some r → s.gig.beginAt + s.gig.len ≤ arithNow s → (ecc = .clean ∨ ∃ loc k, ecc = .corrected loc k) →
      rdB GG_CFG.SAT_FAULT s = false → rdB GG_CFG.NAN_FAULT s = false →
      ∃ t, exec (.gigSlotEnd ecc) s = .next t ∧ t.gig.run = none ∧ rd GG_STATUS.CTX t = 0 ∧ rd GG_STATUS.COACH t = 0 ∧
        rd GG_STATUS.STATE t = (if 5 ≤ rd GG_STATUS.STATE s ∨ domOn 16 s = false then rd GG_STATUS.STATE s
          else if s.gig.scrubs ≠ [] then 4 else if allCtx.any (fun n => gigLoaded n s) then 1 else 0) ∧
        (r.slot, s.gig.beginAt + s.gig.len) ∈ (co c t).gigEnds ∧ (co c t).run = some r ∧ (∀ d, d ≠ c → co d t = co d s) ∧
        (co c t).sram = (co c (gigLayers r.ctx c r.stage (gigSettle s)).1).sram ∧
        rd GG_BUSY.COUNT t = (if rdB GG_CFG.PROF_EN s = true ∧ confidential s = false ∧ s.gig.busyN < s.gig.len
          then sat GG_BUSY.COUNT (rd GG_BUSY.COUNT s + (s.gig.len - s.gig.busyN)) else rd GG_BUSY.COUNT s) ∧
        rd GG_ECC.CORR t = (match ecc with | .corrected 5 k => sat GG_ECC.CORR (rd GG_ECC.CORR s + k) | _ => rd GG_ECC.CORR s) ∧
        rd (CA_ECC.CORR c.val) t = (match ecc with | .corrected loc k => if loc = 5 then rd (CA_ECC.CORR c.val) s else sat (CA_ECC.CORR c.val) (rd (CA_ECC.CORR c.val) s + k) | _ => rd (CA_ECC.CORR c.val) s) ∧
        s.kept [GG_STATUS.STATE, GG_STATUS.CTX, GG_STATUS.COACH, GG_STATUS.SAT_SEEN, GG_STATUS.NAN_SEEN, GG_STATUS.ECC_SEEN, GG_BUSY.COUNT, GG_WAIT.COUNT,
          GG_NUMERIC.ACC_SAT, GG_NUMERIC.OUT_SAT, GG_NUMERIC.NAN, GG_ECC.CORR, CA_ECC.CORR c.val, CA_STATUS.ECC_SEEN c.val] t ∧
        t = { s with regs := t.regs, coach := t.coach, gig := { s.gig with run := none, busyN := t.gig.busyN, past := t.gig.past }, freeN := t.freeN }) ∧
    (∀ (c : Coach) (r : RunSt) (word flip : Nat) (u : State), s.gig.run = some c → (co c s).run = some r → s.gig.beginAt + s.gig.len ≤ arithNow s →
      exec (.gigSlotEnd .clean) (gigEccPut c (.uncorrected 5 word flip) s) = .next u →
      exec (.gigSlotEnd (.uncorrected 5 word flip)) s = .next (gigFault 0x05 1 c (markBit GG_STATUS.ECC_SEEN (inc GG_ECC.UNCORR u)))) ∧
    (∀ (n : Ctx) (x : Nat × Nat), s.gig.scrubs.find? (fun y => y.1 == cid n) = some x → SMap.wf zeroByte s.gig.sram = true →
      x.2 + ceilDiv (2 * (256 + 128 * ((List.finRange 64).filter (fun i => s.gig.pages[i] == cid n)).length)) 3 ≤ s.now →
      ∃ t, exec (.gigPageScrubEnd n) s = .next t ∧ (∀ i : Fin 64, t.gig.pages[i] = if s.gig.pages[i] = cid n then 0 else s.gig.pages[i]) ∧
        (∀ a (i : Fin 64), a / 65536 = i.val → SMap.get zeroByte t.gig.sram a = if s.gig.pages[i] = cid n then 0 else SMap.get zeroByte s.gig.sram a) ∧
        t.gig.scrubs = s.gig.scrubs.filter (fun y => y.1 != cid n) ∧ t.otp = s.otp ∧ t.tt = { s.tt with armLine := t.tt.armLine })

/-- Synchronisation points, runs, drains and the end of a stage (R86, R87, R94, R95, R106, R107, R113, R114, R132, R166, R173, R192). A run's cycles are
carried out as far as the coach has come; what is left of them when it ends follows. -/
def Obligations.StagesRunToTheirEnds : Prop :=
  ∀ (s : State) (c : Coach) (r : RunSt), s.regsWf = true → (co c s).run = some r →
    (coachState c s = 2 →
      ∃ t, exec (.syncWaitEnd c) s = .next t ∧ (co c t).run = some (syncRun c r s).1 ∧
        rd (GL_WB_LATE_CYC.COUNT (cid r.ctx)) t = sat (GL_WB_LATE_CYC.COUNT (cid r.ctx)) (rd (GL_WB_LATE_CYC.COUNT (cid r.ctx)) s + (syncRun c r s).2.1) ∧
        rd (CA_STALL_MEM.COUNT c.val) t = (if profOn c s = true then sat (CA_STALL_MEM.COUNT c.val) (rd (CA_STALL_MEM.COUNT c.val) s + (syncRun c r s).2.2.1)
          else rd (CA_STALL_MEM.COUNT c.val) s) ∧
        (∀ d, d ≠ c → co d t = co d s) ∧ s.kept [GL_WB_LATE_CYC.COUNT (cid r.ctx), CA_STALL_MEM.COUNT c.val] t ∧ t = { s with regs := t.regs, coach := t.coach }) ∧
    (∀ (e : Nat) (d : RunDesc) (z : RunWork), syncSettle c (queueRoll c s) = s → runEnded c s = some e → (∀ b, drainEnded c s = some b → e < b) →
      d = runDesc (cx r.ctx s).image r.stage r.runIdx → runOk (cx r.ctx s).image d = true →
      z = runCyclesOf (cx r.ctx s).image (rdB (CA_CFG.SAT_FAULT c.val) s) (runEnd (cx r.ctx s).image r - (r.runAt + r.step)) ⟨co c s, r, 0, 0⟩ → z.run.fault = none →
      ∃ t q, exec (.carriageRunEnd c .clean) s = .next t ∧ (co c t).run = some q ∧ q.runIdx = r.runIdx + 1 ∧ q.runAt = runEnd (cx r.ctx s).image r ∧
        q.stage = r.stage ∧ q.drains = (if d.drain = true then r.drains ++ (drainGroups (stPost (cx r.ctx s).image r.stage d.post).op d.carriages).map (fun m => (m, d.bank, r.runIdx)) else r.drains) ∧
        rd (CA_NUMERIC.ACC_SAT c.val) t = (if z.sats = 0 then rd (CA_NUMERIC.ACC_SAT c.val) s else sat (CA_NUMERIC.ACC_SAT c.val) (rd (CA_NUMERIC.ACC_SAT c.val) s + z.sats)) ∧
        rd (CA_BUSY.COUNT c.val) t = (if profOn c s = true then sat (CA_BUSY.COUNT c.val) (rd (CA_BUSY.COUNT c.val) s + z.busy) else rd (CA_BUSY.COUNT c.val) s) ∧
        (co c t).acc = z.coach.acc ∧ (co c t).wregs = z.coach.wregs ∧ (co c t).sram = (co c s).sram ∧ (∀ y, y ≠ c → co y t = co y s) ∧
        s.kept [CA_NUMERIC.ACC_SAT c.val, CA_STATUS.SAT_SEEN c.val, CA_BUSY.COUNT c.val] t ∧ t = { s with regs := t.regs, coach := t.coach }) ∧
    (∀ e, syncSettle c (queueRoll c s) = s → runEnded c s = some e → (∀ b, drainEnded c s = some b → e < b) → r.step = 0 →
      runOk (cx r.ctx s).image (runDesc (cx r.ctx s).image r.stage r.runIdx) = false →
      exec (.carriageRunEnd c .clean) s = .next (coachFault c 0x01 1 (modRun c (fun r => { r with fault := some 0 }) s))) ∧
    (∀ (k : Nat) (u : State), exec (.carriageRunEnd c .clean) s = .next u →
      ∀ loc, exec (.carriageRunEnd c (.corrected loc k)) s = .next (markBit (CA_STATUS.ECC_SEEN c.val) (add (CA_ECC.CORR c.val) k u))) ∧
    (∀ (loc word flip : Nat) (u : State), exec (.carriageRunEnd c .clean) (eccPut c (.uncorrected loc word flip) s) = .next u →
      exec (.carriageRunEnd c (.uncorrected loc word flip)) s = .next (coachFault c 0x10 2 (markBit (CA_STATUS.ECC_SEEN c.val) (inc (CA_ECC.UNCORR c.val) u)))) ∧
    (∀ (mask bank idx : Nat) (rest : List (Nat × Nat × Nat)) (v : State), syncSettle c (queueRoll c s) = s → r.drains = (mask, bank, idx) :: rest →
      r.drainAt + 256 ≤ drainCycle c s → (∀ e, runEnded c s = some e → r.drainAt + 256 ≤ e) →
      v = stallTo c (r.drainAt + 256) (runTo c (r.drainAt + 256) s) → (co c v).run.bind (·.fault) = none →
      rdB (CA_CFG.SAT_FAULT c.val) s = false → rdB (CA_CFG.NAN_FAULT c.val) s = false →
      ∃ t q, exec (.bankDrainEnd c ⟨.clean, []⟩) s = .next t ∧ (co c t).run = some q ∧ q.drains = rest ∧ q.drainAt = r.drainAt + 256 ∧ q.runIdx = r.runIdx ∧
        (co c t).acc = (co c v).acc ∧
        (let d := runDesc (cx r.ctx s).image r.stage idx
          let p := stPost (cx r.ctx s).image r.stage d.post
          let w := requant (fun k q o => SMap.get (fun _ => 0) (co c v).acc (accKey k bank q o)) (coachMem (co c s) 4) (co c s).tables d p (setBits 4 mask)
          let z := settleOpen (postOpen p (3 ≤ d.mode)) w v
          (co c t).sram = (co c (sramWrite c p.mask (z.1.1.take 32768) z.2)).sram ∧ t = { s with regs := t.regs, coach := t.coach, freeN := z.2.freeN }) ∧
        (∀ d, d ≠ c → co d t = co d s)) ∧
    (∀ (bs : List Border) (u : State), exec (.bankDrainEnd c ⟨.clean, []⟩) s = .next u →
      exec (.bankDrainEnd c ⟨.clean, bs⟩) s = .next (if allDrained c u then each (bs.filter (fun b => b.mode != 0)) (borderPut c) u else u)) ∧
    (∀ (h : r.index < 16) (bs : List Border), clashStop c (runFault c (coachSettle c s)) = s → coachState c s = 2 → stageOver c r s = true → stKind (cx r.ctx s).image r.stage ≠ 3 →
      stNFetch (cx r.ctx s).image r.stage = 0 → stNWrite (cx r.ctx s).image r.stage = 0 →
      (stKind (cx r.ctx s).image r.stage = 1 → rdB (CA_CFG.SAT_FAULT c.val) s = false ∧ rdB (CA_CFG.NAN_FAULT c.val) s = false) →
      ∃ t, exec (.stageEnd ⟨c, .clean, bs⟩) s = .next t ∧ (co c t).run = none ∧ rd (CA_STATUS.STATE c.val) t = 1 ∧
        (cx r.ctx t).prog[r.index] = { (cx r.ctx s).prog[r.index] with
          entry := r.entry + 1, endPrev := r.beginAt + stLen (cx r.ctx s).image r.stage + r.waits, prevWaits := r.waits, prevStage := r.stage, prevRow := r.row } ∧
        (co c t).sram = (if stKind (cx r.ctx s).image r.stage = 1
          then (co c (each bs (borderPut c) (postStage c (cx r.ctx s).image r.stage (2 ^ 32) (admitDue c s)))).sram else (co c s).sram) ∧
        (co c t).waited = (co c s).waited + r.waits ∧ (∀ d, d ≠ c → co d t = co d s) ∧
        s.kept [CA_STATUS.STATE c.val, CA_NUMERIC.ACC_SAT c.val, CA_NUMERIC.OUT_SAT c.val, CA_NUMERIC.NAN c.val, CA_STATUS.SAT_SEEN c.val, CA_STATUS.NAN_SEEN c.val] t ∧
        t = { s with regs := t.regs, ctx := t.ctx, coach := t.coach, flt := t.flt, freeN := t.freeN })

/-- A coach with no stage left issues the rest of a transfer as one burst, if it lies in one block and nothing holds it back: the request
leaves on the port of its address, which is up, with the lowest free identifier, and counts against the reservation (R172, R202, R203, R206 to R208, R228; what REQ_SEC carries
is a free value, log 34). -/
def Obligations.TransfersLeaveInBursts : Prop :=
  ∀ (s : State) (c : Coach) (n : Ctx) (x : Xfer) (id : Nat), s.regsWf = true → (co c s).run = none → (co c s).xfers = [x] → x.issued < x.total → x.tag < 256 →
    x.data = [] → ctxOf x.ctx = some n → rdB (MP_FENCE.FENCING x.ctx) s = false → rdB GL_STATUS.FENCED s = false → domOpen 18 s = true → domOpen c.val s = true →
    rd (MP_KEY_STATE.SLOT n.val) s = 1 → x.region ≠ 1 →
    atStop c s = false → scrubHeld x.ctx s = false → x.total - x.issued ≤ (co c s).winLeft → x.total - x.issued ≤ 16 →
    (x.write = true → queued c true s + (x.total - x.issued) ≤ 256) → (x.write = false → queued c false s + (x.total - x.issued) ≤ 1024) →
    runBeats (fun j => xferAddr c n x j s) x.issued (x.total - x.issued) = x.total - x.issued →
    overlaps x.write (xferAddr c n x x.issued s) (x.total - x.issued) s = false → freeId (portOf (xferAddr c n x x.issued s)) x.write s = some id →
    ∃ t, exec (.transferIssue ⟨c, .clean⟩) s = .next t ∧ (co c t).xfers = [{ x with issued := x.total }] ∧ (co c t).winLeft = (co c s).winLeft - (x.total - x.issued) ∧
      (∃ q, t.mp.txs = s.mp.txs ++ [q] ∧ q.port = portOf (xferAddr c n x x.issued s) ∧ q.id = id ∧ q.write = x.write ∧ q.ctx = x.ctx ∧ q.region = x.region ∧
        q.addr = xferAddr c n x x.issued s ∧ q.beats = x.total - x.issued ∧ q.first = x.issued ∧ q.dest = .coach c.val x.tag) ∧
      (∃ data, t.out = .mem (portOf (xferAddr c n x x.issued s)) id x.write (reqCtx x.ctx x.region s) (xferAddr c n x x.issued s) (x.total - x.issued)
          (Config.reqSec (reqCtx x.ctx x.region s)) data :: s.out ∧ (x.write = false → data = []) ∧
        (x.write = true → regionXts x.region (rdB (GL_CTX_STATUS.CONFIDENTIAL x.ctx) s) = false →
          data = SMap.getList zeroByte ((co c s).sram[4]) (x.buf + 64 * x.issued) (64 * (x.total - x.issued)))) ∧
      (∀ d, d ≠ c → co d t = co d s) ∧ t = { s with coach := t.coach, mp := t.mp, out := t.out }

/-- A hang of a coach or of the Gig engine, a double-bit error of the idle Gig engine and a scrub that fails are taken at level COACH (R156,
R263, R483, R485, R494, R495). -/
def Obligations.HangsAndFailedScrubsAreTakenAtLevelCoach : Prop :=
  ∀ s : State,
    (∀ c : Coach, s.calm c.val → hangDue c s = true → (∀ f, takenLevel c.val f s = f.level) →
      ∃ t, exec (.coachHang c) s = .next t ∧ s.coachLevel ⟨c.val, by omega⟩ 0x11 t) ∧
    (∀ c : Coach, s.calm 16 → s.gig.run = some c → ttMoves s = true → s.gig.len + 180000 ≤ movedSince s.gig.beginAt s →
      ∃ t, exec .gigHang s = .next t ∧ s.coachLevel 16 0x13 t ∧ t.gig.run = none) ∧
    (s.calm 16 → s.gig.run = none → domOpen 16 s = true →
      ∃ t, exec .gigEccIdle s = .next t ∧ s.coachLevel 16 0x05 t ∧ rd GG_ECC.UNCORR t = sat GG_ECC.UNCORR (rd GG_ECC.UNCORR s + 1) ∧ rd GG_STATUS.ECC_SEEN t = 1) ∧
    (∀ (c : Coach) (t0 : Nat), s.calm c.val → (co c s).scrubAt = some t0 → t0 + 5632 ≤ s.now → (∀ f, takenLevel c.val f s = f.level) →
      s.mp.held = [] → s.noneWaits →
      ∃ t, exec (.scrubEnd c false) s = .next t ∧ s.coachLevel ⟨c.val, by omega⟩ 0x12 t ∧ rd GL_SCRUB.COUNT t = sat GL_SCRUB.COUNT (rd GL_SCRUB.COUNT s + 1) ∧
        rd GL_SCRUB.FAIL t = sat GL_SCRUB.FAIL (rd GL_SCRUB.FAIL s + 1))

/-- A hung memory port, a hung Coachman and a reset that hangs are taken at level BLOCK (R314, R485, R486, R488, R499); the second expiry of
the Coachman's watchdog follows a first (R485). -/
def Obligations.HungUnitsAreTakenAtLevelBlock : Prop :=
  ∀ s : State,
    (∀ p : Port, s.calm 17 → heldHung p.val s = true → ∃ t, exec (.memHung p) s = .next t ∧ s.blockLevel 17 0x23 t) ∧
    (cmUp s = true → s.flt.cmWdog = none → ∃ t, exec .cmWdog s = .next t ∧ t.flt.cmWdog = some s.now ∧ t.flt.block = s.flt.block ∧ (s.regsWf = true → s.keptEv [] t)) ∧
    (∀ t0, s.calm 19 → cmUp s = true → s.flt.cmWdog = some t0 → t0 + ms 50 ≤ s.now → ∃ t, exec .cmHang s = .next t ∧ s.blockLevel 19 0x24 t) ∧
    (∀ (u : Fin 17) (t0 m : Nat), s.calm 20 → s.flt.partAt[u] = some (t0, m) → t0 + ms 1 ≤ s.now → ∃ t, exec (.partResetHang u) s = .next t ∧ s.blockLevel 20 0x21 t) ∧
    (∀ t0, s.calm 20 → s.flt.resetAt[16] = some t0 → t0 + us 100 ≤ s.now → ∃ t, exec .gigResetHang s = .next t ∧ s.blockLevel 20 0x22 t)

/-- The port's part of a transaction is found, answered and finished: a beat of read data is counted, an error is counted and recorded, and
the data reach the coach buffer (R204, R212, R213, R223, R225, R232). -/
def Obligations.ReadResponsesAreDelivered : Prop :=
  ∀ (s : State) (p : Port) (r : MemRsp) (q : Tx), s.regsWf = true → txFind p r.id s = some q → q.write = false → q.abandoned = false →
    (q.dest = .other → r.status = 0 → q.got + 1 = q.beats →
      ∃ t, exec (.mpReadResponse p r) s = .next t ∧ rd (MP_P_BEATS.COUNT p.val) t = sat (MP_P_BEATS.COUNT p.val) (rd (MP_P_BEATS.COUNT p.val) s + 1) ∧
        rd (MP_P_LATE.COUNT p.val) t = (if rd MP_LAT_BOUND.BOUND_NS s * 6 < (s.now - q.at_) * 5 then sat (MP_P_LATE.COUNT p.val) (rd (MP_P_LATE.COUNT p.val) s + 1)
          else rd (MP_P_LATE.COUNT p.val) s) ∧
        txFind p r.id t = none ∧ (∀ x ∈ s.mp.txs, ¬(x.port = p.val ∧ x.id = r.id) → x ∈ t.mp.txs) ∧
        s.keptEv [MP_P_BEATS.COUNT p.val, MP_P_LATE.COUNT p.val, MP_P_LAT_MAX.NS p.val] t ∧ t = { s with regs := t.regs, pw := t.pw, mp := t.mp }) ∧
    (∀ (n : Ctx) (row line ofs : Nat) (x : RowSt), q.dest = .stamp row line ofs → ctxOf q.ctx = some n → r.status = 0 → q.zero = false → q.got + 1 < q.beats →
      regionXts q.region (rdB (GL_CTX_STATUS.CONFIDENTIAL q.ctx) s) = false → rowFind n row s = some x → x.mismatch = false →
      ∃ t, exec (.mpReadResponse p r) s = .next t ∧
        (leNat (slice (slice r.data 0 64) ofs 8) = line → t.ctx = s.ctx ∧ s.kept [MP_P_BEATS.COUNT p.val] t) ∧
        (leNat (slice (slice r.data 0 64) ofs 8) ≠ line → (∃ y, rowFind n row t = some y ∧ y.mismatch = true) ∧
          rd (MP_CTX_RING.STAMP_MISMATCH (cid n)) t = sat (MP_CTX_RING.STAMP_MISMATCH (cid n)) (rd (MP_CTX_RING.STAMP_MISMATCH (cid n)) s + 1) ∧
          s.kept [MP_P_BEATS.COUNT p.val, MP_CTX_RING.STAMP_MISMATCH (cid n)] t)) ∧
    (∀ (c : Coach) (tag : Nat) (n : Ctx) (x : Xfer), q.dest = .coach c.val tag → r.status = 0 → q.zero = false → q.got + 1 < q.beats → domOpen c.val s = true →
      coachCtxId c s = q.ctx → ctxOf q.ctx = some n →
      (co c s).xfers.find? (fun f => !f.write && f.tag == tag && f.ctx == q.ctx && f.arrived < f.total) = some x → x.arrived + 1 < x.total →
      tag < 512 → (co c s).prefetch = [] → (co c s).takenAt ≠ some s.now →
      ∃ t, exec (.mpReadResponse p r) s = .next t ∧ (co c t).takenAt = some s.now ∧ (co c t).prefetch = [] ∧
        (co c t).sram[4] = SMap.setList zeroByte ((co c s).sram[4]) (x.buf + 64 * (q.first + q.got))
          (slice (if regionXts q.region (rdB (GL_CTX_STATUS.CONFIDENTIAL q.ctx) s) = true then xtsBeat false (cx n s).key (q.addr + 64 * q.got) (slice r.data 0 64)
            else slice r.data 0 64) 0 64) ∧
        (∃ y ∈ (co c t).xfers, y = { x with arrived := x.arrived + 1 }) ∧ (∀ d, d ≠ c → co d t = co d s) ∧
        rd (MP_P_BEATS.COUNT p.val) t = sat (MP_P_BEATS.COUNT p.val) (rd (MP_P_BEATS.COUNT p.val) s + 1) ∧
        s.keptEv [MP_P_BEATS.COUNT p.val, GL_WB_LATE_BEATS.COUNT q.ctx] t ∧ t = { s with regs := t.regs, pw := t.pw, coach := t.coach, mp := t.mp }) ∧
    (∀ (c : Coach) (tag : Nat) (n : Ctx), q.dest = .coach c.val tag → r.status = 0 → q.zero = false → q.got + 1 < q.beats → domOpen c.val s = true →
      coachCtxId c s = q.ctx → ctxOf q.ctx = some n → ((co c s).prefetch ≠ [] ∨ (co c s).takenAt = some s.now) →
      ∃ t, exec (.mpReadResponse p r) s = .next t ∧
        co c t = { co c s with prefetch := (co c s).prefetch ++ [⟨q.ctx, tag, q.first + q.got,
          if regionXts q.region (rdB (GL_CTX_STATUS.CONFIDENTIAL q.ctx) s) = true then xtsBeat false (cx n s).key (q.addr + 64 * q.got) (slice r.data 0 64)
            else slice r.data 0 64⟩] } ∧ (∀ d, d ≠ c → co d t = co d s) ∧
        rd (MP_P_BEATS.COUNT p.val) t = sat (MP_P_BEATS.COUNT p.val) (rd (MP_P_BEATS.COUNT p.val) s + 1) ∧
        s.keptEv [MP_P_BEATS.COUNT p.val] t ∧ t = { s with regs := t.regs, pw := t.pw, coach := t.coach, mp := t.mp }) ∧
    (q.dest = .other → r.status ≠ 0 → q.zero = false → q.got + 1 < q.beats → s.calm 17 → rdB MP_ERR_INFO.VALID s = false →
      ∃ t, exec (.mpReadResponse p r) s = .next t ∧ rd (MP_P_ERRS.RD_ERR p.val) t = sat (MP_P_ERRS.RD_ERR p.val) (rd (MP_P_ERRS.RD_ERR p.val) s + 1) ∧
        rd MP_ERR_INFO.VALID t = 1 ∧ rd MP_ERR_INFO.PORT t = p.val ∧ rd MP_ERR_INFO.WRITE t = 0 ∧ rd MP_ERR_INFO.STATUS t = r.status.val ∧
        rd MP_ERR_ADDR.ADDR t = q.addr % 2 ^ 48 ∧ s.recorded 17 0x03 0 t ∧ rd (GL_FLT_STATE.RECOVERING 17) t = 0)

/-- A write is done with its response, a beat is accepted, each cycle in which a beat waits is counted (R213), and a window of reservations ends (R172, R204, R206, R209, R213); an abandoned
transaction's response is discarded, and its last one frees the identifier (R226). -/
def Obligations.WritesBeatsAndWindowsEnd : Prop :=
  ∀ (s : State) (p : Port), s.regsWf = true →
    (∀ (id : Nat) (q : Tx), txFind p id s = some q → q.write = true → q.abandoned = false → q.dest = .other → q.region ≠ 1 →
      ∃ t, exec (.mpWriteDone p id 0) s = .next t ∧ txFind p id t = none ∧
        rd (MP_P_BEATS.COUNT p.val) t = (if q.waiting = 0 then rd (MP_P_BEATS.COUNT p.val) s else sat (MP_P_BEATS.COUNT p.val) (rd (MP_P_BEATS.COUNT p.val) s + min q.waiting q.beats)) ∧
        s.kept [MP_P_BEATS.COUNT p.val] t ∧ t = { s with regs := t.regs, mp := { s.mp with txs := s.mp.txs.filter (fun x => !(x.port == p.val && x.id == id)) } }) ∧
    (∀ (id : Nat) (st : Fin 4) (q : Tx), txFind p id s = some q → q.write = true → q.abandoned = true →
      ∃ t, exec (.mpWriteDone p id st) s = .next t ∧ txFind p id t = none ∧ rd (MP_P_ORPHAN.DISCARDED p.val) t = sat (MP_P_ORPHAN.DISCARDED p.val) (rd (MP_P_ORPHAN.DISCARDED p.val) s + 1) ∧
        rd (MP_P_ORPHAN.HELD p.val) t = (rd (MP_P_ORPHAN.HELD p.val) s - 1) % 256 ∧
        rd (MP_P_BEATS.COUNT p.val) t = (if q.waiting = 0 then rd (MP_P_BEATS.COUNT p.val) s else sat (MP_P_BEATS.COUNT p.val) (rd (MP_P_BEATS.COUNT p.val) s + min q.waiting q.beats)) ∧
        s.kept [MP_P_BEATS.COUNT p.val, MP_P_ORPHAN.DISCARDED p.val, MP_P_ORPHAN.HELD p.val] t ∧
        t = { s with regs := t.regs, mp := t.mp }) ∧
    (∀ (q : Tx), p.val < 8 → s.mp.txs.find? (fun t => t.port == p.val && t.waiting != 0) = some q → q.dest = .other →
      ∃ t, exec (.mpBeatAccepted p) s = .next t ∧
        rd (MP_P_BEATS.COUNT p.val) t = (if q.write = true ∧ q.waiting ≠ q.beats + 1 then sat (MP_P_BEATS.COUNT p.val) (rd (MP_P_BEATS.COUNT p.val) s + 1)
          else rd (MP_P_BEATS.COUNT p.val) s) ∧
        { q with waiting := q.waiting - 1, data := if q.write = true ∧ q.waiting ≤ q.beats then q.data.drop 64 else q.data, at_ := if q.write = true ∧ q.waiting ≠ q.beats + 1 then s.now + 1 else s.now } ∈ t.mp.txs ∧
        (∀ x ∈ s.mp.txs, x.port ≠ p.val ∨ (x.id ≠ q.id ∧ x.waiting = 0) → x ∈ t.mp.txs) ∧ s.kept [MP_P_BEATS.COUNT p.val] t ∧
        t = { s with regs := t.regs, mp := { s.mp with txs := t.mp.txs } }) ∧
    (∀ x : Nat, x < 8 → rd (MP_P_STALL.COUNT x) (stallCycle s) = if ∃ q ∈ s.mp.txs, q.port = x ∧ q.waiting ≠ 0 ∧ q.at_ ≤ s.now
      then sat (MP_P_STALL.COUNT x) (rd (MP_P_STALL.COUNT x) s + 1) else rd (MP_P_STALL.COUNT x) s) ∧
    (s.kept ((List.range 8).map (fun x => MP_P_STALL.COUNT x)) (stallCycle s) ∧ stallCycle s = { s with regs := (stallCycle s).regs }) ∧
    (domOn 18 s = true → s.mp.winAt + 1200 ≤ s.now →
      ∃ u, exec .mpWindowEnd s = .next u ∧ u.mp = { s.mp with winAt := s.mp.winAt + 1200, linkLeft := 32, digestLeft := 10, fwLeft := 10 } ∧
        (∀ c, co c u = let r := if (co c s).swRes ≠ 0 then some (co c s).swRes else if (co c s).begun = true then some (co c s).lastRes else none
          { co c s with winRes := r.getD (co c s).winRes, winLeft := r.getD (co c s).winLeft }) ∧
        (∀ n : Ctx, rd (GL_WB_DROPS.RES_EXCEED (cid n)) u = if ∃ c, coachCtxId c s = cid n ∧ exceeds c s = true
          then sat (GL_WB_DROPS.RES_EXCEED (cid n)) (rd (GL_WB_DROPS.RES_EXCEED (cid n)) s + 1) else rd (GL_WB_DROPS.RES_EXCEED (cid n)) s) ∧
        s.kept (allCtx.map (fun n => GL_WB_DROPS.RES_EXCEED (cid n))) u ∧ u = { s with regs := u.regs, coach := u.coach, mp := u.mp })

/-- The port's fence of a torn-down context completes when nothing of it is outstanding: its slot is retired, its key is gone, and the coaches
that hold it are scrubbed; after 50 µs what is left is abandoned (R224, R226, R256). -/
def Obligations.FencesCompleteOrAbandon : Prop :=
  ∀ (s : State) (n : Ctx), s.regsWf = true →
    (cxState n s = 5 → (cx n s).fenceAt.isSome = true → txsOf (cid n) s = [] → (∀ x ∈ s.mp.inits, x.ctx ≠ cid n) →
      ∃ t, exec (.fenceComplete n) s = .next t ∧ rd (MP_KEY_STATE.SLOT n.val) t = 2 ∧ rd (MP_FENCE.FENCING (cid n)) t = 0 ∧ (cx n t).key = [] ∧ (cx n t).fenceAt = none ∧
        (cxState n t = 6 ∨ cxState n t = 7 ∨ cxState n t = 0) ∧
        ((∃ c, bit (partMask n s) c.val = true ∧ coachCtxId c s = cid n ∧ domOn c.val s = true) → cxState n t = 6 ∧
          ∀ c, bit (partMask n s) c.val = true → coachCtxId c s = cid n → domOn c.val s = true → coachState c t = 4 ∧ coachCtxId c t = 0 ∧
            (co c t).scrubAt = some s.now ∧ (co c t).run = none) ∧
        s.keptWin [0, 1, 2, 3, 4, 8] t ∧ t.otp = s.otp ∧ t.mp = s.mp ∧ t.out = s.out) ∧
    (∀ t0, cxState n s ≠ 5 → (cx n s).fenceAt = some t0 → t0 + us 50 ≤ s.now → (∀ x ∈ s.mp.txs, x.port < 8) →
      (∀ q < 8, rd (MP_P_ORPHAN.HELD q) s + (s.mp.txs.filter (fun x => x.ctx == cid n && !x.abandoned)).length ≤ 32) →
      ∃ t, exec (.fenceDrainTimeout n) s = .next t ∧ (∀ x ∈ t.mp.txs, x.ctx = cid n → x.abandoned = true) ∧ txsOf (cid n) t = [] ∧
        t.mp.inits = s.mp.inits.filter (fun x => x.ctx != cid n) ∧
        rd MP_FENCE.ABANDONED t = sat MP_FENCE.ABANDONED (rd MP_FENCE.ABANDONED s + (txsOf (cid n) s).length + (s.mp.inits.filter (fun x => x.ctx == cid n)).length) ∧
        s.kept (MP_FENCE.ABANDONED :: (List.range 8).map (fun q => MP_P_ORPHAN.HELD q)) t ∧ t = { s with regs := t.regs, mp := { s.mp with txs := t.mp.txs, inits := t.mp.inits } })

/-- A switch: a coach that stands at its point with nothing queued writes the outgoing context's live bytes and 4 KiB of control state to
its save area, within the two contexts' reservations, and holds it no more; once every coach has saved, they are scrubbed; each
resumes the incoming context, and the last completes the switch and measures it from its P; when a slice ends, each stage runs on to its next preemption point (R195, R245,
R249, R262). -/
def Obligations.SwitchesSaveScrubAndRestore : Prop :=
  ∀ (s : State) (c : Coach) (o m : Ctx), s.regsWf = true →
    (∀ (i : Nat) (pt : Nat × Nat × Nat), syncSettle c s = s → coachCtxId c s = cid o → coachIndex (partMask o s) c = i → (cx o s).switchTo = some m.val →
      coachState c s < 3 → coachQuiet c s = true → standsAt c o i s = some pt → allCtx.find? (fun n => (cx n s).switchTo.isSome && bit (cx n s).moving c.val) = some o →
      ∃ t, exec (.preemptPointReached ⟨c, .clean⟩) s = .next t ∧ rd (CA_STATUS.STATE c.val) t = 3 ∧ rd (ownF c) t = 0 ∧ rd (GL_CTX_STATUS.RESIDENT (cid o)) t = 0 ∧
        (co c t).run = none ∧ (i, saveOf c o pt s) ∈ (cx o t).saves ∧ (co c t).swRes = wbResPt (cx o s).image + wbResPt (cx m s).image ∧
        (∀ f ∈ (co c t).xfers, f.write = true ∧ f.region = 5 ∧ f.ctx = cid o ∧ f.issued = 0) ∧
        (∃ f ∈ (co c t).xfers, f.ofs = 0x200000 ∧ f.total = 64 ∧ f.data.length = 4096) ∧
        (64 ≤ (liveBytes (saveOf c o pt s).live (co c s)).length → ∃ g ∈ (co c t).xfers, g.ofs = 0 ∧ g.data = liveBytes (saveOf c o pt s).live (co c s)) ∧
        (co c t).sram = (co c s).sram ∧ (∀ d, d ≠ c → co d t = co d s) ∧
        s.keptEv [CA_STATUS.STATE c.val, ownF c, GL_CTX_STATUS.RESIDENT (cid o)] t) ∧
    ((cx o s).switchTo = some m.val → (cx o s).switchP.isSome = true → coachesOf (partMask o s) ≠ [] →
      (∀ d ∈ coachesOf (partMask o s), coachState d s = 3 ∧ ∀ f ∈ (co d s).xfers, f.arrived = f.total) →
      ∃ t, exec (.switchSaveDone o) s = .next t ∧ (cx o t).switchTo = none ∧ (cx m t).moving = partMask m s ∧ (cx m t).switchP = (cx o s).switchP ∧
        (∀ d, (d ∈ coachesOf (partMask o s) → coachState d t = 4 ∧ coachCtxId d t = 0 ∧ rd (ownF d) t = 0 ∧ (co d t).scrubAt = some s.now ∧
            (co d t).scrubOld = cid o) ∧
          (d ∉ coachesOf (partMask o s) → co d t = co d s)) ∧
        s.keptEv ((coachesOf (partMask o s)).flatMap (fun d => [CA_STATUS.STATE d.val, CA_STATUS.CTX d.val, ownF d])) t ∧
        t = { s with regs := t.regs, pw := t.pw, ctx := t.ctx, coach := t.coach }) ∧
    (incoming c s = some m → coachState c s = 3 → scrubHeld (cid m) s = false → (∀ f ∈ (co c s).xfers, f.arrived = f.total) →
      ∃ t, exec (.switchRestoreDone c) s = .next t ∧ (rdB (GL_WB_STATUS.LOADED (cid m)) s = true → rd (CA_STATUS.CTX c.val) t = cid m ∧ rd (ownF c) t = cid m) ∧
        (co c t).swRes = 0 ∧ (∀ w, saveFind m c s = some w → ((co c t).run.map (fun r => (r.stage, r.row, r.col)) = w.run.map (fun r => (r.stage, r.row, r.col))) ∧
          (co c t).lastRes = w.lastRes ∧ (co c t).gigEnds = w.gigEnds) ∧ (cx m t).moving = (cx m s).moving - 2 ^ c.val ∧
        (∀ v ∈ (cx m s).saves, v.1 = coachIndex (partMask m s) c → v ∉ (cx m t).saves) ∧
        ((cx m s).moving ≠ 2 ^ c.val → 2 ^ c.val ≤ (cx m s).moving → rd (GL_CTX_SWITCH.COUNT (cid m)) t = rd (GL_CTX_SWITCH.COUNT (cid m)) s) ∧
        ((cx m s).moving = 2 ^ c.val → rd (GL_CTX_STATUS.RESIDENT (cid m)) t = 1 ∧
          rd (GL_CTX_SWITCH.MAX_US (cid m)) t = max (rd (GL_CTX_SWITCH.MAX_US (cid m)) s) (min (ceilDiv (s.now - (cx m s).switchP.getD s.now) 1200) 0xFFFF) ∧
          rd (GL_CTX_SWITCH.COUNT (cid m)) t = sat (GL_CTX_SWITCH.COUNT (cid m)) (rd (GL_CTX_SWITCH.COUNT (cid m)) s + 1)) ∧
        (∀ d, d ≠ c → co d t = co d s)) ∧
    ((cx o s).sliceLen ≠ 0 → (cx o s).sliceUnit = 1 → resident o s = true → (cx o s).switchTo = none → 2 ≤ (liveMembers (partMask o s) s).length →
      (cx o s).sliceAt + us (cx o s).sliceCut ≤ s.now → nextMember o (raise 31 (disarmRow 3 o 0 s)) = some m →
      ∃ t, exec (.timeSliceExpire o) s = .next t ∧ (cx o t).switchTo = some m.val ∧ (cx o t).switchE = some s.now ∧ (cx o t).switchP = none ∧ (cx o t).moving = partMask o s ∧
        (∀ x, x ≠ o → cx x t = cx x s) ∧ (∀ d, d ∉ coachesOf (partMask o s) ∨ (co d s).run = none → co d t = co d s) ∧
        (∀ d r, d ∈ coachesOf (partMask o s) → (co d s).run = some r → r.stop = none → syncSettle d s = s →
          ∃ q, (co d t).run = some q ∧ q.stage = r.stage ∧ q.stop = nextPoint (cx r.ctx s).image r.stage (stageCycle d s)) ∧
        t = { s with regs := t.regs, pw := t.pw, ctx := t.ctx, coach := t.coach })

/-- A scrub that passes after its 8,448 cycles of 1.8 GHz is counted, frees its coach, and lets go what it held back; a retired context's ID is free again once its peers have answered and its timer has run,
and the retire is sent again up to three times (R238, R259, R262 to R264). -/
def Obligations.ScrubsPassAndRetiredContextsComeFree : Prop :=
  ∀ (s : State) (n : Ctx), s.regsWf = true →
    (∀ (c : Coach) (t0 : Nat), (co c s).scrubAt = some t0 → t0 + 5632 ≤ s.now → s.flt.replay = none → (∀ m, cxState m s ≠ 6) →
      rdB (GL_FLT_STATE.RECOVERING c.val) s = false → (∀ m, (cx m s).moving = 0) → residentOn c s = none → s.noneWaits →
      (s.mp.held = [] ∨ ∀ d, d ≠ c → (co d s).scrubAt = none) →
      ∃ t, exec (.scrubEnd c true) s = .next t ∧ rd GL_SCRUB.COUNT t = sat GL_SCRUB.COUNT (rd GL_SCRUB.COUNT s + 1) ∧ coachState c t = 0 ∧ coachCtxId c t = 0 ∧
        rd (ownF c) t = 0 ∧ (co c t).scrubAt = none ∧ (domOn 20 s = true → domOpen c.val s = true → rd (pendF (srcFast (48 + c.val) s) (48 + c.val)) t = 1) ∧
        s.keptEv [GL_SCRUB.COUNT, CA_STATUS.STATE c.val, CA_STATUS.CTX c.val, ownF c] t ∧
        t = { s with regs := t.regs, pw := t.pw, coach := t.coach, mp := { s.mp with held := [] }, out := (s.mp.held.map (·.2)).reverse ++ s.out }) ∧
    (∀ t0, (cx n s).retireAt = some t0 → 5 ≤ cxState n s → t0 + 840 * (cx n s).retireN ≤ s.now →
      ∃ t, exec (.retireTimerExpire n) s = .next t ∧ rd (GL_CTX_RETIRE.TIMER_DONE (cid n)) t = 1 ∧
        (cxState n s = 7 → rd (GL_CTX_RETIRE.PEERS_PENDING (cid n)) s = 0 → cxState n t = 0 ∧ rd (SB_LEDGER_STATE.OPEN (cid n)) t = 0 ∧
          cx n t = { CtxSt.init with ledger := (cx n s).ledger }) ∧
        (cxState n s ≠ 7 → s.kept [GL_CTX_RETIRE.TIMER_DONE (cid n)] t ∧ t = { s with regs := t.regs }) ∧ (∀ x, x ≠ n → cx x t = cx x s)) ∧
    (5 ≤ cxState n s → rd (GL_CTX_RETIRE.PEERS_PENDING (cid n)) s ≠ 0 → rd (GL_CTX_RETIRE.RESENDS (cid n)) s < 3 → (cx n s).retireSent + ms 10 ≤ s.now → linkOn s = true →
      ∃ t, exec (.retireResend n) s = .next t ∧ rd (GL_CTX_RETIRE.RESENDS (cid n)) t = rd (GL_CTX_RETIRE.RESENDS (cid n)) s + 1 ∧
        t.tl.retireSeq = (s.tl.retireSeq + 1) % 2 ^ 32 ∧ (cx n t).retireSent = s.now ∧ s.kept [GL_CTX_RETIRE.RESENDS (cid n)] t)

/-- The ledger absorbs a complete row record by record in column order, and the row is absorbed; a variable row waits for its raster (R416 to
R419). -/
def Obligations.LedgerAbsorbsCompleteRows : Prop :=
  ∀ (s : State) (n : Ctx) (r : RowSt), s.regsWf = true → (rowsOf n s).find? (fun x => !x.absorbed && !x.dropped) = some r → withheld s = false → domOpen 21 s = true →
    r.recs.length = cfgColumns (cx n s).cfg → cfgColumns (cx n s).cfg ≠ 0 →
    (cfgVariable (cx n s).cfg = false →
      ∃ t, exec (.ledgerAbsorbRow n) s = .next t ∧ (cx n t).ledger.count = (cx n s).ledger.count + r.recs.length ∧
        (cx n t).ledger.head = (sortBy (fun a b => a.column ≤ b.column) r.recs).foldl (fun h x => sha384 (h ++ leBytes 1 2 ++ x.data)) (cx n s).ledger.head ∧
        rd (SB_LEDGER_CNT.RECORDS (cid n)) t = sat (SB_LEDGER_CNT.RECORDS (cid n)) (rd (SB_LEDGER_CNT.RECORDS (cid n)) s + r.recs.length) ∧
        (∀ x ∈ rowsOf n t, x.row = r.row → x.absorbed = true) ∧ (∀ m, m ≠ n → (cx m t).ledger = (cx m s).ledger)) ∧
    (∀ d, cfgVariable (cx n s).cfg = true → rasterDigest n r s = some d →
      ∃ t, exec (.ledgerAbsorbRow n) s = .next t ∧ (cx n t).ledger.count = (cx n s).ledger.count + r.recs.length + 1 ∧
        (cx n t).ledger.head = (sortBy (fun a b => a.column ≤ b.column) r.recs).foldl (fun h x => sha384 (h ++ leBytes 1 2 ++ x.data))
          (sha384 ((cx n s).ledger.head ++ leBytes 1 3 ++ (leBytes 4 r.epoch ++ leBytes 2 r.rowInSheet ++ d))) ∧
        (cx n t).ledger.lastRow = r.row ∧ (∀ x ∈ rowsOf n t, x.row = r.row → x.absorbed = true) ∧ (∀ m, m ≠ n → (cx m t).ledger = (cx m s).ledger)) ∧
    (cfgVariable (cx n s).cfg = true → rasterDigest n r s = none →
      (∀ x ∈ rowsOf n s, x.posted = true ∨ x.dropped = true ∨ x.absorbed = false) →
      exec (.ledgerAbsorbRow n) s = .next s ∧ rasterWaits n s = true)

/-- A link port trains, sends its HELLO, comes UP or is rejected, and BYPASS_HOLD rises only after its minimum low time (R272 to R274, R295,
R296). -/
def Obligations.LinkPortsTrainAndComeUp : Prop :=
  ∀ (s : State) (p : LinkPort), s.regsWf = true →
    (linkOn s = true → portState p s ≠ 2 →
      ∃ t, exec (.linkChannelChange p) s = .next t ∧ portState p t = 1 ∧ rd (TL_P_TRAIN.LAST_CAUSE p.val) t = 6 ∧
        rd (TL_P_TRAIN.COUNT p.val) t = sat (TL_P_TRAIN.COUNT p.val) (rd (TL_P_TRAIN.COUNT p.val) s + 1) ∧
        lport p t = { lport p s with trainAt := some s.now, downAt := none, locked := false, peerOk := false } ∧
        s.keptEv [portF p, TL_P_TRAIN.LAST_CAUSE p.val, TL_P_TRAIN.COUNT p.val] t ∧ t = { s with regs := t.regs, pw := t.pw, tl := t.tl }) ∧
    (linkOn s = true → portState p s = 1 → (lport p s).locked = false →
      ∃ t f iv, exec (.linkBlockLock p) s = .next t ∧ (lport p t).locked = true ∧ (lport p t).helloAt = s.now ∧ t.out = .link p.val f :: s.out ∧
        f.header = frameHeader 0x01 (linkPos s) 0 false (portDir p) 0 32 0 iv ∧ t = { s with tl := t.tl, out := t.out, freeN := s.freeN + 1 }) ∧
    (linkOn s = true → portState p s = 1 → (lport p s).locked = true → (lport p s).peerOk = false → (lport p s).helloAt + us 50 ≤ s.now →
      ∃ t f iv, exec (.helloRepeat p) s = .next t ∧ (lport p t).helloAt = s.now ∧ t.out = .link p.val f :: s.out ∧
        f.header = frameHeader 0x01 (linkPos s) 0 false (portDir p) 0 32 0 iv ∧ t = { s with tl := t.tl, out := t.out, freeN := s.freeN + 1 }) ∧
    (∀ t0, (lport p s).trainAt = some t0 → linkOn s = true → portState p s = 1 → t0 + ms 2 ≤ s.now →
      ∃ t, exec (.linkTrainTimeout p) s = .next t ∧ portState p t = 0 ∧ rd (TL_P_TRAIN.LAST_CAUSE p.val) t = 3 ∧
        lport p t = { lport p s with trainAt := none, downAt := some s.now, held := [] } ∧ s.keptEv [portF p, TL_P_TRAIN.LAST_CAUSE p.val] t) ∧
    (∀ t0, (lport p s).downAt = some t0 → linkOn s = true → portState p s = 0 → t0 + ms 10 ≤ s.now →
      ∃ t, exec (.linkRetrainDelay p) s = .next t ∧ portState p t = 1 ∧ rd (TL_P_TRAIN.LAST_CAUSE p.val) t = 3 ∧ (lport p t).trainAt = some s.now) ∧
    (∀ cause, linkOn s = true → portState p s = 2 → tandemJobs s = [] →
      ∃ t, exec (.linkLockLost p cause) s = .next t ∧ portState p t = 1 ∧ rd (TL_P_TRAIN.LAST_CAUSE p.val) t = (match cause with | .lock => 1 | .headers => 2) ∧
        rd (TL_P_TRAIN.COUNT p.val) t = sat (TL_P_TRAIN.COUNT p.val) (rd (TL_P_TRAIN.COUNT p.val) s + 1) ∧ (lport p t).changedAt = some s.now) ∧
    (∀ f m, s.takes p 0x01 f → (lport p s).locked = true → frPlain f (helloKey s) = some m →
      (wordN m 2 ≠ p.val → ∃ t, exec (.helloRx p f) s = .next t ∧ portState p t = 2 ∧ (lport p t).peerOk = true ∧ (lport p t).peerPos = bits (wordN m 0) 0 6 ∧
        (lport p t).trainAt = none ∧ (lport p t).changedAt = some s.now) ∧
      (wordN m 2 = p.val → ∃ t, exec (.helloRx p f) s = .next t ∧ portState p t = 3 ∧ rd (TL_P_TRAIN.LAST_CAUSE p.val) t = 5 ∧ rd TL_STATUS.CAUSE t = 7)) ∧
    (∀ f, s.takes p 0x01 f → (lport p s).locked = true → frPlain f (helloKey s) = none →
      ∃ t, exec (.helloRx p f) s = .next t ∧ portState p t = 3 ∧ rd (TL_P_TRAIN.LAST_CAUSE p.val) t = 4 ∧ rd TL_STATUS.CAUSE t = 6 ∧
        rd (TL_P_ERR.AUTH p.val) t = sat (TL_P_ERR.AUTH p.val) (rd (TL_P_ERR.AUTH p.val) s + 1)) ∧
    (∀ t0, s.pins.lowAt = some t0 → t0 + ms 10 ≤ s.now →
      (holdWanted s = true → exec .bypassHoldMinLow s = .next { s with pins := { s.pins with hold := true, lowAt := none } }) ∧
      (holdWanted s = false → s.pins.hold = false → exec .bypassHoldMinLow s = .next { s with pins := { s.pins with lowAt := none } }))

/-- A chain table is recorded, a DISCOVER ends at the last block, LINE_SYNC sets the offsets to the head's numbering, and no head means
STANDBY (R279, R282, R283, R286). -/
def Obligations.DiscoveryRecordsTheChain : Prop :=
  ∀ (s : State) (p : LinkPort) (f : LinkFrame), s.regsWf = true →
    (∀ m, s.takes p 0x03 f → frPlain f (helloKey s) = some m → ¬(p.val = 0 ∧ linkPos s = 0) → argCause (frArg f) = 0 →
      ∃ t, exec (.chainTableRx p f) s = .next t ∧ t.tl.table = tableEntries m ∧ t.tl.nonce = slice m 0 16 ∧ t.tl.sentBulk = 0 ∧ t.tl.sentUrgent = 0 ∧ t.tl.accepted = [] ∧
        rd TL_STATUS.CHAIN t = 2 ∧ rd TL_STATUS.RING t = b2n (p.val == 0) ∧ rd TL_STATUS.N_BLOCKS t = (tableEntries m).length % 128 ∧
        rd TL_STATUS.HEAD t = rd TL_STATUS.HEAD s ∧
        ∀ k < 64, match (tableEntries m)[k]? with
          | some e => rd (TL_TABLE.VALID k) t = 1 ∧ rd (TL_TABLE.POS k) t = e.1 % 64 ∧ rd (TL_TABLE_ID.ID k) t = e.2 % 2 ^ 32
          | none => rd (TL_TABLE.VALID k) t = 0 ∧ rd (TL_TABLE.POS k) t = 0 ∧ rd (TL_TABLE_ID.ID k) t = 0) ∧
    (s.takes p 0x03 f → frPlain f (helloKey s) = none →
      ∃ t, exec (.chainTableRx p f) s = .next t ∧ rd (TL_P_ERR.AUTH p.val) t = sat (TL_P_ERR.AUTH p.val) (rd (TL_P_ERR.AUTH p.val) s + 1) ∧
        s.kept [TL_P_ERR.AUTH p.val] t ∧ t = { s with regs := t.regs }) ∧
    (∀ m, s.takes 0 0x02 f → frPlain f (helloKey s) = some m → linkPos s ≠ 0 → (tableEntries m).length < 64 → argCause (frArg f) = 0 →
      (∀ e, (tableEntries m).getLast? = some e → e.1 < linkPos s) → portState 1 s ≠ 2 →
      ∃ t g, exec (.discoverRx 0 f) s = .next t ∧ t.out = .link 0 g :: s.out ∧ t.tl.table = tableEntries (m ++ ownEntry s) ∧ rd TL_STATUS.CHAIN t = 2 ∧
        rd TL_STATUS.RING t = 0) ∧
    (∀ m u, s.takes p 0x08 f → sessionRx p f s = (some m, u) → frArg f = 1 → u.regsWf = true → linkOn u = true → linkPos u = 0 → portState 1 u = 2 →
      ∃ t g, exec (.discoverReqRx p f) s = .next t ∧ t.out = .link 1 g :: u.out ∧ t.freeN = u.freeN + 2 ∧ (rd TL_STATUS.CHAIN u ≠ 3 → rd TL_STATUS.CHAIN t = 1) ∧
        t.tl.nonce = leBytes 16 (Config.free u.freeN)) ∧
    (∀ m u, s.takes p 0x08 f → sessionRx p f s = (some m, u) → frArg f = 2 → u.regsWf = true →
      (u.tt.opened ≠ [] → ttLine u ≤ rd TT_EPOCH_LINE.LINE u + 16 →
        ∃ t, exec (.lineSyncRx p f) s = .next t ∧ rd TL_STATUS.SYNCED t = 1 ∧
          rd TL_LINE_OFS.OFS t = (leNat (slice m 4 8) + 2 ^ 48 - rd TT_EPOCH_LINE.LINE u) % 2 ^ 48 ∧
          rd TL_EPOCH_OFS.OFS t = (wordN m 0 + 2 ^ 32 - rd TT_EPOCH.NUMBER u) % 2 ^ 32 ∧ u.keptEv [TL_STATUS.SYNCED, TL_LINE_OFS.OFS, TL_EPOCH_OFS.OFS] t) ∧
      ((u.tt.opened = [] ∨ rd TT_EPOCH_LINE.LINE u + 16 < ttLine u) →
        ∃ t, exec (.lineSyncRx p f) s = .next t ∧ rd TL_STATUS.SYNCED t = 0 ∧ u.kept [TL_STATUS.SYNCED] t)) ∧
    (∀ t0, linkOn s = true → (lport p s).changedAt = some t0 → t0 + ms 10 ≤ s.now → tandemJobs s = [] →
      ∃ t, exec .noHead s = .next t ∧ rd TL_STATUS.CHAIN t = 3 ∧ rd TL_STATUS.CAUSE t = 4 ∧ (∀ q, (lport q t).changedAt = none) ∧
        s.keptMsg [TL_STATUS.CHAIN, TL_STATUS.CAUSE] t)

/-- Halo strips and summaries are taken, requested and sent again; a strip is written in bursts, within the link's beats of a window (R202, R219,
R287 to R290, R301). -/
def Obligations.HaloStripsAndSummariesPass : Prop :=
  ∀ (s u : State) (p : LinkPort) (f : LinkFrame) (m : List Byte), s.regsWf = true → u.regsWf = true →
    (s.takes p 0x10 f → sessionRx p f s = (some m, u) →
      (tandemCtx (frCtx f) u = none → ∃ t, exec (.haloRx p f) s = .next t ∧ rd TL_DROPS.NO_CTX t = sat TL_DROPS.NO_CTX (rd TL_DROPS.NO_CTX u + 1) ∧
        u.kept [TL_DROPS.NO_CTX] t ∧ t = { u with regs := t.regs }) ∧
      (∀ n j, tandemCtx (frCtx f) u = some n → (cx n u).job = some j → j.relRow - 1 ≤ bits (frArg f) 0 31 + (cfgHRows (cx n u).cfg - 2) →
        domOn 18 u = true → m.length = 13824 →
        exec (.haloRx p f) s = .next { u with mp := { u.mp with own := u.mp.own ++
          [⟨2, true, cid n, 1, cfgBase (cx n u).cfg 1 + (bits (frArg f) 0 31 % cfgHRows (cx n u).cfg * 2 + bits (frArg f) 31 1) * 13824, 216, 0, m, bits (frArg f) 31 1, bits (frArg f) 0 31, .other⟩] } })) ∧
    (∀ n o id k a, u.mp.own = [o] → o.cls = 2 → o.write = true → o.ctx = cid n → o.region = 1 → o.data = m →
      rdB (MP_FENCE.FENCING (cid n)) u = false → rdB GL_STATUS.FENCED u = false → rd (MP_KEY_STATE.SLOT n.val) u ≠ 2 → scrubHeld (cid n) u = false →
      a = o.addr + 64 * o.done → k = u.mp.linkLeft → 0 < k → k < o.beats - o.done → k ≤ toBlockEnd a → overlaps true a k u = false → freeId (portOf a) true u = some id →
      ∃ v, ownIssue 2 u = some v ∧
        v.out = .mem (portOf a) id true (reqCtx (cid n) 1 u) a k (Config.reqSec (reqCtx (cid n) 1 u)) (slice m (64 * o.done) (64 * k)) :: u.out ∧
        v.mp.linkLeft = 0 ∧ v.mp.own = [{ o with done := o.done + k }] ∧
        (∃ q, v.mp.txs = u.mp.txs ++ [q] ∧ q.port = portOf a ∧ q.id = id ∧ q.write = true ∧ q.ctx = cid n ∧ q.region = 1 ∧ q.addr = a ∧ q.beats = k ∧
          q.row = o.row ∧ q.stage = o.stage) ∧ v = { u with mp := v.mp, out := v.out }) ∧
    (∀ (n : Ctx) (q : Tx) (z : Port), txFind z q.id s = some q → q.write = true → q.abandoned = false → q.dest = .other → q.region = 1 → q.ctx = cid n → s.mp.own = [] → s.mp.txs = [q] → q.waiting = 0 →
      ∃ t, exec (.mpWriteDone z q.id 0) s = .next t ∧ t.mp.txs = [] ∧ t.regs = s.regs ∧ (cid n, q.row, q.stage) ∈ t.tl.arrived ∧
        ∀ w ∈ s.tl.waits, (w ∈ t.tl.waits ↔ ¬(w.ctx = cid n ∧ w.row = q.row ∧ w.side = q.stage))) ∧
    (∀ (n : Ctx) (row : Nat) (w : HaloWait), s.tl.waits.find? (fun w => w.ctx == cid n && w.row == row && w.side == p.val) = some w → linkOn s = true →
      w.at_ + us 100 * (w.reqs + 1) ≤ s.now →
      (w.reqs < 3 → ∃ t, exec (.haloReqTimer n row p) s = .next t ∧ { w with reqs := w.reqs + 1 } ∈ t.tl.waits ∧
        rd TL_HALO.REQ t = sat TL_HALO.REQ (rd TL_HALO.REQ s + 1) ∧ s.kept [TL_HALO.REQ] t) ∧
      (3 ≤ w.reqs → ∃ v, rd TL_HALO.LOST v = sat TL_HALO.LOST (rd TL_HALO.LOST s + 1) ∧ (∀ x ∈ v.tl.waits, ¬(x.ctx = cid n ∧ x.row = row ∧ x.side = p.val)) ∧
        s.keptEv [TL_HALO.LOST] v ∧ exec (.haloReqTimer n row p) s = .next (raiseFault 18 ⟨0x04, 1, cid n, 0, 0xFF, row⟩ v))) ∧
    (∀ x, s.takes p 0x08 f → sessionRx p f s = (some m, u) → frArg f = 3 →
      u.tl.strips.find? (fun x => x.ctx == frCtx f && x.row % 2 ^ 31 == bits (wordN m 0) 0 31 && x.side == 1 - bits (wordN m 0) 31 1) = some x →
      linkOn u = true → u.tl.session ≠ [] → rdB GL_STATUS.FENCED u = false → portState (portTo (frSrc f) u) u = 2 → scrubHeld x.ctx u = false →
      ∃ t g, exec (.haloReqRx p f) s = .next t ∧ rd TL_HALO.RESENT t = sat TL_HALO.RESENT (rd TL_HALO.RESENT u + 1) ∧
        t.out = .link (portTo (frSrc f) u).val g :: u.out ∧ t.tl.sentBulk = u.tl.sentBulk + 1 ∧ u.kept [TL_HALO.RESENT] t) ∧
    (s.takes p 0x08 f → sessionRx p f s = (some m, u) → frArg f = 3 → (∀ x ∈ u.tl.strips, x.ctx ≠ frCtx f) → tandemCtx (frCtx f) u = none →
      ∃ t, exec (.haloReqRx p f) s = .next t ∧ rd TL_DROPS.NO_CTX t = sat TL_DROPS.NO_CTX (rd TL_DROPS.NO_CTX u + 1) ∧ u.kept [TL_DROPS.NO_CTX] t ∧ t = { u with regs := t.regs }) ∧
    (s.takes p 0x08 f → sessionRx p f s = (some m, u) → frArg f = 4 → (∀ x ∈ u.tl.sums, x.1 ≠ frCtx f) → tandemCtx (frCtx f) u = none →
      ∃ t, exec (.summaryReqRx p f) s = .next t ∧ rd TL_DROPS.NO_CTX t = sat TL_DROPS.NO_CTX (rd TL_DROPS.NO_CTX u + 1) ∧ u.kept [TL_DROPS.NO_CTX] t ∧ t = { u with regs := t.regs }) ∧
    (s.takes p 0x11 f → sessionRx p f s = (some m, u) →
      (tandemCtx (frCtx f) u = none → ∃ t, exec (.summaryRx p f) s = .next t ∧ rd TL_DROPS.NO_CTX t = sat TL_DROPS.NO_CTX (rd TL_DROPS.NO_CTX u + 1) ∧
        u.kept [TL_DROPS.NO_CTX] t) ∧
      (∀ n, tandemCtx (frCtx f) u = some n → withheld u = true →
        ∃ t, exec (.summaryRx p f) s = .next t ∧ (∃ x ∈ (cx n t).summaries, x.sheet = wordN m 0 ∧ x.pos = frSrc f ∧ x.rows = bits (wordN m 1) 0 16 ∧
          x.records = bits (wordN m 1) 16 16) ∧ (∀ y, y ≠ n → cx y t = cx y u) ∧ t = { u with ctx := t.ctx })) ∧
    (∀ (n : Ctx) (w : SumWait), s.tl.sumWaits.find? (fun w => w.ctx == cid n && w.line + 256 * (w.reqs + 1) ≤ ttLine s) = some w → linkOn s = true →
      (w.reqs < 3 → ∃ t, exec (.summaryReqTimer n) s = .next t ∧ { w with reqs := w.reqs + 1 } ∈ t.tl.sumWaits ∧ t.regs = s.regs) ∧
      (3 ≤ w.reqs → cxState n s = 3 → (cx n s).abortFence = false → ∃ t, exec (.summaryReqTimer n) s = .next t ∧ (cx n t).abortFence = true ∧
        rd TL_ABORT.COUNT t = sat TL_ABORT.COUNT (rd TL_ABORT.COUNT s + 1) ∧ rd TL_ABORT.LAST_CAUSE t = 4)) ∧
    (∀ x, s.takes p 0x08 f → sessionRx p f s = (some m, u) → frArg f = 4 → u.tl.sums.find? (fun x => x.1 == frCtx f && x.2.1 == wordN m 0) = some x →
      linkOn u = true → u.tl.session ≠ [] → rdB GL_STATUS.FENCED u = false → portState (portTo 0 u) u = 2 → scrubHeld x.1 u = false →
      ∃ t g, exec (.summaryReqRx p f) s = .next t ∧ t.out = .link (portTo 0 u).val g :: u.out ∧ t.tl.sentBulk = u.tl.sentBulk + 1 ∧ t.regs = u.regs)

/-- An abort fences its job once and is repeated; a retired context is remembered and acknowledged; damaged frames are counted (R277, R291,
R292, R294, R301). -/
def Obligations.AbortsAndRetiresReachTheirContexts : Prop :=
  ∀ (s u : State) (p : LinkPort) (f : LinkFrame) (m : List Byte), s.regsWf = true → u.regsWf = true →
    (∀ n, s.takes p 0x20 f → sessionRx p f s = (some m, u) → (frSrc f, frArg f) ∉ u.tl.abortSeen → ctxOf (frCtx f) = some n → cxState n u = 3 →
      (cx n u).abortFence = false →
      ∃ t, exec (.abortRx p f) s = .next t ∧ (cx n t).abortFence = true ∧ (∀ x ∈ rowsOf n t, x.posted = true ∨ x.dropped = true) ∧
        (frSrc f, frArg f) ∈ t.tl.abortSeen ∧ rd (MP_FENCE.FENCING (cid n)) t = 1 ∧ rd TL_ABORT.COUNT t = sat TL_ABORT.COUNT (rd TL_ABORT.COUNT u + 1) ∧
        rd TL_ABORT.LAST_SRC t = frSrc f ∧ rd TL_ABORT.LAST_CAUSE t = bits (wordN m 0) 0 3 ∧ rd TL_ABORT.LAST_CTX t = frCtx f) ∧
    (s.takes p 0x20 f → sessionRx p f s = (some m, u) → (frSrc f, frArg f) ∈ u.tl.abortSeen → exec (.abortRx p f) s = .next u) ∧
    (∀ a, s.tl.aborts.find? (fun a => a.at_ + us 1 ≤ s.now) = some a → linkOn s = true → s.tl.session ≠ [] →
      ∃ t, exec .abortRepeat s = .next t ∧ t.tl.sentUrgent = s.tl.sentUrgent + 1 ∧ t.regs = s.regs ∧
        t.tl.aborts = s.tl.aborts.filter (fun b => b.seq != a.seq) ++ (if a.left ≤ 1 then [] else [{ a with left := a.left - 1, at_ := s.now }])) ∧
    (s.takes p 0x21 f → sessionRx p f s = (some m, u) → linkOn u = true → u.tl.session ≠ [] →
      ∃ t, exec (.contextRetireRx p f) s = .next t ∧ frCtx f ∈ t.tl.retired ∧ t.tl.sentUrgent = u.tl.sentUrgent + 1 ∧ t.regs = u.regs) ∧
    (∀ n, s.takes p 0x22 f → sessionRx p f s = (some m, u) → ctxOf (frCtx f) = some n → (cxState n u = 5 ∨ cxState n u = 6) → frSrc f ∉ (cx n u).retirePeers →
      ∃ t, exec (.retireAckRx p f) s = .next t ∧ rd (GL_CTX_RETIRE.PEERS_PENDING (cid n)) t = (rd (GL_CTX_RETIRE.PEERS_PENDING (cid n)) u - 1) % 128 ∧
        (cx n t).retirePeers = frSrc f :: (cx n u).retirePeers ∧ u.keptEv [GL_CTX_RETIRE.PEERS_PENDING (cid n)] t) ∧
    (∀ kind, linkOn s = true → (portState p s = 1 ∨ portState p s = 2) →
      ∃ t, exec (.frameErr p f kind) s = .next t ∧
        rd (TL_P_ERR.CRC p.val) t = (if kind = .crc ∧ f.crc ≠ frInverted f then sat (TL_P_ERR.CRC p.val) (rd (TL_P_ERR.CRC p.val) s + 1) else rd (TL_P_ERR.CRC p.val) s) ∧
        rd (TL_P_ERR.LEN p.val) t = (if kind = .crc then rd (TL_P_ERR.LEN p.val) s else sat (TL_P_ERR.LEN p.val) (rd (TL_P_ERR.LEN p.val) s + 1)) ∧
        s.keptEv [TL_P_ERR.CRC p.val, TL_P_ERR.LEN p.val] t)

/-- The queues and doorbells of a mailbox channel: words, COMMIT, DISCARD, doorbells, reads and counters (R309, R310, R312, R325); what waits
behind the K2H queue goes out in its order, not before the cycle after its last read (R311, R343). -/
def Obligations.MailboxQueuesFollowTheirRules : Prop :=
  ∀ (s : State) (k : Chan) (sec : Bool),
    (∀ d : Word, s.mbReach k 0 sec →
      (h2kFull k s = false → (chan k s).words.length < 8 →
        ∃ t, exec (.h2kDataWrite k d sec) s = .next t ∧ chan k t = { chan k s with words := (chan k s).words ++ [d.toNat] } ∧ t = { s with mb := t.mb, out := s.mbAnswer k }) ∧
      (h2kFull k s = false → 8 ≤ (chan k s).words.length →
        ∃ t, exec (.h2kDataWrite k d sec) s = .next t ∧ chan k t = { chan k s with overflow := true } ∧ rd (MB.H2K_STATUS.OVERFLOW k) t = 1 ∧
          s.kept [MB.H2K_STATUS.OVERFLOW k] t) ∧
      (((chan k s).msg ≠ [] ∨ (chan k s).fullClr = some s.now) →
        ∃ t, exec (.h2kDataWrite k d sec) s = .next t ∧ chan k t = chan k s ∧ rd (MB.H2K_STATUS.WRITE_FULL k) t = 1 ∧
          rd (MB.CNT.WRITE_FULL k) t = sat (MB.CNT.WRITE_FULL k) (rd (MB.CNT.WRITE_FULL k) s + 1) ∧ s.kept [MB.H2K_STATUS.WRITE_FULL k, MB.CNT.WRITE_FULL k] t)) ∧
    (s.mbReach k 4 sec → h2kFull k s = false →
      ((chan k s).words ≠ [] → (chan k s).words.length = 1 + bits ((chan k s).words.headD 0) 16 4 → (chan k s).overflow = false → (tandemOn s = false ∨ peerUp k s = true) →
        ∃ t, exec (.h2kCommit k sec) s = .next t ∧ chan k t = { chan k s with words := [], overflow := false, msg := (chan k s).words, readN := 0 } ∧
          rd (MB.H2K_DB_PEND.PEND k) t = (rd (MB.H2K_DB_PEND.PEND k) s ||| 1) % 2 ^ 32 ∧ s.keptEv [MB.H2K_DB_PEND.PEND k] t ∧
          t = { s with regs := t.regs, pw := t.pw, mb := t.mb, out := s.mbAnswer k }) ∧
      (((chan k s).words = [] ∨ (chan k s).words.length ≠ 1 + bits ((chan k s).words.headD 0) 16 4 ∨ (chan k s).overflow = true) →
        ∃ t, exec (.h2kCommit k sec) s = .next t ∧ chan k t = { chan k s with words := [], overflow := false } ∧ rd (MB.H2K_STATUS.BAD_LENGTH k) t = 1 ∧
          rd (MB.CNT.BAD_LENGTH k) t = sat (MB.CNT.BAD_LENGTH k) (rd (MB.CNT.BAD_LENGTH k) s + 1) ∧ s.kept [MB.H2K_STATUS.BAD_LENGTH k, MB.CNT.BAD_LENGTH k] t)) ∧
    (s.mbReach k 4 sec → ∃ t, exec (.h2kDiscard k sec) s = .next t ∧ chan k t = { chan k s with words := [], overflow := false } ∧ t = { s with mb := t.mb, out := s.mbAnswer k }) ∧
    (∀ d : Word, s.mbReach k 0xC sec →
      ∃ t, exec (.h2kDbSet k d sec) s = .next t ∧ rd (MB.H2K_DB_PEND.PEND k) t = (rd (MB.H2K_DB_PEND.PEND k) s ||| d.toNat / 8 * 8) % 2 ^ 32 ∧
        s.keptEv [MB.H2K_DB_PEND.PEND k] t ∧ t = { s with regs := t.regs, pw := t.pw, out := s.mbAnswer k }) ∧
    (s.mbReach k 0x20 sec →
      (∀ w x r, (chan k s).k2h = w :: x :: r →
        ∃ t, exec (.k2hDataRead k sec) s = .next t ∧ chan k t = { chan k s with k2h := x :: r } ∧ t = { s with mb := t.mb, out := if k.val = 5 then s.out else .resp false 0 (low32 w) :: s.out }) ∧
      (∀ w, (chan k s).k2h = [w] →
        ∃ t, exec (.k2hDataRead k sec) s = .next t ∧ chan k t = { chan k s with k2h := [], hdr := 0, k2hClr := some s.now } ∧ rd (MB.H2K_DB_PEND.PEND k) t = (rd (MB.H2K_DB_PEND.PEND k) s ||| 2) % 2 ^ 32 ∧
          t.out = (if k.val = 5 then s.out else .resp false 0 (low32 w) :: s.out) ∧ s.keptEv [MB.H2K_DB_PEND.PEND k] t) ∧
      ((chan k s).k2h = [] →
        ∃ t, exec (.k2hDataRead k sec) s = .next t ∧ rd (MB.K2H_STATUS.UNDERRUN k) t = 1 ∧ rd (MB.CNT.UNDERRUN k) t = sat (MB.CNT.UNDERRUN k) (rd (MB.CNT.UNDERRUN k) s + 1) ∧
          s.kept [MB.K2H_STATUS.UNDERRUN k, MB.CNT.UNDERRUN k] t ∧
          t = { s with regs := t.regs, out := if k.val = 5 then s.out else .resp false 0 0 :: s.out })) ∧
    (s.mbReach k 0x3C sec →
      (∃ t, exec (.mbCntClrCnt k sec) s = .next t ∧ (∀ f ∈ [MB.CNT.BAD_LENGTH k, MB.CNT.WRITE_FULL k, MB.CNT.UNDERRUN k], rd f t = 0 ∧ rd f (tick (inc f t)) = 0) ∧
        s.kept [MB.CNT.BAD_LENGTH k, MB.CNT.WRITE_FULL k, MB.CNT.UNDERRUN k] t ∧ t = { s with regs := t.regs, out := s.mbAnswer k }) ∧
      (∃ t, exec (.mbCntClrAbort k sec) s = .next t ∧ rd (MB.ABORT.COUNT k) t = 0 ∧ rd (MB.ABORT.COUNT k) (tick (inc (MB.ABORT.COUNT k) t)) = 0 ∧ s.kept [MB.ABORT.COUNT k] t ∧ t = { s with regs := t.regs, out := s.mbAnswer k })) ∧
    (s.regsWf = true → k2hFree k s = true → abortDue k s = true →
      ∃ t, exec (.noticeDequeue k) s = .next t ∧ rd (MB.ABORT.VALID k) t = 0 ∧ (chan k t).notices = (chan k s).notices ∧ (chan k t).resps = (chan k s).resps ∧
        ∃ h, h % 2 ^ 8 = 0x11 ∧ (chan k t).k2h = [h, low32 (rd (MB.ABORT.OPCODE k) s + rd (MB.ABORT.SEQ k) s * 2 ^ 8 + rd (MB.ABORT.COUNT k) s * 2 ^ 16)]) ∧
    (s.regsWf = true → k2hFree k s = true → abortDue k s = false →
      (∀ b w r, (chan k s).resps = (b, w) :: r →
        ∃ t, exec (.noticeDequeue k) s = .next t ∧ chan k t = { chan k s with resps := r, k2h := w, hdr := w.headD 0 } ∧
          rd (MB.K2H_DB_PEND.PEND k) t = (rd (MB.K2H_DB_PEND.PEND k) s ||| 1) % 2 ^ 32) ∧
      (∀ w r, (chan k s).resps = [] → (chan k s).notices = w :: r →
        ∃ t, exec (.noticeDequeue k) s = .next t ∧ (chan k t).notices = r ∧ (chan k t).lost = false ∧
          (chan k t).k2h = (if (chan k s).lost then orStatus w 1 else w) ∧ rd (MB.K2H_DB_PEND.PEND k) t = (rd (MB.K2H_DB_PEND.PEND k) s ||| 1) % 2 ^ 32)) ∧
    (∀ r, s.request k r.op r.len r → k.val ≠ 3 → (servedOn r.op).contains k.val = false →
      ∃ t, exec (.badOpcodeRequest k) s = .next t ∧ t.answers k r.op r.seq stBAD_OPCODE [] ∧ (chan k t).msg = [] ∧ s.keptMsg [] t ∧
        t = { s with regs := t.regs, pw := t.pw, mb := t.mb }) ∧
    (s.regsWf = true → k2hFree k s = false → exec (.noticeDequeue k) s = .next s) ∧
    (∀ (q : BitVec 8) (d : Deferred), s.regsWf = true → s.mb.deferred.find? (fun d => d.ch == k.val && d.seq == q.toNat && [0x15, 0x16].contains d.op && d.at_ + ms 2000 ≤ s.now) = some d →
      k2hFree k s = true → (chan k s).resps = [] → abortDue k s = false →
      ∃ t, exec (.deferredTimeout k q) s = .next t ∧ t.answers k d.op d.seq stTIMEOUT [] ∧ d ∉ t.mb.deferred ∧ s.keptMsg [] t ∧
        t = { s with regs := t.regs, pw := t.pw, mb := t.mb })

/-- Every command of the Coachman firmware is turned away with FENCED in a fenced block (IDENTIFY is not), then with BAD_LENGTH for a wrong
LEN, and another message is no case of it (R326, R329, R334). -/
def Obligations.FirmwareCommandsAreCheckedInOrder : Prop :=
  ∀ (i : Instr) (k : Fin 6) (op len : Nat) (s : State), cmRow i = some (k, op, len) → (op = 0x12 ∨ op = 0x15 → blockWaits k op s = false) →
    (∀ r n, s.request k op n r → k.val < 2 → rdB GL_STATUS.FENCED s = true → op ≠ 0x01 →
      ∃ t, exec i s = .next t ∧ t.answers k op r.seq stFENCED [] ∧ (chan k t).msg = [] ∧ s.keptMsg [] t ∧ t = { s with regs := t.regs, pw := t.pw, mb := t.mb }) ∧
    (∀ r n, s.request k op n r → k.val < 2 → (rdB GL_STATUS.FENCED s = false ∨ op = 0x01) → n ≠ len →
      ∃ t, exec i s = .next t ∧ t.answers k op r.seq stBAD_LENGTH [] ∧ (chan k t).msg = [] ∧ s.keptMsg [] t ∧ t = { s with regs := t.regs, pw := t.pw, mb := t.mb }) ∧
    ((∀ r, reqOf k s = some r → r.op ≠ op) → exec i s = .next s)

/-- IDENTIFY, GET_COUNTERS, SET_CMD_REGION and SET_NOTICE_ROUTE (R334, R335). -/
def Obligations.InformationAndRegionCommandsAreAnswered : Prop :=
  ∀ (s : State) (k : Chan) (r : Req),
    (s.request k 0x01 0 r → k.val < 2 →
      ∃ t v, exec (.identify k) s = .next t ∧
        t.answers k 0x01 r.seq stOK [v, hostRead 0 (takeMsg k s), hostRead 4 (takeMsg k s),
          rd GL_STATUS.CONFIDENTIAL s + 2 * rd GL_STATUS.DEBUG_UNLOCKED s + 4 * b2n s.pins.tandem + 2 ^ 8 * rd GL_STATUS.LIFECYCLE (takeMsg k s)] ∧
        v = 3 + bits (s.sb.version[2]) 0 8 * 2 ^ 8 + bits (s.sb.version[2]) 16 8 * 2 ^ 16 ∧ s.keptMsg [] t ∧ t = { s with regs := t.regs, pw := t.pw, mb := t.mb }) ∧
    (s.cmRequest k 0x04 0 r →
      ∃ t, exec (.getCounters k) s = .next t ∧ s.keptMsg [] t ∧ t = { s with regs := t.regs, pw := t.pw, mb := t.mb } ∧
        t.answers k 0x04 r.seq stOK [unitSum 64 CA_BUSY.COUNT GG_BUSY.COUNT s % 2 ^ 32, unitSum 64 CA_BUSY.COUNT GG_BUSY.COUNT s / 2 ^ 32,
          unitSum 32 CA_NUMERIC.ACC_SAT GG_NUMERIC.ACC_SAT s, unitSum 32 CA_NUMERIC.OUT_SAT GG_NUMERIC.OUT_SAT s, unitSum 32 CA_NUMERIC.NAN GG_NUMERIC.NAN s,
          unitSum 32 CA_ECC.CORR GG_ECC.CORR s, unitSum 16 CA_ECC.UNCORR GG_ECC.UNCORR s + 2 ^ 16 * s.mb.noticesLost]) ∧
    (s.cmRequest k 0x02 3 r → (∀ d ∈ s.mb.deferred, d.op ≠ 0x15) →
      (r.addr 1 % 8192 = 0 → r.w 3 % 8192 = 0 → r.w 3 ≤ 2 ^ 30 →
        ∃ t, exec (.setCmdRegion k) s = .next t ∧ t.answers k 0x02 r.seq stOK [] ∧ t.mb.regionBase = r.addr 1 ∧ t.mb.regionSize = r.w 3 ∧ s.keptMsg [] t ∧
          t = { s with regs := t.regs, pw := t.pw, mb := t.mb }) ∧
      (¬(r.addr 1 % 8192 = 0 ∧ r.w 3 % 8192 = 0 ∧ r.w 3 ≤ 2 ^ 30) →
        ∃ t, exec (.setCmdRegion k) s = .next t ∧ t.answers k 0x02 r.seq stCONTRACT [] ∧ t.mb.regionBase = s.mb.regionBase ∧ t.mb.regionSize = s.mb.regionSize)) ∧
    (s.cmRequest k 0x03 2 r →
      ∃ t, exec (.setNoticeRoute k) s = .next t ∧ t.answers k 0x03 r.seq stOK [] ∧ t.mb.route = bits (r.w 1) 0 1 ∧ t.mb.mask = r.w 2 ∧ s.keptMsg [] t ∧
        t = { s with regs := t.regs, pw := t.pw, mb := t.mb })

/-- Contexts are created on free coaches, configured, given edges and slices, bounced and destroyed (R239 to R242, R255, R256, R261, R268, R335
to R337, R347). -/
def Obligations.ContextsAreCreatedConfiguredAndDestroyed : Prop :=
  ∀ (s : State) (k : Chan) (n : Ctx) (r : Req),
    (∀ mask, s.cmRequest k 0x10 2 r → ctxOf (bits (r.w 1) 0 4) = some n → createFail n r (takeMsg k s) = none →
      pickCoaches (bits (r.w 1) 4 5) (bits (r.w 2) 0 16) (bit (r.w 1) 10) (takeMsg k s) = some mask → (powerCoaches (coachesOf mask) (takeMsg k s)).1 = true →
      (∀ c ∈ coachesOf mask, domOn c.val (powerCoaches (coachesOf mask) (takeMsg k s)).2.2 = true) →
      exec (.createContext ⟨k, false⟩) s = .next (securityFault 0x42 (createDone n mask (bit (r.w 1) 9) (powerCoaches (coachesOf mask) (takeMsg k s)).2.2)) ∧
      ∃ t, exec (.createContext ⟨k, true⟩) s = .next t ∧ t.answers k 0x10 r.seq stOK [] ∧ cxState n t = 1 ∧ partMask n t = mask % 2 ^ 16 ∧
        rd (GL_CTX_STATUS.CONFIDENTIAL (cid n)) t = b2n (bit (r.w 1) 9) ∧ rd (GL_CTX_EPOCH.EPOCH (cid n)) t = (rd (GL_CTX_EPOCH.EPOCH (cid n)) s + 1) % 2 ^ 64 ∧
        rd (SB_LEDGER_STATE.OPEN (cid n)) t = 1 ∧ rd (SB_LEDGER_CNT.RECORDS (cid n)) t = 0 ∧ (cx n t).cfg = [] ∧ (cx n t).image = [] ∧
        (∀ m, (cx m s).order < (cx n t).order)) ∧
    (∀ mask keyOk, s.cmRequest k 0x10 2 r → ctxOf (bits (r.w 1) 0 4) = some n → createFail n r (takeMsg k s) = none →
      pickCoaches (bits (r.w 1) 4 5) (bits (r.w 2) 0 16) (bit (r.w 1) 10) (takeMsg k s) = some mask → (powerCoaches (coachesOf mask) (takeMsg k s)).1 = true →
      (∃ c ∈ coachesOf mask, domOn c.val (powerCoaches (coachesOf mask) (takeMsg k s)).2.2 = false) →
      ∃ t, exec (.createContext ⟨k, keyOk⟩) s = .next t ∧ partMask n t = mask % 2 ^ 16 ∧ cxState n t = 0 ∧ cx n t = cx n s ∧ (chan k t).msg = [] ∧ (chan k t).k2h = [] ∧
        ∃ d, t.mb.deferred = s.mb.deferred ++ [d] ∧ d.ch = k.val ∧ d.op = 0x10 ∧ d.seq = r.seq ∧ d.ctx = cid n ∧ d.args.take 3 = [mask, b2n (bit (r.w 1) 9), b2n keyOk]) ∧
    (∀ e : Deferred, s.regsWf = true → e.ch = k.val → e.op = 0x10 → ctxOf e.ctx = some n → k2hFree k s = true → (chan k s).resps = [] → abortDue k s = false →
      ((∃ c ∈ coachesOf (e.args.getD 0 0), domOn c.val s = false ∧ comesUp c.val s = false) →
        (createStep e s).answers k 0x10 e.seq stNO_RESOURCE [] ∧ partMask n (createStep e s) = 0 ∧ e ∉ (createStep e s).mb.deferred) ∧
      ((∀ c ∈ coachesOf (e.args.getD 0 0), domOn c.val s = true) → e.args.getD 2 0 = 1 → cxState n s = 0 →
        (createStep e s).answers k 0x10 e.seq stOK [] ∧ cxState n (createStep e s) = 1 ∧ e ∉ (createStep e s).mb.deferred)) ∧
    (s.cmRequest k 0x10 2 r → ctxOf (bits (r.w 1) 0 4) = none → ∀ keyOk, ∃ t, exec (.createContext ⟨k, keyOk⟩) s = .next t ∧ t.answers k 0x10 r.seq stCONTRACT []) ∧
    (s.cmRequest k 0x11 1 r → ctxOf (bits (r.w 1) 0 4) = some n → ctxLive n s = true → deferredOf (cid n) s = none →
      ∃ t, exec (.destroyContext k) s = .next t ∧ ((cx n s).switchTo = none → t.answers k 0x11 r.seq stOK []) ∧ cxState n t = 5 ∧ rd (GL_CTX_STATUS.RESIDENT (cid n)) t = 0 ∧
        rd (MP_FENCE.FENCING (cid n)) t = 1 ∧ (cx n t).job = none ∧ (cx n t).tearReason = 0 ∧ (cx n t).retireAt = some s.now ∧
        (∀ j < 256, rd (TT_SLOT_ACT.CTX j) s = cid n → rd (TT_SLOT_ACT.ARMED j) t ≠ 1) ∧ (∀ m, m ≠ n → cxState m t = cxState m s)) ∧
    (∀ (b : BlockRead) cfg v, s.ctxRequest k 0x12 7 n r → (cxState n s = 1 ∨ cxState n s = 2 ∨ cxState n s = 4) → blockWaits k 0x12 s = false →
      commandBlock n r (fun _ => 128) b (blockRead n r (takeMsg k s)) = .ok (cfg, v) → areasOk n cfg v = true →
      ∃ t, exec (.configContext k b) s = .next t ∧ t.answers k 0x12 r.seq stOK [] ∧ (cx n t).cfg = cfg ∧
        (cx n t).edge = ⟨bits (cfgW cfg 1) 10 2, bits (cfgW cfg 2) 0 14, bits (cfgW cfg 2) 16 14⟩ ∧ (∀ m, m ≠ n → cx m t = cx m v)) ∧
    (s.ctxRequest k 0x13 3 n r → bits (r.w 1) 8 2 ≤ 2 →
      (cxState n s = 3 → ∃ t, exec (.setEdge k) s = .next t ∧ t.answers k 0x13 r.seq stOK [] ∧
        cx n t = { cx n s with edgeNext := keptOlder (·.at_) s.now (cx n s).edgeNext ++ [⟨⟨bits (r.w 1) 8 2, bits (r.w 2) 0 14, bits (r.w 3) 0 14⟩, s.now, !rdB TT_CTRL.ENABLE s⟩] } ∧ s.keptMsg [] t) ∧
      ((cxState n s = 1 ∨ cxState n s = 2 ∨ cxState n s = 4) → ∃ t, exec (.setEdge k) s = .next t ∧ t.answers k 0x13 r.seq stOK [] ∧
        cx n t = { cx n s with edge := ⟨bits (r.w 1) 8 2, bits (r.w 2) 0 14, bits (r.w 3) 0 14⟩, edgeNext := [] } ∧ s.keptMsg [] t)) ∧
    (s.ctxRequest k 0x14 2 n r → (cxState n s = 1 ∨ cxState n s = 2 ∨ cxState n s = 4) → bits (r.w 1) 8 1 = 1 → 2000 ≤ bits (r.w 2) 0 24 →
      ∃ t, exec (.setSlice k) s = .next t ∧ t.answers k 0x14 r.seq stOK [] ∧ (cx n t).sliceLen = bits (r.w 2) 0 24 ∧ (cx n t).sliceUnit = 1 ∧
        (∀ m, m ≠ n → cx m t = cx m s)) ∧
    (s.ctxRequest k 0x40 5 n r → (cxState n s = 1 ∨ cxState n s = 2 ∨ cxState n s = 4) → rdB (GL_CTX_STATUS.CONFIDENTIAL (cid n)) s = true →
      r.addr 2 % 4096 = 0 → r.w 4 % 4096 = 0 → r.w 5 % 4096 = 0 → r.w 4 ≤ 2 ^ 28 → r.w 5 < r.w 4 →
      ∃ t, exec (.bounceSetup k) s = .next t ∧ t.answers k 0x40 r.seq stOK [] ∧
        (cx n t).bounce = { (cx n s).bounce with set := true, base := r.addr 2, size := r.w 4, outOfs := r.w 5 } ∧ s.keptMsg [] t) ∧
    (s.ctxRequest k 0x40 5 n r → (cxState n s = 1 ∨ cxState n s = 2 ∨ cxState n s = 4) → rdB (GL_CTX_STATUS.CONFIDENTIAL (cid n)) s = false →
      ∃ t, exec (.bounceSetup k) s = .next t ∧ t.answers k 0x40 r.seq stNOT_CONFIDENTIAL [] ∧ cx n t = cx n s ∧ s.keptMsg [] t)

/-- Waybills and weights are loaded, weights and reference rasters are read through the ports to be measured (R209, R375), reference passes run then, and bounce records arrive, each as a deferred command with one end (R169, R180, R243,
R327, R336, R347). -/
def Obligations.DeferredLoadsAndPassesComplete : Prop :=
  ∀ (s : State) (k : Chan) (n : Ctx) (r : Req) (d : Deferred),
    (∀ (b : BlockRead) img v, s.ctxRequest k 0x15 7 n r → (cxState n s = 1 ∨ cxState n s = 4) → mayDefer k (cid n) s = true → blockWaits k 0x15 s = false →
      rdB SB_BOOT.GIG_UNAVAIL s = false → commandBlock n r (fun b => wordN b 2) b (blockRead n r (takeMsg k s)) = .ok (img, v) →
      ∃ t, exec (.loadWaybill k b) s = .next t ∧ (rdB (GL_CTX_STATUS.CONFIDENTIAL (cid n)) s = false → t.mp = (ownRead 1 0 15 (s.mb.regionBase + r.w 2) (r.w 3) s).mp) ∧
        (rdB (GL_CTX_STATUS.CONFIDENTIAL (cid n)) s = true → t.mp = (initPush false (cid n) ((cx n s).bounce.base + r.w 2) (r.w 3) [] s).mp) ∧ t = { v with mb := { v.mb with deferred := v.mb.deferred ++ [⟨k.val, 0x15, r.seq, cid n, s.now, [], img⟩] } }) ∧
    (s.awaits k n 0x15 d → sbUp s = true → waybillFail n d.data s = none → (List.range (wbNStage d.data)).find? (fun j => !stageOk d.data j) = none →
      ∃ t, exec (.loadWaybillDone n) s = .next t ∧ t.answers k 0x15 d.seq stOK [] ∧ d ∉ t.mb.deferred ∧ cxState n t = 1 ∧ rd (GL_WB_STATUS.LOADED (cid n)) t = 1 ∧
        rd (GL_WB_STATUS.N_COACH (cid n)) t = wbNCoach d.data % 32 ∧ (cx n t).image = d.data ∧ (cx n t).refDone = false ∧
        (resident n s = true → ∀ c ∈ coachesOf (partMask n s), coachState c s < 2 → domOn c.val s = true → coachState c t = 1 ∧ coachCtxId c t = cid n) ∧ (∀ m, m ≠ n → cx m t = cx m s)) ∧
    (∀ e, s.awaits k n 0x15 d → sbUp s = true → waybillFail n d.data s = some e →
      ∃ t, exec (.loadWaybillDone n) s = .next t ∧ t.answers k 0x15 d.seq e [] ∧ d ∉ t.mb.deferred ∧ t.ctx = s.ctx ∧ t.gig = s.gig ∧ s.keptMsg [] t) ∧
    (s.ctxRequest k 0x16 3 n r → mayDefer k (cid n) s = true → (cxState n s = 4 ∨ (cxState n s = 1 ∧ rdB (GL_WB_STATUS.LOADED (cid n)) s = true)) → r.w 2 % 64 = 0 →
      r.w 2 + r.w 3 ≤ cfgSize (cx n s).cfg 4 →
      ∃ t, exec (.loadWeights k) s = .next t ∧ t.mb.deferred = s.mb.deferred ++ [⟨k.val, 0x16, r.seq, cid n, s.now, [r.w 2, r.w 3], []⟩] ∧ (chan k t).k2h = [] ∧
        t.mp = (ownReadFor (.measure (cid n)) 0 (cid n) 4 (cfgBase (cx n s).cfg 4 + r.w 2) (r.w 3) 0 s).mp ∧ s.keptMsg [] t ∧
        t = { s with regs := t.regs, pw := t.pw, mb := t.mb, mp := t.mp }) ∧
    (∀ data, s.awaits k n 0x16 d → (sbUp s = false ∨ measuring n s = true) → exec (.loadWeightsDone n data) s = .next s) ∧
    (∀ data, s.awaits k n 0x16 d → sbUp s = true → measuring n s = false → (cxState n s = 1 ∨ cxState n s = 4) →
      (sha384 (slice data 0 (d.args.getD 1 0)) ≠ wbWeightsDigest (cx n s).image →
        ∃ t, exec (.loadWeightsDone n data) s = .next t ∧ t.answers k 0x16 d.seq stDIGEST_MISMATCH [] ∧ d ∉ t.mb.deferred ∧ t.gig = s.gig ∧ s.keptMsg [] t) ∧
      (sha384 (slice data 0 (d.args.getD 1 0)) = wbWeightsDigest (cx n s).image →
        ∃ t, exec (.loadWeightsDone n data) s = .next t ∧ t.answers k 0x16 d.seq stOK [] ∧ d ∉ t.mb.deferred ∧ cxState n t = 2)) ∧
    (∀ raster, s.ctxRequest k 0x17 1 n r → (cxState n s = 2 ∨ cxState n s = 4) → mayDefer k (cid n) s = true → (cx n s).cfg ≠ [] → cfgVariable (cx n s).cfg = false →
      wbRefProg (cx n s).image = true →
      ∃ t, exec (.refPass k raster) s = .next t ∧ t.mb.deferred = s.mb.deferred ++ [⟨k.val, 0x17, r.seq, cid n, s.now, [],
          sha384 (slice raster 0 (cfgColumns (cx n s).cfg * ((cfgSheetLines (cx n s).cfg + 32) * 864)))⟩] ∧ cx n t = { cx n s with refDone := false } ∧
        t.mp = (ownReadFor (.measure (cid n)) 0 (cid n) 3 (cfgBase (cx n s).cfg 3) (cfgColumns (cx n s).cfg * ((cfgSheetLines (cx n s).cfg + 32) * 864)) 0 s).mp ∧
        s.keptMsg [] t ∧ t = { s with regs := t.regs, pw := t.pw, mb := t.mb, mp := t.mp, ctx := t.ctx }) ∧
    (∀ e ∈ s.mb.deferred, e.op = 0x17 → s.mb.deferred.filter (fun x => x.op == 0x17) = [e] → ctxOf e.ctx = some n →
      ((cx n s).refRun.isSome = true ∨ measuring n s = true ∨ sbUp s = false → passCycle s = s) ∧
      ((cx n s).refRun = none → measuring n s = false → sbUp s = true →
        (cx n (passCycle s)).refRun = some (arithNow s) ∧ (cx n (passCycle s)).refCoaches = 0 ∧ (cx n (passCycle s)).saves = [] ∧ (cx n (passCycle s)).refOverrun = false)) ∧
    (s.awaits k n 0x17 d → s.flt.replay = none → (cx n s).refRun.isSome = true → (cx n s).refCoaches = 2 ^ popcount 16 (partMask n s) - 1 →
      ∃ t, exec (.refPassDone n) s = .next t ∧ t.answers k 0x17 d.seq stOK [] ∧ d ∉ t.mb.deferred ∧ cx n t = { cx n s with refRun := none, refDone := true } ∧
        (∀ m, m ≠ n → cx m t = cx m s) ∧ s.keptMsg [] t) ∧
    (s.ctxRequest k 0x41 7 n r → (cxState n s = 2 ∨ cxState n s = 3 ∨ cxState n s = 4) → mayDefer k (cid n) s = true → rdB (GL_CTX_STATUS.CONFIDENTIAL (cid n)) s = true →
      r.w 2 + r.w 3 ≤ (cx n s).bounce.outOfs → 32 ≤ r.w 3 →
      ∃ t, exec (.bounceIn k) s = .next t ∧ t.mb.deferred = s.mb.deferred ++ [⟨k.val, 0x41, r.seq, cid n, s.now, [r.w 2, r.w 3], r.bytes 4 7⟩] ∧
        t.mp = (initPush false (cid n) ((cx n s).bounce.base + r.w 2) (r.w 3) [] s).mp ∧ t.out = s.out ∧ s.keptMsg [] t) ∧
    (∀ x : InitTx, s.mp.inits = [x] → x.id = none → x.write = false → x.ctx = cid n → scrubHeld (cid n) s = false → rdB GL_STATUS.FENCED s = false →
      ∃ v, initStep s = some v ∧ v.mp = { s.mp with inits := [{ x with id := some 0, waiting := 1 }] } ∧
        v.out = .init 0 false (reqCtx (cid n) 15 s) x.addr x.beats (Config.reqSec (reqCtx (cid n) 15 s)) x.data :: s.out ∧ v = { s with mp := v.mp, out := v.out }) ∧
    ((∀ j < 16, ∃ x ∈ s.mp.inits, x.id = some j) → (∀ x ∈ s.mp.inits, x.write = false) → initStep s = none) ∧
    (∀ rec pt target count, s.awaits k n 0x41 d → bounceRecord n 1 (d.args.getD 0 0) (d.args.getD 1 0) d.data rec s = .ok (pt, target, count) →
      target + pt.length ≤ cfgSize (cx n s).cfg 3 →
      (∀ x ∈ s.mp.inits, x.write = true ∨ x.ctx ≠ cid n) →
      ∃ t, exec (.bounceInDone n rec) s = .next t ∧ t.answers k 0x41 d.seq stOK [] ∧ d ∉ t.mb.deferred ∧ (cx n t).bounce = { (cx n s).bounce with countIn := count } ∧
        t.mp = (writeRegion n 3 target pt s).mp) ∧
    (∀ rec, s.awaits k n 0x41 d → (∃ x ∈ s.mp.inits, x.write = false ∧ x.ctx = cid n) → exec (.bounceInDone n rec) s = .next s) ∧
    (∀ rec e, (∀ x ∈ s.mp.inits, x.write = true ∨ x.ctx ≠ cid n) → s.awaits k n 0x41 d → bounceRecord n 1 (d.args.getD 0 0) (d.args.getD 1 0) d.data rec s = .error e →
      ∃ t, exec (.bounceInDone n rec) s = .next t ∧ t.answers k 0x41 d.seq e [] ∧ d ∉ t.mb.deferred ∧ t.ctx = s.ctx ∧ t.out = s.out ∧ s.keptMsg [] t)

/-- Jobs start, stop and are aborted, and the chain commands set this block's position and BYPASS_HOLD (R238, R281, R295, R334, R338 to R340). -/
def Obligations.JobsStartStopAndAbort : Prop :=
  ∀ (s : State) (k : Chan) (n : Ctx) (r : Req) (d : Deferred),
    (s.ctxRequest k 0x20 3 n r → (cxState n s = 2 ∨ cxState n s = 4) → startFail n r (jobLine n r s) s = none →
      ∃ t j, exec (.startJob k) s = .next t ∧ t.answers k 0x20 r.seq stOK [] ∧ cxState n t = 3 ∧ (cx n t).job = some j ∧ j.j0 = jobLine n r s ∧ j.running = true ∧
        j.relRow = 0 ∧ j.rows = [] ∧ j.stopRow = none ∧ (cx n t).ledger.count = (cx n s).ledger.count + 1) ∧
    (∀ e, s.ctxRequest k 0x20 3 n r → (cxState n s = 2 ∨ cxState n s = 4) → startFail n r (jobLine n r s) s = some e →
      ∃ t, exec (.startJob k) s = .next t ∧ t.answers k 0x20 r.seq e [] ∧ t.ctx = s.ctx ∧ s.keptMsg [] t) ∧
    (∀ j, s.ctxRequest k 0x21 2 n r → cxState n s = 3 → mayDefer k (cid n) s = true → (cx n s).job = some j →
      ∃ t, exec (.stopJob k) s = .next t ∧ t.mb.deferred = s.mb.deferred ++ [⟨k.val, 0x21, r.seq, cid n, s.now, [], []⟩] ∧
        (cx n t).job.map (·.stopRow) = some (some (if bit (r.w 2) 0 = true ∨ ttState s = 3 then j.relRow else sheetStop j (cx n s).cfg s)) ∧
        (∀ m, m ≠ n → cx m t = cx m s)) ∧
    (∀ j, s.awaits k n 0x21 d → (cx n s).job = some j → ttState s ≠ 3 → cxState n s = 3 → stopDone n s = true →
      ∃ t, exec (.stopJobDone n) s = .next t ∧ cxState n t = 4 ∧ (cx n t).job = none ∧ d ∉ t.mb.deferred ∧ t.answers k 0x21 d.seq stOK [] ∧
        rd (GL_CTX_DEBT.CARRIED (cid n)) t = 0 ∧ (cx n t).ledger.count = (cx n s).ledger.count + 1) ∧
    (s.ctxRequest k 0x22 1 n r → cxState n s = 3 → (tandemJobs s).contains n = false → deferredOf (cid n) s = none →
      ∃ t, exec (.abortJob k) s = .next t ∧ t.mb.deferred = s.mb.deferred ++ [⟨k.val, 0x22, r.seq, cid n, s.now, [], []⟩] ∧ (cx n t).abortFence = true ∧
        rd (MP_FENCE.FENCING (cid n)) t = 1 ∧ (∀ x ∈ rowsOf n t, x.posted = true ∨ x.dropped = true) ∧ (∀ j, (cx n t).job = some j → j.running = false)) ∧
    (s.awaits k n 0x22 d → cxState n s = 3 → (cx n s).abortFence = true → txsOf (cid n) s = [] →
      ∃ t, exec (.abortFenceDone n) s = .next t ∧ t.answers k 0x22 d.seq stOK [] ∧ cxState n t = 4 ∧ rd (MP_FENCE.FENCING (cid n)) t = 0 ∧ (cx n t).abortFence = false ∧
        (cx n t).job = none ∧ (cx n t).key = (cx n s).key ∧ (∀ m, m ≠ n → cx m t = cx m s)) ∧
    (s.cmRequest k 0x30 1 r → tandemOn s = true → tandemJobs s = [] → domOpen 19 s = true →
      ∃ t, exec (.chainPosition k) s = .next t ∧ t.answers k 0x30 r.seq stOK [] ∧ rd TL_CFG.POS_OVR t = bits (r.w 1) 0 6 ∧ rd TL_CFG.POS_OVR_EN t = bits (r.w 1) 8 1) ∧
    (s.cmRequest k 0x31 0 r → tandemOn s = true → tandemJobs s = [] → domOpen 19 s = true →
      ∃ t, exec (.chainJoin k) s = .next t ∧ t.answers k 0x31 r.seq stOK [] ∧ rd TL_CFG.JOINED t = 1 ∧
        (s.pw.reset = none → s.pins.pwrCycN = true → s.pins.lowAt = none → t.pins.hold = true) ∧ s.keptMsg [TL_CFG.JOINED] t) ∧
    (s.cmRequest k 0x32 1 r → tandemOn s = true → (tandemJobs s = [] ∨ bit (r.w 1) 0 = true) → domOpen 19 s = true →
      ∃ t, exec (.chainLeave k) s = .next t ∧ t.answers k 0x32 r.seq stOK [] ∧ rd TL_CFG.JOINED t = 0 ∧ t.pins.hold = false ∧ s.keptMsg [TL_CFG.JOINED] t) ∧
    (s.cmRequest k 0x31 0 r → tandemOn s = false → ∃ t, exec (.chainJoin k) s = .next t ∧ t.answers k 0x31 r.seq stREFUSED_STATE [] ∧ s.keptMsg [] t)

/-- Events latch and are completed, a level still high is sampled again in the cycle after, hold-offs end, host writes reach the bits of the host's sources, and the Lantern records
(R350, R354 to R357, R359, R365, R367). -/
def Obligations.EventsLatchAndAreCompleted : Prop :=
  ∀ (s : State) (tgt : Target) (fast : Bool) (src : BitVec 7), s.regsWf = true →
    (levelSources.contains src.toNat = false → src.toNat < 112 → evReserved src.toNat = false → domOpen (srcDom src.toNat) s = true → domOn 20 s = true →
      ∃ t, exec (.eventLatch src) s = .next t ∧ rd (pendF (srcFast src.toNat s) src.toNat) t = 1 ∧ s.keptEv [] t ∧ t = { s with regs := t.regs, pw := t.pw }) ∧
    (levelSources.contains src.toNat = true → sampled src.toNat s = true → domOn 20 s = true →
      ∃ t, exec (.eventLatch src) s = .next t ∧ rd (rawF src.toNat) t = 1 ∧
        (rd (rawF src.toNat) s = 0 → rd (pendF (srcFast src.toNat s) src.toNat) t = 1) ∧ s.keptEv [] t ∧ t = { s with regs := t.regs, pw := t.pw }) ∧
    (levelSources.contains src.toNat = true → sampled src.toNat s = false →
      ∃ t, exec (.eventLatch src) s = .next t ∧ rd (rawF src.toNat) t = 0 ∧ s.kept [rawF src.toNat] t ∧ t = { s with regs := t.regs }) ∧
    (isActive fast src.toNat tgt s = true → (tgt = .host → s.served (0x700084 + evBank fast) false) →
      ∃ t, exec (.evEoi tgt fast src) s = .next t ∧ isActive fast src.toNat tgt t = false ∧ (∀ x ∈ s.ev.active, x ≠ ⟨fast, src.toNat, tgt⟩ → x ∈ t.ev.active) ∧
        (src.toNat ∈ t.ev.resample ↔ levelSources.contains src.toNat = true ∨ src.toNat ∈ s.ev.resample) ∧
        t = { s with ev := { s.ev with active := t.ev.active, resample := t.ev.resample }, out := if tgt = .host then .resp true 0 0 :: s.out else s.out }) ∧
    (s.ev.resample = [src.toNat] → s.pw.lanternEnd = false → levelSources.contains src.toNat = true → domOn 20 s = true →
      (evCycle s).ev.resample = [] ∧ (sampled src.toNat s = true → rd (pendF (srcFast src.toNat s) src.toNat) (evCycle s) = 1) ∧
        (sampled src.toNat s = false → (evCycle s).regs = s.regs) ∧ s.keptEv [] (evCycle s)) ∧
    (isActive fast src.toNat tgt s = false → domOn 20 s = false → tgt ≠ .host → exec (.evEoi tgt fast src) s = .next s) ∧
    (isActive fast src.toNat tgt s = false → domOn 20 s = true → (tgt = .host → s.served (0x700084 + evBank fast) false) →
      ∃ t, exec (.evEoi tgt fast src) s = .next t ∧ rd EV_SPURIOUS_EOI.LAST_SRC t = src.toNat ∧
        rd (if fast then EV_SPURIOUS_EOI.FAST else EV_SPURIOUS_EOI.NORMAL) t = min (rd (if fast then EV_SPURIOUS_EOI.FAST else EV_SPURIOUS_EOI.NORMAL) s + 1) 4095 ∧
        s.kept [if fast then EV_SPURIOUS_EOI.FAST else EV_SPURIOUS_EOI.NORMAL, EV_SPURIOUS_EOI.LAST_SRC] t ∧
        t = { s with regs := t.regs, out := if tgt = .host then .resp true 0 0 :: s.out else s.out }) ∧
    (s.served (0x700088 + evBank fast) false →
      ∃ t, exec (.evDiscard fast src) s = .next t ∧ (hostOwns fast src.toNat s = true →
          rd (pendF fast src.toNat) t = rd (pendF fast src.toNat) s &&& rd (freshF (pendF fast src.toNat)) s ∧ s.kept [pendF fast src.toNat] t) ∧
        (hostOwns fast src.toNat s = false → t.regs = s.regs ∧ t.ev = s.ev) ∧
        t = { s with regs := t.regs, ev := { s.ev with moved := t.ev.moved }, out := .resp true 0 0 :: s.out }) ∧
    (∀ (w : Fin 4) (data : Word), s.served (0x700000 + evBank fast + 4 * w.val) false →
      ∃ t, exec (.evPendWrite fast w data) s = .next t ∧
        (∀ b, b < 32 → hostOwns fast (32 * w.val + b) s = true → rd (pendF fast (32 * w.val + b)) t =
          if bit data.toNat b = true then 1 else rd (pendF fast (32 * w.val + b)) s &&& rd (freshF (pendF fast (32 * w.val + b))) s) ∧
        (∀ b, b < 32 → hostOwns fast (32 * w.val + b) s = false → rd (pendF fast (32 * w.val + b)) t = rd (pendF fast (32 * w.val + b)) s) ∧
        s.kept ((List.range 32).map (fun b => pendF fast (32 * w.val + b))) t ∧
        t = { s with regs := t.regs, ev := { s.ev with moved := t.ev.moved }, out := .resp true 0 0 :: s.out }) ∧
    (∀ (g : Fin 16), ∀ h ∈ s.ev.holds, h.fast = fast → h.group = g.val → h.start + us h.time ≤ s.now →
      ∃ t, exec (.holdoffExpire fast g) s = .next t ∧ rd (EV_HOLD.RUNNING fast g.val) t = 0 ∧ holdRuns fast g.val t = false ∧
        (∀ x ∈ s.ev.holds, ¬(x.fast = fast ∧ x.group = g.val) → x ∈ t.ev.holds) ∧ s.kept [EV_HOLD.RUNNING fast g.val] t ∧ t = { s with regs := t.regs, ev := t.ev }) ∧
    (s.served 0x700094 false → ∃ t, exec .evCntClrSpurious s = .next t ∧ s.cleared [EV_SPURIOUS_EOI.NORMAL, EV_SPURIOUS_EOI.FAST, EV_SPURIOUS_EOI.LAST_SRC] t) ∧
    (∀ level, domOpen 22 s = true → domOn 20 s = true →
      (∃ t, exec (.aonSenseEdge .encA level) s = .next t ∧ t.pins.encA = level ∧ (level ≠ s.pins.encA → t.pins.encAt = some s.now ∧ rd (pendF (srcFast 96 s) 96) t = 1) ∧
        s.keptEv [] t ∧ t = { s with regs := t.regs, pw := t.pw, pins := t.pins }) ∧
      (∃ t, exec (.aonSenseEdge .sheetMark level) s = .next t ∧ t.pins.mark = level ∧ (level ≠ s.pins.mark → rd (pendF (srcFast 97 s) 97) t = 1) ∧
        s.keptEv [] t ∧ t = { s with regs := t.regs, pw := t.pw, pins := t.pins }) ∧
      (∃ t, exec (.aonSenseEdge .svcCsN level) s = .next t ∧ t.pins.svcCsN = level ∧ (s.pins.svcCsN = true → level = false → rd (pendF (srcFast 99 s) 99) t = 1) ∧
        s.keptEv [] t ∧ t = { s with regs := t.regs, pw := t.pw, pins := t.pins })) ∧
    (∀ e, e ∈ watchers src.toNat s → evReserved src.toNat = false → domOpen (srcDom src.toNat) s = true → rd PM_LAN_CTRL.ARM s = 1 → s.pw.lantern = true →
      ∃ t, exec (.lanternHit src) s = .next t ∧ rd (PM_LAN_HIT.ENTRIES e) t = 1 ∧ rd PM_LAN_HIT.FIRST_VALID t = 1 ∧
        rd PM_LAN_HIT.FIRST t = (if rd PM_LAN_HIT.FIRST_VALID s = 1 then rd PM_LAN_HIT.FIRST s else src.toNat) ∧
        (rd PM_SLEEP.STATE s = 2 → rd PM_THERM_STATUS.TRIP s = 0 → rd PM_SLEEP.STATE t = 3 ∧ t.pw.bootStep = 2) ∧ s.keptEv [] t ∧
        t = { s with regs := t.regs, pw := t.pw }) ∧
    (∀ on, s.served 0xB00800 false →
      ∃ t, exec (.lanternArm on) s = .next t ∧ rd PM_LAN_CTRL.ARM t = b2n on ∧ rd PM_LAN_HIT.FIRST_VALID t = (if on then 0 else rd PM_LAN_HIT.FIRST_VALID s) ∧
        s.kept [PM_LAN_CTRL.ARM, PM_LAN_HIT.FIRST_VALID] t ∧ t = { s with regs := t.regs, out := .resp true 0 0 :: s.out })

/-- A claim takes the lowest-numbered source that would drive the target's line of its class, and answers its number; with no such source it
answers 0 and has no effect (R353). -/
def Obligations.ClaimsTakeTheLowestDrivingSource : Prop :=
  ∀ (s : State) (tgt : Target) (fast : Bool) (src : BitVec 7), s.regsWf = true →
    (drives tgt fast src.toNat s = true → (∀ j, j < src.toNat → drives tgt fast j s = false) → (tgt = .host → s.served (0x700080 + evBank fast) false) →
      (tgt ≠ .host → fwAwake (if tgt = .coachman then .coachman else .strongbox) s = true ∧ (fast = true ∨ evLine tgt true s = false)) →
      ∃ t, exec (.evClaim tgt fast) s = .next t ∧ rd (pendF fast src.toNat) t = rd (pendF fast src.toNat) s &&& rd (freshF (pendF fast src.toNat)) s ∧ isActive fast src.toNat tgt t = true ∧ (∀ x ∈ s.ev.active, x ∈ t.ev.active) ∧
        (rd (EV_HOLD.TIME fast (src.toNat / 8)) s ≠ 0 → rd (EV_HOLD.RUNNING fast (src.toNat / 8)) t = 1 ∧ holdRuns fast (src.toNat / 8) t = true) ∧
        t.out = (if tgt = .host then .resp false 0 (2 ^ 31 + src.toNat) :: s.out else s.out) ∧
        (tgt = .host ∨ 7 ≤ src.toNat ∧ src.toNat ≠ 104 ∧ src.toNat ≠ 105 → s.kept [pendF fast src.toNat, EV_HOLD.RUNNING fast (src.toNat / 8)] t ∧
          t = { s with regs := t.regs, ev := t.ev, out := t.out })) ∧
    (evLine tgt fast s = false →
      (tgt = .host → s.served (0x700080 + evBank fast) false → exec (.evClaim tgt fast) s = .next { s with out := .resp false 0 0 :: s.out }) ∧
      (tgt ≠ .host → exec (.evClaim tgt fast) s = .next s)) ∧
    (tgt ≠ .host → fwAwake (if tgt = .coachman then .coachman else .strongbox) s = false → exec (.evClaim tgt fast) s = .next s) ∧
    (tgt ≠ .host → evLine tgt true s = true → exec (.evClaim tgt false) s = .next s)

/-- The Strongbox's commands: LEN and ROM checks, identification and challenge, lifecycle and debug unlock, and the
reset that follows their answer within 10 ms (R326, R329, R379 to R382, R390; in which cycle of the 10 ms is a free choice, log 36). -/
def Obligations.StrongboxLifecycleCommandsAreAnswered : Prop :=
  ∀ (s : State) (r : Req) (block : BlockRead) (blows : Bool),
    (∀ i k c op lens, sbRow i = some (k, c, op, lens) →
      ((∀ r, reqOf k s = some r → r.op ≠ op) ∨ k ≠ c → exec i s = .next s) ∧
      (∀ n, s.request k op n r → k = c → romServes s = true → op ≠ 0x80 → op ≠ 0x82 →
        ∃ t, exec i s = .next t ∧ t.answers k op r.seq stBAD_OPCODE [] ∧ s.keptMsg [] t ∧ t = { s with regs := t.regs, pw := t.pw, mb := t.mb }) ∧
      (∀ n, s.request k op n r → k = c → (romServes s = false ∨ op = 0x80 ∨ op = 0x82) → rdB GL_STATUS.FENCED s = true →
        ∃ t, exec i s = .next t ∧ t.answers k op r.seq stFENCED [] ∧ s.keptMsg [] t ∧ t = { s with regs := t.regs, pw := t.pw, mb := t.mb }) ∧
      (∀ n, s.sbRequest k op n r → k = c → (romServes s = false ∨ op = 0x80 ∨ op = 0x82) → !lens.contains n →
        ∃ t, exec i s = .next t ∧ t.answers k op r.seq stBAD_LENGTH [] ∧ s.keptMsg [] t ∧ t = { s with regs := t.regs, pw := t.pw, mb := t.mb })) ∧
    (s.sbRequest 2 0x80 0 r →
      ∃ t v, exec (.sbIdentify 2) s = .next t ∧ t.answers 2 0x80 r.seq stOK [hostRead 0x800000 s, hostRead 0x800004 s, s.sb.version[0], v] ∧
        (s.sb.root ≠ [] → v = wordN (idHash s) 0) ∧ s.keptMsg [] t ∧ t = { s with regs := t.regs, pw := t.pw, mb := t.mb, freeN := t.freeN }) ∧
    (s.sbRequest 4 0x81 0 r → romServes s = false → confidential s = false →
      ∃ t, exec (.sbChallenge 4) s = .next t ∧ t.sb.challenge.length = 24 ∧ t.answers 4 0x81 r.seq stOK ((List.range 6).map (wordN t.sb.challenge)) ∧ s.keptMsg [] t ∧
        t = { s with regs := t.regs, pw := t.pw, mb := t.mb, freeN := s.freeN + 1, sb := { s.sb with challenge := t.sb.challenge } }) ∧
    (s.sbRequest 4 0x81 0 r → romServes s = false → confidential s = true →
      ∃ t, exec (.sbChallenge 4) s = .next t ∧ t.answers 4 0x81 r.seq stREFUSED_STATE [] ∧ t.sb = s.sb ∧ s.keptMsg [] t) ∧
    (∀ n target, s.sbRequest 4 0x82 n r → allFree s = true →
      ((n = 1 ∧ target = bits (r.w 1) 8 8 ∧ lcFree (lifecycle s) target = true) ∨
        (n = 7 ∧ target = bits (wordN block 1) 8 8 ∧ sbBlock r (some 192) block = none ∧
          ∃ signer, lcToken (lifecycle s) target = some signer ∧ tokenOk 1 target [signer] block s = true)) →
      lcReady (lifecycle s) target s = true →
      ∃ t, exec (.lcAdvance 4 block blows) s = .next t ∧ t.answers 4 0x82 r.seq stOK [] ∧ t.sb = { s.sb with challenge := [], resetDue := some ⟨4, s.now, some (target, blows)⟩ } ∧
        t.otp = s.otp ∧ t.mp = (if n = 7 then (sbRead r (some 192) 128 s).mp else s.mp) ∧ s.keptMsg [] t) ∧
    (∀ at_ target, s.regsWf = true → s.sb.resetDue = some ⟨4, at_, some (target, blows)⟩ → s.pw.reset = none → at_ + ms 10 ≤ s.now → s.otpWf = true → s.otp.op = none →
      (blows = true → (resetCycle s).sb.resetDue = some ⟨4, at_, none⟩ ∧ s.fusesLe (resetCycle s) ∧
        (∀ j, j < 5 → bit target j = true → bit (lifecycle s) j = false → ∀ w, w < 3 → bit ((resetCycle s).fuses w) j = true)) ∧
      (blows = false → sbUp s = true → s.awake → s.secured 0x41 21 (resetCycle s) ∧ s.fusesLe (resetCycle s))) ∧
    (∀ cause at_, s.regsWf = true → s.sb.resetDue = some ⟨cause, at_, none⟩ → s.awake → at_ + ms 10 ≤ s.now →
      (resetCycle s).sb.resetDue = none ∧ (resetCycle s).pw.reset = some ⟨cause, s.now, false⟩ ∧ rd PM_RST_CAUSE.CAUSE (resetCycle s) = cause % 16 ∧
        (resetCycle s).pw.unlock = (s.pw.unlock && cause == 5)) ∧
    (s.sbRequest 4 0x82 7 r → allFree s = true → sbBlock r (some 192) block = none → lcReady (lifecycle s) (bits (wordN block 1) 8 8) s = true →
      ∀ signer, lcToken (lifecycle s) (bits (wordN block 1) 8 8) = some signer → tokenOk 1 (bits (wordN block 1) 8 8) [signer] block s = false →
      ∃ t, exec (.lcAdvance 4 block blows) s = .next t ∧ t.answers 4 0x82 r.seq stAUTH_FAIL [] ∧ t.sb = { s.sb with challenge := [] } ∧ t.otp = s.otp ∧ s.keptMsg [] t) ∧
    (s.sbRequest 4 0x82 1 r → lcFree (lifecycle s) (bits (r.w 1) 8 8) = false →
      ∃ t, exec (.lcAdvance 4 block blows) s = .next t ∧ t.answers 4 0x82 r.seq stREFUSED_STATE [] ∧ t.sb = s.sb ∧ t.otp = s.otp ∧ s.keptMsg [] t) ∧
    (s.sbRequest 4 0x83 7 r → romServes s = false → allFree s = true →
      sbBlock r (some 192) block = none → (lifecycle s = 7 ∨ lifecycle s = 0xF) → confidential s = false → rd TL_CFG.JOINED s = 0 →
      (lifecycle s = 7 ∨ bits (wordN block 1) 16 8 = 1 → s.sb.owner ≠ []) → tokenOk 2 0 (if lifecycle s = 7 then [1] else [1, 2]) block s = true →
      ∃ t, exec (.debugUnlock 4 block) s = .next t ∧ t.answers 4 0x83 r.seq stOK [] ∧ t.pw.unlock = true ∧ t.pw.reset = s.pw.reset ∧
        t.sb = { s.sb with challenge := [], resetDue := some ⟨5, s.now, none⟩ } ∧ t.otp = s.otp ∧ s.keptMsg [] t) ∧
    (s.sbRequest 4 0x83 7 r → romServes s = false → sbBlock r (some 192) block = none → (lifecycle s = 7 ∨ lifecycle s = 0xF) → confidential s = false →
      rd TL_CFG.JOINED s = 0 → (lifecycle s = 7 ∨ bits (wordN block 1) 16 8 = 1) → s.sb.owner = [] →
      ∃ t, exec (.debugUnlock 4 block) s = .next t ∧ t.answers 4 0x83 r.seq stREFUSED_STATE [] ∧ t.sb = s.sb ∧ t.pw.unlock = s.pw.unlock ∧ s.keptMsg [] t) ∧
    (s.sbRequest 4 0x83 7 r → romServes s = false → sbBlock r (some 192) block = none →
      (lifecycle s ≠ 7 ∧ lifecycle s ≠ 0xF ∨ confidential s = true ∨ rd TL_CFG.JOINED s = 1) →
      ∃ t, exec (.debugUnlock 4 block) s = .next t ∧ t.answers 4 0x83 r.seq stREFUSED_STATE [] ∧ t.sb = s.sb ∧ t.pw.unlock = s.pw.unlock ∧ s.keptMsg [] t)

/-- Statements, key updates, which are programmed and answered within 600 ms of their acceptance, working keys and the bounce key (R404, R406, R410 to R412, R415, R422). -/
def Obligations.StrongboxKeyCommandsAreAnswered : Prop :=
  ∀ (s : State) (r : Req) (block : BlockRead) (blows : Bool), romServes s = false →
    (s.sbRequest 2 0x84 7 r → sbBlock r (some 128) block = none → wordN block 0 = 0x31525441 → 1536 ≤ wordN block 4 →
      8 ≤ bits (wordN block 5) 0 7 → bits (wordN block 5) 0 7 ≤ 64 →
      (bits (wordN block 1) 0 4 = 0 → bit (wordN block 1) 8 = false → ∀ g u, statement none false (slice block 64 (bits (wordN block 5) 0 7)) (sbRead r (some 128) 0 (takeMsg 2 s)) = (g, u) →
        ∃ t, exec (.sbAttest 2 block) s = .next t ∧ t.answers 2 0x84 r.seq stOK [g.length] ∧
          t.mp = (writeClear (wordN block 2 + 2 ^ 32 * bits (wordN block 3) 0 16) g u).mp ∧ t.out = s.out ∧ s.keptMsg [] t) ∧
      (∀ n : Ctx, bits (wordN block 1) 0 4 = cid n → (cx n s).ledger.opened = true → bit (wordN block 1) 8 = true → rd (SB_LEDGER_STATE.FINAL_HELD (cid n)) s = 1 →
        ∃ t, exec (.sbAttest 2 block) s = .next t ∧ t.answers 2 0x84 r.seq stOK [(cx n s).ledger.final.length] ∧
          t.mp = (writeClear (wordN block 2 + 2 ^ 32 * bits (wordN block 3) 0 16) (cx n s).ledger.final (sbRead r (some 128) 0 s)).mp ∧ t.out = s.out ∧
          (cx n t).ledger = { (cx n s).ledger with nonce := slice block 64 (bits (wordN block 5) 0 7) } ∧ s.keptMsg [] t) ∧
      (∀ n : Ctx, bits (wordN block 1) 0 4 = cid n → (cx n s).ledger.opened = false →
        ∃ t, exec (.sbAttest 2 block) s = .next t ∧ t.answers 2 0x84 r.seq stBAD_STATE [] ∧ t.out = s.out ∧ t.ctx = s.ctx ∧ s.keptMsg [] t)) ∧
    (∀ e, s.sbRequest 4 0x85 7 r → s.sb.keyJob = none → keyUpdateCheck block r (sbRead r none 128 (takeMsg 4 s)) = .error e →
      ∃ t, exec (.keyUpdate 4 block blows) s = .next t ∧ t.answers 4 0x85 r.seq e [] ∧ t.otp = s.otp ∧ t.out = s.out ∧ t.mp = (sbRead r none 128 s).mp ∧ s.keptMsg [] t) ∧
    (s.sbRequest 4 0x85 7 r → s.sb.keyJob.isSome = true →
      ∃ t, exec (.keyUpdate 4 block blows) s = .next t ∧ t.answers 4 0x85 r.seq stBUSY [] ∧ t.sb = s.sb ∧ t.otp = s.otp ∧ t.mp = s.mp ∧ s.keptMsg [] t) ∧
    (∀ es, s.sbRequest 4 0x85 7 r → s.sb.keyJob = none → s.otpWf = true → keyUpdateCheck block r (sbRead r none 128 (takeMsg 4 s)) = .ok es →
      ∃ t, exec (.keyUpdate 4 block blows) s = .next t ∧ bits (wordN block 1) 16 8 ≤ rd SB_KEY_STATUS.OTP_COUNTER t ∧ s.fusesLe t ∧ (chan 4 t).k2h = [] ∧ (chan 4 t).msg = [] ∧
        t.sb = { s.sb with keyJob := some ⟨4, r.seq, bits (wordN block 1) 16 8, blows, es.filter (fun e => e.region.isSome), es.filter (fun e => e.region.isNone),
          wordN block 2 + 2 ^ 32 * bits (wordN block 3) 0 16, s.now⟩ } ∧ t.out = s.out ∧ t.mp = (sbRead r none 128 s).mp ∧ s.keptMsg [SB_KEY_STATUS.OTP_COUNTER] t) ∧
    (∀ j : KeyJob, s.sb.keyJob = some j → s.pw.reset = none → j.at_ + ms 600 ≤ s.now →
      (∀ e es p, j.todo = e :: es → programRegion e j.blows { s with freeN := s.freeN + 1 } = p → p.1 = true →
        keyCycle s = { p.2 with sb := { p.2.sb with keyJob := some { j with todo := es } } }) ∧
      (∀ e es p, s.room j.ch → j.todo = e :: es → programRegion e j.blows { s with freeN := s.freeN + 1 } = p → p.1 = false →
        (keyCycle s).answers j.ch 0x85 j.seq stNO_RESOURCE [] ∧ (keyCycle s).sb.keyJob = none ∧ (keyCycle s).out = s.out ∧ (keyCycle s).otp = p.2.otp) ∧
      (∀ items : List Byte, s.room j.ch → j.todo = [] → items = j.items.flatMap (fun e => keyEntryItem e j.counter s) →
        (keyCycle s).answers j.ch 0x85 j.seq stOK [rd SB_KEY_STATUS.OTP_COUNTER s, items.length] ∧ (keyCycle s).sb.keyJob = none ∧
          (keyCycle s).mp = (if items = [] then s.mp else (writeClear j.out items s).mp) ∧ s.keptMsg [] (keyCycle s))) ∧
    (s.sbRequest 4 0x86 7 r → sbBlock r (some 160) block = none →
      (keyItem block s = none → ∃ t, exec (.keyLoad 4 block) s = .next t ∧ t.answers 4 0x86 r.seq stAUTH_FAIL [] ∧ t.sb = s.sb ∧ s.keptMsg [] t) ∧
      (∀ kind usage id gen key k, keyItem block s = some (kind, usage, id, gen, key) → s.sb.keys.find? (fun k => k.kind == kind && k.keyId == id) = some k →
        ∃ t, exec (.keyLoad 4 block) s = .next t ∧ t.answers 4 0x86 r.seq stOK [k.slot] ∧ s.keptMsg [SB_KEY_STATUS.STALE] t ∧
          (gen ≤ k.gen → t.sb = { s.sb with keyCheck := true } ∧ rd SB_KEY_STATUS.STALE t = sat SB_KEY_STATUS.STALE (rd SB_KEY_STATUS.STALE s + 1)) ∧
          (k.gen < gen → t.sb = { s.sb with keyCheck := true, keys := ⟨k.slot, kind, usage, id, gen, key⟩ :: s.sb.keys.filter (fun y => y.slot != k.slot) } ∧
            rd SB_KEY_STATUS.STALE t = rd SB_KEY_STATUS.STALE s)) ∧
      (∀ kind usage id gen key i, keyItem block s = some (kind, usage, id, gen, key) → s.sb.keys.find? (fun k => k.kind == kind && k.keyId == id) = none → i < 16 →
        (∀ k ∈ s.sb.keys, k.slot ≠ i) → (∀ j, j < i → ∃ k ∈ s.sb.keys, k.slot = j) →
        ∃ t, exec (.keyLoad 4 block) s = .next t ∧ t.answers 4 0x86 r.seq stOK [i] ∧ t.sb = { s.sb with keyCheck := true, keys := ⟨i, kind, usage, id, gen, key⟩ :: s.sb.keys } ∧
          rd SB_KEY_STATUS.WORK_SLOTS t = sat SB_KEY_STATUS.WORK_SLOTS (rd SB_KEY_STATUS.WORK_SLOTS s + 1) ∧ s.keptMsg [SB_KEY_STATUS.WORK_SLOTS] t) ∧
      (∀ x, keyItem block s = some x → s.sb.keys.find? (fun k => k.kind == x.1 && k.keyId == x.2.2.1) = none → (∀ j, j < 16 → ∃ k ∈ s.sb.keys, k.slot = j) →
        ∃ t, exec (.keyLoad 4 block) s = .next t ∧ t.answers 4 0x86 r.seq stNO_RESOURCE [] ∧ t.sb = s.sb ∧ s.keptMsg [] t)) ∧
    (∀ (n : Ctx) k, s.sbRequest 4 0x87 4 r → ctxOf (bits (r.w 1) 0 4) = some n → ctxLive n s = true → rd (GL_CTX_STATUS.CONFIDENTIAL (cid n)) s = 1 →
      (cx n s).bounce.keySent = false → workKey 1 2 (r.w 2) s = some k →
      ∃ t, exec (.bounceKey 4) s = .next t ∧ t.answers 4 0x87 r.seq stOK [] ∧ t.mp = (writeClear (r.addr 3) (kwpWrap k (cx n s).bounce.key) s).mp ∧ t.out = s.out ∧
        cx n t = { cx n s with bounce := { (cx n s).bounce with keySent := true } } ∧ (∀ m, m ≠ n → cx m t = cx m s) ∧ s.keptMsg [] t) ∧
    (∀ (n : Ctx), s.sbRequest 4 0x87 4 r → ctxOf (bits (r.w 1) 0 4) = some n → (cx n s).bounce.keySent = true →
      ∃ t, exec (.bounceKey 4) s = .next t ∧ t.answers 4 0x87 r.seq stBAD_STATE [] ∧ t.out = s.out ∧ t.ctx = s.ctx ∧ s.keptMsg [] t)

/-- Reins are claimed, revoked and freed, and heartbeats are sent and missed (R386, R387, R389). -/
def Obligations.ReinsAndHeartbeatsFollowTheirRules : Prop :=
  ∀ (s : State) (j : Fin 8), s.regsWf = true →
    (j.val ≠ 6 → domOpen 21 s = true →
      ∃ t, exec (.reinClaim .strongbox j) s = .next t ∧ rd (SB_REINS.HOLDERS j.val) t = 2 ∧ s.kept [SB_REINS.HOLDERS j.val] t ∧
        t = { s with regs := t.regs, sb := { s.sb with hbVoid := s.sb.hbVoid || (s.sb.hbSent.isSome && rd (SB_REINS.HOLDERS j.val) s != 2) } }) ∧
    (j.val ≠ 6 → cmUp s = true → rd (SB_REINS.HOLDERS j.val) s = 0 → j.val ≠ 0 → j.val ≠ 1 → j.val ≠ 7 →
      ∃ t, exec (.reinClaim .coachman j) s = .next t ∧ rd (SB_REINS.HOLDERS j.val) t = 1 ∧ s.kept [SB_REINS.HOLDERS j.val] t ∧
        t = { s with regs := t.regs, sb := { s.sb with hbVoid := s.sb.hbVoid || (s.sb.hbSent.isSome && rd (SB_REINS.HOLDERS j.val) s != 1) } }) ∧
    (j.val ≠ 6 → rd (SB_REINS.HOLDERS j.val) s ≠ 0 ∨ j.val = 0 ∨ j.val = 1 ∨ j.val = 7 → exec (.reinClaim .coachman j) s = .next s) ∧
    (∀ who, j.val ≠ 6 → procRuns who s = true → rd (SB_REINS.HOLDERS j.val) s = procCode who →
      ∃ t, exec (.reinRelease who j) s = .next t ∧ rd (SB_REINS.HOLDERS j.val) t = 0 ∧ s.kept [SB_REINS.HOLDERS j.val] t ∧
        t = { s with regs := t.regs, sb := { s.sb with hbVoid := s.sb.hbVoid || (s.sb.hbSent.isSome && rd (SB_REINS.HOLDERS j.val) s != 0) } }) ∧
    (∀ who, j.val ≠ 6 → rd (SB_REINS.HOLDERS j.val) s ≠ procCode who → exec (.reinRelease who j) s = .next s) ∧
    (cmUp s = true → domOpen 21 s = true →
      exec (.reinClaim .coachman 6) s = exec (.dgClaim .coachman) s ∧ exec (.reinClaim .strongbox 6) s = exec (.dgClaim .strongbox) s ∧
      (dgOwns 1 s = true → exec (.reinRelease .coachman 6) s = exec (.dgRelease .coachman) s) ∧
      (dgOwns 2 s = true → exec (.reinRelease .strongbox 6) s = exec (.dgRelease .strongbox) s)) ∧
    (sbUp s = true → cmUp s = true → s.sb.hbSent = none → (s.sb.hbNum = 0 ∨ s.sb.hbAt + us 970 ≤ s.now) →
      ∃ t, exec .heartbeatSend s = .next t ∧ t.out = .heartbeat (sbView s + 2 ^ 24 * ((s.sb.hbNum + 1) % 256)) :: s.out ∧
        rd SB_HB.COUNT t = sat SB_HB.COUNT (rd SB_HB.COUNT s + 1) ∧ s.kept [SB_HB.COUNT] t ∧
        t = { s with regs := t.regs, out := t.out, sb := { s.sb with
          hbNum := s.sb.hbNum + 1, hbAt := s.now, hbSent := some (sbView s + 2 ^ 24 * ((s.sb.hbNum + 1) % 256), s.now), hbVoid := false } }) ∧
    (∀ v t0, s.sb.hbSent = some (v, t0) → t0 + us 200 ≤ s.now →
      (cmUp s = true → domOpen 21 s = true →
        ∃ t, exec .heartbeatMiss s = .next t ∧ rd SB_HB.MISSES t = min 3 (rd SB_HB.MISSES s + 1) ∧ rd (pendF (srcFast 92 s) 92) t = 1 ∧
          s.keptEv [SB_HB.MISSES] t ∧ t = { s with regs := t.regs, pw := t.pw, sb := { s.sb with hbSent := none, hbClean := 0 } }) ∧
      (cmUp s = false → exec .heartbeatMiss s = .next { s with sb := { s.sb with hbSent := none } }))

/-- An answer to a heartbeat is compared with the Strongbox's view as it was sent: a match, a void comparison (the view has changed since), a first mismatch, and a second in a row,
which resets the block; a miss leaves the run of mismatches as it is (R388). -/
def Obligations.HeartbeatAnswersAreCompared : Prop :=
  ∀ (s : State) (v t0 : Nat), s.regsWf = true → s.sb.hbSent = some (v, t0) →
    (∀ view : HbView, cmUp s = true → s.now ≤ t0 + us 200 →
      (s.sb.hbVoid = false → sbView s = v % 2 ^ 24 → view.words = [v] →
        ∃ t, exec (.heartbeatAnswer view) s = .next t ∧ rd SB_HB.MISSES t = 0 ∧ rd SB_HB.MISMATCHES t = rd SB_HB.MISMATCHES s ∧ t.sb.hbSent = none ∧ t.sb.hbBad = false ∧
          t.sb.hbClean = s.sb.hbClean + 1 ∧ (s.sb.hbClean + 1 < 1000 → s.kept [SB_HB.MISSES] t ∧ t = { s with regs := t.regs, sb := t.sb })) ∧
      (s.sb.hbVoid = true ∨ sbView s ≠ v % 2 ^ 24 →
        ∃ t, exec (.heartbeatAnswer view) s = .next t ∧ rd SB_HB.MISSES t = 0 ∧ rd SB_HB.MISMATCHES t = rd SB_HB.MISMATCHES s ∧ t.sb.hbSent = none ∧ t.sb.hbBad = s.sb.hbBad ∧
          (s.sb.hbClean + 1 < 1000 → s.kept [SB_HB.MISSES] t ∧ t = { s with regs := t.regs, sb := t.sb })) ∧
      (∀ w, s.sb.hbVoid = false → sbView s = v % 2 ^ 24 → view.words = [w] → w ≠ v → s.sb.hbBad = false →
        ∃ t, exec (.heartbeatAnswer view) s = .next t ∧ rd SB_HB.MISSES t = 0 ∧ rd SB_HB.MISMATCHES t = sat SB_HB.MISMATCHES (rd SB_HB.MISMATCHES s + 1) ∧
          rd SB_HB.LAST_LC t = b2n (decide (bits (v ^^^ w) 0 5 ≠ 0)) ∧ rd SB_HB.LAST_MODE t = b2n (decide (bits (v ^^^ w) 5 3 ≠ 0)) ∧
          rd SB_HB.LAST_REINS t = b2n (decide (bits (v ^^^ w) 8 16 ≠ 0)) ∧
          s.kept [SB_HB.MISSES, SB_HB.MISMATCHES, SB_HB.LAST_LC, SB_HB.LAST_MODE, SB_HB.LAST_REINS] t ∧
          t = { s with regs := t.regs, sb := { s.sb with hbSent := none, hbBad := true, hbClean := 0 } }) ∧
      (∀ w, s.sb.hbVoid = false → sbView s = v % 2 ^ 24 → view.words = [w] → w ≠ v → s.sb.hbBad = true → sbUp s = true → s.awake →
        ∃ t, exec (.heartbeatAnswer view) s = .next t ∧ rd SB_HB.MISMATCHES t = sat SB_HB.MISMATCHES (rd SB_HB.MISMATCHES s + 1) ∧ s.secured 0x40 21 t)) ∧
    (t0 + us 200 ≤ s.now → ∃ t, exec .heartbeatMiss s = .next t ∧ t.sb.hbBad = s.sb.hbBad ∧ rd SB_HB.MISMATCHES t = rd SB_HB.MISMATCHES s)

/-- Power good starts the block and loses everything outside its fuses and flash, and the boot runs its steps 1 to 16 (R370, R371, R373, R377, R378, R533). -/
def Obligations.BootRunsItsSteps : Prop :=
  ∀ (s : State), s.regsWf = true →
    (∀ straps, s.pins.pwrGood = false →
      ∃ t, exec (.powerGoodRise straps) s = .next t ∧ t.regs = State.reset.regs ∧ t.otp = s.otp ∧ t.flash = s.flash ∧ t.pw.bootStep = 1 ∧ t.pins.pwrGood = true ∧
        t.pins.tandem = straps.tandem ∧ t.pins.pos = straps.pos.toNat ∧ t.pins.hold = false ∧ t.pins.pwrCycN = true ∧ t.out = s.out ∧ t.sb = State.reset.sb ∧
        t.ctx = State.reset.ctx) ∧
    (s.pins.pwrGood = true →
      ∃ t, exec .powerGoodFall s = .next t ∧ (∀ d, d < 24 → rd (PM_PWR_STATUS.ON d) t = 0) ∧ t.pins.pwrGood = false ∧ t.pins.hold = false ∧ t.flash = s.flash ∧
        t.sb = SbSt.init ∧ t.ctx = Vector.replicate 8 CtxSt.init ∧ (∀ n, cxState n t = 0) ∧ t.pw.bootStep = 0) ∧
    (∀ obs, s.pw.bootStep = 1 → ∃ t, exec (.bootStepDone obs) s = .next t ∧ t.pw.bootStep = 2 ∧ rd PM_SLEEP.STATE t = 3 ∧ rd (PM_PWR_REQ.REQ 21) t = 1) ∧
    (∀ obs, s.pw.bootStep = 2 →
      (domOn 21 s = true → ∃ t, exec (.bootStepDone obs) s = .next t ∧ t.pw.bootStep = 3 ∧ rd SB_STATUS.STAGE t = 1 ∧ (∀ j ∈ [0, 1, 2, 7], rd (SB_REINS.HOLDERS j) t = 2) ∧
        s.kept (SB_STATUS.STAGE :: [0, 1, 2, 7].map SB_REINS.HOLDERS) t) ∧
      (domOn 21 s = false → exec (.bootStepDone obs) s = .next s)) ∧
    (∀ obs, s.pw.bootStep = 3 → rd PM_SLEEP.STATE s = 3 →
      ∃ t, exec (.bootStepDone obs) s = .next t ∧ rd GL_STATUS.LIFECYCLE t = lcResolved s ∧ rd SB_STATUS.LIFECYCLE t = lcResolved s ∧ rd OTP_LC.RESOLVED t = lcResolved s ∧
        rd SB_STATUS.DEBUG_UNLOCKED t = b2n (s.pw.unlock && (lcResolved s == 7 || lcResolved s == 0xF)) ∧ t.otp = s.otp ∧
        (lcValid (lcResolved s) = true → lcResolved s ≠ 0 → lcResolved s ≠ 0x1F → t.pw.bootStep = 4 ∧ rd SB_STATUS.STAGE t = 2) ∧
        (lcValid (lcResolved s) = false ∨ lcResolved s = 0x1F → t.pw.bootStep = 0 ∧ rd SB_STATUS.STAGE t = 15) ∧ (lcResolved s = 0 → t.pw.bootStep = 9)) ∧
    (∀ obs, s.pw.bootStep = 4 →
      (obs.ok = true → ∃ t, exec (.bootStepDone obs) s = .next t ∧ t.pw.bootStep = 5 ∧ rd SB_STATUS.STAGE t = 3 ∧ t.sb.bootId.length = 16 ∧
        (∀ n, rd (GL_CTX_EPOCH.EPOCH (cid n)) t % 2 ^ 16 = 0) ∧ s.kept (SB_STATUS.STAGE :: allCtx.map (fun n => GL_CTX_EPOCH.EPOCH (cid n))) t) ∧
      (obs.ok = false → ∃ t, exec (.bootStepDone obs) s = .next t ∧ t.pw.bootStep = 0 ∧ rd SB_STATUS.HALT t = 1 ∧ t.pins.alarmN = false ∧ s.kept [SB_STATUS.HALT] t)) ∧
    (∀ obs, s.pw.bootStep = 5 → ∃ t, exec (.bootStepDone obs) s = .next t ∧ t.pw.bootStep = 6 ∧ rd SB_STATUS.STAGE t = 4 ∧
      (dirBest (dirKey s) s = none → lifecycle s ≠ 3 → rd SB_BOOT.DIR_BAD t = 1) ∧ (∀ u, u < 6 → dirState u t ≠ 1)) ∧
    (∀ obs, s.pw.bootStep = 6 → ∃ t, exec (.bootStepDone obs) s = .next t ∧
      (if (pickSlot 0 (fun b => slotOk 0 b s) s).isSome then t.pw.bootStep = 7 ∧ rd SB_STATUS.STAGE t = 5
        else t.pw.bootStep = 9 ∧ rd SB_STATUS.STAGE t = 14 ∧ rd SB_STATUS.HALT t = 2 ∧ t.pins.alarmN = false)) ∧
    (∀ obs v, s.pw.bootStep = 7 → v = bootIdentity (bootRoots (bootUds obs.ok s).2) → ∃ t, exec (.bootStepDone obs) s = .next t ∧
      (if (bootUds obs.ok s).1 && (pickSlot 1 (fun b => bundleOk b v) v).isSome then t.pw.bootStep = 8 ∧ rd SB_STATUS.STAGE t = 6
        else t.pw.bootStep = 0 ∧ rd SB_STATUS.HALT t = 3 ∧ t.pins.alarmN = false)) ∧
    (∀ obs, s.pw.bootStep = 8 → ∃ t, exec (.bootStepDone obs) s = .next t ∧ t.pw.bootStep = 9 ∧ rd SB_STATUS.STAGE t = 6 ∧
      (pickSlot 5 (fun b => slotOk 5 b s) s = none → rd SB_BOOT.SETTINGS_DEFAULT t = 1 ∧ rd MP_LAT_BOUND.BOUND_NS t = 1200)) ∧
    (∀ obs, s.pw.bootStep = 9 →
      (domOn 17 s = true → domOn 20 s = true → lifecycle s ≠ 0 → rd SB_STATUS.STAGE s ≠ 14 →
        ∃ t, exec (.bootStepDone obs) s = .next t ∧ t.pw.bootStep = 10 ∧ rd SB_STATUS.STAGE t = 7 ∧ rd GL_STATUS.SB_READY t = 1 ∧ sbUp t = true) ∧
      (domOn 17 s = true → domOn 20 s = true → lifecycle s = 0 ∨ rd SB_STATUS.STAGE s = 14 →
        ∃ t, exec (.bootStepDone obs) s = .next t ∧ t.pw.bootStep = 0 ∧ rd GL_STATUS.SB_READY t = rd GL_STATUS.SB_READY s ∧ sbUp t = true) ∧
      (domOn 17 s = false ∨ domOn 20 s = false →
        (clocksOk s = false ∨ rd (PM_PWR_REQ.REQ 20) s ≠ 0 → exec (.bootStepDone obs) s = .next s) ∧
        (clocksOk s = true → rd (PM_PWR_REQ.REQ 20) s = 0 → exec (.bootStepDone obs) s = .next (powerHostSide s)))) ∧
    (∀ obs, s.pw.bootStep = 10 → ∃ t, exec (.bootStepDone obs) s = .next t ∧
      (if (pickSlot 2 (fun b => slotOk 2 b s) s).isSome then t.pw.bootStep = 11 ∧ rd SB_STATUS.STAGE t = 8
        else t.pw.bootStep = 0 ∧ rd SB_STATUS.HALT t = 4 ∧ t.pins.alarmN = false)) ∧
    (∀ obs, s.pw.bootStep = 11 → ∃ t, exec (.bootStepDone obs) s = .next t ∧ t.pw.bootStep = 12 ∧ rd SB_STATUS.STAGE t = 9 ∧
      (pickSlot 3 (fun b => slotOk 3 b s) s = none → rd SB_BOOT.GIG_UNAVAIL t = 1)) ∧
    (∀ obs, s.pw.bootStep = 12 → ∃ t, exec (.bootStepDone obs) s = .next t ∧ t.pw.bootStep = 13 ∧ rd GL_STATUS.CM_RELEASED t = 1 ∧ rd (SB_REINS.HOLDERS 0) t = 0 ∧
      rd (SB_REINS.HOLDERS 2) t = 1 ∧ cmUp t = true) ∧
    (∀ obs, s.pw.bootStep = 13 →
      (domOn 18 s = true → ∃ t, exec (.bootStepDone obs) s = .next t ∧ t.pw.bootStep = 14 ∧ rd MP_STATUS.KEYS_READY t = 1 ∧ s.kept [SB_STATUS.STAGE, MP_STATUS.KEYS_READY] t) ∧
      (domOn 18 s = false → exec (.bootStepDone obs) s = .next s)) ∧
    (∀ obs, s.pw.bootStep = 14 → ∃ t, exec (.bootStepDone obs) s = .next t ∧ rd MP_STATUS.PORT_UP t = obs.ports.toNat ∧
      t.pw.bootStep = (if tandemOn s then 15 else 16)) ∧
    (∀ obs, s.pw.bootStep = 15 →
      (domOn 19 s = true → ∃ t, exec (.bootStepDone obs) s = .next t ∧ t.pw.bootStep = 16 ∧ rd TL_CFG.JOINED t = (if s.sb.autoJoin then 1 else rd TL_CFG.JOINED s)) ∧
      (domOn 19 s = false → exec (.bootStepDone obs) s = .next s)) ∧
    (∀ obs, s.pw.bootStep = 16 → ∃ t, exec (.bootStepDone obs) s = .next t ∧ t.pw.bootStep = 0 ∧ rd GL_STATUS.CMD_READY t = 1 ∧ rd PM_SLEEP.STATE t = 0 ∧
      rd SB_STATUS.STAGE t = 10 ∧ rd PM_FLT_LAST.NEW t ≠ 1 ∧ t.pins.alarmN = true)

/-- The digest engine is claimed, refused, suspended, released, and takes and ends messages; its counters clear (R426 to R433, R435, R444). -/
def Obligations.DigestEngineIsOwnedAndDigests : Prop :=
  ∀ (s : State) (user : Target) (v : Fin 3), v = dgViewOf user →
    (s.dgReach user 0 → dgOwner s = 0 →
      ∃ t, exec (.dgClaim user) s = .next t ∧ dgOwner t = v.val + 1 ∧ rd (DG_OWN.GRANTED v) t = 1 ∧ rd (DG_OWN.BUSY v) t = 0 ∧ rd (SB_REINS.HOLDERS 6) t = v.val ∧
        s.kept (DG_OWN.GRANTED v :: DG_OWN.BUSY v :: dgOwnFields) t ∧
        t = { s with regs := t.regs, sb := { s.sb with hbVoid := t.sb.hbVoid }, dg := { s.dg with lastWrite := s.now, grantAt := some s.now }, out := s.dgAnswer user }) ∧
    (s.dgReach user 0 → dgOwner s ≠ 0 → dgOwns v s = false → dgOutranked v s = false → user ≠ .strongbox →
      ∃ t, exec (.dgClaim user) s = .next t ∧ rd (DG_OWN.GRANTED v) t = 0 ∧ rd (DG_OWN.BUSY v) t = 1 ∧
        (∀ w, w < 3 → rd (DG_REFUSED.CLAIMS w) t = sat (DG_REFUSED.CLAIMS w) (rd (DG_REFUSED.CLAIMS w) s + 1)) ∧
        s.kept (DG_OWN.GRANTED v :: DG_OWN.BUSY v :: (List.range 3).map DG_REFUSED.CLAIMS) t ∧ t = { s with regs := t.regs, out := s.dgAnswer user }) ∧
    (∀ w : Fin 3, s.dgReach user 0 → w < v → dgOwner s = w.val + 1 → dgOutranked v s = true →
      ∃ t, exec (.dgClaim user) s = .next t ∧ dgOwner t = v.val + 1 ∧ rd (DG_OWN.GRANTED v) t = 1 ∧ rd (DG_OWN.GRANTED w) t = 0 ∧ rd (DG_OWN.BUSY w) t = 1 ∧
        (∀ u, u < 3 → rd (DG_REFUSED.CLAIMS u) t = sat (DG_REFUSED.CLAIMS u) (rd (DG_REFUSED.CLAIMS u) s + 1)) ∧ dgMsg w t = DgMsg.init ∧ t.dg.suspended = s.dg.suspended) ∧
    (∀ w, s.dgReach user 0 → user = .strongbox → w < 2 → dgOwner s = w + 1 → dgOutranked v s = false →
      ∃ t, exec (.dgClaim user) s = .next t ∧ dgOwner t = 3 ∧ rd (SB_REINS.HOLDERS 6) t = 2 ∧ rd (DG_STATUS.SUSPENDED w) t = 1 ∧ rd (DG_OWN.GRANTED 2) t = 1 ∧
        (domOn 20 s = true → rd (pendF (srcFast 89 s) 89) t = 1) ∧
        (∀ u, u < 3 → rd (DG_REFUSED.SUSPENDS u) t = sat (DG_REFUSED.SUSPENDS u) (rd (DG_REFUSED.SUSPENDS u) s + 1)) ∧
        s.keptEv (DG_OWN.GRANTED 2 :: DG_OWN.BUSY 2 :: DG_STATUS.SUSPENDED w :: ((List.range 3).map DG_REFUSED.SUSPENDS ++ dgOwnFields)) t ∧
        t = { s with regs := t.regs, pw := t.pw, sb := { s.sb with hbVoid := t.sb.hbVoid }, dg := { s.dg with suspended := some w, idle := s.now - s.dg.lastWrite, lastWrite := s.now } }) ∧
    (s.dgReach user 0 → dgOwns v s = true → s.dg.suspended = none →
      ∃ t, exec (.dgRelease user) s = .next t ∧ dgOwner t = 0 ∧ dgMsg v t = DgMsg.init ∧ (∀ f ∈ dgShown v, rd f t = 0) ∧ (∀ f ∈ dgConfig v, rd f t = fieldReset f.key) ∧
        (∀ u, u ≠ v → dgMsg u t = dgMsg u s) ∧ s.kept (dgOwnFields ++ dgShown v ++ dgConfig v) t ∧
        t = { s with regs := t.regs, mp := { s.mp with own := s.mp.own.filter (fun o => decide (o.dest ≠ .chunk v)) }, sb := { s.sb with hbVoid := t.sb.hbVoid }, dg := { s.dg with msgs := t.dg.msgs, grantAt := none }, out := s.dgAnswer user }) ∧
    (∀ w, s.dgReach user 0 → dgOwns v s = true → s.dg.suspended = some w → w < 3 →
      ∃ t, exec (.dgRelease user) s = .next t ∧ dgOwner t = w + 1 ∧ rd (DG_STATUS.SUSPENDED w) t = 0 ∧ t.dg.suspended = none ∧ (∀ u, u ≠ v → dgMsg u t = dgMsg u s) ∧
        dgMsg v t = DgMsg.init ∧ s.kept (DG_STATUS.SUSPENDED w :: dgOwnFields ++ dgShown v ++ dgConfig v) t) ∧
    (s.dgReach user 8 → dgOwns v s = true → rd (DG_CFG.ALG v) s ≠ 3 → (rd (DG_CFG.HMAC v) s = 1 → rd (DG_CFG.KEY_LEN v) s ≤ digestBlock (rd (DG_CFG.ALG v) s)) →
      ∃ t, exec (.dgStart user) s = .next t ∧ rd (DG_STATUS.ACTIVE v) t = 1 ∧ (∀ f ∈ dgShown v, f ≠ DG_STATUS.ACTIVE v → rd f t = 0) ∧ (∀ f ∈ dgErrors v, rd f t = 0) ∧
        (dgMsg v t).bytes = [] ∧ (dgMsg v t).ended = false ∧ (dgMsg v t).chunk = none ∧ (dgMsg v t).key = (dgMsg v s).key ∧ s.kept (dgShown v ++ dgErrors v) t ∧
        t = { s with regs := t.regs, mp := { s.mp with own := s.mp.own.filter (fun o => decide (o.dest ≠ .chunk v)) }, dg := { s.dg with msgs := t.dg.msgs, lastWrite := s.now }, out := s.dgAnswer user }) ∧
    (s.dgReach user 8 → dgOwns v s = true → (rd (DG_CFG.ALG v) s = 3 ∨ rd (DG_CFG.HMAC v) s = 1 ∧ digestBlock (rd (DG_CFG.ALG v) s) < rd (DG_CFG.KEY_LEN v) s) →
      ∃ t, exec (.dgStart user) s = .next t ∧ rd (DG_STATUS.BAD_KEY v) t = 1 ∧ rd (DG_STATUS.ACTIVE v) t = 0 ∧ s.kept (dgShown v ++ dgErrors v) t) ∧
    (s.dgReach user 8 → dgOwns v s = true →
      ∃ t, exec (.dgAbort user) s = .next t ∧ (∀ f ∈ dgShown v, rd f t = 0) ∧ (dgMsg v t).bytes = [] ∧ (dgMsg v t).chunk = none ∧ s.kept (dgShown v) t ∧
        t = { s with regs := t.regs, mp := { s.mp with own := s.mp.own.filter (fun o => decide (o.dest ≠ .chunk v)) }, dg := { s.dg with msgs := t.dg.msgs, lastWrite := s.now }, out := s.dgAnswer user }) ∧
    (s.dgReach user 8 → dgOwns v s = true → dgTakes v s = true →
      (dgSrcOk v s = true → ∃ t, exec (.dgMemGo user) s = .next t ∧ rd (DG_STATUS.MEM_RUN v) t = 1 ∧ s.kept [DG_STATUS.MEM_RUN v] t ∧
        dgMsg v t = { dgMsg v s with chunk := some (rd (DG_SRC.ADDR v) s, rd (DG_SRC_LEN.BYTES v) s, rd (DG_MEM_CFG.SEL v) s, rdB (DG_MEM_CFG.FINAL v) s), memErr := false }) ∧
      (dgSrcOk v s = false → ∃ t, exec (.dgMemGo user) s = .next t ∧ rd (DG_STATUS.BAD_SRC v) t = 1 ∧ rd (DG_STATUS.ACTIVE v) t = 0 ∧
        s.kept [DG_STATUS.BAD_SRC v, DG_STATUS.ACTIVE v, DG_STATUS.MEM_RUN v] t)) ∧
    (∀ data : Word, s.dgReach user 0x10 → dgOwns v s = true →
      (dgTakes v s = true → ∃ t, exec (.dgDataWrite user data) s = .next t ∧ dgMsg v t = { dgMsg v s with bytes := (dgMsg v s).bytes ++ leBytes 4 data.toNat } ∧
        t = { s with dg := { s.dg with msgs := t.dg.msgs, lastWrite := s.now }, out := s.dgAnswer user }) ∧
      (dgTakes v s = false → ∃ t, exec (.dgDataWrite user data) s = .next t ∧ (∀ w, w < 3 → rd (DG_REFUSED.WRITES w) t = sat (DG_REFUSED.WRITES w) (rd (DG_REFUSED.WRITES w) s + 1)) ∧
        s.kept ((List.range 3).map DG_REFUSED.WRITES) t ∧ t = { s with regs := t.regs, dg := { s.dg with lastWrite := s.now }, out := s.dgAnswer user })) ∧
    (∀ data : Word, s.dgReach user 0x10 → dgOwns v s = false →
      ∃ t, exec (.dgDataWrite user data) s = .next t ∧ (∀ w, w < 3 → rd (DG_REFUSED.WRITES w) t = sat (DG_REFUSED.WRITES w) (rd (DG_REFUSED.WRITES w) s + 1)) ∧
        (s.dg.suspended = some v.val → rd (DG_STATUS.LOST v) t = 1) ∧ s.kept (DG_STATUS.LOST v :: (List.range 3).map DG_REFUSED.WRITES) t ∧
        t = { s with regs := t.regs, out := s.dgAnswer user }) ∧
    (∀ data : Word, s.dgReach user 0x14 → dgOwns v s = true → dgTakes v s = true →
      (rd (DG_LAST_CNT.COUNT v) s ≤ 4 → ∃ t, exec (.dgLastWrite user data) s = .next t ∧ t = { s with dg := { s.dg with msgs := t.dg.msgs, lastWrite := s.now }, out := s.dgAnswer user } ∧
        dgMsg v t = { dgMsg v s with bytes := (dgMsg v s).bytes ++ (leBytes 4 data.toNat).take (rd (DG_LAST_CNT.COUNT v) s), ended := true }) ∧
      (4 < rd (DG_LAST_CNT.COUNT v) s → ∃ t, exec (.dgLastWrite user data) s = .next t ∧ rd (DG_STATUS.BAD_COUNT v) t = 1 ∧ rd (DG_STATUS.ACTIVE v) t = 0 ∧
        s.kept [DG_STATUS.BAD_COUNT v, DG_STATUS.ACTIVE v, DG_STATUS.MEM_RUN v] t)) ∧
    (∀ w : Fin 16, s.dgReach user (0x100 + if user = .host then 4 * w.val else 0) → dgOwns v s = true →
      (rd (DG_STATUS.DONE v) s = 1 → exec (.dgResultRead user w) s =
        .next { s with out := if user = .host then .resp false 0 (rd (DG_RESULT.RESULT v w.val) s % 2 ^ 32) :: s.out else s.out }) ∧
      (rd (DG_STATUS.DONE v) s = 0 → ∃ t, exec (.dgResultRead user w) s = .next t ∧ rd (DG_STATUS.EARLY_READ v) t = 1 ∧ s.kept [DG_STATUS.EARLY_READ v] t ∧
        t = { s with regs := t.regs, out := if user = .host then .resp false 0 0 :: s.out else s.out })) ∧
    (∀ data a len sel final, s.regsWf = true → dgOwns v s = true → (dgMsg v s).chunk = some (a, len, sel, final) → dgReading v s = false →
      (sel ≠ 0 ∨ (dgMsg v s).memErr = false → ∃ t, exec (.dgChunkDone data false) s = .next t ∧ rd (DG_STATUS.MEM_RUN v) t = 0 ∧ s.kept [DG_STATUS.MEM_RUN v] t ∧
        dgMsg v t = { dgMsg v s with bytes := (dgMsg v s).bytes ++ slice data 0 len, chunk := none, ended := final } ∧
        t = { s with regs := t.regs, dg := { s.dg with msgs := t.dg.msgs } }) ∧
      (∀ err, sel = 0 → (err = true ∨ (dgMsg v s).memErr = true) → ∃ t, exec (.dgChunkDone data err) s = .next t ∧ rd (DG_STATUS.MEM_ERR v) t = 1 ∧ rd (DG_STATUS.ACTIVE v) t = 0 ∧ (dgMsg v t).chunk = none)) ∧
    (s.regsWf = true → dgOwns v s = true → rd (DG_STATUS.ACTIVE v) s = 1 → (dgMsg v s).ended = true → rd (DG_STATUS.LOST v) s = 0 → v.val ≠ 2 →
      ∃ t, exec .dgDone s = .next t ∧ rd (DG_STATUS.DONE v) t = 1 ∧ rd (DG_STATUS.ACTIVE v) t = 0 ∧
        (∀ w, w < 16 → rd (DG_RESULT.RESULT v w) t = wordN (if rd (DG_CFG.HMAC v) s = 1
          then hmacAlg (rd (DG_CFG.ALG v) s) (slice (dgMsg v s).key 0 (rd (DG_CFG.KEY_LEN v) s)) (dgMsg v s).bytes else digestAlg (rd (DG_CFG.ALG v) s) (dgMsg v s).bytes) w) ∧
        (domOpen 21 s = true → domOn 20 s = true → rd (pendF (srcFast 88 s) 88) t = 1) ∧ s.keptEv (dgShown v) t ∧
        t = { s with regs := t.regs, pw := t.pw, dg := { s.dg with msgs := t.dg.msgs } }) ∧
    (s.regsWf = true → dgOwns v s = true → v.val ≠ 2 → s.dg.suspended = none → s.dg.lastWrite + ms 10 ≤ s.now →
      ∃ t, exec .dgExpire s = .next t ∧ rd (DG_STATUS.EXPIRED v) t = 1 ∧ dgOwner t = 0 ∧ dgMsg v t = DgMsg.init ∧
        s.kept (DG_STATUS.EXPIRED v :: dgOwnFields ++ dgShown v ++ dgConfig v) t ∧
        t = { s with regs := t.regs, mp := { s.mp with own := s.mp.own.filter (fun o => decide (o.dest ≠ .chunk v)) }, sb := { s.sb with hbVoid := t.sb.hbVoid }, dg := { s.dg with msgs := t.dg.msgs, grantAt := none } }) ∧
    (s.dgReach user 0xC4 → dgOwns v s = true →
      ∃ t, exec (.dgCntClr user) s = .next t ∧ (∀ w, w < 3 → rd (DG_REFUSED.CLAIMS w) t = 0 ∧ rd (DG_REFUSED.WRITES w) t = 0 ∧ rd (DG_REFUSED.SUSPENDS w) t = 0) ∧
        s.kept ((List.range 3).flatMap (fun w => [DG_REFUSED.CLAIMS w, DG_REFUSED.WRITES w, DG_REFUSED.SUSPENDS w])) t ∧ t = { s with regs := t.regs, out := s.dgAnswer user })

/-- A direct program operation of the fuses is refused with its cause or starts, and ends after its read-back (R445, R455, R456, R461). -/
def Obligations.DirectFuseOperationsRunAndEnd : Prop :=
  ∀ (s : State) (lock : Bool) (i : Instr), i = (if lock then .otpProgLock else .otpProgWord) →
    (∀ c, s.served 0xA00028 false → otpRefusal lock s = some c →
      ∃ t, exec i s = .next t ∧ rd OTP_PROG_STATUS.REFUSED t = 1 ∧ rd OTP_PROG_STATUS.CAUSE t = c ∧ s.kept [OTP_PROG_STATUS.REFUSED, OTP_PROG_STATUS.CAUSE] t ∧
        t = { s with regs := t.regs, out := .resp true 0 0 :: s.out }) ∧
    (s.served 0xA00028 false → rd SB_STATUS.LIFECYCLE s ≠ 1 → otpRefusal lock s = some 1) ∧
    (s.served 0xA00028 false → rd SB_STATUS.LIFECYCLE s = 1 → s.otp.op = none →
      (lock = true → 1 ≤ rd OTP_PROG_ADDR.REGION s → rd OTP_PROG_ADDR.REGION s ≤ 13 →
        ∃ t, exec i s = .next t ∧ rd OTP_PROG_STATUS.BUSY t = 1 ∧ rd OTP_STATUS.PROG_BUSY t = 1 ∧ s.kept [OTP_PROG_STATUS.BUSY, OTP_STATUS.PROG_BUSY] t ∧
          ∃ o, t.otp = { s.otp with op := some o } ∧ o.lock = true ∧ o.region = rd OTP_PROG_ADDR.REGION s) ∧
      (∀ r, lock = false → otpRegion (rd OTP_PROG_ADDR.WORD s) = some r → 1 ≤ r → otpBlank (rd OTP_PROG_ADDR.WORD s) s = true → otpLocked r s = false →
        ∃ t, exec i s = .next t ∧ rd OTP_PROG_STATUS.BUSY t = 1 ∧ rd OTP_STATUS.PROG_BUSY t = 1 ∧ s.kept [OTP_PROG_STATUS.BUSY, OTP_STATUS.PROG_BUSY] t ∧
          ∃ o, t.otp = { s.otp with op := some o } ∧ o.lock = false ∧ o.word = rd OTP_PROG_ADDR.WORD s ∧
            o.value = (if rd OTP_PROG_DATA.DATA s = 0 then 0 else otpCoded (rd OTP_PROG_DATA.DATA s)))) ∧
    (∀ o ok, s.regsWf = true → s.otpWf = true → s.otp.op = some o →
      ∃ t, exec (.otpProgDone ok) s = .next t ∧ rd OTP_PROG_STATUS.DONE t = 1 ∧ rd OTP_PROG_STATUS.BUSY t = 0 ∧ rd OTP_STATUS.PROG_BUSY t = 0 ∧ t.otp.op = none ∧ s.fusesLe t ∧
        (ok = false → rd OTP_PROG_STATUS.VERIFY_FAIL t = 1) ∧ (o.lock = true → otpLockOk o.region s = false → rd OTP_PROG_STATUS.UNVERIFIED t = 1) ∧
        (ok = true → o.lock = false → t.fuses o.word = (s.fuses o.word ||| o.value) ∧ ∀ w, w ≠ o.word → t.fuses w = s.fuses w) ∧
        (ok = true → o.lock = true → ∀ w, t.fuses w = if 3 ≤ w ∧ w ≤ 5 then s.fuses w ||| 2 ^ o.region else s.fuses w) ∧
        s.kept [OTP_PROG_STATUS.DONE, OTP_PROG_STATUS.BUSY, OTP_STATUS.PROG_BUSY, OTP_PROG_STATUS.VERIFY_FAIL, OTP_PROG_STATUS.UNVERIFIED] t)

/-- The service port's requests: authentication, session, staging and discard, and its frames and responses (R466 to R472). -/
def Obligations.ServicePortRequestsAreServed : Prop :=
  ∀ (s : State) (f : List Byte), s.regsWf = true →
    (∀ i ops, svcRow i = some (ops, f) →
      (svcServes s = false ∨ svcBusy s = true ∨ ops (svcOp f) = false ∨ svcLenOk f s = false ∨ svcCrcOk f = false → exec i s = .next s) ∧
      (svcServes s = true → svcBusy s = false → ops (svcOp f) = true → svcLenOk f s = true → svcCrcOk f = true → svcAuthOk f s = false →
        ∃ t, exec i s = .next t ∧ t.svcAnswers f stAUTH_FAIL (svcTagged f s) [] ∧ rd SB_SVC_CNT.AUTH t = sat SB_SVC_CNT.AUTH (rd SB_SVC_CNT.AUTH s + 1) ∧
          t.sb = { s.sb with svc := { s.sb.svc with resp := t.sb.svc.resp, lastAt := s.now } } ∧ s.kept [SB_SVC_CNT.AUTH] t ∧ t.flash = s.flash)) ∧
    (s.svcRequest 1 f → svcLen f = 0 →
      ∃ t p, exec (.svcHello f) s = .next t ∧ t.svcAnswers f stOK false p ∧ p.length = 96 ∧ t.sb.svc.isOpen = true ∧ t.sb.svc.nonce.length = 16 ∧ slice p 64 16 = t.sb.svc.nonce ∧
        t.sb.svc.key = serviceKey s ∧ t.sb.svc.lastSeq = svcSeq f ∧ rd SB_UPD_STATUS.SESSION t = 0 ∧ rd SB_UPD_STATUS.AUTH t = b2n (!(serviceKey s).isEmpty) ∧
        s.kept [SB_UPD_STATUS.SESSION, SB_UPD_STATUS.UNIT, SB_UPD_STATUS.BLOCKS, SB_UPD_STATUS.AUTH] t ∧ t.flash = s.flash) ∧
    (∀ e, s.svcRequest 2 f → beginCheck (svcBody f) s = some e →
      ∃ t, exec (.svcBegin f) s = .next t ∧ t.svcAnswers f e (svcTagged f s) [] ∧ t.regs = s.regs ∧ t.flash = s.flash ∧ t.sb.dir = s.sb.dir) ∧
    (s.svcRequest 2 f → beginCheck (svcBody f) s = none →
      ∃ t, exec (.svcBegin f) s = .next t ∧ t.svcAnswers f stOK (svcTagged f s) [] ∧ rd SB_UPD_STATUS.SESSION t = 1 ∧ rd SB_UPD_STATUS.UNIT t = bits (wordN (svcBody f) 1) 0 8 ∧
        rd SB_UPD_STATUS.BLOCKS t = 0 ∧ t.sb.svc.manifest = svcBody f ∧ t.sb.svc.written = [] ∧ (dirInactive (bits (wordN (svcBody f) 1) 0 8) s ≠ 2 → t.flash = s.flash)) ∧
    (s.svcRequest 3 f → guardRefuses s = true →
      ∃ t, exec (.svcData f) s = .next t ∧ t.svcAnswers f stREFUSED_STATE (svcTagged f s) [] ∧ t.regs = s.regs ∧ t.flash = s.flash) ∧
    (∀ u, s.svcRequest 3 f → guardRefuses s = false → staging s = true → u = stagingUnit s → svcArg f < wordN s.sb.svc.manifest 5 → svcLen f = 4096 →
      ((u < 2 → sha384 (svcBody f) = slice s.sb.svc.manifest (128 + 48 * svcArg f) 48) → (svcArg f = 0 → slice (svcBody f) 0 128 = slice s.sb.svc.manifest 0 128) →
        ∃ t, exec (.svcData f) s = .next t ∧ t.svcAnswers f stOK (svcTagged f s) [] ∧
          t.flash = SMap.setList flashErased s.flash (dirBase u (1 - dirActive u s) s + 4096 * svcArg f) (svcBody f) ∧ svcArg f ∈ t.sb.svc.written ∧
          (∀ b ∈ s.sb.svc.written, b ∈ t.sb.svc.written) ∧ rd SB_UPD_STATUS.BLOCKS t = t.sb.svc.written.length % 2 ^ SB_UPD_STATUS.BLOCKS.width ∧
          s.kept [SB_UPD_STATUS.BLOCKS] t) ∧
      (u < 2 → sha384 (svcBody f) ≠ slice s.sb.svc.manifest (128 + 48 * svcArg f) 48 →
        ∃ t, exec (.svcData f) s = .next t ∧ t.svcAnswers f stDIGEST_MISMATCH (svcTagged f s) [] ∧ t.regs = s.regs ∧ t.flash = s.flash)) ∧
    (∀ u, s.svcRequest 4 f → svcLen f = 0 → guardRefuses s = false → staging s = true → u = stagingUnit s →
      (s.sb.svc.written.length ≠ wordN s.sb.svc.manifest 5 →
        ∃ t, exec (.svcEnd f) s = .next t ∧ t.svcAnswers f stBAD_LENGTH (svcTagged f s) [] ∧ rd SB_UPD_STATUS.SESSION t = 0 ∧ t.flash = s.flash ∧ t.sb.dir = s.sb.dir) ∧
      (s.sb.svc.written.length = wordN s.sb.svc.manifest 5 → u < 6 → s.sb.dir.length = 40 →
        (u < 2 → imgHeaderOk u (dirBase u (1 - dirActive u s) s) s = true ∧ imgSigned u (dirBase u (1 - dirActive u s) s) s = true) →
        ∃ t, exec (.svcEnd f) s = .next t ∧ t.svcAnswers f stOK (svcTagged f s) [] ∧ rd SB_UPD_STATUS.SESSION t = 0 ∧ dirInactive u t = 1 ∧ dirActive u t = dirActive u s ∧
          dirVer u (1 - dirActive u s) t = wordN s.sb.svc.manifest 4)) ∧
    (s.svcRequest 5 f → svcLen f = 0 →
      ∃ t, exec (.svcStatus f) s = .next t ∧ t.svcAnswers f stOK (svcTagged f s) ((List.range 6).flatMap (fun u => wordsBytes (updRecord u s))) ∧ t.regs = s.regs ∧ t.flash = s.flash) ∧
    (s.svcRequest 6 f → svcLen f = 0 → svcArg f < 6 →
      (dirInactive (svcArg f) s = 1 → s.sb.dir.length = 40 →
        ∃ t, exec (.svcDiscard f) s = .next t ∧ t.svcAnswers f stOK (svcTagged f s) [] ∧ dirInactive (svcArg f) t = 0 ∧ dirActive (svcArg f) t = dirActive (svcArg f) s ∧
          dirVer (svcArg f) (1 - dirActive (svcArg f) s) t = 0) ∧
      (dirInactive (svcArg f) s ≠ 1 → ∃ t, exec (.svcDiscard f) s = .next t ∧ t.svcAnswers f stBAD_STATE (svcTagged f s) [] ∧ t.regs = s.regs ∧ t.flash = s.flash)) ∧
    (∀ e, s.svcRequest 7 f → svcLen f = 0 → activateCheck (svcArg f) s = some e →
      ∃ t, exec (.svcActivate f) s = .next t ∧ t.svcAnswers f e (svcTagged f s) [] ∧ t.regs = s.regs ∧ t.flash = s.flash) ∧
    (s.svcRequest 7 f → svcLen f = 0 → s.sb.dir.length = 40 → activateCheck (svcArg f) s = none →
      (svcArg f ∈ [0, 1, 5] → ∃ t, exec (.svcActivate f) s = .next t ∧ t.svcAnswers f stOK (svcTagged f s) [] ∧ s.switched (svcArg f) t) ∧
      (svcArg f ∈ [2, 3, 4] → ∃ t, exec (.svcActivate f) s = .next t ∧ t.sb.activation = some ⟨svcArg f, true, 0, svcSeq f, s.now⟩ ∧ t.sb.svc.resp = none ∧
        (svcArg f ≠ 4 → t.coachmanHeld) ∧ t.flash = s.flash)) ∧
    (svcLen f ≠ 0 → ∀ x ∈ [(1, Instr.svcHello f), (4, .svcEnd f), (5, .svcStatus f), (6, .svcDiscard f), (7, .svcActivate f)], s.svcRequest x.1 f →
      ∃ t, exec x.2 s = .next t ∧ t.svcAnswers f stBAD_LENGTH (svcTagged f s) [] ∧ t.regs = s.regs ∧ t.flash = s.flash ∧ t.sb.dir = s.sb.dir) ∧
    (∀ op, s.svcRequest op f → (op = 0 ∨ 7 < op) →
      ∃ t, exec (.svcBadOp f) s = .next t ∧ t.svcAnswers f stBAD_OPCODE (svcTagged f s) [] ∧ t.regs = s.regs ∧ t.flash = s.flash) ∧
    (svcServes s = true → s.pins.svcAttnN = true → exec .svcRead s = .next { s with out := .svcZero :: s.out }) ∧
    (∀ b, svcServes s = true → s.sb.svc.resp = some b → s.pins.svcAttnN = false → exec .svcRead s = .next { s with
      out := .svc b :: s.out, pins := { s.pins with svcAttnN := true }, sb := { s.sb with svc := { s.sb.svc with resp := none } } }) ∧
    (∀ b, s.sb.svc.resp = some b → svcServes s = true → exec .svcResponseReady s = .next { s with pins := { s.pins with svcAttnN := false } }) ∧
    (staging s = true → s.sb.svc.lastAt + ms 10000 ≤ s.now →
      ∃ t, exec .svcSessionTimeout s = .next t ∧ rd SB_UPD_STATUS.SESSION t = 0 ∧ s.kept [SB_UPD_STATUS.SESSION, SB_UPD_STATUS.UNIT, SB_UPD_STATUS.BLOCKS] t ∧
        t = { s with regs := t.regs, sb := { s.sb with svc := { s.sb.svc with manifest := [], written := [] } } }) ∧
    (svcServes s = true → svcBusy s = true →
      ∃ t, exec (.svcFrameError f) s = .next t ∧ rd SB_SVC_CNT.DROPPED t = sat SB_SVC_CNT.DROPPED (rd SB_SVC_CNT.DROPPED s + 1) ∧ s.kept [SB_SVC_CNT.DROPPED] t ∧
        t = { s with regs := t.regs }) ∧
    (svcServes s = true → svcBusy s = false → (svcLenOk f s = false ∨ svcCrcOk f = false) →
      ∃ t c, exec (.svcFrameError f) s = .next t ∧ t.svcAnswers f stBAD_LENGTH (svcTagged f s) [] ∧ c = (if svcLenOk f s = true then SB_SVC_CNT.CRC else SB_SVC_CNT.LEN) ∧
        rd c t = sat c (rd c s + 1) ∧ s.kept [c] t ∧ t.flash = s.flash)

/-- Units are activated, verified, confirmed and expire, and the owner lock is set (R472, R474 to R477). -/
def Obligations.UpdatesActivateConfirmAndExpire : Prop :=
  ∀ (s : State) (r : Req) (u : Fin 6), s.sb.dir.length = 40 →
    (s.sbRequest 2 0x88 1 r → romServes s = false →
      (bits (r.w 1) 0 3 = u.val → ∃ t, exec (.updateStatus 2) s = .next t ∧ t.answers 2 0x88 r.seq stOK (updRecord u.val s) ∧ s.keptMsg [] t ∧
        t = { s with regs := t.regs, pw := t.pw, mb := t.mb }) ∧
      (5 < bits (r.w 1) 0 3 → ∃ t, exec (.updateStatus 2) s = .next t ∧ t.answers 2 0x88 r.seq stCONTRACT [] ∧ s.keptMsg [] t)) ∧
    (s.sbRequest 4 0x89 1 r → romServes s = false → bits (r.w 1) 0 3 = u.val →
      (∀ e, activateCheck u.val s = some e → ∃ t, exec (.activate 4) s = .next t ∧ t.answers 4 0x89 r.seq e [] ∧ t.sb = s.sb ∧ t.flash = s.flash ∧ s.keptMsg [] t) ∧
      (activateCheck u.val s = none → u.val ∈ [0, 1, 5] → ∃ t, exec (.activate 4) s = .next t ∧ t.answers 4 0x89 r.seq stOK [] ∧ s.switched u.val t) ∧
      (activateCheck u.val s = none → u.val ∈ [2, 3, 4] →
        ∃ t, exec (.activate 4) s = .next t ∧ t.sb.activation = some ⟨u.val, false, 4, r.seq, s.now⟩ ∧ (chan 4 t).k2h = [] ∧ (u.val ≠ 4 → t.coachmanHeld) ∧ t.flash = s.flash)) ∧
    (∀ a : Activation, s.regsWf = true → s.sb.activation = some a → a.unit = u.val → a.svc = false → a.ch = 4 → k2hFree 4 s = true → (chan 4 s).resps = [] → abortDue 4 s = false →
      u.val ∈ [2, 3, 4] → ∃ t, exec .activateComplete s = .next t ∧ t.sb.activation = none ∧ (u.val ≠ 4 → cmVerified s = true → rd GL_STATUS.CMD_READY t = 1 ∧ cmUp t = true) ∧
        (cmVerified s = false → rd GL_STATUS.CMD_READY t = rd GL_STATUS.CMD_READY s ∧ rd GL_STATUS.CM_RELEASED t = rd GL_STATUS.CM_RELEASED s) ∧
        (if slotOk u.val (1 - dirActive u.val s) s = true then t.answers 4 0x89 a.seq stOK [] ∧ dirActive u.val t = 1 - dirActive u.val s ∧ dirState u.val t = 2 ∧
            dirInactive u.val t = 2 ∧ t.sb.trialAt[u] = some s.now
          else t.answers 4 0x89 a.seq stAUTH_FAIL [] ∧ t.sb.dir = s.sb.dir ∧ t.flash = s.flash)) ∧
    (s.sbRequest 5 0x8A 1 r → romServes s = false → bits (r.w 1) 0 3 = u.val →
      (inTrial u.val s = true → ∃ t, exec (.confirmHealth (.channel 5)) s = .next t ∧ t.answers 5 0x8A r.seq stOK [] ∧ dirState u.val t = 0 ∧
        dirActive u.val t = dirActive u.val s ∧ t.sb.trialAt[u] = none) ∧
      (inTrial u.val s = false → ∃ t, exec (.confirmHealth (.channel 5)) s = .next t ∧ t.answers 5 0x8A r.seq stBAD_STATE [] ∧ t.sb = s.sb ∧ s.keptMsg [] t)) ∧
    (s.regsWf = true → sbUp s = true → sbHealthy s = true → u.val ∈ [0, 1, 5] → inTrial u.val s = true →
      ∃ t, exec (.confirmHealth (.own u)) s = .next t ∧ dirState u.val t = 0 ∧ dirActive u.val t = dirActive u.val s ∧ t.sb.trialAt[u] = none) ∧
    (s.sbRequest 4 0x8B 1 r → romServes s = false →
      (lifecycle s = 3 ∨ lifecycle s = 7 → ∃ t, exec (.updateLock 4) s = .next t ∧ t.answers 4 0x8B r.seq stOK [] ∧ rd SB_UPD_STATUS.LOCK t = bits (r.w 1) 0 1 ∧
        dirW 2 t = bits (r.w 1) 0 1) ∧
      (lifecycle s ≠ 3 → lifecycle s ≠ 7 → ∃ t, exec (.updateLock 4) s = .next t ∧ t.answers 4 0x8B r.seq stREFUSED_STATE [] ∧ t.sb = s.sb ∧ s.keptMsg [] t)) ∧
    (s.regsWf = true → trialRan u 43650 s = true → s.sb.due[u] = false → rd SB_STATUS.STAGE s ≠ 14 → rd SB_STATUS.HALT s = 0 → sbUp s = true →
      k2hFree 2 s = true → (chan 2 s).resps = [] → (chan 2 s).notices = [] → (chan 2 s).lost = false → abortDue 2 s = false →
      ∃ t, exec (.healthDue u) s = .next t ∧ t.sb = { s.sb with due := s.sb.due.set u true } ∧ (chan 2 t).k2h = noticeWords 0x0F 0 [u.val, 15] ∧ s.keptMsg [] t) ∧
    (s.regsWf = true → trialRan u 58200 s = true →
      ∃ t, exec (.healthExpired u) s = .next t ∧ rd (SB_UPD_STATE.EXPIRED u.val) t = 1 ∧ s.kept [SB_UPD_STATE.EXPIRED u.val] t ∧ t = { s with regs := t.regs })

/-- Security-class faults reset the block in one step, or wait for the Strongbox and then for the reset sequencer, and resets that hang ask for a
power cycle (R482, R485, R486, R493, R498, R509). -/
def Obligations.SecurityFaultsResetTheBlock : Prop :=
  ∀ s : State, s.regsWf = true →
    (s.awake → domOn 21 s = true →
      (s.flt.sbWdog = none → ∃ t, exec .sbWdog s = .next t ∧ t.flt = { s.flt with sbWdog := some s.now } ∧ s.keptEv [] t ∧ t = { s with regs := t.regs, pw := t.pw, flt := t.flt }) ∧
      (∀ t0, s.flt.sbWdog = some t0 → t0 + ms 1 ≤ s.now → ∃ t, exec .sbWdog s = .next t ∧ s.secured 0x43 20 t) ∧ (∃ t, exec .sbClock s = .next t ∧ s.secured 0x45 20 t) ∧
      (sbActs s = true → ∃ t, exec .sbEcc s = .next t ∧ s.secured 0x44 21 t) ∧
      (sbActs s = false → ∃ t, exec .sbEcc s = .next t ∧ t.flt = { s.flt with security := some ⟨0x44, 21, s.now⟩ } ∧ s.keptEv [] t ∧
        t = { s with regs := t.regs, pw := t.pw, flt := t.flt })) ∧
    (∀ f : SecFault, s.awake → s.flt.security = some f → f.code < 256 → f.unit < 32 → f.at_ + us 100 ≤ s.now →
      ∃ t, exec .securityResetFallback s = .next t ∧ s.secured f.code f.unit t ∧ t.flt.security = none) ∧
    (∀ r : ResetSt, s.pw.reset = some r → r.start + ms 10 ≤ s.now →
      ∃ t, exec .seqTimeout s = .next t ∧ t.pins.pwrCycN = false ∧ t.pins.hold = false ∧ t = { s with pins := t.pins }) ∧
    (s.flt.lastReset + ms 60000 ≤ s.now →
      ∃ t, exec .fltResetsDecay s = .next t ∧ rd PM_FLT_RESETS.RECENT t = 0 ∧ s.kept [PM_FLT_RESETS.RECENT] t ∧ t = { s with regs := t.regs })

/-- A unit's reset is followed by the scrub of its set, and one that hangs by level PARTITION; a replay releases its rows and ends in a scrub (R262, R486,
R489, R490, R495, R496). -/
def Obligations.ResetsScrubAndReplay : Prop :=
  ∀ (s : State) (u : Fin 17), s.regsWf = true →
    (∀ r : Replay, s.flt.resetAt[u] ≠ none → s.flt.replay = some r → r.coaches ≠ 0 →
      ∃ t, exec (.coachResetDone u) s = .next t ∧ t.flt.resetAt[u] = none ∧ t.flt.replay = some { r with scrubs := r.coaches } ∧
        (∀ c ∈ coachesOf r.coaches, coachState c t = 4 ∧ coachCtxId c t = 0 ∧ (co c t).scrubAt = some s.now ∧ t.pw.fenced.contains c.val = false) ∧
        (∀ c, c ∉ coachesOf r.coaches → co c t = co c s) ∧ (u.val = 16 → rd GG_STATUS.STATE t = 0 ∧ rd (GL_FLT_STATE.RECOVERING 16) t = 0)) ∧
    (∀ h : u.val < 16, s.flt.resetAt[u] ≠ none → s.flt.replay = none →
      ∃ t, exec (.coachResetDone u) s = .next t ∧ t.flt.resetAt[u] = none ∧ coachState ⟨u.val, h⟩ t = 4 ∧ (co ⟨u.val, h⟩ t).scrubAt = some s.now ∧
        (∀ c : Coach, c.val ≠ u.val → co c t = co c s)) ∧
    (∀ (r : Replay) t0, u.val < 16 → s.pw.reset = none → s.flt.resetAt[u] = some t0 → t0 + us 100 ≤ s.now → s.flt.replay = some r → r.unit = u.val → tandemJobs s = [] →
      rdB (GL_FLT_STATE.RECOVERING 20) s = false →
      ∃ t, exec (.coachResetHang u) s = .next t ∧ s.recorded 20 0x20 3 t ∧ t.flt.replay = none ∧ t.flt.resetAt[u] = none ∧ t.flt.partAt[u] = some (s.now, r.coaches) ∧
        (∀ c ∈ coachesOf r.coaches, domOn c.val t = false ∧ co c t = CoachSt.init ∧ t.pw.fenced.contains c.val = true)) ∧
    (∀ t0 all, u.val < 16 → s.flt.partAt[u] = some (t0, all) → s.pw.reset = none →
      ∃ t, exec (.partResetDone u) s = .next t ∧ t.flt.partAt[u] = none ∧
        (∀ c : Coach, bit all c.val = true → s.pw.fenced.contains c.val = true → domOn c.val s = false →
          domOn c.val t = true ∧ coachState c t = 4 ∧ t.pw.fenced.contains c.val = false) ∧
        (∀ n : Ctx, ctxLive n s = true → s.flt.spared.contains (cid n) = false → (∃ c : Coach, bit all c.val = true ∧ s.pw.fenced.contains c.val = true ∧ domOn c.val s = false ∧
          bit (partMask n s) c.val = true) → cxState n t = 5 ∧ (cx n t).tearReason = 1)) ∧
    (∀ r : Replay, s.flt.replay = some r → replayRan s = true → r.coaches ≠ 0 →
      ∃ t, exec .replayEnd s = .next t ∧ t.flt.replay = some { r with cur := none, scrubs := r.coaches } ∧
        (∀ c ∈ coachesOf r.coaches, coachState c t = 4 ∧ (co c t).scrubAt = some s.now)) ∧
    (∀ (r : Replay) (n : Ctx) (obs : RowObs), s.flt.replay = some r → r.cur = some (cid n) → r.row < r.stop → r.dueAt ≤ s.now →
      ∃ t, exec (.replayRowRelease obs) s = .next t ∧
        t.flt = { s.flt with replay := some { r with row := r.row + 1, dueAt := s.now + ceilDiv (256 * (19200000000 / max 1 (wbLrMax (cx n s).image))) 16 } } ∧
        (∀ x ∈ rowsOf n t, x.row = r.row → x.relAt = s.now ∧ x.relArith = arithNow s) ∧ (∀ m, m ≠ n → cx m t = cx m s))

/-- A BLOCK escalation drains, writes its dump and the signed trailer, and ends in the block reset (R499, R501, R505, R506). -/
def Obligations.BlockEscalationDumpsAndResets : Prop :=
  ∀ (s : State) (b : BlockEsc), s.regsWf = true → s.flt.block = some b →
    (b.step = 1 → ((∀ t ∈ s.mp.txs, t.ctx = 0 ∨ t.abandoned = true) ∧ (∀ x ∈ s.mp.inits, x.ctx = 0) ∨ b.start + us 50 ≤ s.now) → s.awake → rd PM_FLT_RESETS.RECENT s < 3 →
      ∃ t, exec .blockDrainDone s = .next t ∧
        rd MP_FENCE.ABANDONED t = sat MP_FENCE.ABANDONED (rd MP_FENCE.ABANDONED s + (s.mp.txs.filter (fun t => t.ctx != 0 && !t.abandoned)).length +
          (s.mp.inits.filter (fun t => t.ctx != 0)).length) ∧
        (∀ q ∈ t.mp.txs, q.ctx = 0 ∨ q.abandoned = true) ∧ (∀ x ∈ t.mp.inits, x.ctx = 0) ∧
        (rd PM_DUMP_SIZE.BYTES s < 0x10000 → s.blockReset b t) ∧
        (0x10000 ≤ rd PM_DUMP_SIZE.BYTES s → rd PM_DUMP_INFO.VALID s = 1 →
          s.blockReset b t ∧ rd PM_DUMP_INFO.SKIPPED t = sat PM_DUMP_INFO.SKIPPED (rd PM_DUMP_INFO.SKIPPED s + 1)) ∧
        (0x10000 ≤ rd PM_DUMP_SIZE.BYTES s → rd PM_DUMP_INFO.VALID s = 0 → t.flt.block = some { b with step := 2 } ∧
          ((∀ q, q < 8 → heldHung q t = false) → t.flt = { s.flt with block := some { b with step := 2 } } ∧ s.kept (MP_FENCE.ABANDONED :: (List.range 8).map MP_P_ORPHAN.HELD) t))) ∧
    (∀ (obs : DumpObs) d tr u, b.step = 2 → dumpBytes b obs.errors s = ((d, tr), u) →
      ∃ t, exec (.dumpDone obs) s = .next t ∧ t.mp = (dumpWrite (dumpBase s) d s).mp ∧ t.out = s.out ∧ s.kept [] t ∧
        t.flt = { s.flt with block := some { b with step := 3, partial_ := obs.errors, truncated := tr, dump := d } }) ∧
    (∀ written d tr u, b.step = 2 → b.start + us 50 + ms 100 ≤ s.now → dumpBytes b true s = ((d, tr), u) →
      ∃ t, exec (.dumpTimeout written) s = .next t ∧ t.mp = (dumpWrite (dumpBase s) (dumpPartial written d) s).mp ∧ t.out = s.out ∧ s.kept [] t ∧
        t.flt = { s.flt with block := some { b with step := 3, partial_ := true, truncated := tr, dump := dumpPartial written d } }) ∧
    (∀ dump tr u, b.step = 3 → s.awake → rd PM_FLT_RESETS.RECENT s < 3 → dumpTrailer (dumpSeq s) b.dump.length dump s = (tr, u) →
      ∃ t, exec (.dumpTrailerDone dump) s = .next t ∧ s.blockReset b t ∧ t.mp = (trailerWrite b tr s).mp ∧ t.out = s.out ∧
        rd PM_DUMP_INFO.VALID t = 1 ∧ rd PM_DUMP_INFO.PARTIAL t = b2n b.partial_ ∧ rd PM_DUMP_INFO.TRUNCATED t = b2n b.truncated ∧
        rd PM_DUMP_INFO.SEQ t = sat PM_DUMP_INFO.SEQ (rd PM_DUMP_INFO.SEQ s + 1) ∧ rd PM_DUMP_LEN.BYTES t = (b.dump.length + 256) % 2 ^ 32 ∧
        t.flt.dumpNew = true ∧ t.flt.dumpCode = b.code)

/-- Power requests, ramps and switch-offs (R513 to R515). -/
def Obligations.DomainsPowerUpAndOff : Prop :=
  ∀ (s : State) (who : Proc) (d : Dom), s.regsWf = true →
    (∀ on c, d.val ≠ 22 → pwrRefusal who d.val on s = some c →
      ∃ t, exec (.pwrReq who d on) s = .next t ∧ rd PM_PWR_REFUSE.COUNT t = sat PM_PWR_REFUSE.COUNT (rd PM_PWR_REFUSE.COUNT s + 1) ∧ rd PM_PWR_REFUSE.LAST_DOMAIN t = d.val ∧
        rd PM_PWR_REFUSE.LAST_CAUSE t = c ∧ (c = 2 → rd SB_REINS.DENIED t = sat SB_REINS.DENIED (rd SB_REINS.DENIED s + 1)) ∧
        s.kept [PM_PWR_REFUSE.COUNT, PM_PWR_REFUSE.LAST_DOMAIN, PM_PWR_REFUSE.LAST_CAUSE, SB_REINS.DENIED] t ∧ t = { s with regs := t.regs }) ∧
    (∀ on, d.val = 22 → exec (.pwrReq who d on) s = .next s) ∧
    (d.val ≠ 22 → pwrRefusal who d.val true s = none →
      ∃ t, exec (.pwrReq who d true) s = .next t ∧ rd (PM_PWR_REQ.REQ d.val) t = 1 ∧ s.kept [PM_PWR_REQ.REQ d.val] t ∧ t = { s with regs := t.regs, pw := t.pw } ∧
        (domOn d.val s = true → t.pw = s.pw) ∧
        (domOn d.val s = false → s.pw.falling.any (·.1 == d.val) = true → t.pw = { s.pw with onAfter := s.pw.onAfter ++ [d.val] }) ∧
        (domOn d.val s = false → s.pw.falling.any (·.1 == d.val) = false → s.pw.ramps.any (·.1 == d.val) = false → s.pw.queue.contains d.val = false →
          t.pw = if s.pw.ramps.length < 4 then { s.pw with ramps := s.pw.ramps ++ [(d.val, s.now)] } else { s.pw with queue := s.pw.queue ++ [d.val] })) ∧
    (d.val ≠ 22 → pwrRefusal who d.val false s = none →
      (s.pw.ramps.any (·.1 == d.val) = true → ∃ t, exec (.pwrReq who d false) s = .next t ∧ rd (PM_PWR_REQ.REQ d.val) t = 0 ∧ s.kept [PM_PWR_REQ.REQ d.val] t ∧
        t = { s with regs := t.regs, pw := { s.pw with offAfter := s.pw.offAfter ++ [d.val] } }) ∧
      (s.pw.ramps.any (·.1 == d.val) = false → domOn d.val s = true → rd PM_SLEEP.STATE s = 0 → ∃ t, exec (.pwrReq who d false) s = .next t ∧
        rd (PM_PWR_REQ.REQ d.val) t = 0 ∧ domOn d.val t = false ∧ t.pw.falling = s.pw.falling ++ [(d.val, s.now)] ∧ (d.val = 20 → t.pw.lantern = true) ∧
        (d.val = 19 → t.pins.hold = false) ∧ s.keptEv [PM_PWR_STATUS.ON d.val] t ∧ t = { s with regs := t.regs, pw := t.pw, pins := t.pins })) ∧
    (s.pw.ramps.any (·.1 == d.val) = true → s.pw.offAfter.contains d.val = false → (domOn 20 s = true ∨ d.val = 20) → domOpen 22 s = true → rd PM_SLEEP.STATE s = 0 →
      ∃ t, exec (.pwrRampDone d) s = .next t ∧ domOn d.val t = true ∧ rd (PM_PWR_REQ.REQ d.val) t = 1 ∧ rd (pendF (srcFast 102 s) 102) t = 1 ∧
        t.pw.ramps = s.pw.ramps.filter (·.1 != d.val) ++ (match s.pw.queue with | [] => [] | q :: _ => [(q, s.now)]) ∧ t.pw.queue = s.pw.queue.tail ∧
        (∀ (h : d.val < 16) (n : Ctx), bit (partMask n s) d.val = true → coachState ⟨d.val, h⟩ t = 4) ∧
        (d.val < 18 ∨ 20 < d.val → (∀ n, bit (partMask n s) d.val = false) →
          s.keptEv ([PM_PWR_STATUS.ON d.val, PM_PWR_REQ.REQ d.val, GG_STATUS.PROF_ON] ++ allCoach.map (fun c => CA_STATUS.PROF_ON c.val)) t) ∧ t.ctx = s.ctx ∧
        t.sb = { s.sb with keyCheck := d.val == 19 || s.sb.keyCheck } ∧ (d.val ≠ 20 → t.mb = s.mb)) ∧
    (s.pw.falling.any (·.1 == d.val) = true → rd PM_SLEEP.STATE s = 0 →
      ∃ t, exec (.pwrOff d) s = .next t ∧ t.pw.falling = s.pw.falling.filter (·.1 != d.val) ∧
        (s.pw.onAfter.contains d.val = true → t.pw.ramps.any (·.1 == d.val) = true ∨ t.pw.queue.contains d.val = true) ∧
        (d.val < 20 ∨ d.val = 23 → ∀ f : Fld, evKey f.key = false → rd f t = if domAddr d.val (f.key / 64) then fieldReset f.key else rd f s) ∧
        (∀ h : d.val < 16, co ⟨d.val, h⟩ t = CoachSt.init) ∧ (d.val = 16 → t.gig = GigSt.init) ∧ (d.val = 17 → t.tt = TtSt.init) ∧ (d.val = 19 → t.tl = TlSt.init) ∧
        (d.val = 18 → t.mp = MpSt.init ∧ ∀ n, (cx n t).key = []) ∧ (d.val = 20 → t.mb = MbSt.init ∧ t.ev.holds = []) ∧
        (d.val = 21 → t.sb = SbSt.init ∧ t.dg = DgSt.init ∧ t.pins.svcAttnN = true))

/-- A block reset loses every domain but PD_AON and boots again; deep sleep is refused or entered step by step, and ended by a wake; PM_RESET needs its key (R519 to R521,
R523). -/
def Obligations.ResetsSleepAndWakes : Prop :=
  ∀ s : State, s.regsWf = true →
    (∀ r : ResetSt, s.pw.reset = some r → rd PM_SLEEP.STATE s = 3 →
      ∃ t, exec .blockResetDomainsOff s = .next t ∧ t.dark ∧ t.pw.reset = none ∧ t.pw.bootStep = 2 ∧ rd PM_SLEEP.STATE t = 3 ∧ rd (PM_PWR_REQ.REQ 21) t = 1 ∧
        t.pw.ramps = [(21, s.now)] ∧ t.sb = SbSt.init ∧ t.mb = MbSt.init ∧ t.dg = DgSt.init ∧ t.ctx = Vector.replicate 8 CtxSt.init ∧ (∀ n, cxState n t = 0) ∧
        (∀ f : Fld, f.key / 64 / 0x100000 = 11 → evKey f.key = false → (∀ d, d < 24 → f.key ≠ (PM_PWR_STATUS.ON d).key) →
          ¬(f.key / 64 = 0xB00020 ∨ f.key / 64 = 0xB00030) → rd f t = rd f s) ∧ t.flash = s.flash ∧ (s.otpWf = true → s.fusesLe t)) ∧
    (s.served 0xB00010 false →
      (rd PM_SLEEP.STATE s ≠ 0 → exec .pmSleepDeep s = .next { s with out := .resp true 0 0 :: s.out }) ∧
      (∀ c, rd PM_SLEEP.STATE s = 0 → sleepRefusal s = some c → ∃ t, exec .pmSleepDeep s = .next t ∧ rd PM_SLEEP.REFUSED t = 1 ∧ rd PM_SLEEP.CAUSE t = c ∧
        s.kept [PM_SLEEP.REFUSED, PM_SLEEP.CAUSE] t ∧ t = { s with regs := t.regs, out := .resp true 0 0 :: s.out }) ∧
      (rd PM_SLEEP.STATE s = 0 → sleepRefusal s = none → ∃ t, exec .pmSleepDeep s = .next t ∧ rd PM_SLEEP.STATE t = 1 ∧ s.kept [PM_SLEEP.STATE] t ∧
        t = { s with regs := t.regs, out := .resp true 0 0 :: s.out, pw := { s.pw with sleepStep := 2, sleepAt := s.now } })) ∧
    (s.pw.sleepStep = 2 → ∃ t, exec .sleepEntryStep s = .next t ∧ t.pw.sleepStep = 3 ∧ rd TL_CFG.JOINED t = 0 ∧ rd (SB_REINS.HOLDERS 2) t = 2 ∧ t.pins.hold = false ∧
      s.kept [TL_CFG.JOINED, SB_REINS.HOLDERS 2] t) ∧
    (s.pw.sleepStep = 3 → rd PM_SLEEP.STATE s = 1 → ∃ t, exec .sleepEntryStep s = .next t ∧ t.pw.sleepStep = 4 ∧ (∀ d, d < 17 ∨ d = 18 ∨ d = 19 ∨ d = 23 → domOn d t = false)) ∧
    (s.pw.sleepStep = 4 → rd PM_SLEEP.STATE s = 1 → ∃ t, exec .sleepEntryStep s = .next t ∧ t.pw.sleepStep = 5 ∧ domOn 17 t = false ∧ domOn 20 t = false ∧ t.pw.lantern = true) ∧
    (s.pw.sleepStep = 5 → rd PM_SLEEP.STATE s = 1 → s.pw.wakeDue = none →
      ∃ t, exec .sleepEntryStep s = .next t ∧ rd PM_SLEEP.STATE t = 2 ∧ t.dark ∧ t.pw.bootStep = 0 ∧ t.pw.sleepStep = 0) ∧
    (∀ c, s.pw.sleepStep = 5 → rd PM_SLEEP.STATE s = 1 → s.pw.wakeDue = some c → rd PM_THERM_STATUS.TRIP s = 0 →
      ∃ t, exec .sleepEntryStep s = .next t ∧ rd PM_SLEEP.STATE t = 3 ∧ t.dark ∧ t.pw.bootStep = 2) ∧
    (s.served 0xB00014 false → rd PM_THERM_STATUS.TRIP s = 0 →
      (rd PM_SLEEP.STATE s = 0 → domOpen 22 s = true → domOn 20 s = true → ∃ t, exec .pmWake s = .next t ∧ rd (pendF (srcFast 100 s) 100) t = 1 ∧ s.keptEv [] t ∧
        t = { s with regs := t.regs, pw := t.pw, out := .resp true 0 0 :: s.out }) ∧
      (rd PM_SLEEP.STATE s = 1 → s.pw.wakeDue = none → ∃ t, exec .pmWake s = .next t ∧ t.pw.wakeDue = some 7 ∧ rd PM_SLEEP.STATE t = 1) ∧
      (rd PM_SLEEP.STATE s = 2 → ∃ t, exec .pmWake s = .next t ∧ rd PM_SLEEP.STATE t = 3 ∧ t.pw.bootStep = 2 ∧ rd (PM_PWR_REQ.REQ 21) t = 1 ∧
        (s.pw.merged = false → rd PM_RST_CAUSE.CAUSE t = 7))) ∧
    (∀ key : Word, s.served 0xB00018 false →
      (key.toNat ≠ 0xB10C ∨ rd PM_THERM_STATUS.TRIP s = 1 → exec (.pmReset key) s = .next { s with out := .resp true 0 0 :: s.out }) ∧
      (key.toNat = 0xB10C → s.awake → ∃ t, exec (.pmReset key) s = .next t ∧ t.pw.reset = some ⟨1, s.now, false⟩ ∧ rd PM_RST_CAUSE.CAUSE t = 1 ∧ rd PM_SLEEP.STATE t = 3 ∧ t.dark ∧
        t.pins.hold = false) ∧
      (key.toNat = 0xB10C → rd PM_THERM_STATUS.TRIP s = 0 → rd PM_SLEEP.STATE s = 2 → ∃ t, exec (.pmReset key) s = .next t ∧ rd PM_SLEEP.STATE t = 3 ∧ t.pw.bootStep = 2 ∧
        (s.pw.merged = false → rd PM_RST_CAUSE.CAUSE t = 1)))

/-- The clock monitors, the thermal trip, the limits of the thresholds, and SUPPLY_LOW (R517, R527, R532, R537). -/
def Obligations.ClocksAndTemperatureAreWatched : Prop :=
  ∀ s : State, s.regsWf = true →
    (∀ arith fab, domOn 21 s = true → ∃ t, exec (.clockMonitorWindow arith fab) s = .next t ∧
      s.kept [PM_CLK_STATUS.ARITH_OK, PM_CLK_STATUS.ARITH_LOST, PM_CLK_STATUS.FAB_OK, PM_CLK_STATUS.FAB_LOST] t ∧ t = { s with regs := t.regs, pw := t.pw } ∧
      (17100 ≤ arith → arith ≤ 18900 → t.pw.arithGood = s.pw.arithGood + 1 ∧ t.pw.arithBad = 0 ∧ (10 ≤ s.pw.arithGood + 1 → rd PM_CLK_STATUS.ARITH_OK t = 1) ∧
        (rd PM_CLK_STATUS.ARITH_OK s = 1 → rd PM_CLK_STATUS.ARITH_OK t = 1)) ∧
      (arith < 17100 ∨ 18900 < arith → t.pw.arithBad = s.pw.arithBad + 1 ∧ t.pw.arithGood = 0 ∧
        (10 ≤ s.pw.arithBad + 1 → rd PM_CLK_STATUS.ARITH_OK t = 0 ∧ (rd PM_CLK_STATUS.ARITH_OK s = 1 → rd PM_CLK_STATUS.ARITH_LOST t = 1))) ∧
      (11400 ≤ fab → fab ≤ 12600 → t.pw.fabGood = s.pw.fabGood + 1 ∧ t.pw.fabBad = 0 ∧ (10 ≤ s.pw.fabGood + 1 → rd PM_CLK_STATUS.FAB_OK t = 1)) ∧
      (fab < 11400 ∨ 12600 < fab → t.pw.fabBad = s.pw.fabBad + 1 ∧ t.pw.fabGood = 0 ∧
        (10 ≤ s.pw.fabBad + 1 → rd PM_CLK_STATUS.FAB_OK t = 0 ∧ (rd PM_CLK_STATUS.FAB_OK s = 1 → rd PM_CLK_STATUS.FAB_LOST t = 1)))) ∧
    (rd PM_THERM_STATUS.TRIP s = 0 → ∃ t, exec .thermalTrip s = .next t ∧ rd PM_THERM_STATUS.TRIP t = 1 ∧ rd PM_THERM_STATUS.TRIPPED t = 1 ∧ rd PM_RST_CAUSE.CAUSE t = 8 ∧
      rd PM_SLEEP.STATE t = 2 ∧ t.dark ∧ t.pins.alarmN = false ∧ t.pins.hold = false ∧ t.pw.reset = none ∧ t.pw.tripAt = s.now ∧
      (s.flt.block.isSome = true ∨ s.flt.security.isSome = true ∨ s.pw.reset.isSome = true → t.pw.merged = true) ∧
      (∀ f, s.flt.security = some f → rd PM_FLT_LAST.NEW t = 1 ∧ rd PM_FLT_LAST.SECURITY t = 1 ∧ rd PM_FLT_LAST.CODE t = f.code % 256 ∧ rd PM_FLT_LAST.LEVEL t = 8 ∧
        rd PM_FLT_LAST.UNIT t = f.unit % 32) ∧
      (∀ b, s.flt.block = some b → s.flt.security = none → rd PM_FLT_LAST.NEW t = 1 ∧ rd PM_FLT_LAST.SECURITY t = 0 ∧ rd PM_FLT_LAST.CODE t = b.code % 256 ∧
        rd PM_FLT_LAST.CTX t = b.ctx % 16 ∧ rd PM_FLT_LAST.UNIT t = b.unit % 32)) ∧
    (rd PM_THERM_STATUS.TRIP s = 1 → s.pw.tripAt + ms 1000 ≤ s.now → ∃ t, exec .thermalTripClear s = .next t ∧ rd PM_THERM_STATUS.TRIP t = 0 ∧
      s.kept [PM_THERM_STATUS.TRIP] t ∧ t = { s with regs := t.regs }) ∧
    (∀ data : Word, s.served 0xB00034 false → ∃ t, exec (.pmThermCfgWrite data) s = .next t ∧ rd PM_THERM_CFG.THROTTLE t = clampNat 700 1150 (bits data.toNat 0 12) ∧
      rd PM_THERM_CFG.CRIT t = max (clampNat 800 1200 (bits data.toNat 16 12)) (clampNat 700 1150 (bits data.toNat 0 12) + 50) ∧
      s.kept [PM_THERM_CFG.THROTTLE, PM_THERM_CFG.CRIT] t ∧ t = { s with regs := t.regs, out := .resp true 0 0 :: s.out }) ∧
    (∀ l, domOpen 22 s = true → domOn 20 s = true → ∃ t, exec (.supplyLowEdge l) s = .next t ∧ t.pins = { s.pins with supplyLow := l } ∧ rd (rawF 98) t = b2n l ∧
      (l = true → rd (rawF 98) s = 0 → rd (pendF (srcFast 98 s) 98) t = 1) ∧ s.keptEv [] t ∧ t = { s with regs := t.regs, pw := t.pw, pins := t.pins })

/-- The thermal level rises in the sample that reaches a higher threshold, and falls by one level after 10 ms below its threshold less 5 °C, timed afresh
from each change (R524, R525). -/
def Obligations.ThermalLevelFollowsItsThresholds : Prop :=
  ∀ (s : State) (l : Nat), s.regsWf = true → rd PM_THERM_STATUS.LEVEL s = l → l ≤ 2 →
    (∀ temps x i, domOn 21 s = true → hottest temps s = some (x, i) → i < 19 →
      ∃ t, exec (.thermalSample temps) s = .next t ∧ rd PM_THERM_STATUS.TEMP t = unsigned 12 x ∧ rd PM_THERM_STATUS.HOT_SENSOR t = i ∧
        (levelAt 2 s ≤ x → l < 2 → rd PM_THERM_STATUS.LEVEL t = 2 ∧ t.pw.belowSince = none) ∧
        (levelAt 1 s ≤ x → x < levelAt 2 s → l = 0 → rd PM_THERM_STATUS.LEVEL t = 1 ∧ t.pw.belowSince = none) ∧
        (x < levelAt 2 s ∨ l = 2 → x < levelAt 1 s ∨ l ≠ 0 → rd PM_THERM_STATUS.LEVEL t = l ∧
          t.pw.belowSince = if l ≠ 0 ∧ x < levelAt l s - 50 then some (s.pw.belowSince.getD s.now) else none) ∧
        s.keptMsg [PM_THERM_STATUS.TEMP, PM_THERM_STATUS.HOT_SENSOR, PM_THERM_STATUS.LEVEL] t) ∧
    (∀ t0, s.pw.belowSince = some t0 → l ≠ 0 → t0 + ms 10 ≤ s.now →
      ∃ t, exec .thermalLevelFall s = .next t ∧ rd PM_THERM_STATUS.LEVEL t = l - 1 ∧ t.pw.belowSince = none ∧ t.pw.gateAt = s.now ∧ s.keptMsg [PM_THERM_STATUS.LEVEL] t) ∧
    (∀ t0, s.pw.belowSince = some t0 → s.now < t0 + ms 10 → exec .thermalLevelFall s = .next s) ∧
    (s.pw.belowSince = none ∨ l = 0 → exec .thermalLevelFall s = .next s)

/-- The trace's control register, its pins' gate, and the test access port (R549 to R551). -/
def Obligations.TraceAndTestAccessFollowTheirRules : Prop :=
  ∀ s : State, s.regsWf = true →
    (∀ (data : Word) sec, s.served 0xC00000 sec →
      (rd (SB_REINS.HOLDERS 5) s = 0 → ∃ t, exec (.dbgCtrlWrite data sec) s = .next t ∧ rd DBG_CTRL.DIV t = bits data.toNat 1 3 ∧ rd DBG_CTRL.GROUP t = bits data.toNat 8 6 ∧
        rd DBG_CTRL.EN t = b2n (bit data.toNat 0 && traceLife s && !confidential s) ∧
        (bit data.toNat 0 = true → traceLife s = false → rd DBG_STATUS.REFUSED t = 1 ∧ rd DBG_STATUS.CAUSE t = 1) ∧
        (bit data.toNat 0 = true → traceLife s = true → confidential s = true → rd DBG_STATUS.REFUSED t = 1 ∧ rd DBG_STATUS.CAUSE t = 2) ∧
        s.kept [DBG_CTRL.EN, DBG_CTRL.DIV, DBG_CTRL.GROUP, DBG_STATUS.REFUSED, DBG_STATUS.CAUSE] t ∧ t = { s with regs := t.regs, out := .resp true 0 0 :: s.out, tap := t.tap }) ∧
      (rd (SB_REINS.HOLDERS 5) s ≠ 0 → ∃ t, exec (.dbgCtrlWrite data sec) s = .next t ∧ rd DBG_STATUS.REFUSED t = 1 ∧ rd DBG_STATUS.CAUSE t = 3 ∧
        (bit data.toNat 0 = true → rd DBG_CTRL.EN t = 0) ∧ s.kept [DBG_CTRL.EN, DBG_STATUS.REFUSED, DBG_STATUS.CAUSE] t)) ∧
    exec .tmuxEnFall s = .next { s with pins := { s.pins with tmuxEn := false } } ∧ exec .tmuxEnRise s = .next { s with pins := { s.pins with tmuxEn := true } } ∧
    (∀ code : BitVec 8, tapOn s = true → s.tap.code ≠ 0x10 →
      (code.toNat ≠ 0x10 → code.toNat ≠ 0x20 → code.toNat ≠ 0x21 → exec (.tapBypass code) s = .next { s with tap := { s.tap with code := code.toNat } }) ∧
      exec .tapScanSel s = .next { s with tap := { s.tap with code := 0x10 } } ∧ exec .tapMbistResult s = .next { s with tap := { s.tap with code := 0x21 } } ∧
      exec .tapTestLogicReset s = .next { s with tap := { s.tap with code := 0xFF } } ∧
      (∃ t, exec .tapMbistRun s = .next t ∧ t.tap = { s.tap with code := 0x20, running := true, result := 0 } ∧ t.regs = s.regs ∧ t.gig.sram = [] ∧ t.sb = SbSt.init ∧
        (∀ c, (co c t).sram = Vector.replicate 5 []) ∧ t.otp = s.otp ∧ t.flash = s.flash)) ∧
    (tapOn s = true → s.tap.code = 0x10 → s.awake →
      (∃ t, exec .tapTestLogicReset s = .next t ∧ t.pw.reset = some ⟨1, s.now, false⟩ ∧ t.dark) ∧ (∃ t, exec .tapMbistResult s = .next t ∧ t.pw.reset = some ⟨1, s.now, false⟩ ∧ t.dark) ∧
      exec .tapScanSel s = .next s) ∧
    (∀ code : BitVec 8, tapOn s = false → exec (.tapBypass code) s = .next s ∧ exec .tapScanSel s = .next s ∧ exec .tapMbistRun s = .next s ∧ exec .tapMbistResult s = .next s ∧
      exec .tapTestLogicReset s = .next s) ∧
    (∀ fails : BitVec 31, s.tap.running = true → ∃ t, exec (.mbistDone fails) s = .next t ∧ t.tap.running = false ∧ bit t.tap.result 31 = true ∧
      (∀ j, j < 20 → bit t.tap.result j = !bit fails.toNat j) ∧ (∀ j, 20 ≤ j → j < 31 → bit t.tap.result j = false) ∧ t = { s with tap := t.tap })
end

