-- ==== Sys2Proof/Laws/Link.lean ====
section
/-! SUPPORT. Laws of the Tandem link's frames: sealing keeps the payload's length, and whoever holds the key reads the payload back
(R275, R280). -/

namespace Sys2Proof.Laws

open Sys2Proof.Machine

theorem xorBytes_length (a b : List Byte) : (xorBytes a b).length = min a.length b.length := by simp [xorBytes]

/-- XOR twice with bytes that are at least as long. -/
theorem xorBytes_cancel : ∀ a b : List Byte, a.length ≤ b.length → xorBytes (xorBytes a b) b = a
  | [], _, _ => by simp [xorBytes]
  | x :: a, [], h => by simp at h
  | x :: a, y :: b, h => by
    have := xorBytes_cancel a b (by simpa using h)
    simp only [xorBytes, List.zipWith_cons_cons] at this ⊢
    rw [this, BitVec.xor_assoc, BitVec.xor_self, BitVec.xor_zero]

theorem aesExpand_words : ∀ (n i : Nat) (rc : Byte) (ws : List (List Byte)), 8 ≤ ws.length → (∀ w ∈ ws, w.length = 4) →
    (aesExpand n i rc ws).length = ws.length + n ∧ ∀ w ∈ aesExpand n i rc ws, w.length = 4
  | 0, _, _, ws, _, h => ⟨rfl, h⟩
  | n + 1, i, rc, ws, hl, h => by
    have hp : (ws.headD []).length = 4 := by
      cases ws with
      | nil => simp at hl
      | cons w r => exact h w (by simp)
    have hb : (ws.getD 7 []).length = 4 := by
      rw [List.getD_eq_getElem?_getD, List.getElem?_eq_getElem (by omega)]
      exact h _ (List.getElem_mem _)
    simp only [aesExpand]
    generalize ws.headD [] = wh at hp ⊢
    generalize ws.getD 7 [] = w7 at hb ⊢
    have := aesExpand_words n (i + 1) (if i % 8 = 0 then xtime rc else rc)
      (xorBytes w7 (if i % 8 = 0 then xorBytes ((wh.drop 1 ++ wh.take 1).map aesSub) [rc, 0, 0, 0]
        else if i % 8 = 4 then wh.map aesSub else wh) :: ws) (by simp <;> omega) (by
        intro w hw
        rcases List.mem_cons.1 hw with rfl | hw
        · rw [xorBytes_length, hb]
          split
          · simp [xorBytes_length, hp]
          · split <;> simp [hp]
        · exact h w hw)
    refine ⟨?_, this.2⟩
    rw [this.1]; simp <;> omega

theorem aesKeys_words (key : List Byte) : (aesKeys key).length = 60 ∧ ∀ w ∈ aesKeys key, w.length = 4 := by
  have := aesExpand_words 52 8 1 ((List.range 8).map (fun i => slice key (4 * i) 4)).reverse (by simp) (by
    intro w hw
    simp only [List.mem_reverse, List.mem_map, List.mem_range] at hw
    obtain ⟨i, _, rfl⟩ := hw
    simp [slice] <;> omega)
  refine ⟨?_, fun w hw => this.2 w (by simpa [aesKeys] using hw)⟩
  simp only [aesKeys, List.length_reverse, this.1]; simp

theorem aesRk_length (key : List Byte) (r : Nat) (h : r ≤ 14) : (aesRk (aesKeys key) r).length = 16 := by
  obtain ⟨hl, hw⟩ := aesKeys_words key
  have g : ∀ i, i < 4 → ((aesKeys key).getD (4 * r + i) []).length = 4 := fun i hi => by
    rw [List.getD_eq_getElem?_getD, List.getElem?_eq_getElem (by omega)]
    exact hw _ (List.getElem_mem _)
  have e : List.range 4 = [0, 1, 2, 3] := rfl
  simp only [aesRk, e, List.flatMap_cons, List.flatMap_nil, List.length_append, g 0 (by omega), g 1 (by omega), g 2 (by omega), g 3 (by omega)]
  rfl

theorem aesRounds_length (key : List Byte) : ∀ n r s, r + n ≤ 14 → (aesRounds (aesKeys key) n r s).length = 16
  | 0, r, s, h => by simp [aesRounds, xorBytes_length, aesShift, aesRk_length key r h]
  | n + 1, r, s, h => by rw [aesRounds]; exact aesRounds_length key n (r + 1) _ (by omega)

/-- A block's encryption is a block. -/
theorem aesEnc_length (key blk : List Byte) : (aesEnc key blk).length = 16 := aesRounds_length key 13 1 _ (by omega)

theorem gcmCtr_length (key iv : List Byte) : ∀ f c m, m.length < f → (gcmCtr key iv f c m).length = m.length
  | 0, _, _, h => by omega
  | f + 1, c, m, h => by
    rw [gcmCtr]
    split
    · rename_i e; simp_all
    · rename_i e
      have : m.length ≠ 0 := by simpa using e
      rw [List.length_append, xorBytes_length, gcmCtr_length key iv f (c + 1) (m.drop 16) (by simp <;> omega), aesEnc_length]
      simp <;> omega

theorem gcmCtr_gcmCtr (key iv : List Byte) : ∀ f c m, m.length < f → gcmCtr key iv f c (gcmCtr key iv f c m) = m
  | 0, _, _, h => by omega
  | f + 1, c, m, h => by
    by_cases e : m = []
    · subst e; simp [gcmCtr]
    · have hn : m.length ≠ 0 := by simpa using e
      have hd : (m.drop 16).length < f := by simp <;> omega
      have hx : (xorBytes (m.take 16) (aesEnc key (iv ++ beBytes 4 c))).length = min 16 m.length := by
        rw [xorBytes_length, aesEnc_length]; simp
      have step : gcmCtr key iv (f + 1) c m = xorBytes (m.take 16) (aesEnc key (iv ++ beBytes 4 c)) ++ gcmCtr key iv f (c + 1) (m.drop 16) := by
        rw [gcmCtr, if_neg (by simpa using e)]
      rw [step]
      generalize hX : xorBytes (m.take 16) (aesEnc key (iv ++ beBytes 4 c)) = x at hx ⊢
      have hr : (gcmCtr key iv f (c + 1) (m.drop 16)).length = m.length - 16 := by rw [gcmCtr_length _ _ _ _ _ hd]; simp
      have hback : xorBytes x (aesEnc key (iv ++ beBytes 4 c)) = m.take 16 := by
        rw [← hX]; exact xorBytes_cancel _ _ (by rw [aesEnc_length]; simp <;> omega)
      have ht : (x ++ gcmCtr key iv f (c + 1) (m.drop 16)).take 16 = x ∧
          (x ++ gcmCtr key iv f (c + 1) (m.drop 16)).drop 16 = gcmCtr key iv f (c + 1) (m.drop 16) := by
        by_cases hm : 16 ≤ m.length
        · have h16 : x.length = 16 := by omega
          exact ⟨by rw [← h16]; simp, by rw [← h16]; simp⟩
        · have h0 : gcmCtr key iv f (c + 1) (m.drop 16) = [] := List.eq_nil_of_length_eq_zero (by omega)
          rw [h0]
          rw [List.append_nil]
          exact ⟨List.take_of_length_le (by omega), List.drop_eq_nil_of_le (by omega)⟩
      have hne : (x ++ gcmCtr key iv f (c + 1) (m.drop 16)).isEmpty = false := by
        have : x ≠ [] := by intro h0; rw [h0] at hx; simp at hx <;> omega
        simp [this]
      rw [gcmCtr, if_neg (by simp [hne]), ht.1, ht.2, hback, gcmCtr_gcmCtr key iv f (c + 1) (m.drop 16) hd, List.take_append_drop]

theorem gcmCrypt_length (key iv m : List Byte) : (gcmCrypt key iv m).length = m.length := gcmCtr_length key iv _ 2 m (by omega)

/-- Counter mode is its own inverse. -/
theorem gcmCrypt_gcmCrypt (key iv m : List Byte) : gcmCrypt key iv (gcmCrypt key iv m) = m := by
  have := gcmCtr_gcmCtr key iv (m.length + 1) 2 m (by omega)
  simp only [gcmCrypt]
  rw [gcmCtr_length key iv _ 2 m (by omega)]; exact this

theorem leBytes_length : ∀ n v : Nat, (leBytes n v).length = n
  | 0, _ => rfl
  | n + 1, v => by rw [leBytes, List.length_cons, leBytes_length n]

theorem beBytes_length (n v : Nat) : (beBytes n v).length = n := by rw [beBytes, List.length_reverse, leBytes_length]

theorem gcmTag_length (key iv aad ct : List Byte) : (gcmTag key iv aad ct).length = 16 := by
  simp only [gcmTag, xorBytes_length, beBytes_length, aesEnc_length]; rfl

/-- The holder of the key reads a sealed frame's payload (R280). -/
theorem frPlain_sealFrame (key h iv m : List Byte) (e : slice h 16 12 = iv) : frPlain (sealFrame key h iv m) key = some m := by
  simp only [frPlain, frIv, sealFrame, e, if_true, gcmCrypt_gcmCrypt]

/-- With another tag nobody does. -/
theorem frPlain_of_tag (f : LinkFrame) (key : List Byte) (h : gcmTag key (frIv f) f.header f.payload ≠ f.tag) : frPlain f key = none := by
  simp only [frPlain, if_neg h]

theorem frCrcOk_sealFrame (key h iv m : List Byte) : frCrcOk (sealFrame key h iv m) = true := by simp [frCrcOk, sealFrame]

/-- A sealed frame's format is that of its header and its payload (R277). -/
theorem frLenOk_sealFrame (key h iv m : List Byte) : frLenOk (sealFrame key h iv m) = frLenOk ⟨h, m, List.replicate 16 0, 0⟩ := by
  simp only [frLenOk, frLen, frType, sealFrame, gcmCrypt_length, gcmTag_length, List.length_replicate]
  rfl

/-- A session frame that is consumed: the block in which it was forwarded, with its count accepted (R278, R280). -/
theorem sessionRx_accepts (p : LinkPort) (f : LinkFrame) (s t : State) (m : List Byte)
    (h1 : (frSrc f == linkPos s || (rdB GL_STATUS.FENCED s && !decide (0x20 ≤ frType f))) = false)
    (h2 : (!decide (0x20 ≤ frType f) && s.tl.retired.contains (frCtx f)) = false)
    (h3 : (if frType f == 0x20 || frBcast f || frDst f != linkPos s then forward p f s else s) = t)
    (h4 : frForMe f t = true) (h5 : frPlain f t.tl.session = some m) (h6 : t.tl.session.isEmpty = false) (h7 : t.tl.accepted = []) (h8 : frCnt f ≠ 0) :
    sessionRx p f s = (some m, { t with tl := { t.tl with accepted := [(frSrc f, b2n (decide (0x20 ≤ frType f)), frCnt f)] } }) := by
  have h9 : ¬ frCnt f ≤ 0 := by omega
  simp only [sessionRx, h1, h2, h3, h4, h5, h6, h7, List.find?_nil, if_neg h9, Bool.false_eq_true, if_false, Bool.not_true, List.filter_nil]

end Sys2Proof.Laws
end

