-- ==== Sys2Proof/Laws/SMap.lean ====
section
/-! SUPPORT. Laws of the sparse store: a read after a write to the same key gives the value, a write leaves the other keys alone, and
every operation keeps the canonical form. -/

namespace Sys2Proof

theorem SMap.get_put_same {α : Type} (d : Nat → α) (drop : Bool) (k : Nat) (v : α) (hv : drop = true → v = d k) (m : SMap α)
    (lo : Option Nat) [DecidableEq α] (hm : SMap.wfFrom d lo m = true) : SMap.get d (SMap.put drop k v m) k = v := by
  induction m generalizing lo with
  | nil => cases drop <;> simp_all [SMap.put, SMap.get]
  | cons e m ih =>
    obtain ⟨j, w⟩ := e
    simp only [SMap.wfFrom, Bool.and_eq_true] at hm
    simp only [SMap.put]
    split
    · cases drop
      · simp [SMap.get]
      · simp [SMap.get, hv rfl, Nat.ne_of_lt ‹k < j›, ‹k < j›]
    · split
      · rename_i h1 h2
        subst h2
        cases drop
        · simp [SMap.get]
        · simp only [if_true, hv rfl]
          match m, hm.2 with
          | [], _ => rfl
          | (i, x) :: m', h =>
            simp only [SMap.wfFrom, Bool.and_eq_true, decide_eq_true_eq] at h
            simp [SMap.get, Nat.ne_of_lt h.1.1, h.1.1]
      · rename_i h1 h2
        simp only [SMap.get, h1, h2, if_false]
        exact ih _ hm.2

theorem SMap.get_put_ne {α : Type} (d : Nat → α) (drop : Bool) (k : Nat) (v : α) (m : SMap α) (lo : Option Nat) [DecidableEq α]
    (hm : SMap.wfFrom d lo m = true) (i : Nat) (h : i ≠ k) : SMap.get d (SMap.put drop k v m) i = SMap.get d m i := by
  induction m generalizing lo with
  | nil =>
    cases drop
    · simp only [SMap.put, SMap.get, h, if_false, Bool.false_eq_true]; split <;> rfl
    · rfl
  | cons e m ih =>
    obtain ⟨j, w⟩ := e
    simp only [SMap.wfFrom, Bool.and_eq_true] at hm
    simp only [SMap.put]
    split
    · cases drop
      · simp only [SMap.get, h, if_false, Bool.false_eq_true]
        by_cases h3 : i < k
        · have : i ≠ j := by omega
          have h4 : i < j := by omega
          simp [h3, this, h4]
        · simp [h3]
      · rfl
    · split
      · rename_i h1 h2
        subst h2
        cases drop
        · simp [SMap.get, h]
        · simp only [SMap.get, h, if_false, if_true]
          by_cases h3 : i < k
          · simp only [h3, if_true]
            match m, hm.2 with
            | [], _ => rfl
            | (x, y) :: m', h5 =>
              simp only [SMap.wfFrom, Bool.and_eq_true, decide_eq_true_eq] at h5
              have h6 : i ≠ x := by omega
              have h7 : i < x := by omega
              simp [SMap.get, h6, h7]
          · simp [h3]
      · simp only [SMap.get, ih _ hm.2]

theorem SMap.wfFrom_put {α : Type} [DecidableEq α] (d : Nat → α) (k : Nat) (v : α) (m : SMap α) (lo : Option Nat)
    (hm : SMap.wfFrom d lo m = true) (hlo : ∀ l, lo = some l → l < k) :
    SMap.wfFrom d lo (SMap.put (decide (v = d k)) k v m) = true := by
  induction m generalizing lo with
  | nil =>
    by_cases hv : v = d k
    · simp [SMap.put, hv, SMap.wfFrom]
    · cases lo <;> simp_all [SMap.put, SMap.wfFrom]
  | cons e m ih =>
    obtain ⟨j, w⟩ := e
    have hm' := hm
    simp only [SMap.wfFrom, Bool.and_eq_true] at hm
    simp only [SMap.put]
    split
    · by_cases hv : v = d k
      · simp only [hv, decide_true, if_true]; exact hm'
      · cases lo <;> simp_all [SMap.wfFrom]
    · split
      · rename_i h1 h2
        subst h2
        by_cases hv : v = d k
        · simp only [hv, decide_true, if_true]
          match m, hm.2 with
          | [], _ => rfl
          | (x, y) :: m', h5 =>
            simp only [SMap.wfFrom, Bool.and_eq_true, decide_eq_true_eq] at h5 ⊢
            refine ⟨⟨?_, h5.1.2⟩, h5.2⟩
            cases lo with
            | none => rfl
            | some l => have := hlo l rfl; simp; omega
        · simp only [hv, decide_false, Bool.false_eq_true, if_false, SMap.wfFrom, Bool.and_eq_true]
          exact ⟨⟨hm.1.1, by simpa using hv⟩, hm.2⟩
      · rename_i h1 h2
        simp only [SMap.wfFrom, Bool.and_eq_true]
        exact ⟨hm.1, ih _ hm.2 (fun l hl => by cases hl; omega)⟩

/-- A write keeps the canonical form. -/
theorem SMap.wf_set {α : Type} [DecidableEq α] (d : Nat → α) (m : SMap α) (k : Nat) (v : α) (hm : SMap.wf d m = true) :
    SMap.wf d (SMap.set d m k v) = true :=
  SMap.wfFrom_put d k v m none hm (by simp)

/-- A read after a write to the same key gives the value written. -/
theorem SMap.get_set_same {α : Type} [DecidableEq α] (d : Nat → α) (m : SMap α) (k : Nat) (v : α) (hm : SMap.wf d m = true) :
    SMap.get d (SMap.set d m k v) k = v :=
  SMap.get_put_same d _ k v (by simp) m none hm

/-- A write leaves every other key alone. -/
theorem SMap.get_set_ne {α : Type} [DecidableEq α] (d : Nat → α) (m : SMap α) (k : Nat) (v : α) (hm : SMap.wf d m = true) (i : Nat)
    (h : i ≠ k) : SMap.get d (SMap.set d m k v) i = SMap.get d m i :=
  SMap.get_put_ne d _ k v m none hm i h

theorem SMap.wfFrom_weaken {α : Type} [DecidableEq α] (d : Nat → α) (m : SMap α) (lo lo' : Option Nat)
    (h : ∀ l, lo' = some l → ∃ k, lo = some k ∧ l ≤ k) (hm : SMap.wfFrom d lo m = true) : SMap.wfFrom d lo' m = true := by
  cases m with
  | nil => rfl
  | cons e m =>
    obtain ⟨j, w⟩ := e
    simp only [SMap.wfFrom, Bool.and_eq_true] at hm ⊢
    refine ⟨⟨?_, hm.1.2⟩, hm.2⟩
    cases lo' with
    | none => rfl
    | some l =>
      obtain ⟨k, hk, hl⟩ := h l rfl
      subst hk
      have h1 := hm.1.1
      simp at h1 ⊢
      omega

theorem SMap.wfFrom_filter {α : Type} [DecidableEq α] (d : Nat → α) (p : Nat × α → Bool) (m : SMap α) (lo : Option Nat)
    (hm : SMap.wfFrom d lo m = true) : SMap.wfFrom d lo (m.filter p) = true := by
  induction m generalizing lo with
  | nil => rfl
  | cons e m ih =>
    obtain ⟨j, w⟩ := e
    have hm' := hm
    simp only [SMap.wfFrom, Bool.and_eq_true] at hm
    simp only [List.filter]
    split
    · simp only [SMap.wfFrom, Bool.and_eq_true]
      exact ⟨hm.1, ih _ hm.2⟩
    · refine ih lo (SMap.wfFrom_weaken d m (some j) lo (fun l hl => ⟨j, rfl, ?_⟩) hm.2)
      subst hl
      have h1 := hm.1.1
      simp at h1
      omega

/-- Forgetting entries keeps the canonical form. -/
theorem SMap.wf_forget {α : Type} [DecidableEq α] (d : Nat → α) (p : Nat → Bool) (m : SMap α) (hm : SMap.wf d m = true) :
    SMap.wf d (SMap.forget p m) = true := SMap.wfFrom_filter d _ m none hm

/-- A sequence of writes keeps the canonical form. -/
theorem SMap.wf_foldl_set {α : Type} [DecidableEq α] (d : Nat → α) (l : List (Nat × α)) (m : SMap α) (hm : SMap.wf d m = true) :
    SMap.wf d (l.foldl (fun m e => SMap.set d m e.1 e.2) m) = true := by
  induction l generalizing m with
  | nil => exact hm
  | cons e l ih => exact ih _ (SMap.wf_set d m e.1 e.2 hm)

/-- Writing a list of values keeps the canonical form. -/
theorem SMap.wf_setList {α : Type} [DecidableEq α] (d : Nat → α) (vs : List α) (m : SMap α) (k : Nat) (hm : SMap.wf d m = true) :
    SMap.wf d (SMap.setList d m k vs) = true := by
  induction vs generalizing m k with
  | nil => exact hm
  | cons v vs ih => exact ih _ _ (SMap.wf_set d m k v hm)

theorem SMap.get_forget {α : Type} [DecidableEq α] (d : Nat → α) (p : Nat → Bool) (m : SMap α) (lo : Option Nat)
    (hm : SMap.wfFrom d lo m = true) (k : Nat) : SMap.get d (SMap.forget p m) k = if p k then d k else SMap.get d m k := by
  induction m generalizing lo with
  | nil => simp [SMap.forget, SMap.get]
  | cons e m ih =>
    obtain ⟨j, w⟩ := e
    simp only [SMap.wfFrom, Bool.and_eq_true] at hm
    have ih := ih _ hm.2
    have hj : ∀ q : Nat → Bool, k < j → SMap.get d (SMap.forget q m) k = d k := by
      intro q hk
      have := SMap.wfFrom_filter d (fun e => !q e.1) m _ hm.2
      match h : SMap.forget q m, this with
      | [], _ => rfl
      | (x, y) :: m', h5 =>
        rw [show m.filter (fun e => !q e.1) = SMap.forget q m from rfl, h] at h5
        simp only [SMap.wfFrom, Bool.and_eq_true, decide_eq_true_eq] at h5
        have h6 : k ≠ x := by omega
        have h7 : k < x := by omega
        simp [SMap.get, h6, h7]
    by_cases hp : p j = true
    · have hf : SMap.forget p ((j, w) :: m) = SMap.forget p m := by simp [SMap.forget, hp]
      rw [hf]
      simp only [SMap.get]
      by_cases h1 : k = j
      · subst h1
        rw [ih]; simp [hp]
      · by_cases h2 : k < j
        · simp [h1, h2, hj p h2]
        · simp [h1, h2, ih]
    · have hf : SMap.forget p ((j, w) :: m) = (j, w) :: SMap.forget p m := by simp [SMap.forget, hp]
      rw [hf]
      simp only [SMap.get, ih]
      by_cases h1 : k = j
      · subst h1; simp [hp]
      · by_cases h2 : k < j <;> simp [h1, h2]

/-- An entry of a canonical store is what its key reads as, and it is not the default. -/
theorem SMap.get_mem {α : Type} [DecidableEq α] (d : Nat → α) (m : SMap α) (lo : Option Nat) (hm : SMap.wfFrom d lo m = true) (e : Nat × α) (he : e ∈ m) :
    SMap.get d m e.1 = e.2 ∧ e.2 ≠ d e.1 ∧ ∀ l, lo = some l → l < e.1 := by
  induction m generalizing lo with
  | nil => exact absurd he List.not_mem_nil
  | cons x r ih =>
    obtain ⟨j, v⟩ := x
    simp only [SMap.wfFrom, Bool.and_eq_true, decide_eq_true_eq] at hm
    rcases List.mem_cons.1 he with rfl | he
    · refine ⟨by simp [SMap.get], hm.1.2, fun l hl => ?_⟩
      subst hl; simpa using hm.1.1
    · obtain ⟨h1, h2, h3⟩ := ih (some j) hm.2 he
      have hj := h3 j rfl
      refine ⟨?_, h2, fun l hl => ?_⟩
      · rw [SMap.get, if_neg (by omega), if_neg (by omega), h1]
      · subst hl
        have := hm.1.1
        simp only [decide_eq_true_eq] at this
        omega

/-- Writes of a list of keys leave the others. -/
theorem SMap.get_foldl_set {α β : Type} [DecidableEq α] (d : Nat → α) (k : β → Nat) (v : β → α) (l : List β) (m : SMap α) (hm : SMap.wf d m = true) (i : Nat)
    (h : ∀ x ∈ l, i ≠ k x) : SMap.get d (l.foldl (fun m x => SMap.set d m (k x) (v x)) m) i = SMap.get d m i := by
  induction l generalizing m with
  | nil => rfl
  | cons x r ih =>
    rw [List.foldl_cons, ih _ (SMap.wf_set _ _ _ _ hm) (fun y hy => h y (List.mem_cons_of_mem _ hy)), SMap.get_set_ne _ _ _ _ hm _ (h x List.mem_cons_self)]

end Sys2Proof
end

