-- ==== Sys2Proof/Laws/Sound.lean ====
section
/-! SUPPORT. What no command does: `Sound s t` says that the way from `s` to `t` left the queue and the clock as they were, kept the
register file canonical, blew fuses only, and took nothing back that had left the block. One lemma per operation. -/

namespace Sys2Proof.Machine

/-- What every operation of the block keeps. -/
structure Sound (s t : State) : Prop where
  pending : t.pending = s.pending
  now : t.now = s.now
  out : s.out <:+ t.out
  freeN : s.freeN ≤ t.freeN
  regs : s.regsWf = true → t.regsWf = true
  pairs : s.pairsWf = true → t.pairsWf = true
  rwe : s.rweWf = true → t.rweWf = true
  otp : s.otpWf = true → t.otpWf = true
  fuses : s.otpWf = true → s.fusesLe t

theorem Sound.refl (s : State) : Sound s s :=
  ⟨rfl, rfl, List.suffix_rfl, Nat.le_refl _, id, id, id, id, fun _ _ _ h => h⟩

theorem Sound.trans {s t u : State} (h : Sound s t) (k : Sound t u) : Sound s u :=
  ⟨k.pending.trans h.pending, k.now.trans h.now, h.out.trans k.out, Nat.le_trans h.freeN k.freeN, fun w => k.regs (h.regs w), fun w => k.pairs (h.pairs w), fun w => k.rwe (h.rwe w),
    fun w => k.otp (h.otp w), fun w a j b => k.fuses (h.otp w) a j (h.fuses w a j b)⟩

/-- An update of the fields that hold neither registers, queue, clock, outbox nor fuses. -/
theorem Sound.upd {s t : State} {pins pw ev mb flt tt ctx coach gig mp tl otp flash sb dg tap}
    (h : Sound s t) (ho : otp.norm = t.otp.norm ∧ otp.tight = t.otp.tight) :
    Sound s (State.mk t.regs t.snap t.hiHold t.rwe t.now t.freeN t.out t.pending pins pw ev mb flt tt ctx coach gig mp tl otp flash sb dg tap) :=
  ⟨h.pending, h.now, h.out, h.freeN, h.regs, h.pairs, h.rwe, fun w => by simpa only [State.otpWf, ho.1, ho.2] using h.otp w, fun w a j b => by
    simpa only [State.fuses, ho.1] using h.fuses w a j b⟩

theorem Sound.ite {s a b : State} {c : Prop} [Decidable c] (ha : Sound s a) (hb : Sound s b) : Sound s (if c then a else b) := by
  split <;> assumption

theorem Sound.pair {α : Type} {s t : State} {x : α} (h : Sound s t) : Sound s (x, t).2 := h

theorem Sound.opt_ite {s : State} {a b : Option State} {c : Prop} [Decidable c] (ha : ∀ v, a = some v → Sound s v)
    (hb : ∀ v, b = some v → Sound s v) : ∀ v, (if c then a else b) = some v → Sound s v := by
  split <;> assumption

theorem Sound.opt_none {s : State} : ∀ v, (none : Option State) = some v → Sound s v := by
  intro v e; contradiction

theorem Sound.opt_some {s a : State} (h : Sound s a) : ∀ v, some a = some v → Sound s v := fun _ e => Option.some.inj e ▸ h

theorem wr_sound {s t : State} (f : Fld) (v : Nat) (h : Sound s t) : Sound s (wr f v t) :=
  h.trans ⟨rfl, rfl, List.suffix_rfl, Nat.le_refl _, fun w => SMap.wf_set _ _ _ _ w, id, id, id, fun _ _ _ h => h⟩
theorem each_sound {α : Type} {s : State} (l : List α) {f : α → State → State} (hf : ∀ x u, Sound s u → Sound s (f x u)) {t : State}
    (h : Sound s t) : Sound s (each l f t) := by
  unfold each
  induction l generalizing t with
  | nil => exact h
  | cons x r ih => exact ih (hf x _ h)
theorem when__sound {s t : State} (b : Bool) {f : State → State} (hf : ∀ u, Sound s u → Sound s (f u)) (h : Sound s t) : Sound s (when_ b f t) := by
  unfold when_; split
  · exact hf _ h
  · exact h
theorem wrs_sound {s t : State} (l : List (Fld × Nat)) (h : Sound s t) : Sound s (wrs l t) := by
  induction l generalizing t with
  | nil => exact h
  | cons x r ih => exact ih (wr_sound _ _ h)
theorem emit_sound {s t : State} (o : Out) (h : Sound s t) : Sound s (emit o t) :=
  h.trans ⟨rfl, rfl, List.suffix_cons _ _, Nat.le_refl _, id, id, id, id, fun _ _ _ h => h⟩
theorem free_sound {s t : State} (h : Sound s t) : Sound s (free t).2 :=
  h.trans ⟨rfl, rfl, List.suffix_rfl, Nat.le_succ _, id, id, id, id, fun _ _ _ h => h⟩
theorem bit_or (x y j : Nat) : bit (x ||| y) j = (bit x j || bit y j) := by
  have h : ∀ z, bit z j = Nat.testBit z j := fun z => by
    simp only [bit, Nat.testBit, Nat.shiftRight_eq_div_pow, Nat.one_and_eq_mod_two]
    rcases Nat.mod_two_eq_zero_or_one (z / 2 ^ j) with h | h <;> simp [h]
  rw [h, h, h, Nat.testBit_or]
theorem otpBlow_sound {s t : State} (w vn vt : Nat) (h : Sound s t) : Sound s (otpBlow w vn vt t) := by
  refine h.trans ⟨rfl, rfl, List.suffix_rfl, Nat.le_refl _, id, id, id, fun k => ?_, fun k a j b => ?_⟩
  · simp only [State.otpWf, Bool.and_eq_true] at k ⊢
    exact ⟨SMap.wf_set _ _ _ _ k.1, SMap.wf_set _ _ _ _ k.2⟩
  · simp only [State.otpWf, Bool.and_eq_true] at k
    simp only [State.fuses, otpBlow] at b ⊢
    by_cases e : a = w
    · subst e; rw [SMap.get_set_same _ _ _ _ k.1, bit_or]; simp [otpN, b]
    · rw [SMap.get_set_ne _ _ _ _ k.1 _ e]; exact b
theorem forgetRegs_sound {s t : State} (p : Nat → Bool) (h : Sound s t) : Sound s (forgetRegs p t) :=
  h.trans ⟨rfl, rfl, List.suffix_rfl, Nat.le_refl _, fun k => SMap.wf_forget fieldReset (fun k => p (k / 64)) t.regs k,
    fun k => by simp only [State.pairsWf, Bool.and_eq_true] at k ⊢; exact ⟨SMap.wf_forget _ _ _ k.1, SMap.wf_forget _ _ _ k.2⟩,
    fun k => List.all_eq_true.2 (fun x hx => List.all_eq_true.1 k x (List.mem_filter.1 hx).1), id, fun _ _ _ h => h⟩
/-- The change of registers that keep their canonical form. -/
theorem Sound.regs_upd {s t : State} (r : SMap Nat) (h : Sound s t) (hr : t.regsWf = true → SMap.wf fieldReset r = true) :
    Sound s { t with regs := r } :=
  h.trans ⟨rfl, rfl, List.suffix_rfl, Nat.le_refl _, hr, id, id, id, fun _ _ _ h => h⟩
theorem Sound.hi_upd {s t : State} (k v : Nat) (h : Sound s t) : Sound s { t with hiHold := SMap.set (fun _ => 0) t.hiHold k v } :=
  h.trans ⟨rfl, rfl, List.suffix_rfl, Nat.le_refl _, id,
    fun w => by simp only [State.pairsWf, Bool.and_eq_true] at w ⊢; exact ⟨w.1, SMap.wf_set _ _ _ _ w.2⟩, id, id, fun _ _ _ h => h⟩
theorem snapPair_sound {s t : State} (a : Nat) (h : Sound s t) : Sound s (snapPair a t) :=
  h.trans ⟨rfl, rfl, List.suffix_rfl, Nat.le_refl _, id,
    fun w => by simp only [State.pairsWf, Bool.and_eq_true] at w ⊢; exact ⟨SMap.wf_set _ _ _ _ w.1, w.2⟩, id, id, fun _ _ _ h => h⟩
theorem mem_keptOlder {α : Type} {at_ : α → Nat} {now : Nat} {l : List α} {x : α} (h : x ∈ keptOlder at_ now l) : x ∈ l :=
  (List.mem_filter.1 (List.mem_of_getLast? (Option.mem_toList.1 h))).1
theorem rwePut_sound {s t : State} (f : Fld) (v : Nat) (hf : rweField f.addr f.lo = true) (h : Sound s t) : Sound s (rwePut f v t) :=
  h.trans ⟨rfl, rfl, List.suffix_rfl, Nat.le_refl _, id, id, fun k => List.all_eq_true.2 (fun x hx => by
    rcases List.mem_append.1 hx with m | m
    · rcases List.mem_append.1 m with m | m
      · exact List.all_eq_true.1 k x (List.mem_filter.1 m).1
      · exact List.all_eq_true.1 k x (List.mem_filter.1 (mem_keptOlder m)).1
    · rw [List.mem_singleton.1 m]; exact hf), id, fun _ _ _ h => h⟩
theorem rweApply_sound {s t : State} (all : Bool) (h : Sound s t) : Sound s (rweApply all t) :=
  each_sound _ (fun _ _ k => wr_sound _ _ k) (h.trans ⟨rfl, rfl, List.suffix_rfl, Nat.le_refl _, id, id,
    fun k => List.all_eq_true.2 (fun x hx => List.all_eq_true.1 k x (List.mem_filter.1 hx).1), id, fun _ _ _ h => h⟩)
theorem each_sound_mem {α : Type} {s : State} (l : List α) {f : α → State → State} (hf : ∀ x ∈ l, ∀ u, Sound s u → Sound s (f x u)) {t : State}
    (h : Sound s t) : Sound s (each l f t) := by
  unfold each
  induction l generalizing t with
  | nil => exact h
  | cons x r ih => exact ih (fun y m => hf y (List.mem_cons_of_mem _ m)) (hf x List.mem_cons_self _ h)
/-- A fold keeps what each of its steps keeps. -/
theorem foldl_keeps {α β : Type} (p : α → Prop) {f : α → β → α} (hf : ∀ a b, p a → p (f a b)) (l : List β) {a : α} (h : p a) : p (l.foldl f a) := by
  induction l generalizing a with
  | nil => exact h
  | cons b l ih => exact ih (hf a b h)

theorem wrB_sound {s t : State} (a0 : Fld) (a1 : Bool) (h : Sound s t) : Sound s (wrB a0 a1 t) := by
  simp only [wrB]
  repeat' (first | with_reducible exact h | with_reducible assumption | (intro _; try dsimp only) | with_reducible apply wr_sound | with_reducible apply Sound.ite | with_reducible split | with_reducible apply Sound.hi_upd | with_reducible (refine Sound.upd ?_ ⟨rfl, rfl⟩))

theorem add_sound {s t : State} (a0 : Fld) (a1 : Nat) (h : Sound s t) : Sound s (add a0 a1 t) := by
  simp only [add]
  repeat' (first | with_reducible exact h | with_reducible assumption | (intro _; try dsimp only) | with_reducible apply wr_sound | with_reducible apply Sound.ite | with_reducible split | with_reducible apply Sound.hi_upd | with_reducible (refine Sound.upd ?_ ⟨rfl, rfl⟩))

theorem inc_sound {s t : State} (a0 : Fld) (h : Sound s t) : Sound s (inc a0 t) := by
  simp only [inc]
  repeat' (first | with_reducible exact h | with_reducible assumption | (intro _; try dsimp only) | with_reducible apply add_sound | with_reducible apply Sound.ite | with_reducible split | with_reducible apply Sound.hi_upd | with_reducible (refine Sound.upd ?_ ⟨rfl, rfl⟩))

theorem clr_sound {s t : State} (a0 : List Fld) (h : Sound s t) : Sound s (clr a0 t) := by
  simp only [clr]
  repeat' (first | with_reducible exact h | with_reducible assumption | (intro _; try dsimp only) | with_reducible apply wrs_sound | with_reducible apply Sound.ite | with_reducible split | with_reducible apply Sound.hi_upd | with_reducible (refine Sound.upd ?_ ⟨rfl, rfl⟩))

theorem markBits_sound {s t : State} (a0 : Fld) (a1 : Nat) (h : Sound s t) : Sound s (markBits a0 a1 t) := by
  simp only [markBits]
  repeat' (first | with_reducible exact h | with_reducible assumption | (intro _; try dsimp only) | with_reducible apply wr_sound | with_reducible apply Sound.ite | with_reducible split | with_reducible apply Sound.hi_upd | with_reducible (refine Sound.upd ?_ ⟨rfl, rfl⟩))

theorem markBit_sound {s t : State} (a0 : Fld) (h : Sound s t) : Sound s (markBit a0 t) := by
  simp only [markBit]
  repeat' (first | with_reducible exact h | with_reducible assumption | (intro _; try dsimp only) | with_reducible apply markBits_sound | with_reducible apply Sound.ite | with_reducible split | with_reducible apply Sound.hi_upd | with_reducible (refine Sound.upd ?_ ⟨rfl, rfl⟩))

theorem clearBits_sound {s t : State} (a0 : Fld) (a1 : Nat) (h : Sound s t) : Sound s (clearBits a0 a1 t) := by
  simp only [clearBits]
  repeat' (first | with_reducible exact h | with_reducible assumption | (intro _; try dsimp only) | with_reducible apply wr_sound | with_reducible apply Sound.ite | with_reducible split | with_reducible apply Sound.hi_upd | with_reducible (refine Sound.upd ?_ ⟨rfl, rfl⟩))

theorem cntClr_sound {s t : State} (a0 : List Fld) (h : Sound s t) : Sound s (cntClr a0 t) := by
  simp only [cntClr]
  repeat' (first | with_reducible exact h | with_reducible assumption | (intro _; try dsimp only) | with_reducible apply wrs_sound | with_reducible apply clr_sound | with_reducible apply Sound.ite | with_reducible split | with_reducible apply Sound.hi_upd | with_reducible (refine Sound.upd ?_ ⟨rfl, rfl⟩))

theorem freeBytes_sound {s t : State} (a0 : Nat) (h : Sound s t) : Sound s (freeBytes a0 t).2 := by
  simp only [freeBytes]
  repeat' (first | with_reducible exact h | with_reducible assumption | (intro _; try dsimp only) | with_reducible apply free_sound | with_reducible apply Sound.ite | with_reducible split | with_reducible apply Sound.hi_upd | with_reducible (refine Sound.upd ?_ ⟨rfl, rfl⟩))

theorem setChan_sound {s t : State} (a0 : Fin 6) (a1 : MbChan) (h : Sound s t) : Sound s (setChan a0 a1 t) := by
  simp only [setChan]
  repeat' (first | with_reducible exact h | with_reducible assumption | (intro _; try dsimp only) | with_reducible apply Sound.ite | with_reducible split | with_reducible apply Sound.hi_upd | with_reducible (refine Sound.upd ?_ ⟨rfl, rfl⟩))

theorem setCx_sound {s t : State} (a0 : Ctx) (a1 : CtxSt) (h : Sound s t) : Sound s (setCx a0 a1 t) := by
  simp only [setCx]
  repeat' (first | with_reducible exact h | with_reducible assumption | (intro _; try dsimp only) | with_reducible apply Sound.ite | with_reducible split | with_reducible apply Sound.hi_upd | with_reducible (refine Sound.upd ?_ ⟨rfl, rfl⟩))

theorem modCx_sound {s t : State} (a0 : Ctx) (a1 : CtxSt → CtxSt) (h : Sound s t) : Sound s (modCx a0 a1 t) := by
  simp only [modCx]
  repeat' (first | with_reducible exact h | with_reducible assumption | (intro _; try dsimp only) | with_reducible apply setCx_sound | with_reducible apply Sound.ite | with_reducible split | with_reducible apply Sound.hi_upd | with_reducible (refine Sound.upd ?_ ⟨rfl, rfl⟩))

theorem setCo_sound {s t : State} (a0 : Coach) (a1 : CoachSt) (h : Sound s t) : Sound s (setCo a0 a1 t) := by
  simp only [setCo]
  repeat' (first | with_reducible exact h | with_reducible assumption | (intro _; try dsimp only) | with_reducible apply Sound.ite | with_reducible split | with_reducible apply Sound.hi_upd | with_reducible (refine Sound.upd ?_ ⟨rfl, rfl⟩))

theorem modCo_sound {s t : State} (a0 : Coach) (a1 : CoachSt → CoachSt) (h : Sound s t) : Sound s (modCo a0 a1 t) := by
  simp only [modCo]
  repeat' (first | with_reducible exact h | with_reducible assumption | (intro _; try dsimp only) | with_reducible apply setCo_sound | with_reducible apply Sound.ite | with_reducible split | with_reducible apply Sound.hi_upd | with_reducible (refine Sound.upd ?_ ⟨rfl, rfl⟩))

theorem holdFall_sound {s t : State} (h : Sound s t) : Sound s (holdFall t) := by
  simp only [holdFall]
  repeat' (first | with_reducible exact h | with_reducible assumption | (intro _; try dsimp only) | with_reducible apply Sound.ite | with_reducible split | with_reducible apply Sound.hi_upd | with_reducible (refine Sound.upd ?_ ⟨rfl, rfl⟩))

theorem holdSettle_sound {s t : State} (h : Sound s t) : Sound s (holdSettle t) := by
  simp only [holdSettle]
  repeat' (first | with_reducible exact h | with_reducible assumption | (intro _; try dsimp only) | with_reducible apply holdFall_sound | with_reducible apply Sound.ite | with_reducible split | with_reducible apply Sound.hi_upd | with_reducible (refine Sound.upd ?_ ⟨rfl, rfl⟩))

theorem unmaskOne_sound {s t : State} (a0 : Nat) (h : Sound s t) : Sound s (unmaskOne a0 t) := by
  simp only [unmaskOne]
  repeat' (first | with_reducible exact h | with_reducible assumption | (intro _; try dsimp only) | with_reducible apply wr_sound | with_reducible apply Sound.ite | with_reducible split | with_reducible apply Sound.hi_upd | with_reducible (refine Sound.upd ?_ ⟨rfl, rfl⟩))

theorem unmask_sound {s t : State} (a0 : Nat) (a1 : Bool) (h : Sound s t) : Sound s (unmask a0 a1 t) := by
  simp only [unmask]
  repeat' (first | with_reducible exact h | with_reducible assumption | (intro _; try dsimp only) | with_reducible apply each_sound | with_reducible apply unmaskOne_sound | with_reducible apply Sound.ite | with_reducible split | with_reducible apply Sound.hi_upd | with_reducible (refine Sound.upd ?_ ⟨rfl, rfl⟩))

theorem dropMoved_sound {s t : State} (a0 : Bool) (a1 : Nat) (h : Sound s t) : Sound s (dropMoved a0 a1 t) := by
  simp only [dropMoved]
  repeat' (first | with_reducible exact h | with_reducible assumption | (intro _; try dsimp only) | with_reducible apply Sound.ite | with_reducible split | with_reducible apply Sound.hi_upd | with_reducible (refine Sound.upd ?_ ⟨rfl, rfl⟩))

theorem startRamp_sound {s t : State} (a0 : Nat) (h : Sound s t) : Sound s (startRamp a0 t) := by
  simp only [startRamp]
  repeat' (first | with_reducible exact h | with_reducible assumption | (intro _; try dsimp only) | with_reducible apply Sound.ite | with_reducible split | with_reducible apply Sound.hi_upd | with_reducible (refine Sound.upd ?_ ⟨rfl, rfl⟩))

theorem powerOn_sound {s t : State} (a0 : Nat) (h : Sound s t) : Sound s (powerOn a0 t) := by
  simp only [powerOn]
  repeat' (first | with_reducible exact h | with_reducible assumption | (intro _; try dsimp only) | with_reducible apply wr_sound | with_reducible apply startRamp_sound | with_reducible apply Sound.ite | with_reducible split | with_reducible apply Sound.hi_upd | with_reducible (refine Sound.upd ?_ ⟨rfl, rfl⟩))

theorem bootBegin_sound {s t : State} (h : Sound s t) : Sound s (bootBegin t) := by
  simp only [bootBegin]
  repeat' (first | with_reducible exact h | with_reducible assumption | (intro _; try dsimp only) | with_reducible apply powerOn_sound | with_reducible apply wr_sound | with_reducible apply Sound.ite | with_reducible split | with_reducible apply Sound.hi_upd | with_reducible (refine Sound.upd ?_ ⟨rfl, rfl⟩))

theorem wake_sound {s t : State} (a0 : Nat) (h : Sound s t) : Sound s (wake a0 t) := by
  simp only [wake]
  repeat' (first | with_reducible exact h | with_reducible assumption | (intro _; try dsimp only) | with_reducible apply wr_sound | with_reducible apply bootBegin_sound | with_reducible apply inc_sound | with_reducible apply Sound.ite | with_reducible split | with_reducible apply Sound.hi_upd | with_reducible (refine Sound.upd ?_ ⟨rfl, rfl⟩))

theorem lanternRecord_sound {s t : State} (a0 : Nat) (h : Sound s t) : Sound s (lanternRecord a0 t) := by
  simp only [lanternRecord]
  repeat' (first | with_reducible exact h | with_reducible assumption | (intro _; try dsimp only) | with_reducible apply each_sound | with_reducible apply wr_sound | with_reducible apply wrs_sound | with_reducible apply wake_sound | with_reducible apply Sound.ite | with_reducible split | with_reducible apply Sound.hi_upd | with_reducible (refine Sound.upd ?_ ⟨rfl, rfl⟩))

theorem latch_sound {s t : State} (a0 : Nat) (h : Sound s t) : Sound s (latch a0 t) := by
  simp only [latch]
  repeat' (first | with_reducible exact h | with_reducible assumption | (intro _; try dsimp only) | with_reducible apply lanternRecord_sound | with_reducible apply markBit_sound | with_reducible apply Sound.ite | with_reducible split | with_reducible apply Sound.hi_upd | with_reducible (refine Sound.upd ?_ ⟨rfl, rfl⟩))

theorem raise_sound {s t : State} (a0 : Nat) (h : Sound s t) : Sound s (raise a0 t) := by
  simp only [raise]
  repeat' (first | with_reducible exact h | with_reducible assumption | (intro _; try dsimp only) | with_reducible apply latch_sound | with_reducible apply Sound.ite | with_reducible split | with_reducible apply Sound.hi_upd | with_reducible (refine Sound.upd ?_ ⟨rfl, rfl⟩))

theorem settleOne_sound {s t : State} (a0 : Nat) (h : Sound s t) : Sound s (settleOne a0 t) := by
  simp only [settleOne]
  repeat' (first | with_reducible exact h | with_reducible assumption | (intro _; try dsimp only) | with_reducible apply wrB_sound | with_reducible apply latch_sound | with_reducible apply Sound.ite | with_reducible split | with_reducible apply Sound.hi_upd | with_reducible (refine Sound.upd ?_ ⟨rfl, rfl⟩))

theorem settle_sound {s t : State} (h : Sound s t) : Sound s (settle t) := by
  simp only [settle]
  repeat' (first | with_reducible exact h | with_reducible assumption | (intro _; try dsimp only) | with_reducible apply each_sound | with_reducible apply settleOne_sound | with_reducible apply Sound.ite | with_reducible split | with_reducible apply Sound.hi_upd | with_reducible (refine Sound.upd ?_ ⟨rfl, rfl⟩))

theorem bindPend_sound {s t : State} (a0 : Nat) (h : Sound s t) : Sound s (bindPend a0 t) := by
  simp only [bindPend]
  repeat' (first | with_reducible exact h | with_reducible assumption | (intro _; try dsimp only) | with_reducible apply each_sound | with_reducible apply Sound.ite | with_reducible split | with_reducible apply Sound.hi_upd | with_reducible (refine Sound.upd ?_ ⟨rfl, rfl⟩))

theorem routeTo_sound {s t : State} (a0 : Nat) (a1 : Nat) (h : Sound s t) : Sound s (routeTo a0 a1 t) := by
  simp only [routeTo]
  repeat' (first | with_reducible exact h | with_reducible assumption | (intro _; try dsimp only) | with_reducible apply wr_sound | with_reducible apply bindPend_sound | with_reducible apply unmaskOne_sound | with_reducible apply Sound.ite | with_reducible split | with_reducible apply Sound.hi_upd | with_reducible (refine Sound.upd ?_ ⟨rfl, rfl⟩))

theorem classTo_sound {s t : State} (a0 : Nat) (a1 : Bool) (h : Sound s t) : Sound s (classTo a0 a1 t) := by
  simp only [classTo]
  repeat' (first | with_reducible exact h | with_reducible assumption | (intro _; try dsimp only) | with_reducible apply wrB_sound | with_reducible apply bindPend_sound | with_reducible apply Sound.ite | with_reducible split | with_reducible apply Sound.hi_upd | with_reducible (refine Sound.upd ?_ ⟨rfl, rfl⟩))

theorem modDg_sound {s t : State} (a0 : Fin 3) (a1 : DgMsg → DgMsg) (h : Sound s t) : Sound s (modDg a0 a1 t) := by
  simp only [modDg]
  repeat' (first | with_reducible exact h | with_reducible assumption | (intro _; try dsimp only) | with_reducible apply Sound.ite | with_reducible split | with_reducible apply Sound.hi_upd | with_reducible (refine Sound.upd ?_ ⟨rfl, rfl⟩))

theorem reinSet_sound {s t : State} (a0 : Nat) (a1 : Nat) (h : Sound s t) : Sound s (reinSet a0 a1 t) := by
  simp only [reinSet]
  repeat' (first | with_reducible exact h | with_reducible assumption | (intro _; try dsimp only) | with_reducible apply wr_sound | with_reducible apply Sound.ite | with_reducible split | with_reducible apply Sound.hi_upd | with_reducible (refine Sound.upd ?_ ⟨rfl, rfl⟩))

theorem dgSetOwner_sound {s t : State} (a0 : Nat) (h : Sound s t) : Sound s (dgSetOwner a0 t) := by
  simp only [dgSetOwner]
  repeat' (first | with_reducible exact h | with_reducible assumption | (intro _; try dsimp only) | with_reducible apply reinSet_sound | with_reducible apply each_sound | with_reducible apply wr_sound | with_reducible apply Sound.ite | with_reducible split | with_reducible apply Sound.hi_upd | with_reducible (refine Sound.upd ?_ ⟨rfl, rfl⟩))

theorem dgRefuseWrite_sound {s t : State} (h : Sound s t) : Sound s (dgRefuseWrite t) := by
  simp only [dgRefuseWrite]
  repeat' (first | with_reducible exact h | with_reducible assumption | (intro _; try dsimp only) | with_reducible apply each_sound | with_reducible apply inc_sound | with_reducible apply Sound.ite | with_reducible split | with_reducible apply Sound.hi_upd | with_reducible (refine Sound.upd ?_ ⟨rfl, rfl⟩))

theorem dgTouch_sound {s t : State} (h : Sound s t) : Sound s (dgTouch t) := by
  simp only [dgTouch]
  repeat' (first | with_reducible exact h | with_reducible assumption | (intro _; try dsimp only) | with_reducible apply Sound.ite | with_reducible split | with_reducible apply Sound.hi_upd | with_reducible (refine Sound.upd ?_ ⟨rfl, rfl⟩))

theorem dgClearRegs_sound {s t : State} (a0 : Fin 3) (h : Sound s t) : Sound s (dgClearRegs a0 t) := by
  simp only [dgClearRegs]
  repeat' (first | with_reducible exact h | with_reducible assumption | (intro _; try dsimp only) | with_reducible apply wrs_sound | with_reducible apply each_sound | with_reducible apply wr_sound | with_reducible apply Sound.ite | with_reducible split | with_reducible apply Sound.hi_upd | with_reducible (refine Sound.upd ?_ ⟨rfl, rfl⟩))

theorem dgEnd_sound {s t : State} (a0 : Fin 3) (h : Sound s t) : Sound s (dgEnd a0 t) := by
  simp only [dgEnd]
  repeat' (first | with_reducible exact h | with_reducible assumption | (intro _; try dsimp only) | with_reducible apply wrs_sound | with_reducible apply modDg_sound | with_reducible apply Sound.ite | with_reducible split | with_reducible apply Sound.hi_upd | with_reducible (refine Sound.upd ?_ ⟨rfl, rfl⟩))

theorem dgRelease_sound {s t : State} (a0 : Fin 3) (h : Sound s t) : Sound s (dgRelease a0 t) := by
  simp only [dgRelease]
  repeat' (first | with_reducible exact h | with_reducible assumption | (intro _; try dsimp only) | with_reducible apply modDg_sound | with_reducible apply dgClearRegs_sound | with_reducible apply dgEnd_sound | with_reducible apply wr_sound | with_reducible apply dgSetOwner_sound | with_reducible apply Sound.ite | with_reducible split | with_reducible apply Sound.hi_upd | with_reducible (refine Sound.upd ?_ ⟨rfl, rfl⟩))

theorem dgSuspend_sound {s t : State} (h : Sound s t) : Sound s (dgSuspend t) := by
  simp only [dgSuspend]
  repeat' (first | with_reducible exact h | with_reducible assumption | (intro _; try dsimp only) | with_reducible apply each_sound | with_reducible apply inc_sound | with_reducible apply wr_sound | with_reducible apply raise_sound | with_reducible apply Sound.ite | with_reducible split | with_reducible apply Sound.hi_upd | with_reducible (refine Sound.upd ?_ ⟨rfl, rfl⟩))

theorem dgGrant_sound {s t : State} (a0 : Fin 3) (h : Sound s t) : Sound s (dgGrant a0 t) := by
  simp only [dgGrant]
  repeat' (first | with_reducible exact h | with_reducible assumption | (intro _; try dsimp only) | with_reducible apply dgTouch_sound | with_reducible apply dgSetOwner_sound | with_reducible apply wrs_sound | with_reducible apply Sound.ite | with_reducible split | with_reducible apply Sound.hi_upd | with_reducible (refine Sound.upd ?_ ⟨rfl, rfl⟩))

theorem dgRefuseClaim_sound {s t : State} (a0 : Fin 3) (h : Sound s t) : Sound s (dgRefuseClaim a0 t) := by
  simp only [dgRefuseClaim]
  repeat' (first | with_reducible exact h | with_reducible assumption | (intro _; try dsimp only) | with_reducible apply each_sound | with_reducible apply inc_sound | with_reducible apply wrs_sound | with_reducible apply Sound.ite | with_reducible split | with_reducible apply Sound.hi_upd | with_reducible (refine Sound.upd ?_ ⟨rfl, rfl⟩))

theorem dgDisplace_sound {s t : State} (a0 : Fin 3) (h : Sound s t) : Sound s (dgDisplace a0 t) := by
  simp only [dgDisplace]
  repeat' (first | with_reducible exact h | with_reducible assumption | (intro _; try dsimp only) | with_reducible apply dgGrant_sound | with_reducible apply dgRefuseClaim_sound | with_reducible apply modDg_sound | with_reducible apply dgClearRegs_sound | with_reducible apply dgEnd_sound | with_reducible apply Sound.ite | with_reducible split | with_reducible apply Sound.hi_upd | with_reducible (refine Sound.upd ?_ ⟨rfl, rfl⟩))

theorem dgClaim_sound {s t : State} (a0 : Fin 3) (h : Sound s t) : Sound s (dgClaim a0 t) := by
  simp only [dgClaim]
  repeat' (first | with_reducible exact h | with_reducible assumption | (intro _; try dsimp only) | with_reducible apply dgGrant_sound | with_reducible apply wrs_sound | with_reducible apply dgDisplace_sound | with_reducible apply dgSuspend_sound | with_reducible apply dgRefuseClaim_sound | with_reducible apply Sound.ite | with_reducible split | with_reducible apply Sound.hi_upd | with_reducible (refine Sound.upd ?_ ⟨rfl, rfl⟩))

theorem dgBorrow_sound {s t : State} (h : Sound s t) : Sound s (dgBorrow t) := by
  simp only [dgBorrow]
  repeat' (first | with_reducible exact h | with_reducible assumption | (intro _; try dsimp only) | with_reducible apply wr_sound | with_reducible apply dgSuspend_sound | with_reducible apply Sound.ite | with_reducible split | with_reducible apply Sound.hi_upd | with_reducible (refine Sound.upd ?_ ⟨rfl, rfl⟩))

theorem dgCoachmanDown_sound {s t : State} (h : Sound s t) : Sound s (dgCoachmanDown t) := by
  simp only [dgCoachmanDown]
  repeat' (first | with_reducible exact h | with_reducible assumption | (intro _; try dsimp only) | with_reducible apply markBit_sound | with_reducible apply dgRelease_sound | with_reducible apply wr_sound | with_reducible apply modDg_sound | with_reducible apply dgClearRegs_sound | with_reducible apply Sound.ite | with_reducible split | with_reducible apply Sound.hi_upd | with_reducible (refine Sound.upd ?_ ⟨rfl, rfl⟩))

theorem dgWrite_sound {s t : State} (a0 : Fin 3) (a1 : Bool) {a2 : State → State} (ha2 : ∀ u, Sound s u → Sound s (a2 u)) (h : Sound s t) : Sound s (dgWrite a0 a1 a2 t) := by
  simp only [dgWrite]
  repeat' (first | with_reducible exact h | with_reducible assumption | with_reducible apply ha2 | (intro _; try dsimp only) | with_reducible apply dgTouch_sound | with_reducible apply dgRefuseWrite_sound | with_reducible apply markBit_sound | with_reducible apply Sound.ite | with_reducible split | with_reducible apply Sound.hi_upd | with_reducible (refine Sound.upd ?_ ⟨rfl, rfl⟩))

theorem dgNoResult_sound {s t : State} (a0 : Fin 3) (h : Sound s t) : Sound s (dgNoResult a0 t) := by
  simp only [dgNoResult]
  repeat' (first | with_reducible exact h | with_reducible assumption | (intro _; try dsimp only) | with_reducible apply each_sound | with_reducible apply wr_sound | with_reducible apply Sound.ite | with_reducible split | with_reducible apply Sound.hi_upd | with_reducible (refine Sound.upd ?_ ⟨rfl, rfl⟩))

theorem dgStart_sound {s t : State} (a0 : Fin 3) (h : Sound s t) : Sound s (dgStart a0 t) := by
  simp only [dgStart]
  repeat' (first | with_reducible exact h | with_reducible assumption | (intro _; try dsimp only) | with_reducible apply dgNoResult_sound | with_reducible apply dgEnd_sound | with_reducible apply clr_sound | with_reducible apply markBit_sound | with_reducible apply wr_sound | with_reducible apply Sound.ite | with_reducible split | with_reducible apply Sound.hi_upd | with_reducible (refine Sound.upd ?_ ⟨rfl, rfl⟩))

theorem dgData_sound {s t : State} (a0 : Fin 3) (a1 : Nat) (h : Sound s t) : Sound s (dgData a0 a1 t) := by
  simp only [dgData]
  repeat' (first | with_reducible exact h | with_reducible assumption | (intro _; try dsimp only) | with_reducible apply modDg_sound | with_reducible apply dgRefuseWrite_sound | with_reducible apply Sound.ite | with_reducible split | with_reducible apply Sound.hi_upd | with_reducible (refine Sound.upd ?_ ⟨rfl, rfl⟩))

theorem dgLast_sound {s t : State} (a0 : Fin 3) (a1 : Nat) (h : Sound s t) : Sound s (dgLast a0 a1 t) := by
  simp only [dgLast]
  repeat' (first | with_reducible exact h | with_reducible assumption | (intro _; try dsimp only) | with_reducible apply dgRefuseWrite_sound | with_reducible apply markBit_sound | with_reducible apply dgEnd_sound | with_reducible apply modDg_sound | with_reducible apply Sound.ite | with_reducible split | with_reducible apply Sound.hi_upd | with_reducible (refine Sound.upd ?_ ⟨rfl, rfl⟩))

theorem dgMemGo_sound {s t : State} (a0 : Fin 3) (h : Sound s t) : Sound s (dgMemGo a0 t) := by
  simp only [dgMemGo]
  repeat' (first | with_reducible exact h | with_reducible assumption | (intro _; try dsimp only) | with_reducible apply dgRefuseWrite_sound | with_reducible apply markBit_sound | with_reducible apply dgEnd_sound | with_reducible apply wr_sound | with_reducible apply modDg_sound | with_reducible apply Sound.ite | with_reducible split | with_reducible apply Sound.hi_upd | with_reducible (refine Sound.upd ?_ ⟨rfl, rfl⟩))

theorem dgKeyWrite_sound {s t : State} (a0 : Fin 3) (a1 : Nat) (a2 : Nat) (h : Sound s t) : Sound s (dgKeyWrite a0 a1 a2 t) := by
  simp only [dgKeyWrite]
  repeat' (first | with_reducible exact h | with_reducible assumption | (intro _; try dsimp only) | with_reducible apply modDg_sound | with_reducible apply Sound.ite | with_reducible split | with_reducible apply Sound.hi_upd | with_reducible (refine Sound.upd ?_ ⟨rfl, rfl⟩))

theorem hostErr_sound {s t : State} (a0 : HostErr) (a1 : Bool) (h : Sound s t) : Sound s (hostErr a0 a1 t) := by
  simp only [hostErr]
  repeat' (first | with_reducible exact h | with_reducible assumption | (intro _; try dsimp only) | with_reducible apply raise_sound | with_reducible apply inc_sound | with_reducible apply emit_sound | with_reducible apply Sound.ite | with_reducible split | with_reducible apply Sound.hi_upd | with_reducible (refine Sound.upd ?_ ⟨rfl, rfl⟩))

theorem hostTo_sound {s t : State} (a0 : Nat) (a1 : Bool) {a2 : State → State} (ha2 : ∀ u, Sound s u → Sound s (a2 u)) (h : Sound s t) : Sound s (hostTo a0 a1 a2 t) := by
  simp only [hostTo]
  repeat' (first | with_reducible exact h | with_reducible assumption | with_reducible apply ha2 | (intro _; try dsimp only) | with_reducible apply hostErr_sound | with_reducible apply emit_sound | with_reducible apply Sound.ite | with_reducible split | with_reducible apply Sound.hi_upd | with_reducible (refine Sound.upd ?_ ⟨rfl, rfl⟩))

theorem hostFrom_sound {s t : State} (a0 : Nat) (a1 : Bool) (a2 : State → Nat) {a3 : State → State} (ha3 : ∀ u, Sound s u → Sound s (a3 u)) (h : Sound s t) : Sound s (hostFrom a0 a1 a2 a3 t) := by
  simp only [hostFrom]
  repeat' (first | with_reducible exact h | with_reducible assumption | with_reducible apply ha3 | (intro _; try dsimp only) | with_reducible apply hostErr_sound | with_reducible apply emit_sound | with_reducible apply Sound.ite | with_reducible split | with_reducible apply Sound.hi_upd | with_reducible (refine Sound.upd ?_ ⟨rfl, rfl⟩))

theorem edgeApply_sound {s t : State} (a0 : Bool) (h : Sound s t) : Sound s (edgeApply a0 t) := by
  simp only [edgeApply]
  repeat' (first | with_reducible exact h | with_reducible assumption | (intro _; try dsimp only) | with_reducible apply each_sound | with_reducible apply modCx_sound | with_reducible apply Sound.ite | with_reducible split | with_reducible apply Sound.hi_upd | with_reducible (refine Sound.upd ?_ ⟨rfl, rfl⟩))

theorem cfgReject_sound {s t : State} (a0 : Nat) (h : Sound s t) : Sound s (cfgReject a0 t) := by
  simp only [cfgReject]
  repeat' (first | with_reducible exact h | with_reducible assumption | (intro _; try dsimp only) | with_reducible apply raise_sound | with_reducible apply wr_sound | with_reducible apply inc_sound | with_reducible apply Sound.ite | with_reducible split | with_reducible apply Sound.hi_upd | with_reducible (refine Sound.upd ?_ ⟨rfl, rfl⟩))

theorem writeField_sound {s t : State} (a0 : Nat) (a1 : Nat) (a2 : FRow) (hx : rweField a0 a2.lo = true ∨ a2.kind ≠ .rwe) (h : Sound s t) : Sound s (writeField a0 a1 a2 t) := by
  unfold writeField
  extract_lets f v
  refine Sound.ite h ?_
  cases hk : a2.kind with
  | rwe => exact rwePut_sound _ _ (hx.resolve_right (fun n => n hk)) h
  | rw => exact wr_sound _ _ h
  | rwl => exact Sound.ite h (wr_sound _ _ h)
  | w1c => exact wr_sound _ _ h
  | ro => exact h
  | wo => exact h

theorem dgField_sound {s t : State} (a0 : Fin 3) (a1 : Nat) (a2 : Nat) (a3 : FRow) (h : Sound s t) : Sound s (dgField a0 a1 a2 a3 t) := by
  simp only [dgField]
  repeat' (first | with_reducible exact h | with_reducible assumption | (intro _; try dsimp only) | with_reducible apply wr_sound | with_reducible apply clearBits_sound | with_reducible apply dgKeyWrite_sound | with_reducible apply Sound.ite | with_reducible split | with_reducible apply Sound.hi_upd | with_reducible (refine Sound.upd ?_ ⟨rfl, rfl⟩))

theorem dgRegWrite_sound {s t : State} (a0 : Fin 3) (a1 : Nat) (a2 : Nat) (h : Sound s t) : Sound s (dgRegWrite a0 a1 a2 t) := by
  simp only [dgRegWrite]
  repeat' (first | with_reducible exact h | with_reducible assumption | (intro _; try dsimp only) | with_reducible apply dgRefuseWrite_sound | with_reducible apply each_sound | with_reducible apply dgField_sound | with_reducible apply cfgReject_sound | with_reducible apply Sound.ite | with_reducible split | with_reducible apply Sound.hi_upd | with_reducible (refine Sound.upd ?_ ⟨rfl, rfl⟩))

theorem dgPairWrite_sound {s t : State} (a0 : Fin 3) (a1 : Nat) (a2 : Nat) (h : Sound s t) : Sound s (dgPairWrite a0 a1 a2 t) := by
  simp only [dgPairWrite]
  repeat' (first | with_reducible exact h | with_reducible assumption | (intro _; try dsimp only) | with_reducible apply dgRefuseWrite_sound | with_reducible apply each_sound | with_reducible apply wr_sound | with_reducible apply Sound.ite | with_reducible split | with_reducible apply Sound.hi_upd | with_reducible (refine Sound.upd ?_ ⟨rfl, rfl⟩))

theorem regWrite_sound {s t : State} (a0 : Nat) (a1 : Nat) (h : Sound s t) : Sound s (regWrite a0 a1 t) := by
  unfold regWrite
  refine Sound.ite (dgRegWrite_sound _ _ _ h) ?_
  split
  · exact h
  · rename_i r e
    refine Sound.ite (Sound.ite (cfgReject_sound _ h) (Sound.hi_upd _ _ h)) (Sound.ite h ?_)
    have k1 : Sound s (each r.fields (writeField a0 a1) t) := each_sound_mem _ (fun x hx v kv => writeField_sound _ _ _ (by
      by_cases hk : x.kind = .rwe
      · refine .inl ?_
        simp only [rweField, e]
        exact List.any_eq_true.2 ⟨x, hx, by simp [hk]⟩
      · exact .inr hk) kv) h
    exact settle_sound (Sound.ite (cfgReject_sound _ k1) k1)

theorem commitPair_sound {s t : State} (a0 : Nat) (a1 : Nat) (h : Sound s t) : Sound s (commitPair a0 a1 t) := by
  simp only [commitPair]
  repeat' (first | with_reducible exact h | with_reducible assumption | (intro _; try dsimp only) | with_reducible apply dgPairWrite_sound | with_reducible apply each_sound | with_reducible apply wr_sound | with_reducible apply cfgReject_sound | with_reducible apply Sound.ite | with_reducible split | with_reducible apply Sound.hi_upd | with_reducible (refine Sound.upd ?_ ⟨rfl, rfl⟩))

theorem bellK24_sound {s t : State} (a0 : Nat) (a1 : Nat) (h : Sound s t) : Sound s (bellK24 a0 a1 t) := by
  simp only [bellK24]
  repeat' (first | with_reducible exact h | with_reducible assumption | (intro _; try dsimp only) | with_reducible apply settle_sound | with_reducible apply markBits_sound | with_reducible apply Sound.ite | with_reducible split | with_reducible apply Sound.hi_upd | with_reducible (refine Sound.upd ?_ ⟨rfl, rfl⟩))

theorem bellHost_sound {s t : State} (a0 : Nat) (a1 : Nat) (h : Sound s t) : Sound s (bellHost a0 a1 t) := by
  simp only [bellHost]
  repeat' (first | with_reducible exact h | with_reducible assumption | (intro _; try dsimp only) | with_reducible apply settle_sound | with_reducible apply markBits_sound | with_reducible apply Sound.ite | with_reducible split | with_reducible apply Sound.hi_upd | with_reducible (refine Sound.upd ?_ ⟨rfl, rfl⟩))

theorem recordAbort_sound {s t : State} (a0 : Fin 6) (a1 : Nat) (h : Sound s t) : Sound s (recordAbort a0 a1 t) := by
  simp only [recordAbort]
  repeat' (first | with_reducible exact h | with_reducible assumption | (intro _; try dsimp only) | with_reducible apply wrs_sound | with_reducible apply markBit_sound | with_reducible apply bellHost_sound | with_reducible apply inc_sound | with_reducible apply Sound.ite | with_reducible split | with_reducible apply Sound.hi_upd | with_reducible (refine Sound.upd ?_ ⟨rfl, rfl⟩))

theorem h2kWrite_sound {s t : State} (a0 : Fin 6) (a1 : Nat) (h : Sound s t) : Sound s (h2kWrite a0 a1 t) := by
  simp only [h2kWrite]
  repeat' (first | with_reducible exact h | with_reducible assumption | (intro _; try dsimp only) | with_reducible apply inc_sound | with_reducible apply markBit_sound | with_reducible apply setChan_sound | with_reducible apply Sound.ite | with_reducible split | with_reducible apply Sound.hi_upd | with_reducible (refine Sound.upd ?_ ⟨rfl, rfl⟩))

theorem h2kDrop_sound {s t : State} (a0 : Fin 6) (h : Sound s t) : Sound s (h2kDrop a0 t) := by
  simp only [h2kDrop]
  repeat' (first | with_reducible exact h | with_reducible assumption | (intro _; try dsimp only) | with_reducible apply setChan_sound | with_reducible apply Sound.ite | with_reducible split | with_reducible apply Sound.hi_upd | with_reducible (refine Sound.upd ?_ ⟨rfl, rfl⟩))

theorem h2kDoCommit_sound {s t : State} (a0 : Fin 6) (h : Sound s t) : Sound s (h2kDoCommit a0 t) := by
  simp only [h2kDoCommit]
  repeat' (first | with_reducible exact h | with_reducible assumption | (intro _; try dsimp only) | with_reducible apply setChan_sound | with_reducible apply h2kDrop_sound | with_reducible apply inc_sound | with_reducible apply markBit_sound | with_reducible apply recordAbort_sound | with_reducible apply bellK24_sound | with_reducible apply Sound.ite | with_reducible split | with_reducible apply Sound.hi_upd | with_reducible (refine Sound.upd ?_ ⟨rfl, rfl⟩))

theorem k2hRead_sound {s t : State} (a0 : Fin 6) (h : Sound s t) : Sound s (k2hRead a0 t) := by
  simp only [k2hRead]
  repeat' (first | with_reducible exact h | with_reducible assumption | (intro _; try dsimp only) | with_reducible apply inc_sound | with_reducible apply markBit_sound | with_reducible apply bellK24_sound | with_reducible apply setChan_sound | with_reducible apply Sound.ite | with_reducible split | with_reducible apply Sound.hi_upd | with_reducible (refine Sound.upd ?_ ⟨rfl, rfl⟩))

theorem k2hPost_sound {s t : State} (a0 : Fin 6) (a1 : List Nat) (h : Sound s t) : Sound s (k2hPost a0 a1 t) := by
  simp only [k2hPost]
  repeat' (first | with_reducible exact h | with_reducible assumption | (intro _; try dsimp only) | with_reducible apply bellHost_sound | with_reducible apply setChan_sound | with_reducible apply Sound.ite | with_reducible split | with_reducible apply Sound.hi_upd | with_reducible (refine Sound.upd ?_ ⟨rfl, rfl⟩))

theorem postNotice_sound {s t : State} (a0 : Fin 6) (a1 : List Nat) (h : Sound s t) : Sound s (postNotice a0 a1 t) := by
  simp only [postNotice]
  repeat' (first | with_reducible exact h | with_reducible assumption | (intro _; try dsimp only) | with_reducible apply k2hPost_sound | with_reducible apply setChan_sound | with_reducible apply Sound.ite | with_reducible split | with_reducible apply Sound.hi_upd | with_reducible (refine Sound.upd ?_ ⟨rfl, rfl⟩))

theorem queueNotice_sound {s t : State} (a0 : Fin 6) (a1 : List Nat) (h : Sound s t) : Sound s (queueNotice a0 a1 t) := by
  simp only [queueNotice]
  repeat' (first | with_reducible exact h | with_reducible assumption | (intro _; try dsimp only) | with_reducible apply setChan_sound | with_reducible apply Sound.ite | with_reducible split | with_reducible apply Sound.hi_upd | with_reducible (refine Sound.upd ?_ ⟨rfl, rfl⟩))

theorem sendNotice_sound {s t : State} (a0 : Fin 6) (a1 : List Nat) (h : Sound s t) : Sound s (sendNotice a0 a1 t) := by
  simp only [sendNotice]
  repeat' (first | with_reducible exact h | with_reducible assumption | (intro _; try dsimp only) | with_reducible apply postNotice_sound | with_reducible apply queueNotice_sound | with_reducible apply Sound.ite | with_reducible split | with_reducible apply Sound.hi_upd | with_reducible (refine Sound.upd ?_ ⟨rfl, rfl⟩))

theorem notice_sound {s t : State} (a0 : Nat) (a1 : Nat) (a2 : Nat) (a3 : List Nat) (h : Sound s t) : Sound s (notice a0 a1 a2 a3 t) := by
  simp only [notice]
  repeat' (first | with_reducible exact h | with_reducible assumption | (intro _; try dsimp only) | with_reducible apply sendNotice_sound | with_reducible apply Sound.ite | with_reducible split | with_reducible apply Sound.hi_upd | with_reducible (refine Sound.upd ?_ ⟨rfl, rfl⟩))

theorem sbNotice_sound {s t : State} (a0 : Nat) (a1 : List Nat) (h : Sound s t) : Sound s (sbNotice a0 a1 t) := by
  simp only [sbNotice]
  repeat' (first | with_reducible exact h | with_reducible assumption | (intro _; try dsimp only) | with_reducible apply sendNotice_sound | with_reducible apply Sound.ite | with_reducible split | with_reducible apply Sound.hi_upd | with_reducible (refine Sound.upd ?_ ⟨rfl, rfl⟩))

theorem takeMsg_sound {s t : State} (a0 : Fin 6) (h : Sound s t) : Sound s (takeMsg a0 t) := by
  simp only [takeMsg]
  repeat' (first | with_reducible exact h | with_reducible assumption | (intro _; try dsimp only) | with_reducible apply setChan_sound | with_reducible apply bellHost_sound | with_reducible apply clearBits_sound | with_reducible apply Sound.ite | with_reducible split | with_reducible apply Sound.hi_upd | with_reducible (refine Sound.upd ?_ ⟨rfl, rfl⟩))

theorem answer_sound {s t : State} (a0 : Fin 6) (a1 : Bool) (a2 : Nat) (a3 : Nat) (a4 : Nat) (a5 : List Nat) (h : Sound s t) : Sound s (answer a0 a1 a2 a3 a4 a5 t) := by
  simp only [answer]
  repeat' (first | with_reducible exact h | with_reducible assumption | (intro _; try dsimp only) | with_reducible apply k2hPost_sound | with_reducible apply setChan_sound | with_reducible apply Sound.ite | with_reducible split | with_reducible apply Sound.hi_upd | with_reducible (refine Sound.upd ?_ ⟨rfl, rfl⟩))

theorem serve_sound {s t : State} (a0 : Fin 6) (a1 : List Nat) (a2 : Nat) {a3 : Req → State → State} (ha3 : ∀ x0 u, Sound s u → Sound s (a3 x0 u)) (h : Sound s t) : Sound s (serve a0 a1 a2 a3 t) := by
  simp only [serve]
  repeat' (first | with_reducible exact h | with_reducible assumption | with_reducible apply ha3 | (intro _; try dsimp only) | with_reducible apply takeMsg_sound | with_reducible apply Sound.ite | with_reducible split | with_reducible apply Sound.hi_upd | with_reducible (refine Sound.upd ?_ ⟨rfl, rfl⟩))

theorem reply_sound {s t : State} (a0 : Fin 6) (a1 : Req) (a2 : Nat) (a3 : List Nat) (h : Sound s t) : Sound s (reply a0 a1 a2 a3 t) := by
  simp only [reply]
  repeat' (first | with_reducible exact h | with_reducible assumption | (intro _; try dsimp only) | with_reducible apply answer_sound | with_reducible apply Sound.ite | with_reducible split | with_reducible apply Sound.hi_upd | with_reducible (refine Sound.upd ?_ ⟨rfl, rfl⟩))

theorem replyWith_sound {s t : State} (a0 : Fin 6) (a1 : Req) {a2 : State → Except Nat (List Nat × State)} (ha2 : ∀ u, Sound s u → ∀ b v, a2 u = .ok (b, v) → Sound s v) (h : Sound s t) : Sound s (replyWith a0 a1 a2 t) := by
  simp only [replyWith]
  split
  · exact reply_sound _ _ _ _ h
  · rename_i e; exact reply_sound _ _ _ _ (ha2 _ h _ _ e)

theorem endDeferred_sound {s t : State} (a0 : Deferred) (a1 : Nat) (a2 : List Nat) (h : Sound s t) : Sound s (endDeferred a0 a1 a2 t) := by
  simp only [endDeferred]
  repeat' (first | with_reducible exact h | with_reducible assumption | (intro _; try dsimp only) | with_reducible apply answer_sound | with_reducible apply Sound.ite | with_reducible split | with_reducible apply Sound.hi_upd | with_reducible (refine Sound.upd ?_ ⟨rfl, rfl⟩))

theorem abortAnswer_sound {s t : State} (a0 : Nat) (h : Sound s t) : Sound s (abortAnswer a0 t) := by
  simp only [abortAnswer]
  repeat' (first | with_reducible exact h | with_reducible assumption | (intro _; try dsimp only) | with_reducible apply endDeferred_sound | with_reducible apply Sound.ite | with_reducible split | with_reducible apply Sound.hi_upd | with_reducible (refine Sound.upd ?_ ⟨rfl, rfl⟩))

theorem defer_sound {s t : State} (a0 : Fin 6) (a1 : Req) (a2 : Nat) (a3 : List Nat) (a4 : List Byte) (h : Sound s t) : Sound s (defer a0 a1 a2 a3 a4 t) := by
  simp only [defer]
  repeat' (first | with_reducible exact h | with_reducible assumption | (intro _; try dsimp only) | with_reducible apply Sound.ite | with_reducible split | with_reducible apply Sound.hi_upd | with_reducible (refine Sound.upd ?_ ⟨rfl, rfl⟩))

theorem abortDeferred_sound {s t : State} (a0 : Nat) (h : Sound s t) : Sound s (abortDeferred a0 t) := by
  simp only [abortDeferred]
  repeat' (first | with_reducible exact h | with_reducible assumption | (intro _; try dsimp only) | with_reducible apply endDeferred_sound | with_reducible apply Sound.ite | with_reducible split | with_reducible apply Sound.hi_upd | with_reducible (refine Sound.upd ?_ ⟨rfl, rfl⟩))

theorem discardMsg_sound {s t : State} (a0 : Fin 6) (h : Sound s t) : Sound s (discardMsg a0 t) := by
  simp only [discardMsg]
  repeat' (first | with_reducible exact h | with_reducible assumption | (intro _; try dsimp only) | with_reducible apply recordAbort_sound | with_reducible apply setChan_sound | with_reducible apply Sound.ite | with_reducible split | with_reducible apply Sound.hi_upd | with_reducible (refine Sound.upd ?_ ⟨rfl, rfl⟩))

theorem chanDown_sound {s t : State} (a0 : Fin 6) (h : Sound s t) : Sound s (chanDown a0 t) := by
  simp only [chanDown]
  repeat' (first | with_reducible exact h | with_reducible assumption | (intro _; try dsimp only) | with_reducible apply setChan_sound | with_reducible apply discardMsg_sound | with_reducible apply h2kDrop_sound | with_reducible apply wr_sound | with_reducible apply bellHost_sound | with_reducible apply Sound.ite | with_reducible split | with_reducible apply Sound.hi_upd | with_reducible (refine Sound.upd ?_ ⟨rfl, rfl⟩))

theorem reportAbort_sound {s t : State} (a0 : Fin 6) (h : Sound s t) : Sound s (reportAbort a0 t) := by
  simp only [reportAbort]
  repeat' (first | with_reducible exact h | with_reducible assumption | (intro _; try dsimp only) | with_reducible apply postNotice_sound | with_reducible apply wr_sound | with_reducible apply Sound.ite | with_reducible split | with_reducible apply Sound.hi_upd | with_reducible (refine Sound.upd ?_ ⟨rfl, rfl⟩))

theorem fwStart_sound {s t : State} (a0 : Proc) (h : Sound s t) : Sound s (fwStart a0 t) := by
  simp only [fwStart]
  repeat' (first | with_reducible exact h | with_reducible assumption | (intro _; try dsimp only) | with_reducible apply wr_sound | with_reducible apply each_sound | with_reducible apply settle_sound | with_reducible apply reportAbort_sound | with_reducible apply setChan_sound | with_reducible apply Sound.ite | with_reducible split | with_reducible apply Sound.hi_upd | with_reducible (refine Sound.upd ?_ ⟨rfl, rfl⟩))

theorem freeReins_sound {s t : State} (h : Sound s t) : Sound s (freeReins t) := by
  simp only [freeReins]
  repeat' (first | with_reducible exact h | with_reducible assumption | (intro _; try dsimp only) | with_reducible apply each_sound | with_reducible apply reinSet_sound | with_reducible apply Sound.ite | with_reducible split | with_reducible apply Sound.hi_upd | with_reducible (refine Sound.upd ?_ ⟨rfl, rfl⟩))

theorem coachmanLost_sound {s t : State} (h : Sound s t) : Sound s (coachmanLost t) := by
  simp only [coachmanLost]
  repeat' (first | with_reducible exact h | with_reducible assumption | (intro _; try dsimp only) | with_reducible apply wr_sound | with_reducible apply freeReins_sound | with_reducible apply dgCoachmanDown_sound | with_reducible apply each_sound | with_reducible apply Sound.ite | with_reducible split | with_reducible apply Sound.hi_upd | with_reducible (refine Sound.upd ?_ ⟨rfl, rfl⟩))

theorem setPeer_sound {s t : State} (a0 : Proc) (a1 : Nat) (h : Sound s t) : Sound s (setPeer a0 a1 t) := by
  simp only [setPeer]
  repeat' (first | with_reducible exact h | with_reducible assumption | (intro _; try dsimp only) | with_reducible apply coachmanLost_sound | with_reducible apply each_sound | with_reducible apply wr_sound | with_reducible apply settle_sound | with_reducible apply chanDown_sound | with_reducible apply fwStart_sound | with_reducible apply Sound.ite | with_reducible split | with_reducible apply Sound.hi_upd | with_reducible (refine Sound.upd ?_ ⟨rfl, rfl⟩))

theorem fwRead_sound {s t : State} (a0 : Fin 6) (h : Sound s t) : Sound s (fwRead a0 t) := by
  simp only [fwRead]
  repeat' (first | with_reducible exact h | with_reducible assumption | (intro _; try dsimp only) | with_reducible apply free_sound | with_reducible apply setChan_sound | with_reducible apply Sound.ite | with_reducible split | with_reducible apply Sound.hi_upd | with_reducible (refine Sound.upd ?_ ⟨rfl, rfl⟩))

theorem fwRest_sound {s t : State} (a0 : Proc) (h : Sound s t) : Sound s (fwRest a0 t) := by
  simp only [fwRest]
  repeat' (first | with_reducible exact h | with_reducible assumption | (intro _; try dsimp only) | with_reducible apply free_sound | with_reducible apply each_sound | with_reducible apply wr_sound | with_reducible apply Sound.ite | with_reducible split | with_reducible apply Sound.hi_upd | with_reducible (refine Sound.upd ?_ ⟨rfl, rfl⟩))

theorem fwCycle_sound {s t : State} (h : Sound s t) : Sound s (fwCycle t) := by
  simp only [fwCycle]
  repeat' (first | with_reducible exact h | with_reducible assumption | (intro _; try dsimp only) | with_reducible apply fwRest_sound | with_reducible apply each_sound | with_reducible apply fwRead_sound | with_reducible apply Sound.ite | with_reducible split | with_reducible apply Sound.hi_upd | with_reducible (refine Sound.upd ?_ ⟨rfl, rfl⟩))

theorem senderTo_sound {s t : State} (a0 : Fin 6) (a1 : Nat) (a2 : Bool) {a3 : State → State} (ha3 : ∀ u, Sound s u → Sound s (a3 u)) (h : Sound s t) : Sound s (senderTo a0 a1 a2 a3 t) := by
  simp only [senderTo]
  repeat' (first | with_reducible exact h | with_reducible assumption | with_reducible apply ha3 | (intro _; try dsimp only) | with_reducible apply hostTo_sound | with_reducible apply Sound.ite | with_reducible split | with_reducible apply Sound.hi_upd | with_reducible (refine Sound.upd ?_ ⟨rfl, rfl⟩))

theorem takeHostBells_sound {s t : State} (h : Sound s t) : Sound s (takeHostBells t) := by
  simp only [takeHostBells]
  repeat' (first | with_reducible exact h | with_reducible assumption | (intro _; try dsimp only) | with_reducible apply settle_sound | with_reducible apply clearBits_sound | with_reducible apply Sound.ite | with_reducible split | with_reducible apply Sound.hi_upd | with_reducible (refine Sound.upd ?_ ⟨rfl, rfl⟩))

theorem takeBells_sound {s t : State} (a0 : Fin 6) (h : Sound s t) : Sound s (takeBells a0 t) := by
  simp only [takeBells]
  repeat' (first | with_reducible exact h | with_reducible assumption | (intro _; try dsimp only) | with_reducible apply each_sound | with_reducible apply modCx_sound | with_reducible apply settle_sound | with_reducible apply clearBits_sound | with_reducible apply Sound.ite | with_reducible split | with_reducible apply Sound.hi_upd | with_reducible (refine Sound.upd ?_ ⟨rfl, rfl⟩))

theorem showSliced_sound {s t : State} (h : Sound s t) : Sound s (showSliced t) := by
  simp only [showSliced]
  repeat' (first | with_reducible exact h | with_reducible assumption | (intro _; try dsimp only) | with_reducible apply each_sound | with_reducible apply wrs_sound | with_reducible apply Sound.ite | with_reducible split | with_reducible apply Sound.hi_upd | with_reducible (refine Sound.upd ?_ ⟨rfl, rfl⟩))

theorem showProf_sound {s t : State} (h : Sound s t) : Sound s (showProf t) := by
  simp only [showProf]
  repeat' (first | with_reducible exact h | with_reducible assumption | (intro _; try dsimp only) | with_reducible apply each_sound | with_reducible apply wrB_sound | with_reducible apply Sound.ite | with_reducible split | with_reducible apply Sound.hi_upd | with_reducible (refine Sound.upd ?_ ⟨rfl, rfl⟩))

theorem scrubStart_sound {s t : State} (a0 : Coach) (h : Sound s t) : Sound s (scrubStart a0 t) := by
  simp only [scrubStart]
  repeat' (first | with_reducible exact h | with_reducible assumption | (intro _; try dsimp only) | with_reducible apply wrs_sound | with_reducible apply setCo_sound | with_reducible apply Sound.ite | with_reducible split | with_reducible apply Sound.hi_upd | with_reducible (refine Sound.upd ?_ ⟨rfl, rfl⟩))

theorem coachTake_sound {s t : State} (a0 : Coach) (a1 : Ctx) (h : Sound s t) : Sound s (coachTake a0 a1 t) := by
  simp only [coachTake]
  repeat' (first | with_reducible exact h | with_reducible assumption | (intro _; try dsimp only) | with_reducible apply wrs_sound | with_reducible apply modCx_sound | with_reducible apply modCo_sound | with_reducible apply Sound.ite | with_reducible split | with_reducible apply Sound.hi_upd | with_reducible (refine Sound.upd ?_ ⟨rfl, rfl⟩))

theorem coachFree_sound {s t : State} (a0 : Coach) (h : Sound s t) : Sound s (coachFree a0 t) := by
  simp only [coachFree]
  repeat' (first | with_reducible exact h | with_reducible assumption | (intro _; try dsimp only) | with_reducible apply coachTake_sound | with_reducible apply wrs_sound | with_reducible apply Sound.ite | with_reducible split | with_reducible apply Sound.hi_upd | with_reducible (refine Sound.upd ?_ ⟨rfl, rfl⟩))

theorem profAdd_sound {s t : State} (a0 : Coach) (a1 : Fld) (a2 : Nat) (h : Sound s t) : Sound s (profAdd a0 a1 a2 t) := by
  simp only [profAdd]
  repeat' (first | with_reducible exact h | with_reducible assumption | (intro _; try dsimp only) | with_reducible apply add_sound | with_reducible apply Sound.ite | with_reducible split | with_reducible apply Sound.hi_upd | with_reducible (refine Sound.upd ?_ ⟨rfl, rfl⟩))

theorem syncSettle_sound {s t : State} (a0 : Coach) (h : Sound s t) : Sound s (syncSettle a0 t) := by
  simp only [syncSettle]
  repeat' (first | with_reducible exact h | with_reducible assumption | (intro _; try dsimp only) | with_reducible apply modCo_sound | with_reducible apply profAdd_sound | with_reducible apply add_sound | with_reducible apply Sound.ite | with_reducible split | with_reducible apply Sound.hi_upd | with_reducible (refine Sound.upd ?_ ⟨rfl, rfl⟩))

theorem runTo_sound {s t : State} (a0 : Coach) (a1 : Nat) (h : Sound s t) : Sound s (runTo a0 a1 t) := by
  simp only [runTo]
  repeat' (first | with_reducible exact h | with_reducible assumption | (intro _; try dsimp only) | with_reducible apply modCo_sound | with_reducible apply setCo_sound | with_reducible apply markBit_sound | with_reducible apply add_sound | with_reducible apply profAdd_sound | with_reducible apply Sound.ite | with_reducible split | with_reducible apply Sound.hi_upd | with_reducible (refine Sound.upd ?_ ⟨rfl, rfl⟩))

theorem stallTo_sound {s t : State} (a0 : Coach) (a1 : Nat) (h : Sound s t) : Sound s (stallTo a0 a1 t) := by
  simp only [stallTo]
  repeat' (first | with_reducible exact h | with_reducible assumption | (intro _; try dsimp only) | with_reducible apply profAdd_sound | with_reducible apply modCo_sound | with_reducible apply Sound.ite | with_reducible split | with_reducible apply Sound.hi_upd | with_reducible (refine Sound.upd ?_ ⟨rfl, rfl⟩))

theorem queueRoll_sound {s t : State} (a0 : Coach) (h : Sound s t) : Sound s (queueRoll a0 t) := by
  simp only [queueRoll]
  repeat' (first | with_reducible exact h | with_reducible assumption | (intro _; try dsimp only) | with_reducible apply add_sound | with_reducible apply modCo_sound | with_reducible apply Sound.ite | with_reducible split | with_reducible apply Sound.hi_upd | with_reducible (refine Sound.upd ?_ ⟨rfl, rfl⟩))

theorem coachSettle_sound {s t : State} (a0 : Coach) (h : Sound s t) : Sound s (coachSettle a0 t) := by
  simp only [coachSettle]
  repeat' (first | with_reducible exact h | with_reducible assumption | (intro _; try dsimp only) | with_reducible apply syncSettle_sound | with_reducible apply queueRoll_sound | with_reducible apply stallTo_sound | with_reducible apply runTo_sound | with_reducible apply Sound.ite | with_reducible split | with_reducible apply Sound.hi_upd | with_reducible (refine Sound.upd ?_ ⟨rfl, rfl⟩))

theorem coachStop_sound {s t : State} (a0 : Coach) (h : Sound s t) : Sound s (coachStop a0 t) := by
  simp only [coachStop]
  repeat' (first | with_reducible exact h | with_reducible assumption | (intro _; try dsimp only) | with_reducible apply modCo_sound | with_reducible apply coachSettle_sound | with_reducible apply wr_sound | with_reducible apply Sound.ite | with_reducible split | with_reducible apply Sound.hi_upd | with_reducible (refine Sound.upd ?_ ⟨rfl, rfl⟩))

theorem gigSettle_sound {s t : State} (h : Sound s t) : Sound s (gigSettle t) := by
  simp only [gigSettle]
  repeat' (first | with_reducible exact h | with_reducible assumption | (intro _; try dsimp only) | with_reducible apply free_sound | with_reducible apply add_sound | with_reducible apply Sound.ite | with_reducible split | with_reducible apply Sound.hi_upd | with_reducible (refine Sound.upd ?_ ⟨rfl, rfl⟩))

theorem showGig_sound {s t : State} (h : Sound s t) : Sound s (showGig t) := by
  simp only [showGig]
  repeat' (first | with_reducible exact h | with_reducible assumption | (intro _; try dsimp only) | with_reducible apply wr_sound | with_reducible apply Sound.ite | with_reducible split | with_reducible apply Sound.hi_upd | with_reducible (refine Sound.upd ?_ ⟨rfl, rfl⟩))

theorem gigFree_sound {s t : State} (a0 : Nat) (h : Sound s t) : Sound s (gigFree a0 t) := by
  simp only [gigFree]
  repeat' (first | with_reducible exact h | with_reducible assumption | (intro _; try dsimp only) | with_reducible apply showGig_sound | with_reducible apply wrs_sound | with_reducible apply Sound.ite | with_reducible split | with_reducible apply Sound.hi_upd | with_reducible (refine Sound.upd ?_ ⟨rfl, rfl⟩))

theorem gigStop_sound {s t : State} (h : Sound s t) : Sound s (gigStop t) := by
  simp only [gigStop]
  repeat' (first | with_reducible exact h | with_reducible assumption | (intro _; try dsimp only) | with_reducible apply gigSettle_sound | with_reducible apply gigFree_sound | with_reducible apply Sound.ite | with_reducible split | with_reducible apply Sound.hi_upd | with_reducible (refine Sound.upd ?_ ⟨rfl, rfl⟩))

theorem settleUnits_sound {s t : State} (h : Sound s t) : Sound s (settleUnits t) := by
  simp only [settleUnits]
  repeat' (first | with_reducible exact h | with_reducible assumption | (intro _; try dsimp only) | with_reducible apply gigSettle_sound | with_reducible apply each_sound | with_reducible apply coachSettle_sound | with_reducible apply Sound.ite | with_reducible split | with_reducible apply Sound.hi_upd | with_reducible (refine Sound.upd ?_ ⟨rfl, rfl⟩))

theorem stopUnits_sound {s t : State} (a0 : Ctx) (h : Sound s t) : Sound s (stopUnits a0 t) := by
  simp only [stopUnits]
  repeat' (first | with_reducible exact h | with_reducible assumption | (intro _; try dsimp only) | with_reducible apply gigStop_sound | with_reducible apply each_sound | with_reducible apply coachStop_sound | with_reducible apply Sound.ite | with_reducible split | with_reducible apply Sound.hi_upd | with_reducible (refine Sound.upd ?_ ⟨rfl, rfl⟩))

theorem disarmSlots_sound {s t : State} (a0 : Ctx) (h : Sound s t) : Sound s (disarmSlots a0 t) := by
  simp only [disarmSlots]
  repeat' (first | with_reducible exact h | with_reducible assumption | (intro _; try dsimp only) | with_reducible apply each_sound | with_reducible apply wr_sound | with_reducible apply Sound.ite | with_reducible split | with_reducible apply Sound.hi_upd | with_reducible (refine Sound.upd ?_ ⟨rfl, rfl⟩))

theorem disarmJob_sound {s t : State} (a0 : Ctx) (h : Sound s t) : Sound s (disarmJob a0 t) := by
  simp only [disarmJob]
  repeat' (first | with_reducible exact h | with_reducible assumption | (intro _; try dsimp only) | with_reducible apply each_sound | with_reducible apply wr_sound | with_reducible apply Sound.ite | with_reducible split | with_reducible apply Sound.hi_upd | with_reducible (refine Sound.upd ?_ ⟨rfl, rfl⟩))

theorem disarmRow_sound {s t : State} (a0 : Nat) (a1 : Ctx) (a2 : Nat) (h : Sound s t) : Sound s (disarmRow a0 a1 a2 t) := by
  simp only [disarmRow]
  repeat' (first | with_reducible exact h | with_reducible assumption | (intro _; try dsimp only) | with_reducible apply each_sound | with_reducible apply wr_sound | with_reducible apply Sound.ite | with_reducible split | with_reducible apply Sound.hi_upd | with_reducible (refine Sound.upd ?_ ⟨rfl, rfl⟩))

theorem armSlot_sound {s t : State} (a0 : Nat) (a1 : Nat) (a2 : Nat) (a3 : Nat) (h : Sound s t) : Sound s (armSlot a0 a1 a2 a3 t) := by
  simp only [armSlot]
  repeat' (first | with_reducible exact h | with_reducible assumption | (intro _; try dsimp only) | with_reducible apply wrs_sound | with_reducible apply Sound.ite | with_reducible split | with_reducible apply Sound.hi_upd | with_reducible (refine Sound.upd ?_ ⟨rfl, rfl⟩))

theorem mpFence_sound {s t : State} (a0 : Ctx) (h : Sound s t) : Sound s (mpFence a0 t) := by
  simp only [mpFence]
  repeat' (first | with_reducible exact h | with_reducible assumption | (intro _; try dsimp only) | with_reducible apply wr_sound | with_reducible apply each_sound | with_reducible apply modCo_sound | with_reducible apply modCx_sound | with_reducible apply Sound.ite | with_reducible split | with_reducible apply Sound.hi_upd | with_reducible (refine Sound.upd ?_ ⟨rfl, rfl⟩))

theorem presentTx_sound {s t : State} (a0 : Bool) (a1 : Nat) (a2 : Nat) (a3 : Nat) (a4 : Nat) (a5 : Nat) (a6 : Dest) (a7 : Nat) (a8 : Nat) (a9 : Nat) (a10 : List Byte) (h : Sound s t) : ∀ v, presentTx a0 a1 a2 a3 a4 a5 a6 a7 a8 a9 a10 t = some v → Sound s v := by
  intro v hv
  simp only [presentTx] at hv
  split at hv
  · cases hv
  · cases hv
    exact emit_sound _ (Sound.upd h ⟨rfl, rfl⟩)

theorem ownPush_sound {s t : State} (a0 : Own) (h : Sound s t) : Sound s (ownPush a0 t) := by
  simp only [ownPush]
  repeat' (first | with_reducible exact h | with_reducible assumption | (intro _; try dsimp only) | with_reducible apply Sound.ite | with_reducible split | with_reducible apply Sound.hi_upd | with_reducible (refine Sound.upd ?_ ⟨rfl, rfl⟩))

theorem ownReadFor_sound {s t : State} (a0 : Dest) (a1 : Nat) (a2 : Nat) (a3 : Nat) (a4 : Nat) (a5 : Nat) (a6 : Nat) (h : Sound s t) : Sound s (ownReadFor a0 a1 a2 a3 a4 a5 a6 t) := by
  simp only [ownReadFor]
  repeat' (first | with_reducible exact h | with_reducible assumption | (intro _; try dsimp only) | with_reducible apply ownPush_sound | with_reducible apply Sound.ite | with_reducible split | with_reducible apply Sound.hi_upd | with_reducible (refine Sound.upd ?_ ⟨rfl, rfl⟩))

theorem ownRead_sound {s t : State} (a0 : Nat) (a1 : Nat) (a2 : Nat) (a3 : Nat) (a4 : Nat) (h : Sound s t) : Sound s (ownRead a0 a1 a2 a3 a4 t) := by
  simp only [ownRead]
  repeat' (first | with_reducible exact h | with_reducible assumption | (intro _; try dsimp only) | with_reducible apply ownReadFor_sound | with_reducible apply Sound.ite | with_reducible split | with_reducible apply Sound.hi_upd | with_reducible (refine Sound.upd ?_ ⟨rfl, rfl⟩))

theorem ownWrite_sound {s t : State} (a0 : Nat) (a1 : Nat) (a2 : Nat) (a3 : Nat) (a4 : Nat) (a5 : Nat) (a6 : List Byte) (h : Sound s t) : Sound s (ownWrite a0 a1 a2 a3 a4 a5 a6 t) := by
  simp only [ownWrite]
  repeat' (first | with_reducible exact h | with_reducible assumption | (intro _; try dsimp only) | with_reducible apply ownPush_sound | with_reducible apply Sound.ite | with_reducible split | with_reducible apply Sound.hi_upd | with_reducible (refine Sound.upd ?_ ⟨rfl, rfl⟩))

theorem initPush_sound {s t : State} (a0 : Bool) (a1 : Nat) (a2 : Nat) (a3 : Nat) (a4 : List Byte) (h : Sound s t) : Sound s (initPush a0 a1 a2 a3 a4 t) := by
  simp only [initPush]
  repeat' (first | with_reducible exact h | with_reducible assumption | (intro _; try dsimp only) | with_reducible apply Sound.ite | with_reducible split | with_reducible apply Sound.hi_upd | with_reducible (refine Sound.upd ?_ ⟨rfl, rfl⟩))

theorem modRow_sound {s t : State} (a0 : Ctx) (a1 : Nat) (a2 : RowSt → RowSt) (h : Sound s t) : Sound s (modRow a0 a1 a2 t) := by
  simp only [modRow]
  repeat' (first | with_reducible exact h | with_reducible assumption | (intro _; try dsimp only) | with_reducible apply modCx_sound | with_reducible apply Sound.ite | with_reducible split | with_reducible apply Sound.hi_upd | with_reducible (refine Sound.upd ?_ ⟨rfl, rfl⟩))

theorem faultRecord_sound {s t : State} (a0 : Nat) (a1 : FaultRec) (h : Sound s t) : Sound s (faultRecord a0 a1 t) := by
  simp only [faultRecord]
  repeat' (first | with_reducible exact h | with_reducible assumption | (intro _; try dsimp only) | with_reducible apply inc_sound | with_reducible apply clr_sound | with_reducible apply wrs_sound | with_reducible apply Sound.ite | with_reducible split | with_reducible apply Sound.hi_upd | with_reducible (refine Sound.upd ?_ ⟨rfl, rfl⟩))

theorem episodeEnd_sound {s t : State} (a0 : Nat) (h : Sound s t) : Sound s (episodeEnd a0 t) := by
  simp only [episodeEnd]
  repeat' (first | with_reducible exact h | with_reducible assumption | (intro _; try dsimp only) | with_reducible apply wr_sound | with_reducible apply settle_sound | with_reducible apply Sound.ite | with_reducible split | with_reducible apply Sound.hi_upd | with_reducible (refine Sound.upd ?_ ⟨rfl, rfl⟩))

theorem faultNotice_sound {s t : State} (a0 : FaultRec) (h : Sound s t) : Sound s (faultNotice a0 t) := by
  simp only [faultNotice]
  repeat' (first | with_reducible exact h | with_reducible assumption | (intro _; try dsimp only) | with_reducible apply notice_sound | with_reducible apply Sound.ite | with_reducible split | with_reducible apply Sound.hi_upd | with_reducible (refine Sound.upd ?_ ⟨rfl, rfl⟩))

theorem holdStage_sound {s t : State} (a0 : Coach) (h : Sound s t) : Sound s (holdStage a0 t) := by
  unfold holdStage
  extract_lets u
  have hu : Sound s u := syncSettle_sound _ h
  clear_value u
  split
  · exact hu
  · extract_lets img
    split
    · exact hu
    · exact modCo_sound _ _ hu

theorem unholdStage_sound {s t : State} (a0 : Coach) (h : Sound s t) : Sound s (unholdStage a0 t) := by
  unfold unholdStage
  split
  · exact h
  · exact modCo_sound _ _ h

theorem emitTagged_sound {s t : State} (a0 : Nat) (a1 : Out) (h : Sound s t) : Sound s (emitTagged a0 a1 t) := by
  unfold emitTagged
  exact Sound.ite (Sound.upd h ⟨rfl, rfl⟩) (emit_sound _ h)

theorem holdStart_sound {s t : State} (a0 : Bool) (a1 : Nat) (h : Sound s t) : Sound s (holdStart a0 a1 t) := by
  simp only [holdStart]
  repeat' (first | with_reducible exact h | with_reducible assumption | (intro _; try dsimp only) | with_reducible apply wr_sound | with_reducible apply Sound.ite | with_reducible split | with_reducible apply Sound.hi_upd | with_reducible (refine Sound.upd ?_ ⟨rfl, rfl⟩))

theorem takeSource_sound {s t : State} (a0 : Target) (a1 : Bool) (a2 : Nat) (h : Sound s t) : Sound s (takeSource a0 a1 a2 t) := by
  simp only [takeSource]
  repeat' (first | with_reducible exact h | with_reducible assumption | (intro _; try dsimp only) | with_reducible apply dropMoved_sound | with_reducible apply clearBits_sound | with_reducible apply holdStart_sound | with_reducible apply Sound.ite | with_reducible split | with_reducible apply Sound.hi_upd | with_reducible (refine Sound.upd ?_ ⟨rfl, rfl⟩))

theorem claim_sound {s t : State} (a0 : Target) (a1 : Bool) (h : Sound s t) : Sound s (claim a0 a1 t) := by
  simp only [claim]
  repeat' (first | with_reducible exact h | with_reducible assumption | (intro _; try dsimp only) | with_reducible apply takeSource_sound | with_reducible apply Sound.ite | with_reducible split | with_reducible apply Sound.hi_upd | with_reducible (refine Sound.upd ?_ ⟨rfl, rfl⟩))

theorem complete_sound {s t : State} (a0 : Target) (a1 : Bool) (a2 : Nat) (h : Sound s t) : Sound s (complete a0 a1 a2 t) := by
  simp only [complete]
  repeat' (first | with_reducible exact h | with_reducible assumption | (intro _; try dsimp only) | with_reducible apply wr_sound | with_reducible apply inc_sound | with_reducible apply Sound.ite | with_reducible split | with_reducible apply Sound.hi_upd | with_reducible (refine Sound.upd ?_ ⟨rfl, rfl⟩))

theorem pendWrite_sound {s t : State} (a0 : Bool) (a1 : Nat) (a2 : Bool) (h : Sound s t) : Sound s (pendWrite a0 a1 a2 t) := by
  simp only [pendWrite]
  repeat' (first | with_reducible exact h | with_reducible assumption | (intro _; try dsimp only) | with_reducible apply wr_sound | with_reducible apply dropMoved_sound | with_reducible apply clearBits_sound | with_reducible apply Sound.ite | with_reducible split | with_reducible apply Sound.hi_upd | with_reducible (refine Sound.upd ?_ ⟨rfl, rfl⟩))

theorem lanternReturn_sound {s t : State} (h : Sound s t) : Sound s (lanternReturn t) := by
  simp only [lanternReturn]
  repeat' (first | with_reducible exact h | with_reducible assumption | (intro _; try dsimp only) | with_reducible apply each_sound | with_reducible apply wr_sound | with_reducible apply Sound.ite | with_reducible split | with_reducible apply Sound.hi_upd | with_reducible (refine Sound.upd ?_ ⟨rfl, rfl⟩))

theorem evCycle_sound {s t : State} (h : Sound s t) : Sound s (evCycle t) := by
  simp only [evCycle]
  repeat' (first | with_reducible exact h | with_reducible assumption | (intro _; try dsimp only) | with_reducible apply each_sound | with_reducible apply wr_sound | with_reducible apply latch_sound | with_reducible apply Sound.ite | with_reducible split | with_reducible apply Sound.hi_upd | with_reducible (refine Sound.upd ?_ ⟨rfl, rfl⟩))

theorem otpSense_sound {s t : State} (h : Sound s t) : Sound s (otpSense t) := by
  simp only [otpSense]
  repeat' (first | with_reducible exact h | with_reducible assumption | (intro _; try dsimp only) | with_reducible apply each_sound | with_reducible apply wrs_sound | with_reducible apply wr_sound | with_reducible apply raise_sound | with_reducible apply Sound.ite | with_reducible split | with_reducible apply Sound.hi_upd | with_reducible (refine Sound.upd ?_ ⟨rfl, rfl⟩))

theorem otpPartly_sound {s t : State} (a0 : Nat) (a1 : Nat) (h : Sound s t) : Sound s (otpPartly a0 a1 t) := by
  simp only [otpPartly]
  repeat' (first | with_reducible exact h | with_reducible assumption | (intro _; try dsimp only) | with_reducible apply free_sound | with_reducible apply otpBlow_sound | with_reducible apply Sound.ite | with_reducible split | with_reducible apply Sound.hi_upd | with_reducible (refine Sound.upd ?_ ⟨rfl, rfl⟩))

theorem otpBlowBit_sound {s t : State} (a0 : List Nat) (a1 : Nat) (h : Sound s t) : Sound s (otpBlowBit a0 a1 t) := by
  simp only [otpBlowBit]
  repeat' (first | with_reducible exact h | with_reducible assumption | (intro _; try dsimp only) | with_reducible apply each_sound | with_reducible apply otpBlow_sound | with_reducible apply Sound.ite | with_reducible split | with_reducible apply Sound.hi_upd | with_reducible (refine Sound.upd ?_ ⟨rfl, rfl⟩))

theorem otpLock_sound {s t : State} (a0 : Nat) (h : Sound s t) : Sound s (otpLock a0 t) := by
  simp only [otpLock]
  repeat' (first | with_reducible exact h | with_reducible assumption | (intro _; try dsimp only) | with_reducible apply otpBlowBit_sound | with_reducible apply Sound.ite | with_reducible split | with_reducible apply Sound.hi_upd | with_reducible (refine Sound.upd ?_ ⟨rfl, rfl⟩))

theorem otpPut_sound {s t : State} (a0 : Nat) (a1 : Bool) (a2 : Nat × Nat) (h : Sound s t) : Sound s (otpPut a0 a1 a2 t) := by
  simp only [otpPut]
  repeat' (first | with_reducible exact h | with_reducible assumption | (intro _; try dsimp only) | with_reducible apply otpBlow_sound | with_reducible apply otpPartly_sound | with_reducible apply Sound.ite | with_reducible split | with_reducible apply Sound.hi_upd | with_reducible (refine Sound.upd ?_ ⟨rfl, rfl⟩))

theorem otpProgram_sound {s t : State} (a0 : Nat) (a1 : List Byte) (a2 : Bool) (h : Sound s t) : Sound s (otpProgram a0 a1 a2 t).2 := by
  simp only [otpProgram]
  repeat' (first | with_reducible exact h | with_reducible assumption | (intro _; try dsimp only) | with_reducible apply each_sound | with_reducible apply otpPut_sound | with_reducible apply otpLock_sound | with_reducible apply Sound.ite | with_reducible split | with_reducible apply Sound.hi_upd | with_reducible (refine Sound.upd ?_ ⟨rfl, rfl⟩))

theorem otpAdvance_sound {s t : State} (a0 : Nat) (h : Sound s t) : Sound s (otpAdvance a0 t) := by
  simp only [otpAdvance]
  repeat' (first | with_reducible exact h | with_reducible assumption | (intro _; try dsimp only) | with_reducible apply each_sound | with_reducible apply otpBlowBit_sound | with_reducible apply wr_sound | with_reducible apply Sound.ite | with_reducible split | with_reducible apply Sound.hi_upd | with_reducible (refine Sound.upd ?_ ⟨rfl, rfl⟩))

theorem otpRefuse_sound {s t : State} (a0 : Nat) (h : Sound s t) : Sound s (otpRefuse a0 t) := by
  simp only [otpRefuse]
  repeat' (first | with_reducible exact h | with_reducible assumption | (intro _; try dsimp only) | with_reducible apply wr_sound | with_reducible apply markBit_sound | with_reducible apply Sound.ite | with_reducible split | with_reducible apply Sound.hi_upd | with_reducible (refine Sound.upd ?_ ⟨rfl, rfl⟩))

theorem otpGo_sound {s t : State} (a0 : Bool) (h : Sound s t) : Sound s (otpGo a0 t) := by
  simp only [otpGo]
  repeat' (first | with_reducible exact h | with_reducible assumption | (intro _; try dsimp only) | with_reducible apply otpRefuse_sound | with_reducible apply wrs_sound | with_reducible apply Sound.ite | with_reducible split | with_reducible apply Sound.hi_upd | with_reducible (refine Sound.upd ?_ ⟨rfl, rfl⟩))

theorem otpLockPartly_sound {s t : State} (a0 : Nat) (h : Sound s t) : Sound s (otpLockPartly a0 t) := by
  simp only [otpLockPartly]
  repeat' (first | with_reducible exact h | with_reducible assumption | (intro _; try dsimp only) | with_reducible apply each_sound | with_reducible apply otpPartly_sound | with_reducible apply Sound.ite | with_reducible split | with_reducible apply Sound.hi_upd | with_reducible (refine Sound.upd ?_ ⟨rfl, rfl⟩))

theorem otpEnd_sound {s t : State} (a0 : Bool) (a1 : OtpOp) (h : Sound s t) : Sound s (otpEnd a0 a1 t) := by
  simp only [otpEnd]
  repeat' (first | with_reducible exact h | with_reducible assumption | (intro _; try dsimp only) | with_reducible apply markBit_sound | with_reducible apply otpLock_sound | with_reducible apply otpLockPartly_sound | with_reducible apply otpBlow_sound | with_reducible apply otpPartly_sound | with_reducible apply wrs_sound | with_reducible apply Sound.ite | with_reducible split | with_reducible apply Sound.hi_upd | with_reducible (refine Sound.upd ?_ ⟨rfl, rfl⟩))

theorem otpFirst_sound {s t : State} (h : Sound s t) : Sound s (otpFirst t) := by
  simp only [otpFirst]
  repeat' (first | with_reducible exact h | with_reducible assumption | (intro _; try dsimp only) | with_reducible apply otpRefuse_sound | with_reducible apply wrs_sound | with_reducible apply Sound.ite | with_reducible split | with_reducible apply Sound.hi_upd | with_reducible (refine Sound.upd ?_ ⟨rfl, rfl⟩))

theorem otpCut_sound {s t : State} (a0 : KeyEntry) (h : Sound s t) : Sound s (otpCut a0 t) := by
  simp only [otpCut]
  repeat' (first | with_reducible exact h | with_reducible assumption | (intro _; try dsimp only) | with_reducible apply free_sound | with_reducible apply each_sound | with_reducible apply otpPut_sound | with_reducible apply otpLockPartly_sound | with_reducible apply Sound.ite | with_reducible split | with_reducible apply Sound.hi_upd | with_reducible (refine Sound.upd ?_ ⟨rfl, rfl⟩))

theorem otpAbandon_sound {s t : State} (h : Sound s t) : Sound s (otpAbandon t) := by
  simp only [otpAbandon]
  repeat' (first | with_reducible exact h | with_reducible assumption | (intro _; try dsimp only) | with_reducible apply otpLockPartly_sound | with_reducible apply otpPartly_sound | with_reducible apply otpCut_sound | with_reducible apply each_sound | with_reducible apply Sound.ite | with_reducible split | with_reducible apply Sound.hi_upd | with_reducible (refine Sound.upd ?_ ⟨rfl, rfl⟩))

theorem extendMR_sound {s t : State} (a0 : Nat) (a1 : Nat) (a2 : Nat) (a3 : List Byte) (h : Sound s t) : Sound s (extendMR a0 a1 a2 a3 t) := by
  simp only [extendMR]
  repeat' (first | with_reducible exact h | with_reducible assumption | (intro _; try dsimp only) | with_reducible apply dgBorrow_sound | with_reducible apply each_sound | with_reducible apply wr_sound | with_reducible apply inc_sound | with_reducible apply wrs_sound | with_reducible apply Sound.ite | with_reducible split | with_reducible apply Sound.hi_upd | with_reducible (refine Sound.upd ?_ ⟨rfl, rfl⟩))

theorem loadSlotKey_sound {s t : State} (a0 : Ctx) (h : Sound s t) : Sound s (loadSlotKey a0 t) := by
  simp only [loadSlotKey]
  repeat' (first | with_reducible exact h | with_reducible assumption | (intro _; try dsimp only) | with_reducible apply wr_sound | with_reducible apply raise_sound | with_reducible apply modCx_sound | with_reducible apply Sound.ite | with_reducible split | with_reducible apply Sound.hi_upd | with_reducible (refine Sound.upd ?_ ⟨rfl, rfl⟩))

theorem signWith_sound {s t : State} (a0 : Nat) (a1 : List Byte) (h : Sound s t) : Sound s (signWith a0 a1 t).2 := by
  simp only [signWith]
  repeat' (first | with_reducible exact h | with_reducible assumption | (intro _; try dsimp only) | with_reducible apply free_sound | with_reducible apply Sound.ite | with_reducible split | with_reducible apply Sound.hi_upd | with_reducible (refine Sound.upd ?_ ⟨rfl, rfl⟩))

theorem loadItem_sound {s t : State} (a0 : Nat × Nat × Nat × Nat × List Byte) (h : Sound s t) : Sound s (loadItem a0 t).2 := by
  simp only [loadItem]
  repeat' (first | with_reducible exact h | with_reducible assumption | (intro _; try dsimp only) | with_reducible apply inc_sound | with_reducible apply Sound.ite | with_reducible split | with_reducible apply Sound.hi_upd | with_reducible (refine Sound.upd ?_ ⟨rfl, rfl⟩))

theorem statement_sound {s t : State} (a0 : Option Ctx) (a1 : Bool) (a2 : List Byte) (h : Sound s t) : Sound s (statement a0 a1 a2 t).2 := by
  simp only [statement]
  repeat' (first | with_reducible exact h | with_reducible assumption | (intro _; try dsimp only) | with_reducible apply signWith_sound | with_reducible apply raise_sound | with_reducible apply Sound.ite | with_reducible split | with_reducible apply Sound.hi_upd | with_reducible (refine Sound.upd ?_ ⟨rfl, rfl⟩))

theorem finalCheckpoint_sound {s t : State} (a0 : Ctx) (h : Sound s t) : Sound s (finalCheckpoint a0 t) := by
  simp only [finalCheckpoint]
  repeat' (first | with_reducible exact h | with_reducible assumption | (intro _; try dsimp only) | with_reducible apply statement_sound | with_reducible apply wr_sound | with_reducible apply modCx_sound | with_reducible apply Sound.ite | with_reducible split | with_reducible apply Sound.hi_upd | with_reducible (refine Sound.upd ?_ ⟨rfl, rfl⟩))

theorem ledgerOpen_sound {s t : State} (a0 : Ctx) (h : Sound s t) : Sound s (ledgerOpen a0 t) := by
  simp only [ledgerOpen]
  repeat' (first | with_reducible exact h | with_reducible assumption | (intro _; try dsimp only) | with_reducible apply modCx_sound | with_reducible apply wrs_sound | with_reducible apply Sound.ite | with_reducible split | with_reducible apply Sound.hi_upd | with_reducible (refine Sound.upd ?_ ⟨rfl, rfl⟩))

theorem ledgerAbsorb_sound {s t : State} (a0 : Ctx) (a1 : Nat) (a2 : List Byte) (h : Sound s t) : Sound s (ledgerAbsorb a0 a1 a2 t) := by
  simp only [ledgerAbsorb]
  repeat' (first | with_reducible exact h | with_reducible assumption | (intro _; try dsimp only) | with_reducible apply modCx_sound | with_reducible apply inc_sound | with_reducible apply Sound.ite | with_reducible split | with_reducible apply Sound.hi_upd | with_reducible (refine Sound.upd ?_ ⟨rfl, rfl⟩))

theorem ledgerStart_sound {s t : State} (a0 : Ctx) (a1 : Nat) (h : Sound s t) : Sound s (ledgerStart a0 a1 t) := by
  simp only [ledgerStart]
  repeat' (first | with_reducible exact h | with_reducible assumption | (intro _; try dsimp only) | with_reducible apply ledgerAbsorb_sound | with_reducible apply Sound.ite | with_reducible split | with_reducible apply Sound.hi_upd | with_reducible (refine Sound.upd ?_ ⟨rfl, rfl⟩))

theorem ledgerEnd_sound {s t : State} (a0 : Ctx) (a1 : Nat) (h : Sound s t) : Sound s (ledgerEnd a0 a1 t) := by
  simp only [ledgerEnd]
  repeat' (first | with_reducible exact h | with_reducible assumption | (intro _; try dsimp only) | with_reducible apply finalCheckpoint_sound | with_reducible apply ledgerAbsorb_sound | with_reducible apply Sound.ite | with_reducible split | with_reducible apply Sound.hi_upd | with_reducible (refine Sound.upd ?_ ⟨rfl, rfl⟩))

theorem ledgerRow_sound {s t : State} (a0 : Ctx) (a1 : RowSt) (a2 : Option (List Byte)) (h : Sound s t) : Sound s (ledgerRow a0 a1 a2 t) := by
  simp only [ledgerRow]
  repeat' (first | with_reducible exact h | with_reducible assumption | (intro _; try dsimp only) | with_reducible apply modCx_sound | with_reducible apply dgBorrow_sound | with_reducible apply ledgerAbsorb_sound | with_reducible apply each_sound | with_reducible apply Sound.ite | with_reducible split | with_reducible apply Sound.hi_upd | with_reducible (refine Sound.upd ?_ ⟨rfl, rfl⟩))

theorem modPort_sound {s t : State} (a0 : LinkPort) (a1 : PortSt → PortSt) (h : Sound s t) : Sound s (modPort a0 a1 t) := by
  simp only [modPort]
  repeat' (first | with_reducible exact h | with_reducible assumption | (intro _; try dsimp only) | with_reducible apply Sound.ite | with_reducible split | with_reducible apply Sound.hi_upd | with_reducible (refine Sound.upd ?_ ⟨rfl, rfl⟩))

theorem showHead_sound {s t : State} (h : Sound s t) : Sound s (showHead t) := by
  simp only [showHead]
  repeat' (first | with_reducible exact h | with_reducible assumption | (intro _; try dsimp only) | with_reducible apply wrB_sound | with_reducible apply Sound.ite | with_reducible split | with_reducible apply Sound.hi_upd | with_reducible (refine Sound.upd ?_ ⟨rfl, rfl⟩))

theorem portSend_sound {s t : State} (a0 : LinkPort) (a1 : LinkFrame) (h : Sound s t) : Sound s (portSend a0 a1 t) := by
  unfold portSend
  exact Sound.ite h (Sound.ite (emitTagged_sound _ _ (modPort_sound _ _ h)) (Sound.ite h (Sound.ite (modPort_sound _ _ h) (modPort_sound _ _ h))))

theorem linkCycle_sound {s t : State} (h : Sound s t) : Sound s (linkCycle t) := by
  simp only [linkCycle]
  repeat' (first | with_reducible exact h | with_reducible assumption | (intro _; try dsimp only) | with_reducible apply each_sound | with_reducible apply emit_sound | with_reducible apply modPort_sound | with_reducible apply Sound.ite | with_reducible split | with_reducible apply Sound.hi_upd | with_reducible (refine Sound.upd ?_ ⟨rfl, rfl⟩))

theorem forward_sound {s t : State} (a0 : LinkPort) (a1 : LinkFrame) (h : Sound s t) : Sound s (forward a0 a1 t) := by
  simp only [forward]
  repeat' (first | with_reducible exact h | with_reducible assumption | (intro _; try dsimp only) | with_reducible apply portSend_sound | with_reducible apply Sound.ite | with_reducible split | with_reducible apply Sound.hi_upd | with_reducible (refine Sound.upd ?_ ⟨rfl, rfl⟩))

theorem originate_sound {s t : State} (a0 : List LinkPort) (a1 : Nat) (a2 : Nat) (a3 : Bool) (a4 : Nat) (a5 : Nat) (a6 : List Byte) (h : Sound s t) : Sound s (originate a0 a1 a2 a3 a4 a5 a6 t) := by
  simp only [originate]
  repeat' (first | with_reducible exact h | with_reducible assumption | (intro _; try dsimp only) | with_reducible apply each_sound | with_reducible apply portSend_sound | with_reducible apply Sound.ite | with_reducible split | with_reducible apply Sound.hi_upd | with_reducible (refine Sound.upd ?_ ⟨rfl, rfl⟩))

theorem sendControl_sound {s t : State} (a0 : List LinkPort) (a1 : Nat) (a2 : Nat) (a3 : Bool) (a4 : Nat) (a5 : List Byte) (h : Sound s t) : Sound s (sendControl a0 a1 a2 a3 a4 a5 t) := by
  simp only [sendControl]
  repeat' (first | with_reducible exact h | with_reducible assumption | (intro _; try dsimp only) | with_reducible apply originate_sound | with_reducible apply Sound.ite | with_reducible split | with_reducible apply Sound.hi_upd | with_reducible (refine Sound.upd ?_ ⟨rfl, rfl⟩))

theorem abortNote_sound {s t : State} (a0 : Nat) (a1 : Nat) (a2 : Nat) (a3 : Nat) (h : Sound s t) : Sound s (abortNote a0 a1 a2 a3 t) := by
  simp only [abortNote]
  repeat' (first | with_reducible exact h | with_reducible assumption | (intro _; try dsimp only) | with_reducible apply wrs_sound | with_reducible apply inc_sound | with_reducible apply notice_sound | with_reducible apply Sound.ite | with_reducible split | with_reducible apply Sound.hi_upd | with_reducible (refine Sound.upd ?_ ⟨rfl, rfl⟩))

theorem fenceJob_sound {s t : State} (a0 : Ctx) (h : Sound s t) : Sound s (fenceJob a0 t) := by
  simp only [fenceJob]
  repeat' (first | with_reducible exact h | with_reducible assumption | (intro _; try dsimp only) | with_reducible apply mpFence_sound | with_reducible apply disarmJob_sound | with_reducible apply stopUnits_sound | with_reducible apply modCx_sound | with_reducible apply abortDeferred_sound | with_reducible apply Sound.ite | with_reducible split | with_reducible apply Sound.hi_upd | with_reducible (refine Sound.upd ?_ ⟨rfl, rfl⟩))

theorem originateAbort_sound {s t : State} (a0 : Nat) (a1 : Nat) (h : Sound s t) : Sound s (originateAbort a0 a1 t) := by
  simp only [originateAbort]
  repeat' (first | with_reducible exact h | with_reducible assumption | (intro _; try dsimp only) | with_reducible apply originate_sound | with_reducible apply abortNote_sound | with_reducible apply Sound.ite | with_reducible split | with_reducible apply Sound.hi_upd | with_reducible (refine Sound.upd ?_ ⟨rfl, rfl⟩))

theorem clearKeys_sound {s t : State} (h : Sound s t) : Sound s (clearKeys t) := by
  simp only [clearKeys]
  repeat' (first | with_reducible exact h | with_reducible assumption | (intro _; try dsimp only) | with_reducible apply each_sound | with_reducible apply modCx_sound | with_reducible apply Sound.ite | with_reducible split | with_reducible apply Sound.hi_upd | with_reducible (refine Sound.upd ?_ ⟨rfl, rfl⟩))

theorem unitClear_sound {s t : State} (a0 : Nat) (h : Sound s t) : Sound s (unitClear a0 t) := by
  simp only [unitClear]
  repeat' (first | with_reducible exact h | with_reducible assumption | (intro _; try dsimp only) | with_reducible apply setCo_sound | with_reducible apply clearKeys_sound | with_reducible apply otpAbandon_sound | with_reducible apply Sound.ite | with_reducible split | with_reducible apply Sound.hi_upd | with_reducible (refine Sound.upd ?_ ⟨rfl, rfl⟩))

theorem domainReset_sound {s t : State} (a0 : Nat) (h : Sound s t) : Sound s (domainReset a0 t) := by
  unfold domainReset
  extract_lets s0 kept s1 s2 s3 s4
  have h0 : Sound s s0 := Sound.ite (wr_sound _ _ (coachmanLost_sound h)) h
  have h2 : Sound s s2 := unitClear_sound _ (forgetRegs_sound _ h0)
  have h3 : Sound s s3 := Sound.ite (Sound.regs_upd _ h2 (SMap.wf_foldl_set _ _ _)) h2
  have h4 : Sound s s4 := Sound.ite (clr_sound _ (Sound.regs_upd _ h3 (SMap.wf_forget _ _ _))) h3
  exact settle_sound h4

theorem switchOff_sound {s t : State} (a0 : Nat) (h : Sound s t) : Sound s (switchOff a0 t) := by
  simp only [switchOff]
  repeat' (first | with_reducible exact h | with_reducible assumption | (intro _; try dsimp only) | with_reducible apply wr_sound | with_reducible apply holdFall_sound | with_reducible apply settle_sound | with_reducible apply Sound.ite | with_reducible split | with_reducible apply Sound.hi_upd | with_reducible (refine Sound.upd ?_ ⟨rfl, rfl⟩))

theorem powerOff_sound {s t : State} (a0 : Nat) (h : Sound s t) : Sound s (powerOff a0 t) := by
  simp only [powerOff]
  repeat' (first | with_reducible exact h | with_reducible assumption | (intro _; try dsimp only) | with_reducible apply wr_sound | with_reducible apply switchOff_sound | with_reducible apply Sound.ite | with_reducible split | with_reducible apply Sound.hi_upd | with_reducible (refine Sound.upd ?_ ⟨rfl, rfl⟩))

theorem powerLost_sound {s t : State} (a0 : Nat) (h : Sound s t) : Sound s (powerLost a0 t) := by
  simp only [powerLost]
  repeat' (first | with_reducible exact h | with_reducible assumption | (intro _; try dsimp only) | with_reducible apply holdFall_sound | with_reducible apply domainReset_sound | with_reducible apply wrs_sound | with_reducible apply Sound.ite | with_reducible split | with_reducible apply Sound.hi_upd | with_reducible (refine Sound.upd ?_ ⟨rfl, rfl⟩))

theorem lanternBegin_sound {s t : State} (h : Sound s t) : Sound s (lanternBegin t) := by
  simp only [lanternBegin]
  repeat' (first | with_reducible exact h | with_reducible assumption | (intro _; try dsimp only) | with_reducible apply Sound.ite | with_reducible split | with_reducible apply Sound.hi_upd | with_reducible (refine Sound.upd ?_ ⟨rfl, rfl⟩))

theorem allOff_sound {s t : State} (h : Sound s t) : Sound s (allOff t) := by
  simp only [allOff]
  repeat' (first | with_reducible exact h | with_reducible assumption | (intro _; try dsimp only) | with_reducible apply each_sound | with_reducible apply powerLost_sound | with_reducible apply lanternBegin_sound | with_reducible apply wr_sound | with_reducible apply forgetRegs_sound | with_reducible apply settle_sound | with_reducible apply Sound.ite | with_reducible split | with_reducible apply Sound.hi_upd | with_reducible (refine Sound.upd ?_ ⟨rfl, rfl⟩))

theorem countFltReset_sound {s t : State} (h : Sound s t) : Sound s (countFltReset t) := by
  simp only [countFltReset]
  repeat' (first | with_reducible exact h | with_reducible assumption | (intro _; try dsimp only) | with_reducible apply add_sound | with_reducible apply inc_sound | with_reducible apply Sound.ite | with_reducible split | with_reducible apply Sound.hi_upd | with_reducible (refine Sound.upd ?_ ⟨rfl, rfl⟩))

theorem beginReset_sound {s t : State} (a0 : Nat) (a1 : Bool) (h : Sound s t) : Sound s (beginReset a0 a1 t) := by
  simp only [beginReset]
  repeat' (first | with_reducible exact h | with_reducible assumption | (intro _; try dsimp only) | with_reducible apply countFltReset_sound | with_reducible apply wr_sound | with_reducible apply inc_sound | with_reducible apply lanternBegin_sound | with_reducible apply each_sound | with_reducible apply wrs_sound | with_reducible apply settle_sound | with_reducible apply holdFall_sound | with_reducible apply Sound.ite | with_reducible split | with_reducible apply Sound.hi_upd | with_reducible (refine Sound.upd ?_ ⟨rfl, rfl⟩))

theorem pwrRequest_sound {s t : State} (a0 : Proc) (a1 : Nat) (a2 : Bool) (h : Sound s t) : Sound s (pwrRequest a0 a1 a2 t).2 := by
  simp only [pwrRequest]
  repeat' (first | with_reducible exact h | with_reducible assumption | (intro _; try dsimp only) | with_reducible apply wrs_sound | with_reducible apply inc_sound | with_reducible apply powerOn_sound | with_reducible apply powerOff_sound | with_reducible apply Sound.ite | with_reducible split | with_reducible apply Sound.hi_upd | with_reducible (refine Sound.upd ?_ ⟨rfl, rfl⟩))

theorem portsUp_sound {s t : State} (h : Sound s t) : Sound s (portsUp t) := by
  simp only [portsUp]
  repeat' (first | with_reducible exact h | with_reducible assumption | (intro _; try dsimp only) | with_reducible apply free_sound | with_reducible apply wrs_sound | with_reducible apply Sound.ite | with_reducible split | with_reducible apply Sound.hi_upd | with_reducible (refine Sound.upd ?_ ⟨rfl, rfl⟩))

theorem channelsUp_sound {s t : State} (h : Sound s t) : Sound s (channelsUp t) := by
  simp only [channelsUp]
  repeat' (first | with_reducible exact h | with_reducible assumption | (intro _; try dsimp only) | with_reducible apply lanternReturn_sound | with_reducible apply setPeer_sound | with_reducible apply unmask_sound | with_reducible apply Sound.ite | with_reducible split | with_reducible apply Sound.hi_upd | with_reducible (refine Sound.upd ?_ ⟨rfl, rfl⟩))

theorem rampDone_sound {s t : State} (a0 : Nat) (h : Sound s t) : Sound s (rampDone a0 t) := by
  unfold rampDone
  extract_lets src1 s1 src0 s2 s3 s4 src2 s5 src3 src5 s6 s7 s8 src4
  have h1 : Sound s s1 := Sound.upd h ⟨rfl, rfl⟩
  have h2 : Sound s s2 := by
    simp only [s2]
    clear_value s1
    split
    · exact h1
    · exact Sound.upd h1 ⟨rfl, rfl⟩
  have h3 : Sound s s3 := showProf_sound (wrs_sound _ h2)
  have h4 : Sound s s4 := Sound.ite (channelsUp_sound h3) h3
  have h5 : Sound s s5 := Sound.ite (portsUp_sound (Sound.upd h4 ⟨rfl, rfl⟩)) h4
  have h6 : Sound s s6 := Sound.ite (showHead_sound (Sound.upd h5 ⟨rfl, rfl⟩)) h5
  have h7 : Sound s s7 := raise_sound _ (settle_sound h6)
  have h8 : Sound s s8 := by
    simp only [s8]
    clear_value s7
    split
    · exact Sound.ite (scrubStart_sound _ h7) h7
    · exact h7
  exact Sound.ite (switchOff_sound _ (wrB_sound _ _ (Sound.upd h8 ⟨rfl, rfl⟩))) h8

theorem sleepStep_sound {s t : State} (h : Sound s t) : Sound s (sleepStep t) := by
  simp only [sleepStep]
  repeat' (first | with_reducible exact h | with_reducible assumption | (intro _; try dsimp only) | with_reducible apply holdFall_sound | with_reducible apply reinSet_sound | with_reducible apply wr_sound | with_reducible apply each_sound | with_reducible apply powerLost_sound | with_reducible apply lanternBegin_sound | with_reducible apply allOff_sound | with_reducible apply wake_sound | with_reducible apply Sound.ite | with_reducible split | with_reducible apply Sound.hi_upd | with_reducible (refine Sound.upd ?_ ⟨rfl, rfl⟩))

theorem setLevel_sound {s t : State} (a0 : Nat) (h : Sound s t) : Sound s (setLevel a0 t) := by
  simp only [setLevel]
  repeat' (first | with_reducible exact h | with_reducible assumption | (intro _; try dsimp only) | with_reducible apply settle_sound | with_reducible apply wr_sound | with_reducible apply notice_sound | with_reducible apply Sound.ite | with_reducible split | with_reducible apply Sound.hi_upd | with_reducible (refine Sound.upd ?_ ⟨rfl, rfl⟩))

theorem inputTaken_sound {s t : State} (a0 : PressIn) (h : Sound s t) : Sound s (inputTaken a0 t) := by
  simp only [inputTaken]
  repeat' (first | with_reducible exact h | with_reducible assumption | (intro _; try dsimp only) | with_reducible apply Sound.ite | with_reducible split | with_reducible apply Sound.hi_upd | with_reducible (refine Sound.upd ?_ ⟨rfl, rfl⟩))

theorem showRate_sound {s t : State} (h : Sound s t) : Sound s (showRate t) := by
  simp only [showRate]
  repeat' (first | with_reducible exact h | with_reducible assumption | (intro _; try dsimp only) | with_reducible apply wr_sound | with_reducible apply Sound.ite | with_reducible split | with_reducible apply Sound.hi_upd | with_reducible (refine Sound.upd ?_ ⟨rfl, rfl⟩))

theorem spoilRows_sound {s t : State} (h : Sound s t) : Sound s (spoilRows t) := by
  simp only [spoilRows]
  repeat' (first | with_reducible exact h | with_reducible assumption | (intro _; try dsimp only) | with_reducible apply each_sound | with_reducible apply modCx_sound | with_reducible apply Sound.ite | with_reducible split | with_reducible apply Sound.hi_upd | with_reducible (refine Sound.upd ?_ ⟨rfl, rfl⟩))

theorem ttEnter_sound {s t : State} (a0 : Nat) (h : Sound s t) : Sound s (ttEnter a0 t) := by
  simp only [ttEnter]
  repeat' (first | with_reducible exact h | with_reducible assumption | (intro _; try dsimp only) | with_reducible apply wr_sound | with_reducible apply spoilRows_sound | with_reducible apply raise_sound | with_reducible apply showRate_sound | with_reducible apply Sound.ite | with_reducible split | with_reducible apply Sound.hi_upd | with_reducible (refine Sound.upd ?_ ⟨rfl, rfl⟩))

theorem encoderFault_sound {s t : State} (a0 : Nat) (h : Sound s t) : Sound s (encoderFault a0 t) := by
  simp only [encoderFault]
  repeat' (first | with_reducible exact h | with_reducible assumption | (intro _; try dsimp only) | with_reducible apply notice_sound | with_reducible apply raise_sound | with_reducible apply Sound.ite | with_reducible split | with_reducible apply Sound.hi_upd | with_reducible (refine Sound.upd ?_ ⟨rfl, rfl⟩))

theorem ttFault_sound {s t : State} (a0 : Nat) (h : Sound s t) : Sound s (ttFault a0 t) := by
  simp only [ttFault]
  repeat' (first | with_reducible exact h | with_reducible assumption | (intro _; try dsimp only) | with_reducible apply encoderFault_sound | with_reducible apply wr_sound | with_reducible apply ttEnter_sound | with_reducible apply Sound.ite | with_reducible split | with_reducible apply Sound.hi_upd | with_reducible (refine Sound.upd ?_ ⟨rfl, rfl⟩))

theorem faultLeave_sound {s t : State} (h : Sound s t) : Sound s (faultLeave t) := by
  simp only [faultLeave]
  repeat' (first | with_reducible exact h | with_reducible assumption | (intro _; try dsimp only) | with_reducible apply ttEnter_sound | with_reducible apply Sound.ite | with_reducible split | with_reducible apply Sound.hi_upd | with_reducible (refine Sound.upd ?_ ⟨rfl, rfl⟩))

theorem dropRecords_sound {s t : State} (a0 : Nat → Bool) (a1 : Ctx) (h : Sound s t) : Sound s (dropRecords a0 a1 t) := by
  simp only [dropRecords]
  repeat' (first | with_reducible exact h | with_reducible assumption | (intro _; try dsimp only) | with_reducible apply each_sound | with_reducible apply modCo_sound | with_reducible apply Sound.ite | with_reducible split | with_reducible apply Sound.hi_upd | with_reducible (refine Sound.upd ?_ ⟨rfl, rfl⟩))

theorem discardRows_sound {s t : State} (a0 : RowSt → Bool) (a1 : Ctx) (h : Sound s t) : Sound s (discardRows a0 a1 t) := by
  simp only [discardRows]
  repeat' (first | with_reducible exact h | with_reducible assumption | (intro _; try dsimp only) | with_reducible apply dropRecords_sound | with_reducible apply modCx_sound | with_reducible apply add_sound | with_reducible apply Sound.ite | with_reducible split | with_reducible apply Sound.hi_upd | with_reducible (refine Sound.upd ?_ ⟨rfl, rfl⟩))

theorem reverseDeep_sound {s t : State} (h : Sound s t) : Sound s (reverseDeep t) := by
  simp only [reverseDeep]
  repeat' (first | with_reducible exact h | with_reducible assumption | (intro _; try dsimp only) | with_reducible apply each_sound | with_reducible apply discardRows_sound | with_reducible apply wr_sound | with_reducible apply encoderFault_sound | with_reducible apply ttFault_sound | with_reducible apply Sound.ite | with_reducible split | with_reducible apply Sound.hi_upd | with_reducible (refine Sound.upd ?_ ⟨rfl, rfl⟩))

theorem overspeedLine_sound {s t : State} (h : Sound s t) : Sound s (overspeedLine t) := by
  simp only [overspeedLine]
  repeat' (first | with_reducible exact h | with_reducible assumption | (intro _; try dsimp only) | with_reducible apply raise_sound | with_reducible apply wr_sound | with_reducible apply notice_sound | with_reducible apply Sound.ite | with_reducible split | with_reducible apply Sound.hi_upd | with_reducible (refine Sound.upd ?_ ⟨rfl, rfl⟩))

theorem countLine_sound {s t : State} (h : Sound s t) : Sound s (countLine t) := by
  simp only [countLine]
  repeat' (first | with_reducible exact h | with_reducible assumption | (intro _; try dsimp only) | with_reducible apply overspeedLine_sound | with_reducible apply wr_sound | with_reducible apply ttEnter_sound | with_reducible apply Sound.ite | with_reducible split | with_reducible apply Sound.hi_upd | with_reducible (refine Sound.upd ?_ ⟨rfl, rfl⟩))

theorem returnLine_sound {s t : State} (h : Sound s t) : Sound s (returnLine t) := by
  simp only [returnLine]
  repeat' (first | with_reducible exact h | with_reducible assumption | (intro _; try dsimp only) | with_reducible apply wr_sound | with_reducible apply ttEnter_sound | with_reducible apply Sound.ite | with_reducible split | with_reducible apply Sound.hi_upd | with_reducible (refine Sound.upd ?_ ⟨rfl, rfl⟩))

theorem boundaryForward_sound {s t : State} (h : Sound s t) : Sound s (boundaryForward t) := by
  simp only [boundaryForward]
  repeat' (first | with_reducible exact h | with_reducible assumption | (intro _; try dsimp only) | with_reducible apply countLine_sound | with_reducible apply ttEnter_sound | with_reducible apply returnLine_sound | with_reducible apply wr_sound | with_reducible apply Sound.ite | with_reducible split | with_reducible apply Sound.hi_upd | with_reducible (refine Sound.upd ?_ ⟨rfl, rfl⟩))

theorem boundaryBackward_sound {s t : State} (h : Sound s t) : Sound s (boundaryBackward t) := by
  simp only [boundaryBackward]
  repeat' (first | with_reducible exact h | with_reducible assumption | (intro _; try dsimp only) | with_reducible apply ttEnter_sound | with_reducible apply reverseDeep_sound | with_reducible apply wr_sound | with_reducible apply Sound.ite | with_reducible split | with_reducible apply Sound.hi_upd | with_reducible (refine Sound.upd ?_ ⟨rfl, rfl⟩))

theorem windowCheck_sound {s t : State} (h : Sound s t) : Sound s (windowCheck t) := by
  simp only [windowCheck]
  repeat' (first | with_reducible exact h | with_reducible assumption | (intro _; try dsimp only) | with_reducible apply ttFault_sound | with_reducible apply Sound.ite | with_reducible split | with_reducible apply Sound.hi_upd | with_reducible (refine Sound.upd ?_ ⟨rfl, rfl⟩))

theorem rateMeasure_sound {s t : State} (h : Sound s t) : Sound s (rateMeasure t) := by
  simp only [rateMeasure]
  repeat' (first | with_reducible exact h | with_reducible assumption | (intro _; try dsimp only) | with_reducible apply inc_sound | with_reducible apply wr_sound | with_reducible apply showRate_sound | with_reducible apply Sound.ite | with_reducible split | with_reducible apply Sound.hi_upd | with_reducible (refine Sound.upd ?_ ⟨rfl, rfl⟩))

theorem boundary_sound {s t : State} (a0 : Bool) (h : Sound s t) : Sound s (boundary a0 t) := by
  simp only [boundary]
  repeat' (first | with_reducible exact h | with_reducible assumption | (intro _; try dsimp only) | with_reducible apply rateMeasure_sound | with_reducible apply boundaryForward_sound | with_reducible apply boundaryBackward_sound | with_reducible apply windowCheck_sound | with_reducible apply showRate_sound | with_reducible apply Sound.ite | with_reducible split | with_reducible apply Sound.hi_upd | with_reducible (refine Sound.upd ?_ ⟨rfl, rfl⟩))

theorem count_sound {s t : State} (a0 : Bool) (h : Sound s t) : Sound s (count a0 t) := by
  simp only [count]
  repeat' (first | with_reducible exact h | with_reducible assumption | (intro _; try dsimp only) | with_reducible apply boundary_sound | with_reducible apply Sound.ite | with_reducible split | with_reducible apply Sound.hi_upd | with_reducible (refine Sound.upd ?_ ⟨rfl, rfl⟩))

theorem schedule_sound {s t : State} (a0 : Nat) (a1 : Nat) (h : Sound s t) : Sound s (schedule a0 a1 t) := by
  simp only [schedule]
  repeat' (first | with_reducible exact h | with_reducible assumption | (intro _; try dsimp only) | with_reducible apply inc_sound | with_reducible apply Sound.ite | with_reducible split | with_reducible apply Sound.hi_upd | with_reducible (refine Sound.upd ?_ ⟨rfl, rfl⟩))

theorem sheetMark_sound {s t : State} (a0 : Bool) (h : Sound s t) : Sound s (sheetMark a0 t) := by
  simp only [sheetMark]
  repeat' (first | with_reducible exact h | with_reducible assumption | (intro _; try dsimp only) | with_reducible apply inc_sound | with_reducible apply schedule_sound | with_reducible apply Sound.ite | with_reducible split | with_reducible apply Sound.hi_upd | with_reducible (refine Sound.upd ?_ ⟨rfl, rfl⟩))

theorem markTaken_sound {s t : State} (a0 : Bool) (h : Sound s t) : Sound s (markTaken a0 t) := by
  simp only [markTaken]
  repeat' (first | with_reducible exact h | with_reducible assumption | (intro _; try dsimp only) | with_reducible apply inputTaken_sound | with_reducible apply Sound.ite | with_reducible split | with_reducible apply Sound.hi_upd | with_reducible (refine Sound.upd ?_ ⟨rfl, rfl⟩))

theorem indexEdge_sound {s t : State} (h : Sound s t) : Sound s (indexEdge t) := by
  simp only [indexEdge]
  repeat' (first | with_reducible exact h | with_reducible assumption | (intro _; try dsimp only) | with_reducible apply inc_sound | with_reducible apply wr_sound | with_reducible apply Sound.ite | with_reducible split | with_reducible apply Sound.hi_upd | with_reducible (refine Sound.upd ?_ ⟨rfl, rfl⟩))

theorem enableRise_sound {s t : State} (a0 : Bool) (h : Sound s t) : Sound s (enableRise a0 t) := by
  simp only [enableRise]
  repeat' (first | with_reducible exact h | with_reducible assumption | (intro _; try dsimp only) | with_reducible apply wr_sound | with_reducible apply wrs_sound | with_reducible apply ttEnter_sound | with_reducible apply edgeApply_sound | with_reducible apply rweApply_sound | with_reducible apply Sound.ite | with_reducible split | with_reducible apply Sound.hi_upd | with_reducible (refine Sound.upd ?_ ⟨rfl, rfl⟩))

theorem slotDisarm_sound {s t : State} (a0 : Slot) (h : Sound s t) : Sound s (slotDisarm a0 t) := by
  simp only [slotDisarm]
  repeat' (first | with_reducible exact h | with_reducible assumption | (intro _; try dsimp only) | with_reducible apply wr_sound | with_reducible apply Sound.ite | with_reducible split | with_reducible apply Sound.hi_upd | with_reducible (refine Sound.upd ?_ ⟨rfl, rfl⟩))

theorem armRows_sound {s t : State} (a0 : Ctx) (h : Sound s t) : Sound s (armRows a0 t) := by
  simp only [armRows]
  repeat' (first | with_reducible exact h | with_reducible assumption | (intro _; try dsimp only) | with_reducible apply each_sound | with_reducible apply armSlot_sound | with_reducible apply modCx_sound | with_reducible apply Sound.ite | with_reducible split | with_reducible apply Sound.hi_upd | with_reducible (refine Sound.upd ?_ ⟨rfl, rfl⟩))

theorem addRow_sound {s t : State} (a0 : Ctx) (a1 : RowSt) (h : Sound s t) : Sound s (addRow a0 a1 t) := by
  simp only [addRow]
  repeat' (first | with_reducible exact h | with_reducible assumption | (intro _; try dsimp only) | with_reducible apply modCx_sound | with_reducible apply Sound.ite | with_reducible split | with_reducible apply Sound.hi_upd | with_reducible (refine Sound.upd ?_ ⟨rfl, rfl⟩))

theorem deadlineMiss_sound {s t : State} (a0 : Ctx) (a1 : Nat) (a2 : Nat) (h : Sound s t) : Sound s (deadlineMiss a0 a1 a2 t) := by
  simp only [deadlineMiss]
  repeat' (first | with_reducible exact h | with_reducible assumption | (intro _; try dsimp only) | with_reducible apply notice_sound | with_reducible apply raise_sound | with_reducible apply Sound.ite | with_reducible split | with_reducible apply Sound.hi_upd | with_reducible (refine Sound.upd ?_ ⟨rfl, rfl⟩))

theorem stripReads_sound {s t : State} (a0 : Ctx) (a1 : Nat) (a2 : Nat) (h : Sound s t) : Sound s (stripReads a0 a1 a2 t) := by
  simp only [stripReads]
  repeat' (first | with_reducible exact h | with_reducible assumption | (intro _; try dsimp only) | with_reducible apply each_sound | with_reducible apply ownReadFor_sound | with_reducible apply Sound.ite | with_reducible split | with_reducible apply Sound.hi_upd | with_reducible (refine Sound.upd ?_ ⟨rfl, rfl⟩))

theorem stampRead_sound {s t : State} (a0 : Ctx) (a1 : Nat) (a2 : Nat) (h : Sound s t) : Sound s (stampRead a0 a1 a2 t) := by
  simp only [stampRead]
  repeat' (first | with_reducible exact h | with_reducible assumption | (intro _; try dsimp only) | with_reducible apply ownReadFor_sound | with_reducible apply Sound.ite | with_reducible split | with_reducible apply Sound.hi_upd | with_reducible (refine Sound.upd ?_ ⟨rfl, rfl⟩))

theorem stampReads_sound {s t : State} (a0 : Ctx) (a1 : Nat) (a2 : Nat) (h : Sound s t) : Sound s (stampReads a0 a1 a2 t) := by
  simp only [stampReads]
  repeat' (first | with_reducible exact h | with_reducible assumption | (intro _; try dsimp only) | with_reducible apply stampRead_sound | with_reducible apply Sound.ite | with_reducible split | with_reducible apply Sound.hi_upd | with_reducible (refine Sound.upd ?_ ⟨rfl, rfl⟩))

theorem stampBack_sound {s t : State} (a0 : Ctx) (a1 : Nat) (a2 : Nat) (a3 : Nat) (h : Sound s t) : Sound s (stampBack a0 a1 a2 a3 t) := by
  simp only [stampBack]
  repeat' (first | with_reducible exact h | with_reducible assumption | (intro _; try dsimp only) | with_reducible apply modRow_sound | with_reducible apply inc_sound | with_reducible apply Sound.ite | with_reducible split | with_reducible apply Sound.hi_upd | with_reducible (refine Sound.upd ?_ ⟨rfl, rfl⟩))

theorem haloSend_sound {s t : State} (a0 : Ctx) (a1 : Strip) (h : Sound s t) : Sound s (haloSend a0 a1 t) := by
  simp only [haloSend]
  repeat' (first | with_reducible exact h | with_reducible assumption | (intro _; try dsimp only) | with_reducible apply originate_sound | with_reducible apply Sound.ite | with_reducible split | with_reducible apply Sound.hi_upd | with_reducible (refine Sound.upd ?_ ⟨rfl, rfl⟩))

theorem stripBack_sound {s t : State} (a0 : Ctx) (a1 : Nat) (a2 : Nat) (a3 : Nat) (a4 : Nat) (a5 : Nat) (a6 : Nat) (a7 : List Byte) (h : Sound s t) : Sound s (stripBack a0 a1 a2 a3 a4 a5 a6 a7 t) := by
  simp only [stripBack]
  repeat' (first | with_reducible exact h | with_reducible assumption | (intro _; try dsimp only) | with_reducible apply haloSend_sound | with_reducible apply Sound.ite | with_reducible split | with_reducible apply Sound.hi_upd | with_reducible (refine Sound.upd ?_ ⟨rfl, rfl⟩))

theorem haloRelease_sound {s t : State} (a0 : Ctx) (a1 : Nat) (h : Sound s t) : Sound s (haloRelease a0 a1 t) := by
  simp only [haloRelease]
  repeat' (first | with_reducible exact h | with_reducible assumption | (intro _; try dsimp only) | with_reducible apply each_sound | with_reducible apply stripReads_sound | with_reducible apply Sound.ite | with_reducible split | with_reducible apply Sound.hi_upd | with_reducible (refine Sound.upd ?_ ⟨rfl, rfl⟩))

theorem releaseRow_sound {s t : State} (a0 : Ctx) (a1 : Nat) (h : Sound s t) : Sound s (releaseRow a0 a1 t) := by
  simp only [releaseRow]
  repeat' (first | with_reducible exact h | with_reducible assumption | (intro _; try dsimp only) | with_reducible apply haloRelease_sound | with_reducible apply addRow_sound | with_reducible apply inc_sound | with_reducible apply disarmRow_sound | with_reducible apply deadlineMiss_sound | with_reducible apply raise_sound | with_reducible apply stampReads_sound | with_reducible apply armRows_sound | with_reducible apply Sound.ite | with_reducible split | with_reducible apply Sound.hi_upd | with_reducible (refine Sound.upd ?_ ⟨rfl, rfl⟩))

theorem judgeRow_sound {s t : State} (a0 : Ctx) (a1 : Nat) (h : Sound s t) : Sound s (judgeRow a0 a1 t) := by
  simp only [judgeRow]
  repeat' (first | with_reducible exact h | with_reducible assumption | (intro _; try dsimp only) | with_reducible apply modCx_sound | with_reducible apply inc_sound | with_reducible apply Sound.ite | with_reducible split | with_reducible apply Sound.hi_upd | with_reducible (refine Sound.upd ?_ ⟨rfl, rfl⟩))

theorem deadlineCycle_sound {s t : State} (h : Sound s t) : Sound s (deadlineCycle t) := by
  simp only [deadlineCycle]
  repeat' (first | with_reducible exact h | with_reducible assumption | (intro _; try dsimp only) | with_reducible apply each_sound | with_reducible apply deadlineMiss_sound | with_reducible apply inc_sound | with_reducible apply Sound.ite | with_reducible split | with_reducible apply Sound.hi_upd | with_reducible (refine Sound.upd ?_ ⟨rfl, rfl⟩))

theorem sliceBegin_sound {s t : State} (a0 : Ctx) (h : Sound s t) : Sound s (sliceBegin a0 t) := by
  simp only [sliceBegin]
  repeat' (first | with_reducible exact h | with_reducible assumption | (intro _; try dsimp only) | with_reducible apply wr_sound | with_reducible apply modCx_sound | with_reducible apply armSlot_sound | with_reducible apply Sound.ite | with_reducible split | with_reducible apply Sound.hi_upd | with_reducible (refine Sound.upd ?_ ⟨rfl, rfl⟩))

theorem sliceEnd_sound {s t : State} (a0 : Ctx) (h : Sound s t) : Sound s (sliceEnd a0 t) := by
  simp only [sliceEnd]
  repeat' (first | with_reducible exact h | with_reducible assumption | (intro _; try dsimp only) | with_reducible apply raise_sound | with_reducible apply sliceBegin_sound | with_reducible apply modCx_sound | with_reducible apply each_sound | with_reducible apply holdStage_sound | with_reducible apply Sound.ite | with_reducible split | with_reducible apply Sound.hi_upd | with_reducible (refine Sound.upd ?_ ⟨rfl, rfl⟩))

theorem chargeOverrun_sound {s t : State} (a0 : Coach) (a1 : Ctx) (a2 : ProgPos) (a3 : Bool) (h : Sound s t) : Sound s (chargeOverrun a0 a1 a2 a3 t) := by
  simp only [chargeOverrun]
  repeat' (first | with_reducible exact h | with_reducible assumption | (intro _; try dsimp only) | with_reducible apply wrs_sound | with_reducible apply markBit_sound | with_reducible apply raise_sound | with_reducible apply inc_sound | with_reducible apply modCx_sound | with_reducible apply modRow_sound | with_reducible apply notice_sound | with_reducible apply Sound.ite | with_reducible split | with_reducible apply Sound.hi_upd | with_reducible (refine Sound.upd ?_ ⟨rfl, rfl⟩))

theorem switchCharge_sound {s t : State} (a0 : Coach) (a1 : Ctx) (a2 : Nat) (h : Sound s t) : Sound s (switchCharge a0 a1 a2 t) := by
  unfold switchCharge
  exact Sound.ite h (chargeOverrun_sound _ _ _ _ h)

theorem sendLineSync_sound {s t : State} (h : Sound s t) : Sound s (sendLineSync t) := by
  simp only [sendLineSync]
  repeat' (first | with_reducible exact h | with_reducible assumption | (intro _; try dsimp only) | with_reducible apply wrs_sound | with_reducible apply sendControl_sound | with_reducible apply Sound.ite | with_reducible split | with_reducible apply Sound.hi_upd | with_reducible (refine Sound.upd ?_ ⟨rfl, rfl⟩))

theorem writeRegionAs_sound {s t : State} (a0 : Ctx) (a1 : Nat) (a2 : Nat) (a3 : Nat) (a4 : Nat) (a5 : List Byte) (h : Sound s t) : Sound s (writeRegionAs a0 a1 a2 a3 a4 a5 t) := by
  simp only [writeRegionAs]
  repeat' (first | with_reducible exact h | with_reducible assumption | (intro _; try dsimp only) | with_reducible apply ownWrite_sound | with_reducible apply Sound.ite | with_reducible split | with_reducible apply Sound.hi_upd | with_reducible (refine Sound.upd ?_ ⟨rfl, rfl⟩))

theorem writeRegion_sound {s t : State} (a0 : Ctx) (a1 : Nat) (a2 : Nat) (a3 : List Byte) (h : Sound s t) : Sound s (writeRegion a0 a1 a2 a3 t) := by
  simp only [writeRegion]
  repeat' (first | with_reducible exact h | with_reducible assumption | (intro _; try dsimp only) | with_reducible apply writeRegionAs_sound | with_reducible apply Sound.ite | with_reducible split | with_reducible apply Sound.hi_upd | with_reducible (refine Sound.upd ?_ ⟨rfl, rfl⟩))

theorem bounceOut_sound {s t : State} (a0 : Ctx) (a1 : Nat) (a2 : Nat) (a3 : List Byte) (h : Sound s t) : Sound s (bounceOut a0 a1 a2 a3 t).2 := by
  simp only [bounceOut]
  repeat' (first | with_reducible exact h | with_reducible assumption | (intro _; try dsimp only) | with_reducible apply initPush_sound | with_reducible apply modCx_sound | with_reducible apply Sound.ite | with_reducible split | with_reducible apply Sound.hi_upd | with_reducible (refine Sound.upd ?_ ⟨rfl, rfl⟩))

theorem summaryTry_sound {s t : State} (a0 : Ctx) (a1 : Nat) (h : Sound s t) : Sound s (summaryTry a0 a1 t) := by
  simp only [summaryTry]
  repeat' (first | with_reducible exact h | with_reducible assumption | (intro _; try dsimp only) | with_reducible apply writeRegion_sound | with_reducible apply bounceOut_sound | with_reducible apply modCx_sound | with_reducible apply notice_sound | with_reducible apply Sound.ite | with_reducible split | with_reducible apply Sound.hi_upd | with_reducible (refine Sound.upd ?_ ⟨rfl, rfl⟩))

theorem summaryRow_sound {s t : State} (a0 : Ctx) (a1 : RowSt) (h : Sound s t) : Sound s (summaryRow a0 a1 t) := by
  simp only [summaryRow]
  repeat' (first | with_reducible exact h | with_reducible assumption | (intro _; try dsimp only) | with_reducible apply free_sound | with_reducible apply modCx_sound | with_reducible apply Sound.ite | with_reducible split | with_reducible apply Sound.hi_upd | with_reducible (refine Sound.upd ?_ ⟨rfl, rfl⟩))

theorem summaryEnd_sound {s t : State} (a0 : Ctx) (a1 : Nat) (h : Sound s t) : Sound s (summaryEnd a0 a1 t) := by
  simp only [summaryEnd]
  repeat' (first | with_reducible exact h | with_reducible assumption | (intro _; try dsimp only) | with_reducible apply freeBytes_sound | with_reducible apply modCx_sound | with_reducible apply originate_sound | with_reducible apply summaryTry_sound | with_reducible apply Sound.ite | with_reducible split | with_reducible apply Sound.hi_upd | with_reducible (refine Sound.upd ?_ ⟨rfl, rfl⟩))

theorem summaryDue_sound {s t : State} (a0 : Ctx) (a1 : RowSt) (a2 : Nat) (h : Sound s t) : Sound s (summaryDue a0 a1 a2 t) := by
  simp only [summaryDue]
  repeat' (first | with_reducible exact h | with_reducible assumption | (intro _; try dsimp only) | with_reducible apply modCx_sound | with_reducible apply summaryEnd_sound | with_reducible apply Sound.ite | with_reducible split | with_reducible apply Sound.hi_upd | with_reducible (refine Sound.upd ?_ ⟨rfl, rfl⟩))

theorem postRow_sound {s t : State} (a0 : Ctx) (h : Sound s t) : Sound s (postRow a0 t) := by
  simp only [postRow]
  repeat' (first | with_reducible exact h | with_reducible assumption | (intro _; try dsimp only) | with_reducible apply modRow_sound | with_reducible apply add_sound | with_reducible apply bounceOut_sound | with_reducible apply notice_sound | with_reducible apply summaryRow_sound | with_reducible apply summaryDue_sound | with_reducible apply Sound.ite | with_reducible split | with_reducible apply Sound.hi_upd | with_reducible (refine Sound.upd ?_ ⟨rfl, rfl⟩))

theorem postRows_sound {s t : State} (a0 : Ctx) (h : Sound s t) : Sound s (postRows a0 t) :=
  each_sound _ (fun _ _ k => postRow_sound _ k) h

theorem sheetResume_sound {s t : State} (h : Sound s t) : Sound s (sheetResume t) := by
  simp only [sheetResume]
  repeat' (first | with_reducible exact h | with_reducible assumption | (intro _; try dsimp only) | with_reducible apply each_sound | with_reducible apply summaryTry_sound | with_reducible apply postRows_sound | with_reducible apply Sound.ite | with_reducible split | with_reducible apply Sound.hi_upd | with_reducible (refine Sound.upd ?_ ⟨rfl, rfl⟩))

theorem thenResume_sound {s t : State} {a0 : State → State} (ha0 : ∀ u, Sound s u → Sound s (a0 u)) (h : Sound s t) : Sound s (thenResume a0 t) := by
  simp only [thenResume]
  repeat' (first | with_reducible exact h | with_reducible assumption | with_reducible apply ha0 | (intro _; try dsimp only) | with_reducible apply sheetResume_sound | with_reducible apply Sound.ite | with_reducible split | with_reducible apply Sound.hi_upd | with_reducible (refine Sound.upd ?_ ⟨rfl, rfl⟩))

theorem encTaken_sound {s t : State} (a0 : Bool) (a1 : Bool) (h : Sound s t) : Sound s (encTaken a0 a1 t) := by
  simp only [encTaken]
  repeat' (first | with_reducible exact h | with_reducible assumption | (intro _; try dsimp only) | with_reducible apply when__sound | with_reducible apply inputTaken_sound | with_reducible apply Sound.ite | with_reducible split | with_reducible apply Sound.hi_upd | with_reducible (refine Sound.upd ?_ ⟨rfl, rfl⟩))

theorem encCount_sound {s t : State} (a0 : Option (Option Bool)) (h : Sound s t) : Sound s (encCount a0 t) := by
  simp only [encCount]
  repeat' (first | with_reducible exact h | with_reducible assumption | (intro _; try dsimp only) | with_reducible apply windowCheck_sound | with_reducible apply inc_sound | with_reducible apply count_sound | with_reducible apply Sound.ite | with_reducible split | with_reducible apply Sound.hi_upd | with_reducible (refine Sound.upd ?_ ⟨rfl, rfl⟩))

theorem fenceShut_sound {s t : State} (a0 : Nat) (h : Sound s t) : Sound s (fenceShut a0 t) := by
  simp only [fenceShut]
  repeat' (first | with_reducible exact h | with_reducible assumption | (intro _; try dsimp only) | with_reducible apply Sound.ite | with_reducible split | with_reducible apply Sound.hi_upd | with_reducible (refine Sound.upd ?_ ⟨rfl, rfl⟩))

theorem fenceOpen_sound {s t : State} (a0 : Nat) (h : Sound s t) : Sound s (fenceOpen a0 t) := by
  simp only [fenceOpen]
  repeat' (first | with_reducible exact h | with_reducible assumption | (intro _; try dsimp only) | with_reducible apply Sound.ite | with_reducible split | with_reducible apply Sound.hi_upd | with_reducible (refine Sound.upd ?_ ⟨rfl, rfl⟩))

theorem scrubBegin_sound {s t : State} (a0 : Coach) (h : Sound s t) : Sound s (scrubBegin a0 t) := by
  simp only [scrubBegin]
  repeat' (first | with_reducible exact h | with_reducible assumption | (intro _; try dsimp only) | with_reducible apply scrubStart_sound | with_reducible apply fenceOpen_sound | with_reducible apply Sound.ite | with_reducible split | with_reducible apply Sound.hi_upd | with_reducible (refine Sound.upd ?_ ⟨rfl, rfl⟩))

theorem freshCoaches_sound {s t : State} (a0 : Ctx) (h : Sound s t) : Sound s (freshCoaches a0 t) := by
  simp only [freshCoaches]
  repeat' (first | with_reducible exact h | with_reducible assumption | (intro _; try dsimp only) | with_reducible apply each_sound | with_reducible apply modCo_sound | with_reducible apply Sound.ite | with_reducible split | with_reducible apply Sound.hi_upd | with_reducible (refine Sound.upd ?_ ⟨rfl, rfl⟩))

theorem progStart_sound {s t : State} (a0 : Ctx) (a1 : Nat) (h : Sound s t) : Sound s (progStart a0 a1 t) := by
  simp only [progStart]
  repeat' (first | with_reducible exact h | with_reducible assumption | (intro _; try dsimp only) | with_reducible apply freshCoaches_sound | with_reducible apply modCx_sound | with_reducible apply Sound.ite | with_reducible split | with_reducible apply Sound.hi_upd | with_reducible (refine Sound.upd ?_ ⟨rfl, rfl⟩))

theorem refStart_sound {s t : State} (a0 : Ctx) (h : Sound s t) : Sound s (refStart a0 t) := by
  simp only [refStart]
  repeat' (first | with_reducible exact h | with_reducible assumption | (intro _; try dsimp only) | with_reducible apply freshCoaches_sound | with_reducible apply modCx_sound | with_reducible apply Sound.ite | with_reducible split | with_reducible apply Sound.hi_upd | with_reducible (refine Sound.upd ?_ ⟨rfl, rfl⟩))

theorem discardGone_sound {s t : State} (a0 : Ctx) (h : Sound s t) : Sound s (discardGone a0 t) := by
  simp only [discardGone]
  repeat' (first | with_reducible exact h | with_reducible assumption | (intro _; try dsimp only) | with_reducible apply discardRows_sound | with_reducible apply each_sound | with_reducible apply disarmRow_sound | with_reducible apply Sound.ite | with_reducible split | with_reducible apply Sound.hi_upd | with_reducible (refine Sound.upd ?_ ⟨rfl, rfl⟩))

theorem resume_sound {s t : State} (a0 : Ctx) (h : Sound s t) : Sound s (resume a0 t) := by
  simp only [resume]
  repeat' (first | with_reducible exact h | with_reducible assumption | (intro _; try dsimp only) | with_reducible apply refStart_sound | with_reducible apply discardGone_sound | with_reducible apply modCx_sound | with_reducible apply progStart_sound | with_reducible apply Sound.ite | with_reducible split | with_reducible apply Sound.hi_upd | with_reducible (refine Sound.upd ?_ ⟨rfl, rfl⟩))

theorem swBegin_sound {s t : State} (a0 : Coach) (a1 : Nat) (a2 : List Xfer) (h : Sound s t) : Sound s (swBegin a0 a1 a2 t) := by
  simp only [swBegin]
  repeat' (first | with_reducible exact h | with_reducible assumption | (intro _; try dsimp only) | with_reducible apply modCo_sound | with_reducible apply Sound.ite | with_reducible split | with_reducible apply Sound.hi_upd | with_reducible (refine Sound.upd ?_ ⟨rfl, rfl⟩))

theorem restoreBegin_sound {s t : State} (a0 : Coach) (a1 : Ctx) (a2 : Nat) (h : Sound s t) : Sound s (restoreBegin a0 a1 a2 t) := by
  simp only [restoreBegin]
  repeat' (first | with_reducible exact h | with_reducible assumption | (intro _; try dsimp only) | with_reducible apply wr_sound | with_reducible apply swBegin_sound | with_reducible apply Sound.ite | with_reducible split | with_reducible apply Sound.hi_upd | with_reducible (refine Sound.upd ?_ ⟨rfl, rfl⟩))

theorem takeCoaches_sound {s t : State} (a0 : Ctx) (h : Sound s t) : Sound s (takeCoaches a0 t) := by
  simp only [takeCoaches]
  repeat' (first | with_reducible exact h | with_reducible assumption | (intro _; try dsimp only) | with_reducible apply wr_sound | with_reducible apply each_sound | with_reducible apply coachTake_sound | with_reducible apply sliceBegin_sound | with_reducible apply restoreBegin_sound | with_reducible apply modCx_sound | with_reducible apply Sound.ite | with_reducible split | with_reducible apply Sound.hi_upd | with_reducible (refine Sound.upd ?_ ⟨rfl, rfl⟩))

theorem passCoaches_sound {s t : State} (a0 : Nat) (a1 : Nat) (h : Sound s t) : Sound s (passCoaches a0 a1 t) := by
  simp only [passCoaches]
  repeat' (first | with_reducible exact h | with_reducible assumption | (intro _; try dsimp only) | with_reducible apply takeCoaches_sound | with_reducible apply each_sound | with_reducible apply coachFree_sound | with_reducible apply Sound.ite | with_reducible split | with_reducible apply Sound.hi_upd | with_reducible (refine Sound.upd ?_ ⟨rfl, rfl⟩))

theorem sendRetire_sound {s t : State} (a0 : Ctx) (h : Sound s t) : Sound s (sendRetire a0 t) := by
  simp only [sendRetire]
  repeat' (first | with_reducible exact h | with_reducible assumption | (intro _; try dsimp only) | with_reducible apply modCx_sound | with_reducible apply originate_sound | with_reducible apply Sound.ite | with_reducible split | with_reducible apply Sound.hi_upd | with_reducible (refine Sound.upd ?_ ⟨rfl, rfl⟩))

theorem tornNotice_sound {s t : State} (a0 : Ctx) (a1 : Nat) (a2 : List Nat) (h : Sound s t) : Sound s (tornNotice a0 a1 a2 t) := by
  simp only [tornNotice]
  repeat' (first | with_reducible exact h | with_reducible assumption | (intro _; try dsimp only) | with_reducible apply notice_sound | with_reducible apply modCx_sound | with_reducible apply Sound.ite | with_reducible split | with_reducible apply Sound.hi_upd | with_reducible (refine Sound.upd ?_ ⟨rfl, rfl⟩))

theorem tornCycle_sound {s t : State} (h : Sound s t) : Sound s (tornCycle t) := by
  simp only [tornCycle]
  repeat' (first | with_reducible exact h | with_reducible assumption | (intro _; try dsimp only) | with_reducible apply each_sound | with_reducible apply notice_sound | with_reducible apply modCx_sound | with_reducible apply Sound.ite | with_reducible split | with_reducible apply Sound.hi_upd | with_reducible (refine Sound.upd ?_ ⟨rfl, rfl⟩))

theorem quarantineTry_sound {s t : State} (a0 : Ctx) (h : Sound s t) : Sound s (quarantineTry a0 t) := by
  simp only [quarantineTry]
  repeat' (first | with_reducible exact h | with_reducible assumption | (intro _; try dsimp only) | with_reducible apply wrs_sound | with_reducible apply modCx_sound | with_reducible apply Sound.ite | with_reducible split | with_reducible apply Sound.hi_upd | with_reducible (refine Sound.upd ?_ ⟨rfl, rfl⟩))

theorem tearScrubbed_sound {s t : State} (a0 : Ctx) (h : Sound s t) : Sound s (tearScrubbed a0 t) := by
  simp only [tearScrubbed]
  repeat' (first | with_reducible exact h | with_reducible assumption | (intro _; try dsimp only) | with_reducible apply tornNotice_sound | with_reducible apply wrs_sound | with_reducible apply modCx_sound | with_reducible apply switchCharge_sound | with_reducible apply each_sound | with_reducible apply episodeEnd_sound | with_reducible apply passCoaches_sound | with_reducible apply quarantineTry_sound | with_reducible apply showGig_sound | with_reducible apply showSliced_sound | with_reducible apply Sound.ite | with_reducible split | with_reducible apply Sound.hi_upd | with_reducible (refine Sound.upd ?_ ⟨rfl, rfl⟩))

theorem pageScrub_sound {s t : State} (a0 : Ctx) (h : Sound s t) : Sound s (pageScrub a0 t) := by
  simp only [pageScrub]
  repeat' (first | with_reducible exact h | with_reducible assumption | (intro _; try dsimp only) | with_reducible apply showGig_sound | with_reducible apply modCx_sound | with_reducible apply Sound.ite | with_reducible split | with_reducible apply Sound.hi_upd | with_reducible (refine Sound.upd ?_ ⟨rfl, rfl⟩))

theorem tearFenced_sound {s t : State} (a0 : Ctx) (h : Sound s t) : Sound s (tearFenced a0 t) := by
  simp only [tearFenced]
  repeat' (first | with_reducible exact h | with_reducible assumption | (intro _; try dsimp only) | with_reducible apply wrs_sound | with_reducible apply modCx_sound | with_reducible apply raise_sound | with_reducible apply wr_sound | with_reducible apply tornNotice_sound | with_reducible apply each_sound | with_reducible apply modCo_sound | with_reducible apply scrubBegin_sound | with_reducible apply tearScrubbed_sound | with_reducible apply pageScrub_sound | with_reducible apply abortAnswer_sound | with_reducible apply Sound.ite | with_reducible split | with_reducible apply Sound.hi_upd | with_reducible (refine Sound.upd ?_ ⟨rfl, rfl⟩))

theorem showRateMax_sound {s t : State} (h : Sound s t) : Sound s (showRateMax t) := by
  unfold showRateMax
  split
  · exact h
  · exact rwePut_sound _ _ (by decide +kernel) h

theorem switchTurn_sound {s t : State} (a0 : Ctx) (h : Sound s t) : Sound s (switchTurn a0 t) := by
  unfold switchTurn
  split
  · exact modCx_sound _ _ h
  · extract_lets cs
    exact Sound.ite (modCx_sound _ _ h) (each_sound _ (fun _ _ k => unholdStage_sound _ k) (modCx_sound _ _ h))

theorem bounceKeyEnd_sound {s t : State} (a0 : Ctx) (h : Sound s t) : Sound s (bounceKeyEnd a0 t) := by
  simp only [bounceKeyEnd]
  repeat' (first | with_reducible exact h | with_reducible assumption | (intro _; try dsimp only) | with_reducible apply reply_sound | with_reducible apply takeMsg_sound | with_reducible apply Sound.ite | with_reducible split | with_reducible apply Sound.hi_upd | with_reducible (refine Sound.upd ?_ ⟨rfl, rfl⟩))

theorem tearDown_sound {s t : State} (a0 : Ctx) (a1 : Nat) (h : Sound s t) : Sound s (tearDown a0 a1 t) := by
  simp only [tearDown]
  repeat' (first | with_reducible exact h | with_reducible assumption | (intro _; try dsimp only) | with_reducible apply stopUnits_sound | with_reducible apply disarmSlots_sound | with_reducible apply each_sound | with_reducible apply fenceShut_sound | with_reducible apply mpFence_sound | with_reducible apply bounceKeyEnd_sound | with_reducible apply abortDeferred_sound | with_reducible apply wrs_sound | with_reducible apply ledgerEnd_sound | with_reducible apply switchTurn_sound | with_reducible apply modCx_sound | with_reducible apply sendRetire_sound | with_reducible apply showRateMax_sound | with_reducible apply showSliced_sound | with_reducible apply Sound.ite | with_reducible split | with_reducible apply Sound.hi_upd | with_reducible (refine Sound.upd ?_ ⟨rfl, rfl⟩))

theorem abortFault_sound {s t : State} (a0 : List Ctx) (h : Sound s t) : Sound s (abortFault a0 t) := by
  simp only [abortFault]
  repeat' (first | with_reducible exact h | with_reducible assumption | (intro _; try dsimp only) | with_reducible apply each_sound | with_reducible apply fenceJob_sound | with_reducible apply originateAbort_sound | with_reducible apply Sound.ite | with_reducible split | with_reducible apply Sound.hi_upd | with_reducible (refine Sound.upd ?_ ⟨rfl, rfl⟩))

theorem reinTake_sound {s t : State} (a0 : Nat) (h : Sound s t) : Sound s (reinTake a0 t) := by
  simp only [reinTake]
  repeat' (first | with_reducible exact h | with_reducible assumption | (intro _; try dsimp only) | with_reducible apply reinSet_sound | with_reducible apply Sound.ite | with_reducible split | with_reducible apply Sound.hi_upd | with_reducible (refine Sound.upd ?_ ⟨rfl, rfl⟩))

theorem resetUnit_sound {s t : State} (a0 : Nat) (h : Sound s t) : Sound s (resetUnit a0 t) := by
  simp only [resetUnit]
  repeat' (first | with_reducible exact h | with_reducible assumption | (intro _; try dsimp only) | with_reducible apply reinTake_sound | with_reducible apply wr_sound | with_reducible apply fenceShut_sound | with_reducible apply Sound.ite | with_reducible split | with_reducible apply Sound.hi_upd | with_reducible (refine Sound.upd ?_ ⟨rfl, rfl⟩))

theorem stopSet_sound {s t : State} (a0 : Nat) (h : Sound s t) : Sound s (stopSet a0 t) := by
  simp only [stopSet]
  repeat' (first | with_reducible exact h | with_reducible assumption | (intro _; try dsimp only) | with_reducible apply gigStop_sound | with_reducible apply each_sound | with_reducible apply coachStop_sound | with_reducible apply Sound.ite | with_reducible split | with_reducible apply Sound.hi_upd | with_reducible (refine Sound.upd ?_ ⟨rfl, rfl⟩))

theorem levelCoach_sound {s t : State} (a0 : Nat) (a1 : FaultRec) (h : Sound s t) : Sound s (levelCoach a0 a1 t) := by
  simp only [levelCoach]
  repeat' (first | with_reducible exact h | with_reducible assumption | (intro _; try dsimp only) | with_reducible apply abortFault_sound | with_reducible apply each_sound | with_reducible apply fenceShut_sound | with_reducible apply stopSet_sound | with_reducible apply gigStop_sound | with_reducible apply resetUnit_sound | with_reducible apply Sound.ite | with_reducible split | with_reducible apply Sound.hi_upd | with_reducible (refine Sound.upd ?_ ⟨rfl, rfl⟩))

theorem levelPartition_sound {s t : State} (a0 : Nat) (a1 : Nat) (h : Sound s t) : Sound s (levelPartition a0 a1 t) := by
  simp only [levelPartition]
  repeat' (first | with_reducible exact h | with_reducible assumption | (intro _; try dsimp only) | with_reducible apply abortFault_sound | with_reducible apply stopSet_sound | with_reducible apply each_sound | with_reducible apply fenceShut_sound | with_reducible apply powerLost_sound | with_reducible apply reinTake_sound | with_reducible apply Sound.ite | with_reducible split | with_reducible apply Sound.hi_upd | with_reducible (refine Sound.upd ?_ ⟨rfl, rfl⟩))

theorem levelBlock_sound {s t : State} (a0 : Nat) (a1 : FaultRec) (h : Sound s t) : Sound s (levelBlock a0 a1 t) := by
  simp only [levelBlock]
  repeat' (first | with_reducible exact h | with_reducible assumption | (intro _; try dsimp only) | with_reducible apply originateAbort_sound | with_reducible apply wr_sound | with_reducible apply reinTake_sound | with_reducible apply each_sound | with_reducible apply fenceShut_sound | with_reducible apply coachStop_sound | with_reducible apply gigStop_sound | with_reducible apply Sound.ite | with_reducible split | with_reducible apply Sound.hi_upd | with_reducible (refine Sound.upd ?_ ⟨rfl, rfl⟩))

theorem abortCovers_sound {s t : State} (a0 : Ctx) (h : Sound s t) : Sound s (abortCovers a0 t) := by
  simp only [abortCovers]
  repeat' (first | with_reducible exact h | with_reducible assumption | (intro _; try dsimp only) | with_reducible apply modCx_sound | with_reducible apply Sound.ite | with_reducible split | with_reducible apply Sound.hi_upd | with_reducible (refine Sound.upd ?_ ⟨rfl, rfl⟩))

theorem escalate_sound {s t : State} (a0 : Nat) (a1 : Nat) (a2 : FaultRec) (h : Sound s t) : Sound s (escalate a0 a1 a2 t) := by
  unfold escalate
  split
  · exact episodeEnd_sound _ h
  · split
    · exact Sound.ite (Sound.upd h ⟨rfl, rfl⟩) (tearDown_sound _ _ h)
    · exact episodeEnd_sound _ h
  · exact levelCoach_sound _ _ h
  · exact levelPartition_sound _ _ h
  · exact levelBlock_sound _ _ h

theorem faultCycle_sound {s t : State} (h : Sound s t) : Sound s (faultCycle t) := by
  simp only [faultCycle]
  repeat' (first | with_reducible exact h | with_reducible assumption | (intro _; try dsimp only) | with_reducible apply each_sound | with_reducible apply episodeEnd_sound | with_reducible apply settle_sound | with_reducible apply tearDown_sound | with_reducible apply abortFault_sound | with_reducible apply Sound.ite | with_reducible split | with_reducible apply Sound.hi_upd | with_reducible (refine Sound.upd ?_ ⟨rfl, rfl⟩))

theorem replayGuilt_sound {s t : State} (a0 : Nat) (h : Sound s t) : Sound s (replayGuilt a0 t) := by
  unfold replayGuilt
  split
  · exact h
  · split
    · exact h
    · extract_lets s1 src s2
      have h1 : Sound s s1 := each_sound _ (fun _ _ k => fenceShut_sound _ k) (stopSet_sound _ (Sound.ite (gigStop_sound h) h))
      clear_value s1
      exact Sound.ite (resetUnit_sound _ (Sound.upd h1 ⟨rfl, rfl⟩)) (each_sound _ (fun _ _ k => scrubBegin_sound _ k) (Sound.upd (Sound.upd h1 ⟨rfl, rfl⟩) ⟨rfl, rfl⟩))

theorem raiseFault_sound {s t : State} (a0 : Nat) (a1 : FaultRec) (h : Sound s t) : Sound s (raiseFault a0 a1 t) := by
  unfold raiseFault
  refine Sound.ite h ?_
  extract_lets judged busy third level torn covered f s0 s1 src s2
  have h0 : Sound s s0 := faultRecord_sound _ _ h
  have h1 : Sound s s1 := settle_sound (Sound.ite h0 (faultNotice_sound _ h0))
  clear_value s0
  clear_value s1
  have he : Sound s (if busy = true then s1 else episodeEnd a0 s1) := Sound.ite h1 (episodeEnd_sound _ h1)
  refine Sound.ite h1 (Sound.ite he (Sound.ite (settle_sound (replayGuilt_sound _ h1)) (Sound.ite h1 (Sound.ite he (settle_sound (escalate_sound _ _ _ ?_))))))
  by_cases hu : a0 < 21
  · simp only [s2, hu, dite_true]; exact Sound.upd h1 ⟨rfl, rfl⟩
  · simp only [s2, hu, dite_false]; exact h1

theorem coachFault_sound {s t : State} (a0 : Coach) (a1 : Nat) (a2 : Nat) (h : Sound s t) : Sound s (coachFault a0 a1 a2 t) := by
  simp only [coachFault]
  repeat' (first | with_reducible exact h | with_reducible assumption | (intro _; try dsimp only) | with_reducible apply raiseFault_sound | with_reducible apply Sound.ite | with_reducible split | with_reducible apply Sound.hi_upd | with_reducible (refine Sound.upd ?_ ⟨rfl, rfl⟩))

theorem fltLast_sound {s t : State} (a0 : Bool) (a1 : Nat) (a2 : Nat) (a3 : Nat) (a4 : Nat) (h : Sound s t) : Sound s (fltLast a0 a1 a2 a3 a4 t) := by
  simp only [fltLast]
  repeat' (first | with_reducible exact h | with_reducible assumption | (intro _; try dsimp only) | with_reducible apply wrs_sound | with_reducible apply Sound.ite | with_reducible split | with_reducible apply Sound.hi_upd | with_reducible (refine Sound.upd ?_ ⟨rfl, rfl⟩))

theorem faultReset_sound {s t : State} (a0 : Nat) (h : Sound s t) : Sound s (faultReset a0 t) := by
  simp only [faultReset]
  repeat' (first | with_reducible exact h | with_reducible assumption | (intro _; try dsimp only) | with_reducible apply holdFall_sound | with_reducible apply beginReset_sound | with_reducible apply Sound.ite | with_reducible split | with_reducible apply Sound.hi_upd | with_reducible (refine Sound.upd ?_ ⟨rfl, rfl⟩))

theorem securityReset_sound {s t : State} (a0 : Nat) (a1 : Nat) (h : Sound s t) : Sound s (securityReset a0 a1 t) := by
  simp only [securityReset]
  repeat' (first | with_reducible exact h | with_reducible assumption | (intro _; try dsimp only) | with_reducible apply fltLast_sound | with_reducible apply wr_sound | with_reducible apply faultReset_sound | with_reducible apply Sound.ite | with_reducible split | with_reducible apply Sound.hi_upd | with_reducible (refine Sound.upd ?_ ⟨rfl, rfl⟩))

theorem securityFault_sound {s t : State} (a0 : Nat) (h : Sound s t) : Sound s (securityFault a0 t) := by
  simp only [securityFault]
  repeat' (first | with_reducible exact h | with_reducible assumption | (intro _; try dsimp only) | with_reducible apply securityReset_sound | with_reducible apply settle_sound | with_reducible apply Sound.ite | with_reducible split | with_reducible apply Sound.hi_upd | with_reducible (refine Sound.upd ?_ ⟨rfl, rfl⟩))

theorem replayOutcome_sound {s t : State} (a0 : Replay) (h : Sound s t) : Sound s (replayOutcome a0 t) := by
  simp only [replayOutcome]
  repeat' (first | with_reducible exact h | with_reducible assumption | (intro _; try dsimp only) | with_reducible apply wr_sound | with_reducible apply levelPartition_sound | with_reducible apply faultNotice_sound | with_reducible apply each_sound | with_reducible apply resume_sound | with_reducible apply takeCoaches_sound | with_reducible apply tearDown_sound | with_reducible apply passCoaches_sound | with_reducible apply Sound.ite | with_reducible split | with_reducible apply Sound.hi_upd | with_reducible (refine Sound.upd ?_ ⟨rfl, rfl⟩))

theorem replayNext_sound {s t : State} (h : Sound s t) : Sound s (replayNext t) := by
  simp only [replayNext]
  repeat' (first | with_reducible exact h | with_reducible assumption | (intro _; try dsimp only) | with_reducible apply replayOutcome_sound | with_reducible apply discardGone_sound | with_reducible apply refStart_sound | with_reducible apply progStart_sound | with_reducible apply each_sound | with_reducible apply wrB_sound | with_reducible apply coachTake_sound | with_reducible apply Sound.ite | with_reducible split | with_reducible apply Sound.hi_upd | with_reducible (refine Sound.upd ?_ ⟨rfl, rfl⟩))

theorem replayScrub_sound {s t : State} (a0 : Replay) (h : Sound s t) : Sound s (replayScrub a0 t) := by
  simp only [replayScrub]
  repeat' (first | with_reducible exact h | with_reducible assumption | (intro _; try dsimp only) | with_reducible apply stopSet_sound | with_reducible apply replayNext_sound | with_reducible apply each_sound | with_reducible apply scrubBegin_sound | with_reducible apply Sound.ite | with_reducible split | with_reducible apply Sound.hi_upd | with_reducible (refine Sound.upd ?_ ⟨rfl, rfl⟩))

theorem replayLeave_sound {s t : State} (a0 : Ctx) (h : Sound s t) : Sound s (replayLeave a0 t) := by
  simp only [replayLeave]
  repeat' (first | with_reducible exact h | with_reducible assumption | (intro _; try dsimp only) | with_reducible apply replayScrub_sound | with_reducible apply Sound.ite | with_reducible split | with_reducible apply Sound.hi_upd | with_reducible (refine Sound.upd ?_ ⟨rfl, rfl⟩))

theorem stallCycle_sound {s t : State} (h : Sound s t) : Sound s (stallCycle t) := by
  simp only [stallCycle]
  repeat' (first | with_reducible exact h | with_reducible assumption | (intro _; try dsimp only) | with_reducible apply each_sound | with_reducible apply inc_sound | with_reducible apply Sound.ite | with_reducible split | with_reducible apply Sound.hi_upd | with_reducible (refine Sound.upd ?_ ⟨rfl, rfl⟩))

theorem modTxs_sound {s t : State} (a0 : Tx → Bool) (a1 : Tx → Tx) (h : Sound s t) : Sound s (modTxs a0 a1 t) := by
  simp only [modTxs]
  repeat' (first | with_reducible exact h | with_reducible assumption | (intro _; try dsimp only) | with_reducible apply Sound.ite | with_reducible split | with_reducible apply Sound.hi_upd | with_reducible (refine Sound.upd ?_ ⟨rfl, rfl⟩))

theorem txGone_sound {s t : State} (a0 : Tx) (h : Sound s t) : Sound s (txGone a0 t) := by
  simp only [txGone]
  repeat' (first | with_reducible exact h | with_reducible assumption | (intro _; try dsimp only) | with_reducible apply Sound.ite | with_reducible split | with_reducible apply Sound.hi_upd | with_reducible (refine Sound.upd ?_ ⟨rfl, rfl⟩))

theorem xferArrive_sound {s t : State} (a0 : Coach) (a1 : Nat) (a2 : Nat) (a3 : Nat) (a4 : Bool) (h : Sound s t) : Sound s (xferArrive a0 a1 a2 a3 a4 t) := by
  simp only [xferArrive]
  repeat' (first | with_reducible exact h | with_reducible assumption | (intro _; try dsimp only) | with_reducible apply add_sound | with_reducible apply modCo_sound | with_reducible apply Sound.ite | with_reducible split | with_reducible apply Sound.hi_upd | with_reducible (refine Sound.upd ?_ ⟨rfl, rfl⟩))

theorem fetchDone_sound {s t : State} (a0 : Coach) (a1 : Xfer) (h : Sound s t) : Sound s (fetchDone a0 a1 t) := by
  simp only [fetchDone]
  repeat' (first | with_reducible exact h | with_reducible assumption | (intro _; try dsimp only) | with_reducible apply freeBytes_sound | with_reducible apply modCo_sound | with_reducible apply modRow_sound | with_reducible apply Sound.ite | with_reducible split | with_reducible apply Sound.hi_upd | with_reducible (refine Sound.upd ?_ ⟨rfl, rfl⟩))

theorem beatsPut_sound {s t : State} (a0 : Coach) (a1 : Xfer) (a2 : Nat) (a3 : List Byte) (h : Sound s t) : Sound s (beatsPut a0 a1 a2 a3 t) := by
  simp only [beatsPut]
  repeat' (first | with_reducible exact h | with_reducible assumption | (intro _; try dsimp only) | with_reducible apply modCo_sound | with_reducible apply Sound.ite | with_reducible split | with_reducible apply Sound.hi_upd | with_reducible (refine Sound.upd ?_ ⟨rfl, rfl⟩))

theorem bufferBeat_sound {s t : State} (a0 : Coach) (a1 : Beat) (h : Sound s t) : Sound s (bufferBeat a0 a1 t) := by
  simp only [bufferBeat]
  repeat' (first | with_reducible exact h | with_reducible assumption | (intro _; try dsimp only) | with_reducible apply modCo_sound | with_reducible apply beatsPut_sound | with_reducible apply xferArrive_sound | with_reducible apply fetchDone_sound | with_reducible apply Sound.ite | with_reducible split | with_reducible apply Sound.hi_upd | with_reducible (refine Sound.upd ?_ ⟨rfl, rfl⟩))

theorem deliver_sound {s t : State} (a0 : Coach) (a1 : Beat) (h : Sound s t) : Sound s (deliver a0 a1 t) := by
  simp only [deliver]
  repeat' (first | with_reducible exact h | with_reducible assumption | (intro _; try dsimp only) | with_reducible apply bufferBeat_sound | with_reducible apply modCo_sound | with_reducible apply Sound.ite | with_reducible split | with_reducible apply Sound.hi_upd | with_reducible (refine Sound.upd ?_ ⟨rfl, rfl⟩))

theorem coachTakes_sound {s t : State} (a0 : Coach) (h : Sound s t) : Sound s (coachTakes a0 t) := by
  simp only [coachTakes]
  repeat' (first | with_reducible exact h | with_reducible assumption | (intro _; try dsimp only) | with_reducible apply bufferBeat_sound | with_reducible apply modCo_sound | with_reducible apply Sound.ite | with_reducible split | with_reducible apply Sound.hi_upd | with_reducible (refine Sound.upd ?_ ⟨rfl, rfl⟩))

theorem prefetchCycle_sound {s t : State} (h : Sound s t) : Sound s (prefetchCycle t) := by
  simp only [prefetchCycle]
  repeat' (first | with_reducible exact h | with_reducible assumption | (intro _; try dsimp only) | with_reducible apply each_sound | with_reducible apply coachTakes_sound | with_reducible apply Sound.ite | with_reducible split | with_reducible apply Sound.hi_upd | with_reducible (refine Sound.upd ?_ ⟨rfl, rfl⟩))

theorem memErr_sound {s t : State} (a0 : Nat) (a1 : Nat) (a2 : Nat) (a3 : Nat) (a4 : Option Nat) (h : Sound s t) : Sound s (memErr a0 a1 a2 a3 a4 t) := by
  simp only [memErr]
  repeat' (first | with_reducible exact h | with_reducible assumption | (intro _; try dsimp only) | with_reducible apply modRow_sound | with_reducible apply raiseFault_sound | with_reducible apply raise_sound | with_reducible apply Sound.ite | with_reducible split | with_reducible apply Sound.hi_upd | with_reducible (refine Sound.upd ?_ ⟨rfl, rfl⟩))

theorem errRecord_sound {s t : State} (a0 : Tx) (a1 : Nat) (h : Sound s t) : Sound s (errRecord a0 a1 t) := by
  simp only [errRecord]
  repeat' (first | with_reducible exact h | with_reducible assumption | (intro _; try dsimp only) | with_reducible apply inc_sound | with_reducible apply wr_sound | with_reducible apply wrs_sound | with_reducible apply markBit_sound | with_reducible apply memErr_sound | with_reducible apply Sound.ite | with_reducible split | with_reducible apply Sound.hi_upd | with_reducible (refine Sound.upd ?_ ⟨rfl, rfl⟩))

theorem latency_sound {s t : State} (a0 : Tx) (h : Sound s t) : Sound s (latency a0 t) := by
  unfold latency
  extract_lets ns u
  have hu : Sound s u := Sound.ite (wr_sound _ _ h) h
  clear_value u
  exact Sound.ite (raise_sound _ (inc_sound _ hu)) hu

theorem orphan_sound {s t : State} (a0 : Tx) (a1 : Bool) (h : Sound s t) : Sound s (orphan a0 a1 t) := by
  simp only [orphan]
  repeat' (first | with_reducible exact h | with_reducible assumption | (intro _; try dsimp only) | with_reducible apply inc_sound | with_reducible apply wr_sound | with_reducible apply txGone_sound | with_reducible apply Sound.ite | with_reducible split | with_reducible apply Sound.hi_upd | with_reducible (refine Sound.upd ?_ ⟨rfl, rfl⟩))

theorem txEnd_sound {s t : State} (a0 : Tx) (h : Sound s t) : Sound s (txEnd a0 t) := by
  simp only [txEnd]
  repeat' (first | with_reducible exact h | with_reducible assumption | (intro _; try dsimp only) | with_reducible apply txGone_sound | with_reducible apply latency_sound | with_reducible apply Sound.ite | with_reducible split | with_reducible apply Sound.hi_upd | with_reducible (refine Sound.upd ?_ ⟨rfl, rfl⟩))

theorem zeroBeats_sound {s t : State} (a0 : Coach) (a1 : Tx) (a2 : Nat) (h : Sound s t) : Sound s (zeroBeats a0 a1 a2 t) := by
  simp only [zeroBeats]
  repeat' (first | with_reducible exact h | with_reducible assumption | (intro _; try dsimp only) | with_reducible apply beatsPut_sound | with_reducible apply modCo_sound | with_reducible apply Sound.ite | with_reducible split | with_reducible apply Sound.hi_upd | with_reducible (refine Sound.upd ?_ ⟨rfl, rfl⟩))

theorem ownBeat_sound {s t : State} (a0 : Tx) (a1 : Bool) (a2 : List Byte) (h : Sound s t) : Sound s (ownBeat a0 a1 a2 t) := by
  simp only [ownBeat]
  repeat' (first | with_reducible exact h | with_reducible assumption | (intro _; try dsimp only) | with_reducible apply stampBack_sound | with_reducible apply stripBack_sound | with_reducible apply modDg_sound | with_reducible apply Sound.ite | with_reducible split | with_reducible apply Sound.hi_upd | with_reducible (refine Sound.upd ?_ ⟨rfl, rfl⟩))

theorem initBeat_sound {s t : State} (a0 : Nat) (h : Sound s t) : Sound s (initBeat a0 t) := by
  simp only [initBeat]
  repeat' (first | with_reducible exact h | with_reducible assumption | (intro _; try dsimp only) | with_reducible apply Sound.ite | with_reducible split | with_reducible apply Sound.hi_upd | with_reducible (refine Sound.upd ?_ ⟨rfl, rfl⟩))

theorem initWritten_sound {s t : State} (a0 : Nat) (h : Sound s t) : Sound s (initWritten a0 t) := by
  simp only [initWritten]
  repeat' (first | with_reducible exact h | with_reducible assumption | (intro _; try dsimp only) | with_reducible apply Sound.ite | with_reducible split | with_reducible apply Sound.hi_upd | with_reducible (refine Sound.upd ?_ ⟨rfl, rfl⟩))

theorem initAccept_sound {s t : State} (h : Sound s t) : Sound s (initAccept t) := by
  simp only [initAccept]
  repeat' (first | with_reducible exact h | with_reducible assumption | (intro _; try dsimp only) | with_reducible apply Sound.ite | with_reducible split | with_reducible apply Sound.hi_upd | with_reducible (refine Sound.upd ?_ ⟨rfl, rfl⟩))

theorem haloWritten_sound {s t : State} (a0 : Tx) (h : Sound s t) : Sound s (haloWritten a0 t) := by
  simp only [haloWritten]
  repeat' (first | with_reducible exact h | with_reducible assumption | (intro _; try dsimp only) | with_reducible apply Sound.ite | with_reducible split | with_reducible apply Sound.hi_upd | with_reducible (refine Sound.upd ?_ ⟨rfl, rfl⟩))

theorem ownSpend_sound {s t : State} (a0 : Nat) (a1 : Nat) (h : Sound s t) : Sound s (ownSpend a0 a1 t) := by
  simp only [ownSpend]
  repeat' (first | with_reducible exact h | with_reducible assumption | (intro _; try dsimp only) | with_reducible apply Sound.ite | with_reducible split | with_reducible apply Sound.hi_upd | with_reducible (refine Sound.upd ?_ ⟨rfl, rfl⟩))

theorem ownIssue_sound {s t : State} (a0 : Nat) (h : Sound s t) : ∀ v, ownIssue a0 t = some v → Sound s v := by
  unfold ownIssue
  split
  · exact Sound.opt_none
  split
  · exact Sound.opt_none
  extract_lets src gone a left slot key xts k
  have hg : Sound s gone := Sound.upd h ⟨rfl, rfl⟩
  clear_value gone
  refine Sound.opt_ite (Sound.opt_some hg) (Sound.opt_ite (Sound.opt_some (wr_sound _ _ (add_sound _ _ hg)))
    (Sound.opt_ite (Sound.opt_some (memErr_sound _ _ _ _ _ hg)) (Sound.opt_ite (Sound.opt_some hg) (Sound.opt_ite Sound.opt_none ?_))))
  split
  · exact Sound.opt_none
  · rename_i e1
    exact Sound.opt_some (ownSpend_sound _ _ (Sound.upd (presentTx_sound _ _ _ _ _ _ _ _ _ _ _ h _ e1) ⟨rfl, rfl⟩))

theorem ownGo_sound {s t : State} (a0 : Nat) (h : Sound s t) : Sound s (ownGo a0 t) := by
  induction a0 generalizing t with
  | zero => exact h
  | succ n ih =>
    unfold ownGo
    split
    · exact h
    · rename_i e
      obtain ⟨k, _, e⟩ := List.exists_of_findSome?_eq_some e
      exact ih (ownIssue_sound k h _ e)

theorem ownCycle_sound {s t : State} (h : Sound s t) : Sound s (ownCycle t) := by
  simp only [ownCycle]
  repeat' (first | with_reducible exact h | with_reducible assumption | (intro _; try dsimp only) | with_reducible apply ownGo_sound | with_reducible apply Sound.ite | with_reducible split | with_reducible apply Sound.hi_upd | with_reducible (refine Sound.upd ?_ ⟨rfl, rfl⟩))

theorem initStep_sound {s t : State} (h : Sound s t) : ∀ v, initStep t = some v → Sound s v := by
  unfold initStep
  split
  · exact Sound.opt_none
  split
  · exact Sound.opt_none
  extract_lets src gone
  have hg : Sound s gone := Sound.upd h ⟨rfl, rfl⟩
  clear_value gone
  refine Sound.opt_ite (Sound.opt_some (wr_sound _ _ (add_sound _ _ hg))) (Sound.opt_ite Sound.opt_none ?_)
  split
  · exact Sound.opt_none
  · exact Sound.opt_some (emit_sound _ (Sound.upd h ⟨rfl, rfl⟩))

theorem initGo_sound {s t : State} (a0 : Nat) (h : Sound s t) : Sound s (initGo a0 t) := by
  induction a0 generalizing t with
  | zero => exact h
  | succ n ih =>
    unfold initGo
    split
    · exact h
    · rename_i e
      exact ih (initStep_sound h _ e)

theorem initCycle_sound {s t : State} (h : Sound s t) : Sound s (initCycle t) := by
  simp only [initCycle]
  repeat' (first | with_reducible exact h | with_reducible assumption | (intro _; try dsimp only) | with_reducible apply initGo_sound | with_reducible apply Sound.ite | with_reducible split | with_reducible apply Sound.hi_upd | with_reducible (refine Sound.upd ?_ ⟨rfl, rfl⟩))

theorem abandon_sound {s t : State} (a0 : Tx → Bool) (h : Sound s t) : Sound s (abandon a0 t) := by
  simp only [abandon]
  repeat' (first | with_reducible exact h | with_reducible assumption | (intro _; try dsimp only) | with_reducible apply modTxs_sound | with_reducible apply each_sound | with_reducible apply inc_sound | with_reducible apply raiseFault_sound | with_reducible apply Sound.ite | with_reducible split | with_reducible apply Sound.hi_upd | with_reducible (refine Sound.upd ?_ ⟨rfl, rfl⟩))

theorem beginEntry_sound {s t : State} (a0 : Coach) (a1 : Ctx) (a2 : Nat) (a3 : NextEnt) (a4 : Nat) (h : Sound s t) : Sound s (beginEntry a0 a1 a2 a3 a4 t) := by
  simp only [beginEntry]
  repeat' (first | with_reducible exact h | with_reducible assumption | (intro _; try dsimp only) | with_reducible apply chargeOverrun_sound | with_reducible apply wr_sound | with_reducible apply modCx_sound | with_reducible apply modCo_sound | with_reducible apply Sound.ite | with_reducible split | with_reducible apply Sound.hi_upd | with_reducible (refine Sound.upd ?_ ⟨rfl, rfl⟩))

theorem pushXfer_sound {s t : State} (a0 : Coach) (a1 : Xfer) (h : Sound s t) : Sound s (pushXfer a0 a1 t) := by
  simp only [pushXfer]
  repeat' (first | with_reducible exact h | with_reducible assumption | (intro _; try dsimp only) | with_reducible apply modCo_sound | with_reducible apply Sound.ite | with_reducible split | with_reducible apply Sound.hi_upd | with_reducible (refine Sound.upd ?_ ⟨rfl, rfl⟩))

theorem admitOne_sound {s t : State} (a0 : Coach) (a1 : RunSt) (a2 : Bool) (a3 : XferEnt) (h : Sound s t) : Sound s (admitOne a0 a1 a2 a3 t) := by
  simp only [admitOne]
  repeat' (first | with_reducible exact h | with_reducible assumption | (intro _; try dsimp only) | with_reducible apply pushXfer_sound | with_reducible apply raiseFault_sound | with_reducible apply Sound.ite | with_reducible split | with_reducible apply Sound.hi_upd | with_reducible (refine Sound.upd ?_ ⟨rfl, rfl⟩))

theorem admitDue_sound {s t : State} (a0 : Coach) (h : Sound s t) : Sound s (admitDue a0 t) := by
  simp only [admitDue]
  repeat' (first | with_reducible exact h | with_reducible assumption | (intro _; try dsimp only) | with_reducible apply modCo_sound | with_reducible apply each_sound | with_reducible apply admitOne_sound | with_reducible apply Sound.ite | with_reducible split | with_reducible apply Sound.hi_upd | with_reducible (refine Sound.upd ?_ ⟨rfl, rfl⟩))

theorem putXfer_sound {s t : State} (a0 : Coach) (a1 : Nat) (a2 : Xfer) (h : Sound s t) : Sound s (putXfer a0 a1 a2 t) := by
  simp only [putXfer]
  repeat' (first | with_reducible exact h | with_reducible assumption | (intro _; try dsimp only) | with_reducible apply modCo_sound | with_reducible apply Sound.ite | with_reducible split | with_reducible apply Sound.hi_upd | with_reducible (refine Sound.upd ?_ ⟨rfl, rfl⟩))

theorem issueStep_sound {s t : State} (a0 : Coach) (h : Sound s t) : ∀ v, issueStep a0 t = some v → Sound s v := by
  unfold issueStep
  split
  · exact Sound.opt_none
  split
  · exact Sound.opt_none
  split
  · exact Sound.opt_none
  refine Sound.opt_ite (Sound.opt_some (putXfer_sound _ _ _ h)) (Sound.opt_ite Sound.opt_none ?_)
  extract_lets conf xts slot refused ends zero room addr k a plain
  have hz : Sound s ends := putXfer_sound _ _ _ h
  clear_value ends
  have hb : Sound s zero := Sound.ite hz (beatsPut_sound _ _ _ _ hz)
  clear_value zero
  refine Sound.opt_ite (Sound.opt_ite (Sound.opt_some (wr_sound _ _ (add_sound _ _ hz)))
    (Sound.opt_some (memErr_sound _ _ _ _ _ hb))) (Sound.opt_ite Sound.opt_none
    (Sound.opt_ite (Sound.opt_ite ?_ Sound.opt_none) (Sound.opt_ite Sound.opt_none ?_)))
  · split
    · exact Sound.opt_ite (Sound.opt_some (modCo_sound _ _ h)) Sound.opt_none
    · exact Sound.opt_none
  · split
    · exact Sound.opt_none
    · rename_i e1
      exact Sound.opt_some (modCo_sound _ _ (putXfer_sound _ _ _ (presentTx_sound _ _ _ _ _ _ _ _ _ _ _ h _ e1)))

theorem issueAll_sound {s t : State} (a0 : Coach) (a1 : Nat) (h : Sound s t) : Sound s (issueAll a0 a1 t) := by
  induction a1 generalizing t with
  | zero => exact h
  | succ n ih =>
    unfold issueAll
    split
    · exact h
    · exact ih (issueStep_sound _ h _ (by assumption))

theorem queueRoom_sound {s t : State} (a0 : Coach) (h : Sound s t) : Sound s (queueRoom a0 t) := by
  simp only [queueRoom]
  repeat' (first | with_reducible exact h | with_reducible assumption | (intro _; try dsimp only) | with_reducible apply add_sound | with_reducible apply modCo_sound | with_reducible apply Sound.ite | with_reducible split | with_reducible apply Sound.hi_upd | with_reducible (refine Sound.upd ?_ ⟨rfl, rfl⟩))

theorem modRun_sound {s t : State} (a0 : Coach) (a1 : RunSt → RunSt) (h : Sound s t) : Sound s (modRun a0 a1 t) := by
  simp only [modRun]
  repeat' (first | with_reducible exact h | with_reducible assumption | (intro _; try dsimp only) | with_reducible apply modCo_sound | with_reducible apply Sound.ite | with_reducible split | with_reducible apply Sound.hi_upd | with_reducible (refine Sound.upd ?_ ⟨rfl, rfl⟩))

theorem coachNumeric_sound {s t : State} (a0 : Coach) (a1 : CEv) (h : Sound s t) : Sound s (coachNumeric a0 a1 t) := by
  simp only [coachNumeric]
  repeat' (first | with_reducible exact h | with_reducible assumption | (intro _; try dsimp only) | with_reducible apply add_sound | with_reducible apply markBit_sound | with_reducible apply modRun_sound | with_reducible apply coachFault_sound | with_reducible apply Sound.ite | with_reducible split | with_reducible apply Sound.hi_upd | with_reducible (refine Sound.upd ?_ ⟨rfl, rfl⟩))

theorem sramWrite_sound {s t : State} (a0 : Coach) (a1 : Nat) (a2 : List (Nat × List Byte)) (h : Sound s t) : Sound s (sramWrite a0 a1 a2 t) := by
  simp only [sramWrite]
  repeat' (first | with_reducible exact h | with_reducible assumption | (intro _; try dsimp only) | with_reducible apply each_sound | with_reducible apply modCo_sound | with_reducible apply Sound.ite | with_reducible split | with_reducible apply Sound.hi_upd | with_reducible (refine Sound.upd ?_ ⟨rfl, rfl⟩))

theorem freeWrites_sound {s t : State} (a0 : Writes) (h : Sound s t) : Sound s (freeWrites a0 t).2 :=
  free_sound (free_sound (freeBytes_sound _ h))

theorem settleOpen_sound {s t : State} (a0 : Bool) (a1 : Writes) (h : Sound s t) : Sound s (settleOpen a0 a1 t).2 := by
  unfold settleOpen; split
  · exact freeWrites_sound _ h
  · exact h

theorem postStage_sound {s t : State} (a0 : Coach) (a1 : List Byte) (a2 : Nat) (a3 : Nat) (h : Sound s t) : Sound s (postStage a0 a1 a2 a3 t) := by
  unfold postStage
  refine foldl_keeps (fun z : Nat × State => Sound s z.2) (fun z i k => ?_) _ h
  extract_lets d m w
  have hw : Sound s w.2 := settleOpen_sound _ _ k
  clear_value w
  exact Sound.ite k (coachNumeric_sound _ _ (sramWrite_sound _ _ _ hw))

theorem borderPut_sound {s t : State} (a0 : Coach) (a1 : Border) (h : Sound s t) : Sound s (borderPut a0 a1 t) := by
  simp only [borderPut]
  repeat' (first | with_reducible exact h | with_reducible assumption | (intro _; try dsimp only) | with_reducible apply sramWrite_sound | with_reducible apply Sound.ite | with_reducible split | with_reducible apply Sound.hi_upd | with_reducible (refine Sound.upd ?_ ⟨rfl, rfl⟩))

theorem eccPut_sound {s t : State} (a0 : Coach) (a1 : EccObs) (h : Sound s t) : Sound s (eccPut a0 a1 t) := by
  simp only [eccPut]
  repeat' (first | with_reducible exact h | with_reducible assumption | (intro _; try dsimp only) | with_reducible apply modCo_sound | with_reducible apply Sound.ite | with_reducible split | with_reducible apply Sound.hi_upd | with_reducible (refine Sound.upd ?_ ⟨rfl, rfl⟩))

theorem coachEcc_sound {s t : State} (a0 : Coach) (a1 : EccObs) (h : Sound s t) : Sound s (coachEcc a0 a1 t) := by
  simp only [coachEcc]
  repeat' (first | with_reducible exact h | with_reducible assumption | (intro _; try dsimp only) | with_reducible apply markBit_sound | with_reducible apply add_sound | with_reducible apply coachFault_sound | with_reducible apply inc_sound | with_reducible apply Sound.ite | with_reducible split | with_reducible apply Sound.hi_upd | with_reducible (refine Sound.upd ?_ ⟨rfl, rfl⟩))

theorem runFault_sound {s t : State} (a0 : Coach) (h : Sound s t) : Sound s (runFault a0 t) := by
  simp only [runFault]
  repeat' (first | with_reducible exact h | with_reducible assumption | (intro _; try dsimp only) | with_reducible apply coachFault_sound | with_reducible apply modRun_sound | with_reducible apply Sound.ite | with_reducible split | with_reducible apply Sound.hi_upd | with_reducible (refine Sound.upd ?_ ⟨rfl, rfl⟩))

theorem drainWrites_sound {s t : State} (a0 : Coach) (a1 : RunSt) (a2 : Nat × Nat × Nat) (a3 : Nat) (h : Sound s t) : Sound s (drainWrites a0 a1 a2 a3 t) := by
  simp only [drainWrites]
  repeat' (first | with_reducible exact h | with_reducible assumption | (intro _; try dsimp only) | with_reducible apply settleOpen_sound | with_reducible apply coachNumeric_sound | with_reducible apply sramWrite_sound | with_reducible apply Sound.ite | with_reducible split | with_reducible apply Sound.hi_upd | with_reducible (refine Sound.upd ?_ ⟨rfl, rfl⟩))

theorem finishRun_sound {s t : State} (a0 : Coach) (h : Sound s t) : Sound s (finishRun a0 t) := by
  simp only [finishRun]
  repeat' (first | with_reducible exact h | with_reducible assumption | (intro _; try dsimp only) | with_reducible apply runTo_sound | with_reducible apply runFault_sound | with_reducible apply modRun_sound | with_reducible apply Sound.ite | with_reducible split | with_reducible apply Sound.hi_upd | with_reducible (refine Sound.upd ?_ ⟨rfl, rfl⟩))

theorem finishDrain_sound {s t : State} (a0 : Coach) (h : Sound s t) : Sound s (finishDrain a0 t) := by
  simp only [finishDrain]
  repeat' (first | with_reducible exact h | with_reducible assumption | (intro _; try dsimp only) | with_reducible apply stallTo_sound | with_reducible apply runTo_sound | with_reducible apply runFault_sound | with_reducible apply modRun_sound | with_reducible apply drainWrites_sound | with_reducible apply Sound.ite | with_reducible split | with_reducible apply Sound.hi_upd | with_reducible (refine Sound.upd ?_ ⟨rfl, rfl⟩))

theorem clashStop_sound {s t : State} (a0 : Coach) (h : Sound s t) : Sound s (clashStop a0 t) := by
  simp only [clashStop]
  repeat' (first | with_reducible exact h | with_reducible assumption | (intro _; try dsimp only) | with_reducible apply drainWrites_sound | with_reducible apply postStage_sound | with_reducible apply coachFault_sound | with_reducible apply Sound.ite | with_reducible split | with_reducible apply Sound.hi_upd | with_reducible (refine Sound.upd ?_ ⟨rfl, rfl⟩))

theorem coachEvents_sound {s t : State} (a0 : Coach) (a1 : Bool) (a2 : Nat) (h : Sound s t) : Sound s (coachEvents a0 a1 a2 t) := by
  induction a2 generalizing t with
  | zero => exact h
  | succ n ih =>
    have hr := finishRun_sound a0 h
    have hd := finishDrain_sound a0 h
    unfold coachEvents
    split
    · exact clashStop_sound _ (runFault_sound _ (coachSettle_sound _ h))
    · exact Sound.ite hr (ih hr)
    · exact Sound.ite (ih hd) hd
    · exact Sound.ite (Sound.ite hr (ih hr)) (Sound.ite (ih hd) hd)

theorem transferIssue_sound {s t : State} (a0 : Coach) (a1 : EccObs) (h : Sound s t) : Sound s (transferIssue a0 a1 t) := by
  simp only [transferIssue]
  repeat' (first | with_reducible exact h | with_reducible assumption | (intro _; try dsimp only) | with_reducible apply admitDue_sound | with_reducible apply syncSettle_sound | with_reducible apply queueRoom_sound | with_reducible apply eccPut_sound | with_reducible apply coachEcc_sound | with_reducible apply issueAll_sound | with_reducible apply Sound.ite | with_reducible split | with_reducible apply Sound.hi_upd | with_reducible (refine Sound.upd ?_ ⟨rfl, rfl⟩))

theorem recordStage_sound {s t : State} (a0 : Coach) (a1 : RunSt) (h : Sound s t) : Sound s (recordStage a0 a1 t) := by
  simp only [recordStage]
  repeat' (first | with_reducible exact h | with_reducible assumption | (intro _; try dsimp only) | with_reducible apply inc_sound | with_reducible apply modCo_sound | with_reducible apply modRow_sound | with_reducible apply Sound.ite | with_reducible split | with_reducible apply Sound.hi_upd | with_reducible (refine Sound.upd ?_ ⟨rfl, rfl⟩))

theorem rowDone_sound {s t : State} (a0 : RunSt) (h : Sound s t) : Sound s (rowDone a0 t) := by
  simp only [rowDone]
  repeat' (first | with_reducible exact h | with_reducible assumption | (intro _; try dsimp only) | with_reducible apply modCx_sound | with_reducible apply modRow_sound | with_reducible apply Sound.ite | with_reducible split | with_reducible apply Sound.hi_upd | with_reducible (refine Sound.upd ?_ ⟨rfl, rfl⟩))

theorem endStage_sound {s t : State} (a0 : Coach) (a1 : EccObs) (a2 : List Border) (h : Sound s t) : Sound s (endStage a0 a1 a2 t) := by
  simp only [endStage]
  repeat' (first | with_reducible exact h | with_reducible assumption | (intro _; try dsimp only) | with_reducible apply clashStop_sound | with_reducible apply runFault_sound | with_reducible apply coachSettle_sound | with_reducible apply eccPut_sound | with_reducible apply admitDue_sound | with_reducible apply each_sound | with_reducible apply borderPut_sound | with_reducible apply postStage_sound | with_reducible apply coachEcc_sound | with_reducible apply recordStage_sound | with_reducible apply modCx_sound | with_reducible apply rowDone_sound | with_reducible apply modCo_sound | with_reducible apply wr_sound | with_reducible apply Sound.ite | with_reducible split | with_reducible apply Sound.hi_upd | with_reducible (refine Sound.upd ?_ ⟨rfl, rfl⟩))

theorem caClear_sound {s t : State} (a0 : Coach) (a1 : List Fld) (h : Sound s t) : Sound s (caClear a0 a1 t) := by
  simp only [caClear]
  repeat' (first | with_reducible exact h | with_reducible assumption | (intro _; try dsimp only) | with_reducible apply hostTo_sound | with_reducible apply cntClr_sound | with_reducible apply coachSettle_sound | with_reducible apply Sound.ite | with_reducible split | with_reducible apply Sound.hi_upd | with_reducible (refine Sound.upd ?_ ⟨rfl, rfl⟩))

theorem gigFault_sound {s t : State} (a0 : Nat) (a1 : Nat) (a2 : Coach) (h : Sound s t) : Sound s (gigFault a0 a1 a2 t) := by
  simp only [gigFault]
  repeat' (first | with_reducible exact h | with_reducible assumption | (intro _; try dsimp only) | with_reducible apply raiseFault_sound | with_reducible apply Sound.ite | with_reducible split | with_reducible apply Sound.hi_upd | with_reducible (refine Sound.upd ?_ ⟨rfl, rfl⟩))

theorem gigNumeric_sound {s t : State} (a0 : Coach) (a1 : CEv) (h : Sound s t) : Sound s (gigNumeric a0 a1 t) := by
  simp only [gigNumeric]
  repeat' (first | with_reducible exact h | with_reducible assumption | (intro _; try dsimp only) | with_reducible apply add_sound | with_reducible apply markBit_sound | with_reducible apply gigFault_sound | with_reducible apply Sound.ite | with_reducible split | with_reducible apply Sound.hi_upd | with_reducible (refine Sound.upd ?_ ⟨rfl, rfl⟩))

theorem gigEccPut_sound {s t : State} (a0 : Coach) (a1 : EccObs) (h : Sound s t) : Sound s (gigEccPut a0 a1 t) := by
  simp only [gigEccPut]
  repeat' (first | with_reducible exact h | with_reducible assumption | (intro _; try dsimp only) | with_reducible apply eccPut_sound | with_reducible apply Sound.ite | with_reducible split | with_reducible apply Sound.hi_upd | with_reducible (refine Sound.upd ?_ ⟨rfl, rfl⟩))

theorem gigEcc_sound {s t : State} (a0 : Coach) (a1 : EccObs) (h : Sound s t) : Sound s (gigEcc a0 a1 t) := by
  simp only [gigEcc]
  repeat' (first | with_reducible exact h | with_reducible assumption | (intro _; try dsimp only) | with_reducible apply markBit_sound | with_reducible apply add_sound | with_reducible apply gigFault_sound | with_reducible apply inc_sound | with_reducible apply coachEcc_sound | with_reducible apply Sound.ite | with_reducible split | with_reducible apply Sound.hi_upd | with_reducible (refine Sound.upd ?_ ⟨rfl, rfl⟩))

theorem gigLayers_sound {s t : State} (a0 : Ctx) (a1 : Coach) (a2 : Nat) (h : Sound s t) : Sound s (gigLayers a0 a1 a2 t).1 := by
  unfold gigLayers
  extract_lets img m tables
  refine foldl_keeps (fun z : State × CEv => Sound s z.1) (fun z j k => ?_) _ h
  exact sramWrite_sound _ _ _ (settleOpen_sound _ _ k)

theorem ggClear_sound {s t : State} (a0 : List Fld) (h : Sound s t) : Sound s (ggClear a0 t) := by
  simp only [ggClear]
  repeat' (first | with_reducible exact h | with_reducible assumption | (intro _; try dsimp only) | with_reducible apply hostTo_sound | with_reducible apply cntClr_sound | with_reducible apply gigSettle_sound | with_reducible apply Sound.ite | with_reducible split | with_reducible apply Sound.hi_upd | with_reducible (refine Sound.upd ?_ ⟨rfl, rfl⟩))

theorem settleAt_sound {s t : State} (a0 : Nat) (h : Sound s t) : Sound s (settleAt a0 t) := by
  simp only [settleAt]
  repeat' (first | with_reducible exact h | with_reducible assumption | (intro _; try dsimp only) | with_reducible apply coachSettle_sound | with_reducible apply gigSettle_sound | with_reducible apply Sound.ite | with_reducible split | with_reducible apply Sound.hi_upd | with_reducible (refine Sound.upd ?_ ⟨rfl, rfl⟩))

theorem pathWrite_sound {s t : State} (a0 : Proc) (a1 : Nat) (a2 : Nat) (h : Sound s t) : Sound s (pathWrite a0 a1 a2 t) := by
  simp only [pathWrite]
  repeat' (first | with_reducible exact h | with_reducible assumption | (intro _; try dsimp only) | with_reducible apply dgRegWrite_sound | with_reducible apply each_sound | with_reducible apply classTo_sound | with_reducible apply routeTo_sound | with_reducible apply Sound.ite | with_reducible split | with_reducible apply Sound.hi_upd | with_reducible (refine Sound.upd ?_ ⟨rfl, rfl⟩))

theorem switchReached_sound {s t : State} (a0 : Ctx) (a1 : Ctx) (a2 : Coach) (h : Sound s t) : Sound s (switchReached a0 a1 a2 t) :=
  switchCharge_sound _ _ _ (add_sound _ _ (modCx_sound _ _ h))

theorem switchSeen_sound {s t : State} (a0 : Ctx) (h : Sound s t) : Sound s (switchSeen a0 t) := by
  simp only [switchSeen]
  repeat' (first | with_reducible exact h | with_reducible assumption | (intro _; try dsimp only) | with_reducible apply each_sound | with_reducible apply syncSettle_sound | with_reducible apply switchReached_sound | with_reducible apply Sound.ite | with_reducible split | with_reducible apply Sound.hi_upd | with_reducible (refine Sound.upd ?_ ⟨rfl, rfl⟩))

theorem switchCycle_sound {s t : State} (h : Sound s t) : Sound s (switchCycle t) := by
  simp only [switchCycle]
  repeat' (first | with_reducible exact h | with_reducible assumption | (intro _; try dsimp only) | with_reducible apply each_sound | with_reducible apply switchSeen_sound | with_reducible apply Sound.ite | with_reducible split | with_reducible apply Sound.hi_upd | with_reducible (refine Sound.upd ?_ ⟨rfl, rfl⟩))

theorem scrubLeave_sound {s t : State} (a0 : Coach) (h : Sound s t) : Sound s (scrubLeave a0 t) := by
  simp only [scrubLeave]
  repeat' (first | with_reducible exact h | with_reducible assumption | (intro _; try dsimp only) | with_reducible apply modCo_sound | with_reducible apply restoreBegin_sound | with_reducible apply coachFree_sound | with_reducible apply Sound.ite | with_reducible split | with_reducible apply Sound.hi_upd | with_reducible (refine Sound.upd ?_ ⟨rfl, rfl⟩))

theorem scrubPassed_sound {s t : State} (a0 : Coach) (h : Sound s t) : Sound s (scrubPassed a0 t) := by
  unfold scrubPassed
  extract_lets b s1 eps s2 s3
  have h1 : Sound s s1 := scrubLeave_sound _ h
  have h2 : Sound s s2 := Sound.ite (each_sound _ (fun _ _ k => episodeEnd_sound _ k) h1) h1
  have h3 : Sound s s3 := each_sound _ (fun _ _ k => Sound.ite (tearScrubbed_sound _ (modCx_sound _ _ k)) k) h2
  clear_value s3
  split
  · exact h3
  · refine Sound.ite h3 ?_
    extract_lets left s4
    have h4 : Sound s s4 := Sound.upd h3 ⟨rfl, rfl⟩
    exact Sound.ite h4 (replayNext_sound (each_sound _ (fun _ _ k => episodeEnd_sound _ k) h4))

theorem scrubRelease_sound {s t : State} (h : Sound s t) : Sound s (scrubRelease t) := by
  unfold scrubRelease
  extract_lets go fs src1 src2 u v w
  have hu : Sound s u := Sound.upd h ⟨rfl, rfl⟩
  have hv : Sound s v := each_sound _ (fun _ _ k => emit_sound _ k) hu
  have hw : Sound s w := each_sound _ (fun _ _ k => originate_sound _ _ _ _ _ _ _ k) hv
  exact each_sound _ (fun _ _ k => each_sound _ (fun _ _ k => summaryTry_sound _ _ k) (postRows_sound _ k)) hw

theorem restoreCoach_sound {s t : State} (a0 : Coach) (a1 : Ctx) (a2 : SaveSt) (a3 : List Byte) (h : Sound s t) : Sound s (restoreCoach a0 a1 a2 a3 t) := by
  simp only [restoreCoach]
  repeat' (first | with_reducible exact h | with_reducible assumption | (intro _; try dsimp only) | with_reducible apply modCo_sound | with_reducible apply modCx_sound | with_reducible apply Sound.ite | with_reducible split | with_reducible apply Sound.hi_upd | with_reducible (refine Sound.upd ?_ ⟨rfl, rfl⟩))

theorem jobOver_sound {s t : State} (a0 : Ctx) (h : Sound s t) : Sound s (jobOver a0 t) := by
  simp only [jobOver]
  repeat' (first | with_reducible exact h | with_reducible assumption | (intro _; try dsimp only) | with_reducible apply wrs_sound | with_reducible apply showRateMax_sound | with_reducible apply modCx_sound | with_reducible apply Sound.ite | with_reducible split | with_reducible apply Sound.hi_upd | with_reducible (refine Sound.upd ?_ ⟨rfl, rfl⟩))

theorem flashWrite_sound {s t : State} (a0 : Nat) (a1 : List Byte) (h : Sound s t) : Sound s (flashWrite a0 a1 t) := by
  simp only [flashWrite]
  repeat' (first | with_reducible exact h | with_reducible assumption | (intro _; try dsimp only) | with_reducible apply Sound.ite | with_reducible split | with_reducible apply Sound.hi_upd | with_reducible (refine Sound.upd ?_ ⟨rfl, rfl⟩))

theorem dirSet_sound {s t : State} (a0 : Nat) (a1 : Nat) (h : Sound s t) : Sound s (dirSet a0 a1 t) := by
  simp only [dirSet]
  repeat' (first | with_reducible exact h | with_reducible assumption | (intro _; try dsimp only) | with_reducible apply Sound.ite | with_reducible split | with_reducible apply Sound.hi_upd | with_reducible (refine Sound.upd ?_ ⟨rfl, rfl⟩))

theorem dirRecord_sound {s t : State} (a0 : Nat) (a1 : Nat) (a2 : Nat) (a3 : Nat) (h : Sound s t) : Sound s (dirRecord a0 a1 a2 a3 t) := by
  simp only [dirRecord]
  repeat' (first | with_reducible exact h | with_reducible assumption | (intro _; try dsimp only) | with_reducible apply dirSet_sound | with_reducible apply Sound.ite | with_reducible split | with_reducible apply Sound.hi_upd | with_reducible (refine Sound.upd ?_ ⟨rfl, rfl⟩))

theorem dirSetVer_sound {s t : State} (a0 : Nat) (a1 : Nat) (a2 : Nat) (h : Sound s t) : Sound s (dirSetVer a0 a1 a2 t) := by
  simp only [dirSetVer]
  repeat' (first | with_reducible exact h | with_reducible assumption | (intro _; try dsimp only) | with_reducible apply dirSet_sound | with_reducible apply Sound.ite | with_reducible split | with_reducible apply Sound.hi_upd | with_reducible (refine Sound.upd ?_ ⟨rfl, rfl⟩))

theorem dirShow_sound {s t : State} (h : Sound s t) : Sound s (dirShow t) := by
  simp only [dirShow]
  repeat' (first | with_reducible exact h | with_reducible assumption | (intro _; try dsimp only) | with_reducible apply each_sound | with_reducible apply wrs_sound | with_reducible apply wr_sound | with_reducible apply Sound.ite | with_reducible split | with_reducible apply Sound.hi_upd | with_reducible (refine Sound.upd ?_ ⟨rfl, rfl⟩))

theorem dirWrite_sound {s t : State} (h : Sound s t) : Sound s (dirWrite t) := by
  simp only [dirWrite]
  repeat' (first | with_reducible exact h | with_reducible assumption | (intro _; try dsimp only) | with_reducible apply dgBorrow_sound | with_reducible apply dirSet_sound | with_reducible apply dirShow_sound | with_reducible apply flashWrite_sound | with_reducible apply Sound.ite | with_reducible split | with_reducible apply Sound.hi_upd | with_reducible (refine Sound.upd ?_ ⟨rfl, rfl⟩))

theorem bundleRefused_sound {s t : State} (a0 : Nat) (h : Sound s t) : Sound s (bundleRefused a0 t) := by
  simp only [bundleRefused]
  repeat' (first | with_reducible exact h | with_reducible assumption | (intro _; try dsimp only) | with_reducible apply raise_sound | with_reducible apply Sound.ite | with_reducible split | with_reducible apply Sound.hi_upd | with_reducible (refine Sound.upd ?_ ⟨rfl, rfl⟩))

theorem bundleItem_sound {s t : State} (a0 : List Byte) (h : Sound s t) : Sound s (bundleItem a0 t) := by
  simp only [bundleItem]
  repeat' (first | with_reducible exact h | with_reducible assumption | (intro _; try dsimp only) | with_reducible apply loadItem_sound | with_reducible apply raise_sound | with_reducible apply Sound.ite | with_reducible split | with_reducible apply Sound.hi_upd | with_reducible (refine Sound.upd ?_ ⟨rfl, rfl⟩))

theorem bundleLoad_sound {s t : State} (a0 : Nat) (h : Sound s t) : Sound s (bundleLoad a0 t) := by
  simp only [bundleLoad]
  repeat' (first | with_reducible exact h | with_reducible assumption | (intro _; try dsimp only) | with_reducible apply each_sound | with_reducible apply bundleItem_sound | with_reducible apply Sound.ite | with_reducible split | with_reducible apply Sound.hi_upd | with_reducible (refine Sound.upd ?_ ⟨rfl, rfl⟩))

theorem bootNext_sound {s t : State} (a0 : Nat) (a1 : Nat) (h : Sound s t) : Sound s (bootNext a0 a1 t) := by
  simp only [bootNext]
  repeat' (first | with_reducible exact h | with_reducible assumption | (intro _; try dsimp only) | with_reducible apply wr_sound | with_reducible apply Sound.ite | with_reducible split | with_reducible apply Sound.hi_upd | with_reducible (refine Sound.upd ?_ ⟨rfl, rfl⟩))

theorem bootStop_sound {s t : State} (h : Sound s t) : Sound s (bootStop t) := by
  simp only [bootStop]
  repeat' (first | with_reducible exact h | with_reducible assumption | (intro _; try dsimp only) | with_reducible apply Sound.ite | with_reducible split | with_reducible apply Sound.hi_upd | with_reducible (refine Sound.upd ?_ ⟨rfl, rfl⟩))

theorem bootHalt_sound {s t : State} (a0 : Nat) (h : Sound s t) : Sound s (bootHalt a0 t) := by
  simp only [bootHalt]
  repeat' (first | with_reducible exact h | with_reducible assumption | (intro _; try dsimp only) | with_reducible apply bootStop_sound | with_reducible apply wr_sound | with_reducible apply Sound.ite | with_reducible split | with_reducible apply Sound.hi_upd | with_reducible (refine Sound.upd ?_ ⟨rfl, rfl⟩))

theorem powerHostSide_sound {s t : State} (h : Sound s t) : Sound s (powerHostSide t) := by
  simp only [powerHostSide]
  repeat' (first | with_reducible exact h | with_reducible assumption | (intro _; try dsimp only) | with_reducible apply pwrRequest_sound | with_reducible apply Sound.ite | with_reducible split | with_reducible apply Sound.hi_upd | with_reducible (refine Sound.upd ?_ ⟨rfl, rfl⟩))

theorem fallBack_sound {s t : State} (a0 : Nat) (h : Sound s t) : Sound s (fallBack a0 t) := by
  simp only [fallBack]
  repeat' (first | with_reducible exact h | with_reducible assumption | (intro _; try dsimp only) | with_reducible apply wr_sound | with_reducible apply dirRecord_sound | with_reducible apply Sound.ite | with_reducible split | with_reducible apply Sound.hi_upd | with_reducible (refine Sound.upd ?_ ⟨rfl, rfl⟩))

theorem startUnit_sound {s t : State} (a0 : Nat) (a1 : Nat) (h : Sound s t) : Sound s (startUnit a0 a1 t) := by
  simp only [startUnit]
  repeat' (first | with_reducible exact h | with_reducible assumption | (intro _; try dsimp only) | with_reducible apply wr_sound | with_reducible apply fallBack_sound | with_reducible apply dirWrite_sound | with_reducible apply dirSetVer_sound | with_reducible apply dirRecord_sound | with_reducible apply Sound.ite | with_reducible split | with_reducible apply Sound.hi_upd | with_reducible (refine Sound.upd ?_ ⟨rfl, rfl⟩))

theorem bootOtp_sound {s t : State} (h : Sound s t) : Sound s (bootOtp t) := by
  simp only [bootOtp]
  repeat' (first | with_reducible exact h | with_reducible assumption | (intro _; try dsimp only) | with_reducible apply otpSense_sound | with_reducible apply wrs_sound | with_reducible apply raise_sound | with_reducible apply bootStop_sound | with_reducible apply bootNext_sound | with_reducible apply pwrRequest_sound | with_reducible apply powerHostSide_sound | with_reducible apply Sound.ite | with_reducible split | with_reducible apply Sound.hi_upd | with_reducible (refine Sound.upd ?_ ⟨rfl, rfl⟩))

theorem bootTrng_sound {s t : State} (a0 : Bool) (h : Sound s t) : Sound s (bootTrng a0 t) := by
  simp only [bootTrng]
  repeat' (first | with_reducible exact h | with_reducible assumption | (intro _; try dsimp only) | with_reducible apply bootHalt_sound | with_reducible apply freeBytes_sound | with_reducible apply each_sound | with_reducible apply free_sound | with_reducible apply wr_sound | with_reducible apply bootNext_sound | with_reducible apply Sound.ite | with_reducible split | with_reducible apply Sound.hi_upd | with_reducible (refine Sound.upd ?_ ⟨rfl, rfl⟩))

theorem dirRebuilt_sound {s t : State} (h : Sound s t) : Sound s (dirRebuilt t) := by
  simp only [dirRebuilt]
  repeat' (first | with_reducible exact h | with_reducible assumption | (intro _; try dsimp only) | with_reducible apply wr_sound | with_reducible apply dirSet_sound | with_reducible apply dirWrite_sound | with_reducible apply each_sound | with_reducible apply dirSetVer_sound | with_reducible apply dirRecord_sound | with_reducible apply Sound.ite | with_reducible split | with_reducible apply Sound.hi_upd | with_reducible (refine Sound.upd ?_ ⟨rfl, rfl⟩))

theorem dirChoose_sound {s t : State} (a0 : Nat) (h : Sound s t) : Sound s (dirChoose a0 t) := by
  simp only [dirChoose]
  repeat' (first | with_reducible exact h | with_reducible assumption | (intro _; try dsimp only) | with_reducible apply fallBack_sound | with_reducible apply dirRecord_sound | with_reducible apply Sound.ite | with_reducible split | with_reducible apply Sound.hi_upd | with_reducible (refine Sound.upd ?_ ⟨rfl, rfl⟩))

theorem bootDirectory_sound {s t : State} (h : Sound s t) : Sound s (bootDirectory t) := by
  unfold bootDirectory
  extract_lets c
  refine bootNext_sound _ _ ?_
  clear_value c
  split
  · exact dirRebuilt_sound h
  · extract_lets s1 t1
    have h1 : Sound s s1 := Sound.upd h ⟨rfl, rfl⟩
    have h2 : Sound s t1 := by
      simp only [t1]
      clear_value s1
      exact each_sound _ (fun _ _ k => dirChoose_sound _ k) h1
    clear_value t1 s1
    exact Sound.ite (dirShow_sound h2) (dirWrite_sound h2)

theorem bootFirmware_sound {s t : State} (h : Sound s t) : Sound s (bootFirmware t) := by
  unfold bootFirmware
  split
  · extract_lets src src2 s1
    have h1 : Sound s s1 := powerHostSide_sound (Sound.upd (wr_sound _ _ h) ⟨rfl, rfl⟩)
    exact bootNext_sound _ _ h1
  · extract_lets s1
    have h1 : Sound s s1 := extendMR_sound _ _ _ _ (startUnit_sound _ _ h)
    clear_value s1
    exact bootNext_sound _ _ (Sound.upd (unmask_sound _ _ h1) ⟨rfl, rfl⟩)

theorem bootUds_sound {s t : State} (a0 : Bool) (h : Sound s t) : Sound s (bootUds a0 t).2 := by
  simp only [bootUds]
  repeat' (first | with_reducible exact h | with_reducible assumption | (intro _; try dsimp only) | with_reducible apply dirWrite_sound | with_reducible apply raise_sound | with_reducible apply freeBytes_sound | with_reducible apply otpProgram_sound | with_reducible apply Sound.ite | with_reducible split | with_reducible apply Sound.hi_upd | with_reducible (refine Sound.upd ?_ ⟨rfl, rfl⟩))

theorem bootRoots_sound {s t : State} (h : Sound s t) : Sound s (bootRoots t) := by
  simp only [bootRoots]
  repeat' (first | with_reducible exact h | with_reducible assumption | (intro _; try dsimp only) | with_reducible apply raise_sound | with_reducible apply wr_sound | with_reducible apply Sound.ite | with_reducible split | with_reducible apply Sound.hi_upd | with_reducible (refine Sound.upd ?_ ⟨rfl, rfl⟩))

theorem bootIdentity_sound {s t : State} (h : Sound s t) : Sound s (bootIdentity t) := by
  simp only [bootIdentity]
  repeat' (first | with_reducible exact h | with_reducible assumption | (intro _; try dsimp only) | with_reducible apply signWith_sound | with_reducible apply Sound.ite | with_reducible split | with_reducible apply Sound.hi_upd | with_reducible (refine Sound.upd ?_ ⟨rfl, rfl⟩))

theorem bootKeys_sound {s t : State} (a0 : Bool) (h : Sound s t) : Sound s (bootKeys a0 t) := by
  simp only [bootKeys]
  repeat' (first | with_reducible exact h | with_reducible assumption | (intro _; try dsimp only) | with_reducible apply bootUds_sound | with_reducible apply bootHalt_sound | with_reducible apply bootIdentity_sound | with_reducible apply bootRoots_sound | with_reducible apply bundleRefused_sound | with_reducible apply bootNext_sound | with_reducible apply bundleLoad_sound | with_reducible apply startUnit_sound | with_reducible apply Sound.ite | with_reducible split | with_reducible apply Sound.hi_upd | with_reducible (refine Sound.upd ?_ ⟨rfl, rfl⟩))

theorem bootSettings_sound {s t : State} (h : Sound s t) : Sound s (bootSettings t) := by
  simp only [bootSettings]
  repeat' (first | with_reducible exact h | with_reducible assumption | (intro _; try dsimp only) | with_reducible apply wrs_sound | with_reducible apply extendMR_sound | with_reducible apply startUnit_sound | with_reducible apply free_sound | with_reducible apply wr_sound | with_reducible apply bootNext_sound | with_reducible apply powerHostSide_sound | with_reducible apply Sound.ite | with_reducible split | with_reducible apply Sound.hi_upd | with_reducible (refine Sound.upd ?_ ⟨rfl, rfl⟩))

theorem bootServe_sound {s t : State} (h : Sound s t) : Sound s (bootServe t) := by
  simp only [bootServe]
  repeat' (first | with_reducible exact h | with_reducible assumption | (intro _; try dsimp only) | with_reducible apply setPeer_sound | with_reducible apply bootStop_sound | with_reducible apply bootNext_sound | with_reducible apply unmask_sound | with_reducible apply wr_sound | with_reducible apply Sound.ite | with_reducible split | with_reducible apply Sound.hi_upd | with_reducible (refine Sound.upd ?_ ⟨rfl, rfl⟩))

theorem bootCoachman_sound {s t : State} (h : Sound s t) : Sound s (bootCoachman t) := by
  unfold bootCoachman
  split
  · exact bootHalt_sound _ h
  · exact bootNext_sound _ _ (extendMR_sound _ _ _ _ (startUnit_sound _ _ h))

theorem bootGig_sound {s t : State} (h : Sound s t) : Sound s (bootGig t) := by
  simp only [bootGig]
  repeat' (first | with_reducible exact h | with_reducible assumption | (intro _; try dsimp only) | with_reducible apply wr_sound | with_reducible apply extendMR_sound | with_reducible apply startUnit_sound | with_reducible apply bootNext_sound | with_reducible apply Sound.ite | with_reducible split | with_reducible apply Sound.hi_upd | with_reducible (refine Sound.upd ?_ ⟨rfl, rfl⟩))

theorem releaseCoachman_sound {s t : State} (h : Sound s t) : Sound s (releaseCoachman t) := by
  simp only [releaseCoachman]
  repeat' (first | with_reducible exact h | with_reducible assumption | (intro _; try dsimp only) | with_reducible apply setPeer_sound | with_reducible apply unmask_sound | with_reducible apply wrs_sound | with_reducible apply Sound.ite | with_reducible split | with_reducible apply Sound.hi_upd | with_reducible (refine Sound.upd ?_ ⟨rfl, rfl⟩))

theorem bootReady_sound {s t : State} (h : Sound s t) : Sound s (bootReady t) := by
  simp only [bootReady]
  repeat' (first | with_reducible exact h | with_reducible assumption | (intro _; try dsimp only) | with_reducible apply wrs_sound | with_reducible apply bootNext_sound | with_reducible apply wr_sound | with_reducible apply faultNotice_sound | with_reducible apply notice_sound | with_reducible apply each_sound | with_reducible apply sbNotice_sound | with_reducible apply Sound.ite | with_reducible split | with_reducible apply Sound.hi_upd | with_reducible (refine Sound.upd ?_ ⟨rfl, rfl⟩))

theorem bootStep_sound {s t : State} (a0 : BootObs) (h : Sound s t) : Sound s (bootStep a0 t) := by
  simp only [bootStep]
  repeat' (first | with_reducible exact h | with_reducible assumption | (intro _; try dsimp only) | with_reducible apply bootBegin_sound | with_reducible apply bootNext_sound | with_reducible apply wrs_sound | with_reducible apply bootOtp_sound | with_reducible apply bootTrng_sound | with_reducible apply bootDirectory_sound | with_reducible apply bootFirmware_sound | with_reducible apply bootKeys_sound | with_reducible apply securityFault_sound | with_reducible apply bootSettings_sound | with_reducible apply bootServe_sound | with_reducible apply powerHostSide_sound | with_reducible apply bootCoachman_sound | with_reducible apply bootGig_sound | with_reducible apply releaseCoachman_sound | with_reducible apply pwrRequest_sound | with_reducible apply wr_sound | with_reducible apply holdSettle_sound | with_reducible apply bootReady_sound | with_reducible apply Sound.ite | with_reducible split | with_reducible apply Sound.hi_upd | with_reducible (refine Sound.upd ?_ ⟨rfl, rfl⟩))

theorem frameDrop_sound {s t : State} (a0 : LinkPort) (a1 : LinkFrame) (a2 : FrameFault) (h : Sound s t) : Sound s (frameDrop a0 a1 a2 t) := by
  unfold frameDrop
  extract_lets q through s1
  have h1 : Sound s s1 := Sound.ite (portSend_sound _ _ h) h
  clear_value s1
  exact Sound.ite h1 (raise_sound _ (inc_sound _ h1))

theorem linkRx_sound {s t : State} (a0 : LinkPort) (a1 : List Nat) (a2 : LinkFrame) {a3 : State → State} (ha3 : ∀ u, Sound s u → Sound s (a3 u)) (h : Sound s t) : Sound s (linkRx a0 a1 a2 a3 t) := by
  simp only [linkRx]
  repeat' (first | with_reducible exact h | with_reducible assumption | with_reducible apply ha3 | (intro _; try dsimp only) | with_reducible apply frameDrop_sound | with_reducible apply Sound.ite | with_reducible split | with_reducible apply Sound.hi_upd | with_reducible (refine Sound.upd ?_ ⟨rfl, rfl⟩))

theorem chainChanged_sound {s t : State} (a0 : Nat) (h : Sound s t) : Sound s (chainChanged a0 t) := by
  simp only [chainChanged]
  repeat' (first | with_reducible exact h | with_reducible assumption | (intro _; try dsimp only) | with_reducible apply wr_sound | with_reducible apply notice_sound | with_reducible apply Sound.ite | with_reducible split | with_reducible apply Sound.hi_upd | with_reducible (refine Sound.upd ?_ ⟨rfl, rfl⟩))

theorem abortTandem_sound {s t : State} (a0 : Nat) (h : Sound s t) : Sound s (abortTandem a0 t) := by
  simp only [abortTandem]
  repeat' (first | with_reducible exact h | with_reducible assumption | (intro _; try dsimp only) | with_reducible apply each_sound | with_reducible apply fenceJob_sound | with_reducible apply originateAbort_sound | with_reducible apply Sound.ite | with_reducible split | with_reducible apply Sound.hi_upd | with_reducible (refine Sound.upd ?_ ⟨rfl, rfl⟩))

theorem standby_sound {s t : State} (a0 : Nat) (h : Sound s t) : Sound s (standby a0 t) := by
  simp only [standby]
  repeat' (first | with_reducible exact h | with_reducible assumption | (intro _; try dsimp only) | with_reducible apply abortTandem_sound | with_reducible apply chainChanged_sound | with_reducible apply raise_sound | with_reducible apply wr_sound | with_reducible apply Sound.ite | with_reducible split | with_reducible apply Sound.hi_upd | with_reducible (refine Sound.upd ?_ ⟨rfl, rfl⟩))

theorem discovering_sound {s t : State} (h : Sound s t) : Sound s (discovering t) := by
  simp only [discovering]
  repeat' (first | with_reducible exact h | with_reducible assumption | (intro _; try dsimp only) | with_reducible apply wr_sound | with_reducible apply Sound.ite | with_reducible split | with_reducible apply Sound.hi_upd | with_reducible (refine Sound.upd ?_ ⟨rfl, rfl⟩))

theorem setPort_sound {s t : State} (a0 : LinkPort) (a1 : Nat) (h : Sound s t) : Sound s (setPort a0 a1 t) := by
  simp only [setPort]
  repeat' (first | with_reducible exact h | with_reducible assumption | (intro _; try dsimp only) | with_reducible apply raise_sound | with_reducible apply wr_sound | with_reducible apply Sound.ite | with_reducible split | with_reducible apply Sound.hi_upd | with_reducible (refine Sound.upd ?_ ⟨rfl, rfl⟩))

theorem sendChain_sound {s t : State} (a0 : LinkPort) (a1 : Nat) (a2 : Nat) (a3 : Nat) (a4 : List Byte) (h : Sound s t) : Sound s (sendChain a0 a1 a2 a3 a4 t) := by
  simp only [sendChain]
  repeat' (first | with_reducible exact h | with_reducible assumption | (intro _; try dsimp only) | with_reducible apply freeBytes_sound | with_reducible apply portSend_sound | with_reducible apply Sound.ite | with_reducible split | with_reducible apply Sound.hi_upd | with_reducible (refine Sound.upd ?_ ⟨rfl, rfl⟩))

theorem discover_sound {s t : State} (h : Sound s t) : Sound s (discover t) := by
  simp only [discover]
  repeat' (first | with_reducible exact h | with_reducible assumption | (intro _; try dsimp only) | with_reducible apply freeBytes_sound | with_reducible apply discovering_sound | with_reducible apply sendChain_sound | with_reducible apply Sound.ite | with_reducible split | with_reducible apply Sound.hi_upd | with_reducible (refine Sound.upd ?_ ⟨rfl, rfl⟩))

theorem portTurned_sound {s t : State} (a0 : LinkPort) (h : Sound s t) : Sound s (portTurned a0 t) := by
  simp only [portTurned]
  repeat' (first | with_reducible exact h | with_reducible assumption | (intro _; try dsimp only) | with_reducible apply discovering_sound | with_reducible apply modPort_sound | with_reducible apply discover_sound | with_reducible apply sendControl_sound | with_reducible apply Sound.ite | with_reducible split | with_reducible apply Sound.hi_upd | with_reducible (refine Sound.upd ?_ ⟨rfl, rfl⟩))

theorem trainStart_sound {s t : State} (a0 : LinkPort) (a1 : Nat) (h : Sound s t) : Sound s (trainStart a0 a1 t) := by
  simp only [trainStart]
  repeat' (first | with_reducible exact h | with_reducible assumption | (intro _; try dsimp only) | with_reducible apply wr_sound | with_reducible apply inc_sound | with_reducible apply setPort_sound | with_reducible apply modPort_sound | with_reducible apply portTurned_sound | with_reducible apply abortTandem_sound | with_reducible apply Sound.ite | with_reducible split | with_reducible apply Sound.hi_upd | with_reducible (refine Sound.upd ?_ ⟨rfl, rfl⟩))

theorem sendHello_sound {s t : State} (a0 : LinkPort) (h : Sound s t) : Sound s (sendHello a0 t) := by
  simp only [sendHello]
  repeat' (first | with_reducible exact h | with_reducible assumption | (intro _; try dsimp only) | with_reducible apply freeBytes_sound | with_reducible apply emit_sound | with_reducible apply modPort_sound | with_reducible apply Sound.ite | with_reducible split | with_reducible apply Sound.hi_upd | with_reducible (refine Sound.upd ?_ ⟨rfl, rfl⟩))

theorem portUp_sound {s t : State} (a0 : LinkPort) (h : Sound s t) : Sound s (portUp a0 t) := by
  simp only [portUp]
  repeat' (first | with_reducible exact h | with_reducible assumption | (intro _; try dsimp only) | with_reducible apply setPort_sound | with_reducible apply modPort_sound | with_reducible apply each_sound | with_reducible apply inc_sound | with_reducible apply portSend_sound | with_reducible apply portTurned_sound | with_reducible apply Sound.ite | with_reducible split | with_reducible apply Sound.hi_upd | with_reducible (refine Sound.upd ?_ ⟨rfl, rfl⟩))

theorem portReject_sound {s t : State} (a0 : LinkPort) (a1 : Nat) (h : Sound s t) : Sound s (portReject a0 a1 t) := by
  simp only [portReject]
  repeat' (first | with_reducible exact h | with_reducible assumption | (intro _; try dsimp only) | with_reducible apply chainChanged_sound | with_reducible apply wr_sound | with_reducible apply setPort_sound | with_reducible apply modPort_sound | with_reducible apply Sound.ite | with_reducible split | with_reducible apply Sound.hi_upd | with_reducible (refine Sound.upd ?_ ⟨rfl, rfl⟩))

theorem retireGiveUp_sound {s t : State} (h : Sound s t) : Sound s (retireGiveUp t) := by
  simp only [retireGiveUp]
  repeat' (first | with_reducible exact h | with_reducible assumption | (intro _; try dsimp only) | with_reducible apply each_sound | with_reducible apply quarantineTry_sound | with_reducible apply wr_sound | with_reducible apply Sound.ite | with_reducible split | with_reducible apply Sound.hi_upd | with_reducible (refine Sound.upd ?_ ⟨rfl, rfl⟩))

theorem dropQueued_sound {s t : State} (h : Sound s t) : Sound s (dropQueued t) := by
  simp only [dropQueued]
  repeat' (first | with_reducible exact h | with_reducible assumption | (intro _; try dsimp only) | with_reducible apply each_sound | with_reducible apply modPort_sound | with_reducible apply add_sound | with_reducible apply Sound.ite | with_reducible split | with_reducible apply Sound.hi_upd | with_reducible (refine Sound.upd ?_ ⟨rfl, rfl⟩))

theorem recordTable_sound {s t : State} (a0 : List Byte) (a1 : Bool) (a2 : Nat) (h : Sound s t) : Sound s (recordTable a0 a1 a2 t) := by
  simp only [recordTable]
  repeat' (first | with_reducible exact h | with_reducible assumption | (intro _; try dsimp only) | with_reducible apply each_sound | with_reducible apply wrs_sound | with_reducible apply clr_sound | with_reducible apply dropQueued_sound | with_reducible apply standby_sound | with_reducible apply raise_sound | with_reducible apply wr_sound | with_reducible apply chainChanged_sound | with_reducible apply retireGiveUp_sound | with_reducible apply Sound.ite | with_reducible split | with_reducible apply Sound.hi_upd | with_reducible (refine Sound.upd ?_ ⟨rfl, rfl⟩))

theorem discoverPass_sound {s t : State} (a0 : LinkFrame) (a1 : List Byte) (h : Sound s t) : Sound s (discoverPass a0 a1 t) := by
  simp only [discoverPass]
  repeat' (first | with_reducible exact h | with_reducible assumption | (intro _; try dsimp only) | with_reducible apply standby_sound | with_reducible apply sendChain_sound | with_reducible apply recordTable_sound | with_reducible apply Sound.ite | with_reducible split | with_reducible apply Sound.hi_upd | with_reducible (refine Sound.upd ?_ ⟨rfl, rfl⟩))

theorem sessionRx_sound {s t : State} (a0 : LinkPort) (a1 : LinkFrame) (h : Sound s t) : Sound s (sessionRx a0 a1 t).2 := by
  simp only [sessionRx]
  repeat' (first | with_reducible exact h | with_reducible assumption | (intro _; try dsimp only) | with_reducible apply inc_sound | with_reducible apply forward_sound | with_reducible apply Sound.ite | with_reducible split | with_reducible apply Sound.hi_upd | with_reducible (refine Sound.upd ?_ ⟨rfl, rfl⟩))

theorem sessionOn_sound {s t : State} (a0 : LinkPort) (a1 : List Nat) (a2 : LinkFrame) {a3 : List Byte → State → State} (ha3 : ∀ x0 u, Sound s u → Sound s (a3 x0 u)) (h : Sound s t) : Sound s (sessionOn a0 a1 a2 a3 t) := by
  unfold sessionOn
  refine linkRx_sound _ _ _ (fun u k => ?_) h
  have e := sessionRx_sound a0 a2 k
  split
  · rename_i x; rw [x] at e; exact ha3 _ _ e
  · rename_i x; rw [x] at e; exact e

theorem controlOn_sound {s t : State} (a0 : LinkPort) (a1 : Nat) (a2 : LinkFrame) {a3 : List Byte → State → State} (ha3 : ∀ x0 u, Sound s u → Sound s (a3 x0 u)) (h : Sound s t) : Sound s (controlOn a0 a1 a2 a3 t) := by
  simp only [controlOn]
  repeat' (first | with_reducible exact h | with_reducible assumption | with_reducible apply ha3 | (intro _; try dsimp only) | with_reducible apply sessionOn_sound | with_reducible apply Sound.ite | with_reducible split | with_reducible apply Sound.hi_upd | with_reducible (refine Sound.upd ?_ ⟨rfl, rfl⟩))

theorem dropRetired_sound {s t : State} (a0 : Nat) (h : Sound s t) : Sound s (dropRetired a0 t) := by
  simp only [dropRetired]
  repeat' (first | with_reducible exact h | with_reducible assumption | (intro _; try dsimp only) | with_reducible apply add_sound | with_reducible apply Sound.ite | with_reducible split | with_reducible apply Sound.hi_upd | with_reducible (refine Sound.upd ?_ ⟨rfl, rfl⟩))

theorem tlClear_sound {s t : State} (a0 : List Fld) (h : Sound s t) : Sound s (tlClear a0 t) := by
  simp only [tlClear]
  repeat' (first | with_reducible exact h | with_reducible assumption | (intro _; try dsimp only) | with_reducible apply hostTo_sound | with_reducible apply cntClr_sound | with_reducible apply Sound.ite | with_reducible split | with_reducible apply Sound.hi_upd | with_reducible (refine Sound.upd ?_ ⟨rfl, rfl⟩))

theorem serveCm_sound {s t : State} (a0 : Fin 6) (a1 : Nat) (a2 : Nat) {a3 : Req → State → State} (ha3 : ∀ x0 u, Sound s u → Sound s (a3 x0 u)) (h : Sound s t) : Sound s (serveCm a0 a1 a2 a3 t) := by
  simp only [serveCm]
  repeat' (first | with_reducible exact h | with_reducible assumption | with_reducible apply ha3 | (intro _; try dsimp only) | with_reducible apply serve_sound | with_reducible apply reply_sound | with_reducible apply Sound.ite | with_reducible split | with_reducible apply Sound.hi_upd | with_reducible (refine Sound.upd ?_ ⟨rfl, rfl⟩))

theorem serveCtx_sound {s t : State} (a0 : Fin 6) (a1 : Nat) (a2 : Nat) (a3 : List Nat) {a4 : Ctx → Req → State → State} (ha4 : ∀ x0 x1 u, Sound s u → Sound s (a4 x0 x1 u)) (h : Sound s t) : Sound s (serveCtx a0 a1 a2 a3 a4 t) := by
  simp only [serveCtx]
  repeat' (first | with_reducible exact h | with_reducible assumption | with_reducible apply ha4 | (intro _; try dsimp only) | with_reducible apply serveCm_sound | with_reducible apply reply_sound | with_reducible apply Sound.ite | with_reducible split | with_reducible apply Sound.hi_upd | with_reducible (refine Sound.upd ?_ ⟨rfl, rfl⟩))

theorem serveDeferred_sound {s t : State} (a0 : Fin 6) (a1 : Nat) (a2 : Nat) (a3 : List Nat) {a4 : Ctx → Req → State → State} (ha4 : ∀ x0 x1 u, Sound s u → Sound s (a4 x0 x1 u)) (h : Sound s t) : Sound s (serveDeferred a0 a1 a2 a3 a4 t) := by
  simp only [serveDeferred]
  repeat' (first | with_reducible exact h | with_reducible assumption | with_reducible apply ha4 | (intro _; try dsimp only) | with_reducible apply serveCtx_sound | with_reducible apply reply_sound | with_reducible apply Sound.ite | with_reducible split | with_reducible apply Sound.hi_upd | with_reducible (refine Sound.upd ?_ ⟨rfl, rfl⟩))

theorem identify_sound {s t : State} (a0 : Fin 6) (a1 : Req) (h : Sound s t) : Sound s (identify a0 a1 t) := by
  simp only [identify]
  repeat' (first | with_reducible exact h | with_reducible assumption | (intro _; try dsimp only) | with_reducible apply reply_sound | with_reducible apply Sound.ite | with_reducible split | with_reducible apply Sound.hi_upd | with_reducible (refine Sound.upd ?_ ⟨rfl, rfl⟩))

theorem setCmdRegion_sound {s t : State} (a0 : Fin 6) (a1 : Req) (h : Sound s t) : Sound s (setCmdRegion a0 a1 t) := by
  simp only [setCmdRegion]
  repeat' (first | with_reducible exact h | with_reducible assumption | (intro _; try dsimp only) | with_reducible apply reply_sound | with_reducible apply Sound.ite | with_reducible split | with_reducible apply Sound.hi_upd | with_reducible (refine Sound.upd ?_ ⟨rfl, rfl⟩))

theorem setNoticeRoute_sound {s t : State} (a0 : Fin 6) (a1 : Req) (h : Sound s t) : Sound s (setNoticeRoute a0 a1 t) := by
  simp only [setNoticeRoute]
  repeat' (first | with_reducible exact h | with_reducible assumption | (intro _; try dsimp only) | with_reducible apply reply_sound | with_reducible apply Sound.ite | with_reducible split | with_reducible apply Sound.hi_upd | with_reducible (refine Sound.upd ?_ ⟨rfl, rfl⟩))

theorem getCounters_sound {s t : State} (a0 : Fin 6) (a1 : Req) (h : Sound s t) : Sound s (getCounters a0 a1 t) := by
  simp only [getCounters]
  repeat' (first | with_reducible exact h | with_reducible assumption | (intro _; try dsimp only) | with_reducible apply settleUnits_sound | with_reducible apply reply_sound | with_reducible apply Sound.ite | with_reducible split | with_reducible apply Sound.hi_upd | with_reducible (refine Sound.upd ?_ ⟨rfl, rfl⟩))

theorem unpower_sound {s t : State} (a0 : List Nat) (h : Sound s t) : Sound s (unpower a0 t) := by
  simp only [unpower]
  repeat' (first | with_reducible exact h | with_reducible assumption | (intro _; try dsimp only) | with_reducible apply each_sound | with_reducible apply pwrRequest_sound | with_reducible apply Sound.ite | with_reducible split | with_reducible apply Sound.hi_upd | with_reducible (refine Sound.upd ?_ ⟨rfl, rfl⟩))

theorem powerCoaches_sound {s t : State} (a0 : List Coach) (h : Sound s t) : Sound s (powerCoaches a0 t).2.2 := by
  unfold powerCoaches
  extract_lets z
  have hz : Sound s z.2.2 := foldl_keeps (fun a : Bool × List Nat × State => Sound s a.2.2) (fun a c k => by
    dsimp only
    split
    · exact k
    · exact pwrRequest_sound _ _ _ k) _ h
  clear_value z
  split
  · exact hz
  · exact unpower_sound _ hz

theorem setConfidential_sound {s t : State} (h : Sound s t) : Sound s (setConfidential t) := by
  simp only [setConfidential]
  repeat' (first | with_reducible exact h | with_reducible assumption | (intro _; try dsimp only) | with_reducible apply wrs_sound | with_reducible apply settleUnits_sound | with_reducible apply each_sound | with_reducible apply routeTo_sound | with_reducible apply showProf_sound | with_reducible apply Sound.ite | with_reducible split | with_reducible apply Sound.hi_upd | with_reducible (refine Sound.upd ?_ ⟨rfl, rfl⟩))

theorem createDone_sound {s t : State} (a0 : Ctx) (a1 : Nat) (a2 : Bool) (h : Sound s t) : Sound s (createDone a0 a1 a2 t) := by
  simp only [createDone]
  repeat' (first | with_reducible exact h | with_reducible assumption | (intro _; try dsimp only) | with_reducible apply freeBytes_sound | with_reducible apply setCx_sound | with_reducible apply forgetRegs_sound | with_reducible apply wrs_sound | with_reducible apply ledgerOpen_sound | with_reducible apply loadSlotKey_sound | with_reducible apply showSliced_sound | with_reducible apply setConfidential_sound | with_reducible apply sliceBegin_sound | with_reducible apply takeCoaches_sound | with_reducible apply Sound.ite | with_reducible split | with_reducible apply Sound.hi_upd | with_reducible (refine Sound.upd ?_ ⟨rfl, rfl⟩))

theorem createEnd_sound {s t : State} (a0 : Fin 6) (a1 : Ctx) (a2 : Nat) (a3 : Bool) (a4 : Bool) (a5 : Nat) (h : Sound s t) : Sound s (createEnd a0 a1 a2 a3 a4 a5 t) := by
  simp only [createEnd]
  repeat' (first | with_reducible exact h | with_reducible assumption | (intro _; try dsimp only) | with_reducible apply createDone_sound | with_reducible apply answer_sound | with_reducible apply securityFault_sound | with_reducible apply Sound.ite | with_reducible split | with_reducible apply Sound.hi_upd | with_reducible (refine Sound.upd ?_ ⟨rfl, rfl⟩))

theorem createContext_sound {s t : State} (a0 : Fin 6) (a1 : Bool) (a2 : Req) (h : Sound s t) : Sound s (createContext a0 a1 a2 t) := by
  simp only [createContext]
  repeat' (first | with_reducible exact h | with_reducible assumption | (intro _; try dsimp only) | with_reducible apply reply_sound | with_reducible apply powerCoaches_sound | with_reducible apply createEnd_sound | with_reducible apply wr_sound | with_reducible apply defer_sound | with_reducible apply Sound.ite | with_reducible split | with_reducible apply Sound.hi_upd | with_reducible (refine Sound.upd ?_ ⟨rfl, rfl⟩))

theorem createStep_sound {s t : State} (a0 : Deferred) (h : Sound s t) : Sound s (createStep a0 t) := by
  simp only [createStep]
  repeat' (first | with_reducible exact h | with_reducible assumption | (intro _; try dsimp only) | with_reducible apply createEnd_sound | with_reducible apply answer_sound | with_reducible apply unpower_sound | with_reducible apply wr_sound | with_reducible apply Sound.ite | with_reducible split | with_reducible apply Sound.hi_upd | with_reducible (refine Sound.upd ?_ ⟨rfl, rfl⟩))

theorem createCycle_sound {s t : State} (h : Sound s t) : Sound s (createCycle t) := by
  simp only [createCycle]
  repeat' (first | with_reducible exact h | with_reducible assumption | (intro _; try dsimp only) | with_reducible apply each_sound | with_reducible apply createStep_sound | with_reducible apply Sound.ite | with_reducible split | with_reducible apply Sound.hi_upd | with_reducible (refine Sound.upd ?_ ⟨rfl, rfl⟩))

theorem bounceTaken_sound {s t : State} (a0 : Ctx) (a1 : Nat) (h : Sound s t) : Sound s (bounceTaken a0 a1 t) := by
  simp only [bounceTaken]
  repeat' (first | with_reducible exact h | with_reducible assumption | (intro _; try dsimp only) | with_reducible apply modCx_sound | with_reducible apply Sound.ite | with_reducible split | with_reducible apply Sound.hi_upd | with_reducible (refine Sound.upd ?_ ⟨rfl, rfl⟩))

theorem commandBlock_sound {s t : State} (a0 : Ctx) (a1 : Req) (a2 : List Byte → Nat) (a3 : List Byte) (h : Sound s t) : ∀ b v, commandBlock a0 a1 a2 a3 t = .ok (b, v) → Sound s v := by
  intro b v hv
  unfold commandBlock at hv
  split at hv
  · split at hv
    · cases hv
    · split at hv
      · cases hv
      · cases hv; exact bounceTaken_sound _ _ h
  · extract_lets c at hv
    clear_value c
    split at hv
    · cases hv
    · cases hv; exact h

theorem blockRead_sound {s t : State} (a0 : Ctx) (a1 : Req) (h : Sound s t) : Sound s (blockRead a0 a1 t) := by
  simp only [blockRead]
  repeat' (first | with_reducible exact h | with_reducible assumption | (intro _; try dsimp only) | with_reducible apply initPush_sound | with_reducible apply ownRead_sound | with_reducible apply Sound.ite | with_reducible split | with_reducible apply Sound.hi_upd | with_reducible (refine Sound.upd ?_ ⟨rfl, rfl⟩))

theorem blockHold_sound {s t : State} (a0 : Fin 6) (h : Sound s t) : Sound s (blockHold a0 t) := by
  simp only [blockHold]
  repeat' (first | with_reducible exact h | with_reducible assumption | (intro _; try dsimp only) | with_reducible apply setChan_sound | with_reducible apply Sound.ite | with_reducible split | with_reducible apply Sound.hi_upd | with_reducible (refine Sound.upd ?_ ⟨rfl, rfl⟩))

theorem configContext_sound {s t : State} (a0 : Fin 6) (a1 : List Byte) (a2 : Ctx) (a3 : Req) (h : Sound s t) : Sound s (configContext a0 a1 a2 a3 t) := by
  unfold configContext
  extract_lets u
  have hu : Sound s u := blockRead_sound _ _ h
  clear_value u
  split
  · exact reply_sound _ _ _ _ hu
  · rename_i e
    have k := commandBlock_sound _ _ _ _ hu _ _ e
    exact Sound.ite (reply_sound _ _ _ _ k) (reply_sound _ _ _ _ (modCx_sound _ _ (extendMR_sound _ _ _ _ k)))

theorem setEdge_sound {s t : State} (a0 : Fin 6) (a1 : Ctx) (a2 : Req) (h : Sound s t) : Sound s (setEdge a0 a1 a2 t) := by
  simp only [setEdge]
  repeat' (first | with_reducible exact h | with_reducible assumption | (intro _; try dsimp only) | with_reducible apply reply_sound | with_reducible apply modCx_sound | with_reducible apply Sound.ite | with_reducible split | with_reducible apply Sound.hi_upd | with_reducible (refine Sound.upd ?_ ⟨rfl, rfl⟩))

theorem setSlice_sound {s t : State} (a0 : Fin 6) (a1 : Ctx) (a2 : Req) (h : Sound s t) : Sound s (setSlice a0 a1 a2 t) := by
  simp only [setSlice]
  repeat' (first | with_reducible exact h | with_reducible assumption | (intro _; try dsimp only) | with_reducible apply reply_sound | with_reducible apply showSliced_sound | with_reducible apply modCx_sound | with_reducible apply sliceBegin_sound | with_reducible apply disarmRow_sound | with_reducible apply Sound.ite | with_reducible split | with_reducible apply Sound.hi_upd | with_reducible (refine Sound.upd ?_ ⟨rfl, rfl⟩))

theorem serveChain_sound {s t : State} (a0 : Fin 6) (a1 : Nat) (a2 : Nat) (a3 : Req → Bool) {a4 : Req → State → State} (ha4 : ∀ x0 u, Sound s u → Sound s (a4 x0 u)) (h : Sound s t) : Sound s (serveChain a0 a1 a2 a3 a4 t) := by
  simp only [serveChain]
  repeat' (first | with_reducible exact h | with_reducible assumption | with_reducible apply ha4 | (intro _; try dsimp only) | with_reducible apply serveCm_sound | with_reducible apply reply_sound | with_reducible apply Sound.ite | with_reducible split | with_reducible apply Sound.hi_upd | with_reducible (refine Sound.upd ?_ ⟨rfl, rfl⟩))

theorem chainPosition_sound {s t : State} (a0 : Req) (h : Sound s t) : Sound s (chainPosition a0 t) := by
  simp only [chainPosition]
  repeat' (first | with_reducible exact h | with_reducible assumption | (intro _; try dsimp only) | with_reducible apply wrs_sound | with_reducible apply showHead_sound | with_reducible apply discover_sound | with_reducible apply sendControl_sound | with_reducible apply Sound.ite | with_reducible split | with_reducible apply Sound.hi_upd | with_reducible (refine Sound.upd ?_ ⟨rfl, rfl⟩))

theorem bounceSetup_sound {s t : State} (a0 : Fin 6) (a1 : Ctx) (a2 : Req) (h : Sound s t) : Sound s (bounceSetup a0 a1 a2 t) := by
  simp only [bounceSetup]
  repeat' (first | with_reducible exact h | with_reducible assumption | (intro _; try dsimp only) | with_reducible apply reply_sound | with_reducible apply modCx_sound | with_reducible apply Sound.ite | with_reducible split | with_reducible apply Sound.hi_upd | with_reducible (refine Sound.upd ?_ ⟨rfl, rfl⟩))

theorem bounceIn_sound {s t : State} (a0 : Fin 6) (a1 : Ctx) (a2 : Req) (h : Sound s t) : Sound s (bounceIn a0 a1 a2 t) := by
  simp only [bounceIn]
  repeat' (first | with_reducible exact h | with_reducible assumption | (intro _; try dsimp only) | with_reducible apply reply_sound | with_reducible apply initPush_sound | with_reducible apply defer_sound | with_reducible apply Sound.ite | with_reducible split | with_reducible apply Sound.hi_upd | with_reducible (refine Sound.upd ?_ ⟨rfl, rfl⟩))

theorem dbgWrite_sound {s t : State} (a0 : Nat) (h : Sound s t) : Sound s (dbgWrite a0 t) := by
  simp only [dbgWrite]
  repeat' (first | with_reducible exact h | with_reducible assumption | (intro _; try dsimp only) | with_reducible apply wr_sound | with_reducible apply markBit_sound | with_reducible apply wrs_sound | with_reducible apply Sound.ite | with_reducible split | with_reducible apply Sound.hi_upd | with_reducible (refine Sound.upd ?_ ⟨rfl, rfl⟩))

theorem tapSelect_sound {s t : State} (a0 : Nat) (h : Sound s t) : Sound s (tapSelect a0 t) := by
  simp only [tapSelect]
  repeat' (first | with_reducible exact h | with_reducible assumption | (intro _; try dsimp only) | with_reducible apply beginReset_sound | with_reducible apply free_sound | with_reducible apply wr_sound | with_reducible apply Sound.ite | with_reducible split | with_reducible apply Sound.hi_upd | with_reducible (refine Sound.upd ?_ ⟨rfl, rfl⟩))

theorem mbistWipe_sound {s t : State} (h : Sound s t) : Sound s (mbistWipe t) := by
  simp only [mbistWipe]
  repeat' (first | with_reducible exact h | with_reducible assumption | (intro _; try dsimp only) | with_reducible apply Sound.ite | with_reducible split | with_reducible apply Sound.hi_upd | with_reducible (refine Sound.upd ?_ ⟨rfl, rfl⟩))

theorem serveSb_sound {s t : State} (a0 : Fin 6) (a1 : List Nat) (a2 : Nat) (a3 : List Nat) {a4 : Req → State → State} (ha4 : ∀ x0 u, Sound s u → Sound s (a4 x0 u)) (h : Sound s t) : Sound s (serveSb a0 a1 a2 a3 a4 t) := by
  simp only [serveSb]
  repeat' (first | with_reducible exact h | with_reducible assumption | with_reducible apply ha4 | (intro _; try dsimp only) | with_reducible apply serve_sound | with_reducible apply reply_sound | with_reducible apply Sound.ite | with_reducible split | with_reducible apply Sound.hi_upd | with_reducible (refine Sound.upd ?_ ⟨rfl, rfl⟩))

theorem sbRead_sound {s t : State} (a0 : Req) (a1 : Option Nat) (a2 : Nat) (h : Sound s t) : Sound s (sbRead a0 a1 a2 t) := by
  simp only [sbRead]
  repeat' (first | with_reducible exact h | with_reducible assumption | (intro _; try dsimp only) | with_reducible apply ownRead_sound | with_reducible apply Sound.ite | with_reducible split | with_reducible apply Sound.hi_upd | with_reducible (refine Sound.upd ?_ ⟨rfl, rfl⟩))

theorem writeClear_sound {s t : State} (a0 : Nat) (a1 : List Byte) (h : Sound s t) : Sound s (writeClear a0 a1 t) := by
  simp only [writeClear]
  repeat' (first | with_reducible exact h | with_reducible assumption | (intro _; try dsimp only) | with_reducible apply ownWrite_sound | with_reducible apply Sound.ite | with_reducible split | with_reducible apply Sound.hi_upd | with_reducible (refine Sound.upd ?_ ⟨rfl, rfl⟩))

theorem sbIdentify_sound {s t : State} (a0 : Fin 6) (a1 : Req) (h : Sound s t) : Sound s (sbIdentify a0 a1 t) := by
  simp only [sbIdentify]
  repeat' (first | with_reducible exact h | with_reducible assumption | (intro _; try dsimp only) | with_reducible apply free_sound | with_reducible apply reply_sound | with_reducible apply Sound.ite | with_reducible split | with_reducible apply Sound.hi_upd | with_reducible (refine Sound.upd ?_ ⟨rfl, rfl⟩))

theorem sbChallenge_sound {s t : State} (a0 : Fin 6) (a1 : Req) (h : Sound s t) : Sound s (sbChallenge a0 a1 t) := by
  simp only [sbChallenge]
  repeat' (first | with_reducible exact h | with_reducible assumption | (intro _; try dsimp only) | with_reducible apply reply_sound | with_reducible apply freeBytes_sound | with_reducible apply Sound.ite | with_reducible split | with_reducible apply Sound.hi_upd | with_reducible (refine Sound.upd ?_ ⟨rfl, rfl⟩))

theorem useChallenge_sound {s t : State} (h : Sound s t) : Sound s (useChallenge t) := by
  simp only [useChallenge]
  repeat' (first | with_reducible exact h | with_reducible assumption | (intro _; try dsimp only) | with_reducible apply Sound.ite | with_reducible split | with_reducible apply Sound.hi_upd | with_reducible (refine Sound.upd ?_ ⟨rfl, rfl⟩))

theorem refuseOwner_sound {s t : State} (a0 : Bool) (h : Sound s t) : Sound s (refuseOwner a0 t) := by
  simp only [refuseOwner]
  repeat' (first | with_reducible exact h | with_reducible assumption | (intro _; try dsimp only) | with_reducible apply raise_sound | with_reducible apply Sound.ite | with_reducible split | with_reducible apply Sound.hi_upd | with_reducible (refine Sound.upd ?_ ⟨rfl, rfl⟩))

theorem resetLater_sound {s t : State} (a0 : Nat) (a1 : Option (Nat × Bool)) (h : Sound s t) : Sound s (resetLater a0 a1 t) := by
  simp only [resetLater]
  repeat' (first | with_reducible exact h | with_reducible assumption | (intro _; try dsimp only) | with_reducible apply Sound.ite | with_reducible split | with_reducible apply Sound.hi_upd | with_reducible (refine Sound.upd ?_ ⟨rfl, rfl⟩))

theorem lcProgram_sound {s t : State} (a0 : Nat) (a1 : Bool) (h : Sound s t) : Sound s (lcProgram a0 a1 t) := by
  simp only [lcProgram]
  repeat' (first | with_reducible exact h | with_reducible assumption | (intro _; try dsimp only) | with_reducible apply each_sound | with_reducible apply otpBlowBit_sound | with_reducible apply securityFault_sound | with_reducible apply otpPartly_sound | with_reducible apply Sound.ite | with_reducible split | with_reducible apply Sound.hi_upd | with_reducible (refine Sound.upd ?_ ⟨rfl, rfl⟩))

theorem paced_sound {s t : State} (a0 : Nat) (a1 : Nat) (h : Sound s t) : Sound s (paced a0 a1 t).2 := by
  simp only [paced]
  repeat' (first | with_reducible exact h | with_reducible assumption | (intro _; try dsimp only) | with_reducible apply free_sound | with_reducible apply Sound.ite | with_reducible split | with_reducible apply Sound.hi_upd | with_reducible (refine Sound.upd ?_ ⟨rfl, rfl⟩))

theorem resetCycle_sound {s t : State} (h : Sound s t) : Sound s (resetCycle t) := by
  simp only [resetCycle]
  repeat' (first | with_reducible exact h | with_reducible assumption | (intro _; try dsimp only) | with_reducible apply paced_sound | with_reducible apply otpFirst_sound | with_reducible apply lcProgram_sound | with_reducible apply beginReset_sound | with_reducible apply Sound.ite | with_reducible split | with_reducible apply Sound.hi_upd | with_reducible (refine Sound.upd ?_ ⟨rfl, rfl⟩))

theorem checkCycle_sound {s t : State} (h : Sound s t) : Sound s (checkCycle t) := by
  simp only [checkCycle]
  repeat' (first | with_reducible exact h | with_reducible assumption | (intro _; try dsimp only) | with_reducible apply free_sound | with_reducible apply securityFault_sound | with_reducible apply Sound.ite | with_reducible split | with_reducible apply Sound.hi_upd | with_reducible (refine Sound.upd ?_ ⟨rfl, rfl⟩))

theorem lcAdvance_sound {s t : State} (a0 : Fin 6) (a1 : List Byte) (a2 : Bool) (a3 : Req) (h : Sound s t) : Sound s (lcAdvance a0 a1 a2 a3 t) := by
  simp only [lcAdvance]
  repeat' (first | with_reducible exact h | with_reducible assumption | (intro _; try dsimp only) | with_reducible apply sbRead_sound | with_reducible apply reply_sound | with_reducible apply refuseOwner_sound | with_reducible apply useChallenge_sound | with_reducible apply resetLater_sound | with_reducible apply Sound.ite | with_reducible split | with_reducible apply Sound.hi_upd | with_reducible (refine Sound.upd ?_ ⟨rfl, rfl⟩))

theorem debugUnlock_sound {s t : State} (a0 : Fin 6) (a1 : List Byte) (a2 : Req) (h : Sound s t) : Sound s (debugUnlock a0 a1 a2 t) := by
  simp only [debugUnlock]
  repeat' (first | with_reducible exact h | with_reducible assumption | (intro _; try dsimp only) | with_reducible apply sbRead_sound | with_reducible apply reply_sound | with_reducible apply refuseOwner_sound | with_reducible apply useChallenge_sound | with_reducible apply resetLater_sound | with_reducible apply Sound.ite | with_reducible split | with_reducible apply Sound.hi_upd | with_reducible (refine Sound.upd ?_ ⟨rfl, rfl⟩))

theorem sbAttest_sound {s t : State} (a0 : Fin 6) (a1 : List Byte) (a2 : Req) (h : Sound s t) : Sound s (sbAttest a0 a1 a2 t) := by
  simp only [sbAttest]
  repeat' (first | with_reducible exact h | with_reducible assumption | (intro _; try dsimp only) | with_reducible apply sbRead_sound | with_reducible apply reply_sound | with_reducible apply statement_sound | with_reducible apply writeClear_sound | with_reducible apply modCx_sound | with_reducible apply Sound.ite | with_reducible split | with_reducible apply Sound.hi_upd | with_reducible (refine Sound.upd ?_ ⟨rfl, rfl⟩))

theorem programRegion_sound {s t : State} (a0 : KeyEntry) (a1 : Bool) (h : Sound s t) : Sound s (programRegion a0 a1 t).2 := by
  simp only [programRegion]
  repeat' (first | with_reducible exact h | with_reducible assumption | (intro _; try dsimp only) | with_reducible apply otpProgram_sound | with_reducible apply Sound.ite | with_reducible split | with_reducible apply Sound.hi_upd | with_reducible (refine Sound.upd ?_ ⟨rfl, rfl⟩))

theorem keyUpdate_sound {s t : State} (a0 : Fin 6) (a1 : List Byte) (a2 : Bool) (a3 : Req) (h : Sound s t) : Sound s (keyUpdate a0 a1 a2 a3 t) := by
  simp only [keyUpdate]
  repeat' (first | with_reducible exact h | with_reducible assumption | (intro _; try dsimp only) | with_reducible apply reply_sound | with_reducible apply sbRead_sound | with_reducible apply refuseOwner_sound | with_reducible apply raise_sound | with_reducible apply otpAdvance_sound | with_reducible apply Sound.ite | with_reducible split | with_reducible apply Sound.hi_upd | with_reducible (refine Sound.upd ?_ ⟨rfl, rfl⟩))

theorem keyAnswer_sound {s t : State} (a0 : KeyJob) (a1 : Nat) (a2 : List Nat) (h : Sound s t) : Sound s (keyAnswer a0 a1 a2 t) := by
  simp only [keyAnswer]
  repeat' (first | with_reducible exact h | with_reducible assumption | (intro _; try dsimp only) | with_reducible apply answer_sound | with_reducible apply Sound.ite | with_reducible split | with_reducible apply Sound.hi_upd | with_reducible (refine Sound.upd ?_ ⟨rfl, rfl⟩))

theorem keyCycle_sound {s t : State} (h : Sound s t) : Sound s (keyCycle t) := by
  simp only [keyCycle]
  repeat' (first | with_reducible exact h | with_reducible assumption | (intro _; try dsimp only) | with_reducible apply paced_sound | with_reducible apply programRegion_sound | with_reducible apply keyAnswer_sound | with_reducible apply writeClear_sound | with_reducible apply Sound.ite | with_reducible split | with_reducible apply Sound.hi_upd | with_reducible (refine Sound.upd ?_ ⟨rfl, rfl⟩))

theorem sbCycle_sound {s t : State} (h : Sound s t) : Sound s (sbCycle t) := by
  simp only [sbCycle]
  repeat' (first | with_reducible exact h | with_reducible assumption | (intro _; try dsimp only) | with_reducible apply resetCycle_sound | with_reducible apply checkCycle_sound | with_reducible apply keyCycle_sound | with_reducible apply Sound.ite | with_reducible split | with_reducible apply Sound.hi_upd | with_reducible (refine Sound.upd ?_ ⟨rfl, rfl⟩))

theorem keyLoad_sound {s t : State} (a0 : Fin 6) (a1 : List Byte) (a2 : Req) (h : Sound s t) : Sound s (keyLoad a0 a1 a2 t) := by
  unfold keyLoad
  extract_lets u
  have hu : Sound s u := sbRead_sound _ _ _ h
  clear_value u
  split
  · exact reply_sound _ _ _ _ hu
  split
  · exact reply_sound _ _ _ _ hu
  rename_i x _
  have k := loadItem_sound x hu
  split
  · rename_i e; rw [e] at k; exact reply_sound _ _ _ _ (Sound.upd k ⟨rfl, rfl⟩)
  · rename_i e; rw [e] at k; exact reply_sound _ _ _ _ k

theorem bounceKey_sound {s t : State} (a0 : Fin 6) (a1 : Req) (h : Sound s t) : Sound s (bounceKey a0 a1 t) := by
  simp only [bounceKey]
  repeat' (first | with_reducible exact h | with_reducible assumption | (intro _; try dsimp only) | with_reducible apply reply_sound | with_reducible apply writeClear_sound | with_reducible apply modCx_sound | with_reducible apply Sound.ite | with_reducible split | with_reducible apply Sound.hi_upd | with_reducible (refine Sound.upd ?_ ⟨rfl, rfl⟩))

theorem reinClaim_sound {s t : State} (a0 : Proc) (a1 : Nat) (h : Sound s t) : Sound s (reinClaim a0 a1 t) := by
  simp only [reinClaim]
  repeat' (first | with_reducible exact h | with_reducible assumption | (intro _; try dsimp only) | with_reducible apply dgClaim_sound | with_reducible apply reinSet_sound | with_reducible apply Sound.ite | with_reducible split | with_reducible apply Sound.hi_upd | with_reducible (refine Sound.upd ?_ ⟨rfl, rfl⟩))

theorem reinRelease_sound {s t : State} (a0 : Proc) (a1 : Nat) (h : Sound s t) : Sound s (reinRelease a0 a1 t) := by
  simp only [reinRelease]
  repeat' (first | with_reducible exact h | with_reducible assumption | (intro _; try dsimp only) | with_reducible apply dgRelease_sound | with_reducible apply reinSet_sound | with_reducible apply Sound.ite | with_reducible split | with_reducible apply Sound.hi_upd | with_reducible (refine Sound.upd ?_ ⟨rfl, rfl⟩))

theorem confirmUnit_sound {s t : State} (a0 : Nat) (h : Sound s t) : Sound s (confirmUnit a0 t) := by
  simp only [confirmUnit]
  repeat' (first | with_reducible exact h | with_reducible assumption | (intro _; try dsimp only) | with_reducible apply dirWrite_sound | with_reducible apply each_sound | with_reducible apply dirRecord_sound | with_reducible apply Sound.ite | with_reducible split | with_reducible apply Sound.hi_upd | with_reducible (refine Sound.upd ?_ ⟨rfl, rfl⟩))

theorem sbConfirm_sound {s t : State} (h : Sound s t) : Sound s (sbConfirm t) := by
  simp only [sbConfirm]
  repeat' (first | with_reducible exact h | with_reducible assumption | (intro _; try dsimp only) | with_reducible apply each_sound | with_reducible apply confirmUnit_sound | with_reducible apply Sound.ite | with_reducible split | with_reducible apply Sound.hi_upd | with_reducible (refine Sound.upd ?_ ⟨rfl, rfl⟩))

theorem heartbeatSend_sound {s t : State} (h : Sound s t) : Sound s (heartbeatSend t) := by
  simp only [heartbeatSend]
  repeat' (first | with_reducible exact h | with_reducible assumption | (intro _; try dsimp only) | with_reducible apply emit_sound | with_reducible apply inc_sound | with_reducible apply Sound.ite | with_reducible split | with_reducible apply Sound.hi_upd | with_reducible (refine Sound.upd ?_ ⟨rfl, rfl⟩))

theorem heartbeatGood_sound {s t : State} (a0 : Bool) (h : Sound s t) : Sound s (heartbeatGood a0 t) := by
  simp only [heartbeatGood]
  repeat' (first | with_reducible exact h | with_reducible assumption | (intro _; try dsimp only) | with_reducible apply sbConfirm_sound | with_reducible apply Sound.ite | with_reducible split | with_reducible apply Sound.hi_upd | with_reducible (refine Sound.upd ?_ ⟨rfl, rfl⟩))

theorem heartbeatBad_sound {s t : State} (a0 : Nat) (a1 : Nat) (h : Sound s t) : Sound s (heartbeatBad a0 a1 t) := by
  simp only [heartbeatBad]
  repeat' (first | with_reducible exact h | with_reducible assumption | (intro _; try dsimp only) | with_reducible apply wrs_sound | with_reducible apply inc_sound | with_reducible apply securityFault_sound | with_reducible apply raise_sound | with_reducible apply Sound.ite | with_reducible split | with_reducible apply Sound.hi_upd | with_reducible (refine Sound.upd ?_ ⟨rfl, rfl⟩))

theorem heartbeatAnswer_sound {s t : State} (a0 : Nat) (h : Sound s t) : Sound s (heartbeatAnswer a0 t) := by
  simp only [heartbeatAnswer]
  repeat' (first | with_reducible exact h | with_reducible assumption | (intro _; try dsimp only) | with_reducible apply wr_sound | with_reducible apply heartbeatGood_sound | with_reducible apply heartbeatBad_sound | with_reducible apply Sound.ite | with_reducible split | with_reducible apply Sound.hi_upd | with_reducible (refine Sound.upd ?_ ⟨rfl, rfl⟩))

theorem heartbeatMiss_sound {s t : State} (h : Sound s t) : Sound s (heartbeatMiss t) := by
  simp only [heartbeatMiss]
  repeat' (first | with_reducible exact h | with_reducible assumption | (intro _; try dsimp only) | with_reducible apply raise_sound | with_reducible apply wr_sound | with_reducible apply Sound.ite | with_reducible split | with_reducible apply Sound.hi_upd | with_reducible (refine Sound.upd ?_ ⟨rfl, rfl⟩))

theorem dgAccess_sound {s t : State} (a0 : Target) (a1 : Nat) {a2 : State → State} (ha2 : ∀ u, Sound s u → Sound s (a2 u)) (h : Sound s t) : Sound s (dgAccess a0 a1 a2 t) := by
  simp only [dgAccess]
  repeat' (first | with_reducible exact h | with_reducible assumption | with_reducible apply ha2 | (intro _; try dsimp only) | with_reducible apply hostTo_sound | with_reducible apply Sound.ite | with_reducible split | with_reducible apply Sound.hi_upd | with_reducible (refine Sound.upd ?_ ⟨rfl, rfl⟩))

theorem dgKey_sound {s t : State} (a0 : Fin 3) (h : Sound s t) : Sound s (dgKey a0 t).2 := by
  simp only [dgKey]
  repeat' (first | with_reducible exact h | with_reducible assumption | (intro _; try dsimp only) | with_reducible apply free_sound | with_reducible apply Sound.ite | with_reducible split | with_reducible apply Sound.hi_upd | with_reducible (refine Sound.upd ?_ ⟨rfl, rfl⟩))

theorem dgFinish_sound {s t : State} (a0 : Fin 3) (h : Sound s t) : Sound s (dgFinish a0 t) := by
  simp only [dgFinish]
  repeat' (first | with_reducible exact h | with_reducible assumption | (intro _; try dsimp only) | with_reducible apply dgEnd_sound | with_reducible apply dgKey_sound | with_reducible apply each_sound | with_reducible apply wr_sound | with_reducible apply raise_sound | with_reducible apply Sound.ite | with_reducible split | with_reducible apply Sound.hi_upd | with_reducible (refine Sound.upd ?_ ⟨rfl, rfl⟩))

theorem dgMemRead_sound {s t : State} (a0 : Fin 3) (h : Sound s t) : Sound s (dgMemRead a0 t) := by
  simp only [dgMemRead]
  repeat' (first | with_reducible exact h | with_reducible assumption | (intro _; try dsimp only) | with_reducible apply dgMemGo_sound | with_reducible apply ownReadFor_sound | with_reducible apply Sound.ite | with_reducible split | with_reducible apply Sound.hi_upd | with_reducible (refine Sound.upd ?_ ⟨rfl, rfl⟩))

theorem dgEarly_sound {s t : State} (a0 : Fin 3) (h : Sound s t) : Sound s (dgEarly a0 t) := by
  simp only [dgEarly]
  repeat' (first | with_reducible exact h | with_reducible assumption | (intro _; try dsimp only) | with_reducible apply markBit_sound | with_reducible apply Sound.ite | with_reducible split | with_reducible apply Sound.hi_upd | with_reducible (refine Sound.upd ?_ ⟨rfl, rfl⟩))

theorem dumpEnd_sound {s t : State} (a0 : BlockEsc) (h : Sound s t) : Sound s (dumpEnd a0 t) := by
  simp only [dumpEnd]
  repeat' (first | with_reducible exact h | with_reducible assumption | (intro _; try dsimp only) | with_reducible apply faultReset_sound | with_reducible apply fltLast_sound | with_reducible apply Sound.ite | with_reducible split | with_reducible apply Sound.hi_upd | with_reducible (refine Sound.upd ?_ ⟨rfl, rfl⟩))

theorem dumpSections_sound {s t : State} (a0 : BlockEsc) (h : Sound s t) : Sound s (dumpSections a0 t).2 := by
  simp only [dumpSections]
  repeat' (first | with_reducible exact h | with_reducible assumption | (intro _; try dsimp only) | with_reducible apply freeBytes_sound | with_reducible apply Sound.ite | with_reducible split | with_reducible apply Sound.hi_upd | with_reducible (refine Sound.upd ?_ ⟨rfl, rfl⟩))

theorem dumpBytes_sound {s t : State} (a0 : BlockEsc) (a1 : Bool) (h : Sound s t) : Sound s (dumpBytes a0 a1 t).2 := by
  simp only [dumpBytes]
  repeat' (first | with_reducible exact h | with_reducible assumption | (intro _; try dsimp only) | with_reducible apply dumpSections_sound | with_reducible apply Sound.ite | with_reducible split | with_reducible apply Sound.hi_upd | with_reducible (refine Sound.upd ?_ ⟨rfl, rfl⟩))

theorem dumpWrite_sound {s t : State} (a0 : Nat) (a1 : List Byte) (h : Sound s t) : Sound s (dumpWrite a0 a1 t) := by
  simp only [dumpWrite]
  repeat' (first | with_reducible exact h | with_reducible assumption | (intro _; try dsimp only) | with_reducible apply ownWrite_sound | with_reducible apply Sound.ite | with_reducible split | with_reducible apply Sound.hi_upd | with_reducible (refine Sound.upd ?_ ⟨rfl, rfl⟩))

theorem trailerWrite_sound {s t : State} (a0 : BlockEsc) (a1 : List Byte) (h : Sound s t) : Sound s (trailerWrite a0 a1 t) := by
  simp only [trailerWrite]
  exact dumpWrite_sound _ _ h

theorem dumpTrailer_sound {s t : State} (a0 : Nat) (a1 : Nat) (a2 : List Byte) (h : Sound s t) : Sound s (dumpTrailer a0 a1 a2 t).2 := by
  simp only [dumpTrailer]
  repeat' (first | with_reducible exact h | with_reducible assumption | (intro _; try dsimp only) | with_reducible apply free_sound | with_reducible apply Sound.ite | with_reducible split | with_reducible apply Sound.hi_upd | with_reducible (refine Sound.upd ?_ ⟨rfl, rfl⟩))

theorem takePages_sound {s t : State} (a0 : Ctx) (a1 : Nat) (h : Sound s t) : Sound s (takePages a0 a1 t) := by
  simp only [takePages]
  repeat' (first | with_reducible exact h | with_reducible assumption | (intro _; try dsimp only) | with_reducible apply each_sound | with_reducible apply Sound.ite | with_reducible split | with_reducible apply Sound.hi_upd | with_reducible (refine Sound.upd ?_ ⟨rfl, rfl⟩))

theorem waybillLoad_sound {s t : State} (a0 : Ctx) (a1 : List Byte) (a2 : Deferred) (h : Sound s t) : Sound s (waybillLoad a0 a1 a2 t) := by
  simp only [waybillLoad]
  repeat' (first | with_reducible exact h | with_reducible assumption | (intro _; try dsimp only) | with_reducible apply extendMR_sound | with_reducible apply freeBytes_sound | with_reducible apply modCx_sound | with_reducible apply takePages_sound | with_reducible apply wrs_sound | with_reducible apply each_sound | with_reducible apply coachTake_sound | with_reducible apply showGig_sound | with_reducible apply endDeferred_sound | with_reducible apply raiseFault_sound | with_reducible apply Sound.ite | with_reducible split | with_reducible apply Sound.hi_upd | with_reducible (refine Sound.upd ?_ ⟨rfl, rfl⟩))

theorem loadWaybill_sound {s t : State} (a0 : Fin 6) (a1 : List Byte) (a2 : Ctx) (a3 : Req) (h : Sound s t) : Sound s (loadWaybill a0 a1 a2 a3 t) := by
  unfold loadWaybill
  refine Sound.ite (reply_sound _ _ _ _ h) ?_
  extract_lets u
  have hu : Sound s u := blockRead_sound _ _ h
  clear_value u
  split
  · exact reply_sound _ _ _ _ hu
  · rename_i e
    exact defer_sound _ _ _ _ _ (commandBlock_sound _ _ _ _ hu _ _ e)

theorem loadWeights_sound {s t : State} (a0 : Fin 6) (a1 : Ctx) (a2 : Req) (h : Sound s t) : Sound s (loadWeights a0 a1 a2 t) := by
  simp only [loadWeights]
  repeat' (first | with_reducible exact h | with_reducible assumption | (intro _; try dsimp only) | with_reducible apply reply_sound | with_reducible apply ownReadFor_sound | with_reducible apply defer_sound | with_reducible apply Sound.ite | with_reducible split | with_reducible apply Sound.hi_upd | with_reducible (refine Sound.upd ?_ ⟨rfl, rfl⟩))

theorem fillPages_sound {s t : State} (a0 : Ctx) (h : Sound s t) : Sound s (fillPages a0 t) := by
  simp only [fillPages]
  repeat' (first | with_reducible exact h | with_reducible assumption | (intro _; try dsimp only) | with_reducible apply each_sound | with_reducible apply freeBytes_sound | with_reducible apply Sound.ite | with_reducible split | with_reducible apply Sound.hi_upd | with_reducible (refine Sound.upd ?_ ⟨rfl, rfl⟩))

theorem weightsLoad_sound {s t : State} (a0 : Ctx) (a1 : List Byte) (a2 : Deferred) (h : Sound s t) : Sound s (weightsLoad a0 a1 a2 t) := by
  simp only [weightsLoad]
  repeat' (first | with_reducible exact h | with_reducible assumption | (intro _; try dsimp only) | with_reducible apply endDeferred_sound | with_reducible apply wr_sound | with_reducible apply fillPages_sound | with_reducible apply extendMR_sound | with_reducible apply Sound.ite | with_reducible split | with_reducible apply Sound.hi_upd | with_reducible (refine Sound.upd ?_ ⟨rfl, rfl⟩))

theorem claimCoaches_sound {s t : State} (a0 : Ctx) (h : Sound s t) : Sound s (claimCoaches a0 t) := by
  simp only [claimCoaches]
  repeat' (first | with_reducible exact h | with_reducible assumption | (intro _; try dsimp only) | with_reducible apply sliceEnd_sound | with_reducible apply Sound.ite | with_reducible split | with_reducible apply Sound.hi_upd | with_reducible (refine Sound.upd ?_ ⟨rfl, rfl⟩))

theorem refPass_sound {s t : State} (a0 : Fin 6) (a1 : List Byte) (a2 : Ctx) (a3 : Req) (h : Sound s t) : Sound s (refPass a0 a1 a2 a3 t) := by
  simp only [refPass]
  repeat' (first | with_reducible exact h | with_reducible assumption | (intro _; try dsimp only) | with_reducible apply reply_sound | with_reducible apply modCx_sound | with_reducible apply defer_sound | with_reducible apply ownReadFor_sound | with_reducible apply Sound.ite | with_reducible split | with_reducible apply Sound.hi_upd | with_reducible (refine Sound.upd ?_ ⟨rfl, rfl⟩))

theorem passBegin_sound {s t : State} (a0 : Deferred) (h : Sound s t) : Sound s (passBegin a0 t) := by
  simp only [passBegin]
  repeat' (first | with_reducible exact h | with_reducible assumption | (intro _; try dsimp only) | with_reducible apply claimCoaches_sound | with_reducible apply refStart_sound | with_reducible apply extendMR_sound | with_reducible apply Sound.ite | with_reducible split | with_reducible apply Sound.hi_upd | with_reducible (refine Sound.upd ?_ ⟨rfl, rfl⟩))

theorem passCycle_sound {s t : State} (h : Sound s t) : Sound s (passCycle t) := by
  simp only [passCycle]
  repeat' (first | with_reducible exact h | with_reducible assumption | (intro _; try dsimp only) | with_reducible apply each_sound | with_reducible apply passBegin_sound | with_reducible apply Sound.ite | with_reducible split | with_reducible apply Sound.hi_upd | with_reducible (refine Sound.upd ?_ ⟨rfl, rfl⟩))

theorem jobStart_sound {s t : State} (a0 : Ctx) (a1 : Nat) (h : Sound s t) : Sound s (jobStart a0 a1 t) := by
  simp only [jobStart]
  repeat' (first | with_reducible exact h | with_reducible assumption | (intro _; try dsimp only) | with_reducible apply free_sound | with_reducible apply ledgerStart_sound | with_reducible apply wr_sound | with_reducible apply modCx_sound | with_reducible apply claimCoaches_sound | with_reducible apply showRateMax_sound | with_reducible apply armRows_sound | with_reducible apply progStart_sound | with_reducible apply Sound.ite | with_reducible split | with_reducible apply Sound.hi_upd | with_reducible (refine Sound.upd ?_ ⟨rfl, rfl⟩))

theorem startJob_sound {s t : State} (a0 : Fin 6) (a1 : Ctx) (a2 : Req) (h : Sound s t) : Sound s (startJob a0 a1 a2 t) := by
  simp only [startJob]
  repeat' (first | with_reducible exact h | with_reducible assumption | (intro _; try dsimp only) | with_reducible apply reply_sound | with_reducible apply jobStart_sound | with_reducible apply Sound.ite | with_reducible split | with_reducible apply Sound.hi_upd | with_reducible (refine Sound.upd ?_ ⟨rfl, rfl⟩))

theorem disarmFrom_sound {s t : State} (a0 : Ctx) (a1 : Nat) (h : Sound s t) : Sound s (disarmFrom a0 a1 t) := by
  simp only [disarmFrom]
  repeat' (first | with_reducible exact h | with_reducible assumption | (intro _; try dsimp only) | with_reducible apply each_sound | with_reducible apply disarmRow_sound | with_reducible apply Sound.ite | with_reducible split | with_reducible apply Sound.hi_upd | with_reducible (refine Sound.upd ?_ ⟨rfl, rfl⟩))

theorem stopAt_sound {s t : State} (a0 : Ctx) (a1 : Nat) (h : Sound s t) : Sound s (stopAt a0 a1 t) := by
  simp only [stopAt]
  repeat' (first | with_reducible exact h | with_reducible assumption | (intro _; try dsimp only) | with_reducible apply disarmFrom_sound | with_reducible apply modCx_sound | with_reducible apply Sound.ite | with_reducible split | with_reducible apply Sound.hi_upd | with_reducible (refine Sound.upd ?_ ⟨rfl, rfl⟩))

theorem stopJob_sound {s t : State} (a0 : Fin 6) (a1 : Ctx) (a2 : Req) (h : Sound s t) : Sound s (stopJob a0 a1 a2 t) := by
  simp only [stopJob]
  repeat' (first | with_reducible exact h | with_reducible assumption | (intro _; try dsimp only) | with_reducible apply reply_sound | with_reducible apply stopAt_sound | with_reducible apply defer_sound | with_reducible apply Sound.ite | with_reducible split | with_reducible apply Sound.hi_upd | with_reducible (refine Sound.upd ?_ ⟨rfl, rfl⟩))

theorem jobStop_sound {s t : State} (a0 : Ctx) (h : Sound s t) : Sound s (jobStop a0 t) := by
  simp only [jobStop]
  repeat' (first | with_reducible exact h | with_reducible assumption | (intro _; try dsimp only) | with_reducible apply jobOver_sound | with_reducible apply ledgerEnd_sound | with_reducible apply disarmJob_sound | with_reducible apply sliceEnd_sound | with_reducible apply Sound.ite | with_reducible split | with_reducible apply Sound.hi_upd | with_reducible (refine Sound.upd ?_ ⟨rfl, rfl⟩))

theorem modSvc_sound {s t : State} (a0 : SvcSt → SvcSt) (h : Sound s t) : Sound s (modSvc a0 t) := by
  simp only [modSvc]
  repeat' (first | with_reducible exact h | with_reducible assumption | (intro _; try dsimp only) | with_reducible apply Sound.ite | with_reducible split | with_reducible apply Sound.hi_upd | with_reducible (refine Sound.upd ?_ ⟨rfl, rfl⟩))

theorem svcAnswerTo_sound {s t : State} (a0 : Nat) (a1 : Nat) (a2 : Nat) (a3 : Bool) (a4 : List Byte) (h : Sound s t) : Sound s (svcAnswerTo a0 a1 a2 a3 a4 t) := by
  simp only [svcAnswerTo]
  repeat' (first | with_reducible exact h | with_reducible assumption | (intro _; try dsimp only) | with_reducible apply freeBytes_sound | with_reducible apply modSvc_sound | with_reducible apply Sound.ite | with_reducible split | with_reducible apply Sound.hi_upd | with_reducible (refine Sound.upd ?_ ⟨rfl, rfl⟩))

theorem svcAnswer_sound {s t : State} (a0 : List Byte) (a1 : Nat) (a2 : List Byte) (h : Sound s t) : Sound s (svcAnswer a0 a1 a2 t) := by
  simp only [svcAnswer]
  repeat' (first | with_reducible exact h | with_reducible assumption | (intro _; try dsimp only) | with_reducible apply svcAnswerTo_sound | with_reducible apply Sound.ite | with_reducible split | with_reducible apply Sound.hi_upd | with_reducible (refine Sound.upd ?_ ⟨rfl, rfl⟩))

theorem svcTake_sound {s t : State} (a0 : Nat → Bool) (a1 : List Byte) {a2 : State → State} (ha2 : ∀ u, Sound s u → Sound s (a2 u)) (h : Sound s t) : Sound s (svcTake a0 a1 a2 t) := by
  simp only [svcTake]
  repeat' (first | with_reducible exact h | with_reducible assumption | with_reducible apply ha2 | (intro _; try dsimp only) | with_reducible apply modSvc_sound | with_reducible apply inc_sound | with_reducible apply svcAnswer_sound | with_reducible apply Sound.ite | with_reducible split | with_reducible apply Sound.hi_upd | with_reducible (refine Sound.upd ?_ ⟨rfl, rfl⟩))

theorem stagingEnd_sound {s t : State} (h : Sound s t) : Sound s (stagingEnd t) := by
  simp only [stagingEnd]
  repeat' (first | with_reducible exact h | with_reducible assumption | (intro _; try dsimp only) | with_reducible apply clr_sound | with_reducible apply modSvc_sound | with_reducible apply Sound.ite | with_reducible split | with_reducible apply Sound.hi_upd | with_reducible (refine Sound.upd ?_ ⟨rfl, rfl⟩))

theorem updNotice_sound {s t : State} (a0 : Nat) (a1 : Nat) (a2 : Nat) (h : Sound s t) : Sound s (updNotice a0 a1 a2 t) := by
  simp only [updNotice]
  repeat' (first | with_reducible exact h | with_reducible assumption | (intro _; try dsimp only) | with_reducible apply sbNotice_sound | with_reducible apply Sound.ite | with_reducible split | with_reducible apply Sound.hi_upd | with_reducible (refine Sound.upd ?_ ⟨rfl, rfl⟩))

theorem helloPayload_sound {s t : State} (a0 : List Byte) (h : Sound s t) : Sound s (helloPayload a0 t).2 := by
  simp only [helloPayload]
  repeat' (first | with_reducible exact h | with_reducible assumption | (intro _; try dsimp only) | with_reducible apply freeBytes_sound | with_reducible apply Sound.ite | with_reducible split | with_reducible apply Sound.hi_upd | with_reducible (refine Sound.upd ?_ ⟨rfl, rfl⟩))

theorem svcHello_sound {s t : State} (a0 : List Byte) (h : Sound s t) : Sound s (svcHello a0 t) := by
  simp only [svcHello]
  repeat' (first | with_reducible exact h | with_reducible assumption | (intro _; try dsimp only) | with_reducible apply stagingEnd_sound | with_reducible apply svcAnswer_sound | with_reducible apply freeBytes_sound | with_reducible apply helloPayload_sound | with_reducible apply svcAnswerTo_sound | with_reducible apply wrB_sound | with_reducible apply modSvc_sound | with_reducible apply Sound.ite | with_reducible split | with_reducible apply Sound.hi_upd | with_reducible (refine Sound.upd ?_ ⟨rfl, rfl⟩))

theorem svcBegin_sound {s t : State} (a0 : List Byte) (h : Sound s t) : Sound s (svcBegin a0 t) := by
  simp only [svcBegin]
  repeat' (first | with_reducible exact h | with_reducible assumption | (intro _; try dsimp only) | with_reducible apply svcAnswer_sound | with_reducible apply dirWrite_sound | with_reducible apply dirSetVer_sound | with_reducible apply dirRecord_sound | with_reducible apply modSvc_sound | with_reducible apply wrs_sound | with_reducible apply Sound.ite | with_reducible split | with_reducible apply Sound.hi_upd | with_reducible (refine Sound.upd ?_ ⟨rfl, rfl⟩))

theorem svcData_sound {s t : State} (a0 : List Byte) (h : Sound s t) : Sound s (svcData a0 t) := by
  simp only [svcData]
  repeat' (first | with_reducible exact h | with_reducible assumption | (intro _; try dsimp only) | with_reducible apply svcAnswer_sound | with_reducible apply flashWrite_sound | with_reducible apply modSvc_sound | with_reducible apply wr_sound | with_reducible apply Sound.ite | with_reducible split | with_reducible apply Sound.hi_upd | with_reducible (refine Sound.upd ?_ ⟨rfl, rfl⟩))

theorem svcEnd_sound {s t : State} (a0 : List Byte) (h : Sound s t) : Sound s (svcEnd a0 t) := by
  simp only [svcEnd]
  repeat' (first | with_reducible exact h | with_reducible assumption | (intro _; try dsimp only) | with_reducible apply svcAnswer_sound | with_reducible apply stagingEnd_sound | with_reducible apply dirWrite_sound | with_reducible apply dirSetVer_sound | with_reducible apply dirRecord_sound | with_reducible apply updNotice_sound | with_reducible apply Sound.ite | with_reducible split | with_reducible apply Sound.hi_upd | with_reducible (refine Sound.upd ?_ ⟨rfl, rfl⟩))

theorem svcStatus_sound {s t : State} (a0 : List Byte) (h : Sound s t) : Sound s (svcStatus a0 t) := by
  simp only [svcStatus]
  repeat' (first | with_reducible exact h | with_reducible assumption | (intro _; try dsimp only) | with_reducible apply svcAnswer_sound | with_reducible apply Sound.ite | with_reducible split | with_reducible apply Sound.hi_upd | with_reducible (refine Sound.upd ?_ ⟨rfl, rfl⟩))

theorem svcDiscard_sound {s t : State} (a0 : List Byte) (h : Sound s t) : Sound s (svcDiscard a0 t) := by
  simp only [svcDiscard]
  repeat' (first | with_reducible exact h | with_reducible assumption | (intro _; try dsimp only) | with_reducible apply svcAnswer_sound | with_reducible apply dirWrite_sound | with_reducible apply dirSetVer_sound | with_reducible apply dirRecord_sound | with_reducible apply Sound.ite | with_reducible split | with_reducible apply Sound.hi_upd | with_reducible (refine Sound.upd ?_ ⟨rfl, rfl⟩))

theorem dirSwitch_sound {s t : State} (a0 : Nat) (a1 : Nat) (h : Sound s t) : Sound s (dirSwitch a0 a1 t) := by
  simp only [dirSwitch]
  repeat' (first | with_reducible exact h | with_reducible assumption | (intro _; try dsimp only) | with_reducible apply dirRecord_sound | with_reducible apply Sound.ite | with_reducible split | with_reducible apply Sound.hi_upd | with_reducible (refine Sound.upd ?_ ⟨rfl, rfl⟩))

theorem holdCoachman_sound {s t : State} (h : Sound s t) : Sound s (holdCoachman t) := by
  simp only [holdCoachman]
  repeat' (first | with_reducible exact h | with_reducible assumption | (intro _; try dsimp only) | with_reducible apply setPeer_sound | with_reducible apply wrs_sound | with_reducible apply holdSettle_sound | with_reducible apply Sound.ite | with_reducible split | with_reducible apply Sound.hi_upd | with_reducible (refine Sound.upd ?_ ⟨rfl, rfl⟩))

theorem activateBegin_sound {s t : State} (a0 : Nat) (a1 : Activation) {a2 : State → State} (ha2 : ∀ u, Sound s u → Sound s (a2 u)) (h : Sound s t) : Sound s (activateBegin a0 a1 a2 t) := by
  simp only [activateBegin]
  repeat' (first | with_reducible exact h | with_reducible assumption | with_reducible apply ha2 | (intro _; try dsimp only) | with_reducible apply dirSwitch_sound | with_reducible apply resetLater_sound | with_reducible apply dirWrite_sound | with_reducible apply holdCoachman_sound | with_reducible apply Sound.ite | with_reducible split | with_reducible apply Sound.hi_upd | with_reducible (refine Sound.upd ?_ ⟨rfl, rfl⟩))

theorem svcActivate_sound {s t : State} (a0 : List Byte) (h : Sound s t) : Sound s (svcActivate a0 t) := by
  simp only [svcActivate]
  repeat' (first | with_reducible exact h | with_reducible assumption | (intro _; try dsimp only) | with_reducible apply svcAnswer_sound | with_reducible apply activateBegin_sound | with_reducible apply Sound.ite | with_reducible split | with_reducible apply Sound.hi_upd | with_reducible (refine Sound.upd ?_ ⟨rfl, rfl⟩))

theorem activate_sound {s t : State} (a0 : Fin 6) (a1 : Req) (h : Sound s t) : Sound s (activate a0 a1 t) := by
  simp only [activate]
  repeat' (first | with_reducible exact h | with_reducible assumption | (intro _; try dsimp only) | with_reducible apply reply_sound | with_reducible apply activateBegin_sound | with_reducible apply Sound.ite | with_reducible split | with_reducible apply Sound.hi_upd | with_reducible (refine Sound.upd ?_ ⟨rfl, rfl⟩))

theorem activateAnswer_sound {s t : State} (a0 : Activation) (a1 : Nat) (h : Sound s t) : Sound s (activateAnswer a0 a1 t) := by
  simp only [activateAnswer]
  repeat' (first | with_reducible exact h | with_reducible assumption | (intro _; try dsimp only) | with_reducible apply svcAnswerTo_sound | with_reducible apply answer_sound | with_reducible apply Sound.ite | with_reducible split | with_reducible apply Sound.hi_upd | with_reducible (refine Sound.upd ?_ ⟨rfl, rfl⟩))

theorem restartCoachman_sound {s t : State} (a0 : Nat) (h : Sound s t) : Sound s (restartCoachman a0 t) := by
  simp only [restartCoachman]
  repeat' (first | with_reducible exact h | with_reducible assumption | (intro _; try dsimp only) | with_reducible apply wr_sound | with_reducible apply releaseCoachman_sound | with_reducible apply Sound.ite | with_reducible split | with_reducible apply Sound.hi_upd | with_reducible (refine Sound.upd ?_ ⟨rfl, rfl⟩))

theorem activated_sound {s t : State} (a0 : Nat) (h : Sound s t) : Sound s (activated a0 t) := by
  simp only [activated]
  repeat' (first | with_reducible exact h | with_reducible assumption | (intro _; try dsimp only) | with_reducible apply dirWrite_sound | with_reducible apply dirSwitch_sound | with_reducible apply extendMR_sound | with_reducible apply wr_sound | with_reducible apply Sound.ite | with_reducible split | with_reducible apply Sound.hi_upd | with_reducible (refine Sound.upd ?_ ⟨rfl, rfl⟩))

theorem activateComplete_sound {s t : State} (h : Sound s t) : Sound s (activateComplete t) := by
  simp only [activateComplete]
  repeat' (first | with_reducible exact h | with_reducible assumption | (intro _; try dsimp only) | with_reducible apply restartCoachman_sound | with_reducible apply activated_sound | with_reducible apply updNotice_sound | with_reducible apply activateAnswer_sound | with_reducible apply Sound.ite | with_reducible split | with_reducible apply Sound.hi_upd | with_reducible (refine Sound.upd ?_ ⟨rfl, rfl⟩))

theorem updateStatus_sound {s t : State} (a0 : Fin 6) (a1 : Req) (h : Sound s t) : Sound s (updateStatus a0 a1 t) := by
  simp only [updateStatus]
  repeat' (first | with_reducible exact h | with_reducible assumption | (intro _; try dsimp only) | with_reducible apply reply_sound | with_reducible apply Sound.ite | with_reducible split | with_reducible apply Sound.hi_upd | with_reducible (refine Sound.upd ?_ ⟨rfl, rfl⟩))

theorem confirmHealth_sound {s t : State} (a0 : Fin 6) (a1 : Req) (h : Sound s t) : Sound s (confirmHealth a0 a1 t) := by
  simp only [confirmHealth]
  repeat' (first | with_reducible exact h | with_reducible assumption | (intro _; try dsimp only) | with_reducible apply reply_sound | with_reducible apply confirmUnit_sound | with_reducible apply Sound.ite | with_reducible split | with_reducible apply Sound.hi_upd | with_reducible (refine Sound.upd ?_ ⟨rfl, rfl⟩))

theorem updateLock_sound {s t : State} (a0 : Fin 6) (a1 : Req) (h : Sound s t) : Sound s (updateLock a0 a1 t) := by
  simp only [updateLock]
  repeat' (first | with_reducible exact h | with_reducible assumption | (intro _; try dsimp only) | with_reducible apply reply_sound | with_reducible apply dirWrite_sound | with_reducible apply dirSet_sound | with_reducible apply Sound.ite | with_reducible split | with_reducible apply Sound.hi_upd | with_reducible (refine Sound.upd ?_ ⟨rfl, rfl⟩))

end Sys2Proof.Machine
end

