-- ==== Sys2Proof/Laws/State.lean ====
section
/-! SUPPORT. What the named operations leave in each field of State: one lemma per field and operation. -/

namespace Sys2Proof.Machine

theorem wrs_eq_regs (l : List (Fld × Nat)) (s : State) : wrs l s = { s with regs := (wrs l s).regs } := by
  induction l generalizing s with
  | nil => rfl
  | cons x r ih => exact ih (wr x.1 x.2 s)

@[simp] theorem wr_snap (f : Fld) (v : Nat) (s : State) : (wr f v s).snap = s.snap := rfl
@[simp] theorem wr_hiHold (f : Fld) (v : Nat) (s : State) : (wr f v s).hiHold = s.hiHold := rfl
@[simp] theorem wr_rwe (f : Fld) (v : Nat) (s : State) : (wr f v s).rwe = s.rwe := rfl
@[simp] theorem wr_now (f : Fld) (v : Nat) (s : State) : (wr f v s).now = s.now := rfl
@[simp] theorem wr_freeN (f : Fld) (v : Nat) (s : State) : (wr f v s).freeN = s.freeN := rfl
@[simp] theorem wr_out (f : Fld) (v : Nat) (s : State) : (wr f v s).out = s.out := rfl
@[simp] theorem wr_pending (f : Fld) (v : Nat) (s : State) : (wr f v s).pending = s.pending := rfl
@[simp] theorem wr_pins (f : Fld) (v : Nat) (s : State) : (wr f v s).pins = s.pins := rfl
@[simp] theorem wr_pw (f : Fld) (v : Nat) (s : State) : (wr f v s).pw = s.pw := rfl
@[simp] theorem wr_ev (f : Fld) (v : Nat) (s : State) : (wr f v s).ev = s.ev := rfl
@[simp] theorem wr_mb (f : Fld) (v : Nat) (s : State) : (wr f v s).mb = s.mb := rfl
@[simp] theorem wr_flt (f : Fld) (v : Nat) (s : State) : (wr f v s).flt = s.flt := rfl
@[simp] theorem wr_tt (f : Fld) (v : Nat) (s : State) : (wr f v s).tt = s.tt := rfl
@[simp] theorem wr_ctx (f : Fld) (v : Nat) (s : State) : (wr f v s).ctx = s.ctx := rfl
@[simp] theorem wr_coach (f : Fld) (v : Nat) (s : State) : (wr f v s).coach = s.coach := rfl
@[simp] theorem wr_gig (f : Fld) (v : Nat) (s : State) : (wr f v s).gig = s.gig := rfl
@[simp] theorem wr_mp (f : Fld) (v : Nat) (s : State) : (wr f v s).mp = s.mp := rfl
@[simp] theorem wr_tl (f : Fld) (v : Nat) (s : State) : (wr f v s).tl = s.tl := rfl
@[simp] theorem wr_otp (f : Fld) (v : Nat) (s : State) : (wr f v s).otp = s.otp := rfl
@[simp] theorem wr_flash (f : Fld) (v : Nat) (s : State) : (wr f v s).flash = s.flash := rfl
@[simp] theorem wr_sb (f : Fld) (v : Nat) (s : State) : (wr f v s).sb = s.sb := rfl
@[simp] theorem wr_dg (f : Fld) (v : Nat) (s : State) : (wr f v s).dg = s.dg := rfl
@[simp] theorem wr_tap (f : Fld) (v : Nat) (s : State) : (wr f v s).tap = s.tap := rfl

@[simp] theorem wrB_snap (f : Fld) (b : Bool) (s : State) : (wrB f b s).snap = s.snap := rfl
@[simp] theorem wrB_hiHold (f : Fld) (b : Bool) (s : State) : (wrB f b s).hiHold = s.hiHold := rfl
@[simp] theorem wrB_rwe (f : Fld) (b : Bool) (s : State) : (wrB f b s).rwe = s.rwe := rfl
@[simp] theorem wrB_now (f : Fld) (b : Bool) (s : State) : (wrB f b s).now = s.now := rfl
@[simp] theorem wrB_freeN (f : Fld) (b : Bool) (s : State) : (wrB f b s).freeN = s.freeN := rfl
@[simp] theorem wrB_out (f : Fld) (b : Bool) (s : State) : (wrB f b s).out = s.out := rfl
@[simp] theorem wrB_pending (f : Fld) (b : Bool) (s : State) : (wrB f b s).pending = s.pending := rfl
@[simp] theorem wrB_pins (f : Fld) (b : Bool) (s : State) : (wrB f b s).pins = s.pins := rfl
@[simp] theorem wrB_pw (f : Fld) (b : Bool) (s : State) : (wrB f b s).pw = s.pw := rfl
@[simp] theorem wrB_ev (f : Fld) (b : Bool) (s : State) : (wrB f b s).ev = s.ev := rfl
@[simp] theorem wrB_mb (f : Fld) (b : Bool) (s : State) : (wrB f b s).mb = s.mb := rfl
@[simp] theorem wrB_flt (f : Fld) (b : Bool) (s : State) : (wrB f b s).flt = s.flt := rfl
@[simp] theorem wrB_tt (f : Fld) (b : Bool) (s : State) : (wrB f b s).tt = s.tt := rfl
@[simp] theorem wrB_ctx (f : Fld) (b : Bool) (s : State) : (wrB f b s).ctx = s.ctx := rfl
@[simp] theorem wrB_coach (f : Fld) (b : Bool) (s : State) : (wrB f b s).coach = s.coach := rfl
@[simp] theorem wrB_gig (f : Fld) (b : Bool) (s : State) : (wrB f b s).gig = s.gig := rfl
@[simp] theorem wrB_mp (f : Fld) (b : Bool) (s : State) : (wrB f b s).mp = s.mp := rfl
@[simp] theorem wrB_tl (f : Fld) (b : Bool) (s : State) : (wrB f b s).tl = s.tl := rfl
@[simp] theorem wrB_otp (f : Fld) (b : Bool) (s : State) : (wrB f b s).otp = s.otp := rfl
@[simp] theorem wrB_flash (f : Fld) (b : Bool) (s : State) : (wrB f b s).flash = s.flash := rfl
@[simp] theorem wrB_sb (f : Fld) (b : Bool) (s : State) : (wrB f b s).sb = s.sb := rfl
@[simp] theorem wrB_dg (f : Fld) (b : Bool) (s : State) : (wrB f b s).dg = s.dg := rfl
@[simp] theorem wrB_tap (f : Fld) (b : Bool) (s : State) : (wrB f b s).tap = s.tap := rfl

@[simp] theorem add_snap (f : Fld) (n : Nat) (s : State) : (add f n s).snap = s.snap := rfl
@[simp] theorem add_hiHold (f : Fld) (n : Nat) (s : State) : (add f n s).hiHold = s.hiHold := rfl
@[simp] theorem add_rwe (f : Fld) (n : Nat) (s : State) : (add f n s).rwe = s.rwe := rfl
@[simp] theorem add_now (f : Fld) (n : Nat) (s : State) : (add f n s).now = s.now := rfl
@[simp] theorem add_freeN (f : Fld) (n : Nat) (s : State) : (add f n s).freeN = s.freeN := rfl
@[simp] theorem add_out (f : Fld) (n : Nat) (s : State) : (add f n s).out = s.out := rfl
@[simp] theorem add_pending (f : Fld) (n : Nat) (s : State) : (add f n s).pending = s.pending := rfl
@[simp] theorem add_pins (f : Fld) (n : Nat) (s : State) : (add f n s).pins = s.pins := rfl
@[simp] theorem add_pw (f : Fld) (n : Nat) (s : State) : (add f n s).pw = s.pw := rfl
@[simp] theorem add_ev (f : Fld) (n : Nat) (s : State) : (add f n s).ev = s.ev := rfl
@[simp] theorem add_mb (f : Fld) (n : Nat) (s : State) : (add f n s).mb = s.mb := rfl
@[simp] theorem add_flt (f : Fld) (n : Nat) (s : State) : (add f n s).flt = s.flt := rfl
@[simp] theorem add_tt (f : Fld) (n : Nat) (s : State) : (add f n s).tt = s.tt := rfl
@[simp] theorem add_ctx (f : Fld) (n : Nat) (s : State) : (add f n s).ctx = s.ctx := rfl
@[simp] theorem add_coach (f : Fld) (n : Nat) (s : State) : (add f n s).coach = s.coach := rfl
@[simp] theorem add_gig (f : Fld) (n : Nat) (s : State) : (add f n s).gig = s.gig := rfl
@[simp] theorem add_mp (f : Fld) (n : Nat) (s : State) : (add f n s).mp = s.mp := rfl
@[simp] theorem add_tl (f : Fld) (n : Nat) (s : State) : (add f n s).tl = s.tl := rfl
@[simp] theorem add_otp (f : Fld) (n : Nat) (s : State) : (add f n s).otp = s.otp := rfl
@[simp] theorem add_flash (f : Fld) (n : Nat) (s : State) : (add f n s).flash = s.flash := rfl
@[simp] theorem add_sb (f : Fld) (n : Nat) (s : State) : (add f n s).sb = s.sb := rfl
@[simp] theorem add_dg (f : Fld) (n : Nat) (s : State) : (add f n s).dg = s.dg := rfl
@[simp] theorem add_tap (f : Fld) (n : Nat) (s : State) : (add f n s).tap = s.tap := rfl

@[simp] theorem inc_snap (f : Fld) (s : State) : (inc f s).snap = s.snap := rfl
@[simp] theorem inc_hiHold (f : Fld) (s : State) : (inc f s).hiHold = s.hiHold := rfl
@[simp] theorem inc_rwe (f : Fld) (s : State) : (inc f s).rwe = s.rwe := rfl
@[simp] theorem inc_now (f : Fld) (s : State) : (inc f s).now = s.now := rfl
@[simp] theorem inc_freeN (f : Fld) (s : State) : (inc f s).freeN = s.freeN := rfl
@[simp] theorem inc_out (f : Fld) (s : State) : (inc f s).out = s.out := rfl
@[simp] theorem inc_pending (f : Fld) (s : State) : (inc f s).pending = s.pending := rfl
@[simp] theorem inc_pins (f : Fld) (s : State) : (inc f s).pins = s.pins := rfl
@[simp] theorem inc_pw (f : Fld) (s : State) : (inc f s).pw = s.pw := rfl
@[simp] theorem inc_ev (f : Fld) (s : State) : (inc f s).ev = s.ev := rfl
@[simp] theorem inc_mb (f : Fld) (s : State) : (inc f s).mb = s.mb := rfl
@[simp] theorem inc_flt (f : Fld) (s : State) : (inc f s).flt = s.flt := rfl
@[simp] theorem inc_tt (f : Fld) (s : State) : (inc f s).tt = s.tt := rfl
@[simp] theorem inc_ctx (f : Fld) (s : State) : (inc f s).ctx = s.ctx := rfl
@[simp] theorem inc_coach (f : Fld) (s : State) : (inc f s).coach = s.coach := rfl
@[simp] theorem inc_gig (f : Fld) (s : State) : (inc f s).gig = s.gig := rfl
@[simp] theorem inc_mp (f : Fld) (s : State) : (inc f s).mp = s.mp := rfl
@[simp] theorem inc_tl (f : Fld) (s : State) : (inc f s).tl = s.tl := rfl
@[simp] theorem inc_otp (f : Fld) (s : State) : (inc f s).otp = s.otp := rfl
@[simp] theorem inc_flash (f : Fld) (s : State) : (inc f s).flash = s.flash := rfl
@[simp] theorem inc_sb (f : Fld) (s : State) : (inc f s).sb = s.sb := rfl
@[simp] theorem inc_dg (f : Fld) (s : State) : (inc f s).dg = s.dg := rfl
@[simp] theorem inc_tap (f : Fld) (s : State) : (inc f s).tap = s.tap := rfl

@[simp] theorem wrs_snap (l : List (Fld × Nat)) (s : State) : (wrs l s).snap = s.snap := by rw [wrs_eq_regs]
@[simp] theorem wrs_hiHold (l : List (Fld × Nat)) (s : State) : (wrs l s).hiHold = s.hiHold := by rw [wrs_eq_regs]
@[simp] theorem wrs_rwe (l : List (Fld × Nat)) (s : State) : (wrs l s).rwe = s.rwe := by rw [wrs_eq_regs]
@[simp] theorem wrs_now (l : List (Fld × Nat)) (s : State) : (wrs l s).now = s.now := by rw [wrs_eq_regs]
@[simp] theorem wrs_freeN (l : List (Fld × Nat)) (s : State) : (wrs l s).freeN = s.freeN := by rw [wrs_eq_regs]
@[simp] theorem wrs_out (l : List (Fld × Nat)) (s : State) : (wrs l s).out = s.out := by rw [wrs_eq_regs]
@[simp] theorem wrs_pending (l : List (Fld × Nat)) (s : State) : (wrs l s).pending = s.pending := by rw [wrs_eq_regs]
@[simp] theorem wrs_pins (l : List (Fld × Nat)) (s : State) : (wrs l s).pins = s.pins := by rw [wrs_eq_regs]
@[simp] theorem wrs_pw (l : List (Fld × Nat)) (s : State) : (wrs l s).pw = s.pw := by rw [wrs_eq_regs]
@[simp] theorem wrs_ev (l : List (Fld × Nat)) (s : State) : (wrs l s).ev = s.ev := by rw [wrs_eq_regs]
@[simp] theorem wrs_mb (l : List (Fld × Nat)) (s : State) : (wrs l s).mb = s.mb := by rw [wrs_eq_regs]
@[simp] theorem wrs_flt (l : List (Fld × Nat)) (s : State) : (wrs l s).flt = s.flt := by rw [wrs_eq_regs]
@[simp] theorem wrs_tt (l : List (Fld × Nat)) (s : State) : (wrs l s).tt = s.tt := by rw [wrs_eq_regs]
@[simp] theorem wrs_ctx (l : List (Fld × Nat)) (s : State) : (wrs l s).ctx = s.ctx := by rw [wrs_eq_regs]
@[simp] theorem wrs_coach (l : List (Fld × Nat)) (s : State) : (wrs l s).coach = s.coach := by rw [wrs_eq_regs]
@[simp] theorem wrs_gig (l : List (Fld × Nat)) (s : State) : (wrs l s).gig = s.gig := by rw [wrs_eq_regs]
@[simp] theorem wrs_mp (l : List (Fld × Nat)) (s : State) : (wrs l s).mp = s.mp := by rw [wrs_eq_regs]
@[simp] theorem wrs_tl (l : List (Fld × Nat)) (s : State) : (wrs l s).tl = s.tl := by rw [wrs_eq_regs]
@[simp] theorem wrs_otp (l : List (Fld × Nat)) (s : State) : (wrs l s).otp = s.otp := by rw [wrs_eq_regs]
@[simp] theorem wrs_flash (l : List (Fld × Nat)) (s : State) : (wrs l s).flash = s.flash := by rw [wrs_eq_regs]
@[simp] theorem wrs_sb (l : List (Fld × Nat)) (s : State) : (wrs l s).sb = s.sb := by rw [wrs_eq_regs]
@[simp] theorem wrs_dg (l : List (Fld × Nat)) (s : State) : (wrs l s).dg = s.dg := by rw [wrs_eq_regs]
@[simp] theorem wrs_tap (l : List (Fld × Nat)) (s : State) : (wrs l s).tap = s.tap := by rw [wrs_eq_regs]

@[simp] theorem clr_snap (fs : List Fld) (s : State) : (clr fs s).snap = s.snap := by rw [clr, wrs_eq_regs]
@[simp] theorem clr_hiHold (fs : List Fld) (s : State) : (clr fs s).hiHold = s.hiHold := by rw [clr, wrs_eq_regs]
@[simp] theorem clr_rwe (fs : List Fld) (s : State) : (clr fs s).rwe = s.rwe := by rw [clr, wrs_eq_regs]
@[simp] theorem clr_now (fs : List Fld) (s : State) : (clr fs s).now = s.now := by rw [clr, wrs_eq_regs]
@[simp] theorem clr_freeN (fs : List Fld) (s : State) : (clr fs s).freeN = s.freeN := by rw [clr, wrs_eq_regs]
@[simp] theorem clr_out (fs : List Fld) (s : State) : (clr fs s).out = s.out := by rw [clr, wrs_eq_regs]
@[simp] theorem clr_pending (fs : List Fld) (s : State) : (clr fs s).pending = s.pending := by rw [clr, wrs_eq_regs]
@[simp] theorem clr_pins (fs : List Fld) (s : State) : (clr fs s).pins = s.pins := by rw [clr, wrs_eq_regs]
@[simp] theorem clr_pw (fs : List Fld) (s : State) : (clr fs s).pw = s.pw := by rw [clr, wrs_eq_regs]
@[simp] theorem clr_ev (fs : List Fld) (s : State) : (clr fs s).ev = s.ev := by rw [clr, wrs_eq_regs]
@[simp] theorem clr_mb (fs : List Fld) (s : State) : (clr fs s).mb = s.mb := by rw [clr, wrs_eq_regs]
@[simp] theorem clr_flt (fs : List Fld) (s : State) : (clr fs s).flt = s.flt := by rw [clr, wrs_eq_regs]
@[simp] theorem clr_tt (fs : List Fld) (s : State) : (clr fs s).tt = s.tt := by rw [clr, wrs_eq_regs]
@[simp] theorem clr_ctx (fs : List Fld) (s : State) : (clr fs s).ctx = s.ctx := by rw [clr, wrs_eq_regs]
@[simp] theorem clr_coach (fs : List Fld) (s : State) : (clr fs s).coach = s.coach := by rw [clr, wrs_eq_regs]
@[simp] theorem clr_gig (fs : List Fld) (s : State) : (clr fs s).gig = s.gig := by rw [clr, wrs_eq_regs]
@[simp] theorem clr_mp (fs : List Fld) (s : State) : (clr fs s).mp = s.mp := by rw [clr, wrs_eq_regs]
@[simp] theorem clr_tl (fs : List Fld) (s : State) : (clr fs s).tl = s.tl := by rw [clr, wrs_eq_regs]
@[simp] theorem clr_otp (fs : List Fld) (s : State) : (clr fs s).otp = s.otp := by rw [clr, wrs_eq_regs]
@[simp] theorem clr_flash (fs : List Fld) (s : State) : (clr fs s).flash = s.flash := by rw [clr, wrs_eq_regs]
@[simp] theorem clr_sb (fs : List Fld) (s : State) : (clr fs s).sb = s.sb := by rw [clr, wrs_eq_regs]
@[simp] theorem clr_dg (fs : List Fld) (s : State) : (clr fs s).dg = s.dg := by rw [clr, wrs_eq_regs]
@[simp] theorem clr_tap (fs : List Fld) (s : State) : (clr fs s).tap = s.tap := by rw [clr, wrs_eq_regs]

@[simp] theorem markBits_snap (f : Fld) (m : Nat) (s : State) : (markBits f m s).snap = s.snap := rfl
@[simp] theorem markBits_hiHold (f : Fld) (m : Nat) (s : State) : (markBits f m s).hiHold = s.hiHold := rfl
@[simp] theorem markBits_rwe (f : Fld) (m : Nat) (s : State) : (markBits f m s).rwe = s.rwe := rfl
@[simp] theorem markBits_now (f : Fld) (m : Nat) (s : State) : (markBits f m s).now = s.now := rfl
@[simp] theorem markBits_freeN (f : Fld) (m : Nat) (s : State) : (markBits f m s).freeN = s.freeN := rfl
@[simp] theorem markBits_out (f : Fld) (m : Nat) (s : State) : (markBits f m s).out = s.out := rfl
@[simp] theorem markBits_pending (f : Fld) (m : Nat) (s : State) : (markBits f m s).pending = s.pending := rfl
@[simp] theorem markBits_pins (f : Fld) (m : Nat) (s : State) : (markBits f m s).pins = s.pins := rfl
@[simp] theorem markBits_pw (f : Fld) (m : Nat) (s : State) : (markBits f m s).pw = s.pw := rfl
@[simp] theorem markBits_ev (f : Fld) (m : Nat) (s : State) : (markBits f m s).ev = s.ev := rfl
@[simp] theorem markBits_mb (f : Fld) (m : Nat) (s : State) : (markBits f m s).mb = s.mb := rfl
@[simp] theorem markBits_flt (f : Fld) (m : Nat) (s : State) : (markBits f m s).flt = s.flt := rfl
@[simp] theorem markBits_tt (f : Fld) (m : Nat) (s : State) : (markBits f m s).tt = s.tt := rfl
@[simp] theorem markBits_ctx (f : Fld) (m : Nat) (s : State) : (markBits f m s).ctx = s.ctx := rfl
@[simp] theorem markBits_coach (f : Fld) (m : Nat) (s : State) : (markBits f m s).coach = s.coach := rfl
@[simp] theorem markBits_gig (f : Fld) (m : Nat) (s : State) : (markBits f m s).gig = s.gig := rfl
@[simp] theorem markBits_mp (f : Fld) (m : Nat) (s : State) : (markBits f m s).mp = s.mp := rfl
@[simp] theorem markBits_tl (f : Fld) (m : Nat) (s : State) : (markBits f m s).tl = s.tl := rfl
@[simp] theorem markBits_otp (f : Fld) (m : Nat) (s : State) : (markBits f m s).otp = s.otp := rfl
@[simp] theorem markBits_flash (f : Fld) (m : Nat) (s : State) : (markBits f m s).flash = s.flash := rfl
@[simp] theorem markBits_sb (f : Fld) (m : Nat) (s : State) : (markBits f m s).sb = s.sb := rfl
@[simp] theorem markBits_dg (f : Fld) (m : Nat) (s : State) : (markBits f m s).dg = s.dg := rfl
@[simp] theorem markBits_tap (f : Fld) (m : Nat) (s : State) : (markBits f m s).tap = s.tap := rfl

@[simp] theorem markBit_snap (f : Fld) (s : State) : (markBit f s).snap = s.snap := rfl
@[simp] theorem markBit_hiHold (f : Fld) (s : State) : (markBit f s).hiHold = s.hiHold := rfl
@[simp] theorem markBit_rwe (f : Fld) (s : State) : (markBit f s).rwe = s.rwe := rfl
@[simp] theorem markBit_now (f : Fld) (s : State) : (markBit f s).now = s.now := rfl
@[simp] theorem markBit_freeN (f : Fld) (s : State) : (markBit f s).freeN = s.freeN := rfl
@[simp] theorem markBit_out (f : Fld) (s : State) : (markBit f s).out = s.out := rfl
@[simp] theorem markBit_pending (f : Fld) (s : State) : (markBit f s).pending = s.pending := rfl
@[simp] theorem markBit_pins (f : Fld) (s : State) : (markBit f s).pins = s.pins := rfl
@[simp] theorem markBit_pw (f : Fld) (s : State) : (markBit f s).pw = s.pw := rfl
@[simp] theorem markBit_ev (f : Fld) (s : State) : (markBit f s).ev = s.ev := rfl
@[simp] theorem markBit_mb (f : Fld) (s : State) : (markBit f s).mb = s.mb := rfl
@[simp] theorem markBit_flt (f : Fld) (s : State) : (markBit f s).flt = s.flt := rfl
@[simp] theorem markBit_tt (f : Fld) (s : State) : (markBit f s).tt = s.tt := rfl
@[simp] theorem markBit_ctx (f : Fld) (s : State) : (markBit f s).ctx = s.ctx := rfl
@[simp] theorem markBit_coach (f : Fld) (s : State) : (markBit f s).coach = s.coach := rfl
@[simp] theorem markBit_gig (f : Fld) (s : State) : (markBit f s).gig = s.gig := rfl
@[simp] theorem markBit_mp (f : Fld) (s : State) : (markBit f s).mp = s.mp := rfl
@[simp] theorem markBit_tl (f : Fld) (s : State) : (markBit f s).tl = s.tl := rfl
@[simp] theorem markBit_otp (f : Fld) (s : State) : (markBit f s).otp = s.otp := rfl
@[simp] theorem markBit_flash (f : Fld) (s : State) : (markBit f s).flash = s.flash := rfl
@[simp] theorem markBit_sb (f : Fld) (s : State) : (markBit f s).sb = s.sb := rfl
@[simp] theorem markBit_dg (f : Fld) (s : State) : (markBit f s).dg = s.dg := rfl
@[simp] theorem markBit_tap (f : Fld) (s : State) : (markBit f s).tap = s.tap := rfl

@[simp] theorem clearBits_snap (f : Fld) (m : Nat) (s : State) : (clearBits f m s).snap = s.snap := rfl
@[simp] theorem clearBits_hiHold (f : Fld) (m : Nat) (s : State) : (clearBits f m s).hiHold = s.hiHold := rfl
@[simp] theorem clearBits_rwe (f : Fld) (m : Nat) (s : State) : (clearBits f m s).rwe = s.rwe := rfl
@[simp] theorem clearBits_now (f : Fld) (m : Nat) (s : State) : (clearBits f m s).now = s.now := rfl
@[simp] theorem clearBits_freeN (f : Fld) (m : Nat) (s : State) : (clearBits f m s).freeN = s.freeN := rfl
@[simp] theorem clearBits_out (f : Fld) (m : Nat) (s : State) : (clearBits f m s).out = s.out := rfl
@[simp] theorem clearBits_pending (f : Fld) (m : Nat) (s : State) : (clearBits f m s).pending = s.pending := rfl
@[simp] theorem clearBits_pins (f : Fld) (m : Nat) (s : State) : (clearBits f m s).pins = s.pins := rfl
@[simp] theorem clearBits_pw (f : Fld) (m : Nat) (s : State) : (clearBits f m s).pw = s.pw := rfl
@[simp] theorem clearBits_ev (f : Fld) (m : Nat) (s : State) : (clearBits f m s).ev = s.ev := rfl
@[simp] theorem clearBits_mb (f : Fld) (m : Nat) (s : State) : (clearBits f m s).mb = s.mb := rfl
@[simp] theorem clearBits_flt (f : Fld) (m : Nat) (s : State) : (clearBits f m s).flt = s.flt := rfl
@[simp] theorem clearBits_tt (f : Fld) (m : Nat) (s : State) : (clearBits f m s).tt = s.tt := rfl
@[simp] theorem clearBits_ctx (f : Fld) (m : Nat) (s : State) : (clearBits f m s).ctx = s.ctx := rfl
@[simp] theorem clearBits_coach (f : Fld) (m : Nat) (s : State) : (clearBits f m s).coach = s.coach := rfl
@[simp] theorem clearBits_gig (f : Fld) (m : Nat) (s : State) : (clearBits f m s).gig = s.gig := rfl
@[simp] theorem clearBits_mp (f : Fld) (m : Nat) (s : State) : (clearBits f m s).mp = s.mp := rfl
@[simp] theorem clearBits_tl (f : Fld) (m : Nat) (s : State) : (clearBits f m s).tl = s.tl := rfl
@[simp] theorem clearBits_otp (f : Fld) (m : Nat) (s : State) : (clearBits f m s).otp = s.otp := rfl
@[simp] theorem clearBits_flash (f : Fld) (m : Nat) (s : State) : (clearBits f m s).flash = s.flash := rfl
@[simp] theorem clearBits_sb (f : Fld) (m : Nat) (s : State) : (clearBits f m s).sb = s.sb := rfl
@[simp] theorem clearBits_dg (f : Fld) (m : Nat) (s : State) : (clearBits f m s).dg = s.dg := rfl
@[simp] theorem clearBits_tap (f : Fld) (m : Nat) (s : State) : (clearBits f m s).tap = s.tap := rfl

@[simp] theorem cntClr_snap (fs : List Fld) (s : State) : (cntClr fs s).snap = s.snap := by rw [cntClr, wrs_snap, clr_snap]
@[simp] theorem cntClr_hiHold (fs : List Fld) (s : State) : (cntClr fs s).hiHold = s.hiHold := by rw [cntClr, wrs_hiHold, clr_hiHold]
@[simp] theorem cntClr_rwe (fs : List Fld) (s : State) : (cntClr fs s).rwe = s.rwe := by rw [cntClr, wrs_rwe, clr_rwe]
@[simp] theorem cntClr_now (fs : List Fld) (s : State) : (cntClr fs s).now = s.now := by rw [cntClr, wrs_now, clr_now]
@[simp] theorem cntClr_freeN (fs : List Fld) (s : State) : (cntClr fs s).freeN = s.freeN := by rw [cntClr, wrs_freeN, clr_freeN]
@[simp] theorem cntClr_out (fs : List Fld) (s : State) : (cntClr fs s).out = s.out := by rw [cntClr, wrs_out, clr_out]
@[simp] theorem cntClr_pending (fs : List Fld) (s : State) : (cntClr fs s).pending = s.pending := by rw [cntClr, wrs_pending, clr_pending]
@[simp] theorem cntClr_pins (fs : List Fld) (s : State) : (cntClr fs s).pins = s.pins := by rw [cntClr, wrs_pins, clr_pins]
@[simp] theorem cntClr_pw (fs : List Fld) (s : State) : (cntClr fs s).pw = s.pw := by rw [cntClr, wrs_pw, clr_pw]
@[simp] theorem cntClr_ev (fs : List Fld) (s : State) : (cntClr fs s).ev = s.ev := by rw [cntClr, wrs_ev, clr_ev]
@[simp] theorem cntClr_mb (fs : List Fld) (s : State) : (cntClr fs s).mb = s.mb := by rw [cntClr, wrs_mb, clr_mb]
@[simp] theorem cntClr_flt (fs : List Fld) (s : State) : (cntClr fs s).flt = s.flt := by rw [cntClr, wrs_flt, clr_flt]
@[simp] theorem cntClr_tt (fs : List Fld) (s : State) : (cntClr fs s).tt = s.tt := by rw [cntClr, wrs_tt, clr_tt]
@[simp] theorem cntClr_ctx (fs : List Fld) (s : State) : (cntClr fs s).ctx = s.ctx := by rw [cntClr, wrs_ctx, clr_ctx]
@[simp] theorem cntClr_coach (fs : List Fld) (s : State) : (cntClr fs s).coach = s.coach := by rw [cntClr, wrs_coach, clr_coach]
@[simp] theorem cntClr_gig (fs : List Fld) (s : State) : (cntClr fs s).gig = s.gig := by rw [cntClr, wrs_gig, clr_gig]
@[simp] theorem cntClr_mp (fs : List Fld) (s : State) : (cntClr fs s).mp = s.mp := by rw [cntClr, wrs_mp, clr_mp]
@[simp] theorem cntClr_tl (fs : List Fld) (s : State) : (cntClr fs s).tl = s.tl := by rw [cntClr, wrs_tl, clr_tl]
@[simp] theorem cntClr_otp (fs : List Fld) (s : State) : (cntClr fs s).otp = s.otp := by rw [cntClr, wrs_otp, clr_otp]
@[simp] theorem cntClr_flash (fs : List Fld) (s : State) : (cntClr fs s).flash = s.flash := by rw [cntClr, wrs_flash, clr_flash]
@[simp] theorem cntClr_sb (fs : List Fld) (s : State) : (cntClr fs s).sb = s.sb := by rw [cntClr, wrs_sb, clr_sb]
@[simp] theorem cntClr_dg (fs : List Fld) (s : State) : (cntClr fs s).dg = s.dg := by rw [cntClr, wrs_dg, clr_dg]
@[simp] theorem cntClr_tap (fs : List Fld) (s : State) : (cntClr fs s).tap = s.tap := by rw [cntClr, wrs_tap, clr_tap]

@[simp] theorem emit_regs (o : Out) (s : State) : (emit o s).regs = s.regs := rfl
@[simp] theorem emit_snap (o : Out) (s : State) : (emit o s).snap = s.snap := rfl
@[simp] theorem emit_hiHold (o : Out) (s : State) : (emit o s).hiHold = s.hiHold := rfl
@[simp] theorem emit_rwe (o : Out) (s : State) : (emit o s).rwe = s.rwe := rfl
@[simp] theorem emit_now (o : Out) (s : State) : (emit o s).now = s.now := rfl
@[simp] theorem emit_freeN (o : Out) (s : State) : (emit o s).freeN = s.freeN := rfl
@[simp] theorem emit_pending (o : Out) (s : State) : (emit o s).pending = s.pending := rfl
@[simp] theorem emit_pins (o : Out) (s : State) : (emit o s).pins = s.pins := rfl
@[simp] theorem emit_pw (o : Out) (s : State) : (emit o s).pw = s.pw := rfl
@[simp] theorem emit_ev (o : Out) (s : State) : (emit o s).ev = s.ev := rfl
@[simp] theorem emit_mb (o : Out) (s : State) : (emit o s).mb = s.mb := rfl
@[simp] theorem emit_flt (o : Out) (s : State) : (emit o s).flt = s.flt := rfl
@[simp] theorem emit_tt (o : Out) (s : State) : (emit o s).tt = s.tt := rfl
@[simp] theorem emit_ctx (o : Out) (s : State) : (emit o s).ctx = s.ctx := rfl
@[simp] theorem emit_coach (o : Out) (s : State) : (emit o s).coach = s.coach := rfl
@[simp] theorem emit_gig (o : Out) (s : State) : (emit o s).gig = s.gig := rfl
@[simp] theorem emit_mp (o : Out) (s : State) : (emit o s).mp = s.mp := rfl
@[simp] theorem emit_tl (o : Out) (s : State) : (emit o s).tl = s.tl := rfl
@[simp] theorem emit_otp (o : Out) (s : State) : (emit o s).otp = s.otp := rfl
@[simp] theorem emit_flash (o : Out) (s : State) : (emit o s).flash = s.flash := rfl
@[simp] theorem emit_sb (o : Out) (s : State) : (emit o s).sb = s.sb := rfl
@[simp] theorem emit_dg (o : Out) (s : State) : (emit o s).dg = s.dg := rfl
@[simp] theorem emit_tap (o : Out) (s : State) : (emit o s).tap = s.tap := rfl

@[simp] theorem tick_snap (s : State) : (tick s).snap = s.snap := rfl
@[simp] theorem tick_hiHold (s : State) : (tick s).hiHold = s.hiHold := rfl
@[simp] theorem tick_rwe (s : State) : (tick s).rwe = s.rwe := rfl
@[simp] theorem tick_freeN (s : State) : (tick s).freeN = s.freeN := rfl
@[simp] theorem tick_out (s : State) : (tick s).out = s.out := rfl
@[simp] theorem tick_pending (s : State) : (tick s).pending = s.pending := rfl
@[simp] theorem tick_pins (s : State) : (tick s).pins = s.pins := rfl
@[simp] theorem tick_pw (s : State) : (tick s).pw = s.pw := rfl
@[simp] theorem tick_ev (s : State) : (tick s).ev = s.ev := rfl
@[simp] theorem tick_mb (s : State) : (tick s).mb = s.mb := rfl
@[simp] theorem tick_flt (s : State) : (tick s).flt = s.flt := rfl
@[simp] theorem tick_ctx (s : State) : (tick s).ctx = s.ctx := rfl
@[simp] theorem tick_coach (s : State) : (tick s).coach = s.coach := rfl
@[simp] theorem tick_gig (s : State) : (tick s).gig = s.gig := rfl
@[simp] theorem tick_mp (s : State) : (tick s).mp = s.mp := rfl
@[simp] theorem tick_tl (s : State) : (tick s).tl = s.tl := rfl
@[simp] theorem tick_otp (s : State) : (tick s).otp = s.otp := rfl
@[simp] theorem tick_flash (s : State) : (tick s).flash = s.flash := rfl
@[simp] theorem tick_sb (s : State) : (tick s).sb = s.sb := rfl
@[simp] theorem tick_dg (s : State) : (tick s).dg = s.dg := rfl
@[simp] theorem tick_tap (s : State) : (tick s).tap = s.tap := rfl

@[simp] theorem free_regs (s : State) : (free s).2.regs = s.regs := rfl
@[simp] theorem free_snap (s : State) : (free s).2.snap = s.snap := rfl
@[simp] theorem free_hiHold (s : State) : (free s).2.hiHold = s.hiHold := rfl
@[simp] theorem free_rwe (s : State) : (free s).2.rwe = s.rwe := rfl
@[simp] theorem free_now (s : State) : (free s).2.now = s.now := rfl
@[simp] theorem free_out (s : State) : (free s).2.out = s.out := rfl
@[simp] theorem free_pending (s : State) : (free s).2.pending = s.pending := rfl
@[simp] theorem free_pins (s : State) : (free s).2.pins = s.pins := rfl
@[simp] theorem free_pw (s : State) : (free s).2.pw = s.pw := rfl
@[simp] theorem free_ev (s : State) : (free s).2.ev = s.ev := rfl
@[simp] theorem free_mb (s : State) : (free s).2.mb = s.mb := rfl
@[simp] theorem free_flt (s : State) : (free s).2.flt = s.flt := rfl
@[simp] theorem free_tt (s : State) : (free s).2.tt = s.tt := rfl
@[simp] theorem free_ctx (s : State) : (free s).2.ctx = s.ctx := rfl
@[simp] theorem free_coach (s : State) : (free s).2.coach = s.coach := rfl
@[simp] theorem free_gig (s : State) : (free s).2.gig = s.gig := rfl
@[simp] theorem free_mp (s : State) : (free s).2.mp = s.mp := rfl
@[simp] theorem free_tl (s : State) : (free s).2.tl = s.tl := rfl
@[simp] theorem free_otp (s : State) : (free s).2.otp = s.otp := rfl
@[simp] theorem free_flash (s : State) : (free s).2.flash = s.flash := rfl
@[simp] theorem free_sb (s : State) : (free s).2.sb = s.sb := rfl
@[simp] theorem free_dg (s : State) : (free s).2.dg = s.dg := rfl
@[simp] theorem free_tap (s : State) : (free s).2.tap = s.tap := rfl

@[simp] theorem setChan_regs (k : Fin 6) (c : MbChan) (s : State) : (setChan k c s).regs = s.regs := rfl
@[simp] theorem setChan_snap (k : Fin 6) (c : MbChan) (s : State) : (setChan k c s).snap = s.snap := rfl
@[simp] theorem setChan_hiHold (k : Fin 6) (c : MbChan) (s : State) : (setChan k c s).hiHold = s.hiHold := rfl
@[simp] theorem setChan_rwe (k : Fin 6) (c : MbChan) (s : State) : (setChan k c s).rwe = s.rwe := rfl
@[simp] theorem setChan_now (k : Fin 6) (c : MbChan) (s : State) : (setChan k c s).now = s.now := rfl
@[simp] theorem setChan_freeN (k : Fin 6) (c : MbChan) (s : State) : (setChan k c s).freeN = s.freeN := rfl
@[simp] theorem setChan_out (k : Fin 6) (c : MbChan) (s : State) : (setChan k c s).out = s.out := rfl
@[simp] theorem setChan_pending (k : Fin 6) (c : MbChan) (s : State) : (setChan k c s).pending = s.pending := rfl
@[simp] theorem setChan_pins (k : Fin 6) (c : MbChan) (s : State) : (setChan k c s).pins = s.pins := rfl
@[simp] theorem setChan_pw (k : Fin 6) (c : MbChan) (s : State) : (setChan k c s).pw = s.pw := rfl
@[simp] theorem setChan_ev (k : Fin 6) (c : MbChan) (s : State) : (setChan k c s).ev = s.ev := rfl
@[simp] theorem setChan_flt (k : Fin 6) (c : MbChan) (s : State) : (setChan k c s).flt = s.flt := rfl
@[simp] theorem setChan_tt (k : Fin 6) (c : MbChan) (s : State) : (setChan k c s).tt = s.tt := rfl
@[simp] theorem setChan_ctx (k : Fin 6) (c : MbChan) (s : State) : (setChan k c s).ctx = s.ctx := rfl
@[simp] theorem setChan_coach (k : Fin 6) (c : MbChan) (s : State) : (setChan k c s).coach = s.coach := rfl
@[simp] theorem setChan_gig (k : Fin 6) (c : MbChan) (s : State) : (setChan k c s).gig = s.gig := rfl
@[simp] theorem setChan_mp (k : Fin 6) (c : MbChan) (s : State) : (setChan k c s).mp = s.mp := rfl
@[simp] theorem setChan_tl (k : Fin 6) (c : MbChan) (s : State) : (setChan k c s).tl = s.tl := rfl
@[simp] theorem setChan_otp (k : Fin 6) (c : MbChan) (s : State) : (setChan k c s).otp = s.otp := rfl
@[simp] theorem setChan_flash (k : Fin 6) (c : MbChan) (s : State) : (setChan k c s).flash = s.flash := rfl
@[simp] theorem setChan_sb (k : Fin 6) (c : MbChan) (s : State) : (setChan k c s).sb = s.sb := rfl
@[simp] theorem setChan_dg (k : Fin 6) (c : MbChan) (s : State) : (setChan k c s).dg = s.dg := rfl
@[simp] theorem setChan_tap (k : Fin 6) (c : MbChan) (s : State) : (setChan k c s).tap = s.tap := rfl

@[simp] theorem setCx_regs (n : Ctx) (c : CtxSt) (s : State) : (setCx n c s).regs = s.regs := rfl
@[simp] theorem setCx_snap (n : Ctx) (c : CtxSt) (s : State) : (setCx n c s).snap = s.snap := rfl
@[simp] theorem setCx_hiHold (n : Ctx) (c : CtxSt) (s : State) : (setCx n c s).hiHold = s.hiHold := rfl
@[simp] theorem setCx_rwe (n : Ctx) (c : CtxSt) (s : State) : (setCx n c s).rwe = s.rwe := rfl
@[simp] theorem setCx_now (n : Ctx) (c : CtxSt) (s : State) : (setCx n c s).now = s.now := rfl
@[simp] theorem setCx_freeN (n : Ctx) (c : CtxSt) (s : State) : (setCx n c s).freeN = s.freeN := rfl
@[simp] theorem setCx_out (n : Ctx) (c : CtxSt) (s : State) : (setCx n c s).out = s.out := rfl
@[simp] theorem setCx_pending (n : Ctx) (c : CtxSt) (s : State) : (setCx n c s).pending = s.pending := rfl
@[simp] theorem setCx_pins (n : Ctx) (c : CtxSt) (s : State) : (setCx n c s).pins = s.pins := rfl
@[simp] theorem setCx_pw (n : Ctx) (c : CtxSt) (s : State) : (setCx n c s).pw = s.pw := rfl
@[simp] theorem setCx_ev (n : Ctx) (c : CtxSt) (s : State) : (setCx n c s).ev = s.ev := rfl
@[simp] theorem setCx_mb (n : Ctx) (c : CtxSt) (s : State) : (setCx n c s).mb = s.mb := rfl
@[simp] theorem setCx_flt (n : Ctx) (c : CtxSt) (s : State) : (setCx n c s).flt = s.flt := rfl
@[simp] theorem setCx_tt (n : Ctx) (c : CtxSt) (s : State) : (setCx n c s).tt = s.tt := rfl
@[simp] theorem setCx_coach (n : Ctx) (c : CtxSt) (s : State) : (setCx n c s).coach = s.coach := rfl
@[simp] theorem setCx_gig (n : Ctx) (c : CtxSt) (s : State) : (setCx n c s).gig = s.gig := rfl
@[simp] theorem setCx_mp (n : Ctx) (c : CtxSt) (s : State) : (setCx n c s).mp = s.mp := rfl
@[simp] theorem setCx_tl (n : Ctx) (c : CtxSt) (s : State) : (setCx n c s).tl = s.tl := rfl
@[simp] theorem setCx_otp (n : Ctx) (c : CtxSt) (s : State) : (setCx n c s).otp = s.otp := rfl
@[simp] theorem setCx_flash (n : Ctx) (c : CtxSt) (s : State) : (setCx n c s).flash = s.flash := rfl
@[simp] theorem setCx_sb (n : Ctx) (c : CtxSt) (s : State) : (setCx n c s).sb = s.sb := rfl
@[simp] theorem setCx_dg (n : Ctx) (c : CtxSt) (s : State) : (setCx n c s).dg = s.dg := rfl
@[simp] theorem setCx_tap (n : Ctx) (c : CtxSt) (s : State) : (setCx n c s).tap = s.tap := rfl

@[simp] theorem modCx_regs (n : Ctx) (f : CtxSt → CtxSt) (s : State) : (modCx n f s).regs = s.regs := rfl
@[simp] theorem modCx_snap (n : Ctx) (f : CtxSt → CtxSt) (s : State) : (modCx n f s).snap = s.snap := rfl
@[simp] theorem modCx_hiHold (n : Ctx) (f : CtxSt → CtxSt) (s : State) : (modCx n f s).hiHold = s.hiHold := rfl
@[simp] theorem modCx_rwe (n : Ctx) (f : CtxSt → CtxSt) (s : State) : (modCx n f s).rwe = s.rwe := rfl
@[simp] theorem modCx_now (n : Ctx) (f : CtxSt → CtxSt) (s : State) : (modCx n f s).now = s.now := rfl
@[simp] theorem modCx_freeN (n : Ctx) (f : CtxSt → CtxSt) (s : State) : (modCx n f s).freeN = s.freeN := rfl
@[simp] theorem modCx_out (n : Ctx) (f : CtxSt → CtxSt) (s : State) : (modCx n f s).out = s.out := rfl
@[simp] theorem modCx_pending (n : Ctx) (f : CtxSt → CtxSt) (s : State) : (modCx n f s).pending = s.pending := rfl
@[simp] theorem modCx_pins (n : Ctx) (f : CtxSt → CtxSt) (s : State) : (modCx n f s).pins = s.pins := rfl
@[simp] theorem modCx_pw (n : Ctx) (f : CtxSt → CtxSt) (s : State) : (modCx n f s).pw = s.pw := rfl
@[simp] theorem modCx_ev (n : Ctx) (f : CtxSt → CtxSt) (s : State) : (modCx n f s).ev = s.ev := rfl
@[simp] theorem modCx_mb (n : Ctx) (f : CtxSt → CtxSt) (s : State) : (modCx n f s).mb = s.mb := rfl
@[simp] theorem modCx_flt (n : Ctx) (f : CtxSt → CtxSt) (s : State) : (modCx n f s).flt = s.flt := rfl
@[simp] theorem modCx_tt (n : Ctx) (f : CtxSt → CtxSt) (s : State) : (modCx n f s).tt = s.tt := rfl
@[simp] theorem modCx_coach (n : Ctx) (f : CtxSt → CtxSt) (s : State) : (modCx n f s).coach = s.coach := rfl
@[simp] theorem modCx_gig (n : Ctx) (f : CtxSt → CtxSt) (s : State) : (modCx n f s).gig = s.gig := rfl
@[simp] theorem modCx_mp (n : Ctx) (f : CtxSt → CtxSt) (s : State) : (modCx n f s).mp = s.mp := rfl
@[simp] theorem modCx_tl (n : Ctx) (f : CtxSt → CtxSt) (s : State) : (modCx n f s).tl = s.tl := rfl
@[simp] theorem modCx_otp (n : Ctx) (f : CtxSt → CtxSt) (s : State) : (modCx n f s).otp = s.otp := rfl
@[simp] theorem modCx_flash (n : Ctx) (f : CtxSt → CtxSt) (s : State) : (modCx n f s).flash = s.flash := rfl
@[simp] theorem modCx_sb (n : Ctx) (f : CtxSt → CtxSt) (s : State) : (modCx n f s).sb = s.sb := rfl
@[simp] theorem modCx_dg (n : Ctx) (f : CtxSt → CtxSt) (s : State) : (modCx n f s).dg = s.dg := rfl
@[simp] theorem modCx_tap (n : Ctx) (f : CtxSt → CtxSt) (s : State) : (modCx n f s).tap = s.tap := rfl

@[simp] theorem setCo_regs (c : Coach) (x : CoachSt) (s : State) : (setCo c x s).regs = s.regs := rfl
@[simp] theorem setCo_snap (c : Coach) (x : CoachSt) (s : State) : (setCo c x s).snap = s.snap := rfl
@[simp] theorem setCo_hiHold (c : Coach) (x : CoachSt) (s : State) : (setCo c x s).hiHold = s.hiHold := rfl
@[simp] theorem setCo_rwe (c : Coach) (x : CoachSt) (s : State) : (setCo c x s).rwe = s.rwe := rfl
@[simp] theorem setCo_now (c : Coach) (x : CoachSt) (s : State) : (setCo c x s).now = s.now := rfl
@[simp] theorem setCo_freeN (c : Coach) (x : CoachSt) (s : State) : (setCo c x s).freeN = s.freeN := rfl
@[simp] theorem setCo_out (c : Coach) (x : CoachSt) (s : State) : (setCo c x s).out = s.out := rfl
@[simp] theorem setCo_pending (c : Coach) (x : CoachSt) (s : State) : (setCo c x s).pending = s.pending := rfl
@[simp] theorem setCo_pins (c : Coach) (x : CoachSt) (s : State) : (setCo c x s).pins = s.pins := rfl
@[simp] theorem setCo_pw (c : Coach) (x : CoachSt) (s : State) : (setCo c x s).pw = s.pw := rfl
@[simp] theorem setCo_ev (c : Coach) (x : CoachSt) (s : State) : (setCo c x s).ev = s.ev := rfl
@[simp] theorem setCo_mb (c : Coach) (x : CoachSt) (s : State) : (setCo c x s).mb = s.mb := rfl
@[simp] theorem setCo_flt (c : Coach) (x : CoachSt) (s : State) : (setCo c x s).flt = s.flt := rfl
@[simp] theorem setCo_tt (c : Coach) (x : CoachSt) (s : State) : (setCo c x s).tt = s.tt := rfl
@[simp] theorem setCo_ctx (c : Coach) (x : CoachSt) (s : State) : (setCo c x s).ctx = s.ctx := rfl
@[simp] theorem setCo_gig (c : Coach) (x : CoachSt) (s : State) : (setCo c x s).gig = s.gig := rfl
@[simp] theorem setCo_mp (c : Coach) (x : CoachSt) (s : State) : (setCo c x s).mp = s.mp := rfl
@[simp] theorem setCo_tl (c : Coach) (x : CoachSt) (s : State) : (setCo c x s).tl = s.tl := rfl
@[simp] theorem setCo_otp (c : Coach) (x : CoachSt) (s : State) : (setCo c x s).otp = s.otp := rfl
@[simp] theorem setCo_flash (c : Coach) (x : CoachSt) (s : State) : (setCo c x s).flash = s.flash := rfl
@[simp] theorem setCo_sb (c : Coach) (x : CoachSt) (s : State) : (setCo c x s).sb = s.sb := rfl
@[simp] theorem setCo_dg (c : Coach) (x : CoachSt) (s : State) : (setCo c x s).dg = s.dg := rfl
@[simp] theorem setCo_tap (c : Coach) (x : CoachSt) (s : State) : (setCo c x s).tap = s.tap := rfl

@[simp] theorem modCo_regs (c : Coach) (f : CoachSt → CoachSt) (s : State) : (modCo c f s).regs = s.regs := rfl
@[simp] theorem modCo_snap (c : Coach) (f : CoachSt → CoachSt) (s : State) : (modCo c f s).snap = s.snap := rfl
@[simp] theorem modCo_hiHold (c : Coach) (f : CoachSt → CoachSt) (s : State) : (modCo c f s).hiHold = s.hiHold := rfl
@[simp] theorem modCo_rwe (c : Coach) (f : CoachSt → CoachSt) (s : State) : (modCo c f s).rwe = s.rwe := rfl
@[simp] theorem modCo_now (c : Coach) (f : CoachSt → CoachSt) (s : State) : (modCo c f s).now = s.now := rfl
@[simp] theorem modCo_freeN (c : Coach) (f : CoachSt → CoachSt) (s : State) : (modCo c f s).freeN = s.freeN := rfl
@[simp] theorem modCo_out (c : Coach) (f : CoachSt → CoachSt) (s : State) : (modCo c f s).out = s.out := rfl
@[simp] theorem modCo_pending (c : Coach) (f : CoachSt → CoachSt) (s : State) : (modCo c f s).pending = s.pending := rfl
@[simp] theorem modCo_pins (c : Coach) (f : CoachSt → CoachSt) (s : State) : (modCo c f s).pins = s.pins := rfl
@[simp] theorem modCo_pw (c : Coach) (f : CoachSt → CoachSt) (s : State) : (modCo c f s).pw = s.pw := rfl
@[simp] theorem modCo_ev (c : Coach) (f : CoachSt → CoachSt) (s : State) : (modCo c f s).ev = s.ev := rfl
@[simp] theorem modCo_mb (c : Coach) (f : CoachSt → CoachSt) (s : State) : (modCo c f s).mb = s.mb := rfl
@[simp] theorem modCo_flt (c : Coach) (f : CoachSt → CoachSt) (s : State) : (modCo c f s).flt = s.flt := rfl
@[simp] theorem modCo_tt (c : Coach) (f : CoachSt → CoachSt) (s : State) : (modCo c f s).tt = s.tt := rfl
@[simp] theorem modCo_ctx (c : Coach) (f : CoachSt → CoachSt) (s : State) : (modCo c f s).ctx = s.ctx := rfl
@[simp] theorem modCo_gig (c : Coach) (f : CoachSt → CoachSt) (s : State) : (modCo c f s).gig = s.gig := rfl
@[simp] theorem modCo_mp (c : Coach) (f : CoachSt → CoachSt) (s : State) : (modCo c f s).mp = s.mp := rfl
@[simp] theorem modCo_tl (c : Coach) (f : CoachSt → CoachSt) (s : State) : (modCo c f s).tl = s.tl := rfl
@[simp] theorem modCo_otp (c : Coach) (f : CoachSt → CoachSt) (s : State) : (modCo c f s).otp = s.otp := rfl
@[simp] theorem modCo_flash (c : Coach) (f : CoachSt → CoachSt) (s : State) : (modCo c f s).flash = s.flash := rfl
@[simp] theorem modCo_sb (c : Coach) (f : CoachSt → CoachSt) (s : State) : (modCo c f s).sb = s.sb := rfl
@[simp] theorem modCo_dg (c : Coach) (f : CoachSt → CoachSt) (s : State) : (modCo c f s).dg = s.dg := rfl
@[simp] theorem modCo_tap (c : Coach) (f : CoachSt → CoachSt) (s : State) : (modCo c f s).tap = s.tap := rfl

@[simp] theorem emit_out (o : Out) (s : State) : (emit o s).out = o :: s.out := rfl
@[simp] theorem tick_now (s : State) : (tick s).now = s.now + 1 := rfl
@[simp] theorem cx_setCx (n : Ctx) (c : CtxSt) (s : State) : cx n (setCx n c s) = c := by simp [cx, setCx]
theorem cx_setCx_ne (m n : Ctx) (c : CtxSt) (s : State) (h : m ≠ n) : cx m (setCx n c s) = cx m s := by
  simp [cx, setCx, Fin.val_ne_of_ne h.symm]
@[simp] theorem co_setCo (c : Coach) (x : CoachSt) (s : State) : co c (setCo c x s) = x := by simp [co, setCo]
theorem co_setCo_ne (d c : Coach) (x : CoachSt) (s : State) (h : d ≠ c) : co d (setCo c x s) = co d s := by
  simp [co, setCo, Fin.val_ne_of_ne h.symm]
@[simp] theorem chan_setChan (k : Fin 6) (c : MbChan) (s : State) : chan k (setChan k c s) = c := by simp [chan, setChan]
theorem chan_setChan_ne (j k : Fin 6) (c : MbChan) (s : State) (h : j ≠ k) : chan j (setChan k c s) = chan j s := by
  simp [chan, setChan, Fin.val_ne_of_ne h.symm]
@[simp] theorem cx_modCx (n : Ctx) (f : CtxSt → CtxSt) (s : State) : cx n (modCx n f s) = f (cx n s) := cx_setCx _ _ _
@[simp] theorem co_modCo (c : Coach) (f : CoachSt → CoachSt) (s : State) : co c (modCo c f s) = f (co c s) := co_setCo _ _ _

end Sys2Proof.Machine
end

