-- ==== Sys2Proof/Laws/Ops.lean ====
section
/-! SUPPORT. What the shared operations do: reads of register fields after writes, the answer to a served host access, the service of a
request, and what the latching of events may change. -/

namespace Sys2Proof.Machine

/-- Only the register store decides what a field reads. -/
theorem rd_congr {s t : State} (h : t.regs = s.regs) (f : Fld) : rd f t = rd f s := by simp only [rd, h]

/-- A change of anything but registers leaves every field. -/
@[simp] theorem rd_upd (f : Fld) (s : State) (sn hh rw nw fr ou pe pins pw ev mb flt tt ctx coach gig mp tl otp flash sb dg tap) :
    rd f (State.mk s.regs sn hh rw nw fr ou pe pins pw ev mb flt tt ctx coach gig mp tl otp flash sb dg tap) = rd f s := rfl

@[simp] theorem rd_emit (f : Fld) (o : Out) (s : State) : rd f (emit o s) = rd f s := rfl
@[simp] theorem rd_free (f : Fld) (s : State) : rd f (free s).2 = rd f s := rfl
@[simp] theorem rd_setChan (f : Fld) (k : Fin 6) (c : MbChan) (s : State) : rd f (setChan k c s) = rd f s := rfl
@[simp] theorem rd_setCx (f : Fld) (n : Ctx) (c : CtxSt) (s : State) : rd f (setCx n c s) = rd f s := rfl
@[simp] theorem rd_modCx (f : Fld) (n : Ctx) (g : CtxSt → CtxSt) (s : State) : rd f (modCx n g s) = rd f s := rfl
@[simp] theorem rd_setCo (f : Fld) (c : Coach) (x : CoachSt) (s : State) : rd f (setCo c x s) = rd f s := rfl
@[simp] theorem rd_modCo (f : Fld) (c : Coach) (g : CoachSt → CoachSt) (s : State) : rd f (modCo c g s) = rd f s := rfl

/-- A field after a write: the written value, cut to the width, at the same key; unchanged at another. -/
theorem rd_wr {s : State} (h : s.regsWf = true) (f g : Fld) (v : Nat) :
    rd f (wr g v s) = if f.key = g.key then v % 2 ^ g.width else rd f s := by
  split
  · rename_i e; simp only [rd, wr, e]; exact SMap.get_set_same _ _ _ _ h
  · rename_i e; exact SMap.get_set_ne _ _ _ _ h _ e

theorem rd_wr_same {s : State} (h : s.regsWf = true) (f : Fld) (v : Nat) : rd f (wr f v s) = v % 2 ^ f.width := by simp [rd_wr h]

theorem rd_wr_ne {s : State} (h : s.regsWf = true) (f g : Fld) (v : Nat) (e : f.key ≠ g.key) : rd f (wr g v s) = rd f s := by
  simp [rd_wr h, e]

theorem regsWf_wr {s : State} (h : s.regsWf = true) (f : Fld) (v : Nat) : (wr f v s).regsWf = true := SMap.wf_set _ _ _ _ h

/-- Whatever is sound keeps the register file canonical. -/
theorem Sound.wf {s t : State} (k : Sound s t) (h : s.regsWf = true) : t.regsWf = true := k.regs h

/-- A counter after an addition: the sum, or its maximum (R16). -/
theorem rd_add_same {s : State} (h : s.regsWf = true) (f : Fld) (n : Nat) :
    rd f (add f n s) = min (rd f s + n) (2 ^ f.width - 1) := by
  have : 0 < 2 ^ f.width := Nat.two_pow_pos _
  rw [add, rd_wr_same h, Nat.mod_eq_of_lt (by omega)]

theorem rd_add_ne {s : State} (h : s.regsWf = true) (f g : Fld) (n : Nat) (e : f.key ≠ g.key) : rd f (add g n s) = rd f s :=
  rd_wr_ne h _ _ _ e

theorem rd_inc_same {s : State} (h : s.regsWf = true) (f : Fld) : rd f (inc f s) = min (rd f s + 1) (2 ^ f.width - 1) := rd_add_same h f 1

theorem rd_inc_ne {s : State} (h : s.regsWf = true) (f g : Fld) (e : f.key ≠ g.key) : rd f (inc g s) = rd f s := rd_wr_ne h _ _ _ e

/-- The fields of the model's own lie above every register. -/
@[simp] theorem ownKey_freshF (f : Fld) : ownKey (freshF f).key = true := decide_eq_true (by simp only [freshF, Fld.key]; omega)
@[simp] theorem ownKey_clearedF (f : Fld) : ownKey (clearedF f).key = true := decide_eq_true (by simp only [clearedF, Fld.key]; omega)

theorem key_ne_of_own {f g : Fld} (hf : ownKey f.key = false) (hg : ownKey g.key = true) : f.key ≠ g.key := fun e => by
  rw [e, hg] at hf; cases hf

/-- Bits that hardware sets: they stand in their field, and no other register field changes (R14). -/
theorem rd_markBits {s : State} (h : s.regsWf = true) (f g : Fld) (m : Nat) (hf : ownKey f.key = false) :
    rd f (markBits g m s) = if f.key = g.key then (rd g s ||| m) % 2 ^ g.width else rd f s := by
  rw [markBits, rd_wr_ne (regsWf_wr h _ _) _ _ _ (key_ne_of_own hf (ownKey_freshF g)), rd_wr h]

theorem rd_markBits_ne {s : State} (h : s.regsWf = true) (f g : Fld) (m : Nat) (hf : ownKey f.key = false) (e : f.key ≠ g.key) :
    rd f (markBits g m s) = rd f s := by
  rw [rd_markBits h f g m hf, if_neg e]

/-- Bits that are cleared: those set in the same cycle stay, and no other field changes (R14). -/
theorem rd_clearBits {s : State} (h : s.regsWf = true) (f g : Fld) (m : Nat) :
    rd f (clearBits g m s) = if f.key = g.key then (rd g s - (rd g s &&& m) ||| rd g s &&& rd (freshF g) s) % 2 ^ g.width else rd f s := rd_wr h f g _

/-- A list of writes leaves the fields that it does not name. -/
theorem rd_wrs_ne (l : List (Fld × Nat)) {s : State} (h : s.regsWf = true) (f : Fld) (e : ∀ x ∈ l, f.key ≠ x.1.key) :
    rd f (wrs l s) = rd f s := by
  induction l generalizing s with
  | nil => rfl
  | cons x r ih =>
    rw [wrs, ih (regsWf_wr h _ _) (fun y hy => e y (List.mem_cons_of_mem _ hy)), rd_wr_ne h _ _ _ (e x List.mem_cons_self)]

/-- A cleared field reads zero. -/
theorem rd_clr_mem (l : List Fld) {s : State} (h : s.regsWf = true) (f : Fld) (e : f ∈ l) : rd f (clr l s) = 0 := by
  suffices k : ∀ (l : List Fld) (s : State), s.regsWf = true → (f ∈ l ∨ rd f s = 0) → rd f (clr l s) = 0 from k l s h (.inl e)
  intro l
  induction l with
  | nil => intro s _ e; simpa [clr, wrs] using e
  | cons g r ih =>
    intro s h e
    refine ih (wr g 0 s) (regsWf_wr h _ _) ?_
    rw [rd_wr h]
    rcases e with e | e
    · rcases List.mem_cons.1 e with e | e
      · subst e; exact .inr (by simp)
      · exact .inl e
    · exact .inr (by split <;> simp [e])

/-- A clear leaves the other fields. -/
theorem rd_clr_ne (l : List Fld) {s : State} (h : s.regsWf = true) (f : Fld) (e : ∀ g ∈ l, f.key ≠ g.key) : rd f (clr l s) = rd f s := by
  refine rd_wrs_ne _ h f (fun x hx => ?_)
  obtain ⟨g, hg, rfl⟩ := List.mem_map.1 hx
  exact e g hg

theorem clr_kept (l : List Fld) {s : State} (h : s.regsWf = true) : s.kept l (clr l s) := fun f _ e => rd_clr_ne l h f e

/-- A write that clears counters: they read 0, and no other register field changes (R36). -/
theorem rd_cntClr_mem (l : List Fld) {s : State} (h : s.regsWf = true) (f : Fld) (hf : ownKey f.key = false) (e : f ∈ l) : rd f (cntClr l s) = 0 := by
  rw [cntClr, rd_wrs_ne _ ((clr_sound l (Sound.refl s)).wf h) f (fun x hx => ?_), rd_clr_mem l h f e]
  obtain ⟨g, _, rfl⟩ := List.mem_map.1 hx
  exact key_ne_of_own hf (ownKey_clearedF g)

theorem cntClr_kept (l : List Fld) {s : State} (h : s.regsWf = true) : s.kept l (cntClr l s) := fun f hf e => by
  rw [cntClr, rd_wrs_ne _ ((clr_sound l (Sound.refl s)).wf h) f (fun x hx => ?_), rd_clr_ne l h f e]
  obtain ⟨g, _, rfl⟩ := List.mem_map.1 hx
  exact key_ne_of_own hf (ownKey_clearedF g)

/-- A fold leaves a field that each of its steps leaves. -/
theorem rd_each {α : Type} (l : List α) (g : α → State → State) (f : Fld) (hs : ∀ x u, Sound u (g x u))
    (hg : ∀ x u, x ∈ l → u.regsWf = true → rd f (g x u) = rd f u) {s : State} (h : s.regsWf = true) : rd f (each l g s) = rd f s := by
  unfold each
  induction l generalizing s with
  | nil => rfl
  | cons x r ih =>
    exact (ih (fun y u m => hg y u (List.mem_cons_of_mem _ m)) ((hs x s).wf h)).trans (hg x s List.mem_cons_self h)

/-- A host write that is served has its effect, then its answer OK. -/
theorem hostTo_served {a : Nat} {sec : Bool} {k : State → State} {s : State} (h : s.served a sec) :
    hostTo a sec k s = emit (.resp true 0 0) (k s) := by
  obtain ⟨_, h2, h3⟩ := h
  simp only [hostTo, h2, h3, Bool.false_eq_true, if_false]

/-- A host read that is served returns its value. -/
theorem hostFrom_served {a : Nat} {sec : Bool} {v : State → Nat} {k : State → State} {s : State} (h : s.served a sec) :
    hostFrom a sec v k s = emit (.resp false 0 (low32 (v s))) (k s) := by
  obtain ⟨_, h2, h3⟩ := h
  simp only [hostFrom, h2, h3, Bool.false_eq_true, if_false]

/-- The service of a request that waits on one of its channels and that the firmware reads. -/
theorem serve_some {k : Fin 6} {chs : List Nat} {op : Nat} {body : Req → State → State} {s : State} {r : Req} (h : reqOf k s = some r)
    (hc : chs.contains k.val = true) (ho : r.op = op) (hn : r.note = false) (hr : reads k s = true) :
    serve k chs op body s = body r (takeMsg k s) := by
  simp [serve, h, List.contains_iff_mem.1 hc, ho, hn, hr]

/-- No register lies as high as the fields of the model's own. -/
theorem fieldReset_high (k : Nat) (h : 0x4000000 ≤ k / 64) : fieldReset k = 0 := by
  have w : windowRows (k / 64) = [] := by
    unfold windowRows
    split <;> first | rfl | omega
  simp only [fieldReset, rowReset, rowOf, w, List.find?_nil]
  rw [if_neg (by simp; omega), if_neg (by simp; omega)]

/-- The passing of a cycle leaves every register field but the counters that a write of that cycle has cleared (R36). -/
theorem rd_tick {s : State} (h : s.regsWf = true) (f : Fld) (hf : ownKey f.key = false) (hc : rd (clearedF f) s = 0) : rd f (tick s) = rd f s := by
  have hk : f.key / 64 < 0x2000000 := by simpa [ownKey] using hf
  simp only [rd, tick, cycleEnd]
  rw [SMap.get_foldl_set fieldReset (fun e : Nat × Nat => e.1 - 64 * 0x4000000) (fun _ => 0) _ _ (SMap.wf_forget _ _ _ h) _ (fun e he => ?_),
    SMap.get_forget fieldReset _ s.regs none h, if_neg (by simp; omega)]
  obtain ⟨hm, hp⟩ := List.mem_filter.1 he
  have hp : 0x4000000 ≤ e.1 / 64 := by simpa using hp
  obtain ⟨g1, g2, _⟩ := SMap.get_mem fieldReset s.regs none h e hm
  intro c
  have : (clearedF f).key = e.1 := by simp only [clearedF, Fld.key] at c ⊢; omega
  rw [rd, this, g1] at hc
  exact g2 (hc.trans (fieldReset_high _ hp).symm)

theorem tick_wf {s : State} (h : s.regsWf = true) : (tick s).regsWf = true := by
  have : ∀ (l : List (Nat × Nat)) (m : SMap Nat), SMap.wf fieldReset m = true →
      SMap.wf fieldReset (l.foldl (fun r e => SMap.set fieldReset r (e.1 - 64 * 0x4000000) 0) m) = true := fun l m w =>
    foldl_keeps (fun m => SMap.wf fieldReset m = true) (fun m e k => SMap.wf_set _ _ _ _ k) l w
  exact this _ _ (SMap.wf_forget _ _ _ h)

/-- A cycle without a command: what the block does in it is sound, before the clock advances and after. -/
theorem idle_sound (s : State) : ∃ u, Sound s u ∧ Sound (tick u) (idle s) :=
  ⟨_, stallCycle_sound (deadlineCycle_sound (faultCycle_sound (linkCycle_sound (initCycle_sound (ownCycle_sound (tornCycle_sound (createCycle_sound
    (switchCycle_sound (passCycle_sound (sbCycle_sound (fwCycle_sound (Sound.refl s)))))))))))), prefetchCycle_sound (evCycle_sound (Sound.refl _))⟩

theorem key_div (f : Fld) (h : f.lo < 64) : f.key / 64 = f.addr := by simp only [Fld.key]; omega

theorem evKey_of_addr (f : Fld) (h : f.lo < 64) (ha : evAddr f.addr = true) : evKey f.key = true := by
  simp only [evKey, key_div f h, ha, Bool.true_or]

theorem evKey_of_own {k : Nat} (h : ownKey k = true) : evKey k = true := by simp only [evKey, h, Bool.or_true]

/-- What the latching of events leaves: every field outside the event controller's, and every unit but the power state of a wake. -/
structure Heard (s t : State) : Prop where
  rest : t = { s with regs := t.regs, pw := t.pw }
  regs : s.regsWf = true → s.keptEv [] t
  wf : s.regsWf = true → t.regsWf = true

theorem Heard.refl (s : State) : Heard s s := ⟨rfl, fun _ _ _ _ => rfl, id⟩

theorem Heard.trans {s t u : State} (h : Heard s t) (k : Heard t u) : Heard s u :=
  ⟨by rw [k.rest, h.rest], fun w f e g => (k.regs (h.wf w) f e g).trans (h.regs w f e g), fun w => k.wf (h.wf w)⟩

theorem Heard.wr {s t : State} (f : Fld) (v : Nat) (hf : evKey f.key = true) (h : Heard s t) : Heard s (wr f v t) :=
  h.trans ⟨rfl, fun w g e _ => rd_wr_ne w _ _ _ (fun c => by rw [c, hf] at e; cases e), fun w => regsWf_wr w _ _⟩

theorem Heard.markBits {s t : State} (f : Fld) (m : Nat) (hf : evKey f.key = true) (h : Heard s t) : Heard s (markBits f m t) :=
  (h.wr f _ hf).wr _ _ (evKey_of_own (ownKey_freshF f))

theorem Heard.pw {s t : State} (p : PwSt) (h : Heard s t) : Heard s { t with pw := p } := h.trans ⟨rfl, fun _ _ _ _ => rfl, id⟩

theorem Heard.ite {s a b : State} {c : Prop} [Decidable c] (ha : Heard s a) (hb : Heard s b) : Heard s (if c then a else b) := by
  split <;> assumption

theorem Heard.each {α : Type} {s : State} (l : List α) {g : α → State → State} (hg : ∀ x ∈ l, ∀ u, Heard s u → Heard s (g x u)) {t : State}
    (h : Heard s t) : Heard s (each l g t) := by
  unfold Machine.each
  induction l generalizing t with
  | nil => exact h
  | cons x r ih => exact ih (fun y m => hg y (List.mem_cons_of_mem _ m)) (hg x List.mem_cons_self _ h)

theorem startRamp_heard {s t : State} (d : Nat) (h : Heard s t) : Heard s (startRamp d t) := by
  unfold startRamp
  exact .ite h (.ite (.pw _ h) (.pw _ h))

theorem powerOn_heard {s t : State} (d : Nat) (hd : d < 64) (h : Heard s t) : Heard s (powerOn d t) := by
  have h1 : Heard s (Machine.wr (PM_PWR_REQ.REQ d) 1 t) :=
    h.wr _ _ (evKey_of_addr _ hd (by decide : evAddr 0xb00004 = true))
  unfold powerOn
  exact .ite h1 (.ite (.pw _ h1) (startRamp_heard _ h1))

theorem wake_heard {s t : State} (c : Nat) (h : Heard s t) : Heard s (wake c t) := by
  unfold wake
  refine .ite h (.ite ?_ (.ite ?_ h))
  · split
    · exact h
    · exact .pw _ h
  · have h0 : ∀ u, Heard s u → Heard s (bootBegin u) := fun u k => by
      unfold bootBegin
      exact .pw _ (powerOn_heard _ (by decide) ((k.wr PM_SLEEP.STATE 3 (by decide)).wr GL_STATUS.LIFECYCLE 0 (by decide)))
    have h1 : ∀ (b : Prop) [Decidable b], Heard s (if b then { t with pw := { t.pw with merged := false } } else Machine.wr PM_RST_CAUSE.CAUSE c t) :=
      fun b _ => .ite (.pw _ h) (h.wr _ _ (by decide))
    exact h0 _ (((h1 _).pw _).wr _ _ (by decide))

theorem lanternRecord_heard {s t : State} (src : Nat) (h : Heard s t) : Heard s (lanternRecord src t) := by
  unfold lanternRecord
  refine .ite h (wake_heard _ ?_)
  have h1 := Heard.each (s := s) (watchers src t) (g := fun e u => Machine.wr (PM_LAN_HIT.ENTRIES e) 1 u) (fun e m u k => k.wr _ _ ?_) h
  · exact .ite h1 ((h1.wr _ _ (by decide)).wr _ _ (by decide))
  · have := (List.mem_filter.1 m).1
    have := List.mem_range.1 this
    exact evKey_of_addr _ (by simp only [PM_LAN_HIT.ENTRIES]; omega) (by decide : evAddr 0xb00814 = true)

theorem evWord (src : Nat) (h : src < 128) : src / 32 = 0 ∨ src / 32 = 1 ∨ src / 32 = 2 ∨ src / 32 = 3 := by omega

theorem pendF_evKey (b : Bool) (src : Nat) (h : src < 128) : evKey (pendF b src).key = true := by
  refine evKey_of_addr _ (by simp only [pendF, EV_PEND.PEND]; omega) ?_
  rcases evWord src h with k | k | k | k <;> cases b <;> simp only [pendF, EV_PEND.PEND, evBank, k] <;> decide

theorem rawF_evKey (src : Nat) (h : src < 128) : evKey (rawF src).key = true := by
  refine evKey_of_addr _ (by simp only [rawF, EV_RAW.RAW]; omega) ?_
  rcases evWord src h with k | k | k | k <;> simp only [rawF, EV_RAW.RAW, k] <;> decide

theorem latch_heard {s t : State} (src : Nat) (h : Heard s t) : Heard s (latch src t) := by
  unfold latch
  by_cases hr : evReserved src = true
  · rw [if_pos hr]; exact h
  · rw [if_neg hr]
    have hs : src < 128 := by
      simp only [evReserved, Bool.or_eq_true, not_or] at hr
      have := hr.2
      simp at this
      omega
    exact .ite ((lanternRecord_heard _ h).markBits _ _ (pendF_evKey _ _ hs)) (lanternRecord_heard _ h)

theorem raise_heard {s t : State} (src : Nat) (h : Heard s t) : Heard s (raise src t) := by
  unfold raise; exact .ite (latch_heard _ h) h

theorem settleOne_heard {s t : State} (src : Nat) (hs : src < 128) (h : Heard s t) : Heard s (settleOne src t) := by
  unfold settleOne
  have h1 : Heard s (wrB (rawF src) (sampled src t) t) := h.wr _ _ (rawF_evKey src hs)
  exact .ite (latch_heard _ h1) h1

/-- The sampling of the level sources changes the event controller's fields alone, and begins at most a wake. -/
theorem settle_heard {s t : State} (h : Heard s t) : Heard s (settle t) := by
  unfold settle
  refine Heard.each _ (fun x m u k => settleOne_heard x ?_ k) h
  have : ∀ y ∈ levelSources, y < 128 := by decide
  exact this x m

/-- What a message leaves: every field outside the mailboxes' and the event controller's, and every unit but these and the power state. -/
structure Told (s t : State) : Prop where
  rest : t = { s with regs := t.regs, pw := t.pw, mb := t.mb }
  regs : s.regsWf = true → s.keptMsg [] t
  wf : s.regsWf = true → t.regsWf = true

theorem Told.refl (s : State) : Told s s := ⟨rfl, fun _ _ _ _ => rfl, id⟩

theorem Told.trans {s t u : State} (h : Told s t) (k : Told t u) : Told s u :=
  ⟨by rw [k.rest, h.rest], fun w f e g => (k.regs (h.wf w) f e g).trans (h.regs w f e g), fun w => k.wf (h.wf w)⟩

theorem evKey_of_msgKey {k : Nat} (h : msgKey k = false) : evKey k = false := by
  simp only [msgKey, Bool.or_eq_false_iff] at h; exact h.1.1

theorem Heard.told {s t : State} (h : Heard s t) : Told s t :=
  ⟨by rw [h.rest], fun w f e g => h.regs w f (evKey_of_msgKey e) g, h.wf⟩

theorem Told.settle {s t : State} (h : Told s t) : Told s (settle t) := h.trans (settle_heard (Heard.refl t)).told

theorem Told.raise {s t : State} (n : Nat) (h : Told s t) : Told s (raise n t) := h.trans (raise_heard n (Heard.refl t)).told

theorem Told.wr {s t : State} (f : Fld) (v : Nat) (hf : msgKey f.key = true) (h : Told s t) : Told s (wr f v t) :=
  h.trans ⟨rfl, fun w g e _ => rd_wr_ne w _ _ _ (fun c => by rw [c, hf] at e; cases e), fun w => regsWf_wr w _ _⟩

theorem Told.markBits {s t : State} (f : Fld) (m : Nat) (hf : msgKey f.key = true) (h : Told s t) : Told s (markBits f m t) :=
  (h.wr f _ hf).wr _ _ (by simp only [msgKey, evKey_of_own (ownKey_freshF f), Bool.true_or])

theorem Told.mb {s t : State} (m : MbSt) (h : Told s t) : Told s { t with mb := m } := h.trans ⟨rfl, fun _ _ _ _ => rfl, id⟩

theorem Told.setChan {s t : State} (k : Fin 6) (c : MbChan) (h : Told s t) : Told s (setChan k c t) := h.mb _

theorem Told.ite {s a b : State} {c : Prop} [Decidable c] (ha : Told s a) (hb : Told s b) : Told s (if c then a else b) := by
  split <;> assumption

theorem msgKey_mb (k o b w : Nat) (ho : o < 0x1000) (hb : b < 64) : msgKey (Fld.key ⟨mbBase k + o, b, w⟩) = true := by
  have h : (mbBase k + o) / 0x100000 = 6 ∨ (mbBase k + o) / 0x100000 = 16 := by
    simp only [mbBase]; split
    · omega
    · split <;> omega
  have e : Fld.key ⟨mbBase k + o, b, w⟩ / 64 = mbBase k + o := key_div ⟨mbBase k + o, b, w⟩ hb
  simp only [msgKey, e]
  rcases h with h | h <;> simp [h]

theorem bellK24_told {s t : State} (k m : Nat) (h : Told s t) : Told s (bellK24 k m t) :=
  (h.markBits _ _ (msgKey_mb k 0x10 0 32 (by decide) (by decide))).settle

theorem bellHost_told {s t : State} (k m : Nat) (h : Told s t) : Told s (bellHost k m t) :=
  (h.markBits _ _ (msgKey_mb k 0x2c 0 32 (by decide) (by decide))).settle

theorem k2hPost_told {s t : State} (k : Fin 6) (w : List Nat) (h : Told s t) : Told s (k2hPost k w t) := bellHost_told _ _ (h.setChan _ _)

theorem postNotice_told {s t : State} (k : Fin 6) (w : List Nat) (h : Told s t) : Told s (postNotice k w t) := k2hPost_told _ _ (h.setChan _ _)

theorem queueNotice_told {s t : State} (k : Fin 6) (w : List Nat) (h : Told s t) : Told s (queueNotice k w t) := by
  unfold queueNotice
  exact .ite (h.setChan _ _) (.ite (.ite (h.setChan _ _) ((h.setChan _ _).mb _)) (h.setChan _ _))

theorem sendNotice_told {s t : State} (k : Fin 6) (w : List Nat) (h : Told s t) : Told s (sendNotice k w t) := by
  unfold sendNotice; exact .ite (postNotice_told _ _ h) (queueNotice_told _ _ h)

/-- A notice of the Coachman's firmware changes the mailboxes and the event controller alone. -/
theorem notice_told {s t : State} (c f x : Nat) (p : List Nat) (h : Told s t) : Told s (notice c f x p t) := by
  unfold notice; exact .ite h (.ite h (.ite h (sendNotice_told _ _ h)))

theorem sbNotice_told {s t : State} (c : Nat) (p : List Nat) (h : Told s t) : Told s (sbNotice c p t) := by
  unfold sbNotice; exact .ite (sendNotice_told _ _ h) h

/-- A response changes the mailboxes and the event controller alone. -/
theorem answer_told {s t : State} (k : Fin 6) (i : Bool) (o q c : Nat) (p : List Nat) (h : Told s t) : Told s (answer k i o q c p t) := by
  unfold answer; exact .ite (k2hPost_told _ _ h) (h.setChan _ _)

theorem reply_told {s t : State} (k : Fin 6) (r : Req) (c : Nat) (p : List Nat) (h : Told s t) : Told s (reply k r c p t) := answer_told _ _ _ _ _ _ h

theorem takeMsg_told {s t : State} (k : Fin 6) (h : Told s t) : Told s (takeMsg k t) := by
  unfold takeMsg
  exact bellHost_told _ _ ((h.setChan _ _).wr _ _ (msgKey_mb k 0x10 0 32 (by decide) (by decide)))

theorem endDeferred_told {s t : State} (d : Deferred) (c : Nat) (p : List Nat) (h : Told s t) : Told s (endDeferred d c p t) := by
  unfold endDeferred
  extract_lets m s1
  have h1 : Told s s1 := h.mb _
  clear_value s1
  split
  · exact answer_told _ _ _ _ _ _ h1
  · exact h1

theorem windowRows_lo (a : Nat) : ∀ r ∈ windowRows a, ∀ x ∈ r.fields, x.lo < 64 := by
  have h : ∀ l ∈ [regsGl, regsTt, regsCa, regsGg, regsMp, regsTl, regsMb, regsEv, regsSb, regsDg, regsOtp, regsPm, regsDbg, regsHidden],
      ∀ r ∈ l, ∀ x ∈ r.fields, x.lo < 64 := by decide
  unfold windowRows
  split <;> first | exact fun r hr => absurd hr List.not_mem_nil | exact h _ (by simp)

theorem rweField_lo {a lo : Nat} (h : rweField a lo = true) : lo < 64 := by
  unfold rweField at h
  split at h
  · cases h
  · rename_i r e
    obtain ⟨x, hx, k⟩ := List.any_eq_true.1 h
    simp only [Bool.and_eq_true, beq_iff_eq] at k
    rw [← k.1]
    exact windowRows_lo a r (List.mem_of_find?_eq_some e) x hx

/-- A value that is pending in no field but RW-E ones reaches no other when it takes effect (R14, R253). -/
theorem rd_rweApply {s : State} (rise : Bool) (f : Fld) (hw : s.regsWf = true) (hp : s.rweWf = true) (hl : f.lo < 64)
    (ha : rweField f.addr f.lo = false) : rd f (rweApply rise s) = rd f s := by
  unfold rweApply
  extract_lets due gone s1
  refine rd_each (s := s1) _ _ f (fun _ u => wr_sound _ _ (Sound.refl u)) (fun x u m w => ?_) hw
  have hx := List.all_eq_true.1 hp x (List.mem_filter.1 m).1
  have hx2 := rweField_lo hx
  refine rd_wr_ne w _ _ _ (fun e => ?_)
  simp only [Fld.key] at e
  have e1 : f.addr = x.addr := by omega
  have e2 : f.lo = x.lo := by omega
  rw [e1, e2, hx] at ha
  cases ha

end Sys2Proof.Machine
end

