-- ==== Sys2Proof/Laws/PerInstr.lean ====
section
/-! SUPPORT. A law of every command, by constructor: the offset that a well-formed host access names lies in the host window and is aligned (R31, R210). -/

namespace Sys2Proof.Laws.HostAddress

open Sys2Proof.Machine

/-- The offset of a host access lies in the window, on a word. -/
def Statement (i : Instr) : Prop := ∀ a sec, hostRow i = some (a, sec) → i.wf = true → a < 0x1000000 ∧ a % 4 = 0

theorem regWrite : ∀ x0 x1 x2, Statement (.regWrite x0 x1 x2) := by
  intro x0 x1 x2 a sec h w
  simp only [hostRow] at h
  split at h
  · cases h; simp [Instr.wf, pathAddr, hostAddr] at w; omega
  · cases h
theorem pairLoRead : ∀ x0 x1, Statement (.pairLoRead x0 x1) := by intro x0 x1 a sec h w; cases h; simpa [Instr.wf, hostAddr] using w
theorem pairLoWrite : ∀ x0 x1 x2, Statement (.pairLoWrite x0 x1 x2) := by
  intro x0 x1 x2 a sec h w
  simp only [hostRow] at h
  split at h
  · cases h; simp [Instr.wf, pathAddr, hostAddr] at w; omega
  · cases h
theorem hostAccessError : ∀ x0 x1 x2 x3, Statement (.hostAccessError x0 x1 x2 x3) := by intro x0 x1 x2 x3 a sec h; cases h
theorem glCntClrCfgRejects : Statement .glCntClrCfgRejects := by intro a sec h _; cases h; decide
theorem glCntClrHostErrs : Statement .glCntClrHostErrs := by intro a sec h _; cases h; decide
theorem encEdge : ∀ x0 x1, Statement (.encEdge x0 x1) := by intro x0 x1 a sec h; cases h
theorem stopTimeout : Statement .stopTimeout := by intro a sec h; cases h
theorem sheetMarkEdge : ∀ x0, Statement (.sheetMarkEdge x0) := by intro x0 a sec h; cases h
theorem markSynth : Statement .markSynth := by intro a sec h; cases h
theorem markFallback : Statement .markFallback := by intro a sec h; cases h
theorem epochOpen : Statement .epochOpen := by intro a sec h; cases h
theorem indexEdge : Statement .indexEdge := by intro a sec h; cases h
theorem indexLost : Statement .indexLost := by intro a sec h; cases h
theorem ttEnable : ∀ x0, Statement (.ttEnable x0) := by intro x0 a sec h _; cases h; omega
theorem ttDisable : Statement .ttDisable := by intro a sec h _; cases h; decide
theorem ttLoad : Statement .ttLoad := by intro a sec h _; cases h; decide
theorem ttClrFault : Statement .ttClrFault := by intro a sec h _; cases h; decide
theorem slotRelease : ∀ x0 x1, Statement (.slotRelease x0 x1) := by intro x0 x1 a sec h; cases h
theorem slotDeadline : ∀ x0, Statement (.slotDeadline x0) := by intro x0 a sec h; cases h
theorem slotSlice : ∀ x0, Statement (.slotSlice x0) := by intro x0 a sec h; cases h
theorem slotSignal : ∀ x0, Statement (.slotSignal x0) := by intro x0 a sec h; cases h
theorem slotNone : ∀ x0, Statement (.slotNone x0) := by intro x0 a sec h; cases h
theorem ttCntClrEncErr : Statement .ttCntClrEncErr := by intro a sec h _; cases h; decide
theorem ttCntClrMarkCnt : Statement .ttCntClrMarkCnt := by intro a sec h _; cases h; decide
theorem ttCntClrRowCnt : Statement .ttCntClrRowCnt := by intro a sec h _; cases h; decide
theorem ttCntClrDlMiss : Statement .ttCntClrDlMiss := by intro a sec h _; cases h; decide
theorem entryBegin : ∀ x0 x1, Statement (.entryBegin x0 x1) := by intro x0 x1 a sec h; cases h
theorem gigEntryBegin : ∀ x0, Statement (.gigEntryBegin x0) := by intro x0 a sec h; cases h
theorem gigSlotEnd : ∀ x0, Statement (.gigSlotEnd x0) := by intro x0 a sec h; cases h
theorem transferIssue : ∀ x0, Statement (.transferIssue x0) := by intro x0 a sec h; cases h
theorem syncWaitEnd : ∀ x0, Statement (.syncWaitEnd x0) := by intro x0 a sec h; cases h
theorem carriageRunEnd : ∀ x0 x1, Statement (.carriageRunEnd x0 x1) := by intro x0 x1 a sec h; cases h
theorem bankDrainEnd : ∀ x0 x1, Statement (.bankDrainEnd x0 x1) := by intro x0 x1 a sec h; cases h
theorem stageEnd : ∀ x0, Statement (.stageEnd x0) := by intro x0 a sec h; cases h
theorem caCntClrBusy : ∀ x0, Statement (.caCntClrBusy x0) := by intro x0 a sec h _; cases h; omega
theorem caCntClrStall : ∀ x0, Statement (.caCntClrStall x0) := by intro x0 a sec h _; cases h; omega
theorem caCntClrNumeric : ∀ x0, Statement (.caCntClrNumeric x0) := by intro x0 a sec h _; cases h; omega
theorem caCntClrEcc : ∀ x0, Statement (.caCntClrEcc x0) := by intro x0 a sec h _; cases h; omega
theorem ggCntClrBusy : Statement .ggCntClrBusy := by intro a sec h _; cases h; decide
theorem ggCntClrWait : Statement .ggCntClrWait := by intro a sec h _; cases h; decide
theorem ggCntClrNumeric : Statement .ggCntClrNumeric := by intro a sec h _; cases h; decide
theorem ggCntClrEcc : Statement .ggCntClrEcc := by intro a sec h _; cases h; decide
theorem gigEccIdle : Statement .gigEccIdle := by intro a sec h; cases h
theorem mpWindowEnd : Statement .mpWindowEnd := by intro a sec h; cases h
theorem mpReadResponse : ∀ x0 x1, Statement (.mpReadResponse x0 x1) := by intro x0 x1 a sec h; cases h
theorem mpWriteDone : ∀ x0 x1 x2, Statement (.mpWriteDone x0 x1 x2) := by intro x0 x1 x2 a sec h; cases h
theorem fenceComplete : ∀ x0, Statement (.fenceComplete x0) := by intro x0 a sec h; cases h
theorem fenceDrainTimeout : ∀ x0, Statement (.fenceDrainTimeout x0) := by intro x0 a sec h; cases h
theorem memHung : ∀ x0, Statement (.memHung x0) := by intro x0 a sec h; cases h
theorem mpErrInfoClear : Statement .mpErrInfoClear := by intro a sec h _; cases h; decide
theorem mpCntClrPorts : Statement .mpCntClrPorts := by intro a sec h _; cases h; decide
theorem mpCntClrBeats : Statement .mpCntClrBeats := by intro a sec h _; cases h; decide
theorem mpCntClrDrops : Statement .mpCntClrDrops := by intro a sec h _; cases h; decide
theorem mpCntClrRing : Statement .mpCntClrRing := by intro a sec h _; cases h; decide
theorem ledgerAbsorbRow : ∀ x0, Statement (.ledgerAbsorbRow x0) := by intro x0 a sec h; cases h
theorem preemptPointReached : ∀ x0, Statement (.preemptPointReached x0) := by intro x0 a sec h; cases h
theorem switchSaveDone : ∀ x0, Statement (.switchSaveDone x0) := by intro x0 a sec h; cases h
theorem switchRestoreDone : ∀ x0, Statement (.switchRestoreDone x0) := by intro x0 a sec h; cases h
theorem timeSliceExpire : ∀ x0, Statement (.timeSliceExpire x0) := by intro x0 a sec h; cases h
theorem scrubEnd : ∀ x0 x1, Statement (.scrubEnd x0 x1) := by intro x0 x1 a sec h; cases h
theorem retireTimerExpire : ∀ x0, Statement (.retireTimerExpire x0) := by intro x0 a sec h; cases h
theorem retireResend : ∀ x0, Statement (.retireResend x0) := by intro x0 a sec h; cases h
theorem glWbCntClr : ∀ x0, Statement (.glWbCntClr x0) := by intro x0 a sec h _; cases h; omega
theorem linkChannelChange : ∀ x0, Statement (.linkChannelChange x0) := by intro x0 a sec h; cases h
theorem linkBlockLock : ∀ x0, Statement (.linkBlockLock x0) := by intro x0 a sec h; cases h
theorem helloRepeat : ∀ x0, Statement (.helloRepeat x0) := by intro x0 a sec h; cases h
theorem helloRx : ∀ x0 x1, Statement (.helloRx x0 x1) := by intro x0 x1 a sec h; cases h
theorem linkTrainTimeout : ∀ x0, Statement (.linkTrainTimeout x0) := by intro x0 a sec h; cases h
theorem linkRetrainDelay : ∀ x0, Statement (.linkRetrainDelay x0) := by intro x0 a sec h; cases h
theorem linkLockLost : ∀ x0 x1, Statement (.linkLockLost x0 x1) := by intro x0 x1 a sec h; cases h
theorem discoverRx : ∀ x0 x1, Statement (.discoverRx x0 x1) := by intro x0 x1 a sec h; cases h
theorem chainTableRx : ∀ x0 x1, Statement (.chainTableRx x0 x1) := by intro x0 x1 a sec h; cases h
theorem noHead : Statement .noHead := by intro a sec h; cases h
theorem discoverReqRx : ∀ x0 x1, Statement (.discoverReqRx x0 x1) := by intro x0 x1 a sec h; cases h
theorem lineSyncRx : ∀ x0 x1, Statement (.lineSyncRx x0 x1) := by intro x0 x1 a sec h; cases h
theorem haloRx : ∀ x0 x1, Statement (.haloRx x0 x1) := by intro x0 x1 a sec h; cases h
theorem haloReqTimer : ∀ x0 x1 x2, Statement (.haloReqTimer x0 x1 x2) := by intro x0 x1 x2 a sec h; cases h
theorem haloReqRx : ∀ x0 x1, Statement (.haloReqRx x0 x1) := by intro x0 x1 a sec h; cases h
theorem summaryRx : ∀ x0 x1, Statement (.summaryRx x0 x1) := by intro x0 x1 a sec h; cases h
theorem summaryReqTimer : ∀ x0, Statement (.summaryReqTimer x0) := by intro x0 a sec h; cases h
theorem summaryReqRx : ∀ x0 x1, Statement (.summaryReqRx x0 x1) := by intro x0 x1 a sec h; cases h
theorem abortRx : ∀ x0 x1, Statement (.abortRx x0 x1) := by intro x0 x1 a sec h; cases h
theorem abortRepeat : Statement .abortRepeat := by intro a sec h; cases h
theorem contextRetireRx : ∀ x0 x1, Statement (.contextRetireRx x0 x1) := by intro x0 x1 a sec h; cases h
theorem retireAckRx : ∀ x0 x1, Statement (.retireAckRx x0 x1) := by intro x0 x1 a sec h; cases h
theorem bypassHoldMinLow : Statement .bypassHoldMinLow := by intro a sec h; cases h
theorem tlCntClrPorts : Statement .tlCntClrPorts := by intro a sec h _; cases h; decide
theorem tlCntClrAbort : Statement .tlCntClrAbort := by intro a sec h _; cases h; decide
theorem tlCntClrDrops : Statement .tlCntClrDrops := by intro a sec h _; cases h; decide
theorem tlCntClrHalo : Statement .tlCntClrHalo := by intro a sec h _; cases h; decide
theorem h2kDataWrite : ∀ x0 x1 x2, Statement (.h2kDataWrite x0 x1 x2) := by intro x0 x1 x2 a sec h; cases h
theorem h2kCommit : ∀ x0 x1, Statement (.h2kCommit x0 x1) := by intro x0 x1 a sec h; cases h
theorem h2kDiscard : ∀ x0 x1, Statement (.h2kDiscard x0 x1) := by intro x0 x1 a sec h; cases h
theorem h2kDbSet : ∀ x0 x1 x2, Statement (.h2kDbSet x0 x1 x2) := by intro x0 x1 x2 a sec h; cases h
theorem k2hDataRead : ∀ x0 x1, Statement (.k2hDataRead x0 x1) := by intro x0 x1 a sec h; cases h
theorem mbCntClrCnt : ∀ x0 x1, Statement (.mbCntClrCnt x0 x1) := by intro x0 x1 a sec h; cases h
theorem mbCntClrAbort : ∀ x0 x1, Statement (.mbCntClrAbort x0 x1) := by intro x0 x1 a sec h; cases h
theorem badOpcodeRequest : ∀ x0, Statement (.badOpcodeRequest x0) := by intro x0 a sec h; cases h
theorem deferredTimeout : ∀ x0 x1, Statement (.deferredTimeout x0 x1) := by intro x0 x1 a sec h; cases h
theorem noticeDequeue : ∀ x0, Statement (.noticeDequeue x0) := by intro x0 a sec h; cases h
theorem identify : ∀ x0, Statement (.identify x0) := by intro x0 a sec h; cases h
theorem setCmdRegion : ∀ x0, Statement (.setCmdRegion x0) := by intro x0 a sec h; cases h
theorem setNoticeRoute : ∀ x0, Statement (.setNoticeRoute x0) := by intro x0 a sec h; cases h
theorem getCounters : ∀ x0, Statement (.getCounters x0) := by intro x0 a sec h; cases h
theorem createContext : ∀ x0, Statement (.createContext x0) := by intro x0 a sec h; cases h
theorem destroyContext : ∀ x0, Statement (.destroyContext x0) := by intro x0 a sec h; cases h
theorem configContext : ∀ x0 x1, Statement (.configContext x0 x1) := by intro x0 x1 a sec h; cases h
theorem setEdge : ∀ x0, Statement (.setEdge x0) := by intro x0 a sec h; cases h
theorem setSlice : ∀ x0, Statement (.setSlice x0) := by intro x0 a sec h; cases h
theorem loadWaybill : ∀ x0 x1, Statement (.loadWaybill x0 x1) := by intro x0 x1 a sec h; cases h
theorem loadWaybillDone : ∀ x0, Statement (.loadWaybillDone x0) := by intro x0 a sec h; cases h
theorem loadWeights : ∀ x0, Statement (.loadWeights x0) := by intro x0 a sec h; cases h
theorem loadWeightsDone : ∀ x0 x1, Statement (.loadWeightsDone x0 x1) := by intro x0 x1 a sec h; cases h
theorem refPass : ∀ x0 x1, Statement (.refPass x0 x1) := by intro x0 x1 a sec h; cases h
theorem refPassDone : ∀ x0, Statement (.refPassDone x0) := by intro x0 a sec h; cases h
theorem startJob : ∀ x0, Statement (.startJob x0) := by intro x0 a sec h; cases h
theorem stopJob : ∀ x0, Statement (.stopJob x0) := by intro x0 a sec h; cases h
theorem stopJobDone : ∀ x0, Statement (.stopJobDone x0) := by intro x0 a sec h; cases h
theorem abortJob : ∀ x0, Statement (.abortJob x0) := by intro x0 a sec h; cases h
theorem abortFenceDone : ∀ x0, Statement (.abortFenceDone x0) := by intro x0 a sec h; cases h
theorem chainPosition : ∀ x0, Statement (.chainPosition x0) := by intro x0 a sec h; cases h
theorem chainJoin : ∀ x0, Statement (.chainJoin x0) := by intro x0 a sec h; cases h
theorem chainLeave : ∀ x0, Statement (.chainLeave x0) := by intro x0 a sec h; cases h
theorem bounceSetup : ∀ x0, Statement (.bounceSetup x0) := by intro x0 a sec h; cases h
theorem bounceIn : ∀ x0, Statement (.bounceIn x0) := by intro x0 a sec h; cases h
theorem bounceInDone : ∀ x0 x1, Statement (.bounceInDone x0 x1) := by intro x0 x1 a sec h; cases h
theorem eventLatch : ∀ x0, Statement (.eventLatch x0) := by intro x0 a sec h; cases h
theorem evClaim : ∀ x0 x1, Statement (.evClaim x0 x1) := by intro x0 x1 a sec h; cases h
theorem evEoi : ∀ x0 x1 x2, Statement (.evEoi x0 x1 x2) := by intro x0 x1 x2 a sec h; cases h
theorem evDiscard : ∀ x0 x1, Statement (.evDiscard x0 x1) := by intro x0 x1 a sec h _; cases h; cases x0 <;> simp [evBank] <;> omega
theorem evPendWrite : ∀ x0 x1 x2, Statement (.evPendWrite x0 x1 x2) := by intro x0 x1 x2 a sec h _; cases h; cases x0 <;> simp [evBank] <;> omega
theorem holdoffExpire : ∀ x0 x1, Statement (.holdoffExpire x0 x1) := by intro x0 x1 a sec h; cases h
theorem evCntClrSpurious : Statement .evCntClrSpurious := by intro a sec h _; cases h; decide
theorem aonSenseEdge : ∀ x0 x1, Statement (.aonSenseEdge x0 x1) := by intro x0 x1 a sec h; cases h
theorem lanternHit : ∀ x0, Statement (.lanternHit x0) := by intro x0 a sec h; cases h
theorem lanternArm : ∀ x0, Statement (.lanternArm x0) := by intro x0 a sec h _; cases h; omega
theorem powerGoodRise : ∀ x0, Statement (.powerGoodRise x0) := by intro x0 a sec h; cases h
theorem powerGoodFall : Statement .powerGoodFall := by intro a sec h; cases h
theorem bootStepDone : ∀ x0, Statement (.bootStepDone x0) := by intro x0 a sec h; cases h
theorem sbIdentify : ∀ x0, Statement (.sbIdentify x0) := by intro x0 a sec h; cases h
theorem sbChallenge : ∀ x0, Statement (.sbChallenge x0) := by intro x0 a sec h; cases h
theorem lcAdvance : ∀ x0 x1 x2, Statement (.lcAdvance x0 x1 x2) := by intro x0 x1 x2 a sec h; cases h
theorem debugUnlock : ∀ x0 x1, Statement (.debugUnlock x0 x1) := by intro x0 x1 a sec h; cases h
theorem sbAttest : ∀ x0 x1, Statement (.sbAttest x0 x1) := by intro x0 x1 a sec h; cases h
theorem keyUpdate : ∀ x0 x1 x2, Statement (.keyUpdate x0 x1 x2) := by intro x0 x1 x2 a sec h; cases h
theorem keyLoad : ∀ x0 x1, Statement (.keyLoad x0 x1) := by intro x0 x1 a sec h; cases h
theorem bounceKey : ∀ x0, Statement (.bounceKey x0) := by intro x0 a sec h; cases h
theorem reinClaim : ∀ x0 x1, Statement (.reinClaim x0 x1) := by intro x0 x1 a sec h; cases h
theorem reinRelease : ∀ x0 x1, Statement (.reinRelease x0 x1) := by intro x0 x1 a sec h; cases h
theorem heartbeatSend : Statement .heartbeatSend := by intro a sec h; cases h
theorem heartbeatAnswer : ∀ x0, Statement (.heartbeatAnswer x0) := by intro x0 a sec h; cases h
theorem heartbeatMiss : Statement .heartbeatMiss := by intro a sec h; cases h
theorem dgClaim : ∀ x0, Statement (.dgClaim x0) := by intro x0 a sec h; cases h
theorem dgRelease : ∀ x0, Statement (.dgRelease x0) := by intro x0 a sec h; cases h
theorem dgStart : ∀ x0, Statement (.dgStart x0) := by intro x0 a sec h; cases h
theorem dgAbort : ∀ x0, Statement (.dgAbort x0) := by intro x0 a sec h; cases h
theorem dgMemGo : ∀ x0, Statement (.dgMemGo x0) := by intro x0 a sec h; cases h
theorem dgDataWrite : ∀ x0 x1, Statement (.dgDataWrite x0 x1) := by intro x0 x1 a sec h; cases h
theorem dgLastWrite : ∀ x0 x1, Statement (.dgLastWrite x0 x1) := by intro x0 x1 a sec h; cases h
theorem dgResultRead : ∀ x0 x1, Statement (.dgResultRead x0 x1) := by intro x0 x1 a sec h; cases h
theorem dgChunkDone : ∀ x0 x1, Statement (.dgChunkDone x0 x1) := by intro x0 x1 a sec h; cases h
theorem dgDone : Statement .dgDone := by intro a sec h; cases h
theorem dgExpire : Statement .dgExpire := by intro a sec h; cases h
theorem dgCntClr : ∀ x0, Statement (.dgCntClr x0) := by intro x0 a sec h; cases h
theorem otpProgWord : Statement .otpProgWord := by intro a sec h; cases h
theorem otpProgLock : Statement .otpProgLock := by intro a sec h; cases h
theorem otpProgDone : ∀ x0, Statement (.otpProgDone x0) := by intro x0 a sec h; cases h
theorem svcHello : ∀ x0, Statement (.svcHello x0) := by intro x0 a sec h; cases h
theorem svcBegin : ∀ x0, Statement (.svcBegin x0) := by intro x0 a sec h; cases h
theorem svcData : ∀ x0, Statement (.svcData x0) := by intro x0 a sec h; cases h
theorem svcEnd : ∀ x0, Statement (.svcEnd x0) := by intro x0 a sec h; cases h
theorem svcStatus : ∀ x0, Statement (.svcStatus x0) := by intro x0 a sec h; cases h
theorem svcDiscard : ∀ x0, Statement (.svcDiscard x0) := by intro x0 a sec h; cases h
theorem svcActivate : ∀ x0, Statement (.svcActivate x0) := by intro x0 a sec h; cases h
theorem svcBadOp : ∀ x0, Statement (.svcBadOp x0) := by intro x0 a sec h; cases h
theorem svcRead : Statement .svcRead := by intro a sec h; cases h
theorem svcResponseReady : Statement .svcResponseReady := by intro a sec h; cases h
theorem svcSessionTimeout : Statement .svcSessionTimeout := by intro a sec h; cases h
theorem updateStatus : ∀ x0, Statement (.updateStatus x0) := by intro x0 a sec h; cases h
theorem activate : ∀ x0, Statement (.activate x0) := by intro x0 a sec h; cases h
theorem activateComplete : Statement .activateComplete := by intro a sec h; cases h
theorem confirmHealth : ∀ x0, Statement (.confirmHealth x0) := by intro x0 a sec h; cases h
theorem updateLock : ∀ x0, Statement (.updateLock x0) := by intro x0 a sec h; cases h
theorem healthDue : ∀ x0, Statement (.healthDue x0) := by intro x0 a sec h; cases h
theorem healthExpired : ∀ x0, Statement (.healthExpired x0) := by intro x0 a sec h; cases h
theorem coachHang : ∀ x0, Statement (.coachHang x0) := by intro x0 a sec h; cases h
theorem gigHang : Statement .gigHang := by intro a sec h; cases h
theorem cmWdog : Statement .cmWdog := by intro a sec h; cases h
theorem cmHang : Statement .cmHang := by intro a sec h; cases h
theorem sbWdog : Statement .sbWdog := by intro a sec h; cases h
theorem sbClock : Statement .sbClock := by intro a sec h; cases h
theorem coachResetDone : ∀ x0, Statement (.coachResetDone x0) := by intro x0 a sec h; cases h
theorem coachResetHang : ∀ x0, Statement (.coachResetHang x0) := by intro x0 a sec h; cases h
theorem partResetDone : ∀ x0, Statement (.partResetDone x0) := by intro x0 a sec h; cases h
theorem partResetHang : ∀ x0, Statement (.partResetHang x0) := by intro x0 a sec h; cases h
theorem gigResetHang : Statement .gigResetHang := by intro a sec h; cases h
theorem seqTimeout : Statement .seqTimeout := by intro a sec h; cases h
theorem replayEnd : Statement .replayEnd := by intro a sec h; cases h
theorem securityResetFallback : Statement .securityResetFallback := by intro a sec h; cases h
theorem blockDrainDone : Statement .blockDrainDone := by intro a sec h; cases h
theorem dumpDone : ∀ x0, Statement (.dumpDone x0) := by intro x0 a sec h; cases h
theorem dumpTimeout : ∀ x0, Statement (.dumpTimeout x0) := by intro x0 a sec h; cases h
theorem dumpTrailerDone : ∀ x0, Statement (.dumpTrailerDone x0) := by intro x0 a sec h; cases h
theorem fltResetsDecay : Statement .fltResetsDecay := by intro a sec h; cases h
theorem pwrReq : ∀ x0 x1 x2, Statement (.pwrReq x0 x1 x2) := by intro x0 x1 x2 a sec h; cases h
theorem pwrRampDone : ∀ x0, Statement (.pwrRampDone x0) := by intro x0 a sec h; cases h
theorem pwrOff : ∀ x0, Statement (.pwrOff x0) := by intro x0 a sec h; cases h
theorem blockResetDomainsOff : Statement .blockResetDomainsOff := by intro a sec h; cases h
theorem pmSleepDeep : Statement .pmSleepDeep := by intro a sec h; cases h
theorem sleepEntryStep : Statement .sleepEntryStep := by intro a sec h; cases h
theorem pmWake : Statement .pmWake := by intro a sec h; cases h
theorem pmReset : ∀ x0, Statement (.pmReset x0) := by intro x0 a sec h; cases h
theorem clockMonitorWindow : ∀ x0 x1, Statement (.clockMonitorWindow x0 x1) := by intro x0 x1 a sec h; cases h
theorem thermalSample : ∀ x0, Statement (.thermalSample x0) := by intro x0 a sec h; cases h
theorem thermalLevelFall : Statement .thermalLevelFall := by intro a sec h; cases h
theorem thermalTrip : Statement .thermalTrip := by intro a sec h; cases h
theorem thermalTripClear : Statement .thermalTripClear := by intro a sec h; cases h
theorem pmThermCfgWrite : ∀ x0, Statement (.pmThermCfgWrite x0) := by intro x0 a sec h _; cases h; omega
theorem supplyLowEdge : ∀ x0, Statement (.supplyLowEdge x0) := by intro x0 a sec h; cases h
theorem dbgCtrlWrite : ∀ x0 x1, Statement (.dbgCtrlWrite x0 x1) := by intro x0 x1 a sec h; cases h
theorem tmuxEnFall : Statement .tmuxEnFall := by intro a sec h; cases h
theorem tapBypass : ∀ x0, Statement (.tapBypass x0) := by intro x0 a sec h; cases h
theorem tapScanSel : Statement .tapScanSel := by intro a sec h; cases h
theorem tapMbistRun : Statement .tapMbistRun := by intro a sec h; cases h
theorem tapMbistResult : Statement .tapMbistResult := by intro a sec h; cases h
theorem mbistDone : ∀ x0, Statement (.mbistDone x0) := by intro x0 a sec h; cases h
theorem frameErr : ∀ x0 x1 x2, Statement (.frameErr x0 x1 x2) := by intro x0 x1 x2 a sec h; cases h
theorem mpBeatAccepted : ∀ x0, Statement (.mpBeatAccepted x0) := by intro x0 a sec h; cases h
theorem sbEcc : Statement .sbEcc := by intro a sec h; cases h
theorem svcFrameError : ∀ x0, Statement (.svcFrameError x0) := by intro x0 a sec h; cases h
theorem tmuxEnRise : Statement .tmuxEnRise := by intro a sec h; cases h
theorem tapTestLogicReset : Statement .tapTestLogicReset := by intro a sec h; cases h
theorem gigPageScrubEnd : ∀ x0, Statement (.gigPageScrubEnd x0) := by intro x0 a sec h; cases h
theorem replayRowRelease : ∀ x0, Statement (.replayRowRelease x0) := by intro x0 a sec h; cases h

end Sys2Proof.Laws.HostAddress
end

