-- ==== Sys2Proof/Machine/Trace.lean ====
section
/-! DEFINITION. What the TRACE pins carry at an update (R546 to R549). Bits that mark an event show its OR over a sample period, which the
state does not keep: they are free values, as are the levels of signals that no rule defines further (log 29). -/

namespace Sys2Proof.Machine

/-- A Bool at a bit of a trace word. -/
def atBit (i : Nat) (b : Bool) : Nat := b2n b * 2 ^ i

/-- The bits of a group that show levels, and a mask of those that it leaves open (R547). -/
def traceGroup (g : Nat) (s : State) : Nat × Nat :=
  let run (c : Coach) : Option RunSt := (co c s).run
  let c : Coach := ⟨g / 2 % 16, by omega⟩
  if g < 32 && g % 2 == 0 then
    (coachState c s + 2 ^ 3 * coachCtxId c s + atBit 8 (waitsNow c s) + atBit 9 (match run c with | some r => r.stalled | none => false) +
      2 ^ 11 * (match run c with | some r => r.stage % 32 | none => 0), 2 ^ 7 + 2 ^ 10)
  else if g < 32 then
    let bank (b : Nat) : Bool := match run c with | some r => r.drains.any (fun d => d.2.1 == b) | none => false
    (atBit 8 (256 ≤ queued c true s) + atBit 11 (bank 0) + atBit 12 (bank 1), 0x3F + 2 ^ 6 + 2 ^ 7 + 2 ^ 9 + 2 ^ 10)
  else match g with
  | 32 => (rd GG_STATUS.STATE s + 2 ^ 3 * rd GG_STATUS.CTX s + 2 ^ 7 * rd GG_STATUS.COACH s + atBit 11 s.gig.run.isSome, 2 ^ 12)
  | 33 => (atBit 2 (gigPasses s), 0xFFFB)
  | 34 => (ttState s + atBit 5 s.tt.encA + atBit 6 s.tt.encB + atBit 8 s.tt.mark, 2 ^ 3 + 2 ^ 4 + 2 ^ 7 + 2 ^ 9 + 2 ^ 10 + 2 ^ 11 + 2 ^ 12)
  | 35 => (ttLine s % 2 ^ 16, 0)
  | 36 => (0, 0x7FFF)
  | 45 => (portState 0 s, 0x7F8)
  | 46 => (portState 1 s, 0x7F8)
  | 47 => (0, 0xFFFF)
  | 48 => (((List.range 6).map (fun k => atBit k (level k s))).sum + ((List.range 5).map (fun k => atBit (6 + k) (level (8 + k) s))).sum, 0)
  | 49 =>
    ((claimable .coachman false s).getD 0 + atBit 7 (evLine .coachman false s) + 2 ^ 8 * (claimable .coachman true s).getD 0 +
      atBit 15 (evLine .coachman true s), 0)
  | 50 => (0, 0xFFFF)
  | 51 =>
    ((s.pw.ramps.head?.map (·.1)).getD 0 + atBit 5 (!s.pw.ramps.isEmpty) + atBit 6 s.pw.reset.isSome + atBit 7 s.pins.hold + atBit 8 (!s.pins.alarmN) +
      atBit 9 (rd PM_SLEEP.STATE s == 1) + atBit 10 (rd PM_SLEEP.STATE s == 3), 0)
  | 52 => (rd PM_CLK_STATUS.ARITH_OK s + 2 * rd PM_CLK_STATUS.FAB_OK s, 0)
  | 53 => (rd PM_THERM_STATUS.TEMP s % 2 ^ 12 + 2 ^ 12 * rd PM_THERM_STATUS.LEVEL s + atBit 14 (rdB PM_THERM_STATUS.TRIP s), 2 ^ 15)
  | 63 => (0, 0xFFFF)
  | _ => if 37 ≤ g && g < 45 then (0, 0xFFFF) else (0, 0)

/-- TRACE[15:0] at an update (R546 to R549): low unless the trace is active, and for one sample period after its group was written. -/
def tracePins (s : State) : Nat :=
  if !traceOn s || s.now < s.tap.quiet then 0
  else
    let w := traceGroup (rd DBG_CTRL.GROUP s) s
    w.1 ||| (Config.free s.freeN &&& w.2)

end Sys2Proof.Machine
end

