-- ==== Sys2Proof/Tests/Slice0.lean ====
section
/-! SUPPORT. Our own tests: states for the witnesses, the standards' published vectors, one ill-formed command for each check of
WellFormed, and for each clause of a statement that has hypotheses a state and operands that meet them together. -/

namespace Sys2Proof.Tests

open Sys2Proof.Machine

set_option maxRecDepth 100000
set_option Elab.async false

/-- The state that a command leaves. -/
def nextOf (o : Host.Outcome State Fault Refusal) : State := match o with | .next t => t | _ => State.reset
def isNext (o : Host.Outcome State Fault Refusal) : Bool := match o with | .next _ => true | _ => false
theorem next_of {o : Host.Outcome State Fault Refusal} (h : isNext o = true) : o = .next (nextOf o) := by
  cases o with
  | next t => rfl
  | fault f => simp [isNext] at h
  | refused r => simp [isNext] at h
/-- An answer and an error as options, which can be compared. -/
def okOf {ε α : Type} (x : Except ε α) : Option α := match x with | .ok a => some a | .error _ => none
def errOf {ε α : Type} (x : Except ε α) : Option ε := match x with | .ok _ => none | .error e => some e
theorem ok_of {ε α : Type} {x : Except ε α} {a : α} (h : okOf x = some a) : x = .ok a := by
  cases x with
  | ok b => simp only [okOf, Option.some.injEq] at h; rw [h]
  | error e => simp [okOf] at h
theorem err_of {ε α : Type} {x : Except ε α} {e : ε} (h : errOf x = some e) : x = .error e := by
  cases x with
  | ok b => simp [errOf] at h
  | error e => simp only [errOf, Option.some.injEq] at h; rw [h]

/-- A block that is READY, in FIELD: every domain is on, and the peers of the channels are READY. -/
def up : State := wrs
  ((List.range 24).map (fun d => (PM_PWR_STATUS.ON d, 1)) ++ (List.range 6).map (fun k => (MB.H2K_STATUS.PEER k, 0)) ++
    [(GL_STATUS.LIFECYCLE, 7), (GL_STATUS.SB_READY, 1), (GL_STATUS.CM_RELEASED, 1), (GL_STATUS.CMD_READY, 1), (SB_STATUS.LIFECYCLE, 7), (SB_STATUS.STAGE, 10),
      (MP_STATUS.KEYS_READY, 1), (MP_STATUS.PORT_UP, 255), (PM_SLEEP.STATE, 0), (SB_REINS.HOLDERS 2, 1)])
  { State.reset with now := 10 ^ 12, pins := { State.reset.pins with pwrGood := true }, pw := { State.reset.pw with bootStep := 0, gateAt := 10 ^ 12 - 10 ^ 6 } }

/-- The Timetable runs, at a line. -/
def run : State :=
  wrs [(TT_CTRL.ENABLE, 1), (TT_STATUS.STATE, 1), (TT_LINE.LINE, 5000), (TT_RATE.LPS, 1000)] { up with tt := { up.tt with stillAt := none } }

/-- A released row of a job. -/
def row (r : Nat) : RowSt := ⟨r, 999999999000, 0, 1, r, false, false, [], true, false, 0, [], [], [], false, false, false⟩
/-- A job that has released rows 0 to 2. -/
def job : JobSt := ⟨4000, 0, false, true, 0, 4, 3, 2, none, 0, [row 2]⟩
/-- Context 1 in a state on coach 0, with its waybill's image. -/
def ctxUp (st : Nat) (img : List Byte) (s : State) : State :=
  modCx 0 (fun c => { c with order := 1, image := img })
    (wrs [(GL_CTX_STATUS.STATE 1, st), (GL_CTX_STATUS.RESIDENT 1, 1), (GL_CTX_STATUS.PARTITION 1, 1), (GL_COACH_OWN0.COACH 0, 1), (CA_STATUS.CTX 0, 1)] s)
/-- An image or a configuration whose words are zero but for those of a list. -/
def words (ps : List (Nat × Nat)) (n : Nat) : List Byte := (List.range n).flatMap (fun i => leBytes 4 ((ps.lookup i).getD 0))
/-- A waybill's image: one coach, one stage of a kind with 1000 cycles, one entry at cycle 10 of each row, and one Gig slot of 500 cycles. -/
def img (kind : Nat) (ps : List (Nat × Nat)) : List Byte :=
  words (ps ++ [(4, 0x10101), (16, 160), (17, 64), (18, 288), (19, 48), (20, 384), (21, 16), (72, 304), (73, 1), (77, 10), (98, 500),
    (40, kind * 256), (41, 1000), (42, 8), (104, 0x1100401), (105, 0x2001), (106, 1), (107, 448)]) 128
/-- Context 1 runs a job. -/
def busy : State := modCx 0 (fun c => { c with job := some job }) (ctxUp 3 [] run)
/-- Slot 2 is due with an action of context 1. -/
def due (act arg : Nat) (s : State) : State :=
  wrs [(TT_SLOT_TGT.LINE 2, 4990), (TT_SLOT_ACT.ARMED 2, 1), (TT_SLOT_ACT.ACTION 2, act), (TT_SLOT_ACT.CTX 2, 1), (TT_SLOT_ACT.ARG 2, arg)] s

/-- Context 1 runs a job of a waybill. -/
def works (im : List Byte) : State := wrs [(CA_STATUS.STATE 0, 1)] (modCx 0 (fun c => { c with image := im }) busy)
/-- An entry that has run for 1000 cycles. -/
def entry : RunSt := {
  ctx := 0, index := 0, entry := 0, stage := 0, row := 2, col := 0, slot := 0, planned := 1499000, beginAt := 1499000, waits := 0, sync := 0, admitted := 0,
  runIdx := 0, runAt := 0, stalled := false, drains := [], drainAt := 0, satSeen := false, nanSeen := false, fullAt := none, stop := none }
/-- Coach 0 runs an entry. -/
def runs (r : RunSt) (im : List Byte) : State := wrs [(CA_STATUS.STATE 0, 2)] (modCo 0 (fun x => { x with run := some r, begun := true }) (works im))
/-- A transfer of coach 0. -/
def xfer (w : Bool) (k : Nat) : Xfer := ⟨w, 6, 3, 1, 2, 0, 0, 0, 0, [], k, 0, 0, 0, 0, 8, none⟩

/-- Coach 0 has a transfer of three beats to issue. -/
def burst (w : Bool) : State := modCo 0 (fun x => { x with winLeft := 8, xfers := [xfer w 3] }) (wr (MP_KEY_STATE.SLOT 0) 1 (works []))
/-- A vector with one place set. -/
def put {α : Type} {n : Nat} (v : Vector α n) (i : Fin n) (x : α) : Vector α n := v.set i x

/-- Context 2 is another member of context 1's slice group, and runs a job too. -/
def shared (s : State) : State :=
  modCx 1 (fun c => { c with order := 2, image := (cx 0 s).image, job := some job }) (wrs [(GL_CTX_STATUS.STATE 2, 3), (GL_CTX_STATUS.PARTITION 2, 1)] s)
/-- Context 1 leaves its coach for context 2. -/
def leaves : State := modCx 0 (fun c => { c with switchTo := some 1, switchE := some 0, moving := 1 }) (shared (works (img 1 [])))
/-- A transaction of context 1 on port 3, and one that has an owner. -/
def tx (w : Bool) (d : Dest) : Tx := ⟨3, 9, w, 1, 6, 0x4000, 4, 2, 1, d, 0, 2, 0, 999999999000, false, false, 0, []⟩
/-- Transactions are outstanding. -/
def withTx (l : List Tx) (s : State) : State := { s with mp := { s.mp with txs := l } }

/-- A block of a chain at position 1, with both ports UP. -/
def chained : State :=
  wrs [(TL_STATUS.UP_STATE, 2), (TL_STATUS.DN_STATE, 2), (TL_STATUS.CHAIN, 2)] { run with
    pins := { run.pins with tandem := true, pos := 1 }, sb := { run.sb with linkKey := List.replicate 32 1 }
    tl := { run.tl with linkKey := List.replicate 32 1, session := List.replicate 32 2, table := [(0, 5), (1, 6), (2, 7)] } }
/-- The initialisation vector and the header of a frame of a type from position 2, with count 1, to every block. -/
def fIv (type : Nat) : List Byte := leBytes 4 (2 + (if 32 ≤ type then 64 else 0)) ++ leBytes 8 1
def fHead (type ctx arg n : Nat) : List Byte := frameHeader type 2 0 true 1 ctx n arg (fIv type)
/-- Such a frame, with a payload of n bytes; and one with another tag. -/
def frame (key : List Byte) (type ctx arg n : Nat) (m : List Byte) : LinkFrame := sealFrame key (fHead type ctx arg n) (fIv type) m
def badFrame (key : List Byte) (type ctx arg n : Nat) (m : List Byte) : LinkFrame :=
  let g := frame key type ctx arg n m
  let tag := g.tag.map (fun b => b ^^^ 1)
  ⟨g.header, g.payload, tag, (crc32 (g.header ++ g.payload ++ tag)).toNat⟩
/-- A header and a payload's length suit a port and a type. -/
def suits (p : LinkPort) (type ctx arg n : Nat) (s : State) : Bool :=
  decide (linkOn s = true ∧ portState p s = (if type = 1 then 1 else 2) ∧ frType ⟨fHead type ctx arg n, [], [], 0⟩ = type ∧
    frLen ⟨fHead type ctx arg n, [], [], 0⟩ = n ∧ (fHead type ctx arg n).length = 32 ∧ type ≠ 0 ∧
    (match type with
    | 0x00 => n == 0
    | 0x01 => n == 32
    | 0x02 => 24 ≤ n && n ≤ 528 && n % 8 == 0
    | 0x03 => 24 ≤ n && n ≤ 528 && n % 8 == 0
    | 0x08 => 16 ≤ n && n ≤ 64 && n % 16 == 0
    | 0x10 => n == 13824
    | 0x11 => 32 ≤ n && n ≤ 4096 && n % 16 == 0
    | 0x20 => n == 32
    | 0x21 => n == 16
    | 0x22 => n == 16
    | _ => false) = true)

theorem len_ok {p : LinkPort} {type ctx arg n : Nat} {s : State} (x tag : List Byte) (c : Nat) (h : suits p type ctx arg n s = true) (hx : x.length = n)
    (ht : tag.length = 16) : linkOn s = true ∧ frType ⟨fHead type ctx arg n, x, tag, c⟩ = type ∧ portState p s = (if type = 0x01 then 1 else 2) ∧
      frLenOk ⟨fHead type ctx arg n, x, tag, c⟩ = true := by
  have ok := of_decide_eq_true h
  have ty : frType ⟨fHead type ctx arg n, x, tag, c⟩ = type := ok.2.2.1
  have ln : frLen ⟨fHead type ctx arg n, x, tag, c⟩ = n := ok.2.2.2.1
  refine ⟨ok.1, ty, ok.2.1, ?_⟩
  have t16 : (if type == 0 then 0 else 16) = 16 := if_neg (by simpa using ok.2.2.2.2.2.1)
  unfold frLenOk
  rw [ln, ty]
  simp only [hx, ht, ok.2.2.2.2.1, t16, beq_self_eq_true, Bool.true_and]
  exact ok.2.2.2.2.2.2

theorem frame_eq (key : List Byte) (type ctx arg n : Nat) (m : List Byte) : frame key type ctx arg n m = ⟨fHead type ctx arg n, gcmCrypt key (fIv type) m,
    gcmTag key (fIv type) (fHead type ctx arg n) (gcmCrypt key (fIv type) m),
    (crc32 (fHead type ctx arg n ++ gcmCrypt key (fIv type) m ++ gcmTag key (fIv type) (fHead type ctx arg n) (gcmCrypt key (fIv type) m))).toNat⟩ := by
  unfold frame sealFrame; rfl

theorem bad_eq (key : List Byte) (type ctx arg n : Nat) (m : List Byte) : badFrame key type ctx arg n m = ⟨fHead type ctx arg n, gcmCrypt key (fIv type) m,
    (gcmTag key (fIv type) (fHead type ctx arg n) (gcmCrypt key (fIv type) m)).map (fun b => b ^^^ 1), (badFrame key type ctx arg n m).crc⟩ := by
  unfold badFrame; rw [frame_eq]

theorem frame_takes {key : List Byte} {p : LinkPort} {type ctx arg n : Nat} {m : List Byte} {s : State} (h : suits p type ctx arg n s = true) (hm : m.length = n) :
    s.takes p type (frame key type ctx arg n m) := by
  have c : frCrcOk (frame key type ctx arg n m) = true := Laws.frCrcOk_sealFrame _ _ _ _
  rw [frame_eq] at c ⊢
  obtain ⟨h1, h2, h3, h4⟩ := len_ok (gcmCrypt key (fIv type) m) (gcmTag key (fIv type) (fHead type ctx arg n) (gcmCrypt key (fIv type) m))
    (crc32 (fHead type ctx arg n ++ gcmCrypt key (fIv type) m ++ gcmTag key (fIv type) (fHead type ctx arg n) (gcmCrypt key (fIv type) m))).toNat h ((Laws.gcmCrypt_length key (fIv type) m).trans hm) (Laws.gcmTag_length _ _ _ _)
  exact ⟨h1, h2, h3, h4, c⟩

theorem bad_takes {key : List Byte} {p : LinkPort} {type ctx arg n : Nat} {m : List Byte} {s : State} (h : suits p type ctx arg n s = true) (hm : m.length = n) :
    s.takes p type (badFrame key type ctx arg n m) := by
  have c : frCrcOk (badFrame key type ctx arg n m) = true := by unfold frCrcOk badFrame; simp only [beq_self_eq_true]
  rw [bad_eq] at c ⊢
  obtain ⟨h1, h2, h3, h4⟩ := len_ok (gcmCrypt key (fIv type) m) ((gcmTag key (fIv type) (fHead type ctx arg n) (gcmCrypt key (fIv type) m)).map (fun b => b ^^^ 1))
    (badFrame key type ctx arg n m).crc h ((Laws.gcmCrypt_length key (fIv type) m).trans hm) ((List.length_map _).trans (Laws.gcmTag_length _ _ _ _))
  exact ⟨h1, h2, h3, h4, c⟩

/-- The key of HELLO is the link key's. -/
theorem hello_of {s t : State} (h : s.tl.linkKey = t.tl.linkKey) : helloKey s = helloKey t := by unfold helloKey; rw [h]

theorem frame_plain {key k : List Byte} {type ctx arg n : Nat} {m : List Byte} (e : k = key) (h : slice (fHead type ctx arg n) 16 12 = fIv type) :
    frPlain (frame key type ctx arg n m) k = some m := by rw [e]; exact Laws.frPlain_sealFrame _ _ _ _ h

theorem bad_plain {key k : List Byte} {type ctx arg n : Nat} {m : List Byte} (e : k = key) (h : slice (fHead type ctx arg n) 16 12 = fIv type) :
    frPlain (badFrame key type ctx arg n m) k = none := by
  rw [e]
  apply Laws.frPlain_of_tag
  rw [bad_eq]
  have e : frIv ⟨fHead type ctx arg n, gcmCrypt key (fIv type) m,
    (gcmTag key (fIv type) (fHead type ctx arg n) (gcmCrypt key (fIv type) m)).map (fun b => b ^^^ 1), (badFrame key type ctx arg n m).crc⟩ = fIv type := by
    simp only [frIv]; exact h
  rw [e]
  dsimp only
  have l := Laws.gcmTag_length key (fIv type) (fHead type ctx arg n) (gcmCrypt key (fIv type) m)
  generalize gcmTag key (fIv type) (fHead type ctx arg n) (gcmCrypt key (fIv type) m) = t at l ⊢
  cases t with
  | nil => simp at l
  | cons b r =>
    intro hb
    have h1 := (List.cons.inj hb).1
    have h2 : b ^^^ b = b ^^^ (b ^^^ 1) := congrArg (fun x => b ^^^ x) h1
    rw [← BitVec.xor_assoc, BitVec.xor_self] at h2
    simp at h2

/-- The block after a session frame from position 2 has passed, and after it has been consumed. -/
def passed (p : LinkPort) (f : LinkFrame) (s : State) : State :=
  if frType f == 0x20 || frBcast f || frDst f != linkPos s then forward p f s else s
def rxed (p : LinkPort) (f : LinkFrame) (s : State) : State :=
  { passed p f s with tl := { (passed p f s).tl with accepted := [(frSrc f, b2n (decide (0x20 ≤ frType f)), frCnt f)] } }
/-- What that needs. -/
def rxOk (p : LinkPort) (f : LinkFrame) (key : List Byte) (s : State) : Bool :=
  decide ((frSrc f == linkPos s || (rdB GL_STATUS.FENCED s && !decide (0x20 ≤ frType f))) = false ∧
    (!decide (0x20 ≤ frType f) && s.tl.retired.contains (frCtx f)) = false ∧ frForMe f (passed p f s) = true ∧ (passed p f s).tl.session = key ∧
    (passed p f s).tl.session.isEmpty = false ∧ (passed p f s).tl.accepted = [] ∧ frCnt f ≠ 0)

theorem frame_rx {key : List Byte} {p : LinkPort} {type ctx arg n : Nat} {m : List Byte} {s : State} (hi : slice (fHead type ctx arg n) 16 12 = fIv type)
    (h : rxOk p (frame key type ctx arg n m) key s = true) : sessionRx p (frame key type ctx arg n m) s = (some m, rxed p (frame key type ctx arg n m) s) := by
  have ok := of_decide_eq_true h
  exact Laws.sessionRx_accepts p _ s _ m ok.1 ok.2.1 rfl ok.2.2.1 (frame_plain ok.2.2.2.1 hi) ok.2.2.2.2.1 ok.2.2.2.2.2.1 ok.2.2.2.2.2.2

/-- Context 1 runs a Tandem job there. -/
def tj : State := modCx 0 (fun c => { c with order := 1, job := some { job with tandem := true }, cfg := words [(0, 0)] 32 }) (wrs [(GL_CTX_STATUS.STATE 1, 3), (GL_CTX_STATUS.PARTITION 1, 1)] chained)
/-- Strips and summaries that can be asked for again. -/
def strip : State := { chained with tl := { chained.tl with strips := [⟨1, 3, 1, [7], 288⟩], sums := [(1, 3, [7])] } }

/-- A request with SEQ 5, and a block in which it waits on a channel. -/
def req (op : Nat) (ws : List Nat) : Req := ⟨op, 5, ws.length, false, ws⟩
def ask (k : Fin 6) (op : Nat) (ws : List Nat) (s : State) : State :=
  setChan k { chan k s with msg := (op + 5 * 256 + ws.length * 65536) :: ws } (wr (MB.H2K_DB_PEND.PEND k) 1 s)
/-- A job configuration that passes its checks (R337). -/
def cfg1 : List Byte := words [(0, 0x47464343), (1, 1), (3, 8192), (4, 0x200020), (5, 256), (6, 1), (7, 64), (13, 8000000), (16, 1000000), (19, 64), (22, 248832), (31, 73728)] 32
/-- The first 16 bytes of a block's digest, as words. -/
def dig (b : List Byte) : List Nat := (List.range 4).map (wordN (sha384 b))

/-- A waybill's image of one TRANSFER stage, before its signature. -/
def wbText : List Byte := words [(0, 0x314c4257), (1, 0x280001), (2, 0x1c0), (3, 0x484d0024), (4, 0x10101), (5, 0x1), (6, 0x1f4), (7, 0x5dc), (16, 0xc0), (17, 0x40), (18, 0x100), (19, 0x40), (20, 0x140), (22, 0x140), (48, 0x400), (49, 0x3e8), (50, 0x8), (64, 0x110), (65, 0x1), (69, 0xa), (70, 0xff)] 80
/-- Its signer's key, and its signature. -/
def wbKey : List Byte := beBytes 48 0x5534b57c2d18d865b83e74f7cd0113f431d5f0ba602346322ddd502e54ffb37bcca29e5cb5608049f906c4d97a6f3aca ++ beBytes 48 0xb162b6bfbdc1eed52bc9eeb5af4ef0ba53485a7dee3d0cda743454f12bfdc7877128aa0b5f2acb08c5dabd70cc69a05
def wbImage : List Byte := wbText ++ words [] 4 ++ leBytes 48 0xe69d9bf804e7908587f362b56bd059fe157cbc18ffe06c8220e524abc614f84ec2b94a9c278bab7a422c9bafa7377ade ++ leBytes 48 0xe69d9bf804e7908587f362b56bd059fe157cbc18ffe06c8220e524abc614f84ec2b94a9c278bab7a422c9bafa7377ade ++ words [] 4
/-- Context 1 waits for the end of a deferred command on channel 0. -/
def waits (op : Nat) (args : List Nat) (data : List Byte) (s : State) : State := { s with mb := { s.mb with deferred := [⟨0, op, 5, 1, 7, args, data⟩] } }
/-- A context whose configuration has been accepted. -/
def ready (st : Nat) (im : List Byte) (s : State) : State := modCx 0 (fun c => { c with cfg := cfg1 }) (ctxUp st im s)

/-- A bounce record of context 1, and a block that has asked for it. -/
def bounceHead : List Byte := wordsBytes [0x31434E42, 0x101, 9, 0, 16, 64, 0, 0]
def bounceText : List Byte := beBytes 16 0x1ce617ea4530ad59fbc2ab1da7113095
def bounce1 : List Byte := bounceHead ++ bounceText
def bounceTag : List Byte := beBytes 16 0xb40be62a4ec0c337df743370621e6f53
def bounces : State :=
  waits 0x41 [0, 48] bounceTag (modCx 0 (fun c => { c with bounce := { c.bounce with outOfs := 4096, key := List.replicate 32 3 } })
    (wr (GL_CTX_STATUS.CONFIDENTIAL 1) 1 (ready 2 [] up)))

/-- A token of the owner key for END_OF_LIFE, with its signature and its signer's key. -/
def lcTokEnc : List Byte := beBytes 97 0x041efbca1c43467b4f4306e6800718e0cfadb2a37c2c27e692f89e8de9e3f20f1565eaf9671962a812c5cd2e3ff406f41611d3a00a6121f969d89fa027ad94411b528cf9da7f5ec9e8dc8f23d66799a86d03722fda1f85c78f6e8488cec2bdad17
def lcTok : List Byte := beBytes 192 0x544b5431010f01002ae0852c1bd41747b4c1ec59af66bcf4da07887afe0585e130c5ebb2c0bccf742a2c0c10f8995e5056a6ea2b9d9f910a06060606060606060606060606060606060606060606060600000000000000000000000000000000366975896b7421e231b12816971d7a8748b384e01fdfe44ea845687c7c4e87afab46e5097329b75e21cf00eead963f3e366975896b7421e231b12816971d7a8748b384e01fdfe44ea845687c7c4e87afab46e5097329b75e21cf00eead963f3e ++ lcTokEnc
/-- A token of the owner key for a debug unlock, with its signature and its signer's key. -/
def duTokEnc : List Byte := beBytes 97 0x04eb778af4f6128f01e5e5e601e534b46d1366aff54220e16f1534c3ac821bfe4eeab7cedb2e7ccff07ddc607c90b3fd4dfb7a6d911a3e8548d1a2a29359f09822a146372df9516096de23b5294987f9746276b89de0701933246f680f02fa9925
def duTok : List Byte := beBytes 192 0x544b5431020001002ae0852c1bd41747b4c1ec59af66bcf4da07887afe0585e130c5ebb2c0bccf742a2c0c10f8995e5056a6ea2b9d9f910a060606060606060606060606060606060606060606060606000000000000000000000000000000006e9c6ffbe3a0d3c42dfab0af04dac3cca6b19640b9c772624dc67ec006d8816e1fee236938f5a89628a4a61fea3e8f036e9c6ffbe3a0d3c42dfab0af04dac3cca6b19640b9c772624dc67ec006d8816e1fee236938f5a89628a4a61fea3e8f03 ++ duTokEnc
/-- A key-update message with one entry, with its signature and its signer's key. -/
def kuMsgEnc : List Byte := beBytes 97 0x0465fa88b7c843188ea203d7f4e38a11527fa6f5c78f4c95e45ac6e1f652e23657133549f159860bd43a6e808c19f1af7ac26a36dc94d24ea69db4d8be4d64490ab10b9a208b490ce16909ef7262c438342360a539f1b9168001a178f650b5c799
def kuMsg : List Byte := beBytes 432 0x4b555031010105004000000000000000a00000000000000000000000000000002ae0852c1bd41747b4c1ec59af66bcf4da07887afe0585e130c5ebb2c0bccf742a2c0c10f8995e5056a6ea2b9d9f910aaa87ca22be8b05378eb1c71ef320ad746e1d3b628ba79b9859f741e082542a385502f25dbf55296c3a545e3872760ab73617de4a96262c6f5d9e98bf9292dc29f8f41dbd289a147ce9da3113b5f0b8c00a60b1ce1d7e819d7a431d7c90ea0e5f040404040404040404040404000000005eb39205ae5e7b62653ca872ebf1201dc9c1d35c81500f3e677a020c508b37bb7d24cfe9ec56b32e3aec0bae19e81fdce08a062e27c9509cc302690f53bedbcc8351ca9822547469f95089e36df237dc67fda394a62df1c2959047ad12f7a09aca86ad39cd04e8d164a132c1edb9007d1327faae0e625561242940711f88741af3628f475501da716f65d7dcda3cbde15626d32e6f2273155a149a56e3e9f9b45c198a63b356cb25349afdb2efcf91ef4354b8bccb8a4fc6a6cbe4e1fd89a85e5626d32e6f2273155a149a56e3e9f9b45c198a63b356cb25349afdb2efcf91ef4354b8bccb8a4fc6a6cbe4e1fd89a85e ++ kuMsgEnc
/-- A block whose Strongbox holds an outstanding challenge and an owner key. -/
def owned (lc : Nat) (owner : List Byte) (s : State) : State :=
  { wrs [(SB_STATUS.LIFECYCLE, lc), (GL_STATUS.LIFECYCLE, lc)] s with sb := { s.sb with challenge := List.replicate 24 6, owner := owner, transport := 1, root := List.replicate 32 1 } }
/-- A Strongbox request with a block at address 64. -/
def askB (k : Fin 6) (op : Nat) (len : Nat) (b : List Byte) (s : State) : State := ask k op ([64, 0, len] ++ dig (slice b 0 len)) s
def reqB (op : Nat) (len : Nat) (b : List Byte) : Req := req op ([64, 0, len] ++ dig (slice b 0 len))

/-- An attestation request for a context or for the block. -/
def attB (c : Nat) : List Byte := words [(0, 0x31525441), (1, c), (2, 4096), (4, 2048), (5, 8), (16, 0x07070707), (17, 0x07070707)] 32
/-- A key item under the bundle MAC. -/
def keyHead : List Byte := leBytes 4 0x314C424B ++ leBytes 4 (2 + 256 + 96 * 65536) ++ leBytes 4 9 ++ leBytes 4 2 ++ List.replicate 96 3
def keyB : List Byte := keyHead ++ beBytes 48 0xc0b9c6facca82bff680d9671b3674033a00c0e8b0f8037fee1df252deb8cf4251320648edbf2f9dedb9e73609002a576

/-- A block whose boot is at a step. -/
def boots (k : Nat) (s : State) : State := { s with pw := { s.pw with bootStep := k } }
/-- Lifecycle bits as fuses. -/
def fuseLc (v : Nat) (s : State) : State := { s with otp := { s.otp with norm := [(0, v), (1, v), (2, v)], tight := [(0, v), (1, v), (2, v)] } }

/-- The digest engine has an owner. -/
def dgo (k : Nat) (s : State) : State := wrs [(DG_OWN.OWNER 0, k), (DG_OWN.OWNER 1, k), (DG_OWN.OWNER 2, k), (SB_REINS.HOLDERS 6, k - 1)] s
/-- A view has a message. -/
def dgm (v : Fin 3) (m : DgMsg) (s : State) : State := wr (DG_STATUS.ACTIVE v) 1 (modDg v (fun _ => m) s)
/-- A message of three bytes that has ended. -/
def msg1 : DgMsg := { DgMsg.init with bytes := [1, 2, 3], ended := true }
/-- A suspended user. -/
def susp (k : Nat) (s : State) : State := wr (DG_STATUS.SUSPENDED k) 1 { s with dg := { s.dg with suspended := some k } }

/-- A request frame of the service port, with its CRC. -/
def sealCrc (h : List Byte) : List Byte := h ++ leBytes 4 (crc32 h).toNat
def fr (op arg : Nat) (b : List Byte) : List Byte := sealCrc (leBytes 4 (op + 9 * 256) ++ leBytes 4 b.length ++ leBytes 4 arg ++ leBytes 4 0 ++ b)
/-- The words of the directory. -/
def dirs (ps : List (Nat × Nat)) (s : State) : State := { s with sb := { s.sb with dir := (List.range 40).map (fun i => (ps.lookup i).getD 0) } }
/-- The service port has a session without a key; a staging session of a unit is open. -/
def sess (s : State) : State := { s with sb := { s.sb with svc := { s.sb.svc with isOpen := true } } }
def staged (u : Nat) (m : List Byte) (w : List Nat) (s : State) : State :=
  wrs [(SB_UPD_STATUS.SESSION, 1), (SB_UPD_STATUS.UNIT, u), (SB_UPD_STATUS.BLOCKS, w.length)]
    { sess s with sb := { (sess s).sb with svc := { (sess s).sb.svc with manifest := m, written := w } } }
/-- A manifest of a unit with one block, and words of it. -/
def manif (u : Nat) (ps : List (Nat × Nat)) : List Byte :=
  words (ps ++ [(0, 0x31445055), (1, u + 256), (2, 4096), (3, 0x484D0024), (4, 9), (5, 1)]) 32 ++ (if u < 2 then List.replicate 48 0 else [])

/-- A key item is judged by the root and the OTP counter. -/
theorem keyItem_of {b : List Byte} {s t : State} (h : s.sb.root = t.sb.root) (hc : rd SB_KEY_STATUS.OTP_COUNTER s = rd SB_KEY_STATUS.OTP_COUNTER t) :
    keyItem b s = keyItem b t := by unfold keyItem bundleMac kek; rw [h, hc]
theorem keyB_item : keyItem keyB (wr SB_KEY_STATUS.OTP_COUNTER 5 (owned 7 [] up)) = some (2, 1, 9, 2, List.replicate 96 3) := by decide +kernel

/-- The CRC of a sealed frame is right. -/
theorem leNat_leBytes : ∀ n x : Nat, x < 256 ^ n → leNat (leBytes n x) = x
  | 0, x, h => by simp at h; simp [leBytes, leNat, h]
  | n + 1, x, h => by
    have : leNat (leBytes n (x / 256)) = x / 256 := leNat_leBytes n (x / 256) (by rw [Nat.pow_succ] at h; omega)
    simp only [leBytes, leNat, this, BitVec.toNat_ofNat]; omega
theorem slice_left (a b : List Byte) (n : Nat) (h : a.length = n) : slice (a ++ b) 0 n = a := by
  simp only [slice, List.drop_zero]; rw [List.take_append_of_le_length (by omega), List.take_of_length_le (by omega)]; simp [h]
theorem slice_right (a b : List Byte) (n m : Nat) (h : a.length = n) (hb : b.length = m) : slice (a ++ b) n m = b := by
  simp only [slice]; rw [← h, List.drop_left, List.take_of_length_le (by omega)]; simp [hb]
theorem seal_ok (h : List Byte) : svcCrcOk (sealCrc h) = true := by
  have l : (leBytes 4 (crc32 h).toNat).length = 4 := Laws.leBytes_length _ _
  unfold svcCrcOk sealCrc
  rw [List.length_append, l, Nat.add_sub_cancel, slice_left _ _ _ rfl, slice_right _ _ _ _ rfl l, leNat_leBytes 4 _ (by have := (crc32 h).isLt; omega)]
  simp

theorem slice_mid (a b c : List Byte) (n m : Nat) (h : a.length = n) (hb : b.length = m) : slice (a ++ b ++ c) n m = b := by
  unfold slice
  rw [List.append_assoc, ← h, List.drop_left, List.take_append_of_le_length (by omega), List.take_of_length_le (by omega)]
  simp [hb]

/-- A frame that carries one block. -/
def frBlock (arg : Nat) : List Byte := sealCrc ((leBytes 4 (3 + 9 * 256) ++ leBytes 4 4096 ++ leBytes 4 arg ++ leBytes 4 0) ++ List.replicate 4096 7)
theorem frBlock_length (arg : Nat) : (frBlock arg).length = 4116 := by
  simp only [frBlock, sealCrc, List.length_append, Laws.leBytes_length, List.length_replicate]
theorem frBlock_ok (arg : Nat) (s : State) (h : svcLen (frBlock arg) = 4096) (ht : svcTagged (frBlock arg) s = false) : svcLenOk (frBlock arg) s = true := by
  simp only [svcLenOk, svcSize, h, ht, frBlock_length]; decide
theorem frBlock_body (arg : Nat) (h : svcLen (frBlock arg) = 4096) : svcBody (frBlock arg) = List.replicate 4096 7 := by
  unfold svcBody
  rw [h]
  exact slice_mid _ _ _ 16 4096 (by simp only [List.length_append, Laws.leBytes_length]) List.length_replicate
theorem block_hash : sha384 (List.replicate 4096 7) ≠ List.replicate 48 0 := by decide +kernel

/-! The standards' vectors: FIPS 180-4 for "abc", FIPS 197 appendix C.3, and the check values of the two CRCs over "123456789". -/

theorem test_sha384_abc : beNat (sha384 (ascii "abc")) =
    0xcb00753f45a35e8bb5a03d699ac65007272c32ab0eded1631a8b605a43ff5bed8086072ba1e7cc2358baeca134c825a7 := by decide +kernel
theorem test_sha256_abc : beNat (sha256 (ascii "abc")) = 0xba7816bf8f01cfea414140de5dae2223b00361a396177a9cb410ff61f20015ad := by decide +kernel
theorem test_aes256 : beNat (aesEnc ((List.range 32).map (BitVec.ofNat 8)) (beBytes 16 0x00112233445566778899aabbccddeeff)) =
    0x8ea2b7ca516745bfeafc49904b496089 := by decide +kernel
theorem test_crc32 : (crc32 (ascii "123456789")).toNat = 0xCBF43926 := by decide +kernel
theorem test_sbox : ∀ i : Fin 256, aesSub (BitVec.ofNat 8 i.val) = aesSbox.getD i.val 0 := by decide +kernel

/-! One ill-formed command for each check of WellFormed, and a well-formed one. -/

theorem test_wf_register : (Instr.regWrite 0x100004 7 true).wf = true := by decide
theorem test_wf_hostAddr_misaligned : (Instr.regWrite 0x1000001 0 true).wf = false := by decide
theorem test_wf_hostAddr_out_of_range : (Instr.pairLoRead 0x1000000 true).wf = false := by decide
theorem test_wf_access_error_address : (Instr.hostAccessError true (2 ^ 48) false true).wf = false := by decide
theorem test_wf_ecc_count : (Instr.gigSlotEnd (.corrected 0 0)).wf = false := by decide
theorem test_wf_response_beat : (Instr.mpReadResponse 0 ⟨0, 0, [1], true⟩).wf = false := by decide
theorem test_wf_response_id : (Instr.mpReadResponse 0 ⟨256, 0, [], true⟩).wf = false := by decide
theorem test_wf_write_id : (Instr.mpWriteDone 0 256 0).wf = false := by decide
theorem test_wf_frame_header : (Instr.helloRx 0 ⟨[], [], List.replicate 16 0, 0⟩).wf = false := by decide
theorem test_wf_frame_tag : (Instr.haloRx 1 ⟨List.replicate 32 0, [], [7], 0⟩).wf = false := by decide
theorem test_wf_frame_crc : (Instr.frameErr 0 ⟨[], [], [], 2 ^ 32⟩ .crc).wf = false := by decide
theorem test_wf_halo_row : (Instr.haloReqTimer 0 (2 ^ 32) 0).wf = false := by decide
theorem test_wf_heartbeat_words : (Instr.heartbeatAnswer ⟨[1, 2]⟩).wf = false := by decide
theorem test_wf_temperatures : (Instr.thermalSample []).wf = false := by decide
theorem test_wf_service_frame : (Instr.svcStatus (List.replicate 4133 0)).wf = false := by
  simp only [Instr.wf, List.length_replicate]; decide
theorem test_wf_chunk (b : List Byte) (h : 2 ^ 32 ≤ b.length) (e : _) : (Instr.dgChunkDone b e).wf = false := by
  simp only [Instr.wf, decide_eq_false_iff_not]; omega

/-! For each clause of each statement with hypotheses, a state and operands that meet them. -/

theorem witness_StepRunsTheFrontCommand_1 : ∃ (s : State), s.pending = [] :=
  ⟨up, by decide +kernel⟩
theorem witness_StepRunsTheFrontCommand_2 : ∃ (s : State), s.pending = [] :=
  ⟨up, by decide +kernel⟩
theorem witness_StepRunsTheFrontCommand_3 : ∃ (s : State), s.pending = [] :=
  ⟨up, by decide +kernel⟩
theorem witness_StoresStayCanonicalUnderEveryStep_0 : ∃ (s : State) (t : State), s.inv = true ∧ step s = .next t :=
  ⟨{up with pending := [.ttLoad]}, nextOf (step {up with pending := [.ttLoad]}), by exact ⟨by decide +kernel, next_of (by decide +kernel)⟩⟩
theorem witness_BlownFusesStayBlown_0 : ∃ (s : State) (t : State), s.otpWf = true ∧ step s = .next t :=
  ⟨{up with pending := [.ttLoad]}, nextOf (step {up with pending := [.ttLoad]}), by exact ⟨by decide +kernel, next_of (by decide +kernel)⟩⟩
theorem witness_RefusedHostAccessIsAnsweredAndCounted_0 : ∃ (s : State) (b : Bool) (sec : Bool) (a : Nat) (e : HostErr), s.regsWf = true ∧ (s.tap.code == 0x10) = false ∧ hostCheck a sec b s = some e :=
  ⟨up, false, false, 0xE00000, .unmapped, by decide +kernel⟩
theorem witness_EveryHostRowIsRefusedAlike_0 : ∃ (i : Instr) (a : Nat) (sec : Bool) (s : State) (e : _), hostRow i = some (a, sec) ∧ (s.tap.code == 0x10) = false ∧ hostCheck a sec false s = some e :=
  ⟨.ggCntClrBusy, 0x300030, false, wr (PM_PWR_STATUS.ON 16) 0 up, .domainOff, by decide +kernel⟩
theorem witness_EveryHostRowIsRefusedAlike_1 : ∃ (i : Instr) (a : Nat) (sec : Bool) (s : State), hostRow i = some (a, sec) ∧ (s.tap.code == 0x10) = true :=
  ⟨.ttLoad, 0x100000, false, {up with tap := {up.tap with code := 0x10}}, by decide +kernel⟩
theorem witness_RegisterWriteFollowsTheFieldsKind_0 : ∃ (s : State) (a : Nat) (sec : Bool) (r : RRow) (x : FRow), s.served a sec ∧ rowOf a = some r ∧ r.pair = 0 ∧ r.fields = [x] ∧ ownRow a = false ∧ profAddr a = false ∧ a / 0x100000 ≠ 9 ∧ hostReaches ⟨a, x.lo, x.width⟩ s = true ∧ evKey (Fld.key ⟨a, x.lo, x.width⟩) = false :=
  ⟨up, 0x10002c, false, (rowOf 0x10002c).getD ⟨0,0,0,0,[]⟩, ((rowOf 0x10002c).getD ⟨0,0,0,0,[]⟩).fields.headD ⟨0,0,.ro,0⟩, by unfold State.served; decide +kernel⟩
theorem witness_RegisterWriteFollowsTheFieldsKind_1 : ∃ (s : State) (c : Coach) (sec : Bool), s.served (0x200004 + 0x10000 * c.val) sec :=
  ⟨up, 2, false, by unfold State.served; decide +kernel⟩
theorem witness_RegisterWriteFollowsTheFieldsKind_2 : ∃ (s : State) (sec : Bool), s.served 0x300004 sec :=
  ⟨up, false, by unfold State.served; decide +kernel⟩
theorem witness_RegisterPairsAreReadAndWrittenWhole_0 : ∃ (s : State) (a : Nat) (sec : Bool), s.served a sec ∧ s.pairsWf = true :=
  ⟨{wr TT_LINE_SET.LINE 0x123456789abc up with hiHold := [(0x100018,7)]}, 0x100018, false, by unfold State.served; decide +kernel⟩
theorem witness_RegisterPairsAreReadAndWrittenWhole_1 : ∃ (s : State) (a : Nat) (sec : Bool) (r : RRow) (x : FRow), s.served a sec ∧ rowOf a = some r ∧ r.pair = 1 ∧ r.fields = [x] ∧ x.kind = .rw ∧ a / 0x100000 ≠ 9 ∧ a < 0x700000 :=
  ⟨{wr TT_LINE_SET.LINE 0x123456789abc up with hiHold := [(0x100018,7)]}, 0x100018, false, (rowOf 0x100018).getD ⟨0,0,0,0,[]⟩, ((rowOf 0x100018).getD ⟨0,0,0,0,[]⟩).fields.headD ⟨0,0,.ro,0⟩, by unfold State.served; decide +kernel⟩
theorem witness_GlobalTimetableAndEngineCountersClear_0 : ∃ (s : State), s.served 0x28 false :=
  ⟨wrs [(GL_CFG_REJECTS.COUNT,3),(GL_HOST_ERRS.UNMAPPED,2),(TT_ENC_ERR.SPIKE,4),(TT_MARK_CNT.OVF,3),(TT_DL_MISS.COUNT,2),(GG_BUSY.COUNT,2),(GG_ECC.CORR,4),(CA_NUMERIC.NAN 1,3),(CA_BUSY.COUNT 1,5)] up, by unfold State.served; decide +kernel⟩
theorem witness_GlobalTimetableAndEngineCountersClear_1 : ∃ (s : State), s.served 0x28 false :=
  ⟨wrs [(GL_CFG_REJECTS.COUNT,3),(GL_HOST_ERRS.UNMAPPED,2),(TT_ENC_ERR.SPIKE,4),(TT_MARK_CNT.OVF,3),(TT_DL_MISS.COUNT,2),(GG_BUSY.COUNT,2),(GG_ECC.CORR,4),(CA_NUMERIC.NAN 1,3),(CA_BUSY.COUNT 1,5)] up, by unfold State.served; decide +kernel⟩
theorem witness_GlobalTimetableAndEngineCountersClear_2 : ∃ (s : State), s.served 0x100068 false :=
  ⟨wrs [(GL_CFG_REJECTS.COUNT,3),(GL_HOST_ERRS.UNMAPPED,2),(TT_ENC_ERR.SPIKE,4),(TT_MARK_CNT.OVF,3),(TT_DL_MISS.COUNT,2),(GG_BUSY.COUNT,2),(GG_ECC.CORR,4),(CA_NUMERIC.NAN 1,3),(CA_BUSY.COUNT 1,5)] up, by unfold State.served; decide +kernel⟩
theorem witness_GlobalTimetableAndEngineCountersClear_3 : ∃ (s : State), s.served 0x100068 false :=
  ⟨wrs [(GL_CFG_REJECTS.COUNT,3),(GL_HOST_ERRS.UNMAPPED,2),(TT_ENC_ERR.SPIKE,4),(TT_MARK_CNT.OVF,3),(TT_DL_MISS.COUNT,2),(GG_BUSY.COUNT,2),(GG_ECC.CORR,4),(CA_NUMERIC.NAN 1,3),(CA_BUSY.COUNT 1,5)] up, by unfold State.served; decide +kernel⟩
theorem witness_GlobalTimetableAndEngineCountersClear_4 : ∃ (s : State), s.served 0x100068 false :=
  ⟨wrs [(GL_CFG_REJECTS.COUNT,3),(GL_HOST_ERRS.UNMAPPED,2),(TT_ENC_ERR.SPIKE,4),(TT_MARK_CNT.OVF,3),(TT_DL_MISS.COUNT,2),(GG_BUSY.COUNT,2),(GG_ECC.CORR,4),(CA_NUMERIC.NAN 1,3),(CA_BUSY.COUNT 1,5)] up, by unfold State.served; decide +kernel⟩
theorem witness_GlobalTimetableAndEngineCountersClear_5 : ∃ (s : State), s.served 0x100068 false :=
  ⟨wrs [(GL_CFG_REJECTS.COUNT,3),(GL_HOST_ERRS.UNMAPPED,2),(TT_ENC_ERR.SPIKE,4),(TT_MARK_CNT.OVF,3),(TT_DL_MISS.COUNT,2),(GG_BUSY.COUNT,2),(GG_ECC.CORR,4),(CA_NUMERIC.NAN 1,3),(CA_BUSY.COUNT 1,5)] up, by unfold State.served; decide +kernel⟩
theorem witness_GlobalTimetableAndEngineCountersClear_6 : ∃ (s : State), confidential s = false ∧ s.served 0x300030 false :=
  ⟨wrs [(GL_CFG_REJECTS.COUNT,3),(GL_HOST_ERRS.UNMAPPED,2),(TT_ENC_ERR.SPIKE,4),(TT_MARK_CNT.OVF,3),(TT_DL_MISS.COUNT,2),(GG_BUSY.COUNT,2),(GG_ECC.CORR,4),(CA_NUMERIC.NAN 1,3),(CA_BUSY.COUNT 1,5)] up, by unfold State.served; decide +kernel⟩
theorem witness_GlobalTimetableAndEngineCountersClear_7 : ∃ (s : State), confidential s = false ∧ s.served 0x300030 false :=
  ⟨wrs [(GL_CFG_REJECTS.COUNT,3),(GL_HOST_ERRS.UNMAPPED,2),(TT_ENC_ERR.SPIKE,4),(TT_MARK_CNT.OVF,3),(TT_DL_MISS.COUNT,2),(GG_BUSY.COUNT,2),(GG_ECC.CORR,4),(CA_NUMERIC.NAN 1,3),(CA_BUSY.COUNT 1,5)] up, by unfold State.served; decide +kernel⟩
theorem witness_GlobalTimetableAndEngineCountersClear_8 : ∃ (s : State), confidential s = false ∧ s.served 0x300030 false :=
  ⟨wrs [(GL_CFG_REJECTS.COUNT,3),(GL_HOST_ERRS.UNMAPPED,2),(TT_ENC_ERR.SPIKE,4),(TT_MARK_CNT.OVF,3),(TT_DL_MISS.COUNT,2),(GG_BUSY.COUNT,2),(GG_ECC.CORR,4),(CA_NUMERIC.NAN 1,3),(CA_BUSY.COUNT 1,5)] up, by unfold State.served; decide +kernel⟩
theorem witness_GlobalTimetableAndEngineCountersClear_9 : ∃ (s : State), confidential s = false ∧ s.served 0x300030 false :=
  ⟨wrs [(GL_CFG_REJECTS.COUNT,3),(GL_HOST_ERRS.UNMAPPED,2),(TT_ENC_ERR.SPIKE,4),(TT_MARK_CNT.OVF,3),(TT_DL_MISS.COUNT,2),(GG_BUSY.COUNT,2),(GG_ECC.CORR,4),(CA_NUMERIC.NAN 1,3),(CA_BUSY.COUNT 1,5)] up, by unfold State.served; decide +kernel⟩
theorem witness_GlobalTimetableAndEngineCountersClear_10 : ∃ (s : State) (c : Coach), confidential s = false ∧ s.served (0x200030 + 0x10000 * c.val) false :=
  ⟨wrs [(GL_CFG_REJECTS.COUNT,3),(GL_HOST_ERRS.UNMAPPED,2),(TT_ENC_ERR.SPIKE,4),(TT_MARK_CNT.OVF,3),(TT_DL_MISS.COUNT,2),(GG_BUSY.COUNT,2),(GG_ECC.CORR,4),(CA_NUMERIC.NAN 1,3),(CA_BUSY.COUNT 1,5)] up, 1, by unfold State.served; decide +kernel⟩
theorem witness_GlobalTimetableAndEngineCountersClear_11 : ∃ (s : State) (c : Coach), confidential s = false ∧ s.served (0x200030 + 0x10000 * c.val) false :=
  ⟨wrs [(GL_CFG_REJECTS.COUNT,3),(GL_HOST_ERRS.UNMAPPED,2),(TT_ENC_ERR.SPIKE,4),(TT_MARK_CNT.OVF,3),(TT_DL_MISS.COUNT,2),(GG_BUSY.COUNT,2),(GG_ECC.CORR,4),(CA_NUMERIC.NAN 1,3),(CA_BUSY.COUNT 1,5)] up, 1, by unfold State.served; decide +kernel⟩
theorem witness_GlobalTimetableAndEngineCountersClear_12 : ∃ (s : State) (c : Coach), confidential s = false ∧ s.served (0x200030 + 0x10000 * c.val) false :=
  ⟨wrs [(GL_CFG_REJECTS.COUNT,3),(GL_HOST_ERRS.UNMAPPED,2),(TT_ENC_ERR.SPIKE,4),(TT_MARK_CNT.OVF,3),(TT_DL_MISS.COUNT,2),(GG_BUSY.COUNT,2),(GG_ECC.CORR,4),(CA_NUMERIC.NAN 1,3),(CA_BUSY.COUNT 1,5)] up, 1, by unfold State.served; decide +kernel⟩
theorem witness_GlobalTimetableAndEngineCountersClear_13 : ∃ (s : State) (c : Coach), confidential s = false ∧ s.served (0x200030 + 0x10000 * c.val) false :=
  ⟨wrs [(GL_CFG_REJECTS.COUNT,3),(GL_HOST_ERRS.UNMAPPED,2),(TT_ENC_ERR.SPIKE,4),(TT_MARK_CNT.OVF,3),(TT_DL_MISS.COUNT,2),(GG_BUSY.COUNT,2),(GG_ECC.CORR,4),(CA_NUMERIC.NAN 1,3),(CA_BUSY.COUNT 1,5)] up, 1, by unfold State.served; decide +kernel⟩
theorem witness_GlobalTimetableAndEngineCountersClear_14 : ∃ (s : State) (i : _), confidential s = true ∧ s.served 0x300030 false ∧ i ∈ [Instr.ggCntClrBusy, .ggCntClrWait, .ggCntClrNumeric, .ggCntClrEcc] :=
  ⟨wr GL_STATUS.CONFIDENTIAL 1 up, .ggCntClrEcc, by unfold State.served; decide +kernel⟩
theorem witness_GlobalTimetableAndEngineCountersClear_15 : ∃ (s : State) (c : Coach) (i : _), confidential s = true ∧ s.served (0x200030 + 0x10000 * c.val) false ∧ i ∈ [Instr.caCntClrBusy c, .caCntClrStall c, .caCntClrNumeric c, .caCntClrEcc c] :=
  ⟨wr GL_STATUS.CONFIDENTIAL 1 up, 1, .caCntClrStall 1, by unfold State.served; decide +kernel⟩
theorem witness_GlobalTimetableAndEngineCountersClear_16 : ∃ (s : State), s.gig.run = none :=
  ⟨wrs [(GL_CFG_REJECTS.COUNT,3),(GL_HOST_ERRS.UNMAPPED,2),(TT_ENC_ERR.SPIKE,4),(TT_MARK_CNT.OVF,3),(TT_DL_MISS.COUNT,2),(GG_BUSY.COUNT,2),(GG_ECC.CORR,4),(CA_NUMERIC.NAN 1,3),(CA_BUSY.COUNT 1,5)] up, by decide +kernel⟩
theorem witness_GlobalTimetableAndEngineCountersClear_17 : ∃ (s : State) (c : Coach), (co c s).run = none :=
  ⟨wrs [(GL_CFG_REJECTS.COUNT,3),(GL_HOST_ERRS.UNMAPPED,2),(TT_ENC_ERR.SPIKE,4),(TT_MARK_CNT.OVF,3),(TT_DL_MISS.COUNT,2),(GG_BUSY.COUNT,2),(GG_ECC.CORR,4),(CA_NUMERIC.NAN 1,3),(CA_BUSY.COUNT 1,5)] up, 1, by decide +kernel⟩
theorem witness_GlobalTimetableAndEngineCountersClear_18 : ∃ (s : State) (f : Fld), s.regsWf = true ∧ ownKey f.key = false ∧ rd (clearedF f) s ≠ 0 :=
  ⟨inc GL_CFG_REJECTS.COUNT (cntClr [GL_CFG_REJECTS.COUNT] up), GL_CFG_REJECTS.COUNT, by decide +kernel⟩
theorem witness_PortWaybillAndLinkCountersClear_0 : ∃ (s : State), s.served 0x400014 false ∧ rdB (freshF MP_ERR_INFO.VALID) s = false :=
  ⟨wrs [(MP_ERR_INFO.VALID,1),(MP_P_ERRS.RD_ERR 1,5),(GL_WB_LATE_CYC.COUNT 2,3),(TL_ABORT.COUNT,4)] up, by unfold State.served; decide +kernel⟩
theorem witness_PortWaybillAndLinkCountersClear_1 : ∃ (s : State), s.served 0x400014 false ∧ rdB (freshF MP_ERR_INFO.VALID) s = true :=
  ⟨wr (freshF MP_ERR_INFO.VALID) 1 (wrs [(MP_ERR_INFO.VALID,1)] up), by unfold State.served; decide +kernel⟩
theorem witness_PortWaybillAndLinkCountersClear_2 : ∃ (s : State), s.served 0x400020 false :=
  ⟨wrs [(MP_ERR_INFO.VALID,1),(MP_P_ERRS.RD_ERR 1,5),(GL_WB_LATE_CYC.COUNT 2,3),(TL_ABORT.COUNT,4)] up, by unfold State.served; decide +kernel⟩
theorem witness_PortWaybillAndLinkCountersClear_3 : ∃ (s : State), s.served 0x400020 false :=
  ⟨wrs [(MP_ERR_INFO.VALID,1),(MP_P_ERRS.RD_ERR 1,5),(GL_WB_LATE_CYC.COUNT 2,3),(TL_ABORT.COUNT,4)] up, by unfold State.served; decide +kernel⟩
theorem witness_PortWaybillAndLinkCountersClear_4 : ∃ (s : State), s.served 0x400020 false :=
  ⟨wrs [(MP_ERR_INFO.VALID,1),(MP_P_ERRS.RD_ERR 1,5),(GL_WB_LATE_CYC.COUNT 2,3),(TL_ABORT.COUNT,4)] up, by unfold State.served; decide +kernel⟩
theorem witness_PortWaybillAndLinkCountersClear_5 : ∃ (s : State), s.served 0x400020 false :=
  ⟨wrs [(MP_ERR_INFO.VALID,1),(MP_P_ERRS.RD_ERR 1,5),(GL_WB_LATE_CYC.COUNT 2,3),(TL_ABORT.COUNT,4)] up, by unfold State.served; decide +kernel⟩
theorem witness_PortWaybillAndLinkCountersClear_6 : ∃ (s : State), s.served 0x240 false :=
  ⟨wrs [(MP_ERR_INFO.VALID,1),(MP_P_ERRS.RD_ERR 1,5),(GL_WB_LATE_CYC.COUNT 2,3),(TL_ABORT.COUNT,4)] up, by unfold State.served; decide +kernel⟩
theorem witness_PortWaybillAndLinkCountersClear_7 : ∃ (s : State), s.served 0x500020 false :=
  ⟨wrs [(MP_ERR_INFO.VALID,1),(MP_P_ERRS.RD_ERR 1,5),(GL_WB_LATE_CYC.COUNT 2,3),(TL_ABORT.COUNT,4)] up, by unfold State.served; decide +kernel⟩
theorem witness_PortWaybillAndLinkCountersClear_8 : ∃ (s : State), s.served 0x500020 false :=
  ⟨wrs [(MP_ERR_INFO.VALID,1),(MP_P_ERRS.RD_ERR 1,5),(GL_WB_LATE_CYC.COUNT 2,3),(TL_ABORT.COUNT,4)] up, by unfold State.served; decide +kernel⟩
theorem witness_PortWaybillAndLinkCountersClear_9 : ∃ (s : State), s.served 0x500020 false :=
  ⟨wrs [(MP_ERR_INFO.VALID,1),(MP_P_ERRS.RD_ERR 1,5),(GL_WB_LATE_CYC.COUNT 2,3),(TL_ABORT.COUNT,4)] up, by unfold State.served; decide +kernel⟩
theorem witness_PortWaybillAndLinkCountersClear_10 : ∃ (s : State), s.served 0x500020 false :=
  ⟨wrs [(MP_ERR_INFO.VALID,1),(MP_P_ERRS.RD_ERR 1,5),(GL_WB_LATE_CYC.COUNT 2,3),(TL_ABORT.COUNT,4)] up, by unfold State.served; decide +kernel⟩
theorem witness_EncoderCountsStepTheDivider_0 : ∃ (s : State) (a : Bool) (b : Bool) (f : Bool) (l : Bool × Bool), s.regsWf = true ∧ domOpen 17 s = true ∧ rdB TT_CTRL.ENABLE s = true ∧ filtered a b s = l ∧ decodeEdge (rd TT_ENC_CFG.MODE s) s.tt.encA s.tt.encB l.1 l.2 = some (some f) ∧ f ≠ rdB TT_ENC_CFG.INV_DIR s ∧ s.tt.acc + rd TT_STEP.STEP s < 0x1000000 :=
  ⟨wr TT_STEP.STEP 1000 run, true, false, true, (true, false), by decide +kernel⟩
theorem witness_EncoderCountsStepTheDivider_1 : ∃ (s : State) (a : Bool) (b : Bool) (f : Bool) (l : Bool × Bool), s.regsWf = true ∧ domOpen 17 s = true ∧ rdB TT_CTRL.ENABLE s = true ∧ filtered a b s = l ∧ decodeEdge (rd TT_ENC_CFG.MODE s) s.tt.encA s.tt.encB l.1 l.2 = some (some f) ∧ f = rdB TT_ENC_CFG.INV_DIR s ∧ rd TT_STEP.STEP s ≤ s.tt.acc :=
  ⟨{ wrs [(TT_STEP.STEP, 1000), (TT_ENC_CFG.INV_DIR, 1)] run with tt := { run.tt with acc := 1000 } }, true, false, true, (true, false), by decide +kernel⟩
theorem witness_EncoderCountsStepTheDivider_2 : ∃ (s : State) (a : Bool) (b : Bool) (l : Bool × Bool), s.regsWf = true ∧ domOpen 17 s = true ∧ rdB TT_CTRL.ENABLE s = true ∧ filtered a b s = l ∧ decodeEdge (rd TT_ENC_CFG.MODE s) s.tt.encA s.tt.encB l.1 l.2 = some none ∧ (inWindow s.tt.bounds s.tt.illegal).length < 15 ∧ (inWindow s.tt.bounds s.tt.spikes).length < 16 :=
  ⟨{ run with tt := { run.tt with bounds := 300, illegal := [299, 100] } }, true, true, (true, true), by decide +kernel⟩
theorem witness_EncoderCountsStepTheDivider_3 : ∃ (s : State) (a : Bool) (b : Bool) (l : Bool × Bool), s.regsWf = true ∧ domOpen 17 s = true ∧ rdB TT_CTRL.ENABLE s = true ∧ filtered a b s = l ∧ l = (s.tt.encA, s.tt.encB) :=
  ⟨{ run with tt := { run.tt with levelAt := put run.tt.levelAt 0 (some (10 ^ 12 - 7)) } }, true, false, (false, false), by decide +kernel⟩
theorem witness_EncoderCountsStepTheDivider_4 : ∃ (s : State) (a : Bool) (b : Bool) (l : Bool × Bool) (t : _), s.regsWf = true ∧ domOpen 17 s = true ∧ rdB TT_CTRL.ENABLE s = true ∧ filtered a b s = l ∧ a ≠ s.tt.encA ∧ s.tt.levelAt[PressIn.encA.idx] = some t :=
  ⟨{ run with tt := { run.tt with levelAt := put run.tt.levelAt 0 (some (10 ^ 12 - 7)) } }, true, false, (false, false), 10 ^ 12 - 7, by decide +kernel⟩
theorem witness_EncoderCountsStepTheDivider_5 : ∃ (s : State) (a : Bool) (b : Bool) (l : Bool × Bool) (t : _), s.regsWf = true ∧ domOpen 17 s = true ∧ rdB TT_CTRL.ENABLE s = true ∧ filtered a b s = l ∧ b ≠ s.tt.encB ∧ s.tt.levelAt[PressIn.encB.idx] = some t :=
  ⟨{ run with tt := { run.tt with levelAt := put run.tt.levelAt 1 (some (10 ^ 12 - 7)) } }, false, true, (false, false), 10 ^ 12 - 7, by decide +kernel⟩
theorem witness_EncoderCountsStepTheDivider_6 : ∃ (s : State) (a : Bool) (b : Bool) (l : Bool × Bool), s.regsWf = true ∧ domOpen 17 s = true ∧ rdB TT_CTRL.ENABLE s = true ∧ filtered a b s = l ∧ l.1 ≠ s.tt.encA :=
  ⟨run, true, false, (true, false), by decide +kernel⟩
theorem witness_EncoderCountsStepTheDivider_7 : ∃ (s : State) (a : Bool) (b : Bool) (l : Bool × Bool), s.regsWf = true ∧ domOpen 17 s = true ∧ rdB TT_CTRL.ENABLE s = true ∧ filtered a b s = l ∧ l.2 ≠ s.tt.encB :=
  ⟨run, false, true, (false, true), by decide +kernel⟩
theorem witness_ForwardBoundaryCountsOneLine_0 : ∃ (s : State) (a : Bool) (b : Bool) (f : Bool) (l : Bool × Bool), s.regsWf = true ∧ domOpen 17 s = true ∧ rdB TT_CTRL.ENABLE s = true ∧ ((ttState s = 1 ∨ ttState s = 2)) ∧ filtered a b s = l ∧ decodeEdge (rd TT_ENC_CFG.MODE s) s.tt.encA s.tt.encB l.1 l.2 = some (some f) ∧ f ≠ rdB TT_ENC_CFG.INV_DIR s ∧ 0x1000000 ≤ s.tt.acc + rd TT_STEP.STEP s :=
  ⟨{ wrs [(TT_STEP.STEP, 0x1000000), (TT_LINE.LINE, 2^48-1)] run with tt := { run.tt with lastB := some 7 } }, true, false, true, (true, false), by decide +kernel⟩
theorem witness_MotionStatesFollowTheirCommands_0 : ∃ (s : State), s.regsWf = true ∧ s.rweWf = true ∧ s.tt.stopRef + us (rd TT_STOP_TO.TIME s) ≤ s.now ∧ ((ttState s = 1 ∨ ttState s = 2 ∨ ttState s = 4 ∨ ttState s = 5)) :=
  ⟨run, by decide +kernel⟩
theorem witness_MotionStatesFollowTheirCommands_1 : ∃ (s : State), s.regsWf = true ∧ s.rweWf = true ∧ s.tt.stopRef + us (rd TT_STOP_TO.TIME s) ≤ s.now ∧ ttState s = 6 :=
  ⟨wr TT_STATUS.STATE 6 run, by decide +kernel⟩
theorem witness_MotionStatesFollowTheirCommands_2 : ∃ (s : State), s.regsWf = true ∧ s.rweWf = true ∧ s.served 0x100000 false ∧ rdB TT_CTRL.ENABLE s = false :=
  ⟨wr TT_LINE_SET.LINE 77 up, by unfold State.served; decide +kernel⟩
theorem witness_MotionStatesFollowTheirCommands_3 : ∃ (s : State), s.regsWf = true ∧ s.rweWf = true ∧ s.served 0x100000 false ∧ rdB TT_CTRL.ENABLE s = true ∧ rd TT_BACK.LINES s ≠ 0 :=
  ⟨wr TT_BACK.LINES 7 busy, by unfold State.served; decide +kernel⟩
theorem witness_MotionStatesFollowTheirCommands_4 : ∃ (s : State), s.regsWf = true ∧ s.rweWf = true ∧ s.served 0x100000 false ∧ rdB TT_CTRL.ENABLE s = false :=
  ⟨wr TT_LINE_SET.LINE 77 up, by unfold State.served; decide +kernel⟩
theorem witness_MotionStatesFollowTheirCommands_5 : ∃ (s : State), s.regsWf = true ∧ s.rweWf = true ∧ s.served 0x100000 false ∧ rdB TT_CTRL.ENABLE s = true ∧ rd TT_BACK.LINES s = 0 ∧ withheld s = false :=
  ⟨run, by unfold State.served; decide +kernel⟩
theorem witness_MotionStatesFollowTheirCommands_6 : ∃ (s : State), s.regsWf = true ∧ s.rweWf = true ∧ s.served 0x100000 false ∧ rdB TT_CTRL.ENABLE s = false :=
  ⟨up, by unfold State.served; decide +kernel⟩
theorem witness_MotionStatesFollowTheirCommands_7 : ∃ (s : State), s.regsWf = true ∧ s.rweWf = true ∧ s.served 0x100000 false ∧ rdB TT_CTRL.ENABLE s = true :=
  ⟨run, by unfold State.served; decide +kernel⟩
theorem witness_MotionStatesFollowTheirCommands_8 : ∃ (s : State), s.regsWf = true ∧ s.rweWf = true ∧ s.served 0x100000 false ∧ rdB TT_CTRL.ENABLE s = true :=
  ⟨run, by unfold State.served; decide +kernel⟩
theorem witness_MotionStatesFollowTheirCommands_9 : ∃ (s : State), s.regsWf = true ∧ s.rweWf = true ∧ s.served 0x100000 false ∧ ttState s = 6 :=
  ⟨wrs [(TT_STATUS.STATE, 6), (TT_BACK.LINES, 3)] run, by unfold State.served; decide +kernel⟩
theorem witness_MarksScheduleEpochs_0 : ∃ (s : State) (level : Bool), s.regsWf = true ∧ (inputHeld 1 .mark s = false ∨ level = s.tt.mark) :=
  ⟨{ run with tt := { run.tt with levelAt := put run.tt.levelAt 3 (some (10 ^ 12 - 7)) } }, true, by decide +kernel⟩
theorem witness_MarksScheduleEpochs_1 : ∃ (s : State) (t : _), s.regsWf = true ∧ s.tt.levelAt[PressIn.mark.idx] = some t :=
  ⟨{ run with tt := { run.tt with levelAt := put run.tt.levelAt 3 (some (10 ^ 12 - 7)) } }, 10 ^ 12 - 7, by decide +kernel⟩
theorem witness_MarksScheduleEpochs_2 : ∃ (s : State) (level : Bool), s.regsWf = true ∧ domOpen 17 s = true ∧ inputHeld 1 .mark s = true ∧ level ≠ s.tt.mark ∧ (level = rdB TT_MARK_CFG.POL s ∨ rd TT_MARK_CFG.SRC s = 1) :=
  ⟨wr TT_MARK_CFG.POL 1 run, true, by decide +kernel⟩
theorem witness_MarksScheduleEpochs_3 : ∃ (s : State) (level : Bool), s.regsWf = true ∧ domOpen 17 s = true ∧ inputHeld 1 .mark s = true ∧ level ≠ s.tt.mark ∧ rd TT_MARK_CFG.SRC s ≠ 1 ∧ level ≠ rdB TT_MARK_CFG.POL s ∧ ((ttState s = 1 ∨ ttState s = 2)) ∧ ((∀ m, s.tt.lastMark = some m → m + rd TT_MARK_WIN.GAP s ≤ ttLine s)) ∧ s.tt.epochs.length < 4 :=
  ⟨wr TT_MARK_OFS.LINES 20 { run with tt := { run.tt with epochs := [(5010,4990),(5030,5010)] } }, true, by decide +kernel⟩
theorem witness_MarksScheduleEpochs_4 : ∃ (s : State) (level : Bool), s.regsWf = true ∧ domOpen 17 s = true ∧ inputHeld 1 .mark s = true ∧ level ≠ s.tt.mark ∧ rd TT_MARK_CFG.SRC s ≠ 1 ∧ level ≠ rdB TT_MARK_CFG.POL s ∧ ((ttState s = 1 ∨ ttState s = 2)) ∧ ((∀ m, s.tt.lastMark = some m → m + rd TT_MARK_WIN.GAP s ≤ ttLine s)) ∧ 4 ≤ s.tt.epochs.length :=
  ⟨{ run with tt := { run.tt with epochs := [(1,1),(2,2),(3,3),(4,4)] } }, true, by decide +kernel⟩
theorem witness_MarksScheduleEpochs_5 : ∃ (s : State) (level : Bool) (m : _), s.regsWf = true ∧ domOpen 17 s = true ∧ inputHeld 1 .mark s = true ∧ level ≠ s.tt.mark ∧ rd TT_MARK_CFG.SRC s ≠ 1 ∧ level ≠ rdB TT_MARK_CFG.POL s ∧ ((ttState s = 1 ∨ ttState s = 2)) ∧ s.tt.lastMark = some m ∧ ttLine s < m + rd TT_MARK_WIN.GAP s :=
  ⟨wr TT_MARK_WIN.GAP 100 { run with tt := { run.tt with lastMark := some 4999 } }, true, 4999, by decide +kernel⟩
theorem witness_MarksScheduleEpochs_6 : ∃ (s : State) (m : _), s.regsWf = true ∧ m = s.tt.enLine + s.tt.synthK * rd TT_SHEET_LEN.LINES s ∧ rd TT_MARK_CFG.SRC s = 1 ∧ rdB TT_CTRL.ENABLE s = true ∧ rd TT_SHEET_LEN.LINES s ≠ 0 ∧ m ≤ ttLine s ∧ s.tt.epochs.length < 4 :=
  ⟨wrs [(TT_MARK_CFG.SRC, 1), (TT_SHEET_LEN.LINES, 900)] { run with tt := { run.tt with enLine := 3000, synthK := 2 } }, 4800, by decide +kernel⟩
theorem witness_MarksScheduleEpochs_7 : ∃ (s : State) (m : _), s.regsWf = true ∧ s.tt.epochMark = some m ∧ rd TT_MARK_CFG.SRC s = 2 ∧ rdB TT_CTRL.ENABLE s = true ∧ rd TT_SHEET_LEN.LINES s ≠ 0 ∧ m + rd TT_SHEET_LEN.LINES s + rd TT_MARK_WIN.WIN s < ttLine s ∧ s.tt.epochs.length < 4 :=
  ⟨wrs [(TT_MARK_CFG.SRC, 2), (TT_SHEET_LEN.LINES, 900)] { run with tt := { run.tt with epochMark := some 3000 } }, 3000, by decide +kernel⟩
theorem witness_EpochOpensAtItsLine_0 : ∃ (s : State) (e : Nat × Nat) (r : List (Nat × Nat)), s.regsWf = true ∧ s.rweWf = true ∧ s.tt.epochs = e :: r ∧ e.1 ≤ ttLine s ∧ ttCounts s = true :=
  ⟨{ run with rwe := [⟨0x100040, 0, 33, 5, false⟩], tt := { run.tt with epochs := [(4999, 4990), (5100, 5000)] } }, (4999, 4990), [(5100, 5000)], by decide +kernel⟩
theorem witness_IndexPulseIsChecked_0 : ∃ (s : State), s.regsWf = true ∧ rdB TT_ENC_CFG.Z_EN s = true ∧ rdB TT_CTRL.ENABLE s = true ∧ inputHeld 2 .encZ s = false :=
  ⟨wr TT_ENC_CFG.Z_EN 1 { run with tt := { run.tt with levelAt := put run.tt.levelAt 2 (some (10 ^ 12 - 15)) } }, by decide +kernel⟩
theorem witness_IndexPulseIsChecked_1 : ∃ (s : State) (t : _), s.regsWf = true ∧ rdB TT_ENC_CFG.Z_EN s = true ∧ rdB TT_CTRL.ENABLE s = true ∧ s.tt.levelAt[PressIn.encZ.idx] = some t :=
  ⟨wr TT_ENC_CFG.Z_EN 1 { run with tt := { run.tt with levelAt := put run.tt.levelAt 2 (some (10 ^ 12 - 15)) } }, 10 ^ 12 - 15, by decide +kernel⟩
theorem witness_IndexPulseIsChecked_2 : ∃ (s : State), s.regsWf = true ∧ rdB TT_ENC_CFG.Z_EN s = true ∧ rdB TT_CTRL.ENABLE s = true ∧ domOpen 17 s = true ∧ inputHeld 2 .encZ s = true :=
  ⟨wrs [(TT_ENC_CFG.Z_EN, 1), (TT_STATUS.Z_LOST, 1), (TT_Z_CFG.COUNTS, 100), (TT_Z_CFG.TOL, 3)] { run with tt := { run.tt with zSeen := true, zNet := -104 } }, by decide +kernel⟩
theorem witness_IndexPulseIsChecked_3 : ∃ (s : State), s.regsWf = true ∧ rdB TT_ENC_CFG.Z_EN s = true ∧ rdB TT_CTRL.ENABLE s = true ∧ s.tt.zSeen = true ∧ rdB TT_STATUS.Z_LOST s = false ∧ 3 * rd TT_Z_CFG.COUNTS s ≤ 2 * s.tt.zNet.natAbs :=
  ⟨wrs [(TT_ENC_CFG.Z_EN, 1), (TT_Z_CFG.COUNTS, 100), (TT_Z_CFG.TOL, 3)] { run with tt := { run.tt with zSeen := true, zNet := -150 } }, by decide +kernel⟩
theorem witness_SignalNoneAndSliceSlotsFire_0 : ∃ (s : State) (k : Slot), s.regsWf = true ∧ slotFires k [0, 5, 6, 7] s = true :=
  ⟨due 5 0 busy, 2, by decide +kernel⟩
theorem witness_SignalNoneAndSliceSlotsFire_1 : ∃ (s : State) (k : Slot), s.regsWf = true ∧ slotFires k [4] s = true ∧ domOn 20 s = true :=
  ⟨due 4 3 busy, 2, by decide +kernel⟩
theorem witness_SignalNoneAndSliceSlotsFire_2 : ∃ (s : State) (k : Slot) (c : _) (m : _), s.regsWf = true ∧ slotFires k [3] s = true ∧ ctxOf (rd (TT_SLOT_ACT.CTX k.val) s) = some c ∧ resident c (slotDisarm k s) = true ∧ (cx c s).switchTo = none ∧ nextMember c (raise 31 (slotDisarm k s)) = some m :=
  ⟨modCx 1 (fun c => { c with order := 2, job := some job }) (wrs [(GL_CTX_STATUS.STATE 2, 3), (GL_CTX_STATUS.PARTITION 2, 1)] (due 3 0 busy)), 2, 0, 1, by decide +kernel⟩
theorem witness_ReleaseAndDeadlineSlotsJudgeRows_0 : ∃ (s : State) (k : Slot), slotFires k [1] s = false :=
  ⟨due 2 2 busy, 2, by decide +kernel⟩
theorem witness_ReleaseAndDeadlineSlotsJudgeRows_1 : ∃ (s : State) (k : Slot), slotFires k [2] s = false :=
  ⟨due 1 2 busy, 2, by decide +kernel⟩
theorem witness_ReleaseAndDeadlineSlotsJudgeRows_2 : ∃ (s : State) (k : Slot) (c : Ctx) (j : JobSt) (r : Nat), s.regsWf = true ∧ ctxOf (rd (TT_SLOT_ACT.CTX k.val) s) = some c ∧ (cx c s).job = some j ∧ r = argRow j (rd (TT_SLOT_ACT.ARG k.val) s) ∧ slotFires k [1] s = true ∧ cxState c s = 3 ∧ j.running = true ∧ ttState s ≠ 6 ∧ rowsHeld c s < 4 ∧ j.tandem = false :=
  ⟨due 1 3 busy, 2, 0, job, 3, by decide +kernel⟩
theorem witness_ReleaseAndDeadlineSlotsJudgeRows_3 : ∃ (s : State) (k : Slot) (c : Ctx) (j : JobSt) (r : Nat), s.regsWf = true ∧ ctxOf (rd (TT_SLOT_ACT.CTX k.val) s) = some c ∧ (cx c s).job = some j ∧ r = argRow j (rd (TT_SLOT_ACT.ARG k.val) s) ∧ slotFires k [1] s = true ∧ cxState c s = 3 ∧ j.running = true ∧ ttState s = 6 ∧ j.tandem = false :=
  ⟨wr TT_STATUS.STATE 6 (due 1 3 busy), 2, 0, job, 3, by decide +kernel⟩
theorem witness_ReleaseAndDeadlineSlotsJudgeRows_4 : ∃ (s : State) (k : Slot) (c : Ctx) (j : JobSt) (r : Nat) (x : _), s.regsWf = true ∧ ctxOf (rd (TT_SLOT_ACT.CTX k.val) s) = some c ∧ (cx c s).job = some j ∧ r = argRow j (rd (TT_SLOT_ACT.ARG k.val) s) ∧ slotFires k [2] s = true ∧ j.rows.find? (fun y => y.row == r) = some x :=
  ⟨due 2 2 busy, 2, 0, job, 2, row 2, by decide +kernel⟩
theorem witness_ReleaseAndDeadlineSlotsJudgeRows_5 : ∃ (s : State) (c : Ctx) (r : Nat) (x : RowSt), s.regsWf = true ∧ s.tt.dueRows = [(c.val, r)] ∧ rowFind c r s = some x :=
  ⟨{ busy with tt := { busy.tt with dueRows := [(0, 2)] } }, 0, 2, row 2, by decide +kernel⟩
theorem witness_ReleaseAndDeadlineSlotsJudgeRows_6 : ∃ (s : State) (c : Ctx) (r : Nat) (x : RowSt), s.regsWf = true ∧ s.tt.dueRows = [(c.val, r)] ∧ rowFind c r s = some x :=
  ⟨{ busy with tt := { busy.tt with dueRows := [(0, 2)] } }, 0, 2, row 2, by decide +kernel⟩
theorem witness_ReleaseAndDeadlineSlotsJudgeRows_7 : ∃ (s : State) (c : Ctx) (r : Nat) (x : RowSt), s.regsWf = true ∧ s.tt.dueRows = [(c.val, r)] ∧ rowFind c r s = some x :=
  ⟨{ busy with tt := { busy.tt with dueRows := [(0, 2)] } }, 0, 2, row 2, by decide +kernel⟩
theorem witness_ReleaseAndDeadlineSlotsJudgeRows_8 : ∃ (s : State) (c : Ctx) (r : Nat) (x : RowSt), s.regsWf = true ∧ s.tt.dueRows = [(c.val, r)] ∧ rowFind c r s = some x ∧ x.posted = true :=
  ⟨(let b := modCx 0 (fun c => { c with job := some { job with rows := [{ row 2 with posted := true }] } }) busy; { b with tt := { b.tt with dueRows := [(0, 2)] } }), 0, 2, { row 2 with posted := true }, by decide +kernel⟩
theorem witness_EntriesBeginOnTheirCoaches_0 : ∃ (s : State) (c : Coach) (n : Ctx) (i : Fin 16) (e : NextEnt), s.regsWf = true ∧ readyEntry c s = some (n, i.val, e) ∧ stKind (cx n s).image e.ent.stage ≠ 2 :=
  ⟨works (img 0 []), 0, 0, 0, ⟨false, 0, 2, ⟨0, 0, 0, 10, 0⟩, 2, 10⟩, by decide +kernel⟩
theorem witness_EntriesBeginOnTheirCoaches_1 : ∃ (s : State) (c : Coach) (n : Ctx) (i : Fin 16) (e : NextEnt) (ready : _) (b : _), s.regsWf = true ∧ gigReady c s = some (n, i.val, e, ready) ∧ s.gig.run = none ∧ domOpen 16 s = true ∧ ((e.ref = true → gigBehind c ready s = false)) ∧ gigFirst ready (s.gig.beginAt + s.gig.len) (slotEnt (cx n s).image e.ent.slot).len (foreignSlots n s) = some b ∧ b ≤ arithNow s :=
  ⟨works (img 2 []), 0, 0, 0, ⟨false, 0, 2, ⟨0, 0, 0, 10, 0⟩, 2, 10⟩, 10, 10, by decide +kernel⟩
theorem witness_EntriesBeginOnTheirCoaches_2 : ∃ (ready : Nat) (free : Nat) (len : Nat) (b : Nat) (slots : List (Nat × Option Nat)), gigFirst ready free len slots = some b :=
  ⟨5, 9, 4, 40, [(12, some 40), (100, none)], by decide +kernel⟩
theorem witness_GigSlotsEndAndPagesAreScrubbed_0 : ∃ (s : State) (c : Coach) (r : RunSt) (ecc : EccObs), s.regsWf = true ∧ s.gig.run = some c ∧ (co c s).run = some r ∧ s.gig.beginAt + s.gig.len ≤ arithNow s ∧ ((ecc = .clean ∨ ∃ loc k, ecc = .corrected loc k)) ∧ rdB GG_CFG.SAT_FAULT s = false ∧ rdB GG_CFG.NAN_FAULT s = false :=
  ⟨{ runs entry (img 2 []) with gig := { GigSt.init with run := some 0, beginAt := 1499000, len := 500 } }, 0, entry, .corrected 5 2, by exact ⟨by decide +kernel, by decide +kernel, by decide +kernel, by decide +kernel, by first | exact .inl rfl | exact .inr ⟨_, _, rfl⟩, by decide +kernel, by decide +kernel⟩⟩
theorem witness_GigSlotsEndAndPagesAreScrubbed_1 : ∃ (s : State) (c : Coach) (r : RunSt) (word : Nat) (flip : Nat) (u : State), s.regsWf = true ∧ s.gig.run = some c ∧ (co c s).run = some r ∧ s.gig.beginAt + s.gig.len ≤ arithNow s ∧ exec (.gigSlotEnd .clean) (gigEccPut c (.uncorrected 5 word flip) s) = .next u :=
  ⟨{ runs entry (img 2 []) with gig := { GigSt.init with run := some 0, beginAt := 1499000, len := 500 } }, 0, entry, 3, 5, nextOf (exec (.gigSlotEnd .clean) (gigEccPut 0 (.uncorrected 5 3 5) { runs entry (img 2 []) with gig := { GigSt.init with run := some 0, beginAt := 1499000, len := 500 } })), by exact ⟨by decide +kernel, by decide +kernel, by decide +kernel, by decide +kernel, next_of (by decide +kernel)⟩⟩
theorem witness_GigSlotsEndAndPagesAreScrubbed_2 : ∃ (s : State) (n : Ctx) (x : Nat × Nat), s.regsWf = true ∧ s.gig.scrubs.find? (fun y => y.1 == cid n) = some x ∧ SMap.wf zeroByte s.gig.sram = true ∧ x.2 + ceilDiv (2 * (256 + 128 * ((List.finRange 64).filter (fun i => s.gig.pages[i] == cid n)).length)) 3 ≤ s.now :=
  ⟨{ up with gig := { GigSt.init with pages := put (put GigSt.init.pages 1 1) 2 5, sram := [(65536, 7), (131072, 9)], scrubs := [(1, 1400000), (5, 3)] } }, 0, (1, 1400000), by decide +kernel⟩
theorem witness_StagesRunToTheirEnds_0 : ∃ (s : State) (c : Coach) (r : RunSt), s.regsWf = true ∧ (co c s).run = some r ∧ coachState c s = 2 :=
  ⟨modCo 0 (fun x => { x with xfers := [{ xfer true 2 with issued := 2, doneAt := some 1499900 }] }) (runs entry (img 1 [(44, 1), (47, 416), (105, 1 + 3 * 256), (104, 200)])), 0, entry, by decide +kernel⟩
theorem witness_StagesRunToTheirEnds_1 : ∃ (s : State) (c : Coach) (r : RunSt) (e : Nat) (d : RunDesc) (z : RunWork), s.regsWf = true ∧ (co c s).run = some r ∧ syncSettle c (queueRoll c s) = s ∧ runEnded c s = some e ∧ ((∀ b, drainEnded c s = some b → e < b)) ∧ d = runDesc (cx r.ctx s).image r.stage r.runIdx ∧ runOk (cx r.ctx s).image d = true ∧ z = runCyclesOf (cx r.ctx s).image (rdB (CA_CFG.SAT_FAULT c.val) s) (runEnd (cx r.ctx s).image r - (r.runAt + r.step)) ⟨co c s, r, 0, 0⟩ ∧ z.run.fault = none :=
  ⟨(runs entry (img 0 [(49, 416), (50, 16)])), 0, entry, runEnd (img 0 [(49, 416), (50, 16)]) entry, runDesc (img 0 [(49, 416), (50, 16)]) 0 0, runCyclesOf (img 0 [(49, 416), (50, 16)]) false (runEnd (img 0 [(49, 416), (50, 16)]) entry) ⟨co 0 (runs entry (img 0 [(49, 416), (50, 16)])), entry, 0, 0⟩, by decide +kernel⟩
theorem witness_StagesRunToTheirEnds_2 : ∃ (s : State) (c : Coach) (r : RunSt) (e : _), s.regsWf = true ∧ (co c s).run = some r ∧ syncSettle c (queueRoll c s) = s ∧ runEnded c s = some e ∧ ((∀ b, drainEnded c s = some b → e < b)) ∧ r.step = 0 ∧ runOk (cx r.ctx s).image (runDesc (cx r.ctx s).image r.stage r.runIdx) = false :=
  ⟨runs entry (img 0 [(49, 416), (50, 16), (104, 0xFFFFFFFF)]), 0, entry, 0, by decide +kernel⟩
theorem witness_StagesRunToTheirEnds_3 : ∃ (s : State) (c : Coach) (r : RunSt) (u : State), s.regsWf = true ∧ (co c s).run = some r ∧ exec (.carriageRunEnd c .clean) s = .next u :=
  ⟨(runs entry (img 0 [(49, 416), (50, 16)])), 0, entry, nextOf (exec (.carriageRunEnd 0 .clean) (runs entry (img 0 [(49, 416), (50, 16)]))), by exact ⟨by decide +kernel, by decide +kernel, next_of (by decide +kernel)⟩⟩
theorem witness_StagesRunToTheirEnds_4 : ∃ (s : State) (c : Coach) (r : RunSt) (loc : Nat) (word : Nat) (flip : Nat) (u : State), s.regsWf = true ∧ (co c s).run = some r ∧ exec (.carriageRunEnd c .clean) (eccPut c (.uncorrected loc word flip) s) = .next u :=
  ⟨(runs entry (img 0 [(49, 416), (50, 16)])), 0, entry, 0, 3, 1, nextOf (exec (.carriageRunEnd 0 .clean) (eccPut 0 (.uncorrected 0 3 1) (runs entry (img 0 [(49, 416), (50, 16)])))), by exact ⟨by decide +kernel, by decide +kernel, next_of (by decide +kernel)⟩⟩
theorem witness_StagesRunToTheirEnds_5 : ∃ (s : State) (c : Coach) (r : RunSt) (mask : Nat) (bank : Nat) (idx : Nat) (rest : List (Nat × Nat × Nat)) (v : State), s.regsWf = true ∧ (co c s).run = some r ∧ syncSettle c (queueRoll c s) = s ∧ r.drains = (mask, bank, idx) :: rest ∧ r.drainAt + 256 ≤ drainCycle c s ∧ ((∀ e, runEnded c s = some e → r.drainAt + 256 ≤ e)) ∧ v = stallTo c (r.drainAt + 256) (runTo c (r.drainAt + 256) s) ∧ (co c v).run.bind (·.fault) = none ∧ rdB (CA_CFG.SAT_FAULT c.val) s = false ∧ rdB (CA_CFG.NAN_FAULT c.val) s = false :=
  ⟨runs { entry with drains := [(1, 0, 0), (2, 0, 0)], drainAt := 100, runIdx := 1 } (img 0 [(49, 416), (50, 16)]), 0, { entry with drains := [(1, 0, 0), (2, 0, 0)], drainAt := 100, runIdx := 1 }, 1, 0, 0, [(2, 0, 0)], stallTo 0 356 (runTo 0 356 (runs { entry with drains := [(1, 0, 0), (2, 0, 0)], drainAt := 100, runIdx := 1 } (img 0 [(49, 416), (50, 16)]))), by decide +kernel⟩
theorem witness_StagesRunToTheirEnds_6 : ∃ (s : State) (c : Coach) (r : RunSt) (u : State), s.regsWf = true ∧ (co c s).run = some r ∧ exec (.bankDrainEnd c ⟨.clean, []⟩) s = .next u :=
  ⟨runs { entry with drains := [(1, 0, 0), (2, 0, 0)], drainAt := 100, runIdx := 1 } (img 0 [(49, 416), (50, 16)]), 0, { entry with drains := [(1, 0, 0), (2, 0, 0)], drainAt := 100, runIdx := 1 }, nextOf (exec (.bankDrainEnd 0 ⟨.clean, []⟩) (runs { entry with drains := [(1, 0, 0), (2, 0, 0)], drainAt := 100, runIdx := 1 } (img 0 [(49, 416), (50, 16)]))), by exact ⟨by decide +kernel, by decide +kernel, next_of (by decide +kernel)⟩⟩
theorem witness_StagesRunToTheirEnds_7 : ∃ (s : State) (c : Coach) (r : RunSt), s.regsWf = true ∧ (co c s).run = some r ∧ r.index < 16 ∧ clashStop c (runFault c (coachSettle c s)) = s ∧ coachState c s = 2 ∧ stageOver c r s = true ∧ stKind (cx r.ctx s).image r.stage ≠ 3 ∧ stNFetch (cx r.ctx s).image r.stage = 0 ∧ stNWrite (cx r.ctx s).image r.stage = 0 ∧ ((stKind (cx r.ctx s).image r.stage = 1 → rdB (CA_CFG.SAT_FAULT c.val) s = false ∧ rdB (CA_CFG.NAN_FAULT c.val) s = false)) :=
  ⟨runs entry (img 2 []), 0, entry, by decide +kernel⟩
theorem witness_TransfersLeaveInBursts_0 : ∃ (s : State) (c : Coach) (n : Ctx) (x : Xfer) (id : Nat), s.regsWf = true ∧ (co c s).run = none ∧ (co c s).xfers = [x] ∧ x.issued < x.total ∧ x.tag < 256 ∧ x.data = [] ∧ ctxOf x.ctx = some n ∧ rdB (MP_FENCE.FENCING x.ctx) s = false ∧ rdB GL_STATUS.FENCED s = false ∧ domOpen 18 s = true ∧ domOpen c.val s = true ∧ rd (MP_KEY_STATE.SLOT n.val) s = 1 ∧ x.region ≠ 1 ∧ atStop c s = false ∧ scrubHeld x.ctx s = false ∧ x.total - x.issued ≤ (co c s).winLeft ∧ x.total - x.issued ≤ 16 ∧ ((x.write = true → queued c true s + (x.total - x.issued) ≤ 256)) ∧ ((x.write = false → queued c false s + (x.total - x.issued) ≤ 1024)) ∧ runBeats (fun j => xferAddr c n x j s) x.issued (x.total - x.issued) = x.total - x.issued ∧ overlaps x.write (xferAddr c n x x.issued s) (x.total - x.issued) s = false ∧ freeId (portOf (xferAddr c n x x.issued s)) x.write s = some id :=
  ⟨burst true, 0, 0, xfer true 3, 0, by decide +kernel⟩
theorem witness_HangsAndFailedScrubsAreTakenAtLevelCoach_0 : ∃ (s : State) (c : Coach), s.calm c.val ∧ hangDue c s = true ∧ ((∀ f, takenLevel c.val f s = f.level)) :=
  ⟨{ runs { entry with beginAt := 0 } (img 1 [(41, 10)]) with now := 10 ^ 12 + 10 ^ 8 }, 0, by unfold State.calm; exact ⟨by decide +kernel, by decide +kernel, fun f => rfl⟩⟩
theorem witness_HangsAndFailedScrubsAreTakenAtLevelCoach_1 : ∃ (s : State) (c : Coach), s.calm 16 ∧ s.gig.run = some c ∧ ttMoves s = true ∧ s.gig.len + 180000 ≤ movedSince s.gig.beginAt s :=
  ⟨{ runs entry (img 2 []) with now := 10 ^ 12 + 10 ^ 7, gig := { GigSt.init with run := some 0, beginAt := 1000, len := 500 } }, 0, by unfold State.calm; decide +kernel⟩
theorem witness_HangsAndFailedScrubsAreTakenAtLevelCoach_2 : ∃ (s : State), s.calm 16 ∧ s.gig.run = none ∧ domOpen 16 s = true :=
  ⟨works (img 2 []), by unfold State.calm; decide +kernel⟩
theorem witness_HangsAndFailedScrubsAreTakenAtLevelCoach_3 : ∃ (s : State) (c : Coach) (t0 : Nat), s.calm c.val ∧ (co c s).scrubAt = some t0 ∧ t0 + 5632 ≤ s.now ∧ ((∀ f, takenLevel c.val f s = f.level)) ∧ s.mp.held = [] ∧ s.noneWaits :=
  ⟨modCo 0 (fun x => { x with scrubAt := some 1000 }) (wrs [(CA_STATUS.STATE 0, 5)] up), 0, 1000, by unfold State.calm; exact ⟨by decide +kernel, by decide +kernel, by decide +kernel, fun f => rfl, by decide +kernel, by decide +kernel⟩⟩
theorem witness_HungUnitsAreTakenAtLevelBlock_0 : ∃ (s : State) (p : Port), s.calm 17 ∧ heldHung p.val s = true :=
  ⟨wr (MP_P_ORPHAN.HELD 3) 33 up, 3, by unfold State.calm; decide +kernel⟩
theorem witness_HungUnitsAreTakenAtLevelBlock_1 : ∃ (s : State), cmUp s = true ∧ s.flt.cmWdog = none :=
  ⟨up, by decide +kernel⟩
theorem witness_HungUnitsAreTakenAtLevelBlock_2 : ∃ (s : State) (t0 : _), s.calm 19 ∧ cmUp s = true ∧ s.flt.cmWdog = some t0 ∧ t0 + ms 50 ≤ s.now :=
  ⟨{ up with flt := { up.flt with cmWdog := some 5 } }, 5, by unfold State.calm; decide +kernel⟩
theorem witness_HungUnitsAreTakenAtLevelBlock_3 : ∃ (s : State) (u : Fin 17) (t0 : Nat) (m : Nat), s.calm 20 ∧ s.flt.partAt[u] = some (t0, m) ∧ t0 + ms 1 ≤ s.now :=
  ⟨{ up with flt := { up.flt with partAt := put up.flt.partAt 4 (some (5, 16)) } }, 4, 5, 16, by unfold State.calm; decide +kernel⟩
theorem witness_HungUnitsAreTakenAtLevelBlock_4 : ∃ (s : State) (t0 : _), s.calm 20 ∧ s.flt.resetAt[16] = some t0 ∧ t0 + us 100 ≤ s.now :=
  ⟨{ up with flt := { up.flt with resetAt := put up.flt.resetAt 16 (some 5) } }, 5, by unfold State.calm; decide +kernel⟩
theorem witness_ReadResponsesAreDelivered_0 : ∃ (s : State) (p : Port) (r : MemRsp) (q : Tx), s.regsWf = true ∧ txFind p r.id s = some q ∧ q.write = false ∧ q.abandoned = false ∧ q.dest = .other ∧ r.status = 0 ∧ q.got + 1 = q.beats :=
  ⟨withTx [{ tx false .other with id := 8 }, { tx false .other with got := 3 }] (works []), 3, ⟨9, 0, List.replicate 64 5, false⟩, { tx false .other with got := 3 }, by decide +kernel⟩
theorem witness_ReadResponsesAreDelivered_1 : ∃ (s : State) (p : Port) (r : MemRsp) (q : Tx) (n : Ctx) (row : Nat) (line : Nat) (ofs : Nat) (x : RowSt), s.regsWf = true ∧ txFind p r.id s = some q ∧ q.write = false ∧ q.abandoned = false ∧ q.dest = .stamp row line ofs ∧ ctxOf q.ctx = some n ∧ r.status = 0 ∧ q.zero = false ∧ q.got + 1 < q.beats ∧ regionXts q.region (rdB (GL_CTX_STATUS.CONFIDENTIAL q.ctx) s) = false ∧ rowFind n row s = some x ∧ x.mismatch = false :=
  ⟨withTx [tx false (.stamp 2 77 8)] (works []), 3, ⟨9, 0, List.replicate 64 5, false⟩, tx false (.stamp 2 77 8), 0, 2, 77, 8, row 2, by decide +kernel⟩
theorem witness_ReadResponsesAreDelivered_2 : ∃ (s : State) (p : Port) (r : MemRsp) (q : Tx) (c : Coach) (tag : Nat) (n : Ctx) (x : Xfer), s.regsWf = true ∧ txFind p r.id s = some q ∧ q.write = false ∧ q.abandoned = false ∧ q.dest = .coach c.val tag ∧ r.status = 0 ∧ q.zero = false ∧ q.got + 1 < q.beats ∧ domOpen c.val s = true ∧ coachCtxId c s = q.ctx ∧ ctxOf q.ctx = some n ∧ (co c s).xfers.find? (fun f => !f.write && f.tag == tag && f.ctx == q.ctx && f.arrived < f.total) = some x ∧ x.arrived + 1 < x.total ∧ tag < 512 ∧ (co c s).prefetch = [] ∧ (co c s).takenAt ≠ some s.now :=
  ⟨withTx [tx false (.coach 0 3)] (modCo 0 (fun x => { x with xfers := [{ xfer false 4 with arrived := 1 }] }) (works [])), 3, ⟨9, 0, List.replicate 64 5, false⟩, tx false (.coach 0 3), 0, 3, 0, { xfer false 4 with arrived := 1 }, by decide +kernel⟩
theorem witness_ReadResponsesAreDelivered_3 : ∃ (s : State) (p : Port) (r : MemRsp) (q : Tx) (c : Coach) (tag : Nat) (n : Ctx), s.regsWf = true ∧ txFind p r.id s = some q ∧ q.write = false ∧ q.abandoned = false ∧ q.dest = .coach c.val tag ∧ r.status = 0 ∧ q.zero = false ∧ q.got + 1 < q.beats ∧ domOpen c.val s = true ∧ coachCtxId c s = q.ctx ∧ ctxOf q.ctx = some n ∧ (((co c s).prefetch ≠ [] ∨ (co c s).takenAt = some s.now)) :=
  ⟨withTx [tx false (.coach 0 3)] (modCo 0 (fun x => { x with takenAt := some (10 ^ 12), xfers := [{ xfer false 4 with arrived := 1 }] }) (works [])), 3, ⟨9, 0, List.replicate 64 5, false⟩, tx false (.coach 0 3), 0, 3, 0, by decide +kernel⟩
theorem witness_ReadResponsesAreDelivered_4 : ∃ (s : State) (p : Port) (r : MemRsp) (q : Tx), s.regsWf = true ∧ txFind p r.id s = some q ∧ q.write = false ∧ q.abandoned = false ∧ q.dest = .other ∧ r.status ≠ 0 ∧ q.zero = false ∧ q.got + 1 < q.beats ∧ s.calm 17 ∧ rdB MP_ERR_INFO.VALID s = false :=
  ⟨withTx [tx false .other] up, 3, ⟨9, 2, [], false⟩, tx false .other, by unfold State.calm; decide +kernel⟩
theorem witness_WritesBeatsAndWindowsEnd_0 : ∃ (s : State) (p : Port) (id : Nat) (q : Tx), s.regsWf = true ∧ txFind p id s = some q ∧ q.write = true ∧ q.abandoned = false ∧ q.dest = .other ∧ q.region ≠ 1 :=
  ⟨withTx [tx true .other] up, 3, 9, tx true .other, by decide +kernel⟩
theorem witness_WritesBeatsAndWindowsEnd_1 : ∃ (s : State) (p : Port) (id : Nat) (q : Tx), s.regsWf = true ∧ txFind p id s = some q ∧ q.write = true ∧ q.abandoned = true :=
  ⟨wr (MP_P_ORPHAN.HELD 3) 4 (withTx [{ tx true .other with abandoned := true }] up), 3, 9, { tx true .other with abandoned := true }, by decide +kernel⟩
theorem witness_WritesBeatsAndWindowsEnd_2 : ∃ (s : State) (p : Port) (q : Tx), s.regsWf = true ∧ p.val < 8 ∧ s.mp.txs.find? (fun t => t.port == p.val && t.waiting != 0) = some q ∧ q.dest = .other :=
  ⟨withTx [tx true .other] up, 3, tx true .other, by decide +kernel⟩
theorem witness_WritesBeatsAndWindowsEnd_3 : ∃ (s : State) (x : Nat), s.regsWf = true ∧ x < 8 :=
  ⟨withTx [tx true .other] up, 3, by decide +kernel⟩
theorem witness_WritesBeatsAndWindowsEnd_4 : ∃ (s : State), s.regsWf = true :=
  ⟨withTx [tx true .other] up, by decide +kernel⟩
theorem witness_WritesBeatsAndWindowsEnd_5 : ∃ (s : State), s.regsWf = true :=
  ⟨modCo 0 (fun x => { x with begun := true, lastRes := 8 }) (works []), by decide +kernel⟩
theorem witness_WritesBeatsAndWindowsEnd_6 : ∃ (s : State), s.regsWf = true ∧ domOn 18 s = true ∧ s.mp.winAt + 1200 ≤ s.now :=
  ⟨modCo 0 (fun x => { x with begun := true, lastRes := 8 }) (works []), by decide +kernel⟩
theorem witness_FencesCompleteOrAbandon_0 : ∃ (s : State) (n : Ctx), s.regsWf = true ∧ cxState n s = 5 ∧ (cx n s).fenceAt.isSome = true ∧ txsOf (cid n) s = [] ∧ ((∀ x ∈ s.mp.inits, x.ctx ≠ cid n)) :=
  ⟨modCx 0 (fun c => { c with fenceAt := some 5 }) (wr (GL_CTX_STATUS.STATE 1) 5 (works [])), 0, by decide +kernel⟩
theorem witness_FencesCompleteOrAbandon_1 : ∃ (s : State) (n : Ctx) (t0 : _), s.regsWf = true ∧ cxState n s ≠ 5 ∧ (cx n s).fenceAt = some t0 ∧ t0 + us 50 ≤ s.now ∧ ((∀ x ∈ s.mp.txs, x.port < 8)) ∧ ((∀ q < 8, rd (MP_P_ORPHAN.HELD q) s + (s.mp.txs.filter (fun x => x.ctx == cid n && !x.abandoned)).length ≤ 32)) :=
  ⟨withTx [tx true .other, {tx false .other with ctx := 2}] (modCx 0 (fun c => { c with fenceAt := some 5 }) (wr (GL_CTX_STATUS.STATE 1) 4 (works []))), 0, 5, by decide +kernel⟩
theorem witness_SwitchesSaveScrubAndRestore_0 : ∃ (s : State) (c : Coach) (o : Ctx) (m : Ctx) (i : Nat) (pt : Nat × Nat × Nat), s.regsWf = true ∧ syncSettle c s = s ∧ coachCtxId c s = cid o ∧ coachIndex (partMask o s) c = i ∧ (cx o s).switchTo = some m.val ∧ coachState c s < 3 ∧ coachQuiet c s = true ∧ standsAt c o i s = some pt ∧ allCtx.find? (fun n => (cx n s).switchTo.isSome && bit (cx n s).moving c.val) = some o :=
  ⟨leaves, 0, 0, 1, 0, (0, 31, 0), by decide +kernel⟩
theorem witness_SwitchesSaveScrubAndRestore_1 : ∃ (s : State) (o : Ctx) (m : Ctx), s.regsWf = true ∧ (cx o s).switchTo = some m.val ∧ (cx o s).switchP.isSome = true ∧ coachesOf (partMask o s) ≠ [] ∧ ((∀ d ∈ coachesOf (partMask o s), coachState d s = 3 ∧ ∀ f ∈ (co d s).xfers, f.arrived = f.total)) :=
  ⟨wr (CA_STATUS.STATE 0) 3 (modCx 0 (fun c => { c with switchP := some 3 }) leaves), 0, 1, by decide +kernel⟩
theorem witness_SwitchesSaveScrubAndRestore_2 : ∃ (s : State) (c : Coach) (m : Ctx), s.regsWf = true ∧ incoming c s = some m ∧ coachState c s = 3 ∧ scrubHeld (cid m) s = false ∧ ((∀ f ∈ (co c s).xfers, f.arrived = f.total)) :=
  ⟨modCx 1 (fun c => { c with moving := 1, saves := [(0, saveOf 0 0 (0, 31, 0) leaves)] }) (shared (wr (CA_STATUS.STATE 0) 3 (works (img 1 [])))), 0, 1, by decide +kernel⟩
theorem witness_SwitchesSaveScrubAndRestore_3 : ∃ (s : State) (o : Ctx) (m : Ctx), s.regsWf = true ∧ (cx o s).sliceLen ≠ 0 ∧ (cx o s).sliceUnit = 1 ∧ resident o s = true ∧ (cx o s).switchTo = none ∧ 2 ≤ (liveMembers (partMask o s) s).length ∧ (cx o s).sliceAt + us (cx o s).sliceCut ≤ s.now ∧ nextMember o (raise 31 (disarmRow 3 o 0 s)) = some m :=
  ⟨modCx 0 (fun c => { c with sliceLen := 100, sliceUnit := 1, sliceAt := 5, sliceCut := 100 }) (shared (works (img 1 []))), 0, 1, by decide +kernel⟩
theorem witness_ScrubsPassAndRetiredContextsComeFree_0 : ∃ (s : State) (c : Coach) (t0 : Nat), s.regsWf = true ∧ (co c s).scrubAt = some t0 ∧ t0 + 5632 ≤ s.now ∧ s.flt.replay = none ∧ ((∀ m, cxState m s ≠ 6)) ∧ rdB (GL_FLT_STATE.RECOVERING c.val) s = false ∧ ((∀ m, (cx m s).moving = 0)) ∧ residentOn c s = none ∧ s.noneWaits ∧ ((s.mp.held = [] ∨ ∀ d, d ≠ c → (co d s).scrubAt = none)) :=
  ⟨modCo 0 (fun x => { x with scrubAt := some 5 }) (wrs [(CA_STATUS.STATE 0, 4)] up), 0, 5, by decide +kernel⟩
theorem witness_ScrubsPassAndRetiredContextsComeFree_1 : ∃ (s : State) (n : Ctx) (t0 : _), s.regsWf = true ∧ (cx n s).retireAt = some t0 ∧ 5 ≤ cxState n s ∧ t0 + 840 * (cx n s).retireN ≤ s.now :=
  ⟨modCx 0 (fun c => { c with order := 1, retireAt := some 5, retireN := 3 }) (wrs [(GL_CTX_STATUS.STATE 1, 7)] up), 0, 5, by decide +kernel⟩
theorem witness_ScrubsPassAndRetiredContextsComeFree_2 : ∃ (s : State) (n : Ctx), s.regsWf = true ∧ 5 ≤ cxState n s ∧ rd (GL_CTX_RETIRE.PEERS_PENDING (cid n)) s ≠ 0 ∧ rd (GL_CTX_RETIRE.RESENDS (cid n)) s < 3 ∧ (cx n s).retireSent + ms 10 ≤ s.now ∧ linkOn s = true :=
  ⟨{ modCx 0 (fun c => { c with order := 1, retireAt := some 5, retireN := 3 }) (wrs [(GL_CTX_STATUS.STATE 1, 6), (GL_CTX_RETIRE.PEERS_PENDING 1, 2), (GL_CTX_RETIRE.RESENDS 1, 2)] up) with pins := {up.pins with tandem := true}, sb := { up.sb with linkKey := [1] }, tl := { up.tl with linkKey := [1] } }, 0, by decide +kernel⟩
theorem witness_LedgerAbsorbsCompleteRows_0 : ∃ (s : State) (n : Ctx) (r : RowSt), s.regsWf = true ∧ (rowsOf n s).find? (fun x => !x.absorbed && !x.dropped) = some r ∧ withheld s = false ∧ domOpen 21 s = true ∧ r.recs.length = cfgColumns (cx n s).cfg ∧ cfgColumns (cx n s).cfg ≠ 0 ∧ cfgVariable (cx n s).cfg = false :=
  ⟨modCx 0 (fun c => { c with cfg := words [(1, 2)] 32, job := some { job with rows := [{ row 2 with recs := [⟨1, [7], []⟩, ⟨0, [8], []⟩] }] } }) (works []), 0, { row 2 with recs := [⟨1, [7], []⟩, ⟨0, [8], []⟩] }, by decide +kernel⟩
theorem witness_LedgerAbsorbsCompleteRows_1 : ∃ (s : State) (n : Ctx) (r : RowSt) (d : _), s.regsWf = true ∧ (rowsOf n s).find? (fun x => !x.absorbed && !x.dropped) = some r ∧ withheld s = false ∧ domOpen 21 s = true ∧ r.recs.length = cfgColumns (cx n s).cfg ∧ cfgColumns (cx n s).cfg ≠ 0 ∧ cfgVariable (cx n s).cfg = true ∧ rasterDigest n r s = some d :=
  ⟨modCx 0 (fun c => { c with cfg := words [(1, 0x101)] 32, job := some { job with rows := [{ row 2 with recs := [⟨0, [8], []⟩], refs := [⟨0, 0, 0, [1, 2]⟩] }] } }) (works (img 0 [(43, 1), (45, 464), (116, 3)])), 0, { row 2 with recs := [⟨0, [8], []⟩], refs := [⟨0, 0, 0, [1, 2]⟩] }, (rasterDigest 0 ({ row 2 with recs := [⟨0, [8], []⟩], refs := [⟨0, 0, 0, [1, 2]⟩] }) (modCx 0 (fun c => { c with cfg := words [(1, 0x101)] 32, job := some { job with rows := [{ row 2 with recs := [⟨0, [8], []⟩], refs := [⟨0, 0, 0, [1, 2]⟩] }] } }) (works (img 0 [(43, 1), (45, 464), (116, 3)])))).getD [], by decide +kernel⟩
theorem witness_LedgerAbsorbsCompleteRows_2 : ∃ (s : State) (n : Ctx) (r : RowSt), s.regsWf = true ∧ (rowsOf n s).find? (fun x => !x.absorbed && !x.dropped) = some r ∧ withheld s = false ∧ domOpen 21 s = true ∧ r.recs.length = cfgColumns (cx n s).cfg ∧ cfgColumns (cx n s).cfg ≠ 0 ∧ cfgVariable (cx n s).cfg = true ∧ rasterDigest n r s = none ∧ ((∀ x ∈ rowsOf n s, x.posted = true ∨ x.dropped = true ∨ x.absorbed = false)) :=
  ⟨modCx 0 (fun c => { c with cfg := words [(1, 0x101)] 32, job := some { job with rows := [{ row 2 with recs := [⟨0, [8], []⟩] }] } }) (works (img 0 [(43, 1), (45, 464), (116, 3)])), 0, { row 2 with recs := [⟨0, [8], []⟩] }, by decide +kernel⟩
theorem witness_LedgerAbsorbsCompleteRows_3 : ∃ (s : State) (n : Ctx) (r : RowSt), s.regsWf = true ∧ (rowsOf n s).find? (fun x => !x.absorbed && !x.dropped) = some r ∧ withheld s = false ∧ domOpen 21 s = true ∧ r.recs.length = cfgColumns (cx n s).cfg ∧ cfgColumns (cx n s).cfg ≠ 0 ∧ cfgVariable (cx n s).cfg = true ∧ rasterDigest n r s = none ∧ ((∀ x ∈ rowsOf n s, x.posted = true ∨ x.dropped = true ∨ x.absorbed = false)) :=
  ⟨modCx 0 (fun c => { c with cfg := words [(1, 0x101)] 32, job := some { job with rows := [{ row 2 with recs := [⟨0, [8], []⟩] }] } }) (works (img 0 [(43, 1), (45, 464), (116, 3)])), 0, { row 2 with recs := [⟨0, [8], []⟩] }, by decide +kernel⟩
theorem witness_LinkPortsTrainAndComeUp_0 : ∃ (s : State) (p : LinkPort), s.regsWf = true ∧ linkOn s = true ∧ portState p s ≠ 2 :=
  ⟨wr TL_STATUS.DN_STATE 3 chained, 1, by decide +kernel⟩
theorem witness_LinkPortsTrainAndComeUp_1 : ∃ (s : State) (p : LinkPort), s.regsWf = true ∧ linkOn s = true ∧ portState p s = 1 ∧ (lport p s).locked = false :=
  ⟨wr TL_STATUS.DN_STATE 1 chained, 1, by decide +kernel⟩
theorem witness_LinkPortsTrainAndComeUp_2 : ∃ (s : State) (p : LinkPort), s.regsWf = true ∧ linkOn s = true ∧ portState p s = 1 ∧ (lport p s).locked = true ∧ (lport p s).peerOk = false ∧ (lport p s).helloAt + us 50 ≤ s.now :=
  ⟨modPort 1 (fun x => { x with locked := true, helloAt := 5 }) (wr TL_STATUS.DN_STATE 1 chained), 1, by decide +kernel⟩
theorem witness_LinkPortsTrainAndComeUp_3 : ∃ (s : State) (p : LinkPort) (t0 : _), s.regsWf = true ∧ (lport p s).trainAt = some t0 ∧ linkOn s = true ∧ portState p s = 1 ∧ t0 + ms 2 ≤ s.now :=
  ⟨modPort 1 (fun x => { x with trainAt := some 5 }) (wr TL_STATUS.DN_STATE 1 chained), 1, 5, by decide +kernel⟩
theorem witness_LinkPortsTrainAndComeUp_4 : ∃ (s : State) (p : LinkPort) (t0 : _), s.regsWf = true ∧ (lport p s).downAt = some t0 ∧ linkOn s = true ∧ portState p s = 0 ∧ t0 + ms 10 ≤ s.now :=
  ⟨modPort 1 (fun x => { x with downAt := some 5 }) (wr TL_STATUS.DN_STATE 0 chained), 1, 5, by decide +kernel⟩
theorem witness_LinkPortsTrainAndComeUp_5 : ∃ (s : State) (p : LinkPort), s.regsWf = true ∧ linkOn s = true ∧ portState p s = 2 ∧ tandemJobs s = [] :=
  ⟨chained, 1, by decide +kernel⟩
theorem witness_LinkPortsTrainAndComeUp_6 : ∃ (s : State) (p : LinkPort) (f : _) (m : _), s.regsWf = true ∧ s.takes p 0x01 f ∧ (lport p s).locked = true ∧ frPlain f (helloKey s) = some m ∧ wordN m 2 ≠ p.val :=
  ⟨modPort 1 (fun x => { x with locked := true, trainAt := some 5 }) (wr TL_STATUS.DN_STATE 1 chained), 1, frame (helloKey chained) 1 0 0 32 (leBytes 4 2 ++ List.replicate 28 0), leBytes 4 2 ++ List.replicate 28 0, by exact ⟨by decide +kernel, frame_takes (by decide +kernel) rfl, by decide +kernel, frame_plain (hello_of (by decide +kernel)) (by decide +kernel), by decide +kernel⟩⟩
theorem witness_LinkPortsTrainAndComeUp_7 : ∃ (s : State) (p : LinkPort) (f : _) (m : _), s.regsWf = true ∧ s.takes p 0x01 f ∧ (lport p s).locked = true ∧ frPlain f (helloKey s) = some m ∧ wordN m 2 = p.val :=
  ⟨modPort 1 (fun x => { x with locked := true, trainAt := some 5 }) (wr TL_STATUS.DN_STATE 1 chained), 1, frame (helloKey chained) 1 0 0 32 (leBytes 4 2 ++ List.replicate 4 0 ++ [1] ++ List.replicate 23 0), leBytes 4 2 ++ List.replicate 4 0 ++ [1] ++ List.replicate 23 0, by exact ⟨by decide +kernel, frame_takes (by decide +kernel) rfl, by decide +kernel, frame_plain (hello_of (by decide +kernel)) (by decide +kernel), by decide +kernel⟩⟩
theorem witness_LinkPortsTrainAndComeUp_8 : ∃ (s : State) (p : LinkPort) (f : _), s.regsWf = true ∧ s.takes p 0x01 f ∧ (lport p s).locked = true ∧ frPlain f (helloKey s) = none :=
  ⟨modPort 1 (fun x => { x with locked := true, trainAt := some 5 }) (wr TL_STATUS.DN_STATE 1 chained), 1, badFrame (helloKey chained) 1 0 0 32 (List.replicate 32 0), by exact ⟨by decide +kernel, bad_takes (by decide +kernel) rfl, by decide +kernel, bad_plain (hello_of (by decide +kernel)) (by decide +kernel)⟩⟩
theorem witness_LinkPortsTrainAndComeUp_9 : ∃ (s : State) (t0 : _), s.regsWf = true ∧ s.pins.lowAt = some t0 ∧ t0 + ms 10 ≤ s.now ∧ holdWanted s = true :=
  ⟨{ wr TL_CFG.JOINED 1 chained with pins := { chained.pins with lowAt := some 5 } }, 5, by decide +kernel⟩
theorem witness_LinkPortsTrainAndComeUp_10 : ∃ (s : State) (t0 : _), s.regsWf = true ∧ s.pins.lowAt = some t0 ∧ t0 + ms 10 ≤ s.now ∧ holdWanted s = false ∧ s.pins.hold = false :=
  ⟨{ chained with pins := { chained.pins with lowAt := some 5 } }, 5, by decide +kernel⟩
theorem witness_DiscoveryRecordsTheChain_0 : ∃ (s : State) (p : LinkPort) (f : LinkFrame) (m : _), s.regsWf = true ∧ s.takes p 0x03 f ∧ frPlain f (helloKey s) = some m ∧ ¬(p.val = 0 ∧ linkPos s = 0) ∧ argCause (frArg f) = 0 :=
  ⟨chained, 1, frame (helloKey chained) 3 0 0 24 (List.replicate 16 7 ++ [3,0,0,0,9,0,0,0]), List.replicate 16 7 ++ [3,0,0,0,9,0,0,0], by exact ⟨by decide +kernel, frame_takes (by decide +kernel) rfl, frame_plain (hello_of (by decide +kernel)) (by decide +kernel), by decide +kernel, by decide +kernel⟩⟩
theorem witness_DiscoveryRecordsTheChain_1 : ∃ (s : State) (p : LinkPort) (f : LinkFrame), s.regsWf = true ∧ s.takes p 0x03 f ∧ frPlain f (helloKey s) = none :=
  ⟨chained, 1, badFrame (helloKey chained) 3 0 0 24 (List.replicate 16 7 ++ [3,0,0,0,9,0,0,0]), by exact ⟨by decide +kernel, bad_takes (by decide +kernel) rfl, bad_plain (hello_of (by decide +kernel)) (by decide +kernel)⟩⟩
theorem witness_DiscoveryRecordsTheChain_2 : ∃ (s : State) (f : LinkFrame) (m : _), s.regsWf = true ∧ s.takes 0 0x02 f ∧ frPlain f (helloKey s) = some m ∧ linkPos s ≠ 0 ∧ (tableEntries m).length < 64 ∧ argCause (frArg f) = 0 ∧ ((∀ e, (tableEntries m).getLast? = some e → e.1 < linkPos s)) ∧ portState 1 s ≠ 2 :=
  ⟨wr TL_STATUS.DN_STATE 1 chained, frame (helloKey chained) 2 0 0 24 (List.replicate 16 7 ++ [0,0,0,0,9,0,0,0]), List.replicate 16 7 ++ [0,0,0,0,9,0,0,0], by exact ⟨by decide +kernel, frame_takes (by decide +kernel) rfl, frame_plain (hello_of (by decide +kernel)) (by decide +kernel), by decide +kernel, by decide +kernel, by decide +kernel, by decide +kernel, by decide +kernel⟩⟩
theorem witness_DiscoveryRecordsTheChain_3 : ∃ (s : State) (p : LinkPort) (f : LinkFrame) (m : _) (u : _), s.regsWf = true ∧ s.takes p 0x08 f ∧ sessionRx p f s = (some m, u) ∧ frArg f = 1 ∧ u.regsWf = true ∧ linkOn u = true ∧ linkPos u = 0 ∧ portState 1 u = 2 :=
  ⟨{ chained with pins := { chained.pins with pos := 0 } }, 1, frame (List.replicate 32 2) 8 0 1 16 (List.replicate 16 0), List.replicate 16 0, rxed 1 (frame (List.replicate 32 2) 8 0 1 16 (List.replicate 16 0)) { chained with pins := { chained.pins with pos := 0 } }, by exact ⟨by decide +kernel, frame_takes (by decide +kernel) rfl, frame_rx (by decide +kernel) (by decide +kernel), by decide +kernel, by decide +kernel, by decide +kernel, by decide +kernel, by decide +kernel⟩⟩
theorem witness_DiscoveryRecordsTheChain_4 : ∃ (s : State) (p : LinkPort) (f : LinkFrame) (m : _) (u : _), s.regsWf = true ∧ s.takes p 0x08 f ∧ sessionRx p f s = (some m, u) ∧ frArg f = 2 ∧ u.regsWf = true ∧ u.tt.opened ≠ [] ∧ ttLine u ≤ rd TT_EPOCH_LINE.LINE u + 16 :=
  ⟨wrs [(TT_EPOCH_LINE.LINE, 4990), (TT_EPOCH.NUMBER, 11)] { chained with tt := { chained.tt with opened := [(11, 4990)] } }, 1, frame (List.replicate 32 2) 8 0 2 16 (leBytes 4 9 ++ leBytes 8 777 ++ leBytes 4 0), leBytes 4 9 ++ leBytes 8 777 ++ leBytes 4 0, rxed 1 (frame (List.replicate 32 2) 8 0 2 16 (leBytes 4 9 ++ leBytes 8 777 ++ leBytes 4 0)) (wrs [(TT_EPOCH_LINE.LINE, 4990), (TT_EPOCH.NUMBER, 11)] { chained with tt := { chained.tt with opened := [(11, 4990)] } }), by exact ⟨by decide +kernel, frame_takes (by decide +kernel) rfl, frame_rx (by decide +kernel) (by decide +kernel), by decide +kernel, by decide +kernel, by decide +kernel, by decide +kernel⟩⟩
theorem witness_DiscoveryRecordsTheChain_5 : ∃ (s : State) (p : LinkPort) (f : LinkFrame) (m : _) (u : _), s.regsWf = true ∧ s.takes p 0x08 f ∧ sessionRx p f s = (some m, u) ∧ frArg f = 2 ∧ u.regsWf = true ∧ ((u.tt.opened = [] ∨ rd TT_EPOCH_LINE.LINE u + 16 < ttLine u)) :=
  ⟨chained, 1, frame (List.replicate 32 2) 8 0 2 16 (leBytes 4 9 ++ leBytes 8 777 ++ leBytes 4 0), leBytes 4 9 ++ leBytes 8 777 ++ leBytes 4 0, rxed 1 (frame (List.replicate 32 2) 8 0 2 16 (leBytes 4 9 ++ leBytes 8 777 ++ leBytes 4 0)) chained, by exact ⟨by decide +kernel, frame_takes (by decide +kernel) rfl, frame_rx (by decide +kernel) (by decide +kernel), by decide +kernel, by decide +kernel, by decide +kernel⟩⟩
theorem witness_DiscoveryRecordsTheChain_6 : ∃ (s : State) (p : LinkPort) (t0 : _), s.regsWf = true ∧ linkOn s = true ∧ (lport p s).changedAt = some t0 ∧ t0 + ms 10 ≤ s.now ∧ tandemJobs s = [] :=
  ⟨modPort 1 (fun x => { x with changedAt := some 5 }) chained, 1, 5, by decide +kernel⟩
theorem witness_HaloStripsAndSummariesPass_0 : ∃ (s : State) (u : State) (p : LinkPort) (f : LinkFrame) (m : List Byte), s.regsWf = true ∧ u.regsWf = true ∧ s.takes p 0x10 f ∧ sessionRx p f s = (some m, u) ∧ tandemCtx (frCtx f) u = none :=
  ⟨chained, rxed 1 (frame (List.replicate 32 2) 0x10 1 3 13824 (List.replicate 13824 7)) chained, 1, frame (List.replicate 32 2) 0x10 1 3 13824 (List.replicate 13824 7), List.replicate 13824 7, by exact ⟨by decide +kernel, by decide +kernel, frame_takes (by decide +kernel) (List.length_replicate ..), frame_rx (by decide +kernel) (by decide +kernel), by decide +kernel⟩⟩
theorem witness_HaloStripsAndSummariesPass_1 : ∃ (s : State) (u : State) (p : LinkPort) (f : LinkFrame) (m : List Byte) (n : _) (j : _), s.regsWf = true ∧ u.regsWf = true ∧ s.takes p 0x10 f ∧ sessionRx p f s = (some m, u) ∧ tandemCtx (frCtx f) u = some n ∧ (cx n u).job = some j ∧ j.relRow - 1 ≤ bits (frArg f) 0 31 + (cfgHRows (cx n u).cfg - 2) ∧ domOn 18 u = true ∧ m.length = 13824 :=
  ⟨tj, rxed 1 (frame (List.replicate 32 2) 0x10 1 3 13824 (List.replicate 13824 7)) tj, 1, frame (List.replicate 32 2) 0x10 1 3 13824 (List.replicate 13824 7), List.replicate 13824 7, 0, { job with tandem := true }, by exact ⟨by decide +kernel, by decide +kernel, frame_takes (by decide +kernel) (List.length_replicate ..), frame_rx (by decide +kernel) (by decide +kernel), by decide +kernel, by decide +kernel, by decide +kernel, by decide +kernel, List.length_replicate ..⟩⟩
theorem witness_HaloStripsAndSummariesPass_2 : ∃ (s : State) (u : State) (m : List Byte) (n : _) (o : _) (id : _) (k : _) (a : _), s.regsWf = true ∧ u.regsWf = true ∧ u.mp.own = [o] ∧ o.cls = 2 ∧ o.write = true ∧ o.ctx = cid n ∧ o.region = 1 ∧ o.data = m ∧ rdB (MP_FENCE.FENCING (cid n)) u = false ∧ rdB GL_STATUS.FENCED u = false ∧ rd (MP_KEY_STATE.SLOT n.val) u ≠ 2 ∧ scrubHeld (cid n) u = false ∧ a = o.addr + 64 * o.done ∧ k = u.mp.linkLeft ∧ 0 < k ∧ k < o.beats - o.done ∧ k ≤ toBlockEnd a ∧ overlaps true a k u = false ∧ freeId (portOf a) true u = some id :=
  ⟨chained, { tj with mp := { tj.mp with linkLeft := 8, own := [⟨2, true, 1, 1, 0x4000, 216, 4, List.replicate 13824 7, 0, 3, .other⟩] } }, List.replicate 13824 7, 0, ⟨2, true, 1, 1, 0x4000, 216, 4, List.replicate 13824 7, 0, 3, .other⟩, 0, 8, 0x4100, by decide +kernel⟩
theorem witness_HaloStripsAndSummariesPass_3 : ∃ (s : State) (u : State) (n : Ctx) (q : Tx) (z : Port), s.regsWf = true ∧ u.regsWf = true ∧ txFind z q.id s = some q ∧ q.write = true ∧ q.abandoned = false ∧ q.dest = .other ∧ q.region = 1 ∧ q.ctx = cid n ∧ s.mp.own = [] ∧ s.mp.txs = [q] ∧ q.waiting = 0 :=
  ⟨{ withTx [{ tx true .other with region := 1, waiting := 0 }] chained with tl := { chained.tl with waits := [⟨1, 2, 0, 5, 2⟩, ⟨1, 3, 0, 5, 2⟩] } }, chained, 0, { tx true .other with region := 1, waiting := 0 }, 3, by decide +kernel⟩
theorem witness_HaloStripsAndSummariesPass_4 : ∃ (s : State) (u : State) (p : LinkPort) (n : Ctx) (row : Nat) (w : HaloWait), s.regsWf = true ∧ u.regsWf = true ∧ s.tl.waits.find? (fun w => w.ctx == cid n && w.row == row && w.side == p.val) = some w ∧ linkOn s = true ∧ w.at_ + us 100 * (w.reqs + 1) ≤ s.now ∧ w.reqs < 3 :=
  ⟨{ chained with tl := { chained.tl with waits := [⟨1, 3, 1, 5, 2⟩] } }, chained, 1, 0, 3, ⟨1, 3, 1, 5, 2⟩, by decide +kernel⟩
theorem witness_HaloStripsAndSummariesPass_5 : ∃ (s : State) (u : State) (p : LinkPort) (n : Ctx) (row : Nat) (w : HaloWait), s.regsWf = true ∧ u.regsWf = true ∧ s.tl.waits.find? (fun w => w.ctx == cid n && w.row == row && w.side == p.val) = some w ∧ linkOn s = true ∧ w.at_ + us 100 * (w.reqs + 1) ≤ s.now ∧ 3 ≤ w.reqs :=
  ⟨{ chained with tl := { chained.tl with waits := [⟨1, 3, 1, 5, 3⟩] } }, chained, 1, 0, 3, ⟨1, 3, 1, 5, 3⟩, by decide +kernel⟩
theorem witness_HaloStripsAndSummariesPass_6 : ∃ (s : State) (u : State) (p : LinkPort) (f : LinkFrame) (m : List Byte) (x : _), s.regsWf = true ∧ u.regsWf = true ∧ s.takes p 0x08 f ∧ sessionRx p f s = (some m, u) ∧ frArg f = 3 ∧ u.tl.strips.find? (fun x => x.ctx == frCtx f && x.row % 2 ^ 31 == bits (wordN m 0) 0 31 && x.side == 1 - bits (wordN m 0) 31 1) = some x ∧ linkOn u = true ∧ u.tl.session ≠ [] ∧ rdB GL_STATUS.FENCED u = false ∧ portState (portTo (frSrc f) u) u = 2 ∧ scrubHeld x.ctx u = false :=
  ⟨strip, rxed 1 (frame (List.replicate 32 2) 8 1 3 16 (leBytes 4 3 ++ List.replicate 12 0)) strip, 1, frame (List.replicate 32 2) 8 1 3 16 (leBytes 4 3 ++ List.replicate 12 0), leBytes 4 3 ++ List.replicate 12 0, ⟨1, 3, 1, [7], 288⟩, by exact ⟨by decide +kernel, by decide +kernel, frame_takes (by decide +kernel) rfl, frame_rx (by decide +kernel) (by decide +kernel), by decide +kernel, by decide +kernel, by decide +kernel, by decide +kernel, by decide +kernel, by decide +kernel, by decide +kernel⟩⟩
theorem witness_HaloStripsAndSummariesPass_7 : ∃ (s : State) (u : State) (p : LinkPort) (f : LinkFrame) (m : List Byte), s.regsWf = true ∧ u.regsWf = true ∧ s.takes p 0x08 f ∧ sessionRx p f s = (some m, u) ∧ frArg f = 3 ∧ ((∀ x ∈ u.tl.strips, x.ctx ≠ frCtx f)) ∧ tandemCtx (frCtx f) u = none :=
  ⟨chained, rxed 1 (frame (List.replicate 32 2) 8 1 3 16 (leBytes 4 3 ++ List.replicate 12 0)) chained, 1, frame (List.replicate 32 2) 8 1 3 16 (leBytes 4 3 ++ List.replicate 12 0), leBytes 4 3 ++ List.replicate 12 0, by exact ⟨by decide +kernel, by decide +kernel, frame_takes (by decide +kernel) rfl, frame_rx (by decide +kernel) (by decide +kernel), by decide +kernel, by decide +kernel, by decide +kernel⟩⟩
theorem witness_HaloStripsAndSummariesPass_8 : ∃ (s : State) (u : State) (p : LinkPort) (f : LinkFrame) (m : List Byte), s.regsWf = true ∧ u.regsWf = true ∧ s.takes p 0x08 f ∧ sessionRx p f s = (some m, u) ∧ frArg f = 4 ∧ ((∀ x ∈ u.tl.sums, x.1 ≠ frCtx f)) ∧ tandemCtx (frCtx f) u = none :=
  ⟨chained, rxed 1 (frame (List.replicate 32 2) 8 1 4 16 (leBytes 4 3 ++ List.replicate 12 0)) chained, 1, frame (List.replicate 32 2) 8 1 4 16 (leBytes 4 3 ++ List.replicate 12 0), leBytes 4 3 ++ List.replicate 12 0, by exact ⟨by decide +kernel, by decide +kernel, frame_takes (by decide +kernel) rfl, frame_rx (by decide +kernel) (by decide +kernel), by decide +kernel, by decide +kernel, by decide +kernel⟩⟩
theorem witness_HaloStripsAndSummariesPass_9 : ∃ (s : State) (u : State) (p : LinkPort) (f : LinkFrame) (m : List Byte), s.regsWf = true ∧ u.regsWf = true ∧ s.takes p 0x11 f ∧ sessionRx p f s = (some m, u) ∧ tandemCtx (frCtx f) u = none :=
  ⟨chained, rxed 1 (frame (List.replicate 32 2) 0x11 1 3 32 (List.replicate 32 7)) chained, 1, frame (List.replicate 32 2) 0x11 1 3 32 (List.replicate 32 7), List.replicate 32 7, by exact ⟨by decide +kernel, by decide +kernel, frame_takes (by decide +kernel) rfl, frame_rx (by decide +kernel) (by decide +kernel), by decide +kernel⟩⟩
theorem witness_HaloStripsAndSummariesPass_10 : ∃ (s : State) (u : State) (p : LinkPort) (f : LinkFrame) (m : List Byte) (n : _), s.regsWf = true ∧ u.regsWf = true ∧ s.takes p 0x11 f ∧ sessionRx p f s = (some m, u) ∧ tandemCtx (frCtx f) u = some n ∧ withheld u = true :=
  ⟨wrs [(TT_STATUS.STATE, 4)] tj, rxed 1 (frame (List.replicate 32 2) 0x11 1 3 32 (List.replicate 32 7)) (wrs [(TT_STATUS.STATE, 4)] tj), 1, frame (List.replicate 32 2) 0x11 1 3 32 (List.replicate 32 7), List.replicate 32 7, 0, by exact ⟨by decide +kernel, by decide +kernel, frame_takes (by decide +kernel) rfl, frame_rx (by decide +kernel) (by decide +kernel), by decide +kernel, by decide +kernel⟩⟩
theorem witness_HaloStripsAndSummariesPass_11 : ∃ (s : State) (u : State) (n : Ctx) (w : SumWait), s.regsWf = true ∧ u.regsWf = true ∧ s.tl.sumWaits.find? (fun w => w.ctx == cid n && w.line + 256 * (w.reqs + 1) ≤ ttLine s) = some w ∧ linkOn s = true ∧ w.reqs < 3 :=
  ⟨{ tj with tl := { tj.tl with sumWaits := [⟨1, 5, 10, 2⟩] } }, chained, 0, ⟨1, 5, 10, 2⟩, by decide +kernel⟩
theorem witness_HaloStripsAndSummariesPass_12 : ∃ (s : State) (u : State) (n : Ctx) (w : SumWait), s.regsWf = true ∧ u.regsWf = true ∧ s.tl.sumWaits.find? (fun w => w.ctx == cid n && w.line + 256 * (w.reqs + 1) ≤ ttLine s) = some w ∧ linkOn s = true ∧ 3 ≤ w.reqs ∧ cxState n s = 3 ∧ (cx n s).abortFence = false :=
  ⟨{ tj with tl := { tj.tl with sumWaits := [⟨1, 5, 10, 3⟩] } }, chained, 0, ⟨1, 5, 10, 3⟩, by decide +kernel⟩
theorem witness_HaloStripsAndSummariesPass_13 : ∃ (s : State) (u : State) (p : LinkPort) (f : LinkFrame) (m : List Byte) (x : _), s.regsWf = true ∧ u.regsWf = true ∧ s.takes p 0x08 f ∧ sessionRx p f s = (some m, u) ∧ frArg f = 4 ∧ u.tl.sums.find? (fun x => x.1 == frCtx f && x.2.1 == wordN m 0) = some x ∧ linkOn u = true ∧ u.tl.session ≠ [] ∧ rdB GL_STATUS.FENCED u = false ∧ portState (portTo 0 u) u = 2 ∧ scrubHeld x.1 u = false :=
  ⟨strip, rxed 1 (frame (List.replicate 32 2) 8 1 4 16 (leBytes 4 3 ++ List.replicate 12 0)) strip, 1, frame (List.replicate 32 2) 8 1 4 16 (leBytes 4 3 ++ List.replicate 12 0), leBytes 4 3 ++ List.replicate 12 0, (1, 3, [7]), by exact ⟨by decide +kernel, by decide +kernel, frame_takes (by decide +kernel) rfl, frame_rx (by decide +kernel) (by decide +kernel), by decide +kernel, by decide +kernel, by decide +kernel, by decide +kernel, by decide +kernel, by decide +kernel, by decide +kernel⟩⟩
theorem witness_AbortsAndRetiresReachTheirContexts_0 : ∃ (s : State) (u : State) (p : LinkPort) (f : LinkFrame) (m : List Byte) (n : _), s.regsWf = true ∧ u.regsWf = true ∧ s.takes p 0x20 f ∧ sessionRx p f s = (some m, u) ∧ (frSrc f, frArg f) ∉ u.tl.abortSeen ∧ ctxOf (frCtx f) = some n ∧ cxState n u = 3 ∧ (cx n u).abortFence = false :=
  ⟨tj, rxed 1 (frame (List.replicate 32 2) 0x20 1 7 32 (leBytes 4 3 ++ List.replicate 28 0)) tj, 1, frame (List.replicate 32 2) 0x20 1 7 32 (leBytes 4 3 ++ List.replicate 28 0), leBytes 4 3 ++ List.replicate 28 0, 0, by exact ⟨by decide +kernel, by decide +kernel, frame_takes (by decide +kernel) rfl, frame_rx (by decide +kernel) (by decide +kernel), by decide +kernel, by decide +kernel, by decide +kernel, by decide +kernel⟩⟩
theorem witness_AbortsAndRetiresReachTheirContexts_1 : ∃ (s : State) (u : State) (p : LinkPort) (f : LinkFrame) (m : List Byte), s.regsWf = true ∧ u.regsWf = true ∧ s.takes p 0x20 f ∧ sessionRx p f s = (some m, u) ∧ (frSrc f, frArg f) ∈ u.tl.abortSeen :=
  ⟨{ tj with tl := { tj.tl with abortSeen := [(2, 7)] } }, rxed 1 (frame (List.replicate 32 2) 0x20 1 7 32 (leBytes 4 3 ++ List.replicate 28 0)) { tj with tl := { tj.tl with abortSeen := [(2, 7)] } }, 1, frame (List.replicate 32 2) 0x20 1 7 32 (leBytes 4 3 ++ List.replicate 28 0), leBytes 4 3 ++ List.replicate 28 0, by exact ⟨by decide +kernel, by decide +kernel, frame_takes (by decide +kernel) rfl, frame_rx (by decide +kernel) (by decide +kernel), by decide +kernel⟩⟩
theorem witness_AbortsAndRetiresReachTheirContexts_2 : ∃ (s : State) (u : State) (a : _), s.regsWf = true ∧ u.regsWf = true ∧ s.tl.aborts.find? (fun a => a.at_ + us 1 ≤ s.now) = some a ∧ linkOn s = true ∧ s.tl.session ≠ [] :=
  ⟨{ chained with tl := { chained.tl with aborts := [⟨0, 6, [], 2, 10 ^ 12⟩, ⟨1, 7, [], 2, 5⟩] } }, chained, ⟨1, 7, [], 2, 5⟩, by decide +kernel⟩
theorem witness_AbortsAndRetiresReachTheirContexts_3 : ∃ (s : State) (u : State) (p : LinkPort) (f : LinkFrame) (m : List Byte), s.regsWf = true ∧ u.regsWf = true ∧ s.takes p 0x21 f ∧ sessionRx p f s = (some m, u) ∧ linkOn u = true ∧ u.tl.session ≠ [] :=
  ⟨tj, rxed 1 (frame (List.replicate 32 2) 0x21 1 7 16 (List.replicate 16 0)) tj, 1, frame (List.replicate 32 2) 0x21 1 7 16 (List.replicate 16 0), List.replicate 16 0, by exact ⟨by decide +kernel, by decide +kernel, frame_takes (by decide +kernel) rfl, frame_rx (by decide +kernel) (by decide +kernel), by decide +kernel, by decide +kernel⟩⟩
theorem witness_AbortsAndRetiresReachTheirContexts_4 : ∃ (s : State) (u : State) (p : LinkPort) (f : LinkFrame) (m : List Byte) (n : _), s.regsWf = true ∧ u.regsWf = true ∧ s.takes p 0x22 f ∧ sessionRx p f s = (some m, u) ∧ ctxOf (frCtx f) = some n ∧ ((cxState n u = 5 ∨ cxState n u = 6)) ∧ frSrc f ∉ (cx n u).retirePeers :=
  ⟨wrs [(GL_CTX_STATUS.STATE 1, 6), (GL_CTX_RETIRE.PEERS_PENDING 1, 2)] tj, rxed 1 (frame (List.replicate 32 2) 0x22 1 7 16 (List.replicate 16 0)) (wrs [(GL_CTX_STATUS.STATE 1, 6), (GL_CTX_RETIRE.PEERS_PENDING 1, 2)] tj), 1, frame (List.replicate 32 2) 0x22 1 7 16 (List.replicate 16 0), List.replicate 16 0, 0, by exact ⟨by decide +kernel, by decide +kernel, frame_takes (by decide +kernel) rfl, frame_rx (by decide +kernel) (by decide +kernel), by decide +kernel, by decide +kernel, by decide +kernel⟩⟩
theorem witness_AbortsAndRetiresReachTheirContexts_5 : ∃ (s : State) (u : State) (p : LinkPort), s.regsWf = true ∧ u.regsWf = true ∧ linkOn s = true ∧ ((portState p s = 1 ∨ portState p s = 2)) :=
  ⟨tj, chained, 1, by decide +kernel⟩
theorem witness_MailboxQueuesFollowTheirRules_0 : ∃ (s : State) (k : Chan) (sec : Bool), s.mbReach k 0 sec ∧ h2kFull k s = false ∧ (chan k s).words.length < 8 :=
  ⟨setChan 0 { chan 0 up with words := [1,2,3] } up, 0, false, by unfold State.mbReach State.served; decide +kernel⟩
theorem witness_MailboxQueuesFollowTheirRules_1 : ∃ (s : State) (k : Chan) (sec : Bool), s.mbReach k 0 sec ∧ h2kFull k s = false ∧ 8 ≤ (chan k s).words.length :=
  ⟨setChan 0 { chan 0 up with words := [1,2,3,4,5,6,7,8] } up, 0, false, by unfold State.mbReach State.served; decide +kernel⟩
theorem witness_MailboxQueuesFollowTheirRules_2 : ∃ (s : State) (k : Chan) (sec : Bool), s.mbReach k 0 sec ∧ (((chan k s).msg ≠ [] ∨ (chan k s).fullClr = some s.now)) :=
  ⟨setChan 0 { chan 0 up with msg := [1] } up, 0, false, by unfold State.mbReach State.served; decide +kernel⟩
theorem witness_MailboxQueuesFollowTheirRules_3 : ∃ (s : State) (k : Chan) (sec : Bool), s.mbReach k 4 sec ∧ h2kFull k s = false ∧ (chan k s).words ≠ [] ∧ (chan k s).words.length = 1 + bits ((chan k s).words.headD 0) 16 4 ∧ (chan k s).overflow = false ∧ ((tandemOn s = false ∨ peerUp k s = true)) :=
  ⟨setChan 0 { chan 0 up with words := [0x20000,2,3] } up, 0, false, by unfold State.mbReach State.served; decide +kernel⟩
theorem witness_MailboxQueuesFollowTheirRules_4 : ∃ (s : State) (k : Chan) (sec : Bool), s.mbReach k 4 sec ∧ h2kFull k s = false ∧ (((chan k s).words = [] ∨ (chan k s).words.length ≠ 1 + bits ((chan k s).words.headD 0) 16 4 ∨ (chan k s).overflow = true)) :=
  ⟨setChan 0 { chan 0 up with words := [0x30000,2,3] } up, 0, false, by unfold State.mbReach State.served; decide +kernel⟩
theorem witness_MailboxQueuesFollowTheirRules_5 : ∃ (s : State) (k : Chan) (sec : Bool), s.mbReach k 4 sec :=
  ⟨setChan 0 { chan 0 up with words := [0x30000,2,3] } up, 0, false, by unfold State.mbReach State.served; decide +kernel⟩
theorem witness_MailboxQueuesFollowTheirRules_6 : ∃ (s : State) (k : Chan) (sec : Bool), s.mbReach k 0xC sec :=
  ⟨wr (MB.H2K_DB_PEND.PEND 0) 3 up, 0, false, by unfold State.mbReach State.served; decide +kernel⟩
theorem witness_MailboxQueuesFollowTheirRules_7 : ∃ (s : State) (k : Chan) (sec : Bool) (w : _) (x : _) (r : _), s.mbReach k 0x20 sec ∧ (chan k s).k2h = w :: x :: r :=
  ⟨setChan 0 { chan 0 up with hdr := 5, k2h := [5, 6] } up, 0, false, 5, 6, [], by unfold State.mbReach State.served; decide +kernel⟩
theorem witness_MailboxQueuesFollowTheirRules_8 : ∃ (s : State) (k : Chan) (sec : Bool) (w : _), s.mbReach k 0x20 sec ∧ (chan k s).k2h = [w] :=
  ⟨setChan 0 { chan 0 up with hdr := 5, k2h := [5] } up, 0, false, 5, by unfold State.mbReach State.served; decide +kernel⟩
theorem witness_MailboxQueuesFollowTheirRules_9 : ∃ (s : State) (k : Chan) (sec : Bool), s.mbReach k 0x20 sec ∧ (chan k s).k2h = [] :=
  ⟨up, 0, false, by unfold State.mbReach State.served; decide +kernel⟩
theorem witness_MailboxQueuesFollowTheirRules_10 : ∃ (s : State) (k : Chan) (sec : Bool), s.mbReach k 0x3C sec :=
  ⟨wrs [(MB.CNT.UNDERRUN 0, 4), (MB.ABORT.COUNT 0, 3)] up, 0, false, by unfold State.mbReach State.served; decide +kernel⟩
theorem witness_MailboxQueuesFollowTheirRules_11 : ∃ (s : State) (k : Chan) (sec : Bool), s.mbReach k 0x3C sec :=
  ⟨wrs [(MB.CNT.UNDERRUN 0, 4), (MB.ABORT.COUNT 0, 3)] up, 0, false, by unfold State.mbReach State.served; decide +kernel⟩
theorem witness_MailboxQueuesFollowTheirRules_12 : ∃ (s : State) (k : Chan), s.regsWf = true ∧ k2hFree k s = true ∧ abortDue k s = true :=
  ⟨wr (MB.ABORT.VALID 0) 1 (setChan 0 { chan 0 up with resps := [(true, [5, 6]), (false, [7])], notices := [[9]] } up), 0, by decide +kernel⟩
theorem witness_MailboxQueuesFollowTheirRules_13 : ∃ (s : State) (k : Chan) (b : _) (w : _) (r : _), s.regsWf = true ∧ k2hFree k s = true ∧ abortDue k s = false ∧ (chan k s).resps = (b, w) :: r :=
  ⟨setChan 0 { chan 0 up with resps := [(true, [5, 6]), (false, [7])], notices := [[9]] } up, 0, true, [5, 6], [(false, [7])], by decide +kernel⟩
theorem witness_MailboxQueuesFollowTheirRules_14 : ∃ (s : State) (k : Chan) (w : _) (r : _), s.regsWf = true ∧ k2hFree k s = true ∧ abortDue k s = false ∧ (chan k s).resps = [] ∧ (chan k s).notices = w :: r :=
  ⟨setChan 0 { chan 0 up with lost := true, notices := [[0x100001]] } up, 0, [0x100001], [], by decide +kernel⟩
theorem witness_MailboxQueuesFollowTheirRules_15 : ∃ (s : State) (k : Chan) (r : _), s.request k r.op r.len r ∧ k.val ≠ 3 ∧ (servedOn r.op).contains k.val = false :=
  ⟨ask 0 0x99 [1] up, 0, req 0x99 [1], by unfold State.request; decide +kernel⟩
theorem witness_MailboxQueuesFollowTheirRules_16 : ∃ (s : State) (k : Chan), s.regsWf = true ∧ k2hFree k s = false :=
  ⟨setChan 0 { chan 0 up with notices := [[9]], k2hClr := some (10 ^ 12) } up, 0, by decide +kernel⟩
theorem witness_MailboxQueuesFollowTheirRules_17 : ∃ (s : State) (k : Chan) (q : BitVec 8) (d : Deferred), s.regsWf = true ∧ s.mb.deferred.find? (fun d => d.ch == k.val && d.seq == q.toNat && [0x15, 0x16].contains d.op && d.at_ + ms 2000 ≤ s.now) = some d ∧ k2hFree k s = true ∧ (chan k s).resps = [] ∧ abortDue k s = false :=
  ⟨{ up with mb := { up.mb with deferred := [⟨0, 0x15, 5, 1, 7, [], []⟩] } }, 0, 5#8, ⟨0, 0x15, 5, 1, 7, [], []⟩, by decide +kernel⟩
theorem witness_FirmwareCommandsAreCheckedInOrder_0 : ∃ (i : Instr) (k : Fin 6) (op : Nat) (len : Nat) (s : State) (r : _) (n : _), cmRow i = some (k, op, len) ∧ ((op = 0x12 ∨ op = 0x15 → blockWaits k op s = false)) ∧ s.request k op n r ∧ k.val < 2 ∧ rdB GL_STATUS.FENCED s = true ∧ op ≠ 0x01 :=
  ⟨.setNoticeRoute 1, 1, 3, 2, wr GL_STATUS.FENCED 1 (ask 1 3 [1] up), req 3 [1], 1, by unfold State.request; decide +kernel⟩
theorem witness_FirmwareCommandsAreCheckedInOrder_1 : ∃ (i : Instr) (k : Fin 6) (op : Nat) (len : Nat) (s : State) (r : _) (n : _), cmRow i = some (k, op, len) ∧ ((op = 0x12 ∨ op = 0x15 → blockWaits k op s = false)) ∧ s.request k op n r ∧ k.val < 2 ∧ ((rdB GL_STATUS.FENCED s = false ∨ op = 0x01)) ∧ n ≠ len :=
  ⟨.setNoticeRoute 1, 1, 3, 2, ask 1 3 [1] up, req 3 [1], 1, by unfold State.request; decide +kernel⟩
theorem witness_FirmwareCommandsAreCheckedInOrder_2 : ∃ (i : Instr) (k : Fin 6) (op : Nat) (len : Nat) (s : State), cmRow i = some (k, op, len) ∧ ((op = 0x12 ∨ op = 0x15 → blockWaits k op s = false)) ∧ ((∀ r, reqOf k s = some r → r.op ≠ op)) :=
  ⟨.setNoticeRoute 1, 1, 3, 2, ask 1 4 [1] up, by decide +kernel⟩
theorem witness_InformationAndRegionCommandsAreAnswered_0 : ∃ (s : State) (k : Chan) (r : Req), s.request k 0x01 0 r ∧ k.val < 2 :=
  ⟨ask 0 1 [] up, 0, req 1 [], by unfold State.request; decide +kernel⟩
theorem witness_InformationAndRegionCommandsAreAnswered_1 : ∃ (s : State) (k : Chan) (r : Req), s.cmRequest k 0x04 0 r :=
  ⟨wrs [(CA_BUSY.COUNT 3, 2^63), (CA_BUSY.COUNT 4, 2^63), (GG_ECC.UNCORR, 3)] (ask 0 4 [] up), 0, req 4 [], by unfold State.cmRequest State.request; decide +kernel⟩
theorem witness_InformationAndRegionCommandsAreAnswered_2 : ∃ (s : State) (k : Chan) (r : Req), s.cmRequest k 0x02 3 r ∧ ((∀ d ∈ s.mb.deferred, d.op ≠ 0x15)) ∧ r.addr 1 % 8192 = 0 ∧ r.w 3 % 8192 = 0 ∧ r.w 3 ≤ 2 ^ 30 :=
  ⟨ask 0 2 [8192, 1, 16384] up, 0, req 2 [8192, 1, 16384], by unfold State.cmRequest State.request; decide +kernel⟩
theorem witness_InformationAndRegionCommandsAreAnswered_3 : ∃ (s : State) (k : Chan) (r : Req), s.cmRequest k 0x02 3 r ∧ ((∀ d ∈ s.mb.deferred, d.op ≠ 0x15)) ∧ ¬(r.addr 1 % 8192 = 0 ∧ r.w 3 % 8192 = 0 ∧ r.w 3 ≤ 2 ^ 30) :=
  ⟨ask 0 2 [8192, 1, 16385] up, 0, req 2 [8192, 1, 16385], by unfold State.cmRequest State.request; decide +kernel⟩
theorem witness_InformationAndRegionCommandsAreAnswered_4 : ∃ (s : State) (k : Chan) (r : Req), s.cmRequest k 0x03 2 r :=
  ⟨ask 0 3 [1, 0x20] up, 0, req 3 [1, 0x20], by unfold State.cmRequest State.request; decide +kernel⟩
theorem witness_ContextsAreCreatedConfiguredAndDestroyed_0 : ∃ (s : State) (k : Chan) (n : Ctx) (r : Req) (mask : _), s.cmRequest k 0x10 2 r ∧ ctxOf (bits (r.w 1) 0 4) = some n ∧ createFail n r (takeMsg k s) = none ∧ pickCoaches (bits (r.w 1) 4 5) (bits (r.w 2) 0 16) (bit (r.w 1) 10) (takeMsg k s) = some mask ∧ (powerCoaches (coachesOf mask) (takeMsg k s)).1 = true ∧ ((∀ c ∈ coachesOf mask, domOn c.val (powerCoaches (coachesOf mask) (takeMsg k s)).2.2 = true)) :=
  ⟨ask 0 0x10 [0x231, 0] up, 0, 0, req 0x10 [0x231, 0], 7, by unfold State.cmRequest State.request; decide +kernel⟩
theorem witness_ContextsAreCreatedConfiguredAndDestroyed_1 : ∃ (s : State) (k : Chan) (n : Ctx) (r : Req) (mask : _), s.cmRequest k 0x10 2 r ∧ ctxOf (bits (r.w 1) 0 4) = some n ∧ createFail n r (takeMsg k s) = none ∧ pickCoaches (bits (r.w 1) 4 5) (bits (r.w 2) 0 16) (bit (r.w 1) 10) (takeMsg k s) = some mask ∧ (powerCoaches (coachesOf mask) (takeMsg k s)).1 = true ∧ ((∀ c ∈ coachesOf mask, domOn c.val (powerCoaches (coachesOf mask) (takeMsg k s)).2.2 = true)) :=
  ⟨ask 0 0x10 [0x231, 0] up, 0, 0, req 0x10 [0x231, 0], 7, by unfold State.cmRequest State.request; decide +kernel⟩
theorem witness_ContextsAreCreatedConfiguredAndDestroyed_2 : ∃ (s : State) (k : Chan) (n : Ctx) (r : Req) (mask : _), s.cmRequest k 0x10 2 r ∧ ctxOf (bits (r.w 1) 0 4) = some n ∧ createFail n r (takeMsg k s) = none ∧ pickCoaches (bits (r.w 1) 4 5) (bits (r.w 2) 0 16) (bit (r.w 1) 10) (takeMsg k s) = some mask ∧ (powerCoaches (coachesOf mask) (takeMsg k s)).1 = true ∧ ((∃ c ∈ coachesOf mask, domOn c.val (powerCoaches (coachesOf mask) (takeMsg k s)).2.2 = false)) :=
  ⟨wr (PM_PWR_STATUS.ON 1) 0 (ask 0 0x10 [0x231, 0] up), 0, 0, req 0x10 [0x231, 0], 7, by unfold State.cmRequest State.request; decide +kernel⟩
theorem witness_ContextsAreCreatedConfiguredAndDestroyed_3 : ∃ (s : State) (k : Chan) (n : Ctx) (e : Deferred), s.regsWf = true ∧ e.ch = k.val ∧ e.op = 0x10 ∧ ctxOf e.ctx = some n ∧ k2hFree k s = true ∧ (chan k s).resps = [] ∧ abortDue k s = false ∧ ((∃ c ∈ coachesOf (e.args.getD 0 0), domOn c.val s = false ∧ comesUp c.val s = false)) :=
  ⟨{ wrs [(PM_PWR_STATUS.ON 1, 0), (GL_CTX_STATUS.PARTITION 1, 7)] up with mb := { up.mb with deferred := [⟨0, 0x10, 5, 1, 7, [7, 0, 1, 2], []⟩] } }, 0, 0, ⟨0, 0x10, 5, 1, 7, [7, 0, 1, 2], []⟩, by decide +kernel⟩
theorem witness_ContextsAreCreatedConfiguredAndDestroyed_4 : ∃ (s : State) (k : Chan) (n : Ctx) (e : Deferred), s.regsWf = true ∧ e.ch = k.val ∧ e.op = 0x10 ∧ ctxOf e.ctx = some n ∧ k2hFree k s = true ∧ (chan k s).resps = [] ∧ abortDue k s = false ∧ ((∃ c ∈ coachesOf (e.args.getD 0 0), domOn c.val s = false ∧ comesUp c.val s = false)) :=
  ⟨{ wrs [(PM_PWR_STATUS.ON 1, 0), (GL_CTX_STATUS.PARTITION 1, 7)] up with mb := { up.mb with deferred := [⟨0, 0x10, 5, 1, 7, [7, 0, 1, 2], []⟩] } }, 0, 0, ⟨0, 0x10, 5, 1, 7, [7, 0, 1, 2], []⟩, by decide +kernel⟩
theorem witness_ContextsAreCreatedConfiguredAndDestroyed_5 : ∃ (s : State) (k : Chan) (n : Ctx) (e : Deferred), s.regsWf = true ∧ e.ch = k.val ∧ e.op = 0x10 ∧ ctxOf e.ctx = some n ∧ k2hFree k s = true ∧ (chan k s).resps = [] ∧ abortDue k s = false ∧ ((∃ c ∈ coachesOf (e.args.getD 0 0), domOn c.val s = false ∧ comesUp c.val s = false)) :=
  ⟨{ wrs [(PM_PWR_STATUS.ON 1, 0), (GL_CTX_STATUS.PARTITION 1, 7)] up with mb := { up.mb with deferred := [⟨0, 0x10, 5, 1, 7, [7, 0, 1, 2], []⟩] } }, 0, 0, ⟨0, 0x10, 5, 1, 7, [7, 0, 1, 2], []⟩, by decide +kernel⟩
theorem witness_ContextsAreCreatedConfiguredAndDestroyed_6 : ∃ (s : State) (k : Chan) (n : Ctx) (e : Deferred), s.regsWf = true ∧ e.ch = k.val ∧ e.op = 0x10 ∧ ctxOf e.ctx = some n ∧ k2hFree k s = true ∧ (chan k s).resps = [] ∧ abortDue k s = false ∧ ((∀ c ∈ coachesOf (e.args.getD 0 0), domOn c.val s = true)) ∧ e.args.getD 2 0 = 1 ∧ cxState n s = 0 :=
  ⟨{ wrs [(GL_CTX_STATUS.PARTITION 1, 7)] up with mb := { up.mb with deferred := [⟨0, 0x10, 5, 1, 7, [7, 0, 1, 2], []⟩] } }, 0, 0, ⟨0, 0x10, 5, 1, 7, [7, 0, 1, 2], []⟩, by decide +kernel⟩
theorem witness_ContextsAreCreatedConfiguredAndDestroyed_7 : ∃ (s : State) (k : Chan) (n : Ctx) (e : Deferred), s.regsWf = true ∧ e.ch = k.val ∧ e.op = 0x10 ∧ ctxOf e.ctx = some n ∧ k2hFree k s = true ∧ (chan k s).resps = [] ∧ abortDue k s = false ∧ ((∀ c ∈ coachesOf (e.args.getD 0 0), domOn c.val s = true)) ∧ e.args.getD 2 0 = 1 ∧ cxState n s = 0 :=
  ⟨{ wrs [(GL_CTX_STATUS.PARTITION 1, 7)] up with mb := { up.mb with deferred := [⟨0, 0x10, 5, 1, 7, [7, 0, 1, 2], []⟩] } }, 0, 0, ⟨0, 0x10, 5, 1, 7, [7, 0, 1, 2], []⟩, by decide +kernel⟩
theorem witness_ContextsAreCreatedConfiguredAndDestroyed_8 : ∃ (s : State) (k : Chan) (n : Ctx) (e : Deferred), s.regsWf = true ∧ e.ch = k.val ∧ e.op = 0x10 ∧ ctxOf e.ctx = some n ∧ k2hFree k s = true ∧ (chan k s).resps = [] ∧ abortDue k s = false ∧ ((∀ c ∈ coachesOf (e.args.getD 0 0), domOn c.val s = true)) ∧ e.args.getD 2 0 = 1 ∧ cxState n s = 0 :=
  ⟨{ wrs [(GL_CTX_STATUS.PARTITION 1, 7)] up with mb := { up.mb with deferred := [⟨0, 0x10, 5, 1, 7, [7, 0, 1, 2], []⟩] } }, 0, 0, ⟨0, 0x10, 5, 1, 7, [7, 0, 1, 2], []⟩, by decide +kernel⟩
theorem witness_ContextsAreCreatedConfiguredAndDestroyed_9 : ∃ (s : State) (k : Chan) (r : Req), s.cmRequest k 0x10 2 r ∧ ctxOf (bits (r.w 1) 0 4) = none :=
  ⟨ask 0 0x10 [0x9, 0] up, 0, req 0x10 [0x9, 0], by unfold State.cmRequest State.request; decide +kernel⟩
theorem witness_ContextsAreCreatedConfiguredAndDestroyed_10 : ∃ (s : State) (k : Chan) (n : Ctx) (r : Req), s.cmRequest k 0x11 1 r ∧ ctxOf (bits (r.w 1) 0 4) = some n ∧ ctxLive n s = true ∧ deferredOf (cid n) s = none :=
  ⟨due 1 1 (ask 0 0x11 [1] busy), 0, 0, req 0x11 [1], by unfold State.cmRequest State.request; decide +kernel⟩
theorem witness_ContextsAreCreatedConfiguredAndDestroyed_11 : ∃ (s : State) (k : Chan) (n : Ctx) (r : Req) (b : BlockRead) (cfg : _) (v : _), s.ctxRequest k 0x12 7 n r ∧ ((cxState n s = 1 ∨ cxState n s = 2 ∨ cxState n s = 4)) ∧ blockWaits k 0x12 s = false ∧ commandBlock n r (fun _ => 128) b (blockRead n r (takeMsg k s)) = .ok (cfg, v) ∧ areasOk n cfg v = true :=
  ⟨{ ask 0 0x12 ([1, 0, 128] ++ dig cfg1) (ctxUp 1 [] up) with mb := { (ask 0 0x12 ([1, 0, 128] ++ dig cfg1) (ctxUp 1 [] up)).mb with regionSize := 8192 } }, 0, 0, req 0x12 ([1, 0, 128] ++ dig cfg1), cfg1, cfg1, (fun s => blockRead 0 (req 0x12 ([1, 0, 128] ++ dig cfg1)) (takeMsg 0 s)) { ask 0 0x12 ([1, 0, 128] ++ dig cfg1) (ctxUp 1 [] up) with mb := { (ask 0 0x12 ([1, 0, 128] ++ dig cfg1) (ctxUp 1 [] up)).mb with regionSize := 8192 } }, by unfold State.ctxRequest State.cmRequest State.request; exact ⟨by decide +kernel, by decide +kernel, by decide +kernel, ok_of (by decide +kernel), by decide +kernel⟩⟩
theorem witness_ContextsAreCreatedConfiguredAndDestroyed_12 : ∃ (s : State) (k : Chan) (n : Ctx) (r : Req), s.ctxRequest k 0x13 3 n r ∧ bits (r.w 1) 8 2 ≤ 2 ∧ cxState n s = 3 :=
  ⟨ask 0 0x13 [0x101, 3, 9] busy, 0, 0, req 0x13 [0x101, 3, 9], by unfold State.ctxRequest State.cmRequest State.request; decide +kernel⟩
theorem witness_ContextsAreCreatedConfiguredAndDestroyed_13 : ∃ (s : State) (k : Chan) (n : Ctx) (r : Req), s.ctxRequest k 0x13 3 n r ∧ bits (r.w 1) 8 2 ≤ 2 ∧ ((cxState n s = 1 ∨ cxState n s = 2 ∨ cxState n s = 4)) :=
  ⟨ask 0 0x13 [0x101, 3, 9] (ctxUp 2 [] up), 0, 0, req 0x13 [0x101, 3, 9], by unfold State.ctxRequest State.cmRequest State.request; decide +kernel⟩
theorem witness_ContextsAreCreatedConfiguredAndDestroyed_14 : ∃ (s : State) (k : Chan) (n : Ctx) (r : Req), s.ctxRequest k 0x14 2 n r ∧ ((cxState n s = 1 ∨ cxState n s = 2 ∨ cxState n s = 4)) ∧ bits (r.w 1) 8 1 = 1 ∧ 2000 ≤ bits (r.w 2) 0 24 :=
  ⟨ask 0 0x14 [0x101, 2000] (ctxUp 2 [] up), 0, 0, req 0x14 [0x101, 2000], by unfold State.ctxRequest State.cmRequest State.request; decide +kernel⟩
theorem witness_ContextsAreCreatedConfiguredAndDestroyed_15 : ∃ (s : State) (k : Chan) (n : Ctx) (r : Req), s.ctxRequest k 0x40 5 n r ∧ ((cxState n s = 1 ∨ cxState n s = 2 ∨ cxState n s = 4)) ∧ rdB (GL_CTX_STATUS.CONFIDENTIAL (cid n)) s = true ∧ r.addr 2 % 4096 = 0 ∧ r.w 4 % 4096 = 0 ∧ r.w 5 % 4096 = 0 ∧ r.w 4 ≤ 2 ^ 28 ∧ r.w 5 < r.w 4 :=
  ⟨wr (GL_CTX_STATUS.CONFIDENTIAL 1) 1 (ask 0 0x40 [1, 4096, 0, 8192, 4096] (ctxUp 2 [] up)), 0, 0, req 0x40 [1, 4096, 0, 8192, 4096], by unfold State.ctxRequest State.cmRequest State.request; decide +kernel⟩
theorem witness_ContextsAreCreatedConfiguredAndDestroyed_16 : ∃ (s : State) (k : Chan) (n : Ctx) (r : Req), s.ctxRequest k 0x40 5 n r ∧ ((cxState n s = 1 ∨ cxState n s = 2 ∨ cxState n s = 4)) ∧ rdB (GL_CTX_STATUS.CONFIDENTIAL (cid n)) s = false :=
  ⟨(ask 0 0x40 [1, 4096, 0, 8192, 4096] (ctxUp 2 [] up)), 0, 0, req 0x40 [1, 4096, 0, 8192, 4096], by unfold State.ctxRequest State.cmRequest State.request; decide +kernel⟩
theorem witness_DeferredLoadsAndPassesComplete_0 : ∃ (s : State) (k : Chan) (n : Ctx) (r : Req) (b : BlockRead) (img : _) (v : _), s.ctxRequest k 0x15 7 n r ∧ ((cxState n s = 1 ∨ cxState n s = 4)) ∧ mayDefer k (cid n) s = true ∧ blockWaits k 0x15 s = false ∧ rdB SB_BOOT.GIG_UNAVAIL s = false ∧ commandBlock n r (fun b => wordN b 2) b (blockRead n r (takeMsg k s)) = .ok (img, v) :=
  ⟨ask 0 0x15 ([1, 0, 64] ++ dig (words [(2, 64)] 16)) (ready 1 [] { up with mb := { up.mb with regionSize := 8192 } }), 0, 0, req 0x15 ([1, 0, 64] ++ dig (words [(2, 64)] 16)), words [(2, 64)] 16, words [(2, 64)] 16, (fun s => blockRead 0 (req 0x15 ([1, 0, 64] ++ dig (words [(2, 64)] 16))) (takeMsg 0 s)) (ask 0 0x15 ([1, 0, 64] ++ dig (words [(2, 64)] 16)) (ready 1 [] { up with mb := { up.mb with regionSize := 8192 } })), by unfold State.ctxRequest State.cmRequest State.request; exact ⟨by decide +kernel, by decide +kernel, by decide +kernel, by decide +kernel, by decide +kernel, ok_of (by decide +kernel)⟩⟩
theorem witness_DeferredLoadsAndPassesComplete_1 : ∃ (s : State) (k : Chan) (n : Ctx) (d : Deferred), s.awaits k n 0x15 d ∧ sbUp s = true ∧ waybillFail n d.data s = none ∧ (List.range (wbNStage d.data)).find? (fun j => !stageOk d.data j) = none :=
  ⟨waits 0x15 [] wbImage (ready 1 [] { up with sb := { up.sb with keys := [⟨0, 2, 1, 0, 0, wbKey⟩] } }), 0, 0, ⟨0, 0x15, 5, 1, 7, [], wbImage⟩, by unfold State.awaits; decide +kernel⟩
theorem witness_DeferredLoadsAndPassesComplete_2 : ∃ (s : State) (k : Chan) (n : Ctx) (d : Deferred) (e : _), s.awaits k n 0x15 d ∧ sbUp s = true ∧ waybillFail n d.data s = some e :=
  ⟨waits 0x15 [] wbText (ready 1 [] up), 0, 0, ⟨0, 0x15, 5, 1, 7, [], wbText⟩, stAUTH_FAIL, by unfold State.awaits; decide +kernel⟩
theorem witness_DeferredLoadsAndPassesComplete_3 : ∃ (s : State) (k : Chan) (n : Ctx) (r : Req), s.ctxRequest k 0x16 3 n r ∧ mayDefer k (cid n) s = true ∧ ((cxState n s = 4 ∨ (cxState n s = 1 ∧ rdB (GL_WB_STATUS.LOADED (cid n)) s = true))) ∧ r.w 2 % 64 = 0 ∧ r.w 2 + r.w 3 ≤ cfgSize (cx n s).cfg 4 :=
  ⟨ask 0 0x16 [1, 64, 64] (modCx 0 (fun c => { c with cfg := words [(25, 4096)] 32 }) (wr (GL_WB_STATUS.LOADED 1) 1 (ready 1 [] up))), 0, 0, req 0x16 [1, 64, 64], by unfold State.ctxRequest State.cmRequest State.request; decide +kernel⟩
theorem witness_DeferredLoadsAndPassesComplete_4 : ∃ (s : State) (k : Chan) (n : Ctx) (d : Deferred), s.awaits k n 0x16 d ∧ ((sbUp s = false ∨ measuring n s = true)) :=
  ⟨(let u := waits 0x16 [64, 1] [] (ready 1 [] up); { u with mp := { u.mp with own := [⟨0, false, 1, 4, 0x4000, 5, 4, [], 0, 3, .measure 1⟩] } }), 0, 0, ⟨0, 0x16, 5, 1, 7, [64, 1], []⟩, by unfold State.awaits; decide +kernel⟩
theorem witness_DeferredLoadsAndPassesComplete_5 : ∃ (s : State) (k : Chan) (n : Ctx) (d : Deferred) (data : _), s.awaits k n 0x16 d ∧ sbUp s = true ∧ measuring n s = false ∧ ((cxState n s = 1 ∨ cxState n s = 4)) ∧ sha384 (slice data 0 (d.args.getD 1 0)) ≠ wbWeightsDigest (cx n s).image :=
  ⟨waits 0x16 [64, 1] [] (ready 1 [] up), 0, 0, ⟨0, 0x16, 5, 1, 7, [64, 1], []⟩, [7], by unfold State.awaits; decide +kernel⟩
theorem witness_DeferredLoadsAndPassesComplete_6 : ∃ (s : State) (k : Chan) (n : Ctx) (d : Deferred) (data : _), s.awaits k n 0x16 d ∧ sbUp s = true ∧ measuring n s = false ∧ ((cxState n s = 1 ∨ cxState n s = 4)) ∧ sha384 (slice data 0 (d.args.getD 1 0)) = wbWeightsDigest (cx n s).image :=
  ⟨waits 0x16 [64, 1] [] (ready 1 (List.replicate 96 0 ++ sha384 [7]) up), 0, 0, ⟨0, 0x16, 5, 1, 7, [64, 1], []⟩, [7], by unfold State.awaits; decide +kernel⟩
theorem witness_DeferredLoadsAndPassesComplete_7 : ∃ (s : State) (k : Chan) (n : Ctx) (r : Req), s.ctxRequest k 0x17 1 n r ∧ ((cxState n s = 2 ∨ cxState n s = 4)) ∧ mayDefer k (cid n) s = true ∧ (cx n s).cfg ≠ [] ∧ cfgVariable (cx n s).cfg = false ∧ wbRefProg (cx n s).image = true :=
  ⟨ask 0 0x17 [1] (ready 2 (words [(4, 0x80000)] 8) up), 0, 0, req 0x17 [1], by unfold State.ctxRequest State.cmRequest State.request; decide +kernel⟩
theorem witness_DeferredLoadsAndPassesComplete_8 : ∃ (s : State) (n : Ctx) (e : _), e ∈ s.mb.deferred ∧ e.op = 0x17 ∧ s.mb.deferred.filter (fun x => x.op == 0x17) = [e] ∧ ctxOf e.ctx = some n ∧ ((cx n s).refRun.isSome = true ∨ measuring n s = true ∨ sbUp s = false) :=
  ⟨waits 0x17 [] [] (modCx 0 (fun c => { c with refRun := some 5, refCoaches := 1 }) (ready 2 [] up)), 0, ⟨0, 0x17, 5, 1, 7, [], []⟩, by decide +kernel⟩
theorem witness_DeferredLoadsAndPassesComplete_9 : ∃ (s : State) (n : Ctx) (e : _), e ∈ s.mb.deferred ∧ e.op = 0x17 ∧ s.mb.deferred.filter (fun x => x.op == 0x17) = [e] ∧ ctxOf e.ctx = some n ∧ (cx n s).refRun = none ∧ measuring n s = false ∧ sbUp s = true :=
  ⟨waits 0x17 [] [] (ready 2 [] up), 0, ⟨0, 0x17, 5, 1, 7, [], []⟩, by decide +kernel⟩
theorem witness_DeferredLoadsAndPassesComplete_10 : ∃ (s : State) (n : Ctx) (e : _), e ∈ s.mb.deferred ∧ e.op = 0x17 ∧ s.mb.deferred.filter (fun x => x.op == 0x17) = [e] ∧ ctxOf e.ctx = some n ∧ (cx n s).refRun = none ∧ measuring n s = false ∧ sbUp s = true :=
  ⟨waits 0x17 [] [] (ready 2 [] up), 0, ⟨0, 0x17, 5, 1, 7, [], []⟩, by decide +kernel⟩
theorem witness_DeferredLoadsAndPassesComplete_11 : ∃ (s : State) (n : Ctx) (e : _), e ∈ s.mb.deferred ∧ e.op = 0x17 ∧ s.mb.deferred.filter (fun x => x.op == 0x17) = [e] ∧ ctxOf e.ctx = some n ∧ (cx n s).refRun = none ∧ measuring n s = false ∧ sbUp s = true :=
  ⟨waits 0x17 [] [] (ready 2 [] up), 0, ⟨0, 0x17, 5, 1, 7, [], []⟩, by decide +kernel⟩
theorem witness_DeferredLoadsAndPassesComplete_12 : ∃ (s : State) (n : Ctx) (e : _), e ∈ s.mb.deferred ∧ e.op = 0x17 ∧ s.mb.deferred.filter (fun x => x.op == 0x17) = [e] ∧ ctxOf e.ctx = some n ∧ (cx n s).refRun = none ∧ measuring n s = false ∧ sbUp s = true :=
  ⟨waits 0x17 [] [] (ready 2 [] up), 0, ⟨0, 0x17, 5, 1, 7, [], []⟩, by decide +kernel⟩
theorem witness_DeferredLoadsAndPassesComplete_13 : ∃ (s : State) (k : Chan) (n : Ctx) (d : Deferred), s.awaits k n 0x17 d ∧ s.flt.replay = none ∧ (cx n s).refRun.isSome = true ∧ (cx n s).refCoaches = 2 ^ popcount 16 (partMask n s) - 1 :=
  ⟨waits 0x17 [] [] (modCx 0 (fun c => { c with refRun := some 5, refCoaches := 1 }) (ready 2 [] up)), 0, 0, ⟨0, 0x17, 5, 1, 7, [], []⟩, by unfold State.awaits; decide +kernel⟩
theorem witness_DeferredLoadsAndPassesComplete_14 : ∃ (s : State) (k : Chan) (n : Ctx) (r : Req), s.ctxRequest k 0x41 7 n r ∧ ((cxState n s = 2 ∨ cxState n s = 3 ∨ cxState n s = 4)) ∧ mayDefer k (cid n) s = true ∧ rdB (GL_CTX_STATUS.CONFIDENTIAL (cid n)) s = true ∧ r.w 2 + r.w 3 ≤ (cx n s).bounce.outOfs ∧ 32 ≤ r.w 3 :=
  ⟨ask 0 0x41 [1, 64, 64, 1, 2, 3, 4] (modCx 0 (fun c => { c with bounce := { c.bounce with outOfs := 4096 } }) (wr (GL_CTX_STATUS.CONFIDENTIAL 1) 1 (ready 2 [] up))), 0, 0, req 0x41 [1, 64, 64, 1, 2, 3, 4], by unfold State.ctxRequest State.cmRequest State.request; decide +kernel⟩
theorem witness_DeferredLoadsAndPassesComplete_15 : ∃ (s : State) (n : Ctx) (x : InitTx), s.mp.inits = [x] ∧ x.id = none ∧ x.write = false ∧ x.ctx = cid n ∧ scrubHeld (cid n) s = false ∧ rdB GL_STATUS.FENCED s = false :=
  ⟨{ up with mp := { up.mp with inits := [⟨none, false, 1, 0x1000, 4, [], 0, 0⟩] } }, 0, ⟨none, false, 1, 0x1000, 4, [], 0, 0⟩, by decide +kernel⟩
theorem witness_DeferredLoadsAndPassesComplete_16 : ∃ (s : State), ((∀ j < 16, ∃ x ∈ s.mp.inits, x.id = some j)) ∧ ((∀ x ∈ s.mp.inits, x.write = false)) :=
  ⟨{ up with mp := { up.mp with inits := (List.range 16).map (fun j => ⟨some j, false, 1, 0, 4, [], 0, 0⟩) ++ [⟨none, false, 1, 0x1000, 4, [], 0, 0⟩] } }, by decide +kernel⟩
theorem witness_DeferredLoadsAndPassesComplete_17 : ∃ (s : State) (k : Chan) (n : Ctx) (d : Deferred) (rec : _) (pt : _) (target : _) (count : _), s.awaits k n 0x41 d ∧ bounceRecord n 1 (d.args.getD 0 0) (d.args.getD 1 0) d.data rec s = .ok (pt, target, count) ∧ target + pt.length ≤ cfgSize (cx n s).cfg 3 ∧ ((∀ x ∈ s.mp.inits, x.write = true ∨ x.ctx ≠ cid n)) :=
  ⟨bounces, 0, 0, ⟨0, 0x41, 5, 1, 7, [0, 48], bounceTag⟩, bounce1, List.replicate 16 5, 64, 9, by unfold State.awaits; exact ⟨by decide +kernel, ok_of (by decide +kernel), by decide +kernel, by decide +kernel⟩⟩
theorem witness_DeferredLoadsAndPassesComplete_18 : ∃ (s : State) (k : Chan) (n : Ctx) (d : Deferred), s.awaits k n 0x41 d ∧ ((∃ x ∈ s.mp.inits, x.write = false ∧ x.ctx = cid n)) :=
  ⟨{ bounces with mp := { bounces.mp with inits := [⟨none, false, 1, 0x1000, 4, [], 0, 0⟩] } }, 0, 0, ⟨0, 0x41, 5, 1, 7, [0, 48], bounceTag⟩, by unfold State.awaits; decide +kernel⟩
theorem witness_DeferredLoadsAndPassesComplete_19 : ∃ (s : State) (k : Chan) (n : Ctx) (d : Deferred) (rec : _) (e : _), ((∀ x ∈ s.mp.inits, x.write = true ∨ x.ctx ≠ cid n)) ∧ s.awaits k n 0x41 d ∧ bounceRecord n 1 (d.args.getD 0 0) (d.args.getD 1 0) d.data rec s = .error e :=
  ⟨waits 0x41 [0, 48] (List.replicate 16 0) (ready 2 [] up), 0, 0, ⟨0, 0x41, 5, 1, 7, [0, 48], List.replicate 16 0⟩, [], stBAD_LENGTH, by unfold State.awaits; exact ⟨by decide +kernel, by decide +kernel, err_of (by decide +kernel)⟩⟩
theorem witness_JobsStartStopAndAbort_0 : ∃ (s : State) (k : Chan) (n : Ctx) (r : Req), s.ctxRequest k 0x20 3 n r ∧ ((cxState n s = 2 ∨ cxState n s = 4)) ∧ startFail n r (jobLine n r s) s = none :=
  ⟨ask 0 0x20 [0x101, 6000, 0] (modCx 0 (fun c => { c with refDone := true }) (ready 2 wbImage (wr TT_RATE.LPS 400 run))), 0, 0, req 0x20 [0x101, 6000, 0], by unfold State.ctxRequest State.cmRequest State.request; decide +kernel⟩
theorem witness_JobsStartStopAndAbort_1 : ∃ (s : State) (k : Chan) (n : Ctx) (r : Req) (e : _), s.ctxRequest k 0x20 3 n r ∧ ((cxState n s = 2 ∨ cxState n s = 4)) ∧ startFail n r (jobLine n r s) s = some e :=
  ⟨ask 0 0x20 [0x101, 5001, 0] (modCx 0 (fun c => { c with refDone := true }) (ready 2 wbImage (wr TT_RATE.LPS 400 run))), 0, 0, req 0x20 [0x101, 5001, 0], stCONTRACT, by unfold State.ctxRequest State.cmRequest State.request; decide +kernel⟩
theorem witness_JobsStartStopAndAbort_2 : ∃ (s : State) (k : Chan) (n : Ctx) (r : Req) (j : _), s.ctxRequest k 0x21 2 n r ∧ cxState n s = 3 ∧ mayDefer k (cid n) s = true ∧ (cx n s).job = some j :=
  ⟨ask 0 0x21 [1, 1] busy, 0, 0, req 0x21 [1, 1], job, by unfold State.ctxRequest State.cmRequest State.request; decide +kernel⟩
theorem witness_JobsStartStopAndAbort_3 : ∃ (s : State) (k : Chan) (n : Ctx) (d : Deferred) (j : _), s.awaits k n 0x21 d ∧ (cx n s).job = some j ∧ ttState s ≠ 3 ∧ cxState n s = 3 ∧ stopDone n s = true :=
  ⟨waits 0x21 [] [] (modCx 0 (fun c => { c with job := some { job with stopRow := some 3, rows := [] } }) busy), 0, 0, ⟨0, 0x21, 5, 1, 7, [], []⟩, { job with stopRow := some 3, rows := [] }, by unfold State.awaits; decide +kernel⟩
theorem witness_JobsStartStopAndAbort_4 : ∃ (s : State) (k : Chan) (n : Ctx) (r : Req), s.ctxRequest k 0x22 1 n r ∧ cxState n s = 3 ∧ (tandemJobs s).contains n = false ∧ deferredOf (cid n) s = none :=
  ⟨ask 0 0x22 [1] busy, 0, 0, req 0x22 [1], by unfold State.ctxRequest State.cmRequest State.request; decide +kernel⟩
theorem witness_JobsStartStopAndAbort_5 : ∃ (s : State) (k : Chan) (n : Ctx) (d : Deferred), s.awaits k n 0x22 d ∧ cxState n s = 3 ∧ (cx n s).abortFence = true ∧ txsOf (cid n) s = [] :=
  ⟨waits 0x22 [] [] (modCx 0 (fun c => { c with abortFence := true }) busy), 0, 0, ⟨0, 0x22, 5, 1, 7, [], []⟩, by unfold State.awaits; decide +kernel⟩
theorem witness_JobsStartStopAndAbort_6 : ∃ (s : State) (k : Chan) (r : Req), s.cmRequest k 0x30 1 r ∧ tandemOn s = true ∧ tandemJobs s = [] ∧ domOpen 19 s = true :=
  ⟨ask 0 0x30 [0x103] chained, 0, req 0x30 [0x103], by unfold State.cmRequest State.request; decide +kernel⟩
theorem witness_JobsStartStopAndAbort_7 : ∃ (s : State) (k : Chan) (r : Req), s.cmRequest k 0x31 0 r ∧ tandemOn s = true ∧ tandemJobs s = [] ∧ domOpen 19 s = true :=
  ⟨ask 0 0x31 [] { chained with pins := { chained.pins with pwrCycN := true } }, 0, req 0x31 [], by unfold State.cmRequest State.request; decide +kernel⟩
theorem witness_JobsStartStopAndAbort_8 : ∃ (s : State) (k : Chan) (r : Req), s.cmRequest k 0x32 1 r ∧ tandemOn s = true ∧ ((tandemJobs s = [] ∨ bit (r.w 1) 0 = true)) ∧ domOpen 19 s = true :=
  ⟨ask 0 0x32 [1] (wr TL_CFG.JOINED 1 tj), 0, req 0x32 [1], by unfold State.cmRequest State.request; decide +kernel⟩
theorem witness_JobsStartStopAndAbort_9 : ∃ (s : State) (k : Chan) (r : Req), s.cmRequest k 0x31 0 r ∧ tandemOn s = false :=
  ⟨ask 0 0x31 [] up, 0, req 0x31 [], by unfold State.cmRequest State.request; decide +kernel⟩
theorem witness_EventsLatchAndAreCompleted_0 : ∃ (s : State) (src : BitVec 7), s.regsWf = true ∧ levelSources.contains src.toNat = false ∧ src.toNat < 112 ∧ evReserved src.toNat = false ∧ domOpen (srcDom src.toNat) s = true ∧ domOn 20 s = true :=
  ⟨up, 25#7, by decide +kernel⟩
theorem witness_EventsLatchAndAreCompleted_1 : ∃ (s : State) (src : BitVec 7), s.regsWf = true ∧ levelSources.contains src.toNat = true ∧ sampled src.toNat s = true ∧ domOn 20 s = true :=
  ⟨{ up with pins := { up.pins with supplyLow := true } }, 98#7, by decide +kernel⟩
theorem witness_EventsLatchAndAreCompleted_2 : ∃ (s : State) (src : BitVec 7), s.regsWf = true ∧ levelSources.contains src.toNat = true ∧ sampled src.toNat s = false :=
  ⟨up, 98#7, by decide +kernel⟩
theorem witness_EventsLatchAndAreCompleted_3 : ∃ (s : State) (tgt : Target) (fast : Bool) (src : BitVec 7), s.regsWf = true ∧ isActive fast src.toNat tgt s = true ∧ ((tgt = .host → s.served (0x700084 + evBank fast) false)) :=
  ⟨{ up with ev := { up.ev with active := [⟨false, 25, .host⟩, ⟨true, 9, .coachman⟩] } }, .host, false, 25#7, by unfold State.served; decide +kernel⟩
theorem witness_EventsLatchAndAreCompleted_4 : ∃ (s : State) (src : BitVec 7), s.regsWf = true ∧ s.ev.resample = [src.toNat] ∧ s.pw.lanternEnd = false ∧ levelSources.contains src.toNat = true ∧ domOn 20 s = true :=
  ⟨{ up with pins := { up.pins with supplyLow := true }, ev := { up.ev with resample := [98] } }, 98#7, by decide +kernel⟩
theorem witness_EventsLatchAndAreCompleted_5 : ∃ (s : State) (src : BitVec 7), s.regsWf = true ∧ s.ev.resample = [src.toNat] ∧ s.pw.lanternEnd = false ∧ levelSources.contains src.toNat = true ∧ domOn 20 s = true ∧ sampled src.toNat s = true :=
  ⟨{ up with pins := { up.pins with supplyLow := true }, ev := { up.ev with resample := [98] } }, 98#7, by decide +kernel⟩
theorem witness_EventsLatchAndAreCompleted_6 : ∃ (s : State) (src : BitVec 7), s.regsWf = true ∧ s.ev.resample = [src.toNat] ∧ s.pw.lanternEnd = false ∧ levelSources.contains src.toNat = true ∧ domOn 20 s = true ∧ sampled src.toNat s = false :=
  ⟨{ up with ev := { up.ev with resample := [98] } }, 98#7, by decide +kernel⟩
theorem witness_EventsLatchAndAreCompleted_7 : ∃ (s : State) (src : BitVec 7), s.regsWf = true ∧ s.ev.resample = [src.toNat] ∧ s.pw.lanternEnd = false ∧ levelSources.contains src.toNat = true ∧ domOn 20 s = true :=
  ⟨{ up with pins := { up.pins with supplyLow := true }, ev := { up.ev with resample := [98] } }, 98#7, by decide +kernel⟩
theorem witness_EventsLatchAndAreCompleted_8 : ∃ (s : State) (tgt : Target) (fast : Bool) (src : BitVec 7), s.regsWf = true ∧ isActive fast src.toNat tgt s = false ∧ domOn 20 s = false ∧ tgt ≠ .host :=
  ⟨wr (PM_PWR_STATUS.ON 20) 0 up, .strongbox, false, 25#7, by decide +kernel⟩
theorem witness_EventsLatchAndAreCompleted_9 : ∃ (s : State) (tgt : Target) (fast : Bool) (src : BitVec 7), s.regsWf = true ∧ isActive fast src.toNat tgt s = false ∧ domOn 20 s = true ∧ ((tgt = .host → s.served (0x700084 + evBank fast) false)) :=
  ⟨up, .host, false, 25#7, by unfold State.served; decide +kernel⟩
theorem witness_EventsLatchAndAreCompleted_10 : ∃ (s : State) (fast : Bool), s.regsWf = true ∧ s.served (0x700088 + evBank fast) false :=
  ⟨wrs [(pendF false 25, 1), (EV_ROUTE.ROUTE 1 9, 2)] up, false, by unfold State.served; decide +kernel⟩
theorem witness_EventsLatchAndAreCompleted_11 : ∃ (s : State) (fast : Bool) (w : Fin 4), s.regsWf = true ∧ s.served (0x700000 + evBank fast + 4 * w.val) false :=
  ⟨wrs [(pendF false 25, 1), (EV_ROUTE.ROUTE 1 9, 2)] up, false, 0, by unfold State.served; decide +kernel⟩
theorem witness_EventsLatchAndAreCompleted_12 : ∃ (s : State) (fast : Bool) (g : Fin 16) (h : _), s.regsWf = true ∧ h ∈ s.ev.holds ∧ h.fast = fast ∧ h.group = g.val ∧ h.start + us h.time ≤ s.now :=
  ⟨{ up with ev := { up.ev with holds := [⟨false, 3, 0, 50⟩, ⟨true, 3, 0, 7⟩] } }, false, 3, ⟨false, 3, 0, 50⟩, by decide +kernel⟩
theorem witness_EventsLatchAndAreCompleted_13 : ∃ (s : State), s.regsWf = true ∧ s.served 0x700094 false :=
  ⟨wrs [(EV_SPURIOUS_EOI.FAST, 9)] up, by unfold State.served; decide +kernel⟩
theorem witness_EventsLatchAndAreCompleted_14 : ∃ (s : State), s.regsWf = true ∧ domOpen 22 s = true ∧ domOn 20 s = true :=
  ⟨{ up with pins := { up.pins with encA := true, mark := true, svcCsN := true } }, by decide +kernel⟩
theorem witness_EventsLatchAndAreCompleted_15 : ∃ (s : State), s.regsWf = true ∧ domOpen 22 s = true ∧ domOn 20 s = true :=
  ⟨{ up with pins := { up.pins with encA := true, mark := true, svcCsN := true } }, by decide +kernel⟩
theorem witness_EventsLatchAndAreCompleted_16 : ∃ (s : State), s.regsWf = true ∧ domOpen 22 s = true ∧ domOn 20 s = true :=
  ⟨{ up with pins := { up.pins with encA := true, mark := true, svcCsN := true } }, by decide +kernel⟩
theorem witness_EventsLatchAndAreCompleted_17 : ∃ (s : State) (src : BitVec 7) (e : _), s.regsWf = true ∧ e ∈ watchers src.toNat s ∧ evReserved src.toNat = false ∧ domOpen (srcDom src.toNat) s = true ∧ rd PM_LAN_CTRL.ARM s = 1 ∧ s.pw.lantern = true :=
  ⟨{ wrs [(PM_LAN_CTRL.ARM, 1), (PM_LAN_SEL.EN 0 2, 1), (PM_LAN_SEL.SRC 0 2, 96), (PM_SLEEP.STATE, 2)] up with pw := { up.pw with lantern := true } }, 96#7, 2, by decide +kernel⟩
theorem witness_EventsLatchAndAreCompleted_18 : ∃ (s : State), s.regsWf = true ∧ s.served 0xB00800 false :=
  ⟨up, by unfold State.served; decide +kernel⟩
theorem witness_ClaimsTakeTheLowestDrivingSource_0 : ∃ (s : State) (tgt : Target) (fast : Bool) (src : BitVec 7), s.regsWf = true ∧ drives tgt fast src.toNat s = true ∧ ((∀ j, j < src.toNat → drives tgt fast j s = false)) ∧ ((tgt = .host → s.served (0x700080 + evBank fast) false)) ∧ ((tgt ≠ .host → fwAwake (if tgt = .coachman then .coachman else .strongbox) s = true ∧ (fast = true ∨ evLine tgt true s = false))) :=
  ⟨wrs [(pendF false 25, 1), (maskF false 25, 0), (EV_ROUTE.ROUTE 1 9, 2), (EV_HOLD.TIME false 3, 50)] up, .host, false, 25#7, by unfold State.served; decide +kernel⟩
theorem witness_ClaimsTakeTheLowestDrivingSource_1 : ∃ (s : State) (tgt : Target) (fast : Bool), s.regsWf = true ∧ evLine tgt fast s = false ∧ tgt = .host ∧ s.served (0x700080 + evBank fast) false :=
  ⟨up, .host, false, by unfold State.served; decide +kernel⟩
theorem witness_ClaimsTakeTheLowestDrivingSource_2 : ∃ (s : State) (tgt : Target) (fast : Bool), s.regsWf = true ∧ evLine tgt fast s = false ∧ tgt ≠ .host :=
  ⟨up, .coachman, false, by decide +kernel⟩
theorem witness_ClaimsTakeTheLowestDrivingSource_3 : ∃ (s : State) (tgt : Target), s.regsWf = true ∧ tgt ≠ .host ∧ fwAwake (if tgt = .coachman then .coachman else .strongbox) s = false :=
  ⟨wr (MB.H2K_STATUS.PEER 0) 2 up, .coachman, by decide +kernel⟩
theorem witness_ClaimsTakeTheLowestDrivingSource_4 : ∃ (s : State) (tgt : Target), s.regsWf = true ∧ tgt ≠ .host ∧ evLine tgt true s = true :=
  ⟨wrs [(pendF true 112, 1), (maskF true 112, 0), (EV_ROUTE.ROUTE 7 0, 0)] up, .coachman, by decide +kernel⟩
theorem witness_StrongboxLifecycleCommandsAreAnswered_0 : ∃ (s : State) (r : Req) (i : _) (k : _) (c : _) (op : _) (lens : _), sbRow i = some (k, c, op, lens) ∧ ((∀ r, reqOf k s = some r → r.op ≠ op) ∨ k ≠ c) :=
  ⟨ask 4 0x82 [1] up, req 0 [], .sbChallenge 4, 4, 4, 0x81, [0], by decide +kernel⟩
theorem witness_StrongboxLifecycleCommandsAreAnswered_1 : ∃ (s : State) (r : Req) (i : _) (k : _) (c : _) (op : _) (lens : _) (n : _), sbRow i = some (k, c, op, lens) ∧ s.request k op n r ∧ k = c ∧ romServes s = true ∧ op ≠ 0x80 ∧ op ≠ 0x82 :=
  ⟨ask 4 0x81 [] (owned 0 [] up), req 0x81 [], .sbChallenge 4, 4, 4, 0x81, [0], 0, by unfold State.request; decide +kernel⟩
theorem witness_StrongboxLifecycleCommandsAreAnswered_2 : ∃ (s : State) (r : Req) (i : _) (k : _) (c : _) (op : _) (lens : _) (n : _), sbRow i = some (k, c, op, lens) ∧ s.request k op n r ∧ k = c ∧ ((romServes s = false ∨ op = 0x80 ∨ op = 0x82)) ∧ rdB GL_STATUS.FENCED s = true :=
  ⟨ask 4 0x81 [] (wr GL_STATUS.FENCED 1 up), req 0x81 [], .sbChallenge 4, 4, 4, 0x81, [0], 0, by unfold State.request; decide +kernel⟩
theorem witness_StrongboxLifecycleCommandsAreAnswered_3 : ∃ (s : State) (r : Req) (i : _) (k : _) (c : _) (op : _) (lens : _) (n : _), sbRow i = some (k, c, op, lens) ∧ s.sbRequest k op n r ∧ k = c ∧ ((romServes s = false ∨ op = 0x80 ∨ op = 0x82)) ∧ !lens.contains n :=
  ⟨ask 4 0x81 [7] up, req 0x81 [7], .sbChallenge 4, 4, 4, 0x81, [0], 1, by unfold State.sbRequest State.request; decide +kernel⟩
theorem witness_StrongboxLifecycleCommandsAreAnswered_4 : ∃ (s : State) (r : Req), s.sbRequest 2 0x80 0 r :=
  ⟨ask 2 0x80 [] up, req 0x80 [], by unfold State.sbRequest State.request; decide +kernel⟩
theorem witness_StrongboxLifecycleCommandsAreAnswered_5 : ∃ (s : State) (r : Req), s.sbRequest 4 0x81 0 r ∧ romServes s = false ∧ confidential s = false :=
  ⟨ask 4 0x81 [] up, req 0x81 [], by unfold State.sbRequest State.request; decide +kernel⟩
theorem witness_StrongboxLifecycleCommandsAreAnswered_6 : ∃ (s : State) (r : Req), s.sbRequest 4 0x81 0 r ∧ romServes s = false ∧ confidential s = true :=
  ⟨ask 4 0x81 [] (wr GL_STATUS.CONFIDENTIAL 1 up), req 0x81 [], by unfold State.sbRequest State.request; decide +kernel⟩
theorem witness_StrongboxLifecycleCommandsAreAnswered_7 : ∃ (s : State) (r : Req) (block : BlockRead) (n : _) (target : _), s.sbRequest 4 0x82 n r ∧ allFree s = true ∧ (((n = 1 ∧ target = bits (r.w 1) 8 8 ∧ lcFree (lifecycle s) target = true) ∨ (n = 7 ∧ target = bits (wordN block 1) 8 8 ∧ sbBlock r (some 192) block = none ∧ ∃ signer, lcToken (lifecycle s) target = some signer ∧ tokenOk 1 target [signer] block s = true))) ∧ lcReady (lifecycle s) target s = true :=
  ⟨ask 4 0x82 [0x1F00] (owned 3 [] up), req 0x82 [0x1F00], [], 1, 0x1F, by unfold State.sbRequest State.request; decide +kernel⟩
theorem witness_StrongboxLifecycleCommandsAreAnswered_8 : ∃ (s : State) (blows : Bool) (at_ : _) (target : _), s.regsWf = true ∧ s.sb.resetDue = some ⟨4, at_, some (target, blows)⟩ ∧ s.pw.reset = none ∧ at_ + ms 10 ≤ s.now ∧ s.otpWf = true ∧ s.otp.op = none ∧ blows = true :=
  ⟨{ owned 3 [] up with sb := { (owned 3 [] up).sb with resetDue := some ⟨4, 5, some (0x1F, true)⟩ } }, true, 5, 0x1F, by decide +kernel⟩
theorem witness_StrongboxLifecycleCommandsAreAnswered_9 : ∃ (s : State) (blows : Bool) (at_ : _) (target : _), s.regsWf = true ∧ s.sb.resetDue = some ⟨4, at_, some (target, blows)⟩ ∧ s.pw.reset = none ∧ at_ + ms 10 ≤ s.now ∧ s.otpWf = true ∧ s.otp.op = none ∧ blows = true :=
  ⟨{ owned 3 [] up with sb := { (owned 3 [] up).sb with resetDue := some ⟨4, 5, some (0x1F, true)⟩ } }, true, 5, 0x1F, by decide +kernel⟩
theorem witness_StrongboxLifecycleCommandsAreAnswered_10 : ∃ (s : State) (blows : Bool) (at_ : _) (target : _) (j : _) (w : _), s.regsWf = true ∧ s.sb.resetDue = some ⟨4, at_, some (target, blows)⟩ ∧ s.pw.reset = none ∧ at_ + ms 10 ≤ s.now ∧ s.otpWf = true ∧ s.otp.op = none ∧ blows = true ∧ j < 5 ∧ bit target j = true ∧ bit (lifecycle s) j = false ∧ w < 3 :=
  ⟨{ owned 3 [] up with sb := { (owned 3 [] up).sb with resetDue := some ⟨4, 5, some (0x1F, true)⟩ } }, true, 5, 0x1F, 4, 1, by decide +kernel⟩
theorem witness_StrongboxLifecycleCommandsAreAnswered_11 : ∃ (s : State) (blows : Bool) (at_ : _) (target : _), s.regsWf = true ∧ s.sb.resetDue = some ⟨4, at_, some (target, blows)⟩ ∧ s.pw.reset = none ∧ at_ + ms 10 ≤ s.now ∧ s.otpWf = true ∧ s.otp.op = none ∧ blows = false ∧ sbUp s = true ∧ s.awake :=
  ⟨{ owned 3 [] up with sb := { (owned 3 [] up).sb with resetDue := some ⟨4, 5, some (0x1F, false)⟩ } }, false, 5, 0x1F, by unfold State.awake; decide +kernel⟩
theorem witness_StrongboxLifecycleCommandsAreAnswered_12 : ∃ (s : State) (blows : Bool) (at_ : _) (target : _), s.regsWf = true ∧ s.sb.resetDue = some ⟨4, at_, some (target, blows)⟩ ∧ s.pw.reset = none ∧ at_ + ms 10 ≤ s.now ∧ s.otpWf = true ∧ s.otp.op = none ∧ blows = false ∧ sbUp s = true ∧ s.awake :=
  ⟨{ owned 3 [] up with sb := { (owned 3 [] up).sb with resetDue := some ⟨4, 5, some (0x1F, false)⟩ } }, false, 5, 0x1F, by unfold State.awake; decide +kernel⟩
theorem witness_StrongboxLifecycleCommandsAreAnswered_13 : ∃ (s : State) (cause : _) (at_ : _), s.regsWf = true ∧ s.sb.resetDue = some ⟨cause, at_, none⟩ ∧ s.awake ∧ at_ + ms 10 ≤ s.now :=
  ⟨{ up with sb := { up.sb with resetDue := some ⟨5, 5, none⟩ }, pw := { up.pw with unlock := true } }, 5, 5, by unfold State.awake; decide +kernel⟩
theorem witness_StrongboxLifecycleCommandsAreAnswered_14 : ∃ (s : State) (cause : _) (at_ : _), s.regsWf = true ∧ s.sb.resetDue = some ⟨cause, at_, none⟩ ∧ s.awake ∧ at_ + ms 10 ≤ s.now :=
  ⟨{ up with sb := { up.sb with resetDue := some ⟨5, 5, none⟩ }, pw := { up.pw with unlock := true } }, 5, 5, by unfold State.awake; decide +kernel⟩
theorem witness_StrongboxLifecycleCommandsAreAnswered_15 : ∃ (s : State) (cause : _) (at_ : _), s.regsWf = true ∧ s.sb.resetDue = some ⟨cause, at_, none⟩ ∧ s.awake ∧ at_ + ms 10 ≤ s.now :=
  ⟨{ up with sb := { up.sb with resetDue := some ⟨5, 5, none⟩ }, pw := { up.pw with unlock := true } }, 5, 5, by unfold State.awake; decide +kernel⟩
theorem witness_StrongboxLifecycleCommandsAreAnswered_16 : ∃ (s : State) (cause : _) (at_ : _), s.regsWf = true ∧ s.sb.resetDue = some ⟨cause, at_, none⟩ ∧ s.awake ∧ at_ + ms 10 ≤ s.now :=
  ⟨{ up with sb := { up.sb with resetDue := some ⟨5, 5, none⟩ }, pw := { up.pw with unlock := true } }, 5, 5, by unfold State.awake; decide +kernel⟩
theorem witness_StrongboxLifecycleCommandsAreAnswered_17 : ∃ (s : State) (r : Req) (block : BlockRead) (signer : _), s.sbRequest 4 0x82 7 r ∧ allFree s = true ∧ sbBlock r (some 192) block = none ∧ lcReady (lifecycle s) (bits (wordN block 1) 8 8) s = true ∧ lcToken (lifecycle s) (bits (wordN block 1) 8 8) = some signer ∧ tokenOk 1 (bits (wordN block 1) 8 8) [signer] block s = false :=
  ⟨askB 4 0x82 192 lcTok (owned 7 (keyHash duTokEnc) up), reqB 0x82 192 lcTok, lcTok, 1, by unfold State.sbRequest State.request; decide +kernel⟩
theorem witness_StrongboxLifecycleCommandsAreAnswered_18 : ∃ (s : State) (r : Req), s.sbRequest 4 0x82 1 r ∧ lcFree (lifecycle s) (bits (r.w 1) 8 8) = false :=
  ⟨ask 4 0x82 [0x0700] (owned 3 [] up), req 0x82 [0x0700], by unfold State.sbRequest State.request; decide +kernel⟩
theorem witness_StrongboxLifecycleCommandsAreAnswered_19 : ∃ (s : State) (r : Req) (block : BlockRead), s.sbRequest 4 0x83 7 r ∧ romServes s = false ∧ allFree s = true ∧ sbBlock r (some 192) block = none ∧ ((lifecycle s = 7 ∨ lifecycle s = 0xF)) ∧ confidential s = false ∧ rd TL_CFG.JOINED s = 0 ∧ ((lifecycle s = 7 ∨ bits (wordN block 1) 16 8 = 1 → s.sb.owner ≠ [])) ∧ tokenOk 2 0 (if lifecycle s = 7 then [1] else [1, 2]) block s = true :=
  ⟨askB 4 0x83 192 duTok (owned 7 (keyHash duTokEnc) up), reqB 0x83 192 duTok, duTok, by unfold State.sbRequest State.request; decide +kernel⟩
theorem witness_StrongboxLifecycleCommandsAreAnswered_20 : ∃ (s : State) (r : Req) (block : BlockRead), s.sbRequest 4 0x83 7 r ∧ romServes s = false ∧ sbBlock r (some 192) block = none ∧ ((lifecycle s = 7 ∨ lifecycle s = 0xF)) ∧ confidential s = false ∧ rd TL_CFG.JOINED s = 0 ∧ ((lifecycle s = 7 ∨ bits (wordN block 1) 16 8 = 1)) ∧ s.sb.owner = [] :=
  ⟨askB 4 0x83 192 duTok (owned 7 [] up), reqB 0x83 192 duTok, duTok, by unfold State.sbRequest State.request; decide +kernel⟩
theorem witness_StrongboxLifecycleCommandsAreAnswered_21 : ∃ (s : State) (r : Req) (block : BlockRead), s.sbRequest 4 0x83 7 r ∧ romServes s = false ∧ sbBlock r (some 192) block = none ∧ ((lifecycle s ≠ 7 ∧ lifecycle s ≠ 0xF ∨ confidential s = true ∨ rd TL_CFG.JOINED s = 1)) :=
  ⟨askB 4 0x83 192 duTok (wr GL_STATUS.CONFIDENTIAL 1 (owned 7 (keyHash duTokEnc) up)), reqB 0x83 192 duTok, duTok, by unfold State.sbRequest State.request; decide +kernel⟩
theorem witness_StrongboxKeyCommandsAreAnswered_0 : ∃ (s : State) (r : Req) (block : BlockRead) (g : _) (u : _), romServes s = false ∧ s.sbRequest 2 0x84 7 r ∧ sbBlock r (some 128) block = none ∧ wordN block 0 = 0x31525441 ∧ 1536 ≤ wordN block 4 ∧ 8 ≤ bits (wordN block 5) 0 7 ∧ bits (wordN block 5) 0 7 ≤ 64 ∧ bits (wordN block 1) 0 4 = 0 ∧ bit (wordN block 1) 8 = false ∧ statement none false (slice block 64 (bits (wordN block 5) 0 7)) (sbRead r (some 128) 0 (takeMsg 2 s)) = (g, u) :=
  ⟨askB 2 0x84 128 (attB 0) (owned 7 [] up), reqB 0x84 128 (attB 0), attB 0, (statement none false (List.replicate 8 7) (sbRead (reqB 0x84 128 (attB 0)) (some 128) 0 (takeMsg 2 (askB 2 0x84 128 (attB 0) (owned 7 [] up))))).1, (statement none false (List.replicate 8 7) (sbRead (reqB 0x84 128 (attB 0)) (some 128) 0 (takeMsg 2 (askB 2 0x84 128 (attB 0) (owned 7 [] up))))).2, by unfold State.sbRequest State.request; exact ⟨by decide +kernel, by decide +kernel, by decide +kernel, by decide +kernel, by decide +kernel, by decide +kernel, by decide +kernel, by decide +kernel, by decide +kernel, rfl⟩⟩
theorem witness_StrongboxKeyCommandsAreAnswered_1 : ∃ (s : State) (r : Req) (block : BlockRead) (n : Ctx), romServes s = false ∧ s.sbRequest 2 0x84 7 r ∧ sbBlock r (some 128) block = none ∧ wordN block 0 = 0x31525441 ∧ 1536 ≤ wordN block 4 ∧ 8 ≤ bits (wordN block 5) 0 7 ∧ bits (wordN block 5) 0 7 ≤ 64 ∧ bits (wordN block 1) 0 4 = cid n ∧ (cx n s).ledger.opened = true ∧ bit (wordN block 1) 8 = true ∧ rd (SB_LEDGER_STATE.FINAL_HELD (cid n)) s = 1 :=
  ⟨modCx 0 (fun c => { c with ledger := { c.ledger with opened := true, final := [1,2,3] } }) (wr (SB_LEDGER_STATE.FINAL_HELD 1) 1 (askB 2 0x84 128 (attB 0x101) (owned 7 [] up))), reqB 0x84 128 (attB 0x101), attB 0x101, 0, by unfold State.sbRequest State.request; decide +kernel⟩
theorem witness_StrongboxKeyCommandsAreAnswered_2 : ∃ (s : State) (r : Req) (block : BlockRead) (n : Ctx), romServes s = false ∧ s.sbRequest 2 0x84 7 r ∧ sbBlock r (some 128) block = none ∧ wordN block 0 = 0x31525441 ∧ 1536 ≤ wordN block 4 ∧ 8 ≤ bits (wordN block 5) 0 7 ∧ bits (wordN block 5) 0 7 ≤ 64 ∧ bits (wordN block 1) 0 4 = cid n ∧ (cx n s).ledger.opened = false :=
  ⟨askB 2 0x84 128 (attB 1) up, reqB 0x84 128 (attB 1), attB 1, 0, by unfold State.sbRequest State.request; decide +kernel⟩
theorem witness_StrongboxKeyCommandsAreAnswered_3 : ∃ (s : State) (r : Req) (block : BlockRead) (e : _), romServes s = false ∧ s.sbRequest 4 0x85 7 r ∧ s.sb.keyJob = none ∧ keyUpdateCheck block r (sbRead r none 128 (takeMsg 4 s)) = .error e :=
  ⟨askB 4 0x85 64 [1] up, reqB 0x85 64 [1], [1], stREFUSED_STATE, by unfold State.sbRequest State.request; exact ⟨by decide +kernel, by decide +kernel, by decide +kernel, err_of (by decide +kernel)⟩⟩
theorem witness_StrongboxKeyCommandsAreAnswered_4 : ∃ (s : State) (r : Req), romServes s = false ∧ s.sbRequest 4 0x85 7 r ∧ s.sb.keyJob.isSome = true :=
  ⟨{ askB 4 0x85 64 [1] up with sb := { up.sb with keyJob := some ⟨4, 9, 5, true, [], [], 4096, 5⟩ } }, reqB 0x85 64 [1], by unfold State.sbRequest State.request; decide +kernel⟩
theorem witness_StrongboxKeyCommandsAreAnswered_5 : ∃ (s : State) (r : Req) (block : BlockRead) (es : _), romServes s = false ∧ s.sbRequest 4 0x85 7 r ∧ s.sb.keyJob = none ∧ s.otpWf = true ∧ keyUpdateCheck block r (sbRead r none 128 (takeMsg 4 s)) = .ok es :=
  ⟨askB 4 0x85 432 kuMsg (owned 7 (keyHash kuMsgEnc) up), reqB 0x85 432 kuMsg, kuMsg, [⟨4, 1, 9, 48, List.replicate 48 8⟩], by unfold State.sbRequest State.request; exact ⟨by decide +kernel, by decide +kernel, by decide +kernel, by decide +kernel, ok_of (by decide +kernel)⟩⟩
theorem witness_StrongboxKeyCommandsAreAnswered_6 : ∃ (s : State) (j : KeyJob) (e : _) (es : _) (p : _), romServes s = false ∧ s.sb.keyJob = some j ∧ s.pw.reset = none ∧ j.at_ + ms 600 ≤ s.now ∧ j.todo = e :: es ∧ programRegion e j.blows { s with freeN := s.freeN + 1 } = p ∧ p.1 = true :=
  ⟨{ owned 7 [] up with sb := { (owned 7 [] up).sb with keyJob := some ⟨4, 9, 5, true, [⟨1, 0, 0, 48, List.replicate 48 8⟩], [], 4096, 5⟩ } }, ⟨4, 9, 5, true, [⟨1, 0, 0, 48, List.replicate 48 8⟩], [], 4096, 5⟩, ⟨1, 0, 0, 48, List.replicate 48 8⟩, [], programRegion ⟨1, 0, 0, 48, List.replicate 48 8⟩ true { ({ owned 7 [] up with sb := { (owned 7 [] up).sb with keyJob := some ⟨4, 9, 5, true, [⟨1, 0, 0, 48, List.replicate 48 8⟩], [], 4096, 5⟩ } }) with freeN := up.freeN + 1 }, by exact ⟨by decide +kernel, by decide +kernel, by decide +kernel, by decide +kernel, by decide +kernel, rfl, by decide +kernel⟩⟩
theorem witness_StrongboxKeyCommandsAreAnswered_7 : ∃ (s : State) (j : KeyJob) (e : _) (es : _) (p : _), romServes s = false ∧ s.sb.keyJob = some j ∧ s.pw.reset = none ∧ j.at_ + ms 600 ≤ s.now ∧ s.room j.ch ∧ j.todo = e :: es ∧ programRegion e j.blows { s with freeN := s.freeN + 1 } = p ∧ p.1 = false :=
  ⟨{ owned 7 [] up with sb := { (owned 7 [] up).sb with keyJob := some ⟨4, 9, 5, false, [⟨1, 0, 0, 48, List.replicate 48 8⟩], [], 4096, 5⟩ } }, ⟨4, 9, 5, false, [⟨1, 0, 0, 48, List.replicate 48 8⟩], [], 4096, 5⟩, ⟨1, 0, 0, 48, List.replicate 48 8⟩, [], programRegion ⟨1, 0, 0, 48, List.replicate 48 8⟩ false { ({ owned 7 [] up with sb := { (owned 7 [] up).sb with keyJob := some ⟨4, 9, 5, false, [⟨1, 0, 0, 48, List.replicate 48 8⟩], [], 4096, 5⟩ } }) with freeN := up.freeN + 1 }, by unfold State.room; exact ⟨by decide +kernel, by decide +kernel, by decide +kernel, by decide +kernel, by decide +kernel, by decide +kernel, rfl, by decide +kernel⟩⟩
theorem witness_StrongboxKeyCommandsAreAnswered_8 : ∃ (s : State) (j : KeyJob) (e : _) (es : _) (p : _), romServes s = false ∧ s.sb.keyJob = some j ∧ s.pw.reset = none ∧ j.at_ + ms 600 ≤ s.now ∧ s.room j.ch ∧ j.todo = e :: es ∧ programRegion e j.blows { s with freeN := s.freeN + 1 } = p ∧ p.1 = false :=
  ⟨{ owned 7 [] up with sb := { (owned 7 [] up).sb with keyJob := some ⟨4, 9, 5, false, [⟨1, 0, 0, 48, List.replicate 48 8⟩], [], 4096, 5⟩ } }, ⟨4, 9, 5, false, [⟨1, 0, 0, 48, List.replicate 48 8⟩], [], 4096, 5⟩, ⟨1, 0, 0, 48, List.replicate 48 8⟩, [], programRegion ⟨1, 0, 0, 48, List.replicate 48 8⟩ false { ({ owned 7 [] up with sb := { (owned 7 [] up).sb with keyJob := some ⟨4, 9, 5, false, [⟨1, 0, 0, 48, List.replicate 48 8⟩], [], 4096, 5⟩ } }) with freeN := up.freeN + 1 }, by unfold State.room; exact ⟨by decide +kernel, by decide +kernel, by decide +kernel, by decide +kernel, by decide +kernel, by decide +kernel, rfl, by decide +kernel⟩⟩
theorem witness_StrongboxKeyCommandsAreAnswered_9 : ∃ (s : State) (j : KeyJob) (e : _) (es : _) (p : _), romServes s = false ∧ s.sb.keyJob = some j ∧ s.pw.reset = none ∧ j.at_ + ms 600 ≤ s.now ∧ s.room j.ch ∧ j.todo = e :: es ∧ programRegion e j.blows { s with freeN := s.freeN + 1 } = p ∧ p.1 = false :=
  ⟨{ owned 7 [] up with sb := { (owned 7 [] up).sb with keyJob := some ⟨4, 9, 5, false, [⟨1, 0, 0, 48, List.replicate 48 8⟩], [], 4096, 5⟩ } }, ⟨4, 9, 5, false, [⟨1, 0, 0, 48, List.replicate 48 8⟩], [], 4096, 5⟩, ⟨1, 0, 0, 48, List.replicate 48 8⟩, [], programRegion ⟨1, 0, 0, 48, List.replicate 48 8⟩ false { ({ owned 7 [] up with sb := { (owned 7 [] up).sb with keyJob := some ⟨4, 9, 5, false, [⟨1, 0, 0, 48, List.replicate 48 8⟩], [], 4096, 5⟩ } }) with freeN := up.freeN + 1 }, by unfold State.room; exact ⟨by decide +kernel, by decide +kernel, by decide +kernel, by decide +kernel, by decide +kernel, by decide +kernel, rfl, by decide +kernel⟩⟩
theorem witness_StrongboxKeyCommandsAreAnswered_10 : ∃ (s : State) (j : KeyJob) (e : _) (es : _) (p : _), romServes s = false ∧ s.sb.keyJob = some j ∧ s.pw.reset = none ∧ j.at_ + ms 600 ≤ s.now ∧ s.room j.ch ∧ j.todo = e :: es ∧ programRegion e j.blows { s with freeN := s.freeN + 1 } = p ∧ p.1 = false :=
  ⟨{ owned 7 [] up with sb := { (owned 7 [] up).sb with keyJob := some ⟨4, 9, 5, false, [⟨1, 0, 0, 48, List.replicate 48 8⟩], [], 4096, 5⟩ } }, ⟨4, 9, 5, false, [⟨1, 0, 0, 48, List.replicate 48 8⟩], [], 4096, 5⟩, ⟨1, 0, 0, 48, List.replicate 48 8⟩, [], programRegion ⟨1, 0, 0, 48, List.replicate 48 8⟩ false { ({ owned 7 [] up with sb := { (owned 7 [] up).sb with keyJob := some ⟨4, 9, 5, false, [⟨1, 0, 0, 48, List.replicate 48 8⟩], [], 4096, 5⟩ } }) with freeN := up.freeN + 1 }, by unfold State.room; exact ⟨by decide +kernel, by decide +kernel, by decide +kernel, by decide +kernel, by decide +kernel, by decide +kernel, rfl, by decide +kernel⟩⟩
theorem witness_StrongboxKeyCommandsAreAnswered_11 : ∃ (s : State) (j : KeyJob) (items : List Byte), romServes s = false ∧ s.sb.keyJob = some j ∧ s.pw.reset = none ∧ j.at_ + ms 600 ≤ s.now ∧ s.room j.ch ∧ j.todo = [] ∧ items = j.items.flatMap (fun e => keyEntryItem e j.counter s) :=
  ⟨{ owned 7 [] up with sb := { (owned 7 [] up).sb with keyJob := some ⟨4, 9, 5, true, [], [⟨4, 1, 9, 48, List.replicate 48 8⟩], 4096, 5⟩ } }, ⟨4, 9, 5, true, [], [⟨4, 1, 9, 48, List.replicate 48 8⟩], 4096, 5⟩, [⟨4, 1, 9, 48, List.replicate 48 8⟩].flatMap (fun e => keyEntryItem e 5 ({ owned 7 [] up with sb := { (owned 7 [] up).sb with keyJob := some ⟨4, 9, 5, true, [], [⟨4, 1, 9, 48, List.replicate 48 8⟩], 4096, 5⟩ } })), by unfold State.room; exact ⟨by decide +kernel, by decide +kernel, by decide +kernel, by decide +kernel, by decide +kernel, by decide +kernel, rfl⟩⟩
theorem witness_StrongboxKeyCommandsAreAnswered_12 : ∃ (s : State) (j : KeyJob) (items : List Byte), romServes s = false ∧ s.sb.keyJob = some j ∧ s.pw.reset = none ∧ j.at_ + ms 600 ≤ s.now ∧ s.room j.ch ∧ j.todo = [] ∧ items = j.items.flatMap (fun e => keyEntryItem e j.counter s) :=
  ⟨{ owned 7 [] up with sb := { (owned 7 [] up).sb with keyJob := some ⟨4, 9, 5, true, [], [⟨4, 1, 9, 48, List.replicate 48 8⟩], 4096, 5⟩ } }, ⟨4, 9, 5, true, [], [⟨4, 1, 9, 48, List.replicate 48 8⟩], 4096, 5⟩, [⟨4, 1, 9, 48, List.replicate 48 8⟩].flatMap (fun e => keyEntryItem e 5 ({ owned 7 [] up with sb := { (owned 7 [] up).sb with keyJob := some ⟨4, 9, 5, true, [], [⟨4, 1, 9, 48, List.replicate 48 8⟩], 4096, 5⟩ } })), by unfold State.room; exact ⟨by decide +kernel, by decide +kernel, by decide +kernel, by decide +kernel, by decide +kernel, by decide +kernel, rfl⟩⟩
theorem witness_StrongboxKeyCommandsAreAnswered_13 : ∃ (s : State) (j : KeyJob) (items : List Byte), romServes s = false ∧ s.sb.keyJob = some j ∧ s.pw.reset = none ∧ j.at_ + ms 600 ≤ s.now ∧ s.room j.ch ∧ j.todo = [] ∧ items = j.items.flatMap (fun e => keyEntryItem e j.counter s) :=
  ⟨{ owned 7 [] up with sb := { (owned 7 [] up).sb with keyJob := some ⟨4, 9, 5, true, [], [⟨4, 1, 9, 48, List.replicate 48 8⟩], 4096, 5⟩ } }, ⟨4, 9, 5, true, [], [⟨4, 1, 9, 48, List.replicate 48 8⟩], 4096, 5⟩, [⟨4, 1, 9, 48, List.replicate 48 8⟩].flatMap (fun e => keyEntryItem e 5 ({ owned 7 [] up with sb := { (owned 7 [] up).sb with keyJob := some ⟨4, 9, 5, true, [], [⟨4, 1, 9, 48, List.replicate 48 8⟩], 4096, 5⟩ } })), by unfold State.room; exact ⟨by decide +kernel, by decide +kernel, by decide +kernel, by decide +kernel, by decide +kernel, by decide +kernel, rfl⟩⟩
theorem witness_StrongboxKeyCommandsAreAnswered_14 : ∃ (s : State) (j : KeyJob) (items : List Byte), romServes s = false ∧ s.sb.keyJob = some j ∧ s.pw.reset = none ∧ j.at_ + ms 600 ≤ s.now ∧ s.room j.ch ∧ j.todo = [] ∧ items = j.items.flatMap (fun e => keyEntryItem e j.counter s) :=
  ⟨{ owned 7 [] up with sb := { (owned 7 [] up).sb with keyJob := some ⟨4, 9, 5, true, [], [⟨4, 1, 9, 48, List.replicate 48 8⟩], 4096, 5⟩ } }, ⟨4, 9, 5, true, [], [⟨4, 1, 9, 48, List.replicate 48 8⟩], 4096, 5⟩, [⟨4, 1, 9, 48, List.replicate 48 8⟩].flatMap (fun e => keyEntryItem e 5 ({ owned 7 [] up with sb := { (owned 7 [] up).sb with keyJob := some ⟨4, 9, 5, true, [], [⟨4, 1, 9, 48, List.replicate 48 8⟩], 4096, 5⟩ } })), by unfold State.room; exact ⟨by decide +kernel, by decide +kernel, by decide +kernel, by decide +kernel, by decide +kernel, by decide +kernel, rfl⟩⟩
theorem witness_StrongboxKeyCommandsAreAnswered_15 : ∃ (s : State) (r : Req) (block : BlockRead), romServes s = false ∧ s.sbRequest 4 0x86 7 r ∧ sbBlock r (some 160) block = none ∧ keyItem block s = none :=
  ⟨askB 4 0x86 160 [1] up, reqB 0x86 160 [1], [1], by unfold State.sbRequest State.request; decide +kernel⟩
theorem witness_StrongboxKeyCommandsAreAnswered_16 : ∃ (s : State) (r : Req) (block : BlockRead) (kind : _) (usage : _) (id : _) (gen : _) (key : _) (k : _), romServes s = false ∧ s.sbRequest 4 0x86 7 r ∧ sbBlock r (some 160) block = none ∧ keyItem block s = some (kind, usage, id, gen, key) ∧ s.sb.keys.find? (fun k => k.kind == kind && k.keyId == id) = some k :=
  ⟨{ askB 4 0x86 160 keyB (wr SB_KEY_STATUS.OTP_COUNTER 5 (owned 7 [] up)) with sb := { (owned 7 [] up).sb with keys := [⟨0, 2, 1, 9, 1, []⟩] } }, reqB 0x86 160 keyB, keyB, 2, 1, 9, 2, List.replicate 96 3, ⟨0, 2, 1, 9, 1, []⟩, by unfold State.sbRequest State.request; exact ⟨by decide +kernel, by decide +kernel, by decide +kernel, (keyItem_of (by decide +kernel) (by decide +kernel)).trans keyB_item, by decide +kernel⟩⟩
theorem witness_StrongboxKeyCommandsAreAnswered_17 : ∃ (s : State) (r : Req) (block : BlockRead) (kind : _) (usage : _) (id : _) (gen : _) (key : _) (i : _), romServes s = false ∧ s.sbRequest 4 0x86 7 r ∧ sbBlock r (some 160) block = none ∧ keyItem block s = some (kind, usage, id, gen, key) ∧ s.sb.keys.find? (fun k => k.kind == kind && k.keyId == id) = none ∧ i < 16 ∧ ((∀ k ∈ s.sb.keys, k.slot ≠ i)) ∧ ((∀ j, j < i → ∃ k ∈ s.sb.keys, k.slot = j)) :=
  ⟨{ askB 4 0x86 160 keyB (wr SB_KEY_STATUS.OTP_COUNTER 5 (owned 7 [] up)) with sb := { (owned 7 [] up).sb with keys := [⟨0, 2, 1, 8, 1, []⟩] } }, reqB 0x86 160 keyB, keyB, 2, 1, 9, 2, List.replicate 96 3, 1, by unfold State.sbRequest State.request; exact ⟨by decide +kernel, by decide +kernel, by decide +kernel, (keyItem_of (by decide +kernel) (by decide +kernel)).trans keyB_item, by decide +kernel, by decide +kernel⟩⟩
theorem witness_StrongboxKeyCommandsAreAnswered_18 : ∃ (s : State) (r : Req) (block : BlockRead) (x : _), romServes s = false ∧ s.sbRequest 4 0x86 7 r ∧ sbBlock r (some 160) block = none ∧ keyItem block s = some x ∧ s.sb.keys.find? (fun k => k.kind == x.1 && k.keyId == x.2.2.1) = none ∧ ((∀ j, j < 16 → ∃ k ∈ s.sb.keys, k.slot = j)) :=
  ⟨{ askB 4 0x86 160 keyB (wr SB_KEY_STATUS.OTP_COUNTER 5 (owned 7 [] up)) with sb := { (owned 7 [] up).sb with keys := (List.range 16).map (fun i => ⟨i, 2, 1, 100 + i, 1, []⟩) } }, reqB 0x86 160 keyB, keyB, (2, 1, 9, 2, List.replicate 96 3), by unfold State.sbRequest State.request; exact ⟨by decide +kernel, by decide +kernel, by decide +kernel, (keyItem_of (by decide +kernel) (by decide +kernel)).trans keyB_item, by decide +kernel⟩⟩
theorem witness_StrongboxKeyCommandsAreAnswered_19 : ∃ (s : State) (r : Req) (n : Ctx) (k : _), romServes s = false ∧ s.sbRequest 4 0x87 4 r ∧ ctxOf (bits (r.w 1) 0 4) = some n ∧ ctxLive n s = true ∧ rd (GL_CTX_STATUS.CONFIDENTIAL (cid n)) s = 1 ∧ (cx n s).bounce.keySent = false ∧ workKey 1 2 (r.w 2) s = some k :=
  ⟨{ ask 4 0x87 [1, 4, 64, 0] (wr (GL_CTX_STATUS.CONFIDENTIAL 1) 1 (ctxUp 2 [] up)) with sb := { up.sb with keys := [⟨0, 1, 2, 4, 1, List.replicate 32 1⟩] } }, req 0x87 [1, 4, 64, 0], 0, List.replicate 32 1, by unfold State.sbRequest State.request; decide +kernel⟩
theorem witness_StrongboxKeyCommandsAreAnswered_20 : ∃ (s : State) (r : Req) (n : Ctx), romServes s = false ∧ s.sbRequest 4 0x87 4 r ∧ ctxOf (bits (r.w 1) 0 4) = some n ∧ (cx n s).bounce.keySent = true :=
  ⟨modCx 0 (fun c => { c with bounce := { c.bounce with keySent := true } }) (ask 4 0x87 [1, 4, 64, 0] (ctxUp 2 [] up)), req 0x87 [1, 4, 64, 0], 0, by unfold State.sbRequest State.request; decide +kernel⟩
theorem witness_ReinsAndHeartbeatsFollowTheirRules_0 : ∃ (s : State) (j : Fin 8), s.regsWf = true ∧ j.val ≠ 6 ∧ domOpen 21 s = true :=
  ⟨up, 3, by decide +kernel⟩
theorem witness_ReinsAndHeartbeatsFollowTheirRules_1 : ∃ (s : State) (j : Fin 8), s.regsWf = true ∧ j.val ≠ 6 ∧ cmUp s = true ∧ rd (SB_REINS.HOLDERS j.val) s = 0 ∧ j.val ≠ 0 ∧ j.val ≠ 1 ∧ j.val ≠ 7 :=
  ⟨up, 3, by decide +kernel⟩
theorem witness_ReinsAndHeartbeatsFollowTheirRules_2 : ∃ (s : State) (j : Fin 8), s.regsWf = true ∧ j.val ≠ 6 ∧ (rd (SB_REINS.HOLDERS j.val) s ≠ 0 ∨ j.val = 0 ∨ j.val = 1 ∨ j.val = 7) :=
  ⟨up, 2, by decide +kernel⟩
theorem witness_ReinsAndHeartbeatsFollowTheirRules_3 : ∃ (s : State) (j : Fin 8) (who : _), s.regsWf = true ∧ j.val ≠ 6 ∧ procRuns who s = true ∧ rd (SB_REINS.HOLDERS j.val) s = procCode who :=
  ⟨wr (SB_REINS.HOLDERS 3) 1 up, 3, .coachman, by decide +kernel⟩
theorem witness_ReinsAndHeartbeatsFollowTheirRules_4 : ∃ (s : State) (j : Fin 8) (who : _), s.regsWf = true ∧ j.val ≠ 6 ∧ rd (SB_REINS.HOLDERS j.val) s ≠ procCode who :=
  ⟨up, 3, .strongbox, by decide +kernel⟩
theorem witness_ReinsAndHeartbeatsFollowTheirRules_5 : ∃ (s : State), s.regsWf = true ∧ cmUp s = true ∧ domOpen 21 s = true :=
  ⟨up, by decide +kernel⟩
theorem witness_ReinsAndHeartbeatsFollowTheirRules_6 : ∃ (s : State), s.regsWf = true ∧ cmUp s = true ∧ domOpen 21 s = true :=
  ⟨up, by decide +kernel⟩
theorem witness_ReinsAndHeartbeatsFollowTheirRules_7 : ∃ (s : State), s.regsWf = true ∧ cmUp s = true ∧ domOpen 21 s = true ∧ dgOwns 1 s = true :=
  ⟨wrs [(SB_REINS.HOLDERS 6, 1), (DG_OWN.OWNER 0, 2), (DG_OWN.OWNER 1, 2), (DG_OWN.OWNER 2, 2)] up, by decide +kernel⟩
theorem witness_ReinsAndHeartbeatsFollowTheirRules_8 : ∃ (s : State), s.regsWf = true ∧ cmUp s = true ∧ domOpen 21 s = true ∧ dgOwns 2 s = true :=
  ⟨wrs [(SB_REINS.HOLDERS 6, 2), (DG_OWN.OWNER 0, 3), (DG_OWN.OWNER 1, 3), (DG_OWN.OWNER 2, 3)] up, by decide +kernel⟩
theorem witness_ReinsAndHeartbeatsFollowTheirRules_9 : ∃ (s : State), s.regsWf = true ∧ sbUp s = true ∧ cmUp s = true ∧ s.sb.hbSent = none ∧ ((s.sb.hbNum = 0 ∨ s.sb.hbAt + us 970 ≤ s.now)) :=
  ⟨up, by decide +kernel⟩
theorem witness_ReinsAndHeartbeatsFollowTheirRules_10 : ∃ (s : State) (v : _) (t0 : _), s.regsWf = true ∧ s.sb.hbSent = some (v, t0) ∧ t0 + us 200 ≤ s.now ∧ cmUp s = true ∧ domOpen 21 s = true :=
  ⟨{ up with sb := { up.sb with hbSent := some (0x01000807, 5) } }, 0x01000807, 5, by decide +kernel⟩
theorem witness_ReinsAndHeartbeatsFollowTheirRules_11 : ∃ (s : State) (v : _) (t0 : _), s.regsWf = true ∧ s.sb.hbSent = some (v, t0) ∧ t0 + us 200 ≤ s.now ∧ cmUp s = false :=
  ⟨wr (MB.H2K_STATUS.PEER 0) 3 { up with sb := { up.sb with hbSent := some (0x01000807, 5) } }, 0x01000807, 5, by decide +kernel⟩
theorem witness_HeartbeatAnswersAreCompared_0 : ∃ (s : State) (v : Nat) (t0 : Nat) (view : HbView), s.regsWf = true ∧ s.sb.hbSent = some (v, t0) ∧ cmUp s = true ∧ s.now ≤ t0 + us 200 ∧ s.sb.hbVoid = false ∧ sbView s = v % 2 ^ 24 ∧ view.words = [v] :=
  ⟨{ up with sb := { up.sb with hbSent := some (sbView up + 2^24, 999999999000) } }, sbView up + 2^24, 999999999000, ⟨[sbView up + 2^24]⟩, by decide +kernel⟩
theorem witness_HeartbeatAnswersAreCompared_1 : ∃ (s : State) (v : Nat) (t0 : Nat), s.regsWf = true ∧ s.sb.hbSent = some (v, t0) ∧ cmUp s = true ∧ s.now ≤ t0 + us 200 ∧ (s.sb.hbVoid = true ∨ sbView s ≠ v % 2 ^ 24) :=
  ⟨{ up with sb := { up.sb with hbSent := some (sbView up + 2^24 + 1, 999999999000) } }, sbView up + 2^24 + 1, 999999999000, by decide +kernel⟩
theorem witness_HeartbeatAnswersAreCompared_2 : ∃ (s : State) (v : Nat) (t0 : Nat) (view : HbView) (w : _), s.regsWf = true ∧ s.sb.hbSent = some (v, t0) ∧ cmUp s = true ∧ s.now ≤ t0 + us 200 ∧ s.sb.hbVoid = false ∧ sbView s = v % 2 ^ 24 ∧ view.words = [w] ∧ w ≠ v ∧ s.sb.hbBad = false :=
  ⟨{ up with sb := { up.sb with hbSent := some (sbView up + 2^24, 999999999000) } }, sbView up + 2^24, 999999999000, ⟨[sbView up + 2^24 + 1]⟩, sbView up + 2^24 + 1, by decide +kernel⟩
theorem witness_HeartbeatAnswersAreCompared_3 : ∃ (s : State) (v : Nat) (t0 : Nat) (view : HbView) (w : _), s.regsWf = true ∧ s.sb.hbSent = some (v, t0) ∧ cmUp s = true ∧ s.now ≤ t0 + us 200 ∧ s.sb.hbVoid = false ∧ sbView s = v % 2 ^ 24 ∧ view.words = [w] ∧ w ≠ v ∧ s.sb.hbBad = true ∧ sbUp s = true ∧ s.awake :=
  ⟨{ up with sb := { up.sb with hbBad := true, hbSent := some (sbView up + 2^24, 999999999000) } }, sbView up + 2^24, 999999999000, ⟨[sbView up + 2^24 + 1]⟩, sbView up + 2^24 + 1, by unfold State.awake; decide +kernel⟩
theorem witness_HeartbeatAnswersAreCompared_4 : ∃ (s : State) (v : Nat) (t0 : Nat), s.regsWf = true ∧ s.sb.hbSent = some (v, t0) ∧ t0 + us 200 ≤ s.now :=
  ⟨{ up with sb := { up.sb with hbSent := some (0x01000807, 5) } }, 0x01000807, 5, by decide +kernel⟩
theorem witness_BootRunsItsSteps_0 : ∃ (s : State), s.regsWf = true ∧ s.pins.pwrGood = false :=
  ⟨{ wrs [(SB_STATUS.STAGE, 4)] State.reset with flash := [(5, 1)] }, by decide +kernel⟩
theorem witness_BootRunsItsSteps_1 : ∃ (s : State), s.regsWf = true ∧ s.pins.pwrGood = true :=
  ⟨up, by decide +kernel⟩
theorem witness_BootRunsItsSteps_2 : ∃ (s : State), s.regsWf = true ∧ s.pw.bootStep = 1 :=
  ⟨boots 1 State.reset, by decide +kernel⟩
theorem witness_BootRunsItsSteps_3 : ∃ (s : State), s.regsWf = true ∧ s.pw.bootStep = 2 ∧ domOn 21 s = true :=
  ⟨boots 2 up, by decide +kernel⟩
theorem witness_BootRunsItsSteps_4 : ∃ (s : State), s.regsWf = true ∧ s.pw.bootStep = 2 ∧ domOn 21 s = false :=
  ⟨boots 2 (wr (PM_PWR_STATUS.ON 21) 0 up), by decide +kernel⟩
theorem witness_BootRunsItsSteps_5 : ∃ (s : State), s.regsWf = true ∧ s.pw.bootStep = 3 ∧ rd PM_SLEEP.STATE s = 3 :=
  ⟨wr PM_SLEEP.STATE 3 (fuseLc 7 (boots 3 up)), by decide +kernel⟩
theorem witness_BootRunsItsSteps_6 : ∃ (s : State) (obs : BootObs), s.regsWf = true ∧ s.pw.bootStep = 4 ∧ obs.ok = true :=
  ⟨boots 4 up, ⟨true, true, 0xFF#8⟩, by decide +kernel⟩
theorem witness_BootRunsItsSteps_7 : ∃ (s : State) (obs : BootObs), s.regsWf = true ∧ s.pw.bootStep = 4 ∧ obs.ok = false :=
  ⟨boots 4 up, ⟨false, true, 0#8⟩, by decide +kernel⟩
theorem witness_BootRunsItsSteps_8 : ∃ (s : State), s.regsWf = true ∧ s.pw.bootStep = 5 :=
  ⟨boots 5 up, by decide +kernel⟩
theorem witness_BootRunsItsSteps_9 : ∃ (s : State), s.regsWf = true ∧ s.pw.bootStep = 6 :=
  ⟨boots 6 up, by decide +kernel⟩
theorem witness_BootRunsItsSteps_10 : ∃ (s : State) (obs : BootObs) (v : _), s.regsWf = true ∧ s.pw.bootStep = 7 ∧ v = bootIdentity (bootRoots (bootUds obs.ok s).2) :=
  ⟨boots 7 (owned 1 [] up), ⟨true, true, 0xFF#8⟩, bootIdentity (bootRoots (bootUds true (boots 7 (owned 1 [] up))).2), by exact ⟨by decide +kernel, by decide +kernel, rfl⟩⟩
theorem witness_BootRunsItsSteps_11 : ∃ (s : State), s.regsWf = true ∧ s.pw.bootStep = 8 :=
  ⟨boots 8 up, by decide +kernel⟩
theorem witness_BootRunsItsSteps_12 : ∃ (s : State), s.regsWf = true ∧ s.pw.bootStep = 9 ∧ domOn 17 s = true ∧ domOn 20 s = true ∧ lifecycle s ≠ 0 ∧ rd SB_STATUS.STAGE s ≠ 14 :=
  ⟨boots 9 up, by decide +kernel⟩
theorem witness_BootRunsItsSteps_13 : ∃ (s : State), s.regsWf = true ∧ s.pw.bootStep = 9 ∧ domOn 17 s = true ∧ domOn 20 s = true ∧ (lifecycle s = 0 ∨ rd SB_STATUS.STAGE s = 14) :=
  ⟨boots 9 (wr SB_STATUS.STAGE 14 up), by decide +kernel⟩
theorem witness_BootRunsItsSteps_14 : ∃ (s : State), s.regsWf = true ∧ s.pw.bootStep = 9 ∧ (domOn 17 s = false ∨ domOn 20 s = false) ∧ (clocksOk s = false ∨ rd (PM_PWR_REQ.REQ 20) s ≠ 0) :=
  ⟨boots 9 (wr (PM_PWR_STATUS.ON 17) 0 up), by decide +kernel⟩
theorem witness_BootRunsItsSteps_15 : ∃ (s : State), s.regsWf = true ∧ s.pw.bootStep = 9 ∧ (domOn 17 s = false ∨ domOn 20 s = false) ∧ clocksOk s = true ∧ rd (PM_PWR_REQ.REQ 20) s = 0 :=
  ⟨boots 9 (wrs [(PM_PWR_STATUS.ON 20, 0), (PM_PWR_REQ.REQ 20, 0), (PM_CLK_STATUS.ARITH_OK, 1), (PM_CLK_STATUS.FAB_OK, 1)] up), by decide +kernel⟩
theorem witness_BootRunsItsSteps_16 : ∃ (s : State), s.regsWf = true ∧ s.pw.bootStep = 10 :=
  ⟨boots 10 up, by decide +kernel⟩
theorem witness_BootRunsItsSteps_17 : ∃ (s : State), s.regsWf = true ∧ s.pw.bootStep = 11 :=
  ⟨boots 11 up, by decide +kernel⟩
theorem witness_BootRunsItsSteps_18 : ∃ (s : State), s.regsWf = true ∧ s.pw.bootStep = 12 :=
  ⟨boots 12 up, by decide +kernel⟩
theorem witness_BootRunsItsSteps_19 : ∃ (s : State), s.regsWf = true ∧ s.pw.bootStep = 13 ∧ domOn 18 s = true :=
  ⟨boots 13 up, by decide +kernel⟩
theorem witness_BootRunsItsSteps_20 : ∃ (s : State), s.regsWf = true ∧ s.pw.bootStep = 13 ∧ domOn 18 s = false :=
  ⟨boots 13 (wr (PM_PWR_STATUS.ON 18) 0 up), by decide +kernel⟩
theorem witness_BootRunsItsSteps_21 : ∃ (s : State), s.regsWf = true ∧ s.pw.bootStep = 14 :=
  ⟨boots 14 up, by decide +kernel⟩
theorem witness_BootRunsItsSteps_22 : ∃ (s : State), s.regsWf = true ∧ s.pw.bootStep = 15 ∧ domOn 19 s = true :=
  ⟨boots 15 { chained with sb := { chained.sb with autoJoin := true } }, by decide +kernel⟩
theorem witness_BootRunsItsSteps_23 : ∃ (s : State), s.regsWf = true ∧ s.pw.bootStep = 15 ∧ domOn 19 s = false :=
  ⟨boots 15 (wr (PM_PWR_STATUS.ON 19) 0 up), by decide +kernel⟩
theorem witness_BootRunsItsSteps_24 : ∃ (s : State), s.regsWf = true ∧ s.pw.bootStep = 16 :=
  ⟨boots 16 (wr PM_FLT_LAST.NEW 1 up), by decide +kernel⟩
theorem witness_DigestEngineIsOwnedAndDigests_0 : ∃ (s : State) (user : Target) (v : Fin 3), v = dgViewOf user ∧ s.dgReach user 0 ∧ dgOwner s = 0 :=
  ⟨up, .host, 0, by unfold State.dgReach State.served; decide +kernel⟩
theorem witness_DigestEngineIsOwnedAndDigests_1 : ∃ (s : State) (user : Target) (v : Fin 3), v = dgViewOf user ∧ s.dgReach user 0 ∧ dgOwner s ≠ 0 ∧ dgOwns v s = false ∧ dgOutranked v s = false ∧ user ≠ .strongbox :=
  ⟨dgo 2 up, .host, 0, by unfold State.dgReach State.served; decide +kernel⟩
theorem witness_DigestEngineIsOwnedAndDigests_2 : ∃ (s : State) (user : Target) (v : Fin 3) (w : Fin 3), v = dgViewOf user ∧ s.dgReach user 0 ∧ w < v ∧ dgOwner s = w.val + 1 ∧ dgOutranked v s = true :=
  ⟨{ dgo 1 up with dg := { (dgo 1 up).dg with grantAt := some up.now } }, .coachman, 1, 0, by unfold State.dgReach State.served; decide +kernel⟩
theorem witness_DigestEngineIsOwnedAndDigests_3 : ∃ (s : State) (user : Target) (v : Fin 3) (w : _), v = dgViewOf user ∧ s.dgReach user 0 ∧ user = .strongbox ∧ w < 2 ∧ dgOwner s = w + 1 ∧ dgOutranked v s = false :=
  ⟨dgo 1 up, .strongbox, 2, 0, by unfold State.dgReach State.served; decide +kernel⟩
theorem witness_DigestEngineIsOwnedAndDigests_4 : ∃ (s : State) (user : Target) (v : Fin 3), v = dgViewOf user ∧ s.dgReach user 0 ∧ dgOwns v s = true ∧ s.dg.suspended = none :=
  ⟨dgm 0 msg1 (dgo 1 up), .host, 0, by unfold State.dgReach State.served; decide +kernel⟩
theorem witness_DigestEngineIsOwnedAndDigests_5 : ∃ (s : State) (user : Target) (v : Fin 3) (w : _), v = dgViewOf user ∧ s.dgReach user 0 ∧ dgOwns v s = true ∧ s.dg.suspended = some w ∧ w < 3 :=
  ⟨susp 0 (dgm 2 msg1 (dgo 3 up)), .strongbox, 2, 0, by unfold State.dgReach State.served; decide +kernel⟩
theorem witness_DigestEngineIsOwnedAndDigests_6 : ∃ (s : State) (user : Target) (v : Fin 3), v = dgViewOf user ∧ s.dgReach user 8 ∧ dgOwns v s = true ∧ rd (DG_CFG.ALG v) s ≠ 3 ∧ ((rd (DG_CFG.HMAC v) s = 1 → rd (DG_CFG.KEY_LEN v) s ≤ digestBlock (rd (DG_CFG.ALG v) s))) :=
  ⟨dgm 0 msg1 (dgo 1 up), .host, 0, by unfold State.dgReach State.served; decide +kernel⟩
theorem witness_DigestEngineIsOwnedAndDigests_7 : ∃ (s : State) (user : Target) (v : Fin 3), v = dgViewOf user ∧ s.dgReach user 8 ∧ dgOwns v s = true ∧ ((rd (DG_CFG.ALG v) s = 3 ∨ rd (DG_CFG.HMAC v) s = 1 ∧ digestBlock (rd (DG_CFG.ALG v) s) < rd (DG_CFG.KEY_LEN v) s)) :=
  ⟨wr (DG_CFG.ALG 0) 3 (dgo 1 up), .host, 0, by unfold State.dgReach State.served; decide +kernel⟩
theorem witness_DigestEngineIsOwnedAndDigests_8 : ∃ (s : State) (user : Target) (v : Fin 3), v = dgViewOf user ∧ s.dgReach user 8 ∧ dgOwns v s = true :=
  ⟨wr (DG_STATUS.DONE 0) 1 (dgm 0 msg1 (dgo 1 up)), .host, 0, by unfold State.dgReach State.served; decide +kernel⟩
theorem witness_DigestEngineIsOwnedAndDigests_9 : ∃ (s : State) (user : Target) (v : Fin 3), v = dgViewOf user ∧ s.dgReach user 8 ∧ dgOwns v s = true ∧ dgTakes v s = true ∧ dgSrcOk v s = true :=
  ⟨wrs [(DG_SRC.ADDR 0, 4096), (DG_SRC_LEN.BYTES 0, 9), (DG_MEM_CFG.FINAL 0, 1)] (dgm 0 DgMsg.init (dgo 1 up)), .host, 0, by unfold State.dgReach State.served; decide +kernel⟩
theorem witness_DigestEngineIsOwnedAndDigests_10 : ∃ (s : State) (user : Target) (v : Fin 3), v = dgViewOf user ∧ s.dgReach user 8 ∧ dgOwns v s = true ∧ dgTakes v s = true ∧ dgSrcOk v s = false :=
  ⟨wr (DG_MEM_CFG.SEL 0) 1 (dgm 0 DgMsg.init (dgo 1 up)), .host, 0, by unfold State.dgReach State.served; decide +kernel⟩
theorem witness_DigestEngineIsOwnedAndDigests_11 : ∃ (s : State) (user : Target) (v : Fin 3), v = dgViewOf user ∧ s.dgReach user 0x10 ∧ dgOwns v s = true ∧ dgTakes v s = true :=
  ⟨dgm 0 DgMsg.init (dgo 1 up), .host, 0, by unfold State.dgReach State.served; decide +kernel⟩
theorem witness_DigestEngineIsOwnedAndDigests_12 : ∃ (s : State) (user : Target) (v : Fin 3), v = dgViewOf user ∧ s.dgReach user 0x10 ∧ dgOwns v s = true ∧ dgTakes v s = false :=
  ⟨dgm 0 msg1 (dgo 1 up), .host, 0, by unfold State.dgReach State.served; decide +kernel⟩
theorem witness_DigestEngineIsOwnedAndDigests_13 : ∃ (s : State) (user : Target) (v : Fin 3), v = dgViewOf user ∧ s.dgReach user 0x10 ∧ dgOwns v s = false :=
  ⟨dgo 2 up, .host, 0, by unfold State.dgReach State.served; decide +kernel⟩
theorem witness_DigestEngineIsOwnedAndDigests_14 : ∃ (s : State) (user : Target) (v : Fin 3), v = dgViewOf user ∧ s.dgReach user 0x14 ∧ dgOwns v s = true ∧ dgTakes v s = true ∧ rd (DG_LAST_CNT.COUNT v) s ≤ 4 :=
  ⟨wr (DG_LAST_CNT.COUNT 0) 3 (dgm 0 DgMsg.init (dgo 1 up)), .host, 0, by unfold State.dgReach State.served; decide +kernel⟩
theorem witness_DigestEngineIsOwnedAndDigests_15 : ∃ (s : State) (user : Target) (v : Fin 3), v = dgViewOf user ∧ s.dgReach user 0x14 ∧ dgOwns v s = true ∧ dgTakes v s = true ∧ 4 < rd (DG_LAST_CNT.COUNT v) s :=
  ⟨wr (DG_LAST_CNT.COUNT 0) 5 (dgm 0 DgMsg.init (dgo 1 up)), .host, 0, by unfold State.dgReach State.served; decide +kernel⟩
theorem witness_DigestEngineIsOwnedAndDigests_16 : ∃ (s : State) (user : Target) (v : Fin 3) (w : Fin 16), v = dgViewOf user ∧ s.dgReach user (0x100 + if user = .host then 4 * w.val else 0) ∧ dgOwns v s = true ∧ rd (DG_STATUS.DONE v) s = 1 :=
  ⟨wrs [(DG_STATUS.DONE 0, 1), (DG_RESULT.RESULT 0 3, 77)] (dgo 1 up), .host, 0, 3, by unfold State.dgReach State.served; decide +kernel⟩
theorem witness_DigestEngineIsOwnedAndDigests_17 : ∃ (s : State) (user : Target) (v : Fin 3) (w : Fin 16), v = dgViewOf user ∧ s.dgReach user (0x100 + if user = .host then 4 * w.val else 0) ∧ dgOwns v s = true ∧ rd (DG_STATUS.DONE v) s = 0 :=
  ⟨dgo 1 up, .host, 0, 3, by unfold State.dgReach State.served; decide +kernel⟩
theorem witness_DigestEngineIsOwnedAndDigests_18 : ∃ (s : State) (user : Target) (v : Fin 3) (a : _) (len : _) (sel : _) (final : _), v = dgViewOf user ∧ s.regsWf = true ∧ dgOwns v s = true ∧ (dgMsg v s).chunk = some (a, len, sel, final) ∧ dgReading v s = false ∧ (sel ≠ 0 ∨ (dgMsg v s).memErr = false) :=
  ⟨dgm 0 { DgMsg.init with bytes := [9], chunk := some (4096, 2, 0, true) } (dgo 1 up), .host, 0, 4096, 2, 0, true, by decide +kernel⟩
theorem witness_DigestEngineIsOwnedAndDigests_19 : ∃ (s : State) (user : Target) (v : Fin 3) (a : _) (len : _) (sel : _) (final : _) (err : _), v = dgViewOf user ∧ s.regsWf = true ∧ dgOwns v s = true ∧ (dgMsg v s).chunk = some (a, len, sel, final) ∧ dgReading v s = false ∧ sel = 0 ∧ ((err = true ∨ (dgMsg v s).memErr = true)) :=
  ⟨dgm 0 { DgMsg.init with bytes := [9], chunk := some (4096, 2, 0, true) } (dgo 1 up), .host, 0, 4096, 2, 0, true, true, by decide +kernel⟩
theorem witness_DigestEngineIsOwnedAndDigests_20 : ∃ (s : State) (user : Target) (v : Fin 3), v = dgViewOf user ∧ s.regsWf = true ∧ dgOwns v s = true ∧ rd (DG_STATUS.ACTIVE v) s = 1 ∧ (dgMsg v s).ended = true ∧ rd (DG_STATUS.LOST v) s = 0 ∧ v.val ≠ 2 :=
  ⟨dgm 0 msg1 (dgo 1 up), .host, 0, by decide +kernel⟩
theorem witness_DigestEngineIsOwnedAndDigests_21 : ∃ (s : State) (user : Target) (v : Fin 3), v = dgViewOf user ∧ s.regsWf = true ∧ dgOwns v s = true ∧ v.val ≠ 2 ∧ s.dg.suspended = none ∧ s.dg.lastWrite + ms 10 ≤ s.now :=
  ⟨dgm 0 msg1 (dgo 1 up), .host, 0, by decide +kernel⟩
theorem witness_DigestEngineIsOwnedAndDigests_22 : ∃ (s : State) (user : Target) (v : Fin 3), v = dgViewOf user ∧ s.dgReach user 0xC4 ∧ dgOwns v s = true :=
  ⟨wrs [(DG_REFUSED.WRITES 0, 3)] (dgo 1 up), .host, 0, by unfold State.dgReach State.served; decide +kernel⟩
theorem witness_DirectFuseOperationsRunAndEnd_0 : ∃ (s : State) (lock : Bool) (i : Instr) (c : _), i = (if lock then .otpProgLock else .otpProgWord) ∧ s.served 0xA00028 false ∧ otpRefusal lock s = some c :=
  ⟨up, false, .otpProgWord, 1, by unfold State.served; decide +kernel⟩
theorem witness_DirectFuseOperationsRunAndEnd_1 : ∃ (s : State) (lock : Bool) (i : Instr), i = (if lock then .otpProgLock else .otpProgWord) ∧ s.served 0xA00028 false ∧ rd SB_STATUS.LIFECYCLE s ≠ 1 :=
  ⟨up, false, .otpProgWord, by unfold State.served; decide +kernel⟩
theorem witness_DirectFuseOperationsRunAndEnd_2 : ∃ (s : State) (lock : Bool) (i : Instr), i = (if lock then .otpProgLock else .otpProgWord) ∧ s.served 0xA00028 false ∧ rd SB_STATUS.LIFECYCLE s = 1 ∧ s.otp.op = none ∧ lock = true ∧ 1 ≤ rd OTP_PROG_ADDR.REGION s ∧ rd OTP_PROG_ADDR.REGION s ≤ 13 :=
  ⟨wrs [(SB_STATUS.LIFECYCLE, 1), (OTP_PROG_ADDR.REGION, 13)] up, true, .otpProgLock, by unfold State.served; decide +kernel⟩
theorem witness_DirectFuseOperationsRunAndEnd_3 : ∃ (s : State) (lock : Bool) (i : Instr) (r : _), i = (if lock then .otpProgLock else .otpProgWord) ∧ s.served 0xA00028 false ∧ rd SB_STATUS.LIFECYCLE s = 1 ∧ s.otp.op = none ∧ lock = false ∧ otpRegion (rd OTP_PROG_ADDR.WORD s) = some r ∧ 1 ≤ r ∧ otpBlank (rd OTP_PROG_ADDR.WORD s) s = true ∧ otpLocked r s = false :=
  ⟨wrs [(SB_STATUS.LIFECYCLE, 1), (OTP_PROG_ADDR.WORD, 100), (OTP_PROG_DATA.DATA, 9)] up, false, .otpProgWord, (otpRegion 100).getD 0, by unfold State.served; decide +kernel⟩
theorem witness_DirectFuseOperationsRunAndEnd_4 : ∃ (s : State) (lock : Bool) (i : Instr) (o : _), i = (if lock then .otpProgLock else .otpProgWord) ∧ s.regsWf = true ∧ s.otpWf = true ∧ s.otp.op = some o :=
  ⟨{ up with otp := { up.otp with op := some ⟨false, 100, otpCoded 9, 0, 5⟩ } }, false, .otpProgWord, ⟨false, 100, otpCoded 9, 0, 5⟩, by decide +kernel⟩
theorem witness_ServicePortRequestsAreServed_0 : ∃ (s : State) (f : List Byte) (i : _) (ops : _), s.regsWf = true ∧ svcRow i = some (ops, f) ∧ (svcServes s = false ∨ svcBusy s = true ∨ ops (svcOp f) = false ∨ svcLenOk f s = false ∨ svcCrcOk f = false) :=
  ⟨up, [], .svcHello [], (· == 1), by exact ⟨by decide +kernel, rfl, by decide +kernel⟩⟩
theorem witness_ServicePortRequestsAreServed_1 : ∃ (s : State) (f : List Byte) (i : _) (ops : _), s.regsWf = true ∧ svcRow i = some (ops, f) ∧ svcServes s = true ∧ svcBusy s = false ∧ ops (svcOp f) = true ∧ svcLenOk f s = true ∧ svcCrcOk f = true ∧ svcAuthOk f s = false :=
  ⟨{ up with sb := { up.sb with keys := [⟨0, 1, 3, 1, 1, List.replicate 48 3⟩] } }, fr 5 2 [], .svcStatus (fr 5 2 []), (· == 5), by exact ⟨by decide +kernel, rfl, by decide +kernel⟩⟩
theorem witness_ServicePortRequestsAreServed_2 : ∃ (s : State) (f : List Byte), s.regsWf = true ∧ s.svcRequest 1 f ∧ svcLen f = 0 :=
  ⟨owned 7 [] up, fr 1 0 [], by unfold State.svcRequest; decide +kernel⟩
theorem witness_ServicePortRequestsAreServed_3 : ∃ (s : State) (f : List Byte) (e : _), s.regsWf = true ∧ s.svcRequest 2 f ∧ beginCheck (svcBody f) s = some e :=
  ⟨sess (wr SB_UPD_STATUS.SESSION 1 up), fr 2 0 [1], stBUSY, by unfold State.svcRequest; decide +kernel⟩
theorem witness_ServicePortRequestsAreServed_4 : ∃ (s : State) (f : List Byte), s.regsWf = true ∧ s.svcRequest 2 f ∧ beginCheck (svcBody f) s = none :=
  ⟨sess (dirs [(16, 16), (17, 3), (21, 8192)] up), fr 2 0 (manif 2 []), by unfold State.svcRequest; decide +kernel⟩
theorem witness_ServicePortRequestsAreServed_5 : ∃ (s : State) (f : List Byte), s.regsWf = true ∧ s.svcRequest 3 f ∧ guardRefuses s = true :=
  ⟨sess (wr SB_STATUS.STAGE 14 { up with pins := { up.pins with supplyLow := true } }), fr 3 0 [1], by unfold State.svcRequest; decide +kernel⟩
theorem witness_ServicePortRequestsAreServed_6 : ∃ (s : State) (f : List Byte) (u : _), s.regsWf = true ∧ s.svcRequest 3 f ∧ guardRefuses s = false ∧ staging s = true ∧ u = stagingUnit s ∧ svcArg f < wordN s.sb.svc.manifest 5 ∧ svcLen f = 4096 ∧ ((u < 2 → sha384 (svcBody f) = slice s.sb.svc.manifest (128 + 48 * svcArg f) 48)) ∧ ((svcArg f = 0 → slice (svcBody f) 0 128 = slice s.sb.svc.manifest 0 128)) :=
  ⟨staged 2 (manif 2 [(5, 2), (2, 8192)]) [] (dirs [(21, 8192)] up), frBlock 1, 2, by unfold State.svcRequest; exact ⟨by decide +kernel, ⟨by decide +kernel, by decide +kernel, by decide +kernel, by decide +kernel, frBlock_ok _ _ (by decide +kernel) (by decide +kernel), seal_ok _, by decide +kernel⟩, by decide +kernel, by decide +kernel, by decide +kernel, by decide +kernel, by decide +kernel, fun h => absurd h (by decide), fun h => absurd h (by decide +kernel)⟩⟩
theorem witness_ServicePortRequestsAreServed_7 : ∃ (s : State) (f : List Byte) (u : _), s.regsWf = true ∧ s.svcRequest 3 f ∧ guardRefuses s = false ∧ staging s = true ∧ u = stagingUnit s ∧ svcArg f < wordN s.sb.svc.manifest 5 ∧ svcLen f = 4096 ∧ u < 2 ∧ sha384 (svcBody f) ≠ slice s.sb.svc.manifest (128 + 48 * svcArg f) 48 :=
  ⟨staged 1 (manif 1 []) [] (dirs [(21, 8192)] up), frBlock 0, 1, by unfold State.svcRequest; exact ⟨by decide +kernel, ⟨by decide +kernel, by decide +kernel, by decide +kernel, by decide +kernel, frBlock_ok _ _ (by decide +kernel) (by decide +kernel), seal_ok _, by decide +kernel⟩, by decide +kernel, by decide +kernel, by decide +kernel, by decide +kernel, by decide +kernel, by decide, by rw [frBlock_body _ (by decide +kernel)]; exact fun h => block_hash (h.trans (by decide +kernel))⟩⟩
theorem witness_ServicePortRequestsAreServed_8 : ∃ (s : State) (f : List Byte) (u : _), s.regsWf = true ∧ s.svcRequest 4 f ∧ svcLen f = 0 ∧ guardRefuses s = false ∧ staging s = true ∧ u = stagingUnit s ∧ s.sb.svc.written.length ≠ wordN s.sb.svc.manifest 5 :=
  ⟨staged 1 (manif 1 []) [] (dirs [(21, 8192)] up), fr 4 0 [], 1, by unfold State.svcRequest; decide +kernel⟩
theorem witness_ServicePortRequestsAreServed_9 : ∃ (s : State) (f : List Byte) (u : _), s.regsWf = true ∧ s.svcRequest 4 f ∧ svcLen f = 0 ∧ guardRefuses s = false ∧ staging s = true ∧ u = stagingUnit s ∧ s.sb.svc.written.length = wordN s.sb.svc.manifest 5 ∧ u < 6 ∧ s.sb.dir.length = 40 ∧ ((u < 2 → imgHeaderOk u (dirBase u (1 - dirActive u s) s) s = true ∧ imgSigned u (dirBase u (1 - dirActive u s) s) s = true)) :=
  ⟨staged 2 (manif 2 []) [0] (dirs [(21, 8192)] up), fr 4 0 [], 2, by unfold State.svcRequest; decide +kernel⟩
theorem witness_ServicePortRequestsAreServed_10 : ∃ (s : State) (f : List Byte), s.regsWf = true ∧ s.svcRequest 5 f ∧ svcLen f = 0 :=
  ⟨sess (dirs [] up), fr 5 0 [], by unfold State.svcRequest; decide +kernel⟩
theorem witness_ServicePortRequestsAreServed_11 : ∃ (s : State) (f : List Byte), s.regsWf = true ∧ s.svcRequest 6 f ∧ svcLen f = 0 ∧ svcArg f < 6 ∧ dirInactive (svcArg f) s = 1 ∧ s.sb.dir.length = 40 :=
  ⟨sess (dirs [(16, 8), (17, 1), (18, 2)] up), fr 6 2 [], by unfold State.svcRequest; decide +kernel⟩
theorem witness_ServicePortRequestsAreServed_12 : ∃ (s : State) (f : List Byte), s.regsWf = true ∧ s.svcRequest 6 f ∧ svcLen f = 0 ∧ svcArg f < 6 ∧ dirInactive (svcArg f) s ≠ 1 :=
  ⟨sess (dirs [(16, 16), (17, 1), (18, 2)] up), fr 6 2 [], by unfold State.svcRequest; decide +kernel⟩
theorem witness_ServicePortRequestsAreServed_13 : ∃ (s : State) (f : List Byte) (e : _), s.regsWf = true ∧ s.svcRequest 7 f ∧ svcLen f = 0 ∧ activateCheck (svcArg f) s = some e :=
  ⟨sess (dirs [(16, 8), (17, 3), (18, 2)] up), fr 7 2 [], stROLLBACK, by unfold State.svcRequest; decide +kernel⟩
theorem witness_ServicePortRequestsAreServed_14 : ∃ (s : State) (f : List Byte), s.regsWf = true ∧ s.svcRequest 7 f ∧ svcLen f = 0 ∧ s.sb.dir.length = 40 ∧ activateCheck (svcArg f) s = none ∧ svcArg f ∈ [0, 1, 5] :=
  ⟨sess (dirs [(34, 8), (35, 1), (36, 2)] up), fr 7 5 [], by unfold State.svcRequest; decide +kernel⟩
theorem witness_ServicePortRequestsAreServed_15 : ∃ (s : State) (f : List Byte), s.regsWf = true ∧ s.svcRequest 7 f ∧ svcLen f = 0 ∧ s.sb.dir.length = 40 ∧ activateCheck (svcArg f) s = none ∧ svcArg f ∈ [2, 3, 4] :=
  ⟨sess (dirs [(16, 8), (17, 1), (18, 2)] up), fr 7 2 [], by unfold State.svcRequest; decide +kernel⟩
theorem witness_ServicePortRequestsAreServed_16 : ∃ (s : State) (f : List Byte) (x : _), s.regsWf = true ∧ svcLen f ≠ 0 ∧ x ∈ [(1, Instr.svcHello f), (4, .svcEnd f), (5, .svcStatus f), (6, .svcDiscard f), (7, .svcActivate f)] ∧ s.svcRequest x.1 f :=
  ⟨sess (dirs [] up), fr 5 0 [1], (5, Instr.svcStatus (fr 5 0 [1])), by unfold State.svcRequest; decide +kernel⟩
theorem witness_ServicePortRequestsAreServed_17 : ∃ (s : State) (f : List Byte) (op : _), s.regsWf = true ∧ s.svcRequest op f ∧ ((op = 0 ∨ 7 < op)) :=
  ⟨sess (dirs [] up), fr 9 5 [], 9, by unfold State.svcRequest; decide +kernel⟩
theorem witness_ServicePortRequestsAreServed_18 : ∃ (s : State), s.regsWf = true ∧ svcServes s = true ∧ s.pins.svcAttnN = true :=
  ⟨up, by decide +kernel⟩
theorem witness_ServicePortRequestsAreServed_19 : ∃ (s : State) (b : _), s.regsWf = true ∧ svcServes s = true ∧ s.sb.svc.resp = some b ∧ s.pins.svcAttnN = false :=
  ⟨{ up with pins := { up.pins with svcAttnN := false }, sb := { up.sb with svc := { up.sb.svc with resp := some [1] } } }, [1], by decide +kernel⟩
theorem witness_ServicePortRequestsAreServed_20 : ∃ (s : State) (b : _), s.regsWf = true ∧ s.sb.svc.resp = some b ∧ svcServes s = true :=
  ⟨{ up with sb := { up.sb with svc := { up.sb.svc with resp := some [1] } } }, [1], by decide +kernel⟩
theorem witness_ServicePortRequestsAreServed_21 : ∃ (s : State), s.regsWf = true ∧ staging s = true ∧ s.sb.svc.lastAt + ms 10000 ≤ s.now :=
  ⟨staged 2 (manif 2 []) [0] up, by decide +kernel⟩
theorem witness_ServicePortRequestsAreServed_22 : ∃ (s : State), s.regsWf = true ∧ svcServes s = true ∧ svcBusy s = true :=
  ⟨{ up with sb := { up.sb with svc := { up.sb.svc with resp := some [1] } } }, by decide +kernel⟩
theorem witness_ServicePortRequestsAreServed_23 : ∃ (s : State) (f : List Byte), s.regsWf = true ∧ svcServes s = true ∧ svcBusy s = false ∧ ((svcLenOk f s = false ∨ svcCrcOk f = false)) :=
  ⟨up, [1], by decide +kernel⟩
theorem witness_UpdatesActivateConfirmAndExpire_0 : ∃ (s : State) (r : Req) (u : Fin 6), s.sb.dir.length = 40 ∧ s.sbRequest 2 0x88 1 r ∧ romServes s = false ∧ bits (r.w 1) 0 3 = u.val :=
  ⟨ask 2 0x88 [2] (dirs [(16, 8)] up), req 0x88 [2], 2, by unfold State.sbRequest State.request; decide +kernel⟩
theorem witness_UpdatesActivateConfirmAndExpire_1 : ∃ (s : State) (r : Req), s.sb.dir.length = 40 ∧ s.sbRequest 2 0x88 1 r ∧ romServes s = false ∧ 5 < bits (r.w 1) 0 3 :=
  ⟨ask 2 0x88 [6] (dirs [] up), req 0x88 [6], by unfold State.sbRequest State.request; decide +kernel⟩
theorem witness_UpdatesActivateConfirmAndExpire_2 : ∃ (s : State) (r : Req) (u : Fin 6) (e : _), s.sb.dir.length = 40 ∧ s.sbRequest 4 0x89 1 r ∧ romServes s = false ∧ bits (r.w 1) 0 3 = u.val ∧ activateCheck u.val s = some e :=
  ⟨ask 4 0x89 [2] (dirs [(16, 16)] up), req 0x89 [2], 2, stBAD_STATE, by unfold State.sbRequest State.request; decide +kernel⟩
theorem witness_UpdatesActivateConfirmAndExpire_3 : ∃ (s : State) (r : Req) (u : Fin 6), s.sb.dir.length = 40 ∧ s.sbRequest 4 0x89 1 r ∧ romServes s = false ∧ bits (r.w 1) 0 3 = u.val ∧ activateCheck u.val s = none ∧ u.val ∈ [0, 1, 5] :=
  ⟨ask 4 0x89 [5] (dirs [(34, 8)] up), req 0x89 [5], 5, by unfold State.sbRequest State.request; decide +kernel⟩
theorem witness_UpdatesActivateConfirmAndExpire_4 : ∃ (s : State) (r : Req) (u : Fin 6), s.sb.dir.length = 40 ∧ s.sbRequest 4 0x89 1 r ∧ romServes s = false ∧ bits (r.w 1) 0 3 = u.val ∧ activateCheck u.val s = none ∧ u.val ∈ [2, 3, 4] :=
  ⟨ask 4 0x89 [2] (dirs [(16, 8)] up), req 0x89 [2], 2, by unfold State.sbRequest State.request; decide +kernel⟩
theorem witness_UpdatesActivateConfirmAndExpire_5 : ∃ (s : State) (u : Fin 6) (a : Activation), s.sb.dir.length = 40 ∧ s.regsWf = true ∧ s.sb.activation = some a ∧ a.unit = u.val ∧ a.svc = false ∧ a.ch = 4 ∧ k2hFree 4 s = true ∧ (chan 4 s).resps = [] ∧ abortDue 4 s = false ∧ u.val ∈ [2, 3, 4] :=
  ⟨{ dirs [(16, 8)] up with sb := { (dirs [(16, 8)] up).sb with activation := some ⟨2, false, 4, 5, 8⟩ } }, 2, ⟨2, false, 4, 5, 8⟩, by decide +kernel⟩
theorem witness_UpdatesActivateConfirmAndExpire_6 : ∃ (s : State) (r : Req) (u : Fin 6), s.sb.dir.length = 40 ∧ s.sbRequest 5 0x8A 1 r ∧ romServes s = false ∧ bits (r.w 1) 0 3 = u.val ∧ inTrial u.val s = true :=
  ⟨ask 5 0x8A [2] (dirs [(16, 21)] up), req 0x8A [2], 2, by unfold State.sbRequest State.request; decide +kernel⟩
theorem witness_UpdatesActivateConfirmAndExpire_7 : ∃ (s : State) (r : Req) (u : Fin 6), s.sb.dir.length = 40 ∧ s.sbRequest 5 0x8A 1 r ∧ romServes s = false ∧ bits (r.w 1) 0 3 = u.val ∧ inTrial u.val s = false :=
  ⟨ask 5 0x8A [2] (dirs [(16, 19)] up), req 0x8A [2], 2, by unfold State.sbRequest State.request; decide +kernel⟩
theorem witness_UpdatesActivateConfirmAndExpire_8 : ∃ (s : State) (u : Fin 6), s.sb.dir.length = 40 ∧ s.regsWf = true ∧ sbUp s = true ∧ sbHealthy s = true ∧ u.val ∈ [0, 1, 5] ∧ inTrial u.val s = true :=
  ⟨dirs [(4, 5)] { up with sb := { up.sb with hbClean := 1000, bundleWhole := true }, flash := [(8, 0x80), (9, 1), (10, 0), (11, 0)] }, 0, by decide +kernel⟩
theorem witness_UpdatesActivateConfirmAndExpire_9 : ∃ (s : State) (r : Req), s.sb.dir.length = 40 ∧ s.sbRequest 4 0x8B 1 r ∧ romServes s = false ∧ (lifecycle s = 3 ∨ lifecycle s = 7) :=
  ⟨ask 4 0x8B [1] (dirs [] up), req 0x8B [1], by unfold State.sbRequest State.request; decide +kernel⟩
theorem witness_UpdatesActivateConfirmAndExpire_10 : ∃ (s : State) (r : Req), s.sb.dir.length = 40 ∧ s.sbRequest 4 0x8B 1 r ∧ romServes s = false ∧ lifecycle s ≠ 3 ∧ lifecycle s ≠ 7 :=
  ⟨ask 4 0x8B [1] (dirs [] (owned 1 [] up)), req 0x8B [1], by unfold State.sbRequest State.request; decide +kernel⟩
theorem witness_UpdatesActivateConfirmAndExpire_11 : ∃ (s : State) (u : Fin 6), s.sb.dir.length = 40 ∧ s.regsWf = true ∧ trialRan u 43650 s = true ∧ s.sb.due[u] = false ∧ rd SB_STATUS.STAGE s ≠ 14 ∧ rd SB_STATUS.HALT s = 0 ∧ sbUp s = true ∧ k2hFree 2 s = true ∧ (chan 2 s).resps = [] ∧ (chan 2 s).notices = [] ∧ (chan 2 s).lost = false ∧ abortDue 2 s = false :=
  ⟨dirs [(16, 5)] { up with sb := { up.sb with trialAt := put up.sb.trialAt 2 (some 1) } }, 2, by decide +kernel⟩
theorem witness_UpdatesActivateConfirmAndExpire_12 : ∃ (s : State) (u : Fin 6), s.sb.dir.length = 40 ∧ s.regsWf = true ∧ trialRan u 58200 s = true :=
  ⟨dirs [(16, 5)] { up with sb := { up.sb with trialAt := put up.sb.trialAt 2 (some 1) } }, 2, by decide +kernel⟩
theorem witness_SecurityFaultsResetTheBlock_0 : ∃ (s : State), s.regsWf = true ∧ s.awake ∧ domOn 21 s = true ∧ s.flt.sbWdog = none :=
  ⟨up, by unfold State.awake; decide +kernel⟩
theorem witness_SecurityFaultsResetTheBlock_1 : ∃ (s : State) (t0 : _), s.regsWf = true ∧ s.awake ∧ domOn 21 s = true ∧ s.flt.sbWdog = some t0 ∧ t0 + ms 1 ≤ s.now :=
  ⟨{ wr PM_FLT_RESETS.RECENT 3 up with flt := { up.flt with sbWdog := some 5 } }, 5, by unfold State.awake; decide +kernel⟩
theorem witness_SecurityFaultsResetTheBlock_2 : ∃ (s : State), s.regsWf = true ∧ s.awake ∧ domOn 21 s = true :=
  ⟨wr PM_FLT_RESETS.RECENT 3 up, by unfold State.awake; decide +kernel⟩
theorem witness_SecurityFaultsResetTheBlock_3 : ∃ (s : State), s.regsWf = true ∧ s.awake ∧ domOn 21 s = true ∧ sbActs s = true :=
  ⟨up, by unfold State.awake; decide +kernel⟩
theorem witness_SecurityFaultsResetTheBlock_4 : ∃ (s : State), s.regsWf = true ∧ s.awake ∧ domOn 21 s = true ∧ sbActs s = false :=
  ⟨wr (MB.H2K_STATUS.PEER 2) 2 up, by unfold State.awake; decide +kernel⟩
theorem witness_SecurityFaultsResetTheBlock_5 : ∃ (s : State) (f : SecFault), s.regsWf = true ∧ s.awake ∧ s.flt.security = some f ∧ f.code < 256 ∧ f.unit < 32 ∧ f.at_ + us 100 ≤ s.now :=
  ⟨{ up with flt := { up.flt with security := some ⟨0x44, 21, 7⟩ } }, ⟨0x44, 21, 7⟩, by unfold State.awake; decide +kernel⟩
theorem witness_SecurityFaultsResetTheBlock_6 : ∃ (s : State) (r : ResetSt), s.regsWf = true ∧ s.pw.reset = some r ∧ r.start + ms 10 ≤ s.now :=
  ⟨{ up with pw := { up.pw with reset := some ⟨6, 7, false⟩ } }, ⟨6, 7, false⟩, by decide +kernel⟩
theorem witness_SecurityFaultsResetTheBlock_7 : ∃ (s : State), s.regsWf = true ∧ s.flt.lastReset + ms 60000 ≤ s.now :=
  ⟨wr PM_FLT_RESETS.RECENT 3 up, by decide +kernel⟩
theorem witness_ResetsScrubAndReplay_0 : ∃ (s : State) (u : Fin 17) (r : Replay), s.regsWf = true ∧ s.flt.resetAt[u] ≠ none ∧ s.flt.replay = some r ∧ r.coaches ≠ 0 :=
  ⟨{ busy with flt := { busy.flt with resetAt := put busy.flt.resetAt 0 (some 7), replay := some ⟨0, 3, 0, [1], none, [], [1], 0, 0, 0, [], []⟩ } }, 0, ⟨0, 3, 0, [1], none, [], [1], 0, 0, 0, [], []⟩, by decide +kernel⟩
theorem witness_ResetsScrubAndReplay_1 : ∃ (s : State) (u : Fin 17), s.regsWf = true ∧ u.val < 16 ∧ s.flt.resetAt[u] ≠ none ∧ s.flt.replay = none :=
  ⟨{ busy with flt := { busy.flt with resetAt := put busy.flt.resetAt 0 (some 7) } }, 0, by decide +kernel⟩
theorem witness_ResetsScrubAndReplay_2 : ∃ (s : State) (u : Fin 17) (r : Replay) (t0 : _), s.regsWf = true ∧ u.val < 16 ∧ s.pw.reset = none ∧ s.flt.resetAt[u] = some t0 ∧ t0 + us 100 ≤ s.now ∧ s.flt.replay = some r ∧ r.unit = u.val ∧ tandemJobs s = [] ∧ rdB (GL_FLT_STATE.RECOVERING 20) s = false :=
  ⟨{ busy with flt := { busy.flt with resetAt := put busy.flt.resetAt 0 (some 7), replay := some ⟨0, 3, 0, [1], none, [], [1], 0, 0, 0, [], []⟩ } }, 0, ⟨0, 3, 0, [1], none, [], [1], 0, 0, 0, [], []⟩, 7, by decide +kernel⟩
theorem witness_ResetsScrubAndReplay_3 : ∃ (s : State) (u : Fin 17) (t0 : _) (all : _), s.regsWf = true ∧ u.val < 16 ∧ s.flt.partAt[u] = some (t0, all) ∧ s.pw.reset = none :=
  ⟨wr (PM_PWR_STATUS.ON 0) 0 { busy with pw := { busy.pw with fenced := [0] }, flt := { busy.flt with partAt := put busy.flt.partAt 0 (some (7, 1)) } }, 0, 7, 1, by decide +kernel⟩
theorem witness_ResetsScrubAndReplay_4 : ∃ (s : State) (r : Replay), s.regsWf = true ∧ s.flt.replay = some r ∧ replayRan s = true ∧ r.coaches ≠ 0 :=
  ⟨{ busy with flt := { busy.flt with replay := some ⟨0, 3, 0, [1], some 1, [], [1], 2, 2, 0, [], []⟩ } }, ⟨0, 3, 0, [1], some 1, [], [1], 2, 2, 0, [], []⟩, by decide +kernel⟩
theorem witness_ResetsScrubAndReplay_5 : ∃ (s : State) (r : Replay) (n : Ctx), s.regsWf = true ∧ s.flt.replay = some r ∧ r.cur = some (cid n) ∧ r.row < r.stop ∧ r.dueAt ≤ s.now :=
  ⟨{ busy with flt := { busy.flt with replay := some ⟨0, 3, 0, [1], some 1, [], [1], 2, 5, 0, [], []⟩ } }, ⟨0, 3, 0, [1], some 1, [], [1], 2, 5, 0, [], []⟩, 0, by decide +kernel⟩
theorem witness_BlockEscalationDumpsAndResets_0 : ∃ (s : State) (b : BlockEsc), s.regsWf = true ∧ s.flt.block = some b ∧ b.step = 1 ∧ (((∀ t ∈ s.mp.txs, t.ctx = 0 ∨ t.abandoned = true) ∧ (∀ x ∈ s.mp.inits, x.ctx = 0) ∨ b.start + us 50 ≤ s.now)) ∧ s.awake ∧ rd PM_FLT_RESETS.RECENT s < 3 :=
  ⟨{ withTx [tx true .other] up with flt := { up.flt with block := some ⟨7, 4, 1, 2, 5, 10 ^ 11, 1, false, false, 0, []⟩ } }, ⟨7, 4, 1, 2, 5, 10 ^ 11, 1, false, false, 0, []⟩, by unfold State.awake; decide +kernel⟩
theorem witness_BlockEscalationDumpsAndResets_1 : ∃ (s : State) (b : BlockEsc) (obs : DumpObs) (d : _) (tr : _) (u : _), s.regsWf = true ∧ s.flt.block = some b ∧ b.step = 2 ∧ dumpBytes b obs.errors s = ((d, tr), u) :=
  ⟨{ wr GL_STATUS.CONFIDENTIAL 1 up with flt := { up.flt with block := some ⟨7, 4, 1, 2, 5, 10 ^ 11, 2, false, false, 0, []⟩ } }, ⟨7, 4, 1, 2, 5, 10 ^ 11, 2, false, false, 0, []⟩, ⟨false⟩, (dumpBytes ⟨7, 4, 1, 2, 5, 10 ^ 11, 2, false, false, 0, []⟩ false { wr GL_STATUS.CONFIDENTIAL 1 up with flt := { up.flt with block := some ⟨7, 4, 1, 2, 5, 10 ^ 11, 2, false, false, 0, []⟩ } }).1.1, (dumpBytes ⟨7, 4, 1, 2, 5, 10 ^ 11, 2, false, false, 0, []⟩ false { wr GL_STATUS.CONFIDENTIAL 1 up with flt := { up.flt with block := some ⟨7, 4, 1, 2, 5, 10 ^ 11, 2, false, false, 0, []⟩ } }).1.2, (dumpBytes ⟨7, 4, 1, 2, 5, 10 ^ 11, 2, false, false, 0, []⟩ false { wr GL_STATUS.CONFIDENTIAL 1 up with flt := { up.flt with block := some ⟨7, 4, 1, 2, 5, 10 ^ 11, 2, false, false, 0, []⟩ } }).2, by decide +kernel⟩
theorem witness_BlockEscalationDumpsAndResets_2 : ∃ (s : State) (b : BlockEsc) (d : _) (tr : _) (u : _), s.regsWf = true ∧ s.flt.block = some b ∧ b.step = 2 ∧ b.start + us 50 + ms 100 ≤ s.now ∧ dumpBytes b true s = ((d, tr), u) :=
  ⟨{ wr GL_STATUS.CONFIDENTIAL 1 up with flt := { up.flt with block := some ⟨7, 4, 1, 2, 5, 10 ^ 11, 2, false, false, 0, []⟩ } }, ⟨7, 4, 1, 2, 5, 10 ^ 11, 2, false, false, 0, []⟩, (dumpBytes ⟨7, 4, 1, 2, 5, 10 ^ 11, 2, false, false, 0, []⟩ true { wr GL_STATUS.CONFIDENTIAL 1 up with flt := { up.flt with block := some ⟨7, 4, 1, 2, 5, 10 ^ 11, 2, false, false, 0, []⟩ } }).1.1, (dumpBytes ⟨7, 4, 1, 2, 5, 10 ^ 11, 2, false, false, 0, []⟩ true { wr GL_STATUS.CONFIDENTIAL 1 up with flt := { up.flt with block := some ⟨7, 4, 1, 2, 5, 10 ^ 11, 2, false, false, 0, []⟩ } }).1.2, (dumpBytes ⟨7, 4, 1, 2, 5, 10 ^ 11, 2, false, false, 0, []⟩ true { wr GL_STATUS.CONFIDENTIAL 1 up with flt := { up.flt with block := some ⟨7, 4, 1, 2, 5, 10 ^ 11, 2, false, false, 0, []⟩ } }).2, by decide +kernel⟩
theorem witness_BlockEscalationDumpsAndResets_3 : ∃ (s : State) (b : BlockEsc) (dump : _) (tr : _) (u : _), s.regsWf = true ∧ s.flt.block = some b ∧ b.step = 3 ∧ s.awake ∧ rd PM_FLT_RESETS.RECENT s < 3 ∧ dumpTrailer (dumpSeq s) b.dump.length dump s = (tr, u) :=
  ⟨{ up with flt := { up.flt with block := some ⟨7, 4, 1, 2, 5, 10 ^ 11, 3, false, true, 0, [1, 2]⟩ } }, ⟨7, 4, 1, 2, 5, 10 ^ 11, 3, false, true, 0, [1, 2]⟩, [1, 2], (dumpTrailer (rd PM_DUMP_INFO.SEQ up + 1) 2 [1, 2] { up with flt := { up.flt with block := some ⟨7, 4, 1, 2, 5, 10 ^ 11, 3, false, true, 0, [1, 2]⟩ } }).1, (dumpTrailer (rd PM_DUMP_INFO.SEQ up + 1) 2 [1, 2] { up with flt := { up.flt with block := some ⟨7, 4, 1, 2, 5, 10 ^ 11, 3, false, true, 0, [1, 2]⟩ } }).2, by unfold State.awake; exact ⟨by decide +kernel, by decide +kernel, by decide +kernel, by decide +kernel, by decide +kernel, rfl⟩⟩
theorem witness_DomainsPowerUpAndOff_0 : ∃ (s : State) (who : Proc) (d : Dom) (on : _) (c : _), s.regsWf = true ∧ d.val ≠ 22 ∧ pwrRefusal who d.val on s = some c :=
  ⟨up, .strongbox, 5, true, 2, by decide +kernel⟩
theorem witness_DomainsPowerUpAndOff_1 : ∃ (s : State) (d : Dom), s.regsWf = true ∧ d.val = 22 :=
  ⟨up, 22, by decide +kernel⟩
theorem witness_DomainsPowerUpAndOff_2 : ∃ (s : State) (who : Proc) (d : Dom), s.regsWf = true ∧ d.val ≠ 22 ∧ pwrRefusal who d.val true s = none :=
  ⟨up, .coachman, 5, by decide +kernel⟩
theorem witness_DomainsPowerUpAndOff_3 : ∃ (s : State) (who : Proc) (d : Dom), s.regsWf = true ∧ d.val ≠ 22 ∧ pwrRefusal who d.val false s = none ∧ s.pw.ramps.any (·.1 == d.val) = true :=
  ⟨{ up with pw := { up.pw with ramps := [(5, 7)] } }, .coachman, 5, by decide +kernel⟩
theorem witness_DomainsPowerUpAndOff_4 : ∃ (s : State) (who : Proc) (d : Dom), s.regsWf = true ∧ d.val ≠ 22 ∧ pwrRefusal who d.val false s = none ∧ s.pw.ramps.any (·.1 == d.val) = false ∧ domOn d.val s = true ∧ rd PM_SLEEP.STATE s = 0 :=
  ⟨up, .coachman, 5, by decide +kernel⟩
theorem witness_DomainsPowerUpAndOff_5 : ∃ (s : State) (d : Dom), s.regsWf = true ∧ s.pw.ramps.any (·.1 == d.val) = true ∧ s.pw.offAfter.contains d.val = false ∧ ((domOn 20 s = true ∨ d.val = 20)) ∧ domOpen 22 s = true ∧ rd PM_SLEEP.STATE s = 0 :=
  ⟨{ wr (PM_PWR_STATUS.ON 5) 0 up with pw := { up.pw with ramps := [(5, 7)], queue := [6, 7] } }, 5, by decide +kernel⟩
theorem witness_DomainsPowerUpAndOff_6 : ∃ (s : State) (d : Dom), s.regsWf = true ∧ s.pw.falling.any (·.1 == d.val) = true ∧ rd PM_SLEEP.STATE s = 0 :=
  ⟨{ wr (PM_PWR_STATUS.ON 5) 0 up with pw := { up.pw with falling := [(5, 7)], onAfter := [5] } }, 5, by decide +kernel⟩
theorem witness_ResetsSleepAndWakes_0 : ∃ (s : State) (r : ResetSt), s.regsWf = true ∧ s.pw.reset = some r ∧ rd PM_SLEEP.STATE s = 3 :=
  ⟨wr PM_SLEEP.STATE 3 { busy with pw := { busy.pw with reset := some ⟨6, 7, false⟩ } }, ⟨6, 7, false⟩, by decide +kernel⟩
theorem witness_ResetsSleepAndWakes_1 : ∃ (s : State), s.regsWf = true ∧ s.served 0xB00010 false ∧ rd PM_SLEEP.STATE s ≠ 0 :=
  ⟨wr PM_SLEEP.STATE 2 up, by unfold State.served; decide +kernel⟩
theorem witness_ResetsSleepAndWakes_2 : ∃ (s : State) (c : _), s.regsWf = true ∧ s.served 0xB00010 false ∧ rd PM_SLEEP.STATE s = 0 ∧ sleepRefusal s = some c :=
  ⟨busy, 1, by unfold State.served; decide +kernel⟩
theorem witness_ResetsSleepAndWakes_3 : ∃ (s : State), s.regsWf = true ∧ s.served 0xB00010 false ∧ rd PM_SLEEP.STATE s = 0 ∧ sleepRefusal s = none :=
  ⟨up, by unfold State.served; decide +kernel⟩
theorem witness_ResetsSleepAndWakes_4 : ∃ (s : State), s.regsWf = true ∧ s.pw.sleepStep = 2 :=
  ⟨{ run with pw := { run.pw with sleepStep := 2 }, pins := { run.pins with hold := true } }, by decide +kernel⟩
theorem witness_ResetsSleepAndWakes_5 : ∃ (s : State), s.regsWf = true ∧ s.pw.sleepStep = 3 ∧ rd PM_SLEEP.STATE s = 1 :=
  ⟨wr PM_SLEEP.STATE 1 { run with pw := { run.pw with sleepStep := 3 } }, by decide +kernel⟩
theorem witness_ResetsSleepAndWakes_6 : ∃ (s : State), s.regsWf = true ∧ s.pw.sleepStep = 4 ∧ rd PM_SLEEP.STATE s = 1 :=
  ⟨wr PM_SLEEP.STATE 1 { run with pw := { run.pw with sleepStep := 4 } }, by decide +kernel⟩
theorem witness_ResetsSleepAndWakes_7 : ∃ (s : State), s.regsWf = true ∧ s.pw.sleepStep = 5 ∧ rd PM_SLEEP.STATE s = 1 ∧ s.pw.wakeDue = none :=
  ⟨wr PM_SLEEP.STATE 1 { run with pw := { run.pw with sleepStep := 5 } }, by decide +kernel⟩
theorem witness_ResetsSleepAndWakes_8 : ∃ (s : State) (c : _), s.regsWf = true ∧ s.pw.sleepStep = 5 ∧ rd PM_SLEEP.STATE s = 1 ∧ s.pw.wakeDue = some c ∧ rd PM_THERM_STATUS.TRIP s = 0 :=
  ⟨wr PM_SLEEP.STATE 1 { run with pw := { run.pw with sleepStep := 5, wakeDue := some 7 } }, 7, by decide +kernel⟩
theorem witness_ResetsSleepAndWakes_9 : ∃ (s : State), s.regsWf = true ∧ s.served 0xB00014 false ∧ rd PM_THERM_STATUS.TRIP s = 0 ∧ rd PM_SLEEP.STATE s = 0 ∧ domOpen 22 s = true ∧ domOn 20 s = true :=
  ⟨up, by unfold State.served; decide +kernel⟩
theorem witness_ResetsSleepAndWakes_10 : ∃ (s : State), s.regsWf = true ∧ s.served 0xB00014 false ∧ rd PM_THERM_STATUS.TRIP s = 0 ∧ rd PM_SLEEP.STATE s = 1 ∧ s.pw.wakeDue = none :=
  ⟨wr PM_SLEEP.STATE 1 up, by unfold State.served; decide +kernel⟩
theorem witness_ResetsSleepAndWakes_11 : ∃ (s : State), s.regsWf = true ∧ s.served 0xB00014 false ∧ rd PM_THERM_STATUS.TRIP s = 0 ∧ rd PM_SLEEP.STATE s = 2 :=
  ⟨wr PM_SLEEP.STATE 2 State.reset, by unfold State.served; decide +kernel⟩
theorem witness_ResetsSleepAndWakes_12 : ∃ (s : State) (key : Word), s.regsWf = true ∧ s.served 0xB00018 false ∧ (key.toNat ≠ 0xB10C ∨ rd PM_THERM_STATUS.TRIP s = 1) :=
  ⟨up, 7#32, by unfold State.served; decide +kernel⟩
theorem witness_ResetsSleepAndWakes_13 : ∃ (s : State) (key : Word), s.regsWf = true ∧ s.served 0xB00018 false ∧ key.toNat = 0xB10C ∧ s.awake :=
  ⟨up, 0xB10C#32, by unfold State.served State.awake; decide +kernel⟩
theorem witness_ResetsSleepAndWakes_14 : ∃ (s : State) (key : Word), s.regsWf = true ∧ s.served 0xB00018 false ∧ key.toNat = 0xB10C ∧ rd PM_THERM_STATUS.TRIP s = 0 ∧ rd PM_SLEEP.STATE s = 2 :=
  ⟨wr PM_SLEEP.STATE 2 up, 0xB10C#32, by unfold State.served; decide +kernel⟩
theorem witness_ClocksAndTemperatureAreWatched_0 : ∃ (s : State), s.regsWf = true ∧ domOn 21 s = true :=
  ⟨up, by decide +kernel⟩
theorem witness_ClocksAndTemperatureAreWatched_1 : ∃ (s : State), s.regsWf = true ∧ rd PM_THERM_STATUS.TRIP s = 0 :=
  ⟨up, by decide +kernel⟩
theorem witness_ClocksAndTemperatureAreWatched_2 : ∃ (s : State), s.regsWf = true ∧ rd PM_THERM_STATUS.TRIP s = 1 ∧ s.pw.tripAt + ms 1000 ≤ s.now :=
  ⟨{ wr PM_THERM_STATUS.TRIP 1 up with pw := { up.pw with tripAt := 7 } }, by decide +kernel⟩
theorem witness_ClocksAndTemperatureAreWatched_3 : ∃ (s : State), s.regsWf = true ∧ s.served 0xB00034 false :=
  ⟨up, by unfold State.served; decide +kernel⟩
theorem witness_ClocksAndTemperatureAreWatched_4 : ∃ (s : State), s.regsWf = true ∧ domOpen 22 s = true ∧ domOn 20 s = true :=
  ⟨up, by decide +kernel⟩
theorem witness_ThermalLevelFollowsItsThresholds_0 : ∃ (s : State) (l : Nat) (temps : _) (x : _) (i : _), s.regsWf = true ∧ rd PM_THERM_STATUS.LEVEL s = l ∧ l ≤ 2 ∧ domOn 21 s = true ∧ hottest temps s = some (x, i) ∧ i < 19 :=
  ⟨up, 0, [600, 599], 600, 0, by decide +kernel⟩
theorem witness_ThermalLevelFollowsItsThresholds_1 : ∃ (s : State) (l : Nat) (t0 : _), s.regsWf = true ∧ rd PM_THERM_STATUS.LEVEL s = l ∧ l ≤ 2 ∧ s.pw.belowSince = some t0 ∧ l ≠ 0 ∧ t0 + ms 10 ≤ s.now :=
  ⟨wr PM_THERM_STATUS.LEVEL 2 { up with pw := { up.pw with belowSince := some 7 } }, 2, 7, by decide +kernel⟩
theorem witness_ThermalLevelFollowsItsThresholds_2 : ∃ (s : State) (l : Nat) (t0 : _), s.regsWf = true ∧ rd PM_THERM_STATUS.LEVEL s = l ∧ l ≤ 2 ∧ s.pw.belowSince = some t0 ∧ s.now < t0 + ms 10 :=
  ⟨wr PM_THERM_STATUS.LEVEL 2 { up with pw := { up.pw with belowSince := some 999999999000 } }, 2, 999999999000, by decide +kernel⟩
theorem witness_ThermalLevelFollowsItsThresholds_3 : ∃ (s : State) (l : Nat), s.regsWf = true ∧ rd PM_THERM_STATUS.LEVEL s = l ∧ l ≤ 2 ∧ (s.pw.belowSince = none ∨ l = 0) :=
  ⟨wr PM_THERM_STATUS.LEVEL 2 up, 2, by decide +kernel⟩
theorem witness_TraceAndTestAccessFollowTheirRules_0 : ∃ (s : State) (sec : _), s.regsWf = true ∧ s.served 0xC00000 sec ∧ rd (SB_REINS.HOLDERS 5) s = 0 :=
  ⟨up, true, by unfold State.served; decide +kernel⟩
theorem witness_TraceAndTestAccessFollowTheirRules_1 : ∃ (s : State) (sec : _), s.regsWf = true ∧ s.served 0xC00000 sec ∧ rd (SB_REINS.HOLDERS 5) s ≠ 0 :=
  ⟨wr (SB_REINS.HOLDERS 5) 2 (wr DBG_CTRL.EN 1 up), true, by unfold State.served; decide +kernel⟩
theorem witness_TraceAndTestAccessFollowTheirRules_2 : ∃ (s : State), s.regsWf = true :=
  ⟨up, by decide +kernel⟩
theorem witness_TraceAndTestAccessFollowTheirRules_3 : ∃ (s : State), s.regsWf = true :=
  ⟨up, by decide +kernel⟩
theorem witness_TraceAndTestAccessFollowTheirRules_4 : ∃ (s : State) (code : BitVec 8), s.regsWf = true ∧ tapOn s = true ∧ s.tap.code ≠ 0x10 ∧ code.toNat ≠ 0x10 ∧ code.toNat ≠ 0x20 ∧ code.toNat ≠ 0x21 :=
  ⟨owned 1 [] up, 0x7#8, by decide +kernel⟩
theorem witness_TraceAndTestAccessFollowTheirRules_5 : ∃ (s : State), s.regsWf = true ∧ tapOn s = true ∧ s.tap.code ≠ 0x10 :=
  ⟨owned 1 [] up, by decide +kernel⟩
theorem witness_TraceAndTestAccessFollowTheirRules_6 : ∃ (s : State), s.regsWf = true ∧ tapOn s = true ∧ s.tap.code ≠ 0x10 :=
  ⟨owned 1 [] up, by decide +kernel⟩
theorem witness_TraceAndTestAccessFollowTheirRules_7 : ∃ (s : State), s.regsWf = true ∧ tapOn s = true ∧ s.tap.code ≠ 0x10 :=
  ⟨owned 1 [] up, by decide +kernel⟩
theorem witness_TraceAndTestAccessFollowTheirRules_8 : ∃ (s : State), s.regsWf = true ∧ tapOn s = true ∧ s.tap.code ≠ 0x10 :=
  ⟨owned 1 [] (works []), by decide +kernel⟩
theorem witness_TraceAndTestAccessFollowTheirRules_9 : ∃ (s : State), s.regsWf = true ∧ tapOn s = true ∧ s.tap.code = 0x10 ∧ s.awake :=
  ⟨{ owned 1 [] up with tap := { up.tap with code := 0x10 } }, by unfold State.awake; decide +kernel⟩
theorem witness_TraceAndTestAccessFollowTheirRules_10 : ∃ (s : State), s.regsWf = true ∧ tapOn s = true ∧ s.tap.code = 0x10 ∧ s.awake :=
  ⟨{ owned 1 [] up with tap := { up.tap with code := 0x10 } }, by unfold State.awake; decide +kernel⟩
theorem witness_TraceAndTestAccessFollowTheirRules_11 : ∃ (s : State), s.regsWf = true ∧ tapOn s = true ∧ s.tap.code = 0x10 ∧ s.awake :=
  ⟨{ owned 1 [] up with tap := { up.tap with code := 0x10 } }, by unfold State.awake; decide +kernel⟩
theorem witness_TraceAndTestAccessFollowTheirRules_12 : ∃ (s : State), s.regsWf = true ∧ tapOn s = false :=
  ⟨up, by decide +kernel⟩
theorem witness_TraceAndTestAccessFollowTheirRules_13 : ∃ (s : State), s.regsWf = true ∧ tapOn s = false :=
  ⟨up, by decide +kernel⟩
theorem witness_TraceAndTestAccessFollowTheirRules_14 : ∃ (s : State), s.regsWf = true ∧ tapOn s = false :=
  ⟨up, by decide +kernel⟩
theorem witness_TraceAndTestAccessFollowTheirRules_15 : ∃ (s : State), s.regsWf = true ∧ tapOn s = false :=
  ⟨up, by decide +kernel⟩
theorem witness_TraceAndTestAccessFollowTheirRules_16 : ∃ (s : State), s.regsWf = true ∧ tapOn s = false :=
  ⟨up, by decide +kernel⟩
theorem witness_TraceAndTestAccessFollowTheirRules_17 : ∃ (s : State), s.regsWf = true ∧ s.tap.running = true :=
  ⟨{ up with tap := { up.tap with running := true } }, by decide +kernel⟩

end Sys2Proof.Tests
end

/-! SUPPORT. Clears of counters: what a write of 1 to a clear bit leaves in every field, at once and at the end of its cycle (R36, R83,
R124, R163). -/

namespace Sys2Proof

/-- A key that does not read as its default has an entry. -/
theorem SMap.mem_of_get_ne {α : Type} {d : Nat → α} {m : SMap α} {k : Nat} (h : SMap.get d m k ≠ d k) : (k, SMap.get d m k) ∈ m := by
  induction m with
  | nil => exact absurd rfl h
  | cons e m ih =>
    obtain ⟨j, w⟩ := e
    simp only [SMap.get] at h ⊢
    split
    · next hk => exact hk ▸ List.mem_cons_self
    · next hk =>
      rw [if_neg hk] at h
      split at h
      · exact absurd rfl h
      · next hlt => rw [if_neg hlt]; exact List.mem_cons_of_mem _ (ih h)

/-- After writes of one value to a list of keys, each of the keys reads it. -/
theorem SMap.get_foldl_set_mem {α β : Type} [DecidableEq α] (d : Nat → α) (k : β → Nat) (v : α) (l : List β) {m : SMap α} (hm : SMap.wf d m = true)
    {i : Nat} (h : (∃ x ∈ l, k x = i) ∨ SMap.get d m i = v) : SMap.get d (l.foldl (fun m x => SMap.set d m (k x) v) m) i = v := by
  induction l generalizing m with
  | nil => simpa using h
  | cons x r ih =>
    refine ih (SMap.wf_set d m _ v hm) ?_
    by_cases hx : k x = i
    · exact .inr (hx ▸ SMap.get_set_same d m _ v hm)
    · rw [SMap.get_set_ne d m _ v hm i (Ne.symm hx)]
      simpa [hx] using h

end Sys2Proof

namespace Sys2Proof.Machine

/-- A field that a list of writes gives one value alone reads it, and so does one that read it before. -/
theorem rd_wrs_agree (l : List (Fld × Nat)) {s : State} (h : s.regsWf = true) {f : Fld} {v : Nat}
    (hv : ∀ x ∈ l, f.key = x.1.key → x.2 % 2 ^ x.1.width = v) (e : (∃ x ∈ l, f.key = x.1.key) ∨ rd f s = v) : rd f (wrs l s) = v := by
  induction l generalizing s with
  | nil => simpa [wrs] using e
  | cons x r ih =>
    refine ih (regsWf_wr h _ _) (fun y hy => hv y (List.mem_cons_of_mem _ hy)) ?_
    by_cases hx : f.key = x.1.key
    · exact .inr (by rw [rd_wr h, if_pos hx, hv x List.mem_cons_self hx])
    · rw [rd_wr_ne h _ _ _ hx]
      simpa [hx] using e

/-- The fields of a list are counters: fields of registers, each at least a bit wide. -/
abbrev Counters (fs : List Fld) : Prop := ∀ f ∈ fs, ownKey f.key = false ∧ 0 < f.width

/-- A write that clears counters marks each of them as cleared in this cycle (R36). -/
theorem rd_clearedF_cntClr {fs : List Fld} {s : State} (h : s.regsWf = true) (hc : Counters fs) {f : Fld} (hf : f ∈ fs) :
    rd (clearedF f) (cntClr fs s) = 1 := by
  refine rd_wrs_agree _ ((clr_sound fs (Sound.refl s)).wf h) (fun x hx _ => ?_) (.inl ⟨_, List.mem_map_of_mem hf, rfl⟩)
  obtain ⟨g, hg, rfl⟩ := List.mem_map.1 hx
  exact Nat.mod_eq_of_lt (Nat.one_lt_two_pow (Nat.ne_of_gt (hc g hg).2))

/-- A clear that the host is told of changes its counters alone. -/
theorem emit_cntClr_cleared {fs : List Fld} {s : State} (h : s.regsWf = true) (hc : Counters fs) :
    s.cleared fs (emit (.resp true 0 0) (cntClr fs s)) := by
  refine ⟨fun f hf => ⟨rd_cntClr_mem fs h f (hc f hf).1 hf, rd_clearedF_cntClr h hc hf⟩, cntClr_kept fs h, ?_⟩
  rw [cntClr, clr, wrs_eq_regs, wrs_eq_regs (fs.map fun f => (f, 0))]
  rfl

/-- A served write of a clear bit clears its counters. -/
theorem hostTo_cntClr {a : Nat} {sec : Bool} {fs : List Fld} {s : State} (h : s.served a sec) (hc : Counters fs) :
    s.cleared fs (hostTo a sec (cntClr fs) s) := by
  rw [hostTo_served h]
  exact emit_cntClr_cleared h.1 hc

/-- Outside confidential mode a clear of a coach's counters comes after its stage has been brought up to the present cycle (R124). -/
theorem caClear_cleared {c : Coach} {fs : List Fld} {s : State} (h : s.served (0x200030 + 0x10000 * c.val) false) (hn : confidential s = false)
    (hc : Counters fs) : (coachSettle c s).cleared fs (caClear c fs s) := by
  rw [caClear, hostTo_served h, if_neg (by simp [hn])]
  exact emit_cntClr_cleared ((coachSettle_sound c (Sound.refl s)).wf h.1) hc

/-- In confidential mode a clear of a coach's counters is answered alone (R124). -/
theorem caClear_confidential {c : Coach} {s : State} (h : s.served (0x200030 + 0x10000 * c.val) false) (hn : confidential s = true) (fs : List Fld) :
    caClear c fs s = { s with out := .resp true 0 0 :: s.out } := by
  rw [caClear, hostTo_served h, if_pos hn, emit]

/-- Outside confidential mode a clear of the Gig engine's counters comes after its slot has been brought up to the present cycle (R163). -/
theorem ggClear_cleared {fs : List Fld} {s : State} (h : s.served 0x300030 false) (hn : confidential s = false) (hc : Counters fs) :
    (gigSettle s).cleared fs (ggClear fs s) := by
  rw [ggClear, hostTo_served h, if_neg (by simp [hn])]
  exact emit_cntClr_cleared ((gigSettle_sound (Sound.refl s)).wf h.1) hc

/-- In confidential mode a clear of the Gig engine's counters is answered alone (R163). -/
theorem ggClear_confidential {s : State} (h : s.served 0x300030 false) (hn : confidential s = true) (fs : List Fld) :
    ggClear fs s = { s with out := .resp true 0 0 :: s.out } := by
  rw [ggClear, hostTo_served h, if_pos hn, emit]

/-- With no slot on the Gig engine there is nothing to bring up to the present cycle. -/
theorem gigSettle_of_idle {s : State} (h : s.gig.run = none) : gigSettle s = s := by simp only [gigSettle, h]

/-- With no stage on a coach there is nothing to bring up to the present cycle. -/
theorem coachSettle_of_idle {c : Coach} {s : State} (h : (co c s).run = none) : coachSettle c s = s := by
  have hq : queueRoll c s = s := by simp only [queueRoll, h]
  have hs : syncSettle c s = s := by simp only [syncSettle, h]
  have hr (t : Nat) : runTo c t s = s := by simp only [runTo, h]
  have ht (t : Nat) : stallTo c t s = s := by simp only [stallTo, h]
  simp only [coachSettle, hq, hs, hr, ht]

/-- At the end of the cycle in which a counter was cleared it reads 0, whatever has been added to it since (R36). -/
theorem rd_tick_of_cleared {s : State} (h : s.regsWf = true) {f : Fld} (hc : rd (clearedF f) s ≠ 0) : rd f (tick s) = 0 := by
  have hk : 0x4000000 ≤ (clearedF f).key / 64 := by simp only [clearedF, Fld.key]; omega
  have hm := SMap.mem_of_get_ne (fun e => hc (e.trans (fieldReset_high _ hk)))
  simp only [rd, tick, cycleEnd]
  refine SMap.get_foldl_set_mem fieldReset (fun e : Nat × Nat => e.1 - 64 * 0x4000000) 0 _ (SMap.wf_forget _ _ _ h)
    (.inl ⟨_, List.mem_filter.2 ⟨hm, decide_eq_true hk⟩, ?_⟩)
  simp only [clearedF, Fld.key]
  omega

/-- The counters of the coaches lie in registers. -/
theorem counters_coach (c : Coach) : Counters [CA_BUSY.COUNT c.val] ∧ Counters [CA_STALL_MEM.COUNT c.val, CA_STALL_POST.COUNT c.val] ∧
    Counters [CA_NUMERIC.ACC_SAT c.val, CA_NUMERIC.OUT_SAT c.val, CA_NUMERIC.NAN c.val] ∧ Counters [CA_ECC.CORR c.val, CA_ECC.UNCORR c.val] := by
  revert c
  decide

/-- Settles O10: each command is a clear behind the host port's checks, for a running unit after it has been brought up to the present cycle. -/
theorem globalTimetableAndEngineCountersClear : Obligations.GlobalTimetableAndEngineCountersClear := by
  unfold Obligations.GlobalTimetableAndEngineCountersClear
  intro s
  refine ⟨?glRejects, ?glErrs, ?ttEnc, ?ttMark, ?ttRow, ?ttMiss, fun hn => ⟨?ggBusy, ?ggWait, ?ggNumeric, ?ggEcc, fun c => ?coach⟩,
    fun hn => ⟨fun h i hi => ?ggStays, fun c h i hi => ?coachStays⟩, gigSettle_of_idle, fun c => coachSettle_of_idle,
    fun h _ _ => rd_tick_of_cleared h⟩
  case glRejects | glErrs | ttEnc | ttMark | ttRow | ttMiss => exact fun h => ⟨_, rfl, hostTo_cntClr h (by decide)⟩
  case ggBusy | ggWait | ggNumeric | ggEcc => exact fun h => ⟨_, rfl, ggClear_cleared h hn (by decide)⟩
  case coach =>
    obtain ⟨hBusy, hStall, hNumeric, hEcc⟩ := counters_coach c
    exact ⟨fun h => ⟨_, rfl, caClear_cleared h hn hBusy⟩, fun h => ⟨_, rfl, caClear_cleared h hn hStall⟩,
      fun h => ⟨_, rfl, caClear_cleared h hn hNumeric⟩, fun h => ⟨_, rfl, caClear_cleared h hn hEcc⟩⟩
  case ggStays =>
    simp only [List.mem_cons, List.not_mem_nil, or_false] at hi
    rcases hi with rfl | rfl | rfl | rfl
    all_goals exact congrArg _ (ggClear_confidential h hn _)
  case coachStays =>
    simp only [List.mem_cons, List.not_mem_nil, or_false] at hi
    rcases hi with rfl | rfl | rfl | rfl
    all_goals exact congrArg _ (caClear_confidential h hn _)

end Sys2Proof.Machine

/-! SUPPORT. Clears of the counters of several ports or contexts at once (R201, R233): together they are one list of writes, whose order is of no
account. -/

namespace Sys2Proof.Machine

/-- A list of writes in two parts. -/
theorem wrs_append (l m : List (Fld × Nat)) (s : State) : wrs (l ++ m) s = wrs m (wrs l s) := by
  induction l generalizing s with
  | nil => rfl
  | cons x r ih => exact ih (wr x.1 x.2 s)

/-- What a clear of counters writes: the counters, and the marks of the cycle (R36). -/
def clearWrites (fs : List Fld) : List (Fld × Nat) := fs.map (fun f => (f, 0)) ++ fs.map (fun f => (clearedF f, 1))

theorem mem_clearWrites {fs : List Fld} {x : Fld × Nat} : x ∈ clearWrites fs ↔ ∃ f ∈ fs, x = (f, 0) ∨ x = (clearedF f, 1) := by
  simp only [clearWrites, List.mem_append, List.mem_map, and_or_left, exists_or, eq_comm]

theorem cntClr_eq_wrs (fs : List Fld) (s : State) : cntClr fs s = wrs (clearWrites fs) s := by
  rw [clearWrites, wrs_append, cntClr, clr]

/-- The clears of the counters of each member of a list are one list of writes. -/
theorem each_cntClr_eq_wrs {α : Type} (l : List α) (fs : α → List Fld) (s : State) :
    each l (fun x => cntClr (fs x)) s = wrs (l.flatMap fun x => clearWrites (fs x)) s := by
  induction l generalizing s with
  | nil => rfl
  | cons x r ih => rw [List.flatMap_cons, wrs_append, ← cntClr_eq_wrs, ← ih]; rfl

/-- Writes of 0 to counters and of their marks, in any order, clear the counters once the host is answered. -/
theorem emit_wrs_cleared {fs : List Fld} {ws : List (Fld × Nat)} {s : State} (h : s.regsWf = true) (hc : Counters fs)
    (hw : ∀ x, x ∈ ws ↔ ∃ f ∈ fs, x = (f, 0) ∨ x = (clearedF f, 1)) : s.cleared fs (emit (.resp true 0 0) (wrs ws s)) := by
  refine ⟨fun f hf => ⟨?zero, ?mark⟩, fun f hf hn => ?kept, ?rest⟩
  case zero =>
    refine rd_wrs_agree ws h (fun x hx e => ?_) (.inl ⟨_, (hw _).2 ⟨f, hf, .inl rfl⟩, rfl⟩)
    obtain ⟨g, -, rfl | rfl⟩ := (hw x).1 hx
    · exact Nat.zero_mod _
    · exact absurd e (key_ne_of_own (hc f hf).1 (ownKey_clearedF g))
  case mark =>
    refine rd_wrs_agree ws h (fun x hx e => ?_) (.inl ⟨_, (hw _).2 ⟨f, hf, .inr rfl⟩, rfl⟩)
    obtain ⟨g, hg, rfl | rfl⟩ := (hw x).1 hx
    · exact absurd e.symm (key_ne_of_own (hc g hg).1 (ownKey_clearedF f))
    · exact Nat.mod_eq_of_lt (Nat.one_lt_two_pow (Nat.ne_of_gt (hc g hg).2))
  case kept =>
    refine rd_wrs_ne ws h f (fun x hx => ?_)
    obtain ⟨g, hg, rfl | rfl⟩ := (hw x).1 hx
    · exact hn g hg
    · exact key_ne_of_own hf (ownKey_clearedF g)
  case rest => rw [wrs_eq_regs, emit]

/-- The clears of the counters of each member of a list clear them all. -/
theorem emit_each_cntClr_cleared {α : Type} {l : List α} {fs : α → List Fld} {s : State} (h : s.regsWf = true) (hc : Counters (l.flatMap fs)) :
    s.cleared (l.flatMap fs) (emit (.resp true 0 0) (each l (fun x => cntClr (fs x)) s)) := by
  rw [each_cntClr_eq_wrs]
  refine emit_wrs_cleared h hc (fun x => ?_)
  simp only [List.mem_flatMap, mem_clearWrites]
  exact ⟨fun ⟨a, ha, f, hf, e⟩ => ⟨f, ⟨a, ha, hf⟩, e⟩, fun ⟨f, ⟨a, ha, hf⟩, e⟩ => ⟨a, ha, f, hf, e⟩⟩

/-- A served write of a clear bit clears the counters of each member of a list. -/
theorem hostTo_each_cntClr {α : Type} {a : Nat} {sec : Bool} {l : List α} {fs : α → List Fld} {s : State} (h : s.served a sec)
    (hc : Counters (l.flatMap fs)) : s.cleared (l.flatMap fs) (hostTo a sec (each l fun x => cntClr (fs x)) s) := by
  rw [hostTo_served h]
  exact emit_each_cntClr_cleared h.1 hc

/-- A bit of a machine word, as the model's numbers hold it. -/
theorem bit_toNat {w : Nat} (x : BitVec w) (i : Nat) : bit x.toNat i = x.getLsbD i :=
  Nat.testBit_eq_decide_div_mod_eq.symm

/-- Counting the waits in progress up to now keeps the register file canonical. -/
theorem regsWf_waitsCounted {s : State} (h : s.regsWf = true) (mask : BitVec 8) : (s.waitsCounted mask).regsWf = true :=
  (each_sound _ (fun c _ k => syncSettle_sound c (queueRoll_sound c k)) (Sound.refl s)).wf h

/-- The accounting of a context's waybill, as its clear covers it (R201). -/
def wbCounters (n : Ctx) : List Fld :=
  [GL_WB_LATE_CYC.COUNT (cid n), GL_WB_LATE_BEATS.COUNT (cid n), GL_WB_OVERRUN.COUNT (cid n), GL_WB_OVERRUN.LAST_STAGE (cid n),
    GL_WB_OVERRUN.LAST_COACH (cid n), GL_WB_DELAY.MAX (cid n), GL_WB_FOREIGN.COUNT (cid n), GL_WB_DROPS.ROWS (cid n), GL_WB_DROPS.RES_EXCEED (cid n)]

theorem counters_wbCounters (n : Ctx) : Counters (wbCounters n) := by
  revert n
  decide

/-- The effect of a clear of the contexts of a mask, in the terms of its statement. -/
theorem execGlWbCntClr_eq (mask : BitVec 8) (s : State) : execGlWbCntClr mask s =
    .next (hostTo 0x240 false (fun s => each (allCtx.filter fun n => bit mask.toNat n.val) (fun n => cntClr (wbCounters n)) (s.waitsCounted mask)) s) := rfl

/-- A clear of the contexts of a mask: the waits of their stages are counted up to now, and then their accounting is cleared (R192, R201). -/
theorem execGlWbCntClr_served {s : State} (h : s.served 0x240 false) (mask : BitVec 8) : execGlWbCntClr mask s =
    .next (emit (.resp true 0 0) (each (allCtx.filter fun n => mask.getLsbD n.val) (fun n => cntClr (wbCounters n)) (s.waitsCounted mask))) := by
  rw [execGlWbCntClr_eq, hostTo_served h]
  simp only [bit_toNat]

theorem execGlWbCntClr_cleared {s : State} (h : s.served 0x240 false) (mask : BitVec 8) :
    ∃ t, execGlWbCntClr mask s = .next t ∧ (s.waitsCounted mask).cleared ((allCtx.filter fun n => mask.getLsbD n.val).flatMap wbCounters) t := by
  refine ⟨_, execGlWbCntClr_served h mask, emit_each_cntClr_cleared (regsWf_waitsCounted h.1 mask) (fun f hf => ?_)⟩
  obtain ⟨n, -, hf⟩ := List.mem_flatMap.1 hf
  exact counters_wbCounters n f hf

/-- The record of the last memory error is given free where the present cycle has brought none (R232). -/
theorem execMpErrInfoClear_frees {s : State} (h : s.served 0x400014 false) (hf : rdB (freshF MP_ERR_INFO.VALID) s = false) :
    execMpErrInfoClear s = .next (emit (.resp true 0 0) (clr [MP_ERR_INFO.VALID, MP_ERR_INFO.MORE] s)) := by
  rw [execMpErrInfoClear, hostTo_served h, hf, if_neg Bool.false_ne_true]

/-- The record that the present cycle brings stays (R232). -/
theorem execMpErrInfoClear_stays {s : State} (h : s.served 0x400014 false) (hf : rdB (freshF MP_ERR_INFO.VALID) s = true) :
    execMpErrInfoClear s = .next { s with out := .resp true 0 0 :: s.out } := by
  rw [execMpErrInfoClear, hostTo_served h, hf, if_pos rfl, emit]

/-- Settles O11: each command is a clear behind the host port's checks, of one list of counters or of those of every port or context named. -/
theorem portWaybillAndLinkCountersClear : Obligations.PortWaybillAndLinkCountersClear := by
  unfold Obligations.PortWaybillAndLinkCountersClear
  intro s
  refine ⟨fun h hf => ⟨_, execMpErrInfoClear_frees h hf, ?valid, ?more, clr_kept _ h.1, ?rest⟩, execMpErrInfoClear_stays,
    ?ports, ?beats, ?drops, ?ring, fun mask h => execGlWbCntClr_cleared h mask, ?links, ?abort, ?linkDrops, ?halo⟩
  case valid | more => exact rd_clr_mem _ h.1 _ (by simp)
  case rest => rw [clr, wrs_eq_regs, emit]
  case ports | ring => exact fun h => ⟨_, rfl, hostTo_each_cntClr h (by decide)⟩
  case beats =>
    rw [List.map_eq_flatMap]
    exact fun h => ⟨_, rfl, hostTo_each_cntClr h (by decide)⟩
  case drops | links | abort | linkDrops | halo => exact fun h => ⟨_, rfl, hostTo_cntClr h (by decide)⟩

end Sys2Proof.Machine

/-! SUPPORT. A claim by the Coachman of MBS1's doorbells on the host side, with a doorbell of the same cycle that the controller has not sampled yet. -/

namespace Sys2Proof.Machine

/-- The Coachman is awake, and source 6 (MBS1's host side, R349) drives its normal line. A doorbell has come in the present cycle: it stands in
K2H_DB_PEND, unmasked, and the controller has not sampled its level yet (EV_RAW is 0). -/
def bellUnsampled : State := wrs
  [(PM_PWR_STATUS.ON 20, 1), (MB.H2K_STATUS.PEER 0, 0), (pendF false 6, 1), (maskF false 6, 0),
    (MB.K2H_DB_PEND.PEND 5, 8), (freshF (MB.K2H_DB_PEND.PEND 5), 8), (MB.K2H_DB_MASK.MASK 5, 0)]
  State.reset

/-- An awake Coachman whose lowest normal source is MBS1's host side takes the source, and then the doorbells (R313, R315). -/
theorem execEvClaim_hostBells {s : State} (hAwake : fwAwake .coachman s = true) (hFast : evLine .coachman true s = false)
    (hSrc : claimable .coachman false s = some 6) :
    exec (.evClaim .coachman false) s = .next (takeHostBells (takeSource .coachman false 6 s)) := by
  change execEvClaim .coachman false s = _
  simp [execEvClaim, hAwake, hFast, claim, hSrc]

theorem regsWf_bellUnsampled : bellUnsampled.regsWf = true := (wrs_sound _ (Sound.refl State.reset)).wf rfl

/-- In this state source 6 is the lowest that drives the Coachman's normal line, and no fast one drives its line. -/
theorem drives_bellUnsampled : drives .coachman false 6 bellUnsampled = true ∧ (∀ j, j < 6 → drives .coachman false j bellUnsampled = false) ∧
    claimable .coachman false bellUnsampled = some 6 ∧ fwAwake .coachman bellUnsampled = true ∧ evLine .coachman true bellUnsampled = false := by
  decide +kernel

/-- The doorbell of the present cycle stays, so that the sample finds its level high and latches the source anew (R313, R350, R358). -/
theorem rd_pend_bellUnsampled_taken : rd (pendF false 6) (takeHostBells (takeSource .coachman false 6 bellUnsampled)) = 1 := by
  decide +kernel

theorem rd_freshF_pend_bellUnsampled : rd (freshF (pendF false 6)) bellUnsampled = 0 := by
  decide +kernel

/-- Refutes O43: the claim of a level source by a processor takes its doorbells too and samples the line again; a doorbell of the same cycle, not
sampled before, then sets the pending bit that the claim has cleared, though hardware had not set it in that cycle before the claim. The statement
lacks the hypothesis that EV_RAW shows the level of the source as it is. -/
theorem not_claimsTakeTheLowestDrivingSource : ¬ Obligations.ClaimsTakeTheLowestDrivingSource := by
  unfold Obligations.ClaimsTakeTheLowestDrivingSource
  intro h
  obtain ⟨hDrives, hLowest, hSrc, hAwake, hFast⟩ := drives_bellUnsampled
  obtain ⟨t, hExec, hPend, -⟩ := (h bellUnsampled .coachman false 6#7 regsWf_bellUnsampled).1 hDrives hLowest nofun fun _ => ⟨hAwake, .inr hFast⟩
  obtain rfl : takeHostBells (takeSource .coachman false 6 bellUnsampled) = t :=
    Host.Outcome.next.inj ((execEvClaim_hostBells hAwake hFast hSrc).symm.trans hExec)
  simp [rd_pend_bellUnsampled_taken, rd_freshF_pend_bellUnsampled] at hPend

end Sys2Proof.Machine

/-! SUPPORT. Events that wake nothing: in a block that does not sleep, what latches events leaves the power state and the cause of the last
reset (R350, R523). -/

namespace Sys2Proof.Machine

/-- What latches events without a wake: the power state stays, and so do the sleep state and the cause of the last reset. -/
structure Unwoken (s t : State) : Prop where
  wf : t.regsWf = true
  sleep : rd PM_SLEEP.STATE t = rd PM_SLEEP.STATE s
  cause : rd PM_RST_CAUSE.CAUSE t = rd PM_RST_CAUSE.CAUSE s
  pw : t.pw = s.pw

theorem Unwoken.refl {s : State} (h : s.regsWf = true) : Unwoken s s := ⟨h, rfl, rfl, rfl⟩

theorem Unwoken.wr {s t : State} (f : Fld) (v : Nat) (hSleep : f.key ≠ PM_SLEEP.STATE.key) (hCause : f.key ≠ PM_RST_CAUSE.CAUSE.key) (h : Unwoken s t) :
    Unwoken s (wr f v t) :=
  ⟨regsWf_wr h.wf f v, (rd_wr_ne h.wf _ _ _ hSleep.symm).trans h.sleep, (rd_wr_ne h.wf _ _ _ hCause.symm).trans h.cause, h.pw⟩

theorem Unwoken.ite {s a b : State} {c : Prop} [Decidable c] (ha : Unwoken s a) (hb : Unwoken s b) : Unwoken s (if c then a else b) := by
  split <;> assumption

theorem Unwoken.each {α : Type} {s : State} (l : List α) {g : α → State → State} (hg : ∀ x ∈ l, ∀ u, Unwoken s u → Unwoken s (g x u)) {t : State}
    (h : Unwoken s t) : Unwoken s (each l g t) := by
  unfold Machine.each
  induction l generalizing t with
  | nil => exact h
  | cons x r ih => exact ih (fun y m => hg y (List.mem_cons_of_mem _ m)) (hg x List.mem_cons_self _ h)

/-- The block neither enters its sleep nor sleeps: nothing can wake it (R523). -/
def NoSleep (s : State) : Prop := rd PM_SLEEP.STATE s ≠ 1 ∧ rd PM_SLEEP.STATE s ≠ 2

/-- A request to wake a block that does not sleep does nothing (R523). -/
theorem Unwoken.wake {s t : State} (c : Nat) (hn : NoSleep s) (h : Unwoken s t) : Unwoken s (wake c t) := by
  obtain ⟨hEnter, hAsleep⟩ := hn
  have hSame : Machine.wake c t = t := by simp [Machine.wake, h.sleep, hEnter, hAsleep]
  rwa [hSame]

theorem Unwoken.lanternRecord {s t : State} (src : Nat) (hn : NoSleep s) (h : Unwoken s t) : Unwoken s (lanternRecord src t) := by
  have hHits : Unwoken s (Machine.each (watchers src t) (fun e u => Machine.wr (PM_LAN_HIT.ENTRIES e) 1 u) t) :=
    h.each _ fun e _ u k => k.wr _ _ (by simp only [PM_LAN_HIT.ENTRIES, PM_SLEEP.STATE, Fld.key]; omega)
      (by simp only [PM_LAN_HIT.ENTRIES, PM_RST_CAUSE.CAUSE, Fld.key]; omega)
  unfold Machine.lanternRecord
  exact .ite h (.wake _ hn (.ite hHits ((hHits.wr _ _ (by decide) (by decide)).wr _ _ (by decide) (by decide))))

/-- The pending bits of the event controller lie below the fields of the power manager. -/
theorem pendF_key_lt (fast : Bool) {src : Nat} (h : src < 128) : (pendF fast src).key < 0xb00000 * 64 := by
  have hBank : evBank fast ≤ 0x1000 := by cases fast <;> decide
  simp only [pendF, EV_PEND.PEND, Fld.key]
  omega

theorem Unwoken.latch {s t : State} (src : Nat) (hn : NoSleep s) (h : Unwoken s t) : Unwoken s (latch src t) := by
  unfold Machine.latch
  by_cases hr : evReserved src = true
  · rwa [if_pos hr]
  · rw [if_neg hr]
    have hSrc : src < 128 := by
      simp only [evReserved, Bool.or_eq_true, not_or, decide_eq_true_eq] at hr
      omega
    have hKey (fast : Bool) := pendF_key_lt fast hSrc
    have hRec := h.lanternRecord src hn
    refine .ite (Unwoken.wr _ _ ?_ ?_ (hRec.wr _ _ ?_ ?_)) hRec
    all_goals
      have := hKey (srcFast src (Machine.lanternRecord src t))
      simp only [freshF, PM_SLEEP.STATE, PM_RST_CAUSE.CAUSE, Fld.key] at this ⊢
      omega

theorem Unwoken.raise {s t : State} (src : Nat) (hn : NoSleep s) (h : Unwoken s t) : Unwoken s (raise src t) := by
  unfold Machine.raise; exact .ite (h.latch src hn) h

theorem Unwoken.settle {s t : State} (hn : NoSleep s) (h : Unwoken s t) : Unwoken s (settle t) := by
  refine h.each _ fun src hm u k => ?_
  have hSrc : src < 128 := by
    have : ∀ y ∈ levelSources, y < 128 := by decide
    exact this src hm
  have hRaw : Unwoken s (wrB (rawF src) (sampled src u) u) :=
    k.wr _ _ (by simp only [rawF, EV_RAW.RAW, PM_SLEEP.STATE, Fld.key]; omega) (by simp only [rawF, EV_RAW.RAW, PM_RST_CAUSE.CAUSE, Fld.key]; omega)
  unfold settleOne
  exact .ite (hRaw.latch src hn) hRaw

/-- The event of a fault, in an awake block: it stays awake, and every field outside the events' reads as before (R350). -/
theorem raise_awake {s : State} (h : s.regsWf = true) (src : Nat) (ha : s.awake) : (raise src s).awake ∧ (raise src s).regsWf = true ∧
    (raise src s).now = s.now ∧ ∀ f : Fld, evKey f.key = false → rd f (raise src s) = rd f s := by
  obtain ⟨hReset, hTrip, hSleep⟩ := ha
  have hHeard := raise_heard src (Heard.refl s)
  have hKept (f : Fld) (he : evKey f.key = false) : rd f (raise src s) = rd f s := hHeard.regs h f he (List.forall_mem_nil _)
  have hUnwoken := (Unwoken.refl h).raise src (by simp [NoSleep, hSleep])
  exact ⟨⟨(congrArg PwSt.reset hUnwoken.pw).trans hReset, (hKept _ (by decide)).trans hTrip, hUnwoken.sleep.trans hSleep⟩, hHeard.wf h,
    by rw [hHeard.rest], hKept⟩

end Sys2Proof.Machine

/-! SUPPORT. The reset for a security-class fault: what it has recorded, and what it writes when it begins (R493, R498, R509, R519). -/

namespace Sys2Proof.Machine

/-- Of writes to different fields each is read back. -/
theorem rd_wrs_nodup {l : List (Fld × Nat)} (hn : (l.map (·.1.key)).Nodup) {s : State} (h : s.regsWf = true) {f : Fld} {v : Nat} (hx : (f, v) ∈ l) :
    rd f (wrs l s) = v % 2 ^ f.width := by
  induction l generalizing s with
  | nil => exact absurd hx List.not_mem_nil
  | cons y r ih =>
    obtain ⟨hHead, hTail⟩ := List.nodup_cons.1 hn
    rcases List.mem_cons.1 hx with rfl | hMem
    · have hRest : ∀ z ∈ r, f.key ≠ z.1.key := fun z hz e => hHead (List.mem_map.2 ⟨z, hz, e.symm⟩)
      exact (rd_wrs_ne r (regsWf_wr h f v) f hRest).trans (rd_wr_same h f v)
    · exact ih hTail (regsWf_wr h _ _) hMem

/-- Lists of writes, one for each member of a list, are one list of writes. -/
theorem each_wrs_eq_wrs {α : Type} (l : List α) (ws : α → List (Fld × Nat)) (s : State) : each l (fun x => wrs (ws x)) s = wrs (l.flatMap ws) s := by
  induction l generalizing s with
  | nil => rfl
  | cons x r ih => rw [List.flatMap_cons, wrs_append, ← ih]; rfl

theorem regsWf_inc {s : State} (h : s.regsWf = true) (f : Fld) : (inc f s).regsWf = true := regsWf_wr h _ _

theorem regsWf_wrs {s : State} (h : s.regsWf = true) (l : List (Fld × Nat)) : (wrs l s).regsWf = true := (wrs_sound l (Sound.refl s)).wf h

/-- The count of recent fault-driven resets steps up to its bound (R493). -/
theorem rd_recent_countFltReset {s : State} (h : s.regsWf = true) (hr : rd PM_FLT_RESETS.RECENT s < 3) :
    rd PM_FLT_RESETS.RECENT (countFltReset s) = rd PM_FLT_RESETS.RECENT s + 1 := by
  change rd PM_FLT_RESETS.RECENT (add PM_FLT_RESETS.RECENT _ (inc PM_FLT_RESETS.TOTAL s)) = _
  rw [rd_add_same (regsWf_inc h _), rd_inc_ne h _ _ (by decide), if_pos hr]
  exact Nat.min_eq_left (by simp only [PM_FLT_RESETS.RECENT] at hr ⊢; omega)

theorem rd_countFltReset_ne {s : State} (h : s.regsWf = true) {f : Fld} (hRecent : f.key ≠ PM_FLT_RESETS.RECENT.key)
    (hTotal : f.key ≠ PM_FLT_RESETS.TOTAL.key) : rd f (countFltReset s) = rd f s := by
  change rd f (add PM_FLT_RESETS.RECENT _ (inc PM_FLT_RESETS.TOTAL s)) = _
  rw [rd_add_ne (regsWf_inc h _) _ _ _ hRecent, rd_inc_ne h _ _ hTotal]

/-- A reset that begins records its cause, STATE reads WAKING, and the lifecycle is hidden (R377, R519, R523). -/
def resetRecorded (cause : Nat) (s : State) : State :=
  wr GL_STATUS.LIFECYCLE 0 (wr PM_SLEEP.STATE 3 (inc PM_RST_CAUSE.COUNT (wr PM_RST_CAUSE.CAUSE cause s)))

/-- The writes with which a block reset closes the fence of a domain (R519). -/
def domainOff (d : Nat) : List (Fld × Nat) := [(PM_PWR_STATUS.ON d, 0), (PM_PWR_REQ.REQ d, 0)]

/-- The state in which a reset that begins has written its registers (R519). -/
def resetWrites (cause : Nat) (s : State) : State := each resetOrder (fun d => wrs (domainOff d)) (lanternBegin (resetRecorded cause s))

theorem resetWrites_eq_wrs (cause : Nat) (s : State) :
    resetWrites cause s = wrs (resetOrder.flatMap domainOff) (lanternBegin (resetRecorded cause s)) := each_wrs_eq_wrs _ _ _

/-- The fields of those registers. -/
def resetWritten : List Fld :=
  GL_STATUS.LIFECYCLE :: PM_SLEEP.STATE :: PM_RST_CAUSE.COUNT :: PM_RST_CAUSE.CAUSE :: (resetOrder.flatMap domainOff).map (·.1)

/-- The fields that a fault-driven reset writes when it begins: it is counted besides (R493). -/
def resetFields : List Fld := PM_FLT_RESETS.RECENT :: PM_FLT_RESETS.TOTAL :: resetWritten

section
variable {s : State} (h : s.regsWf = true) (cause : Nat)
include h

theorem regsWf_resetRecorded : (lanternBegin (resetRecorded cause s)).regsWf = true :=
  regsWf_wr (regsWf_wr (regsWf_inc (regsWf_wr h PM_RST_CAUSE.CAUSE cause) PM_RST_CAUSE.COUNT) PM_SLEEP.STATE 3) GL_STATUS.LIFECYCLE 0

theorem regsWf_resetWrites : (resetWrites cause s).regsWf = true := by
  rw [resetWrites_eq_wrs]; exact regsWf_wrs (regsWf_resetRecorded h cause) _

/-- Of a field that shows no domain's power, the writes of a reset's begin leave what stood before the domains. -/
theorem rd_resetWrites {f : Fld} (hf : ∀ x ∈ resetOrder.flatMap domainOff, f.key ≠ x.1.key) :
    rd f (resetWrites cause s) = rd f (resetRecorded cause s) := by
  rw [resetWrites_eq_wrs]; exact rd_wrs_ne _ (regsWf_resetRecorded h cause) f hf

theorem rd_sleep_resetWrites : rd PM_SLEEP.STATE (resetWrites cause s) = 3 := by
  have hCount := regsWf_inc (regsWf_wr h PM_RST_CAUSE.CAUSE cause) PM_RST_CAUSE.COUNT
  rw [rd_resetWrites h _ (by decide), resetRecorded, rd_wr_ne (regsWf_wr hCount _ _) _ _ _ (by decide), rd_wr_same hCount]
  rfl

theorem rd_cause_resetWrites : rd PM_RST_CAUSE.CAUSE (resetWrites cause s) = cause % 16 := by
  have hCause := regsWf_wr h PM_RST_CAUSE.CAUSE cause
  have hCount := regsWf_inc hCause PM_RST_CAUSE.COUNT
  rw [rd_resetWrites h _ (by decide), resetRecorded, rd_wr_ne (regsWf_wr hCount _ _) _ _ _ (by decide), rd_wr_ne hCount _ _ _ (by decide),
    rd_inc_ne hCause _ _ (by decide), rd_wr_same h]
  rfl

theorem rd_resetWrites_ne {f : Fld} (hf : ∀ g ∈ resetWritten, f.key ≠ g.key) : rd f (resetWrites cause s) = rd f s := by
  simp only [resetWritten, List.forall_mem_cons, List.forall_mem_map] at hf
  obtain ⟨hLife, hSleep, hCount, hCause, hOff⟩ := hf
  have wfCause := regsWf_wr h PM_RST_CAUSE.CAUSE cause
  have wfCount := regsWf_inc wfCause PM_RST_CAUSE.COUNT
  rw [rd_resetWrites h _ hOff, resetRecorded, rd_wr_ne (regsWf_wr wfCount _ _) _ _ _ hLife, rd_wr_ne wfCount _ _ _ hSleep,
    rd_inc_ne wfCause _ _ hCount, rd_wr_ne h _ _ _ hCause]

end

/-- BYPASS_HOLD is low after it has fallen (R295). -/
@[simp] theorem holdFall_hold (s : State) : (holdFall s).pins.hold = false := by
  unfold holdFall
  split
  · rfl
  · next hLow => simpa using hLow

@[simp] theorem holdFall_alarmN (s : State) : (holdFall s).pins.alarmN = s.pins.alarmN := by unfold holdFall; split <;> rfl
@[simp] theorem holdFall_pwrCycN (s : State) : (holdFall s).pins.pwrCycN = s.pins.pwrCycN := by unfold holdFall; split <;> rfl
@[simp] theorem holdFall_regs (s : State) : (holdFall s).regs = s.regs := by unfold holdFall; split <;> rfl

/-- What a fault-driven reset has done when it begins (R493, R519). -/
structure ResetBegun (cause : Nat) (s t : State) : Prop where
  wf : t.regsWf = true
  reset : t.pw.reset = some ⟨cause, s.now, true⟩
  hold : t.pins.hold = false
  alarmN : t.pins.alarmN = s.pins.alarmN
  cause : rd PM_RST_CAUSE.CAUSE t = cause % 16
  recent : rd PM_FLT_RESETS.RECENT s < 3 → rd PM_FLT_RESETS.RECENT t = rd PM_FLT_RESETS.RECENT s + 1
  kept : s.keptEv resetFields t

/-- Sampling the levels after its begin takes nothing from a reset: STATE reads WAKING, so that nothing wakes the block. -/
theorem ResetBegun.settle {cause : Nat} {s t : State} (h : ResetBegun cause s t) (hSleep : rd PM_SLEEP.STATE t = 3) : ResetBegun cause s (settle t) := by
  have hHeard := settle_heard (Heard.refl t)
  have hUnwoken := (Unwoken.refl h.wf).settle (by simp [NoSleep, hSleep])
  have hPins : (Machine.settle t).pins = t.pins := by rw [hHeard.rest]
  have hRegs : ∀ f : Fld, evKey f.key = false → rd f (Machine.settle t) = rd f t := fun f he => hHeard.regs h.wf f he (List.forall_mem_nil _)
  exact ⟨hHeard.wf h.wf, (congrArg PwSt.reset hUnwoken.pw).trans h.reset, (congrArg Pins.hold hPins).trans h.hold,
    (congrArg Pins.alarmN hPins).trans h.alarmN, hUnwoken.cause.trans h.cause,
    fun hr => (hRegs _ (by decide)).trans (h.recent hr), fun f he hf => (hRegs f he).trans (h.kept f he hf)⟩

/-- A fault-driven reset is counted, and ends an unlock of the lifecycle (R382, R493). -/
def resetCounted (s : State) : State := { countFltReset s with pw := { s.pw with unlock := false } }

/-- A fault-driven reset that is neither merged nor served by one in progress: what is then sampled, by its parts. -/
theorem beginReset_eq {s : State} {cause : Nat} (hCause : cause ≠ 5) (hReset : s.pw.reset = none) (hTrip : rd PM_THERM_STATUS.TRIP (resetCounted s) = 0)
    (hSleep : rd PM_SLEEP.STATE (resetCounted s) = 0) : ∃ u, beginReset cause true s = settle u ∧ u.regs = (resetWrites cause (resetCounted s)).regs ∧
      u.pw.reset = some ⟨cause, (resetWrites cause (resetCounted s)).now, true⟩ ∧ u.pins = (holdFall (resetWrites cause (resetCounted s))).pins := by
  have hCount : (if (true && s.pw.reset.isNone) = true then countFltReset s else s) = countFltReset s := by simp [hReset]
  have hAwake : ¬ (rdB PM_THERM_STATUS.TRIP (resetCounted s) || rd PM_SLEEP.STATE (resetCounted s) == 2) = true := by simp [rdB, hTrip, hSleep]
  have hNone : (resetCounted s).pw.reset = none := hReset
  unfold beginReset
  dsimp only
  rw [hCount, if_neg (show ¬ (cause == 5) = true by simpa using hCause)]
  change ∃ u, (if (rdB PM_THERM_STATUS.TRIP (resetCounted s) || rd PM_SLEEP.STATE (resetCounted s) == 2) = true then _ else
    match (resetCounted s).pw.reset with
    | some r => _
    | none => _) = settle u ∧ _
  rw [if_neg hAwake, hNone]
  exact ⟨_, rfl, holdFall_regs _, rfl, rfl⟩

/-- A fault-driven reset begins while no other is in progress, in a block that neither sleeps nor is held by a trip (R493, R519, R527). -/
theorem beginReset_begun {s : State} (h : s.regsWf = true) {cause : Nat} (hCause : cause ≠ 5) (ha : s.awake) :
    ResetBegun cause s (beginReset cause true s) := by
  obtain ⟨hReset, hTrip, hSleep⟩ := ha
  have wfCounted : (resetCounted s).regsWf = true := (countFltReset_sound (Sound.refl s)).wf h
  obtain ⟨u, hBegin, hRegs, hPw, hPins⟩ := beginReset_eq hCause hReset ((rd_countFltReset_ne h (by decide) (by decide)).trans hTrip)
    ((rd_countFltReset_ne h (by decide) (by decide)).trans hSleep)
  have hWrites := wrs_eq_regs (resetOrder.flatMap domainOff) (lanternBegin (resetRecorded cause (resetCounted s)))
  rw [← resetWrites_eq_wrs] at hWrites
  have hNow : (resetWrites cause (resetCounted s)).now = s.now := by rw [hWrites]; rfl
  have hAlarmN : (resetWrites cause (resetCounted s)).pins.alarmN = s.pins.alarmN := by rw [hWrites]; rfl
  rw [hBegin]
  refine ResetBegun.settle ⟨?wf, by rw [hPw, hNow], by rw [hPins, holdFall_hold], by rw [hPins, holdFall_alarmN, hAlarmN], ?code,
    fun hr => ?recent, fun f _ hf => ?kept⟩ ?sleep
  case wf => exact (congrArg (SMap.wf fieldReset) hRegs).trans (regsWf_resetWrites wfCounted cause)
  case code => rw [rd_congr hRegs, rd_cause_resetWrites wfCounted]
  case recent =>
    rw [rd_congr hRegs, rd_resetWrites_ne wfCounted _ (by decide)]
    exact rd_recent_countFltReset h hr
  case kept =>
    simp only [resetFields, List.forall_mem_cons] at hf
    obtain ⟨hRecent, hTotal, hWritten⟩ := hf
    rw [rd_congr hRegs, rd_resetWrites_ne wfCounted _ hWritten]
    exact rd_countFltReset_ne h hRecent hTotal
  case sleep => rw [rd_congr hRegs, rd_sleep_resetWrites wfCounted]

/-- What a security-class fault writes before the block resets: GL_STATUS.FENCED, and PM_FLT_LAST (R498, R509). -/
def secFaultWrites (code unit : Nat) : List (Fld × Nat) :=
  [(GL_STATUS.FENCED, 1), (PM_FLT_LAST.NEW, 1), (PM_FLT_LAST.SECURITY, 1), (PM_FLT_LAST.CODE, code), (PM_FLT_LAST.LEVEL, 8), (PM_FLT_LAST.CTX, 0),
    (PM_FLT_LAST.UNIT, unit)]

/-- The fields of these writes. -/
def secFaultFields : List Fld :=
  [GL_STATUS.FENCED, PM_FLT_LAST.NEW, PM_FLT_LAST.SECURITY, PM_FLT_LAST.CODE, PM_FLT_LAST.LEVEL, PM_FLT_LAST.CTX, PM_FLT_LAST.UNIT]

theorem secFaultWrites_map (code unit : Nat) : (secFaultWrites code unit).map (·.1) = secFaultFields := rfl

/-- A security-class fault is recorded, with ALARM_N asserted; its reset begins from here (R498). -/
def secRecorded (code unit : Nat) (s : State) : State :=
  { wrs (secFaultWrites code unit) s with
    pins := { s.pins with alarmN := false }
    flt := { s.flt with block := none, replay := none, security := none } }

theorem securityReset_eq (code unit : Nat) (s : State) : securityReset code unit s =
    if rd PM_FLT_RESETS.RECENT (secRecorded code unit s) == 3
      then holdFall { secRecorded code unit s with pins := { s.pins with alarmN := false, pwrCycN := false } }
      else beginReset 2 true (secRecorded code unit s) := rfl

/-- Neither an event nor the begin of a reset writes these fields. -/
theorem secFaultFields_apart : ∀ g ∈ secFaultFields, evKey g.key = false ∧ ∀ r ∈ resetFields, g.key ≠ r.key := by decide

section
variable {s : State} (h : s.regsWf = true) (code unit : Nat)
include h

theorem regsWf_secRecorded : (secRecorded code unit s).regsWf = true := regsWf_wrs h (secFaultWrites code unit)

theorem rd_secRecorded_ne {f : Fld} (hf : ∀ g ∈ secFaultFields, f.key ≠ g.key) : rd f (secRecorded code unit s) = rd f s :=
  rd_wrs_ne (secFaultWrites code unit) h f fun _ hx => hf _ (List.mem_map_of_mem (f := (·.1)) hx)

/-- The record of the fault reads what it was given. -/
theorem rd_secRecorded {f : Fld} {v : Nat} (hx : (f, v) ∈ secFaultWrites code unit) : rd f (secRecorded code unit s) = v % 2 ^ f.width := by
  have hn : (secFaultFields.map Fld.key).Nodup := by decide
  exact rd_wrs_nodup (l := secFaultWrites code unit) hn h hx

theorem awake_secRecorded (ha : s.awake) : (secRecorded code unit s).awake := by
  obtain ⟨hReset, hTrip, hSleep⟩ := ha
  refine ⟨?_, (rd_secRecorded_ne h _ _ (by decide)).trans hTrip, (rd_secRecorded_ne h _ _ (by decide)).trans hSleep⟩
  rw [secRecorded, wrs_eq_regs]
  exact hReset

/-- A reset for a security-class fault keeps what its fault has recorded, and writes no other field than a reset does (R493, R498). -/
theorem securityReset_keptEv (ha : s.awake) : (secRecorded code unit s).keptEv resetFields (securityReset code unit s) := by
  rw [securityReset_eq]
  split
  · exact fun f _ _ => rd_congr (holdFall_regs _) f
  · exact (beginReset_begun (regsWf_secRecorded h code unit) (by decide) (awake_secRecorded h code unit ha)).kept

/-- The record of the fault survives the begin of the reset. -/
theorem rd_securityReset (ha : s.awake) {f : Fld} {v : Nat} (hx : (f, v) ∈ secFaultWrites code unit) :
    rd f (securityReset code unit s) = v % 2 ^ f.width := by
  have hMem : f ∈ secFaultFields := secFaultWrites_map code unit ▸ List.mem_map_of_mem (f := (·.1)) hx
  obtain ⟨he, hf⟩ := secFaultFields_apart f hMem
  exact (securityReset_keptEv h code unit ha f he hf).trans (rd_secRecorded h code unit hx)

/-- A security-class fault in an awake block resets it, or requests the power cycle (R493, R498, R509). -/
theorem securityReset_secured (ha : s.awake) (hCode : code < 256) (hUnit : unit < 32) : s.secured code unit (securityReset code unit s) := by
  have hBegun := beginReset_begun (regsWf_secRecorded h code unit) (cause := 2) (by decide) (awake_secRecorded h code unit ha)
  have hRecent : rd PM_FLT_RESETS.RECENT (secRecorded code unit s) = rd PM_FLT_RESETS.RECENT s := rd_secRecorded_ne h code unit (by decide)
  have hNow : (secRecorded code unit s).now = s.now := by rw [secRecorded, wrs_eq_regs]
  refine ⟨rd_securityReset h _ _ ha (v := 1) (by simp [secFaultWrites]), rd_securityReset h _ _ ha (v := 1) (by simp [secFaultWrites]),
    (rd_securityReset h _ _ ha (v := code) (by simp [secFaultWrites])).trans (Nat.mod_eq_of_lt hCode),
    rd_securityReset h _ _ ha (v := 0) (by simp [secFaultWrites]),
    (rd_securityReset h _ _ ha (v := unit) (by simp [secFaultWrites])).trans (Nat.mod_eq_of_lt hUnit),
    rd_securityReset h _ _ ha (v := 1) (by simp [secFaultWrites]), ?alarm, ?hold, fun hr => ?cycle, fun hr => ?begun⟩
  all_goals rw [securityReset_eq, hRecent]
  case alarm =>
    split
    · exact holdFall_alarmN _
    · exact hBegun.alarmN
  case hold =>
    split
    · exact holdFall_hold _
    · exact hBegun.hold
  case cycle =>
    rw [if_pos (by simpa using hr)]
    exact holdFall_pwrCycN _
  case begun =>
    rw [if_neg (by simp; omega)]
    exact ⟨hBegun.reset.trans (by rw [hNow]), (hBegun.recent (hRecent ▸ hr)).trans (by rw [hRecent]), hBegun.cause⟩

end

/-- A reset for a security-class fault leaves the fields that neither it nor an event writes. -/
theorem rd_securityReset_ne {s : State} (h : s.regsWf = true) (code unit : Nat) (ha : s.awake) {f : Fld} (he : evKey f.key = false)
    (hReset : ∀ g ∈ resetFields, f.key ≠ g.key) (hFault : ∀ g ∈ secFaultFields, f.key ≠ g.key) : rd f (securityReset code unit s) = rd f s :=
  (securityReset_keptEv h code unit ha f he hReset).trans (rd_secRecorded_ne h code unit hFault)

/-- What a security-class fault does is judged by the block's count of recent resets and by the time alone. -/
theorem secured_congr {s u t : State} {code unit : Nat} (hRecent : rd PM_FLT_RESETS.RECENT u = rd PM_FLT_RESETS.RECENT s) (hNow : u.now = s.now)
    (h : u.secured code unit t) : s.secured code unit t := by
  simpa only [State.secured, hRecent, hNow] using h

/-- A security-class fault that the Strongbox raises while it runs acts at once (R498). -/
theorem securityFault_eq {s : State} (code : Nat) (hReset : s.pw.reset = none) (hUp : sbUp s = true) : securityFault code s = securityReset code 21 s := by
  simp [securityFault, sbActs, hReset, hUp]

end Sys2Proof.Machine

/-! SUPPORT. What leaves the heartbeat alone: the confirmation of units rewrites the directory and borrows the digest engine, and nothing of
the heartbeat's (R388, R432, R476). -/

namespace Sys2Proof.Machine

/-- The heartbeat's own state and its register (R388, R393) are left as they were. -/
structure HeartbeatKept (s t : State) : Prop where
  wf : s.regsWf = true → t.regsWf = true
  regs : s.regsWf = true → ∀ f : Fld, f.key / 64 = SB_HB.MISSES.addr → rd f t = rd f s
  sent : t.sb.hbSent = s.sb.hbSent
  bad : t.sb.hbBad = s.sb.hbBad
  clean : t.sb.hbClean = s.sb.hbClean

theorem HeartbeatKept.refl (s : State) : HeartbeatKept s s := ⟨id, fun _ _ _ => rfl, rfl, rfl, rfl⟩

theorem HeartbeatKept.trans {s t u : State} (h : HeartbeatKept s t) (k : HeartbeatKept t u) : HeartbeatKept s u :=
  ⟨fun w => k.wf (h.wf w), fun w f hf => (k.regs (h.wf w) f hf).trans (h.regs w f hf), k.sent.trans h.sent, k.bad.trans h.bad, k.clean.trans h.clean⟩

/-- A change of neither registers nor the heartbeat's state. -/
theorem HeartbeatKept.upd {s t u : State} (h : HeartbeatKept s t) (hRegs : u.regs = t.regs) (hSent : u.sb.hbSent = t.sb.hbSent)
    (hBad : u.sb.hbBad = t.sb.hbBad) (hClean : u.sb.hbClean = t.sb.hbClean) : HeartbeatKept s u :=
  h.trans ⟨fun w => (congrArg (SMap.wf fieldReset) hRegs).trans w, fun _ f _ => rd_congr hRegs f, hSent, hBad, hClean⟩

theorem HeartbeatKept.wr {s t : State} (f : Fld) (v : Nat) (hf : f.key / 64 ≠ SB_HB.MISSES.addr) (h : HeartbeatKept s t) : HeartbeatKept s (wr f v t) :=
  h.trans ⟨fun w => regsWf_wr w f v, fun w _ hg => rd_wr_ne w _ _ _ fun e => hf (e ▸ hg), rfl, rfl, rfl⟩

theorem HeartbeatKept.wrs {s t : State} (l : List (Fld × Nat)) (hl : ∀ x ∈ l, x.1.key / 64 ≠ SB_HB.MISSES.addr) (h : HeartbeatKept s t) :
    HeartbeatKept s (wrs l t) := by
  induction l generalizing t with
  | nil => exact h
  | cons x r ih => exact ih (fun y m => hl y (List.mem_cons_of_mem _ m)) (h.wr _ _ (hl x List.mem_cons_self))

theorem HeartbeatKept.each {α : Type} {s : State} (l : List α) {g : α → State → State} (hg : ∀ x ∈ l, ∀ u, HeartbeatKept s u → HeartbeatKept s (g x u))
    {t : State} (h : HeartbeatKept s t) : HeartbeatKept s (each l g t) := by
  unfold Machine.each
  induction l generalizing t with
  | nil => exact h
  | cons x r ih => exact ih (fun y m => hg y (List.mem_cons_of_mem _ m)) (hg x List.mem_cons_self _ h)

theorem HeartbeatKept.ite {s a b : State} {c : Prop} [Decidable c] (ha : HeartbeatKept s a) (hb : HeartbeatKept s b) :
    HeartbeatKept s (if c then a else b) := by
  split <;> assumption

/-- No event reaches the heartbeat's register. -/
theorem evKey_heartbeat {k : Nat} (h : k / 64 = SB_HB.MISSES.addr) : evKey k = false := by
  have hKey : k ≠ PM_SLEEP.STATE.key ∧ k ≠ GL_STATUS.LIFECYCLE.key := by constructor <;> rintro rfl <;> exact absurd h (by decide)
  simp [evKey, ownKey, evAddr, h, hKey, SB_HB.MISSES]

theorem HeartbeatKept.raise {s t : State} (src : Nat) (h : HeartbeatKept s t) : HeartbeatKept s (raise src t) := by
  have hHeard := raise_heard src (Heard.refl t)
  have hSb : (Machine.raise src t).sb = t.sb := by rw [hHeard.rest]
  exact h.trans ⟨hHeard.wf, fun w f hf => hHeard.regs w f (evKey_heartbeat hf) (List.forall_mem_nil _), by rw [hSb], by rw [hSb], by rw [hSb]⟩

/-- A borrow of the digest engine suspends its owner, which leaves the heartbeat alone (R429, R432). -/
theorem HeartbeatKept.dgBorrow {s t : State} (h : HeartbeatKept s t) : HeartbeatKept s (dgBorrow t) := by
  have hStatus (w : Nat) : (DG_STATUS.SUSPENDED w).key / 64 ≠ SB_HB.MISSES.addr := by
    simp only [DG_STATUS.SUSPENDED, SB_HB.MISSES, dgView, Fld.key]; omega
  have hCounted : HeartbeatKept s (Machine.each (List.range 3) (fun v => inc (DG_REFUSED.SUSPENDS v))
      (Machine.wr (DG_STATUS.SUSPENDED (dgOwner t - 1)) 1 t)) :=
    (h.wr _ _ (hStatus _)).each _ fun v _ _ k => k.wr _ _ (by simp only [DG_REFUSED.SUSPENDS, SB_HB.MISSES, dgView, Fld.key]; omega)
  have hSuspend : HeartbeatKept s (dgSuspend t) := .raise 89 (hCounted.upd rfl rfl rfl rfl)
  unfold Machine.dgBorrow
  exact .ite h (.wr _ _ (hStatus _) (hSuspend.upd rfl rfl rfl rfl))

theorem HeartbeatKept.dirSet {s t : State} (i v : Nat) (h : HeartbeatKept s t) : HeartbeatKept s (dirSet i v t) := h.upd rfl rfl rfl rfl

theorem HeartbeatKept.dirShow {s t : State} (h : HeartbeatKept s t) : HeartbeatKept s (dirShow t) := by
  refine .wr _ _ (by decide) (h.each _ fun u _ t k => k.wrs _ ?_)
  simp only [List.forall_mem_cons, SB_UPD_STATE.ACTIVE, SB_UPD_STATE.STATE, SB_UPD_STATE.INACTIVE, SB_UPD_VER_A.VERSION, SB_UPD_VER_B.VERSION,
    SB_HB.MISSES, Fld.key]
  refine ⟨?_, ?_, ?_, ?_, ?_, List.forall_mem_nil _⟩ <;> omega

theorem HeartbeatKept.dirWrite {s t : State} (h : HeartbeatKept s t) : HeartbeatKept s (dirWrite t) := by
  unfold Machine.dirWrite
  exact .dirShow ((h.dirSet _ _).dgBorrow.upd rfl rfl rfl rfl)

/-- What confirms a unit rewrites the directory and leaves the heartbeat alone (R473, R476). -/
theorem HeartbeatKept.confirmUnit {s t : State} (u : Nat) (h : HeartbeatKept s t) : HeartbeatKept s (confirmUnit u t) :=
  .dirWrite (h.each _ fun _ _ _ k => by exact k.upd rfl rfl rfl rfl)

theorem HeartbeatKept.sbConfirm {s t : State} (h : HeartbeatKept s t) : HeartbeatKept s (sbConfirm t) := by
  unfold Machine.sbConfirm
  exact .ite (h.each _ fun u _ _ k => .ite (k.confirmUnit u) k) h

end Sys2Proof.Machine

/-! SUPPORT. The answer to a heartbeat: a match, a void comparison, a first mismatch of a run, and the second (R388, R389, R393). -/

namespace Sys2Proof.Machine

/-- An answer ends the wait of its heartbeat, and the run of misses (R388, R389). -/
def heartbeatTaken (s : State) : State := wr SB_HB.MISSES 0 { s with sb := { s.sb with hbSent := none } }

theorem regsWf_heartbeatTaken {s : State} (h : s.regsWf = true) : (heartbeatTaken s).regsWf = true := regsWf_wr (s := { s with sb := _ }) h _ _

theorem rd_heartbeatTaken_ne {s : State} (h : s.regsWf = true) {f : Fld} (hf : f.key ≠ SB_HB.MISSES.key) : rd f (heartbeatTaken s) = rd f s :=
  rd_wr_ne (s := { s with sb := _ }) h _ _ _ hf

theorem rd_misses_heartbeatTaken {s : State} (h : s.regsWf = true) : rd SB_HB.MISSES (heartbeatTaken s) = 0 :=
  rd_wr_same (s := { s with sb := _ }) h _ _

/-- The Strongbox's view is made of neither the answer nor the misses (R387). -/
theorem sbView_heartbeatTaken {s : State} (h : s.regsWf = true) : sbView (heartbeatTaken s) = sbView s := by
  have hKept {f : Fld} (hf : f.key ≠ SB_HB.MISSES.key) := rd_heartbeatTaken_ne h hf
  have hReins : (List.range 8).map (fun j => reinHolder j (heartbeatTaken s) * 4 ^ j) = (List.range 8).map (fun j => reinHolder j s * 4 ^ j) :=
    List.map_congr_left fun j hj => by
      have hj := List.mem_range.1 hj
      rw [reinHolder, hKept (by simp only [SB_REINS.HOLDERS, SB_HB.MISSES, Fld.key]; omega), ← reinHolder]
  rw [sbView, hReins, lifecycle, confidential, unlocked, rdB, rdB, hKept (by decide), hKept (by decide), hKept (by decide)]
  rfl

/-- An answer in time to a heartbeat that waits for it, from a Coachman that runs: void, a match or a mismatch (R388). -/
theorem execHeartbeatAnswer_eq {s : State} {v t0 : Nat} (view : HbView) (h : s.regsWf = true) (hSent : s.sb.hbSent = some (v, t0)) (hUp : cmUp s = true)
    (hNow : s.now ≤ t0 + us 200) : exec (.heartbeatAnswer view) s = .next
      (if s.sb.hbVoid || sbView s != v % 2 ^ 24 then heartbeatGood true (heartbeatTaken s)
        else if view.words.headD 0 == v then heartbeatGood false (heartbeatTaken s)
        else heartbeatBad v (view.words.headD 0) (heartbeatTaken s)) := by
  have hTime : ¬ (!cmUp s || decide (t0 + us 200 < s.now)) = true := by simp [hUp]; omega
  change Host.Outcome.next (heartbeatAnswer (view.words.headD 0) s) = _
  rw [heartbeatAnswer, hSent]
  dsimp only
  rw [if_neg hTime, ← sbView_heartbeatTaken h]
  rfl

/-- A match, or a void comparison: it is counted, and a match ends the run of mismatches (R388). -/
def heartbeatAgreed (void : Bool) (s : State) : State := { s with sb := { s.sb with hbBad := s.sb.hbBad && void, hbClean := s.sb.hbClean + 1 } }

theorem heartbeatGood_eq (void : Bool) (s : State) : heartbeatGood void s = sbConfirm (heartbeatAgreed void s) := rfl

/-- Short of 1000 heartbeats without a mismatch the Strongbox confirms no unit (R476). -/
theorem sbConfirm_few {s : State} (h : s.sb.hbClean < 1000) : sbConfirm s = s := by
  have hUnhealthy : sbHealthy s = false := by simp [sbHealthy, Nat.not_le.2 h]
  rw [sbConfirm, if_neg (by simp [hUnhealthy])]

/-- A match and a void comparison count no mismatch, and but for a unit that is confirmed they change nothing else (R388, R476). -/
theorem heartbeatGood_taken {s : State} (h : s.regsWf = true) (void : Bool) {t : State} (ht : heartbeatGood void (heartbeatTaken s) = t) :
    rd SB_HB.MISSES t = 0 ∧ rd SB_HB.MISMATCHES t = rd SB_HB.MISMATCHES s ∧ t.sb.hbSent = none ∧ t.sb.hbBad = (s.sb.hbBad && void) ∧
      t.sb.hbClean = s.sb.hbClean + 1 ∧ (s.sb.hbClean + 1 < 1000 → s.kept [SB_HB.MISSES] t ∧ t = { s with regs := t.regs, sb := t.sb }) := by
  subst ht
  rw [heartbeatGood_eq]
  have hWf := regsWf_heartbeatTaken h
  have hKept := (HeartbeatKept.refl (heartbeatAgreed void (heartbeatTaken s))).sbConfirm
  refine ⟨(hKept.regs hWf _ (by decide)).trans (rd_misses_heartbeatTaken h), (hKept.regs hWf _ (by decide)).trans (rd_heartbeatTaken_ne h (by decide)),
    hKept.sent, hKept.bad, hKept.clean, fun hFew => ?_⟩
  rw [sbConfirm_few hFew]
  exact ⟨fun f _ hf => rd_heartbeatTaken_ne h (hf _ List.mem_cons_self), rfl⟩

/-- What a mismatch writes: it ends the run of misses, is counted, and shows where the answer differed from the view that was sent (R388, R393). -/
def mismatchWrites (d : Nat) (s : State) : List (Fld × Nat) :=
  [(SB_HB.MISSES, 0), (SB_HB.MISMATCHES, sat SB_HB.MISMATCHES (rd SB_HB.MISMATCHES s + 1)), (SB_HB.LAST_LC, b2n (bits d 0 5 != 0)),
    (SB_HB.LAST_MODE, b2n (bits d 5 3 != 0)), (SB_HB.LAST_REINS, b2n (bits d 8 16 != 0))]

/-- The fields of these writes. -/
def mismatchFields : List Fld := [SB_HB.MISSES, SB_HB.MISMATCHES, SB_HB.LAST_LC, SB_HB.LAST_MODE, SB_HB.LAST_REINS]

/-- After a mismatch a run of mismatches stands, and the count of heartbeats without one begins anew (R388, R476). -/
def heartbeatMismatched (d : Nat) (s : State) : State :=
  { wrs (mismatchWrites d s) s with sb := { s.sb with hbSent := none, hbBad := true, hbClean := 0 } }

/-- The first mismatch of a run is recorded alone; the second raises REINS_MISMATCH (R388). -/
theorem heartbeatBad_taken {s : State} (h : s.regsWf = true) (v w : Nat) : heartbeatBad v w (heartbeatTaken s) =
    if s.sb.hbBad then securityFault 0x40 (raise 91 (heartbeatMismatched (v ^^^ w) s)) else heartbeatMismatched (v ^^^ w) s := by
  have hCount : inc SB_HB.MISMATCHES (heartbeatTaken s) = wr SB_HB.MISMATCHES (sat SB_HB.MISMATCHES (rd SB_HB.MISMATCHES s + 1)) (heartbeatTaken s) := by
    rw [inc, add, rd_heartbeatTaken_ne h (by decide), sat]
  rw [heartbeatBad, hCount]
  rfl

/-- A bit of a register reads as it was written. -/
theorem b2n_mod_two (b : Bool) : b2n b % 2 = b2n b := by cases b <;> rfl

section
variable {s : State} (h : s.regsWf = true) (d : Nat)
include h

theorem regsWf_heartbeatMismatched : (heartbeatMismatched d s).regsWf = true := regsWf_wrs h (mismatchWrites d s)

theorem rd_heartbeatMismatched_ne {f : Fld} (hf : ∀ g ∈ mismatchFields, f.key ≠ g.key) : rd f (heartbeatMismatched d s) = rd f s :=
  rd_wrs_ne (mismatchWrites d s) h f fun _ hx => hf _ (List.mem_map_of_mem (f := (·.1)) hx)

theorem rd_heartbeatMismatched {f : Fld} {v : Nat} (hx : (f, v) ∈ mismatchWrites d s) : rd f (heartbeatMismatched d s) = v % 2 ^ f.width := by
  have hn : (mismatchFields.map Fld.key).Nodup := by decide
  exact rd_wrs_nodup (l := mismatchWrites d s) hn h hx

theorem rd_mismatches_heartbeatMismatched :
    rd SB_HB.MISMATCHES (heartbeatMismatched d s) = sat SB_HB.MISMATCHES (rd SB_HB.MISMATCHES s + 1) := by
  rw [rd_heartbeatMismatched h d (v := sat SB_HB.MISMATCHES (rd SB_HB.MISMATCHES s + 1)) (by simp [mismatchWrites])]
  exact Nat.mod_eq_of_lt (by simp only [sat, SB_HB.MISMATCHES]; omega)

/-- The fields of one bit that show where the answer differed. -/
theorem rd_shown_heartbeatMismatched {f : Fld} {b : Bool} (hx : (f, b2n b) ∈ mismatchWrites d s) (hw : f.width = 1) :
    rd f (heartbeatMismatched d s) = b2n b := by
  rw [rd_heartbeatMismatched h d hx, hw]
  exact b2n_mod_two b

/-- The second mismatch of a run: it is counted, and the block resets for REINS_MISMATCH (R388, R498). -/
theorem heartbeatSecond (hUp : sbUp s = true) (ha : s.awake) {t : State} (ht : securityFault 0x40 (raise 91 (heartbeatMismatched d s)) = t) :
    rd SB_HB.MISMATCHES t = sat SB_HB.MISMATCHES (rd SB_HB.MISMATCHES s + 1) ∧ s.secured 0x40 21 t := by
  subst ht
  have hFirst {f : Fld} (hf : ∀ g ∈ mismatchFields, f.key ≠ g.key) : rd f (heartbeatMismatched d s) = rd f s := rd_heartbeatMismatched_ne h d hf
  obtain ⟨hReset, hTrip, hSleep⟩ := ha
  have hAwake : (heartbeatMismatched d s).awake := ⟨hReset, (hFirst (by decide)).trans hTrip, (hFirst (by decide)).trans hSleep⟩
  obtain ⟨hRaised, hWf, hNow, hKept⟩ := raise_awake (regsWf_heartbeatMismatched h d) 91 hAwake
  have hUpRaised : sbUp (raise 91 (heartbeatMismatched d s)) = true := by
    have hPeer : rd (MB.H2K_STATUS.PEER 2) (raise 91 (heartbeatMismatched d s)) = rd (MB.H2K_STATUS.PEER 2) s := (hKept _ (by decide)).trans (hFirst (by decide))
    simpa only [sbUp, peerUp, hPeer] using hUp
  rw [securityFault_eq 0x40 hRaised.1 hUpRaised]
  refine ⟨?_, secured_congr ((hKept _ (by decide)).trans (hFirst (by decide))) hNow (securityReset_secured hWf 0x40 21 hRaised (by decide) (by decide))⟩
  rw [rd_securityReset_ne hWf 0x40 21 hRaised (by decide) (by decide) (by decide), hKept _ (by decide), rd_mismatches_heartbeatMismatched h]

end

/-- A miss is no mismatch, and leaves the run of mismatches as it is (R388, R389). -/
theorem heartbeatMiss_run {s : State} {v t0 : Nat} (h : s.regsWf = true) (hSent : s.sb.hbSent = some (v, t0)) (hLate : t0 + us 200 ≤ s.now) :
    (heartbeatMiss s).sb.hbBad = s.sb.hbBad ∧ rd SB_HB.MISMATCHES (heartbeatMiss s) = rd SB_HB.MISMATCHES s := by
  rw [heartbeatMiss, hSent]
  dsimp only
  rw [if_neg (Nat.not_lt.2 hLate)]
  split
  · exact ⟨rfl, rfl⟩
  · have hHeard := raise_heard 92 (Heard.refl (wr SB_HB.MISSES (min 3 (rd SB_HB.MISSES s + 1))
      { s with sb := { s.sb with hbSent := none, hbClean := 0 } }))
    have hRegs := hHeard.regs (regsWf_wr (s := { s with sb := _ }) h _ _) SB_HB.MISMATCHES (by decide) (List.forall_mem_nil _)
    exact ⟨(congrArg (·.sb.hbBad) hHeard.rest).trans rfl, hRegs.trans (rd_wr_ne (s := { s with sb := _ }) h _ _ _ (by decide))⟩

/-- Settles O47: an answer in time is void, a match or a mismatch; the first mismatch of a run is recorded, the second resets the block, and a miss
does not reach the run. -/
theorem heartbeatAnswersAreCompared : Obligations.HeartbeatAnswersAreCompared := by
  unfold Obligations.HeartbeatAnswersAreCompared
  intro s v t0 h hSent
  refine ⟨fun view hUp hNow => ?answer, fun hLate => ⟨_, rfl, heartbeatMiss_run h hSent hLate⟩⟩
  have hExec := execHeartbeatAnswer_eq view h hSent hUp hNow
  refine ⟨fun hVoid hView hWords => ?same, fun hVoid => ?void, fun w hVoid hView hWords hw hBad => ?first,
    fun w hVoid hView hWords hw hBad hSb ha => ?second⟩
  case same =>
    have hMatch : exec (.heartbeatAnswer view) s = .next (heartbeatGood false (heartbeatTaken s)) := by simp [hExec, hVoid, hView, hWords]
    obtain ⟨hMisses, hMismatches, hNone, hRun, hClean, hFrame⟩ := heartbeatGood_taken h false rfl
    exact ⟨_, hMatch, hMisses, hMismatches, hNone, hRun.trans (Bool.and_false _), hClean, hFrame⟩
  case void =>
    have hVoided : exec (.heartbeatAnswer view) s = .next (heartbeatGood true (heartbeatTaken s)) := by rw [hExec, if_pos (by simpa using hVoid)]
    obtain ⟨hMisses, hMismatches, hNone, hRun, -, hFrame⟩ := heartbeatGood_taken h true rfl
    exact ⟨_, hVoided, hMisses, hMismatches, hNone, hRun.trans (Bool.and_true _), hFrame⟩
  all_goals have hBadly : exec (.heartbeatAnswer view) s = .next (heartbeatBad v w (heartbeatTaken s)) := by simp [hExec, hVoid, hView, hWords, hw]
  case first =>
    have hFirst : heartbeatBad v w (heartbeatTaken s) = heartbeatMismatched (v ^^^ w) s := by
      rw [heartbeatBad_taken h, if_neg (by simp [hBad])]
    have hNe (n : Nat) : decide (n ≠ 0) = (n != 0) := by rw [Bool.eq_iff_iff]; simp
    simp only [hNe]
    exact ⟨_, hBadly.trans (congrArg _ hFirst), rd_heartbeatMismatched h _ (v := 0) (by simp [mismatchWrites]), rd_mismatches_heartbeatMismatched h _,
      rd_shown_heartbeatMismatched h _ (by simp [mismatchWrites]) rfl, rd_shown_heartbeatMismatched h _ (by simp [mismatchWrites]) rfl,
      rd_shown_heartbeatMismatched h _ (by simp [mismatchWrites]) rfl, fun _ _ hf => rd_heartbeatMismatched_ne h _ hf, rfl⟩
  case second =>
    have hSecond : heartbeatBad v w (heartbeatTaken s) = securityFault 0x40 (raise 91 (heartbeatMismatched (v ^^^ w) s)) := by
      rw [heartbeatBad_taken h, if_pos hBad]
    exact ⟨_, hBadly.trans (congrArg _ hSecond), heartbeatSecond h _ hSb ha rfl⟩

end Sys2Proof.Machine

/-! SUPPORT. The clocks of the thermal level: since when TEMP lies below its threshold, and when the gating pattern began. No event and no notice
moves them, so the change of the level alone restarts them (R525). -/

namespace Sys2Proof.Machine

/-- Since when TEMP lies below the threshold of the level in force less 5 °C, and the cycle in which the gating pattern began (R525). -/
def State.thermClocks (s : State) : Option Nat × Nat := (s.pw.belowSince, s.pw.gateAt)

theorem fst_thermClocks (s : State) : s.thermClocks.1 = s.pw.belowSince := rfl
theorem snd_thermClocks (s : State) : s.thermClocks.2 = s.pw.gateAt := rfl

theorem thermClocks_ite {a b : State} {k : Option Nat × Nat} {c : Prop} [Decidable c] (ha : a.thermClocks = k) (hb : b.thermClocks = k) :
    (if c then a else b).thermClocks = k := by
  split <;> assumption

theorem thermClocks_each {α : Type} (l : List α) {g : α → State → State} (hg : ∀ x u, (g x u).thermClocks = u.thermClocks) (s : State) :
    (each l g s).thermClocks = s.thermClocks := by
  unfold each
  induction l generalizing s with
  | nil => rfl
  | cons x r ih => exact (ih (g x s)).trans (hg x s)

@[simp] theorem thermClocks_wr (f : Fld) (v : Nat) (s : State) : (wr f v s).thermClocks = s.thermClocks := rfl
@[simp] theorem thermClocks_markBits (f : Fld) (m : Nat) (s : State) : (markBits f m s).thermClocks = s.thermClocks := rfl
@[simp] theorem thermClocks_setChan (k : Fin 6) (c : MbChan) (s : State) : (setChan k c s).thermClocks = s.thermClocks := rfl

@[simp] theorem thermClocks_startRamp (d : Nat) (s : State) : (startRamp d s).thermClocks = s.thermClocks := by
  unfold startRamp
  exact thermClocks_ite rfl (thermClocks_ite rfl rfl)

@[simp] theorem thermClocks_powerOn (d : Nat) (s : State) : (powerOn d s).thermClocks = s.thermClocks := by
  unfold powerOn
  exact thermClocks_ite rfl (thermClocks_ite rfl (thermClocks_startRamp d _))

@[simp] theorem thermClocks_bootBegin (s : State) : (bootBegin s).thermClocks = s.thermClocks :=
  thermClocks_powerOn 21 (wr GL_STATUS.LIFECYCLE 0 (wr PM_SLEEP.STATE 3 s))

/-- A wake starts the boot, or is left for the end of the entry: the thermal clocks run on. -/
@[simp] theorem thermClocks_wake (cause : Nat) (s : State) : (wake cause s).thermClocks = s.thermClocks := by
  unfold wake
  refine thermClocks_ite rfl (thermClocks_ite ?entering (thermClocks_ite ?asleep rfl))
  case entering => split <;> rfl
  case asleep => exact (thermClocks_bootBegin _).trans (thermClocks_ite rfl rfl)

@[simp] theorem thermClocks_lanternRecord (src : Nat) (s : State) : (lanternRecord src s).thermClocks = s.thermClocks := by
  have hHits : (each (watchers src s) (fun e => wr (PM_LAN_HIT.ENTRIES e) 1) s).thermClocks = s.thermClocks :=
    thermClocks_each _ (fun e => thermClocks_wr (PM_LAN_HIT.ENTRIES e) 1) s
  unfold lanternRecord
  exact thermClocks_ite rfl ((thermClocks_wake 7 _).trans (thermClocks_ite hHits hHits))

@[simp] theorem thermClocks_latch (src : Nat) (s : State) : (latch src s).thermClocks = s.thermClocks := by
  have hRecord := thermClocks_lanternRecord src s
  unfold latch
  exact thermClocks_ite rfl (thermClocks_ite hRecord hRecord)

@[simp] theorem thermClocks_settleOne (src : Nat) (s : State) : (settleOne src s).thermClocks = s.thermClocks := by
  unfold settleOne
  exact thermClocks_ite (thermClocks_latch src _) rfl

@[simp] theorem thermClocks_settle (s : State) : (settle s).thermClocks = s.thermClocks := thermClocks_each levelSources thermClocks_settleOne s

@[simp] theorem thermClocks_k2hPost (k : Fin 6) (words : List Nat) (s : State) : (k2hPost k words s).thermClocks = s.thermClocks := by
  simp [k2hPost, bellHost]

@[simp] theorem thermClocks_sendNotice (k : Fin 6) (words : List Nat) (s : State) : (sendNotice k words s).thermClocks = s.thermClocks := by
  have hQueue : (queueNotice k words s).thermClocks = s.thermClocks := by
    unfold queueNotice
    exact thermClocks_ite rfl (thermClocks_ite (thermClocks_ite rfl rfl) rfl)
  unfold sendNotice
  exact thermClocks_ite (by simp [postNotice]) hQueue

@[simp] theorem thermClocks_notice (code flags ctx : Nat) (payload : List Nat) (s : State) : (notice code flags ctx payload s).thermClocks = s.thermClocks := by
  unfold notice
  exact thermClocks_ite rfl (thermClocks_ite rfl (thermClocks_ite rfl (thermClocks_sendNotice _ _ s)))

end Sys2Proof.Machine

/-! SUPPORT. A change of the thermal level, and what a sample and the end of the 10 ms do (R524, R525). -/

namespace Sys2Proof.Machine

/-- The level changed and its clocks restarted, before the events and the notice of the change. -/
def levelEntered (l : Nat) (s : State) : State :=
  wr PM_THERM_STATUS.LEVEL l { s with pw := { s.pw with gateAcc := arithNow s, gateAt := s.now, belowSince := none } }

theorem setLevel_told (l : Nat) (s : State) : Told (levelEntered l s) (setLevel l s) := notice_told _ _ _ _ (Told.refl _).settle

theorem thermClocks_setLevel (l : Nat) (s : State) : (setLevel l s).thermClocks = (none, s.now) :=
  (thermClocks_notice _ _ _ _ _).trans (thermClocks_settle (levelEntered l s))

theorem belowSince_setLevel (l : Nat) (s : State) : (setLevel l s).pw.belowSince = none := by
  rw [← fst_thermClocks, thermClocks_setLevel]
theorem gateAt_setLevel (l : Nat) (s : State) : (setLevel l s).pw.gateAt = s.now := by
  rw [← snd_thermClocks, thermClocks_setLevel]

section
variable {s : State} (h : s.regsWf = true)
include h

theorem levelEntered_wf (l : Nat) : (levelEntered l s).regsWf = true := regsWf_wr (s := { s with pw := _ }) h _ _

theorem rd_level_setLevel {l : Nat} (hl : l < 4) : rd PM_THERM_STATUS.LEVEL (setLevel l s) = l := by
  have hEntered : rd PM_THERM_STATUS.LEVEL (levelEntered l s) = l % 4 := rd_wr_same (s := { s with pw := _ }) h _ l
  rw [(setLevel_told l s).regs (levelEntered_wf h l) _ (by decide) (List.forall_mem_nil _), hEntered, Nat.mod_eq_of_lt hl]

theorem setLevel_keptMsg (l : Nat) : s.keptMsg [PM_THERM_STATUS.LEVEL] (setLevel l s) := fun f hf hne =>
  ((setLevel_told l s).regs (levelEntered_wf h l) f hf (List.forall_mem_nil _)).trans
    (rd_wr_ne (s := { s with pw := _ }) h _ _ _ (hne _ List.mem_cons_self))

end

theorem unsigned_lt (w : Nat) (x : Int) : unsigned w x < 2 ^ w := by
  have hPow : (0 : Int) < ((2 ^ w : Nat) : Int) := Int.natCast_pos.2 (Nat.two_pow_pos w)
  have hNonneg := Int.emod_nonneg x (Int.ne_of_gt hPow)
  have hLt := Int.emod_lt_of_pos x hPow
  unfold unsigned
  omega

/-- The highest reading and its sensor are shown. -/
def tempShown (x : Int) (i : Nat) (s : State) : State := wrs [(PM_THERM_STATUS.TEMP, unsigned 12 x), (PM_THERM_STATUS.HOT_SENSOR, i)] s

/-- The highest level whose threshold a reading reaches. -/
def levelReached (x : Int) (s : State) : Nat := if levelAt 2 s ≤ x then 2 else if levelAt 1 s ≤ x then 1 else 0

theorem levelReached_eq_two {x : Int} {s : State} (h2 : levelAt 2 s ≤ x) : levelReached x s = 2 := if_pos h2

theorem levelReached_eq_one {x : Int} {s : State} (h1 : levelAt 1 s ≤ x) (h2 : x < levelAt 2 s) : levelReached x s = 1 :=
  (if_neg (Int.not_le.2 h2)).trans (if_pos h1)

theorem levelReached_le_two (x : Int) (s : State) : levelReached x s ≤ 2 := by
  unfold levelReached
  split
  · exact Nat.le_refl 2
  · split <;> decide

/-- A reading below the threshold of every higher level reaches none. -/
theorem levelReached_le {x : Int} {s : State} {l : Nat} (h2 : x < levelAt 2 s ∨ l = 2) (h1 : x < levelAt 1 s ∨ l ≠ 0) : levelReached x s ≤ l := by
  by_cases hl : l = 2
  · exact hl ▸ levelReached_le_two x s
  · have hCrit : ¬ levelAt 2 s ≤ x := Int.not_le.2 (h2.resolve_right hl)
    rw [levelReached, if_neg hCrit]
    split <;> omega

/-- A sample without a rise: the time below the threshold of the level in force less 5 °C begins, runs on or ends. -/
def belowTimed (x : Int) (s : State) : State :=
  { s with pw := { s.pw with
      belowSince := if rd PM_THERM_STATUS.LEVEL s ≠ 0 ∧ x < levelAt (rd PM_THERM_STATUS.LEVEL s) s - 50 then some (s.pw.belowSince.getD s.now) else none } }

/-- The model's branches of a sample without a rise are one update of the time below the threshold. -/
theorem belowTimed_eq (x : Int) (s : State) : belowTimed x s =
    if rd PM_THERM_STATUS.LEVEL s != 0 && decide (x < levelAt (rd PM_THERM_STATUS.LEVEL s) s - 50) then
      (if s.pw.belowSince.isSome then s else { s with pw := { s.pw with belowSince := some s.now } })
    else { s with pw := { s.pw with belowSince := none } } := by
  unfold belowTimed
  by_cases hBelow : rd PM_THERM_STATUS.LEVEL s ≠ 0 ∧ x < levelAt (rd PM_THERM_STATUS.LEVEL s) s - 50
  · rw [if_pos hBelow, if_pos (by simpa using hBelow)]
    cases hSince : s.pw.belowSince with
    | none => rfl
    | some t0 => rw [Option.getD_some, if_pos Option.isSome_some, ← hSince]
  · rw [if_neg hBelow, if_neg (by simpa using hBelow)]

section
variable {s : State} (h : s.regsWf = true) (x : Int) (i : Nat)
include h

theorem rd_tempShown_ne {f : Fld} (hf : ∀ g ∈ [PM_THERM_STATUS.TEMP, PM_THERM_STATUS.HOT_SENSOR], f.key ≠ g.key) : rd f (tempShown x i s) = rd f s :=
  rd_wrs_ne _ h f (by simpa using hf)

theorem rd_temp_tempShown : rd PM_THERM_STATUS.TEMP (tempShown x i s) = unsigned 12 x :=
  (rd_wrs_nodup (by simp; decide) h List.mem_cons_self).trans (Nat.mod_eq_of_lt (unsigned_lt 12 x))

theorem rd_hotSensor_tempShown (hi : i < 19) : rd PM_THERM_STATUS.HOT_SENSOR (tempShown x i s) = i :=
  (rd_wr_same (regsWf_wr h _ _) _ i).trans (Nat.mod_eq_of_lt (Nat.lt_trans hi (by decide)))

theorem rd_level_tempShown : rd PM_THERM_STATUS.LEVEL (tempShown x i s) = rd PM_THERM_STATUS.LEVEL s := rd_tempShown_ne h x i (by decide)

theorem levelAt_tempShown (l : Nat) : levelAt l (tempShown x i s) = levelAt l s := by
  unfold levelAt
  rw [rd_tempShown_ne h x i (by decide), rd_tempShown_ne h x i (by decide)]

theorem belowSince_belowTimed_tempShown : (belowTimed x (tempShown x i s)).pw.belowSince =
    if rd PM_THERM_STATUS.LEVEL s ≠ 0 ∧ x < levelAt (rd PM_THERM_STATUS.LEVEL s) s - 50 then some (s.pw.belowSince.getD s.now) else none := by
  unfold belowTimed
  rw [rd_level_tempShown h, levelAt_tempShown h]
  rfl

/-- A sample raises the level to the one that TEMP reaches, or times TEMP below the threshold of the level in force (R525). -/
theorem execThermalSample_eq {temps : List Int} (hOn : domOn 21 s = true) (hHot : hottest temps s = some (x, i)) :
    exec (.thermalSample temps) s = .next (if rd PM_THERM_STATUS.LEVEL s < levelReached x s then setLevel (levelReached x s) (tempShown x i s)
      else belowTimed x (tempShown x i s)) := by
  have hReached : levelReached x (tempShown x i s) = levelReached x s := by simp only [levelReached, levelAt_tempShown h]
  rw [belowTimed_eq, ← hReached, ← rd_level_tempShown h x i]
  change execThermalSample temps s = _
  simp only [execThermalSample, hOn, hHot]
  rfl

end

/-- The end of the 10 ms: the level falls by one, unless they are not over or it reads NORMAL (R525). -/
theorem execThermalLevelFall_since {s : State} {t0 : Nat} (hSince : s.pw.belowSince = some t0) : exec .thermalLevelFall s =
    .next (if rd PM_THERM_STATUS.LEVEL s ≠ 0 ∧ t0 + ms 10 ≤ s.now then setLevel (rd PM_THERM_STATUS.LEVEL s - 1) s else s) := by
  change execThermalLevelFall s = _
  simp [execThermalLevelFall, hSince]

theorem execThermalLevelFall_untimed {s : State} (hSince : s.pw.belowSince = none) : exec .thermalLevelFall s = .next s := by
  change execThermalLevelFall s = _
  simp [execThermalLevelFall, hSince]

/-- Settles O59: a sample raises the level to the one its reading reaches, or times the reading below the threshold in force, and the end of the 10 ms
lowers the level by one; a change of the level alone restarts its clocks. -/
theorem thermalLevelFollowsItsThresholds : Obligations.ThermalLevelFollowsItsThresholds := by
  unfold Obligations.ThermalLevelFollowsItsThresholds
  rintro s l h rfl hl
  refine ⟨fun temps x i hOn hHot hi => ?sample, fun t0 hSince hLevel hOver => ?fall, fun t0 hSince hEarly => ?early, fun hIdle => ?idle⟩
  case sample =>
    have hShown : (tempShown x i s).regsWf = true := regsWf_wrs h _
    have hTemp := rd_temp_tempShown h x i
    have hHotSensor := rd_hotSensor_tempShown h x i hi
    have hFrame (f : Fld) (hne : ∀ g ∈ [PM_THERM_STATUS.TEMP, PM_THERM_STATUS.HOT_SENSOR, PM_THERM_STATUS.LEVEL], f.key ≠ g.key) :
        rd f (tempShown x i s) = rd f s :=
      rd_tempShown_ne h x i (fun g hg => hne g (List.mem_append_left [PM_THERM_STATUS.LEVEL] hg))
    rw [execThermalSample_eq h x i hOn hHot]
    by_cases hRise : rd PM_THERM_STATUS.LEVEL s < levelReached x s
    · have hKept := setLevel_keptMsg hShown (levelReached x s)
      have hLevel := rd_level_setLevel hShown (Nat.lt_of_le_of_lt (levelReached_le_two x s) (by decide))
      have hClock := belowSince_setLevel (levelReached x s) (tempShown x i s)
      rw [if_pos hRise]
      refine ⟨_, rfl, (hKept _ (by decide) (by decide)).trans hTemp, (hKept _ (by decide) (by decide)).trans hHotSensor, fun h2 _ => ?critical,
        fun h1 h2 _ => ?throttle, fun h2 h1 => absurd hRise (Nat.not_lt.2 (levelReached_le h2 h1)), fun f hf hne => ?frame⟩
      case critical => exact ⟨hLevel.trans (levelReached_eq_two h2), hClock⟩
      case throttle => exact ⟨hLevel.trans (levelReached_eq_one h1 h2), hClock⟩
      case frame => exact (hKept f hf (List.forall_mem_singleton.2 (hne _ (by simp)))).trans (hFrame f hne)
    · rw [if_neg hRise]
      refine ⟨_, rfl, hTemp, hHotSensor, fun h2 hLow => absurd hLow (levelReached_eq_two h2 ▸ hRise),
        fun h1 h2 hNormal => absurd (hNormal ▸ Nat.zero_lt_one) (levelReached_eq_one h1 h2 ▸ hRise),
        fun _ _ => ⟨rd_level_tempShown h x i, belowSince_belowTimed_tempShown h x i⟩, fun f _ hne => hFrame f hne⟩
  case fall =>
    rw [execThermalLevelFall_since hSince, if_pos ⟨hLevel, hOver⟩]
    exact ⟨_, rfl, rd_level_setLevel h (by omega), belowSince_setLevel _ s, gateAt_setLevel _ s, setLevel_keptMsg h _⟩
  case early => rw [execThermalLevelFall_since hSince, if_neg (fun hFall => Nat.not_le.2 hEarly hFall.2)]
  case idle =>
    cases hSince : s.pw.belowSince with
    | none => exact execThermalLevelFall_untimed hSince
    | some t0 =>
      have hNormal : rd PM_THERM_STATUS.LEVEL s = 0 := hIdle.resolve_left (by simp [hSince])
      rw [execThermalLevelFall_since hSince, if_neg (fun hFall => hFall.1 hNormal)]

end Sys2Proof.Machine

/-! SUPPORT. What every step keeps: each command and each cycle is sound, so that the invariant, the blown fuses and the outbox go through a run. -/

namespace Sys2Proof.Machine

/-- A read of a pair captures what it holds in the cycle of the read, and nothing else (R15). -/
theorem pairCapture_sound {s t : State} (a : Nat) (h : Sound s t) : Sound s { t with snap := (snapPair a (settleAt a t)).snap } := by
  have hSnap := (snapPair_sound a (settleAt_sound a (Sound.refl t))).pairs
  refine h.trans ⟨rfl, rfl, List.suffix_rfl, Nat.le_refl _, id, fun w => ?_, id, id, fun _ _ _ b => b⟩
  simp only [State.pairsWf, Bool.and_eq_true] at hSnap w ⊢
  exact ⟨(hSnap w).1, w.2⟩

/-- Power good loses every register and pair, but no fuse (R533). -/
theorem execPowerGoodRise_sound (x : Straps) (s : State) : ∃ t, execPowerGoodRise x s = .next t ∧ Sound s t := by
  refine ⟨_, rfl, Sound.ite (Sound.refl s) ?_⟩
  exact ⟨rfl, rfl, List.suffix_rfl, Nat.le_refl _, fun _ => rfl, fun _ => rfl, fun _ => rfl, id, fun _ _ _ b => b⟩

/-- What a command that is carried out soundly keeps of the invariant: the queue is the queue before it. -/
theorem Sound.inv {s t : State} (h : Sound s t) (hs : s.inv = true) : t.inv = true := by
  simp only [State.inv, Bool.and_eq_true] at hs ⊢
  obtain ⟨⟨⟨⟨hQueue, hRegs⟩, hPairs⟩, hRwe⟩, hOtp⟩ := hs
  refine ⟨⟨⟨⟨?_, h.regs hRegs⟩, h.pairs hPairs⟩, h.rwe hRwe⟩, h.otp hOtp⟩
  rwa [State.queueWf, h.pending]

theorem tick_inv {s : State} (hs : s.inv = true) : (tick s).inv = true := by
  simp only [State.inv, Bool.and_eq_true] at hs ⊢
  obtain ⟨⟨⟨⟨hQueue, hRegs⟩, hPairs⟩, hRwe⟩, hOtp⟩ := hs
  exact ⟨⟨⟨⟨hQueue, tick_wf hRegs⟩, hPairs⟩, hRwe⟩, hOtp⟩

theorem inv_pending {s : State} {i : Instr} {rest : List Instr} (h : s.pending = i :: rest) (hs : s.inv = true) : { s with pending := rest }.inv = true := by
  simp only [State.inv, State.queueWf, h, List.all_cons, Bool.and_eq_true] at hs ⊢
  obtain ⟨⟨⟨⟨⟨_, hQueue⟩, hRegs⟩, hPairs⟩, hRwe⟩, hOtp⟩ := hs
  exact ⟨⟨⟨⟨hQueue, hRegs⟩, hPairs⟩, hRwe⟩, hOtp⟩

/-- Every command is carried out, and soundly: by the laws of the operations that its meaning is made of, one unit of the block after the other. -/
theorem exec_sound (i : Instr) (s : State) : ∃ t, exec i s = .next t ∧ Sound s t := by
  have h := Sound.refl s
  cases i
  case pairLoRead a sec => exact ⟨_, rfl, hostFrom_sound _ _ _ (fun _ => pairCapture_sound a) h⟩
  case powerGoodRise straps => exact execPowerGoodRise_sound straps s
  case regWrite | pairLoWrite =>
    refine ⟨_, rfl, ?_⟩
    repeat' (first
      | with_reducible assumption | (intro _; try dsimp only) | with_reducible apply pathWrite_sound | with_reducible apply hostTo_sound
      | with_reducible apply showProf_sound | with_reducible apply regWrite_sound | with_reducible apply settleAt_sound
      | with_reducible apply dgPairWrite_sound | with_reducible apply commitPair_sound | with_reducible apply Sound.ite | with_reducible split)
  case hostAccessError | glCntClrCfgRejects | glCntClrHostErrs =>
    refine ⟨_, rfl, ?_⟩
    repeat' (first
      | with_reducible assumption | (intro _; try dsimp only) | with_reducible apply hostErr_sound | with_reducible apply hostTo_sound
      | with_reducible apply cntClr_sound | with_reducible apply Sound.ite | with_reducible split)
  case encEdge | epochOpen | ttDisable | slotRelease | slotDeadline | slotSlice | slotSignal | slotNone | ledgerAbsorbRow =>
    refine ⟨_, rfl, ?_⟩
    repeat' (first
      | with_reducible assumption | (intro _; try dsimp only) | with_reducible apply encTaken_sound | with_reducible apply thenResume_sound
      | with_reducible apply encCount_sound | with_reducible apply wrs_sound | with_reducible apply raise_sound | with_reducible apply edgeApply_sound
      | with_reducible apply rweApply_sound | with_reducible apply faultLeave_sound | with_reducible apply sendLineSync_sound
      | with_reducible apply hostTo_sound | with_reducible apply each_sound | with_reducible apply discardRows_sound | with_reducible apply wr_sound
      | with_reducible apply ttEnter_sound | with_reducible apply slotDisarm_sound | with_reducible apply releaseRow_sound
      | with_reducible apply judgeRow_sound | with_reducible apply sliceEnd_sound | with_reducible apply postRows_sound
      | with_reducible apply modRow_sound | with_reducible apply ledgerRow_sound | with_reducible apply Sound.ite | with_reducible split
      | with_reducible (refine Sound.upd ?_ ⟨rfl, rfl⟩))
  case stopTimeout | sheetMarkEdge | markSynth | markFallback | indexEdge | indexLost | ttEnable | ttLoad | ttClrFault | ttCntClrEncErr |
    ttCntClrMarkCnt | ttCntClrRowCnt | ttCntClrDlMiss =>
    refine ⟨_, rfl, ?_⟩
    repeat' (first
      | with_reducible assumption | (intro _; try dsimp only) | with_reducible apply showRate_sound | with_reducible apply ttEnter_sound
      | with_reducible apply sheetMark_sound | with_reducible apply markTaken_sound | with_reducible apply schedule_sound
      | with_reducible apply raise_sound | with_reducible apply inc_sound | with_reducible apply markBit_sound | with_reducible apply indexEdge_sound
      | with_reducible apply inputTaken_sound | with_reducible apply encoderFault_sound | with_reducible apply wr_sound
      | with_reducible apply hostTo_sound | with_reducible apply enableRise_sound | with_reducible apply faultLeave_sound
      | with_reducible apply cntClr_sound | with_reducible apply Sound.ite | with_reducible split | with_reducible (refine Sound.upd ?_ ⟨rfl, rfl⟩))
  case entryBegin | transferIssue | syncWaitEnd | carriageRunEnd | bankDrainEnd | stageEnd | caCntClrBusy | caCntClrStall | caCntClrNumeric |
    caCntClrEcc | mpWindowEnd | coachHang =>
    refine ⟨_, rfl, ?_⟩
    repeat' (first
      | with_reducible assumption | (intro _; try dsimp only) | with_reducible apply modRun_sound | with_reducible apply beginEntry_sound
      | with_reducible apply each_sound | with_reducible apply borderPut_sound | with_reducible apply transferIssue_sound
      | with_reducible apply syncSettle_sound | with_reducible apply coachEcc_sound | with_reducible apply coachEvents_sound
      | with_reducible apply eccPut_sound | with_reducible apply queueRoll_sound | with_reducible apply endStage_sound
      | with_reducible apply caClear_sound | with_reducible apply inc_sound | with_reducible apply modCo_sound | with_reducible apply coachFault_sound
      | with_reducible apply Sound.ite | with_reducible split | with_reducible (refine Sound.upd ?_ ⟨rfl, rfl⟩))
  case gigEntryBegin | gigSlotEnd | ggCntClrBusy | ggCntClrWait | ggCntClrNumeric | ggCntClrEcc | gigEccIdle | gigPageScrubEnd =>
    refine ⟨_, rfl, ?_⟩
    repeat' (first
      | with_reducible assumption | intro _ | with_reducible apply beginEntry_sound | with_reducible apply add_sound
      | with_reducible apply modCo_sound | with_reducible apply showGig_sound | with_reducible apply wrs_sound | with_reducible apply gigStop_sound
      | with_reducible apply gigLayers_sound | with_reducible apply gigEccPut_sound | with_reducible apply gigSettle_sound
      | with_reducible apply gigEcc_sound | with_reducible apply gigNumeric_sound | with_reducible apply gigFree_sound
      | with_reducible apply ggClear_sound | with_reducible apply raiseFault_sound | with_reducible apply markBit_sound
      | with_reducible apply inc_sound | with_reducible apply tearScrubbed_sound | with_reducible apply modCx_sound | with_reducible apply Sound.ite
      | with_reducible split | with_reducible (refine Sound.upd ?_ ⟨rfl, rfl⟩))
  case mpReadResponse | mpWriteDone | fenceComplete | fenceDrainTimeout | memHung | mpErrInfoClear | mpCntClrPorts | mpCntClrBeats | mpCntClrDrops |
    mpCntClrRing | mpBeatAccepted =>
    refine ⟨_, rfl, ?_⟩
    repeat' (first
      | with_reducible assumption | (intro _; try dsimp only) | with_reducible apply initBeat_sound | with_reducible apply modTxs_sound
      | with_reducible apply inc_sound | with_reducible apply orphan_sound | with_reducible apply errRecord_sound | with_reducible apply deliver_sound
      | with_reducible apply zeroBeats_sound | with_reducible apply ownBeat_sound | with_reducible apply txEnd_sound
      | with_reducible apply initWritten_sound | with_reducible apply add_sound | with_reducible apply xferArrive_sound
      | with_reducible apply haloWritten_sound | with_reducible apply txGone_sound | with_reducible apply postRows_sound
      | with_reducible apply tearFenced_sound | with_reducible apply abandon_sound | with_reducible apply raiseFault_sound
      | with_reducible apply hostTo_sound | with_reducible apply clr_sound | with_reducible apply each_sound | with_reducible apply cntClr_sound
      | with_reducible apply initAccept_sound | with_reducible apply Sound.ite | with_reducible split | with_reducible (refine Sound.upd ?_ ⟨rfl, rfl⟩))
  case preemptPointReached | switchSaveDone | switchRestoreDone | timeSliceExpire | scrubEnd | retireTimerExpire | retireResend | glWbCntClr |
    abortFenceDone =>
    refine ⟨_, rfl, ?_⟩
    repeat' (first
      | with_reducible assumption | (intro _; try dsimp only) | with_reducible apply syncSettle_sound | with_reducible apply coachEcc_sound
      | with_reducible apply eccPut_sound | with_reducible apply freeBytes_sound | with_reducible apply modCx_sound
      | with_reducible apply swBegin_sound | with_reducible apply modCo_sound | with_reducible apply raise_sound | with_reducible apply wrs_sound
      | with_reducible apply each_sound | with_reducible apply scrubStart_sound | with_reducible apply coachTake_sound
      | with_reducible apply restoreCoach_sound | with_reducible apply wr_sound | with_reducible apply inc_sound
      | with_reducible apply sliceBegin_sound | with_reducible apply sliceEnd_sound | with_reducible apply disarmRow_sound
      | with_reducible apply scrubRelease_sound | with_reducible apply scrubPassed_sound | with_reducible apply raiseFault_sound
      | with_reducible apply quarantineTry_sound | with_reducible apply sendRetire_sound | with_reducible apply hostTo_sound
      | with_reducible apply cntClr_sound | with_reducible apply queueRoll_sound | with_reducible apply ledgerEnd_sound
      | with_reducible apply abortAnswer_sound | with_reducible apply jobOver_sound | with_reducible apply Sound.ite | with_reducible split
      | with_reducible (refine Sound.upd ?_ ⟨rfl, rfl⟩))
  case linkChannelChange | linkBlockLock | helloRepeat | helloRx | linkTrainTimeout | linkRetrainDelay | linkLockLost | discoverRx | chainTableRx |
    noHead | discoverReqRx | lineSyncRx | haloRx | haloReqTimer | haloReqRx | summaryRx | summaryReqTimer | summaryReqRx | abortRx | abortRepeat |
    contextRetireRx | retireAckRx | bypassHoldMinLow | tlCntClrPorts | tlCntClrAbort | tlCntClrDrops | tlCntClrHalo | frameErr =>
    refine ⟨_, rfl, ?_⟩
    repeat' (first
      | with_reducible assumption | (intro _; try dsimp only) | with_reducible apply trainStart_sound | with_reducible apply sendHello_sound
      | with_reducible apply modPort_sound | with_reducible apply linkRx_sound | with_reducible apply portReject_sound | with_reducible apply inc_sound
      | with_reducible apply portUp_sound | with_reducible apply wr_sound | with_reducible apply setPort_sound | with_reducible apply recordTable_sound
      | with_reducible apply sendChain_sound | with_reducible apply discoverPass_sound | with_reducible apply discovering_sound
      | with_reducible apply forward_sound | with_reducible apply standby_sound | with_reducible apply controlOn_sound
      | with_reducible apply discover_sound | with_reducible apply wrs_sound | with_reducible apply raise_sound | with_reducible apply sessionOn_sound
      | with_reducible apply ownWrite_sound | with_reducible apply sendControl_sound | with_reducible apply raiseFault_sound
      | with_reducible apply originate_sound | with_reducible apply summaryTry_sound | with_reducible apply modCx_sound
      | with_reducible apply each_sound | with_reducible apply fenceJob_sound | with_reducible apply originateAbort_sound
      | with_reducible apply abortNote_sound | with_reducible apply abortCovers_sound | with_reducible apply replayLeave_sound
      | with_reducible apply dropRetired_sound | with_reducible apply quarantineTry_sound | with_reducible apply holdSettle_sound
      | with_reducible apply tlClear_sound | with_reducible apply frameDrop_sound | with_reducible apply Sound.ite | with_reducible split
      | with_reducible (refine Sound.upd ?_ ⟨rfl, rfl⟩))
  case h2kDataWrite | h2kCommit | h2kDiscard | h2kDbSet | k2hDataRead | mbCntClrCnt | mbCntClrAbort | badOpcodeRequest | deferredTimeout |
    noticeDequeue =>
    refine ⟨_, rfl, ?_⟩
    repeat' (first
      | with_reducible assumption | (intro _; try dsimp only) | with_reducible apply senderTo_sound | with_reducible apply h2kWrite_sound
      | with_reducible apply h2kDoCommit_sound | with_reducible apply h2kDrop_sound | with_reducible apply bellK24_sound
      | with_reducible apply k2hRead_sound | with_reducible apply hostFrom_sound | with_reducible apply cntClr_sound
      | with_reducible apply takeMsg_sound | with_reducible apply reply_sound | with_reducible apply endDeferred_sound
      | with_reducible apply reportAbort_sound | with_reducible apply k2hPost_sound | with_reducible apply setChan_sound
      | with_reducible apply postNotice_sound | with_reducible apply Sound.ite | with_reducible split)
  case identify | setCmdRegion | setNoticeRoute | getCounters | createContext | destroyContext | configContext | setEdge | setSlice | chainPosition |
    chainJoin | chainLeave | bounceSetup | bounceIn | bounceInDone =>
    refine ⟨_, rfl, ?_⟩
    repeat' (first
      | with_reducible assumption | (intro _; try dsimp only) | with_reducible apply serveCm_sound | with_reducible apply identify_sound
      | with_reducible apply setCmdRegion_sound | with_reducible apply setNoticeRoute_sound | with_reducible apply getCounters_sound
      | with_reducible apply createContext_sound | with_reducible apply serveCtx_sound | with_reducible apply reply_sound
      | with_reducible apply tearDown_sound | with_reducible apply blockHold_sound | with_reducible apply configContext_sound
      | with_reducible apply setEdge_sound | with_reducible apply setSlice_sound | with_reducible apply serveChain_sound
      | with_reducible apply chainPosition_sound | with_reducible apply holdSettle_sound | with_reducible apply wr_sound
      | with_reducible apply bounceSetup_sound | with_reducible apply serveDeferred_sound | with_reducible apply bounceIn_sound
      | with_reducible apply endDeferred_sound | with_reducible apply count_sound | with_reducible apply bounceTaken_sound
      | with_reducible apply writeRegion_sound | with_reducible apply Sound.ite | with_reducible split)
  case loadWaybill | loadWaybillDone | loadWeights | loadWeightsDone | refPass | refPassDone | startJob | stopJob | stopJobDone | abortJob =>
    refine ⟨_, rfl, ?_⟩
    repeat' (first
      | with_reducible assumption | (intro _; try dsimp only) | with_reducible apply blockHold_sound | with_reducible apply serveDeferred_sound
      | with_reducible apply loadWaybill_sound | with_reducible apply endDeferred_sound | with_reducible apply waybillLoad_sound
      | with_reducible apply loadWeights_sound | with_reducible apply weightsLoad_sound | with_reducible apply refPass_sound
      | with_reducible apply modCx_sound | with_reducible apply serveCtx_sound | with_reducible apply startJob_sound
      | with_reducible apply stopJob_sound | with_reducible apply stopAt_sound | with_reducible apply jobStop_sound | with_reducible apply defer_sound
      | with_reducible apply fenceJob_sound | with_reducible apply originateAbort_sound | with_reducible apply Sound.ite | with_reducible split)
  case eventLatch | evClaim | evEoi | evDiscard | evPendWrite | holdoffExpire | evCntClrSpurious | aonSenseEdge | lanternHit | lanternArm =>
    refine ⟨_, rfl, ?_⟩
    repeat' (first
      | with_reducible assumption | (intro _; try dsimp only) | with_reducible apply settleOne_sound | with_reducible apply raise_sound
      | with_reducible apply hostFrom_sound | with_reducible apply claim_sound | with_reducible apply takeBells_sound
      | with_reducible apply takeHostBells_sound | with_reducible apply hostTo_sound | with_reducible apply complete_sound
      | with_reducible apply dropMoved_sound | with_reducible apply clearBits_sound | with_reducible apply each_sound
      | with_reducible apply pendWrite_sound | with_reducible apply wr_sound | with_reducible apply cntClr_sound | with_reducible apply sheetMark_sound
      | with_reducible apply lanternRecord_sound | with_reducible apply wrB_sound | with_reducible apply Sound.ite | with_reducible split
      | with_reducible (refine Sound.upd ?_ ⟨rfl, rfl⟩))
  case powerGoodFall | pwrReq | pwrRampDone | pwrOff | blockResetDomainsOff | pmSleepDeep | sleepEntryStep | pmWake | pmReset | clockMonitorWindow |
    thermalSample | thermalLevelFall | thermalTrip | thermalTripClear | pmThermCfgWrite | supplyLowEdge =>
    refine ⟨_, rfl, ?_⟩
    repeat' (first
      | with_reducible assumption | (intro _; try dsimp only) | with_reducible apply wr_sound | with_reducible apply allOff_sound
      | with_reducible apply pwrRequest_sound | with_reducible apply rampDone_sound | with_reducible apply domainReset_sound
      | with_reducible apply startRamp_sound | with_reducible apply bootBegin_sound | with_reducible apply hostTo_sound
      | with_reducible apply markBit_sound | with_reducible apply sleepStep_sound | with_reducible apply wake_sound | with_reducible apply raise_sound
      | with_reducible apply beginReset_sound | with_reducible apply wrB_sound | with_reducible apply wrs_sound | with_reducible apply setLevel_sound
      | with_reducible apply countFltReset_sound | with_reducible apply fltLast_sound | with_reducible apply holdFall_sound
      | with_reducible apply settle_sound | with_reducible apply Sound.ite | with_reducible split | with_reducible (refine Sound.upd ?_ ⟨rfl, rfl⟩))
  case bootStepDone =>
    refine ⟨_, rfl, ?_⟩
    repeat' (first
      | with_reducible assumption | intro _ | with_reducible apply bootStep_sound)
  case sbIdentify | sbChallenge | lcAdvance | debugUnlock | sbAttest | keyUpdate | keyLoad | bounceKey | reinClaim | reinRelease | heartbeatSend |
    heartbeatAnswer | heartbeatMiss =>
    refine ⟨_, rfl, ?_⟩
    repeat' (first
      | with_reducible assumption | (intro _; try dsimp only) | with_reducible apply serveSb_sound | with_reducible apply sbIdentify_sound
      | with_reducible apply sbChallenge_sound | with_reducible apply lcAdvance_sound | with_reducible apply debugUnlock_sound
      | with_reducible apply sbAttest_sound | with_reducible apply keyUpdate_sound | with_reducible apply keyLoad_sound
      | with_reducible apply bounceKey_sound | with_reducible apply reinClaim_sound | with_reducible apply reinRelease_sound
      | with_reducible apply heartbeatSend_sound | with_reducible apply heartbeatAnswer_sound | with_reducible apply heartbeatMiss_sound
      | with_reducible apply Sound.ite)
  case dgClaim | dgRelease | dgStart | dgAbort | dgMemGo | dgDataWrite | dgLastWrite | dgResultRead | dgChunkDone | dgDone | dgExpire | dgCntClr =>
    refine ⟨_, rfl, ?_⟩
    repeat' (first
      | with_reducible assumption | (intro _; try dsimp only) | with_reducible apply dgAccess_sound | with_reducible apply dgClaim_sound
      | with_reducible apply dgRelease_sound | with_reducible apply dgRefuseWrite_sound | with_reducible apply dgWrite_sound
      | with_reducible apply dgStart_sound | with_reducible apply dgNoResult_sound | with_reducible apply dgEnd_sound
      | with_reducible apply dgMemRead_sound | with_reducible apply dgData_sound | with_reducible apply dgLast_sound
      | with_reducible apply hostFrom_sound | with_reducible apply dgEarly_sound | with_reducible apply memErr_sound
      | with_reducible apply markBit_sound | with_reducible apply wr_sound | with_reducible apply modDg_sound | with_reducible apply dgFinish_sound
      | with_reducible apply each_sound | with_reducible apply cntClr_sound | with_reducible apply Sound.ite | with_reducible split)
  case otpProgWord | otpProgLock | otpProgDone =>
    refine ⟨_, rfl, ?_⟩
    repeat' (first
      | with_reducible assumption | (intro _; try dsimp only) | with_reducible apply hostTo_sound | with_reducible apply otpGo_sound
      | with_reducible apply otpEnd_sound | with_reducible apply Sound.ite | with_reducible split)
  case svcHello | svcBegin | svcData | svcEnd | svcStatus | svcDiscard | svcActivate | svcBadOp | svcRead | svcResponseReady | svcSessionTimeout |
    updateStatus | activate | activateComplete | confirmHealth | updateLock | healthDue | healthExpired | svcFrameError =>
    refine ⟨_, rfl, ?_⟩
    repeat' (first
      | with_reducible assumption | (intro _; try dsimp only) | with_reducible apply svcTake_sound | with_reducible apply svcHello_sound
      | with_reducible apply svcBegin_sound | with_reducible apply svcData_sound | with_reducible apply svcEnd_sound
      | with_reducible apply svcStatus_sound | with_reducible apply svcDiscard_sound | with_reducible apply svcActivate_sound
      | with_reducible apply svcAnswer_sound | with_reducible apply emit_sound | with_reducible apply modSvc_sound
      | with_reducible apply stagingEnd_sound | with_reducible apply serveSb_sound | with_reducible apply updateStatus_sound
      | with_reducible apply activate_sound | with_reducible apply activateComplete_sound | with_reducible apply confirmHealth_sound
      | with_reducible apply confirmUnit_sound | with_reducible apply updateLock_sound | with_reducible apply updNotice_sound
      | with_reducible apply wr_sound | with_reducible apply inc_sound | with_reducible apply Sound.ite | with_reducible split
      | with_reducible (refine Sound.upd ?_ ⟨rfl, rfl⟩))
  case gigHang | cmWdog | cmHang | sbWdog | sbClock | coachResetDone | coachResetHang | partResetDone | partResetHang | gigResetHang | seqTimeout |
    replayEnd | securityResetFallback | fltResetsDecay | sbEcc | replayRowRelease =>
    refine ⟨_, rfl, ?_⟩
    repeat' (first
      | with_reducible assumption | (intro _; try dsimp only) | with_reducible apply raiseFault_sound | with_reducible apply raise_sound
      | with_reducible apply setPeer_sound | with_reducible apply securityReset_sound | with_reducible apply settle_sound
      | with_reducible apply episodeEnd_sound | with_reducible apply showGig_sound | with_reducible apply wr_sound
      | with_reducible apply fenceOpen_sound | with_reducible apply scrubBegin_sound | with_reducible apply replayNext_sound
      | with_reducible apply each_sound | with_reducible apply faultNotice_sound | with_reducible apply faultRecord_sound
      | with_reducible apply escalate_sound | with_reducible apply showProf_sound | with_reducible apply wrs_sound
      | with_reducible apply tearDown_sound | with_reducible apply tearScrubbed_sound | with_reducible apply modCx_sound
      | with_reducible apply holdFall_sound | with_reducible apply replayScrub_sound | with_reducible apply securityFault_sound
      | with_reducible apply discardGone_sound | with_reducible apply stampReads_sound | with_reducible apply modRow_sound
      | with_reducible apply Sound.ite | with_reducible split | with_reducible (refine Sound.upd ?_ ⟨rfl, rfl⟩))
  case blockDrainDone | dumpDone | dumpTimeout | dumpTrailerDone =>
    refine ⟨_, rfl, ?_⟩
    repeat' (first
      | with_reducible assumption | intro _ | with_reducible apply abandon_sound | with_reducible apply add_sound
      | with_reducible apply dumpEnd_sound | with_reducible apply inc_sound | with_reducible apply dumpBytes_sound
      | with_reducible apply dumpWrite_sound | with_reducible apply dumpTrailer_sound | with_reducible apply trailerWrite_sound
      | with_reducible apply markBit_sound | with_reducible apply wrs_sound | with_reducible apply Sound.ite | with_reducible split
      | with_reducible (refine Sound.upd ?_ ⟨rfl, rfl⟩))
  case dbgCtrlWrite | tmuxEnFall | tapBypass | tapScanSel | tapMbistRun | tapMbistResult | mbistDone | tmuxEnRise | tapTestLogicReset =>
    refine ⟨_, rfl, ?_⟩
    repeat' (first
      | with_reducible assumption | (intro _; try dsimp only) | with_reducible apply hostTo_sound | with_reducible apply dbgWrite_sound
      | with_reducible apply tapSelect_sound | with_reducible apply mbistWipe_sound | with_reducible apply Sound.ite | with_reducible split
      | with_reducible (refine Sound.upd ?_ ⟨rfl, rfl⟩))

theorem step_nil {s : State} (h : s.pending = []) : step s = .next (idle s) := by simp only [step, h]

theorem step_cons {s : State} {i : Instr} {rest : List Instr} (h : s.pending = i :: rest) : step s = exec i { s with pending := rest } := by simp only [step, h]

/-- What a step is: a cycle that passes, or a command that is carried out soundly. -/
theorem step_cases {s t : State} (h : step s = .next t) :
    (s.pending = [] ∧ t = idle s) ∨ ∃ i rest, s.pending = i :: rest ∧ Sound { s with pending := rest } t := by
  cases hPending : s.pending with
  | nil =>
    rw [step_nil hPending] at h
    exact .inl ⟨rfl, (Host.Outcome.next.inj h).symm⟩
  | cons i rest =>
    rw [step_cons hPending] at h
    obtain ⟨u, hExec, hSound⟩ := exec_sound i { s with pending := rest }
    rw [hExec] at h
    exact .inr ⟨i, rest, rfl, Host.Outcome.next.inj h ▸ hSound⟩

/-- Settles O3: a command keeps what `Sound` says, and a cycle keeps it before and after the clock advances. -/
theorem storesStayCanonicalUnderEveryStep : Obligations.StoresStayCanonicalUnderEveryStep := by
  unfold Obligations.StoresStayCanonicalUnderEveryStep
  intro s t hs hStep
  obtain ⟨-, hIdle⟩ | ⟨i, rest, hPending, hSound⟩ := step_cases hStep
  · obtain ⟨u, hBefore, hAfter⟩ := idle_sound s
    exact hIdle ▸ hAfter.inv (tick_inv (hBefore.inv hs))
  · exact hSound.inv (inv_pending hPending hs)

/-- Settles O2: each part is one that `Sound` states of every command. -/
theorem commandsKeepQueueClockAndOutbox : Obligations.CommandsKeepQueueClockAndOutbox := by
  unfold Obligations.CommandsKeepQueueClockAndOutbox
  intro c s
  obtain ⟨t, hExec, hSound⟩ := exec_sound c s
  exact ⟨t, hExec, hSound.pending, hSound.now, hSound.out, hSound.freeN⟩

/-- Settles O5: a command blows fuses only, and the clock touches none. -/
theorem blownFusesStayBlown : Obligations.BlownFusesStayBlown := by
  unfold Obligations.BlownFusesStayBlown
  intro s t hs hStep
  obtain ⟨-, hIdle⟩ | ⟨i, rest, -, hSound⟩ := step_cases hStep
  · obtain ⟨u, hBefore, hAfter⟩ := idle_sound s
    exact hIdle ▸ fun w j hBit => hAfter.fuses (hBefore.otp hs) w j (hBefore.fuses hs w j hBit)
  · exact hSound.fuses hs

/-- Settles O1: by the definition of a step, and by what a cycle keeps. -/
theorem stepRunsTheFrontCommand : Obligations.StepRunsTheFrontCommand := by
  unfold Obligations.StepRunsTheFrontCommand
  refine ⟨fun c r s => step_cons (s := { s with pending := c :: r }) rfl, fun s hEmpty => ⟨step_nil hEmpty, ?_⟩⟩
  obtain ⟨u, hBefore, hAfter⟩ := idle_sound s
  have hNow : (tick u).now = u.now + 1 := rfl
  have hPending : (tick u).pending = u.pending := rfl
  exact ⟨by rw [hAfter.now, hNow, hBefore.now], by rw [hAfter.pending, hPending, hBefore.pending, hEmpty]⟩

/-- Settles O4: no register differs from its reset value, and nothing waits. -/
theorem resetStateIsCanonical : Obligations.ResetStateIsCanonical := by
  unfold Obligations.ResetStateIsCanonical
  exact ⟨rfl, fun f => rfl⟩

end Sys2Proof.Machine

/-! SUPPORT. Frames: which units and which register fields an operation can change. One rule per operation of the state; the frame of a function of the
model follows from those of the operations that it is made of. -/

namespace Sys2Proof.Machine

/-- The units that an operation may change, with the contexts and the coaches among them; registers are named by their keys. -/
structure Parts where
  snap : Bool := false
  hiHold : Bool := false
  rwe : Bool := false
  freeN : Bool := false
  out : Bool := false
  pins : Bool := false
  pw : Bool := false
  ev : Bool := false
  mb : Bool := false
  flt : Bool := false
  tt : Bool := false
  ctx : Bool := false
  coach : Bool := false
  gig : Bool := false
  mp : Bool := false
  tl : Bool := false
  otp : Bool := false
  flash : Bool := false
  sb : Bool := false
  dg : Bool := false
  tap : Bool := false
  ctxs : Ctx → Bool := fun _ => false
  coaches : Coach → Bool := fun _ => false

/-- From `s` to `t` nothing changes but the units of `u`, the register fields whose keys `K` holds, and the model's own fields; the clock and the queue
stay. -/
structure Frame (u : Parts) (K : Nat → Bool) (s t : State) : Prop where
  wf : s.regsWf = true → t.regsWf = true
  regs : s.regsWf = true → ∀ f : Fld, ownKey f.key = false → K f.key = false → rd f t = rd f s
  now : t.now = s.now
  pending : t.pending = s.pending
  snap : u.snap = false → t.snap = s.snap
  hiHold : u.hiHold = false → t.hiHold = s.hiHold
  rwe : u.rwe = false → t.rwe = s.rwe
  freeN : u.freeN = false → t.freeN = s.freeN
  out : u.out = false → t.out = s.out
  pins : u.pins = false → t.pins = s.pins
  pw : u.pw = false → t.pw = s.pw
  ev : u.ev = false → t.ev = s.ev
  mb : u.mb = false → t.mb = s.mb
  flt : u.flt = false → t.flt = s.flt
  tt : u.tt = false → t.tt = s.tt
  ctx : u.ctx = false → t.ctx = s.ctx
  coach : u.coach = false → t.coach = s.coach
  gig : u.gig = false → t.gig = s.gig
  mp : u.mp = false → t.mp = s.mp
  tl : u.tl = false → t.tl = s.tl
  otp : u.otp = false → t.otp = s.otp
  flash : u.flash = false → t.flash = s.flash
  sb : u.sb = false → t.sb = s.sb
  dg : u.dg = false → t.dg = s.dg
  tap : u.tap = false → t.tap = s.tap
  ctxs : ∀ n, u.ctxs n = false → cx n t = cx n s
  coaches : ∀ c, u.coaches c = false → co c t = co c s

theorem eq_cond {α : Type} {b : Bool} {x y : α} (h : b = false → x = y) : cond b x y = x := by
  cases b with
  | false => exact (h rfl).symm
  | true => rfl

namespace Frame

section
variable {u : Parts} {K : Nat → Bool} {s t v : State}

theorem refl (u : Parts) (K : Nat → Bool) (s : State) : Frame u K s s where
  wf := id
  regs _ _ _ _ := rfl
  now := rfl
  pending := rfl
  snap _ := rfl
  hiHold _ := rfl
  rwe _ := rfl
  freeN _ := rfl
  out _ := rfl
  pins _ := rfl
  pw _ := rfl
  ev _ := rfl
  mb _ := rfl
  flt _ := rfl
  tt _ := rfl
  ctx _ := rfl
  coach _ := rfl
  gig _ := rfl
  mp _ := rfl
  tl _ := rfl
  otp _ := rfl
  flash _ := rfl
  sb _ := rfl
  dg _ := rfl
  tap _ := rfl
  ctxs _ _ := rfl
  coaches _ _ := rfl

theorem trans (h : Frame u K s t) (k : Frame u K t v) : Frame u K s v where
  wf w := k.wf (h.wf w)
  regs w f e g := (k.regs (h.wf w) f e g).trans (h.regs w f e g)
  now := k.now.trans h.now
  pending := k.pending.trans h.pending
  snap e := (k.snap e).trans (h.snap e)
  hiHold e := (k.hiHold e).trans (h.hiHold e)
  rwe e := (k.rwe e).trans (h.rwe e)
  freeN e := (k.freeN e).trans (h.freeN e)
  out e := (k.out e).trans (h.out e)
  pins e := (k.pins e).trans (h.pins e)
  pw e := (k.pw e).trans (h.pw e)
  ev e := (k.ev e).trans (h.ev e)
  mb e := (k.mb e).trans (h.mb e)
  flt e := (k.flt e).trans (h.flt e)
  tt e := (k.tt e).trans (h.tt e)
  ctx e := (k.ctx e).trans (h.ctx e)
  coach e := (k.coach e).trans (h.coach e)
  gig e := (k.gig e).trans (h.gig e)
  mp e := (k.mp e).trans (h.mp e)
  tl e := (k.tl e).trans (h.tl e)
  otp e := (k.otp e).trans (h.otp e)
  flash e := (k.flash e).trans (h.flash e)
  sb e := (k.sb e).trans (h.sb e)
  dg e := (k.dg e).trans (h.dg e)
  tap e := (k.tap e).trans (h.tap e)
  ctxs n e := (k.ctxs n e).trans (h.ctxs n e)
  coaches c e := (k.coaches c e).trans (h.coaches c e)

/-- A state is the one before with the parts that may change. -/
theorem eq (h : Frame u K s t) : t = { s with
    regs := t.regs
    snap := cond u.snap t.snap s.snap
    hiHold := cond u.hiHold t.hiHold s.hiHold
    rwe := cond u.rwe t.rwe s.rwe
    freeN := cond u.freeN t.freeN s.freeN
    out := cond u.out t.out s.out
    pins := cond u.pins t.pins s.pins
    pw := cond u.pw t.pw s.pw
    ev := cond u.ev t.ev s.ev
    mb := cond u.mb t.mb s.mb
    flt := cond u.flt t.flt s.flt
    tt := cond u.tt t.tt s.tt
    ctx := cond u.ctx t.ctx s.ctx
    coach := cond u.coach t.coach s.coach
    gig := cond u.gig t.gig s.gig
    mp := cond u.mp t.mp s.mp
    tl := cond u.tl t.tl s.tl
    otp := cond u.otp t.otp s.otp
    flash := cond u.flash t.flash s.flash
    sb := cond u.sb t.sb s.sb
    dg := cond u.dg t.dg s.dg
    tap := cond u.tap t.tap s.tap } := by
  rw [eq_cond h.snap, eq_cond h.hiHold, eq_cond h.rwe, eq_cond h.freeN, eq_cond h.out, eq_cond h.pins, eq_cond h.pw, eq_cond h.ev, eq_cond h.mb, eq_cond h.flt, eq_cond h.tt,
    eq_cond h.ctx, eq_cond h.coach, eq_cond h.gig, eq_cond h.mp, eq_cond h.tl, eq_cond h.otp, eq_cond h.flash, eq_cond h.sb, eq_cond h.dg, eq_cond h.tap, ← h.now, ← h.pending]

/-- More register fields may change. -/
theorem weaken {L : Nat → Bool} (h : Frame u K s t) (hK : ∀ k, K k = true → L k = true) : Frame u L s t :=
  { h with regs := fun w f e g => h.regs w f e (Bool.eq_false_iff.2 fun k => Bool.eq_false_iff.1 g (hK _ k)) }

theorem ite {a b : State} {c : Prop} [Decidable c] (ha : Frame u K s a) (hb : Frame u K s b) : Frame u K s (if c then a else b) := by
  split <;> assumption

theorem each {α : Type} (l : List α) {g : α → State → State} (hg : ∀ x ∈ l, ∀ v, Frame u K s v → Frame u K s (g x v)) (h : Frame u K s t) :
    Frame u K s (each l g t) := by
  unfold Machine.each
  induction l generalizing t with
  | nil => exact h
  | cons x r ih => exact ih (fun y m => hg y (List.mem_cons_of_mem _ m)) (hg x List.mem_cons_self _ h)

theorem wr (f : Fld) (x : Nat) (hf : K f.key = true) (h : Frame u K s t) : Frame u K s (wr f x t) :=
  h.trans { refl u K t with
    wf := fun w => regsWf_wr w f x
    regs := fun w g _ hg => rd_wr_ne w g f x (fun e => Bool.eq_false_iff.1 hg (e ▸ hf)) }

theorem own (f : Fld) (x : Nat) (hf : ownKey f.key = true) (h : Frame u K s t) : Frame u K s (Machine.wr f x t) :=
  h.trans { refl u K t with
    wf := fun w => regsWf_wr w f x
    regs := fun w g hg _ => rd_wr_ne w g f x (fun e => Bool.eq_false_iff.1 hg (e ▸ hf)) }

theorem wrB (f : Fld) (b : Bool) (hf : K f.key = true) (h : Frame u K s t) : Frame u K s (wrB f b t) := h.wr f _ hf

theorem add (f : Fld) (n : Nat) (hf : K f.key = true) (h : Frame u K s t) : Frame u K s (add f n t) := h.wr f _ hf

theorem inc (f : Fld) (hf : K f.key = true) (h : Frame u K s t) : Frame u K s (inc f t) := h.wr f _ hf

theorem wrs (l : List (Fld × Nat)) (hl : ∀ x ∈ l, K x.1.key = true) (h : Frame u K s t) : Frame u K s (wrs l t) := by
  induction l generalizing t with
  | nil => exact h
  | cons x r ih => exact ih (fun y m => hl y (List.mem_cons_of_mem _ m)) (h.wr x.1 x.2 (hl x List.mem_cons_self))

theorem clr (l : List Fld) (hl : ∀ f ∈ l, K f.key = true) (h : Frame u K s t) : Frame u K s (clr l t) :=
  h.wrs _ (List.forall_mem_map.2 hl)

theorem cntClr (l : List Fld) (hl : ∀ f ∈ l, K f.key = true) (h : Frame u K s t) : Frame u K s (cntClr l t) := by
  suffices ∀ (m : List Fld) {w : State}, Frame u K s w → Frame u K s (Machine.wrs (m.map (fun f => (clearedF f, 1))) w) from this l (h.clr l hl)
  intro m
  induction m with
  | nil => exact id
  | cons f r ih => exact fun hw => ih (hw.own _ 1 (ownKey_clearedF f))

theorem markBits (f : Fld) (m : Nat) (hf : K f.key = true) (h : Frame u K s t) : Frame u K s (markBits f m t) :=
  (h.wr f _ hf).own _ _ (ownKey_freshF f)

theorem markBit (f : Fld) (hf : K f.key = true) (h : Frame u K s t) : Frame u K s (markBit f t) := h.markBits f 1 hf

theorem clearBits (f : Fld) (m : Nat) (hf : K f.key = true) (h : Frame u K s t) : Frame u K s (clearBits f m t) := h.wr f _ hf

theorem snapUpd (hu : u.snap = true) (p : _) (h : Frame u K s t) : Frame u K s { t with snap := p } :=
  { h with snap := fun e => absurd (hu.symm.trans e) Bool.noConfusion }
theorem hiHoldUpd (hu : u.hiHold = true) (p : _) (h : Frame u K s t) : Frame u K s { t with hiHold := p } :=
  { h with hiHold := fun e => absurd (hu.symm.trans e) Bool.noConfusion }
theorem rweUpd (hu : u.rwe = true) (p : _) (h : Frame u K s t) : Frame u K s { t with rwe := p } :=
  { h with rwe := fun e => absurd (hu.symm.trans e) Bool.noConfusion }
theorem freeNUpd (hu : u.freeN = true) (p : _) (h : Frame u K s t) : Frame u K s { t with freeN := p } :=
  { h with freeN := fun e => absurd (hu.symm.trans e) Bool.noConfusion }
theorem outUpd (hu : u.out = true) (p : _) (h : Frame u K s t) : Frame u K s { t with out := p } :=
  { h with out := fun e => absurd (hu.symm.trans e) Bool.noConfusion }
theorem pinsUpd (hu : u.pins = true) (p : _) (h : Frame u K s t) : Frame u K s { t with pins := p } :=
  { h with pins := fun e => absurd (hu.symm.trans e) Bool.noConfusion }
theorem pwUpd (hu : u.pw = true) (p : _) (h : Frame u K s t) : Frame u K s { t with pw := p } :=
  { h with pw := fun e => absurd (hu.symm.trans e) Bool.noConfusion }
theorem evUpd (hu : u.ev = true) (p : _) (h : Frame u K s t) : Frame u K s { t with ev := p } :=
  { h with ev := fun e => absurd (hu.symm.trans e) Bool.noConfusion }
theorem mbUpd (hu : u.mb = true) (p : _) (h : Frame u K s t) : Frame u K s { t with mb := p } :=
  { h with mb := fun e => absurd (hu.symm.trans e) Bool.noConfusion }
theorem fltUpd (hu : u.flt = true) (p : _) (h : Frame u K s t) : Frame u K s { t with flt := p } :=
  { h with flt := fun e => absurd (hu.symm.trans e) Bool.noConfusion }
theorem ttUpd (hu : u.tt = true) (p : _) (h : Frame u K s t) : Frame u K s { t with tt := p } :=
  { h with tt := fun e => absurd (hu.symm.trans e) Bool.noConfusion }
theorem gigUpd (hu : u.gig = true) (p : _) (h : Frame u K s t) : Frame u K s { t with gig := p } :=
  { h with gig := fun e => absurd (hu.symm.trans e) Bool.noConfusion }
theorem mpUpd (hu : u.mp = true) (p : _) (h : Frame u K s t) : Frame u K s { t with mp := p } :=
  { h with mp := fun e => absurd (hu.symm.trans e) Bool.noConfusion }
theorem tlUpd (hu : u.tl = true) (p : _) (h : Frame u K s t) : Frame u K s { t with tl := p } :=
  { h with tl := fun e => absurd (hu.symm.trans e) Bool.noConfusion }
theorem otpUpd (hu : u.otp = true) (p : _) (h : Frame u K s t) : Frame u K s { t with otp := p } :=
  { h with otp := fun e => absurd (hu.symm.trans e) Bool.noConfusion }
theorem flashUpd (hu : u.flash = true) (p : _) (h : Frame u K s t) : Frame u K s { t with flash := p } :=
  { h with flash := fun e => absurd (hu.symm.trans e) Bool.noConfusion }
theorem sbUpd (hu : u.sb = true) (p : _) (h : Frame u K s t) : Frame u K s { t with sb := p } :=
  { h with sb := fun e => absurd (hu.symm.trans e) Bool.noConfusion }
theorem dgUpd (hu : u.dg = true) (p : _) (h : Frame u K s t) : Frame u K s { t with dg := p } :=
  { h with dg := fun e => absurd (hu.symm.trans e) Bool.noConfusion }
theorem tapUpd (hu : u.tap = true) (p : _) (h : Frame u K s t) : Frame u K s { t with tap := p } :=
  { h with tap := fun e => absurd (hu.symm.trans e) Bool.noConfusion }

theorem emit (hu : u.out = true) (o : Out) (h : Frame u K s t) : Frame u K s (emit o t) := h.outUpd hu _

theorem free (hu : u.freeN = true) (h : Frame u K s t) : Frame u K s (free t).2 := h.freeNUpd hu _

theorem freeBytes (hu : u.freeN = true) (n : Nat) (h : Frame u K s t) : Frame u K s (freeBytes n t).2 := h.free hu

theorem setChan (hu : u.mb = true) (k : Fin 6) (c : MbChan) (h : Frame u K s t) : Frame u K s (setChan k c t) := h.mbUpd hu _

theorem setCx (hu : u.ctx = true) (n : Ctx) (hn : u.ctxs n = true) (c : CtxSt) (h : Frame u K s t) : Frame u K s (setCx n c t) :=
  { h with
    ctx := fun e => absurd (hu.symm.trans e) Bool.noConfusion
    ctxs := fun m e => (cx_setCx_ne m n c t (fun k => by simp [k, hn] at e)).trans (h.ctxs m e) }

theorem modCx (hu : u.ctx = true) (n : Ctx) (hn : u.ctxs n = true) (g : CtxSt → CtxSt) (h : Frame u K s t) : Frame u K s (modCx n g t) :=
  h.setCx hu n hn _

theorem setCo (hu : u.coach = true) (c : Coach) (hc : u.coaches c = true) (x : CoachSt) (h : Frame u K s t) : Frame u K s (setCo c x t) :=
  { h with
    coach := fun e => absurd (hu.symm.trans e) Bool.noConfusion
    coaches := fun d e => (co_setCo_ne d c x t (fun k => by simp [k, hc] at e)).trans (h.coaches d e) }

theorem modCo (hu : u.coach = true) (c : Coach) (hc : u.coaches c = true) (g : CoachSt → CoachSt) (h : Frame u K s t) : Frame u K s (modCo c g t) :=
  h.setCo hu c hc _

end
end Frame

/-- The keys of a list of fields. -/
def keysOf (fs : List Fld) (k : Nat) : Bool := fs.any (fun f => f.key == k)
/-- Those, and what the latching of an event can write. -/
def evOr (fs : List Fld) (k : Nat) : Bool := evKey k || keysOf fs k
/-- Those, and what a message can write besides. -/
def msgOr (fs : List Fld) (k : Nat) : Bool := msgKey k || keysOf fs k

theorem keysOf_eq_false {fs : List Fld} {k : Nat} : keysOf fs k = false ↔ ∀ g ∈ fs, k ≠ g.key := by
  simp only [keysOf, List.any_eq_false, beq_iff_eq]
  exact forall₂_congr fun g _ => not_congr eq_comm

theorem keysOf_mem {fs : List Fld} {f : Fld} (h : f ∈ fs) : keysOf fs f.key = true := List.any_eq_true.2 ⟨f, h, beq_self_eq_true _⟩

/-- The field of a pair is among those of the pairs. -/
theorem fst_mem {l : List (Fld × Nat)} {fs : List Fld} (hSub : l.map (·.1) ⊆ fs) {x : Fld × Nat} (h : x ∈ l) : x.1 ∈ fs := hSub (List.mem_map_of_mem h)

theorem evOr_mem {fs : List Fld} {f : Fld} (h : f ∈ fs) : evOr fs f.key = true := Bool.or_eq_true_iff.2 (.inr (keysOf_mem h))

theorem msgOr_mem {fs : List Fld} {f : Fld} (h : f ∈ fs) : msgOr fs f.key = true := Bool.or_eq_true_iff.2 (.inr (keysOf_mem h))

/-- The event controller's fields are among those that may change. -/
abbrev EvIn (K : Nat → Bool) : Prop := ∀ k, evKey k = true → K k = true
/-- And the mailboxes' fields. -/
abbrev MsgIn (K : Nat → Bool) : Prop := ∀ k, msgKey k = true → K k = true

theorem evIn_evOr (fs : List Fld) : EvIn (evOr fs) := fun _ h => Bool.or_eq_true_iff.2 (.inl h)

theorem msgIn_msgOr (fs : List Fld) : MsgIn (msgOr fs) := fun _ h => Bool.or_eq_true_iff.2 (.inl h)

theorem MsgIn.ev {K : Nat → Bool} (h : MsgIn K) : EvIn K := fun k e => h k (by simp only [msgKey, e, Bool.true_or])

section
variable {u : Parts} {K : Nat → Bool} {s t : State} {fs : List Fld}

theorem Frame.kept (h : Frame u (keysOf fs) s t) (w : s.regsWf = true) : s.kept fs t :=
  fun f ho hf => h.regs w f ho (keysOf_eq_false.2 hf)

theorem Frame.keptEv (h : Frame u (evOr fs) s t) (w : s.regsWf = true) : s.keptEv fs t := fun f he hf =>
  h.regs w f (Bool.eq_false_iff.2 fun k => by simp [evKey_of_own k] at he) (Bool.or_eq_false_iff.2 ⟨he, keysOf_eq_false.2 hf⟩)

theorem Frame.keptMsg (h : Frame u (msgOr fs) s t) (w : s.regsWf = true) : s.keptMsg fs t := fun f he hf =>
  h.regs w f (Bool.eq_false_iff.2 fun k => by simp [msgKey, evKey_of_own k] at he) (Bool.or_eq_false_iff.2 ⟨he, keysOf_eq_false.2 hf⟩)

/-- A context that is not among those that may change is the one before. -/
theorem Frame.ctx_eq (h : Frame u K s t) (hu : ∀ n, u.ctxs n = false) : t.ctx = s.ctx := by
  apply Vector.ext
  intro i hi
  exact h.ctxs ⟨i, hi⟩ (hu _)

/-- What the latching of events leaves is a frame. -/
theorem Heard.frame (hu : u.pw = true) (hK : EvIn K) (h : Heard s t) : Frame u K s t := by
  have r (f : Fld) (e : K f.key = false) : evKey f.key = false := Bool.eq_false_iff.2 fun k => Bool.eq_false_iff.1 e (hK _ k)
  have hRegs : Frame u K s { s with regs := t.regs } :=
    { Frame.refl u K s with wf := h.wf, regs := fun w f _ e => h.regs w f (r f e) (by simp) }
  exact (congrArg (Frame u K s) h.rest).mpr (hRegs.pwUpd hu t.pw)

/-- And what a message leaves. -/
theorem Told.frame (hu : u.pw = true) (hm : u.mb = true) (hK : MsgIn K) (h : Told s t) : Frame u K s t := by
  have r (f : Fld) (e : K f.key = false) : msgKey f.key = false := Bool.eq_false_iff.2 fun k => Bool.eq_false_iff.1 e (hK _ k)
  have hRegs : Frame u K s { s with regs := t.regs } :=
    { Frame.refl u K s with wf := h.wf, regs := fun w f _ e => h.regs w f (r f e) (by simp) }
  exact (congrArg (Frame u K s) h.rest).mpr ((hRegs.pwUpd hu t.pw).mbUpd hm t.mb)

namespace Frame

theorem raise (hu : u.pw = true) (hK : EvIn K) (n : Nat) (h : Frame u K s t) : Frame u K s (raise n t) :=
  h.trans ((raise_heard n (Heard.refl t)).frame hu hK)

theorem latch (hu : u.pw = true) (hK : EvIn K) (n : Nat) (h : Frame u K s t) : Frame u K s (latch n t) :=
  h.trans ((latch_heard n (Heard.refl t)).frame hu hK)

theorem settle (hu : u.pw = true) (hK : EvIn K) (h : Frame u K s t) : Frame u K s (settle t) :=
  h.trans ((settle_heard (Heard.refl t)).frame hu hK)

theorem settleOne (hu : u.pw = true) (hK : EvIn K) (n : Nat) (hn : n < 128) (h : Frame u K s t) : Frame u K s (settleOne n t) :=
  h.trans ((settleOne_heard n hn (Heard.refl t)).frame hu hK)

theorem notice (hu : u.pw = true) (hm : u.mb = true) (hK : MsgIn K) (c f x : Nat) (p : List Nat) (h : Frame u K s t) : Frame u K s (notice c f x p t) :=
  h.trans ((notice_told c f x p (Told.refl t)).frame hu hm hK)

theorem sbNotice (hu : u.pw = true) (hm : u.mb = true) (hK : MsgIn K) (c : Nat) (p : List Nat) (h : Frame u K s t) : Frame u K s (sbNotice c p t) :=
  h.trans ((sbNotice_told c p (Told.refl t)).frame hu hm hK)

theorem answer (hu : u.pw = true) (hm : u.mb = true) (hK : MsgIn K) (k : Fin 6) (i : Bool) (o q c : Nat) (p : List Nat) (h : Frame u K s t) :
    Frame u K s (answer k i o q c p t) :=
  h.trans ((answer_told k i o q c p (Told.refl t)).frame hu hm hK)

theorem reply (hu : u.pw = true) (hm : u.mb = true) (hK : MsgIn K) (k : Fin 6) (r : Req) (c : Nat) (p : List Nat) (h : Frame u K s t) :
    Frame u K s (reply k r c p t) :=
  h.trans ((reply_told k r c p (Told.refl t)).frame hu hm hK)

theorem takeMsg (hu : u.pw = true) (hm : u.mb = true) (hK : MsgIn K) (k : Fin 6) (h : Frame u K s t) : Frame u K s (takeMsg k t) :=
  h.trans ((takeMsg_told k (Told.refl t)).frame hu hm hK)

theorem endDeferred (hu : u.pw = true) (hm : u.mb = true) (hK : MsgIn K) (d : Deferred) (c : Nat) (p : List Nat) (h : Frame u K s t) :
    Frame u K s (endDeferred d c p t) :=
  h.trans ((endDeferred_told d c p (Told.refl t)).frame hu hm hK)

end Frame
end

end Sys2Proof.Machine

/-! SUPPORT. Host accesses: how an access that is not served is answered, whatever its row (R32, R35, R550). -/

namespace Sys2Proof.Machine

section
variable {s : State} (h : s.regsWf = true)
include h

theorem rd_raise (n : Nat) {f : Fld} (hf : evKey f.key = false) : rd f (raise n s) = rd f s :=
  (raise_heard n (Heard.refl s)).regs h f hf (by simp)

theorem rd_settle {f : Fld} (hf : evKey f.key = false) : rd f (settle s) = rd f s :=
  (settle_heard (Heard.refl s)).regs h f hf (by simp)

theorem rd_notice (c x n : Nat) (p : List Nat) {f : Fld} (hf : msgKey f.key = false) : rd f (notice c x n p s) = rd f s :=
  (notice_told c x n p (Told.refl s)).regs h f hf (by simp)

end

theorem out_raise (n : Nat) (s : State) : (raise n s).out = s.out := by rw [(raise_heard n (Heard.refl s)).rest]

theorem regsWf_raise {s : State} (h : s.regsWf = true) (n : Nat) : (raise n s).regsWf = true := (raise_heard n (Heard.refl s)).wf h

/-- What the answer to an access that is not served can change: a counter, and what the event of its count can. -/
theorem hostErr_frame (e : HostErr) (w : Bool) (s : State) : Frame { pw := true, out := true } (evOr (hostErrCounter e).toList) s (hostErr e w s) := by
  refine Frame.emit rfl _ ?_
  cases hostErrCounter e with
  | none => exact Frame.refl _ _ s
  | some f => exact ((Frame.refl _ _ s).inc f (evOr_mem (by simp))).raise rfl (evIn_evOr _) 77

theorem out_hostErr (e : HostErr) (w : Bool) (s : State) : (hostErr e w s).out = .resp w (hostErrStatus e) 0 :: s.out := by
  cases e <;> simp [hostErr, hostErrCounter, emit, out_raise]

theorem evKey_hostErrCounter {e : HostErr} {f : Fld} (h : hostErrCounter e = some f) : evKey f.key = false ∧ f.width = 8 := by
  cases e <;> cases h <;> decide

theorem rd_hostErr {s : State} (h : s.regsWf = true) {e : HostErr} {f : Fld} (hf : hostErrCounter e = some f) (w : Bool) :
    rd f (hostErr e w s) = min (rd f s + 1) 255 := by
  obtain ⟨hEv, hWidth⟩ := evKey_hostErrCounter hf
  simp only [hostErr, hf, rd_emit]
  rw [rd_raise (regsWf_inc h f) 77 hEv]
  exact (rd_inc_same h f).trans (congrArg (fun w => min (rd f s + 1) (2 ^ w - 1)) hWidth)

/-- Settles O6: the answer's frame, and the value of the counter of its error. -/
theorem refusedHostAccessIsAnsweredAndCounted : Obligations.RefusedHostAccessIsAnsweredAndCounted := by
  unfold Obligations.RefusedHostAccessIsAnsweredAndCounted
  intro s w b sec a e h hScan hCheck
  have hExec : exec (.hostAccessError w a b sec) s = .next (hostErr e w s) := by
    change execHostAccessError w a b sec s = _
    simp only [execHostAccessError, hScan, hCheck, Bool.false_eq_true, if_false]
  have hFrame := hostErr_frame e w s
  refine ⟨_, hExec, out_hostErr e w s, hFrame.eq, ?_⟩
  cases hCounter : hostErrCounter e with
  | none => simp only [hostErr, hCounter, emit_regs]
  | some f =>
    rw [hCounter] at hFrame
    exact ⟨rd_hostErr h hCounter w, hFrame.keptEv h⟩

section
variable {a : Nat} {sec : Bool} {s : State}

/-- A write that is not served is answered with its error. -/
theorem hostTo_refused {e : HostErr} (hScan : (s.tap.code == 0x10) = false) (hCheck : hostCheck a sec false s = some e) (k : State → State) :
    hostTo a sec k s = hostErr e true s := by
  simp only [hostTo, hScan, hCheck, Bool.false_eq_true, if_false]

/-- A read that is not served is answered with its error. -/
theorem hostFrom_refused {e : HostErr} (hScan : (s.tap.code == 0x10) = false) (hCheck : hostCheck a sec false s = some e) (v : State → Nat)
    (k : State → State) : hostFrom a sec v k s = hostErr e false s := by
  simp only [hostFrom, hScan, hCheck, Bool.false_eq_true, if_false]

theorem execHostAccessError_refused {e : HostErr} (hScan : (s.tap.code == 0x10) = false) (hCheck : hostCheck a sec false s = some e) (w : Bool) :
    exec (.hostAccessError w a false sec) s = .next (hostErr e w s) := by
  change execHostAccessError w a false sec s = _
  simp only [execHostAccessError, hScan, hCheck, Bool.false_eq_true, if_false]

theorem hostTo_scan (hScan : (s.tap.code == 0x10) = true) (k : State → State) : hostTo a sec k s = s := if_pos hScan

theorem hostFrom_scan (hScan : (s.tap.code == 0x10) = true) (v : State → Nat) (k : State → State) : hostFrom a sec v k s = s := if_pos hScan

end

/-- An address that the host port can carry is on no processor's own path (log 36). -/
theorem procOf_host {a : Nat} (h : a < 2 ^ 48) : procOf a = none := by
  simp only [procOf, Nat.div_eq_of_lt h]
  rfl

/-- Every host row's command is an access of its offset by the port: a write, but for the read of a pair. -/
theorem exec_hostRow {i : Instr} {a : Nat} {sec : Bool} (h : hostRow i = some (a, sec)) :
    (hostWrites i = true ∧ ∃ k : State → State, ∀ s, exec i s = .next (hostTo a sec k s)) ∨
    (hostWrites i = false ∧ ∃ (v : State → Nat) (k : State → State), ∀ s, exec i s = .next (hostFrom a sec v k s)) := by
  cases i
  case regWrite addr d sec' =>
    simp only [hostRow] at h
    split at h
    · rename_i hHost
      cases h
      refine .inl ⟨rfl, fun t => if profAddr a then showProf (regWrite a d.toNat (settleAt a t)) else regWrite a d.toNat t, fun s => ?_⟩
      change execRegWrite _ d _ s = _
      simp only [execRegWrite, procOf_host hHost]
    · cases h
  case pairLoWrite addr d sec' =>
    simp only [hostRow] at h
    split at h
    · rename_i hHost
      cases h
      refine .inl ⟨rfl, commitPair a d.toNat, fun s => ?_⟩
      change execPairLoWrite _ d _ s = _
      simp only [execPairLoWrite, procOf_host hHost]
    · cases h
  case pairLoRead => cases h; exact .inr ⟨rfl, _, _, fun s => rfl⟩
  all_goals cases h
  all_goals exact .inl ⟨rfl, _, fun s => rfl⟩

/-- Settles O7: a host row's command is an access by the host port, and the port refuses every access alike. -/
theorem everyHostRowIsRefusedAlike : Obligations.EveryHostRowIsRefusedAlike := by
  unfold Obligations.EveryHostRowIsRefusedAlike
  intro i a sec s hRow
  obtain ⟨hWrites, k, hExec⟩ | ⟨hWrites, v, k, hExec⟩ := exec_hostRow hRow
  · refine ⟨fun e hScan hCheck => ?_, fun hScan => ?_⟩
    · rw [hExec, hostTo_refused hScan hCheck, execHostAccessError_refused hScan hCheck, hWrites]
    · rw [hExec, hostTo_scan hScan]
  · refine ⟨fun e hScan hCheck => ?_, fun hScan => ?_⟩
    · rw [hExec, hostFrom_refused hScan hCheck, execHostAccessError_refused hScan hCheck, hWrites]
    · rw [hExec, hostFrom_scan hScan]

end Sys2Proof.Machine

/-! SUPPORT. What the work of a running coach and of the Gig engine can change when it is brought up to the present cycle (R114, R115, R159). -/

namespace Sys2Proof.Machine

namespace Frame
variable {u : Parts} {K : Nat → Bool} {s t : State}

theorem profAdd (c : Coach) (f : Fld) (n : Nat) (hf : K f.key = true) (h : Frame u K s t) : Frame u K s (profAdd c f n t) := by
  unfold Machine.profAdd
  exact ite (h.add f n hf) h

end Frame

/-- What the work of a coach's stage is counted in. -/
def workFields (c : Coach) : List Fld :=
  [CA_STALL_MEM.COUNT c.val, CA_STALL_POST.COUNT c.val, CA_BUSY.COUNT c.val, CA_NUMERIC.ACC_SAT c.val, CA_STATUS.SAT_SEEN c.val] ++
    allCtx.map (fun n => GL_WB_LATE_CYC.COUNT (cid n))

theorem mem_workFields_late (c : Coach) (n : Ctx) : GL_WB_LATE_CYC.COUNT (cid n) ∈ workFields c :=
  List.mem_append_right _ (List.mem_map.2 ⟨n, List.mem_finRange n, rfl⟩)

namespace Frame
variable {u : Parts} {K : Nat → Bool} {s t : State} (hu : u.coach = true) {c : Coach} (hc : u.coaches c = true) (hK : ∀ f ∈ workFields c, K f.key = true)
include hu hc hK

theorem queueRoll (h : Frame u K s t) : Frame u K s (queueRoll c t) := by
  unfold Machine.queueRoll
  split
  · exact h
  · split
    · exact h
    · exact (h.modCo hu c hc _).add _ _ (hK _ (mem_workFields_late c _))

theorem syncSettle (h : Frame u K s t) : Frame u K s (syncSettle c t) := by
  unfold Machine.syncSettle
  split
  · exact h
  · exact ((h.modCo hu c hc _).add _ _ (hK _ (mem_workFields_late c _))).profAdd c _ _ (hK _ (by simp [workFields]))

theorem runTo (n : Nat) (h : Frame u K s t) : Frame u K s (runTo c n t) := by
  unfold Machine.runTo
  split
  · exact h
  · refine ite h (ite (h.modCo hu c hc _) ?_)
    refine profAdd c _ _ (hK _ (by simp [workFields])) (ite ?_ (h.setCo hu c hc _))
    exact ((h.setCo hu c hc _).add _ _ (hK _ (by simp [workFields]))).markBit _ (hK _ (by simp [workFields]))

theorem stallTo (n : Nat) (h : Frame u K s t) : Frame u K s (stallTo c n t) := by
  unfold Machine.stallTo
  split
  · exact h
  · exact ite h ((h.modCo hu c hc _).profAdd c _ _ (hK _ (by simp [workFields])))

theorem coachSettle (h : Frame u K s t) : Frame u K s (coachSettle c t) :=
  stallTo hu hc hK _ (runTo hu hc hK _ (syncSettle hu hc hK (queueRoll hu hc hK h)))

end Frame

theorem coachSettle_frame (c : Coach) (s : State) : Frame { coach := true, coaches := (· == c) } (keysOf (workFields c)) s (coachSettle c s) :=
  Frame.coachSettle rfl (beq_self_eq_true c) (fun _ => keysOf_mem) (Frame.refl _ _ s)

theorem Frame.gigSettle {u : Parts} {K : Nat → Bool} {s t : State} (hg : u.gig = true) (hf : u.freeN = true) (hBusy : K GG_BUSY.COUNT.key = true)
    (hWait : K GG_WAIT.COUNT.key = true) (h : Frame u K s t) : Frame u K s (gigSettle t) := by
  unfold Machine.gigSettle
  split
  · exact h
  · exact Frame.ite (h.gigUpd hg _) ((((h.gigUpd hg _).free hf).add _ _ hBusy).add _ _ hWait)

theorem gigSettle_frame (s : State) : Frame { gig := true, freeN := true } (keysOf [GG_BUSY.COUNT, GG_WAIT.COUNT]) s (gigSettle s) :=
  Frame.gigSettle rfl rfl (by decide) (by decide) (Frame.refl _ _ s)

/-- What the work of the unit at an address can change. -/
def settleKeys (k : Nat) : Bool := keysOf [GG_BUSY.COUNT, GG_WAIT.COUNT] k || allCoach.any (fun c => keysOf (workFields c) k)

/-- Bringing the unit of an address up to the present cycle leaves all but that unit, and what its work is counted in. -/
theorem settleAt_frame (a : Nat) (s : State) :
    Frame { coach := true, coaches := fun _ => true, gig := true, freeN := true } settleKeys s (settleAt a s) := by
  have hRefl := Frame.refl { coach := true, coaches := fun _ => true, gig := true, freeN := true } settleKeys s
  unfold settleAt
  refine Frame.ite (Frame.ite (hRefl.coachSettle rfl rfl fun f hf => ?_) hRefl)
    (Frame.ite (Frame.ite (hRefl.gigSettle rfl rfl (by decide) (by decide)) hRefl) hRefl)
  exact Bool.or_eq_true_iff.2 (.inr (List.any_eq_true.2 ⟨_, List.mem_finRange _, keysOf_mem hf⟩))

end Sys2Proof.Machine

/-! SUPPORT. Host writes and pair reads of registers, by the kinds of their fields (R14, R15, R115). -/

namespace Sys2Proof.Machine

/-- An access that is served lies in the host window. -/
theorem lt_of_served {a : Nat} {sec : Bool} {s : State} (h : s.served a sec) : a < 0x1000000 := by
  obtain ⟨-, -, hCheck⟩ := h
  refine Classical.byContradiction fun hLarge => ?_
  have hUnmapped : (false || a % 4 != 0 || decide (0x1000000 ≤ a)) = true := by simp [Nat.not_lt.1 hLarge]
  rw [hostCheck, hUnmapped] at hCheck
  split at hCheck <;> simp at hCheck

theorem procOf_served {a : Nat} {sec : Bool} {s : State} (h : s.served a sec) : procOf a = none :=
  procOf_host (Nat.lt_trans (lt_of_served h) (by decide))

/-- A write that is served has the effect of its fields' kinds, and is answered OK. -/
theorem execRegWrite_served {a : Nat} {sec : Bool} {s : State} (h : s.served a sec) (d : Word) (hProf : profAddr a = false) :
    exec (.regWrite a d sec) s = .next (emit (.resp true 0 0) (regWrite a d.toNat s)) := by
  change execRegWrite a d sec s = _
  simp only [execRegWrite, procOf_served h, hostTo_served h, hProf, Bool.false_eq_true, if_false]

theorem execRegWrite_prof {a : Nat} {sec : Bool} {s : State} (h : s.served a sec) (d : Word) (hProf : profAddr a = true) :
    exec (.regWrite a d sec) s = .next (emit (.resp true 0 0) (showProf (regWrite a d.toNat (settleAt a s)))) := by
  change execRegWrite a d sec s = _
  simp only [execRegWrite, procOf_served h, hostTo_served h, hProf, if_true]

theorem execPairLoWrite_served {a : Nat} {sec : Bool} {s : State} (h : s.served a sec) (d : Word) :
    exec (.pairLoWrite a d sec) s = .next (emit (.resp true 0 0) (commitPair a d.toNat s)) := by
  change execPairLoWrite a d sec s = _
  simp only [execPairLoWrite, procOf_served h, hostTo_served h]

theorem execPairLoRead_served {a : Nat} {sec : Bool} {s : State} (h : s.served a sec) :
    exec (.pairLoRead a sec) s = .next (emit (.resp false 0 (low32 (pairValue a (settleAt a s)))) { s with snap := (snapPair a (settleAt a s)).snap }) := by
  change execPairLoRead a sec s = _
  simp only [execPairLoRead, hostFrom_served h]

/-- The mask bits alone are kept from the host (R351): no register below the event controller's window. -/
theorem hostReaches_low {f : Fld} (h : f.addr < 0x700000) (s : State) : hostReaches f s = true := by
  have h1 : ¬(0x700010 ≤ f.addr ∧ f.addr < 0x700020) := by omega
  have h2 : ¬(0x701010 ≤ f.addr ∧ f.addr < 0x701020) := by omega
  simp [hostReaches, h1, h2]

/-- Settles O9: what a read captures, and what a write of a pair with one field commits. -/
theorem registerPairsAreReadAndWrittenWhole : Obligations.RegisterPairsAreReadAndWrittenWhole := by
  unfold Obligations.RegisterPairsAreReadAndWrittenWhole
  refine ⟨fun s a sec h hPairs => ?read, fun s a d sec r x h hRow hPair hField hKind hDg hLow => ?write⟩
  case read =>
    have hSnap : (settleAt a s).snap = s.snap := (settleAt_frame a s).snap rfl
    have hWf : SMap.wf (fun _ => 0) s.snap = true := (Bool.and_eq_true_iff.1 hPairs).1
    refine ⟨_, execPairLoRead_served h, rfl, ?_, fun b hb => ?_, rfl⟩
    · simp only [emit, snapPair, hSnap]
      exact SMap.get_set_same _ _ _ _ hWf
    · simp only [emit, snapPair, hSnap]
      exact SMap.get_set_ne _ _ _ _ hWf _ hb
  case write =>
    have hCommit : commitPair a d.toNat s = wr ⟨a, x.lo, x.width⟩ (SMap.get (fun _ => 0) s.hiHold a * 2 ^ 32 + d.toNat) s := by
      have hWindow : (a / 0x100000 == 9) = false := beq_eq_false_iff_ne.2 hDg
      have hReach := hostReaches_low (f := ⟨a, x.lo, x.width⟩) hLow s
      simp [commitPair, hWindow, hRow, hPair, hField, each, hKind, hReach, low32, Nat.mod_eq_of_lt d.isLt]
    refine ⟨_, execPairLoWrite_served h d, ?_, ?_, ?_⟩
    · rw [rd_emit, hCommit, rd_wr_same h.1]
    · rw [hCommit]
      exact ((Frame.refl {} _ s).wr _ _ (keysOf_mem (List.mem_singleton.2 rfl))).kept h.1
    · rw [hCommit]
      rfl

end Sys2Proof.Machine

/-! O42. A discard over what a pending bit's field holds (R357), and the refutation of O42. -/

namespace Sys2Proof.Machine

/-- Source 16 of the normal class is routed to the host, and its pending field, as what hardware has set in it in this cycle, holds a value wider than one bit. -/
def pendWide : State :=
  let s := wrs [(PM_PWR_STATUS.ON 17, 1), (PM_PWR_STATUS.ON 20, 1), (EV_CLASS.FAST 0 16, 0), (EV_ROUTE.ROUTE 1 0, 2)] State.reset
  { s with regs := SMap.set fieldReset (SMap.set fieldReset s.regs (pendF false 16).key 2) (freshF (pendF false 16)).key 2 }

/-- Refutes O42: what a discard leaves is cut to the bit's width, so that it is not the value that hardware has set where a wider one is stored. -/
theorem not_eventsLatchAndAreCompleted : ¬ Obligations.EventsLatchAndAreCompleted := by
  unfold Obligations.EventsLatchAndAreCompleted
  intro h
  have hServed : pendWide.served (0x700088 + evBank false) false := by
    unfold State.served
    decide +kernel
  obtain ⟨-, -, -, -, -, -, -, hDiscard, -⟩ := h pendWide .host false 16 (by decide +kernel)
  obtain ⟨t, hExec, hPend, -⟩ := hDiscard hServed
  obtain ⟨hLeft, -⟩ := hPend (by decide +kernel)
  -- What a discard leaves of it.
  have hCut : (match execEvDiscard false 16 pendWide with
      | .next t => rd (pendF false 16) t
      | _ => 2) = 0 := by decide +kernel
  change execEvDiscard false 16 pendWide = _ at hExec
  rw [hExec] at hCut
  have hZero : rd (pendF false 16) t = 0 := hCut
  rw [show (16 : BitVec 7).toNat = 16 from rfl, hZero] at hLeft
  exact absurd hLeft (by decide +kernel)

end Sys2Proof.Machine

/-! SUPPORT. PROF_ON of the coaches and the Gig engine (R115, R157), and writes of a register by its fields' kinds (R14, R253, R254). -/

namespace Sys2Proof.Machine

/-- Writes of one-bit fields in turn, whose values none of them changes, are one list of writes. -/
theorem each_wrB_eq_wrs {α : Type} (l : List α) (F : α → Fld) (v : α → State → Bool)
    (hv : ∀ x y b t, t.regsWf = true → v y (wrB (F x) b t) = v y t) {s : State} (h : s.regsWf = true) :
    each l (fun x t => wrB (F x) (v x t) t) s = wrs (l.map (fun x => (F x, b2n (v x s)))) s := by
  induction l generalizing s with
  | nil => rfl
  | cons x r ih =>
    have hRest : r.map (fun y => (F y, b2n (v y (wrB (F x) (v x s) s)))) = r.map (fun y => (F y, b2n (v y s))) :=
      List.map_congr_left fun y _ => by rw [hv x y _ _ h]
    exact (ih (regsWf_wr h _ _)).trans (congrArg (fun m => wrs m (wrB (F x) (v x s) s)) hRest)

/-- What PROF_ON shows of the coaches and of the Gig engine. -/
def profWrites (s : State) : List (Fld × Nat) :=
  allCoach.map (fun c => (CA_STATUS.PROF_ON c.val, b2n (domOn c.val s && profOn c s))) ++
    [(GG_STATUS.PROF_ON, b2n (domOn 16 s && rdB GG_CFG.PROF_EN s && !confidential s))]

/-- The fields that show PROF_ON. -/
def profFields : List Fld := GG_STATUS.PROF_ON :: allCoach.map (fun c => CA_STATUS.PROF_ON c.val)

theorem mem_profFields {s : State} {x : Fld × Nat} (h : x ∈ profWrites s) : x.1 ∈ profFields := by
  obtain hx | hx := List.mem_append.1 h
  · obtain ⟨c, hc, rfl⟩ := List.mem_map.1 hx
    exact List.mem_cons_of_mem _ (List.mem_map.2 ⟨c, hc, rfl⟩)
  · rw [List.mem_singleton.1 hx]
    exact List.mem_cons_self

theorem rd_wr_profOn {t : State} (h : t.regsWf = true) (c : Coach) (n : Nat) {f : Fld} (hf : ∀ g ∈ profFields, f.key ≠ g.key) :
    rd f (wr (CA_STATUS.PROF_ON c.val) n t) = rd f t :=
  rd_wr_ne h _ _ _ (hf _ (List.mem_cons_of_mem _ (List.mem_map.2 ⟨c, List.mem_finRange c, rfl⟩)))

theorem profEn_apart : ∀ c : Coach, ∀ g ∈ profFields, (CA_CFG.PROF_EN c.val).key ≠ g.key ∧ (PM_PWR_STATUS.ON c.val).key ≠ g.key := by decide

theorem gigProfEn_apart : ∀ g ∈ profFields, GG_CFG.PROF_EN.key ≠ g.key ∧ (PM_PWR_STATUS.ON 16).key ≠ g.key ∧ GL_STATUS.CONFIDENTIAL.key ≠ g.key := by decide

theorem showProf_eq {s : State} (h : s.regsWf = true) : showProf s = wrs (profWrites s) s := by
  have hConf (c : Coach) (n : Nat) {t : State} (w : t.regsWf = true) : confidential (wr (CA_STATUS.PROF_ON c.val) n t) = confidential t := by
    simp only [confidential, rdB, rd_wr_profOn w c n fun g hg => (gigProfEn_apart g hg).2.2]
  have hCoaches : each allCoach (fun c t => wrB (CA_STATUS.PROF_ON c.val) (domOn c.val t && profOn c t) t) s =
      wrs (allCoach.map fun c => (CA_STATUS.PROF_ON c.val, b2n (domOn c.val s && profOn c s))) s :=
    each_wrB_eq_wrs allCoach (fun c => CA_STATUS.PROF_ON c.val) (fun c t => domOn c.val t && profOn c t) (fun x y b t w => by
      simp only [domOn, profOn, rdB, wrB, hConf x _ w, rd_wr_profOn w x _ fun g hg => (profEn_apart y g hg).1,
        rd_wr_profOn w x _ fun g hg => (profEn_apart y g hg).2]) h
  have hKept {f : Fld} (hf : ∀ g ∈ profFields, f.key ≠ g.key) :
      rd f (wrs (allCoach.map fun c => (CA_STATUS.PROF_ON c.val, b2n (domOn c.val s && profOn c s))) s) = rd f s :=
    rd_wrs_ne _ h _ fun x hx => hf _ (mem_profFields (List.mem_append_left _ hx))
  rw [showProf, profWrites, wrs_append, hCoaches]
  generalize wrs (allCoach.map fun c => (CA_STATUS.PROF_ON c.val, b2n (domOn c.val s && profOn c s))) s = t at hKept
  simp only [domOn, confidential, rdB, hKept fun g hg => (gigProfEn_apart g hg).1, hKept fun g hg => (gigProfEn_apart g hg).2.1,
    hKept fun g hg => (gigProfEn_apart g hg).2.2, wrs, wrB]

theorem profWrites_nodup (s : State) : ((profWrites s).map (·.1.key)).Nodup := by
  have hKeys : (profWrites s).map (·.1.key) = allCoach.map (fun c => (CA_STATUS.PROF_ON c.val).key) ++ [GG_STATUS.PROF_ON.key] := by
    simp [profWrites, Function.comp_def]
  rw [hKeys]
  decide

theorem rd_showProf {s : State} (h : s.regsWf = true) {f : Fld} {v : Nat} (hx : (f, v) ∈ profWrites s) : rd f (showProf s) = v % 2 ^ f.width := by
  rw [showProf_eq h]
  exact rd_wrs_nodup (profWrites_nodup s) h hx

theorem rd_profOn_showProf {s : State} (h : s.regsWf = true) (c : Coach) :
    rd (CA_STATUS.PROF_ON c.val) (showProf s) = b2n (domOn c.val s && profOn c s) := by
  rw [rd_showProf h (List.mem_append_left _ (List.mem_map.2 ⟨c, List.mem_finRange c, rfl⟩))]
  exact b2n_mod_two _

theorem rd_gigProfOn_showProf {s : State} (h : s.regsWf = true) :
    rd GG_STATUS.PROF_ON (showProf s) = b2n (domOn 16 s && rdB GG_CFG.PROF_EN s && !confidential s) := by
  rw [rd_showProf h (List.mem_append_right _ (List.mem_singleton.2 rfl))]
  exact b2n_mod_two _

theorem Frame.showProf {u : Parts} {K : Nat → Bool} {s t : State} (hK : ∀ f ∈ profFields, K f.key = true) (h : Frame u K s t) : Frame u K s (showProf t) := by
  refine Frame.wrB _ _ (hK _ List.mem_cons_self) (Frame.each _ (fun c hc v hv => hv.wrB _ _ (hK _ ?_)) h)
  exact List.mem_cons_of_mem _ (List.mem_map.2 ⟨c, hc, rfl⟩)

end Sys2Proof.Machine

/-! SUPPORT. A host write of a register by the kinds of its fields (R14, R253, R254), and a write of PROF_EN (R115). -/

namespace Sys2Proof.Machine

/-- The write of one field can change that field alone, or make a value pending. -/
theorem Frame.writeField {u : Parts} {K : Nat → Bool} {s t : State} (hu : u.rwe = true) (a d : Nat) (x : FRow) (hK : K (Fld.key ⟨a, x.lo, x.width⟩) = true)
    (h : Frame u K s t) : Frame u K s (writeField a d x t) := by
  unfold Machine.writeField
  refine ite h ?_
  cases x.kind
  case rw => exact h.wr _ _ hK
  case rwl => exact ite h (h.wr _ _ hK)
  case rwe => exact h.rweUpd hu _
  case w1c => exact h.clearBits _ _ hK
  case ro => exact h
  case wo => exact h

/-- What a rejected write can change (R254). -/
theorem Frame.cfgReject {u : Parts} {K : Nat → Bool} {s t : State} (hu : u.pw = true) (hK : EvIn K) (hCount : K GL_CFG_REJECTS.COUNT.key = true)
    (hLast : K GL_CFG_REJECTS.LAST_BLOCK.key = true) (a : Nat) (h : Frame u K s t) : Frame u K s (cfgReject a t) :=
  ((h.inc _ hCount).wr _ _ hLast).raise hu hK 76

section
variable {s : State} (h : s.regsWf = true) (a : Nat)
include h

theorem regsWf_cfgReject : (cfgReject a s).regsWf = true := regsWf_raise (regsWf_wr (regsWf_inc h _) _ _) 76

theorem rd_count_cfgReject : rd GL_CFG_REJECTS.COUNT (cfgReject a s) = min (rd GL_CFG_REJECTS.COUNT s + 1) 65535 := by
  rw [cfgReject, rd_raise (regsWf_wr (regsWf_inc h _) _ _) _ (by decide), rd_wr_ne (regsWf_inc h _) _ _ _ (by decide), rd_inc_same h]
  rfl

theorem rd_lastBlock_cfgReject : rd GL_CFG_REJECTS.LAST_BLOCK (cfgReject a s) = a / 0x100000 % 16 := by
  rw [cfgReject, rd_raise (regsWf_wr (regsWf_inc h _) _ _) _ (by decide), rd_wr_same (regsWf_inc h _)]
  rfl

end

theorem out_settle (s : State) : (settle s).out = s.out := by rw [(settle_heard (Heard.refl s)).rest]

theorem rwe_settle (s : State) : (settle s).rwe = s.rwe := by rw [(settle_heard (Heard.refl s)).rest]

theorem regsWf_clearBits {s : State} (h : s.regsWf = true) (f : Fld) (m : Nat) : (clearBits f m s).regsWf = true := regsWf_wr h f _

theorem and_or_lt {x m y w : Nat} (h : x < 2 ^ w) : (x - (x &&& m) ||| (x &&& y)) < 2 ^ w :=
  Nat.or_lt_two_pow (Nat.lt_of_le_of_lt (Nat.sub_le _ _) h) (Nat.lt_of_le_of_lt Nat.and_le_left h)

/-- The value that a write makes pending is the last of its field. -/
theorem rweOf_rwePut (f : Fld) (v : Nat) (s : State) : rweOf f (rwePut f v s) = some (v % 2 ^ f.width) := by
  simp [rweOf, rwePut]

section
variable {s : State} {a d : Nat} {x : FRow} {r : RRow}

/-- The write of a register with one field: the field's write, a rejection where one is due, and the levels sampled anew. -/
theorem regWrite_single (hRow : rowOf a = some r) (hPair : r.pair = 0) (hField : r.fields = [x]) (hOwn : ownRow a = false) (hDg : a / 0x100000 ≠ 9) :
    regWrite a d s = settle (if decide (x.kind = .rwl) && ownerRuns a s then cfgReject a (writeField a d x s) else writeField a d x s) := by
  have hWindow : (a / 0x100000 == 9) = false := beq_eq_false_iff_ne.2 hDg
  simp [regWrite, hWindow, hRow, hPair, hField, hOwn, each]

theorem writeField_reached (hReach : hostReaches ⟨a, x.lo, x.width⟩ s = true) : writeField a d x s =
    match x.kind with
    | .rw => wr ⟨a, x.lo, x.width⟩ (storeLimit ⟨a, x.lo, x.width⟩ (bits d x.lo x.width)) s
    | .rwl => if ownerRuns a s then s else wr ⟨a, x.lo, x.width⟩ (storeLimit ⟨a, x.lo, x.width⟩ (bits d x.lo x.width)) s
    | .rwe => rwePut ⟨a, x.lo, x.width⟩ (storeLimit ⟨a, x.lo, x.width⟩ (bits d x.lo x.width)) s
    | .w1c => clearBits ⟨a, x.lo, x.width⟩ (storeLimit ⟨a, x.lo, x.width⟩ (bits d x.lo x.width)) s
    | .ro => s
    | .wo => s := by
  cases hKind : x.kind <;> simp [writeField, hReach, hKind]

end

/-- Of a register with one field: the write by its kind, as the first part of O8 states it. -/
theorem regWrite_byKind {s : State} {a : Nat} {d : Word} {sec : Bool} {r : RRow} {x : FRow} (h : s.served a sec) (hRow : rowOf a = some r)
    (hPair : r.pair = 0) (hField : r.fields = [x]) (hOwn : ownRow a = false) (hDg : a / 0x100000 ≠ 9)
    (hReach : hostReaches ⟨a, x.lo, x.width⟩ s = true) (hEv : evKey (Fld.key ⟨a, x.lo, x.width⟩) = false) {t : State}
    (ht : t = emit (.resp true 0 0) (regWrite a d.toNat s)) :
    t.out = .resp true 0 0 :: s.out ∧
      (x.kind = .rw → rd ⟨a, x.lo, x.width⟩ t = storeLimit ⟨a, x.lo, x.width⟩ (bits d.toNat x.lo x.width) % 2 ^ x.width ∧ s.keptEv [⟨a, x.lo, x.width⟩] t) ∧
      (x.kind = .ro → s.keptEv [] t) ∧
      (x.kind = .w1c → (rd ⟨a, x.lo, x.width⟩ s < 2 ^ x.width) →
        rd ⟨a, x.lo, x.width⟩ t = (rd ⟨a, x.lo, x.width⟩ s - (rd ⟨a, x.lo, x.width⟩ s &&& storeLimit ⟨a, x.lo, x.width⟩ (bits d.toNat x.lo x.width)) |||
          (rd ⟨a, x.lo, x.width⟩ s &&& rd (freshF ⟨a, x.lo, x.width⟩) s)) ∧
        s.keptEv [⟨a, x.lo, x.width⟩] t) ∧
      (x.kind = .rwe → rweOf ⟨a, x.lo, x.width⟩ t = some (storeLimit ⟨a, x.lo, x.width⟩ (bits d.toNat x.lo x.width) % 2 ^ x.width) ∧ s.keptEv [] t) ∧
      (x.kind = .rwl → ownerRuns a s = false →
        rd ⟨a, x.lo, x.width⟩ t = storeLimit ⟨a, x.lo, x.width⟩ (bits d.toNat x.lo x.width) % 2 ^ x.width ∧ s.keptEv [⟨a, x.lo, x.width⟩] t) ∧
      (x.kind = .rwl → ownerRuns a s = true →
        rd GL_CFG_REJECTS.COUNT t = min (rd GL_CFG_REJECTS.COUNT s + 1) 65535 ∧ rd GL_CFG_REJECTS.LAST_BLOCK t = a / 0x100000 % 16 ∧
        s.keptEv [GL_CFG_REJECTS.COUNT, GL_CFG_REJECTS.LAST_BLOCK] t) := by
  have hWf := h.1
  generalize hF : (⟨a, x.lo, x.width⟩ : Fld) = f at *
  have hWidth : f.width = x.width := by rw [← hF]
  generalize hV : storeLimit f (bits d.toNat x.lo x.width) = v
  have hWrite := writeField_reached (d := d.toNat) (hF ▸ hReach)
  rw [hF, hV] at hWrite
  have hReg : regWrite a d.toNat s = settle (if decide (x.kind = .rwl) && ownerRuns a s then cfgReject a (writeField a d.toNat x s) else writeField a d.toNat x s) :=
    regWrite_single hRow hPair hField hOwn hDg
  -- A register write after which the levels are sampled: its value and its frame.
  have hWr : rd f (emit (.resp true 0 0) (settle (wr f v s))) = v % 2 ^ x.width ∧ s.keptEv [f] (emit (.resp true 0 0) (settle (wr f v s))) := by
    refine ⟨by rw [rd_emit, rd_settle (regsWf_wr hWf _ _) hEv, rd_wr_same hWf, hWidth], ?_⟩
    exact (((Frame.refl { pw := true, out := true } (evOr [f]) s).wr f v (evOr_mem (by simp))).settle rfl (evIn_evOr _)).emit rfl _ |>.keptEv hWf
  have hIdle : s.keptEv [] (emit (.resp true 0 0) (settle s)) :=
    (((Frame.refl { pw := true, out := true } (evOr []) s).settle rfl (evIn_evOr _)).emit rfl _).keptEv hWf
  refine ⟨?_, fun hKind => ?_, fun hKind => ?_, fun hKind hLt => ?_, fun hKind => ?_, fun hKind hRuns => ?_, fun hKind hRuns => ?_⟩
  · have hFrame : Frame { rwe := true, pw := true } (fun _ => true) s (regWrite a d.toNat s) := by
      have hField := Frame.writeField (u := { rwe := true, pw := true }) (K := fun _ => true) rfl a d.toNat x rfl (Frame.refl _ _ s)
      rw [hReg]
      exact (Frame.ite (hField.cfgReject rfl (fun _ _ => rfl) rfl rfl a) hField).settle rfl (fun _ _ => rfl)
    rw [ht]
    exact congrArg _ (hFrame.out rfl)
  all_goals simp only [hKind, decide_true, Bool.true_and, reduceCtorEq, decide_false, Bool.false_and, Bool.false_eq_true, if_false, hWrite] at hReg
  · rw [ht, hReg]
    exact hWr
  · rw [ht, hReg]
    exact hIdle
  · rw [ht, hReg]
    refine ⟨?_, ?_⟩
    · rw [rd_emit, rd_settle (regsWf_clearBits hWf f v) hEv, rd_clearBits hWf]
      simp [hWidth, Nat.mod_eq_of_lt (and_or_lt hLt)]
    · exact (((Frame.refl { pw := true, out := true } (evOr [f]) s).clearBits f v (evOr_mem (by simp))).settle rfl (evIn_evOr _)).emit rfl _ |>.keptEv hWf
  · rw [ht, hReg]
    refine ⟨?_, ?_⟩
    · have hRwe : (emit (.resp true 0 0) (settle (rwePut f v s))).rwe = (rwePut f v s).rwe 
        := (emit_rwe _ _).trans (rwe_settle _)
      rw [rweOf, hRwe, ← hWidth]
      exact rweOf_rwePut f v s
    · exact (((Frame.refl { rwe := true, pw := true, out := true } (evOr []) s).rweUpd rfl _).settle rfl (evIn_evOr _)).emit rfl _ |>.keptEv hWf
  · simp only [hRuns, Bool.false_eq_true, if_false] at hReg
    rw [ht, hReg]
    exact hWr
  · simp only [hRuns, if_true] at hReg
    rw [ht, hReg]
    have hRejected := regsWf_cfgReject hWf a
    refine ⟨?_, ?_, ?_⟩
    · rw [rd_emit, rd_settle hRejected (by decide), rd_count_cfgReject hWf]
    · rw [rd_emit, rd_settle hRejected (by decide), rd_lastBlock_cfgReject hWf]
    · exact (((Frame.refl { pw := true, out := true } (evOr [GL_CFG_REJECTS.COUNT, GL_CFG_REJECTS.LAST_BLOCK]) s).cfgReject rfl (evIn_evOr _) (by decide) (by decide) a).settle rfl
        (evIn_evOr _)).emit rfl _ |>.keptEv hWf

end Sys2Proof.Machine

/-! SUPPORT. A write of PROF_EN, with the fault switches beside it, for a coach and for the Gig engine alike (R115, R118, R157, R158). -/

namespace Sys2Proof.Machine

/-- The fields of CA_Cn_CFG and of GG_CFG: PROF_EN, SAT_FAULT and NAN_FAULT (R118, R158). -/
def cfgFields : List FRow := [⟨0, 1, .rw, 1⟩, ⟨1, 1, .rwl, 0⟩, ⟨2, 1, .rwl, 0⟩]

/-- A register with these fields, whose owner's state is not one of them. -/
structure CfgReg (a : Nat) (r : RRow) : Prop where
  row : rowOf a = some r
  pair : r.pair = 0
  fields : r.fields = cfgFields
  low : 0x200000 ≤ a ∧ a < 0x400000
  owner : ∀ lo < 3, ∀ (v : Nat) (t : State), t.regsWf = true → ownerRuns a (wr ⟨a, lo, 1⟩ v t) = ownerRuns a t

theorem cfgReg_coach (c : Coach) : CfgReg (0x200004 + 0x10000 * c.val) ⟨0x200004, 0x10000, 16, 0, cfgFields⟩ where
  row := by revert c; decide
  pair := rfl
  fields := rfl
  low := by omega
  owner lo hlo v t w := by
    have hUnit : (0x200004 + 0x10000 * c.val) / 0x100000 = 2 := by omega
    have hCoach : (0x200004 + 0x10000 * c.val) / 0x10000 % 16 = c.val := by omega
    have hApart : (CA_STATUS.STATE c.val).key ≠ Fld.key ⟨0x200004 + 0x10000 * c.val, lo, 1⟩ := by
      simp only [Fld.key, CA_STATUS.STATE]
      omega
    simp only [ownerRuns, hUnit, hCoach, rd_wr_ne w _ _ _ hApart]

theorem cfgReg_gig : CfgReg 0x300004 ⟨0x300004, 4, 1, 0, cfgFields⟩ where
  row := by decide
  pair := rfl
  fields := rfl
  low := by decide
  owner lo hlo v t w := by
    have hApart : GG_STATUS.STATE.key ≠ Fld.key ⟨0x300004, lo, 1⟩ := by
      simp only [Fld.key, GG_STATUS.STATE]
      omega
    simp only [ownerRuns, Nat.reduceDiv, rd_wr_ne w _ _ _ hApart]

theorem bits_one (x i : Nat) : bits x i 1 = b2n (bit x i) := by
  simp only [bits, bit, b2n, Nat.pow_one]
  rcases Nat.mod_two_eq_zero_or_one (x / 2 ^ i) with h | h <;> simp [h]

/-- The limits of a field's own description are those of four registers of the Timetable. -/
theorem storeLimit_high {f : Fld} (h : 0x200000 ≤ f.addr) (v : Nat) : storeLimit f v = v := by
  have h1 : f.addr ≠ 0x100008 := by omega
  have h2 : f.addr ≠ 0x100028 := by omega
  have h3 : f.addr ≠ 0x10002C := by omega
  have h4 : f.addr ≠ 0x100034 := by omega
  simp [storeLimit, h1, h2, h3, h4]

/-- The latching of an event writes no field of the units' own windows. -/
theorem evKey_of_low {f : Fld} (hlo : f.lo < 64) (hLow : 0x100000 ≤ f.addr) (hHigh : f.addr < 0x700000) : evKey f.key = false := by
  have hDiv := key_div f hlo
  have hAddr : evAddr f.addr = false := by
    refine Bool.eq_false_iff.2 fun hEv => ?_
    simp only [evAddr, Bool.or_eq_true, Bool.and_eq_true, decide_eq_true_eq, beq_iff_eq] at hEv
    omega
  have hOwn : ownKey f.key = false := decide_eq_false (by omega)
  have hSleep : f.key ≠ PM_SLEEP.STATE.key := fun e => by rw [e] at hDiv; simp [Fld.key, PM_SLEEP.STATE] at hDiv; omega
  have hLife : f.key ≠ GL_STATUS.LIFECYCLE.key := fun e => by rw [e] at hDiv; simp [Fld.key, GL_STATUS.LIFECYCLE] at hDiv; omega
  simp [evKey, hDiv, hAddr, hOwn, hSleep, hLife]

section
variable {a : Nat} {r : RRow} {s : State} (hCfg : CfgReg a r) (h : s.regsWf = true) (d : Nat)
include hCfg h

/-- PROF_EN is written; the fault switches only while their unit is at rest, and their write is rejected once. -/
theorem regWrite_cfg : regWrite a d s = settle (
    if ownerRuns a s then cfgReject a (wr ⟨a, 0, 1⟩ (bits d 0 1) s)
    else wr ⟨a, 2, 1⟩ (bits d 2 1) (wr ⟨a, 1, 1⟩ (bits d 1 1) (wr ⟨a, 0, 1⟩ (bits d 0 1) s))) := by
  obtain ⟨hLow, hHigh⟩ := hCfg.low
  have hDg : (a / 0x100000 == 9) = false := beq_eq_false_iff_ne.2 (by omega)
  have hOwn : ownRow a = false := by
    simp only [ownRow, Bool.or_eq_false_iff, Bool.and_eq_false_iff, beq_eq_false_iff_ne, decide_eq_false_iff_not]
    omega
  have hReach (lo : Nat) (t : State) : hostReaches ⟨a, lo, 1⟩ t = true := hostReaches_low (show a < 0x700000 by omega) t
  have hLimit (lo v : Nat) : storeLimit ⟨a, lo, 1⟩ v = v := storeLimit_high hLow v
  have hOne := hCfg.owner 0 (by decide) (bits d 0 1) s h
  have hTwo := hCfg.owner 1 (by decide) (bits d 1 1) _ (regsWf_wr h ⟨a, 0, 1⟩ (bits d 0 1))
  cases hRuns : ownerRuns a s <;> simp only [hRuns] at hOne <;> simp only [hOne] at hTwo <;>
    simp [regWrite, hDg, hCfg.row, hCfg.pair, hCfg.fields, cfgFields, hOwn, each, writeField, hReach, hLimit, hRuns, hOne, hTwo]

theorem regWrite_cfg_frame {u : Parts} (hu : u.pw = true) {K : Nat → Bool} (hK : EvIn K) (hProf : K (Fld.key ⟨a, 0, 1⟩) = true)
    (hIdle : ownerRuns a s = false → K (Fld.key ⟨a, 1, 1⟩) = true ∧ K (Fld.key ⟨a, 2, 1⟩) = true)
    (hRuns : ownerRuns a s = true → K GL_CFG_REJECTS.COUNT.key = true ∧ K GL_CFG_REJECTS.LAST_BLOCK.key = true) :
    Frame u K s (regWrite a d s) := by
  rw [regWrite_cfg hCfg h]
  have hWritten := (Frame.refl u K s).wr ⟨a, 0, 1⟩ (bits d 0 1) hProf
  refine Frame.settle hu hK ?_
  split
  · next hOwner => exact hWritten.cfgReject hu hK (hRuns hOwner).1 (hRuns hOwner).2 a
  · next hOwner =>
    obtain ⟨hSat, hNan⟩ := hIdle (Bool.eq_false_iff.2 hOwner)
    exact (hWritten.wr _ _ hSat).wr _ _ hNan

/-- The fields that the write can change while the unit is at rest, and while it runs. -/
theorem regWrite_cfg_keptEv (r : Out) :
    (ownerRuns a s = false → s.keptEv ([⟨a, 0, 1⟩, ⟨a, 1, 1⟩, ⟨a, 2, 1⟩, GG_STATUS.PROF_ON] ++ allCoach.map (fun k => CA_STATUS.PROF_ON k.val)) (emit r (showProf (regWrite a d s)))) ∧
    (ownerRuns a s = true →
      s.keptEv ([⟨a, 0, 1⟩, GL_CFG_REJECTS.COUNT, GL_CFG_REJECTS.LAST_BLOCK, GG_STATUS.PROF_ON] ++ allCoach.map (fun k => CA_STATUS.PROF_ON k.val)) (emit r (showProf (regWrite a d s)))) := by
  refine ⟨fun hOwner => ?_, fun hOwner => ?_⟩
  · refine Frame.keptEv (u := { pw := true, out := true }) (Frame.emit rfl _ (Frame.showProf (fun f hf => evOr_mem (List.mem_append.2 ((List.mem_cons.1 hf).imp (fun e => by simp [e]) id))) ?_)) h
    exact regWrite_cfg_frame hCfg h d rfl (evIn_evOr _) (evOr_mem (by simp)) (fun _ => ⟨evOr_mem (by simp), evOr_mem (by simp)⟩)
      (fun hRuns => by simp [hOwner] at hRuns)
  · refine Frame.keptEv (u := { pw := true, out := true }) (Frame.emit rfl _ (Frame.showProf (fun f hf => evOr_mem (List.mem_append.2 ((List.mem_cons.1 hf).imp (fun e => by simp [e]) id))) ?_)) h
    exact regWrite_cfg_frame hCfg h d rfl (evIn_evOr _) (evOr_mem (by simp)) (fun hRuns => by simp [hOwner] at hRuns)
      (fun _ => ⟨evOr_mem (by simp), evOr_mem (by simp)⟩)

theorem out_regWrite_cfg (r : Out) : (emit r (showProf (regWrite a d s))).out = r :: s.out := by
  have hFrame := regWrite_cfg_frame (u := { pw := true }) (K := fun _ => true) hCfg h d rfl (fun _ _ => rfl) rfl (fun _ => ⟨rfl, rfl⟩) fun _ => ⟨rfl, rfl⟩
  exact congrArg (List.cons r) ((Frame.showProf (fun _ _ => rfl) hFrame).out rfl)

theorem rd_prof_regWrite : rd ⟨a, 0, 1⟩ (regWrite a d s) = bits d 0 1 := by
  have hWf := regsWf_wr h ⟨a, 0, 1⟩ (bits d 0 1)
  have hWritten : rd ⟨a, 0, 1⟩ (wr ⟨a, 0, 1⟩ (bits d 0 1) s) = bits d 0 1 := by
    rw [rd_wr_same h, bits_one]
    exact b2n_mod_two _
  obtain ⟨hLow, hHigh⟩ := hCfg.low
  have hEv : evKey (Fld.key ⟨a, 0, 1⟩) = false := evKey_of_low (show 0 < 64 by decide) (show 0x100000 ≤ a by omega) (show a < 0x700000 by omega)
  rw [regWrite_cfg hCfg h]
  split
  · have hCount : Fld.key ⟨a, 0, 1⟩ ≠ GL_CFG_REJECTS.COUNT.key := by simp only [Fld.key, GL_CFG_REJECTS.COUNT]; omega
    have hLast : Fld.key ⟨a, 0, 1⟩ ≠ GL_CFG_REJECTS.LAST_BLOCK.key := by simp only [Fld.key, GL_CFG_REJECTS.LAST_BLOCK]; omega
    rw [rd_settle (regsWf_cfgReject hWf a) hEv, cfgReject, rd_raise (regsWf_wr (regsWf_inc hWf _) _ _) _ hEv, rd_wr_ne (regsWf_inc hWf _) _ _ _ hLast,
      rd_inc_ne hWf _ _ hCount, hWritten]
  · have hSat : Fld.key ⟨a, 0, 1⟩ ≠ Fld.key ⟨a, 1, 1⟩ := by simp only [Fld.key]; omega
    have hNan : Fld.key ⟨a, 0, 1⟩ ≠ Fld.key ⟨a, 2, 1⟩ := by simp only [Fld.key]; omega
    rw [rd_settle (regsWf_wr (regsWf_wr hWf _ _) _ _) hEv, rd_wr_ne (regsWf_wr hWf _ _) _ _ _ hNan, rd_wr_ne hWf _ _ _ hSat, hWritten]

/-- All that the write can change, whether its unit runs or not. -/
theorem rd_regWrite_cfg_ne {f : Fld} (hf : ownKey f.key = false)
    (hK : evOr [⟨a, 0, 1⟩, ⟨a, 1, 1⟩, ⟨a, 2, 1⟩, GL_CFG_REJECTS.COUNT, GL_CFG_REJECTS.LAST_BLOCK] f.key = false) : rd f (regWrite a d s) = rd f s :=
  (regWrite_cfg_frame (u := { pw := true }) hCfg h d rfl (evIn_evOr _) (evOr_mem (by simp)) (fun _ => ⟨evOr_mem (by simp), evOr_mem (by simp)⟩)
    (fun _ => ⟨evOr_mem (by simp), evOr_mem (by simp)⟩)).regs h f hf hK

theorem rd_count_regWrite (hRuns : ownerRuns a s = true) :
    rd GL_CFG_REJECTS.COUNT (regWrite a d s) = min (rd GL_CFG_REJECTS.COUNT s + 1) 65535 := by
  have hWf := regsWf_wr h ⟨a, 0, 1⟩ (bits d 0 1)
  have hApart : GL_CFG_REJECTS.COUNT.key ≠ Fld.key ⟨a, 0, 1⟩ := by
    obtain ⟨hLow, hHigh⟩ := hCfg.low
    simp only [Fld.key, GL_CFG_REJECTS.COUNT]
    omega
  rw [regWrite_cfg hCfg h, if_pos hRuns, rd_settle (regsWf_cfgReject hWf a) (by decide), rd_count_cfgReject hWf, rd_wr_ne h _ _ _ hApart]

end

theorem bits_beq_one (d i : Nat) : (bits d i 1 == 1) = bit d i := by
  rw [bits_one]
  cases bit d i <;> rfl

/-- The unit's work, and so what it is counted in, leaves its state as it is. -/
theorem ownerRuns_coachSettle {s : State} (h : s.regsWf = true) (c : Coach) :
    ownerRuns (0x200004 + 0x10000 * c.val) (coachSettle c s) = ownerRuns (0x200004 + 0x10000 * c.val) s := by
  have hUnit : (0x200004 + 0x10000 * c.val) / 0x100000 = 2 := by omega
  have hCoach : (0x200004 + 0x10000 * c.val) / 0x10000 % 16 = c.val := by omega
  have hApart : ∀ c : Coach, ownKey (CA_STATUS.STATE c.val).key = false ∧ keysOf (workFields c) (CA_STATUS.STATE c.val).key = false := by decide
  simp only [ownerRuns, hUnit, hCoach, (coachSettle_frame c s).regs h _ (hApart c).1 (hApart c).2]

theorem coachSettle_kept : ∀ c : Coach, ∀ f ∈ [PM_PWR_STATUS.ON c.val, GL_STATUS.CONFIDENTIAL, GL_CFG_REJECTS.COUNT],
    ownKey f.key = false ∧ keysOf (workFields c) f.key = false := by decide

theorem rd_showProf_ne {s : State} (h : s.regsWf = true) {f : Fld} (hf : ∀ g ∈ profFields, f.key ≠ g.key) : rd f (showProf s) = rd f s := by
  rw [showProf_eq h]
  exact rd_wrs_ne _ h _ fun x hx => hf _ (mem_profFields hx)

theorem regsWf_regWrite {s : State} (h : s.regsWf = true) (a d : Nat) : (regWrite a d s).regsWf = true := (regWrite_sound a d (Sound.refl s)).wf h

theorem count_apart : ∀ g ∈ profFields, GL_CFG_REJECTS.COUNT.key ≠ g.key := by decide

/-- The unit of a served access is on. -/
theorem domOn_of_served {a d : Nat} {sec : Bool} {s : State} (h : s.served a sec) (hd : windowDom a = some d) : domOn d s = true := by
  obtain ⟨-, -, hCheck⟩ := h
  have hOpen : domOpen d s = true := by
    refine Classical.byContradiction fun hOff => ?_
    rw [Bool.not_eq_true] at hOff
    rw [hostCheck, hd] at hCheck
    simp only [hOff, Bool.not_false, if_true] at hCheck
    repeat
      split at hCheck
      · cases hCheck
    cases hCheck
  exact (Bool.and_eq_true_iff.1 hOpen).1

/-- What the fields of a coach's configuration and its PROF_ON depend on, apart from what their write can change. -/
theorem coachCfg_kept : ∀ c : Coach, ∀ f ∈ [PM_PWR_STATUS.ON c.val, GL_STATUS.CONFIDENTIAL], ownKey f.key = false ∧
    evOr [CA_CFG.PROF_EN c.val, CA_CFG.SAT_FAULT c.val, CA_CFG.NAN_FAULT c.val, GL_CFG_REJECTS.COUNT, GL_CFG_REJECTS.LAST_BLOCK] f.key = false := by decide

theorem gigCfg_kept : ∀ f ∈ [PM_PWR_STATUS.ON 16, GL_STATUS.CONFIDENTIAL], ownKey f.key = false ∧
    evOr [GG_CFG.PROF_EN, GG_CFG.SAT_FAULT, GG_CFG.NAN_FAULT, GL_CFG_REJECTS.COUNT, GL_CFG_REJECTS.LAST_BLOCK] f.key = false := by decide

/-- A coach's PROF_EN after a write of its configuration, as it is read and as PROF_ON shows it (R115, R117). -/
theorem coachProf_written {s : State} (h : s.regsWf = true) (c : Coach) (d : Nat) (hOn : domOn c.val s = true) :
    rd (CA_CFG.PROF_EN c.val) (showProf (regWrite (0x200004 + 0x10000 * c.val) d s)) = bits d 0 1 ∧
    rd (CA_STATUS.PROF_ON c.val) (showProf (regWrite (0x200004 + 0x10000 * c.val) d s)) = b2n (bit d 0 && !confidential s) := by
  have hWf := regsWf_regWrite h (0x200004 + 0x10000 * c.val) d
  have hProf : rd (CA_CFG.PROF_EN c.val) (regWrite (0x200004 + 0x10000 * c.val) d s) = bits d 0 1 := rd_prof_regWrite (cfgReg_coach c) h d
  have hKept (f : Fld) (hf : f ∈ [PM_PWR_STATUS.ON c.val, GL_STATUS.CONFIDENTIAL]) : rd f (regWrite (0x200004 + 0x10000 * c.val) d s) = rd f s :=
    rd_regWrite_cfg_ne (cfgReg_coach c) h d (coachCfg_kept c f hf).1 (coachCfg_kept c f hf).2
  refine ⟨(rd_showProf_ne hWf fun g hg => (profEn_apart c g hg).1).trans hProf, ?_⟩
  rw [rd_profOn_showProf hWf c]
  simp only [domOn, profOn, confidential, rdB, hProf, bits_beq_one, hKept _ List.mem_cons_self,
    hKept GL_STATUS.CONFIDENTIAL (by simp)] at hOn ⊢
  simp only [hOn, Bool.true_and]

/-- The Gig engine's (R157). -/
theorem gigProf_written {s : State} (h : s.regsWf = true) (d : Nat) (hOn : domOn 16 s = true) :
    rd GG_CFG.PROF_EN (showProf (regWrite 0x300004 d s)) = bits d 0 1 ∧
    rd GG_STATUS.PROF_ON (showProf (regWrite 0x300004 d s)) = b2n (bit d 0 && !confidential s) := by
  have hWf := regsWf_regWrite h 0x300004 d
  have hProf : rd GG_CFG.PROF_EN (regWrite 0x300004 d s) = bits d 0 1 := rd_prof_regWrite cfgReg_gig h d
  have hKept (f : Fld) (hf : f ∈ [PM_PWR_STATUS.ON 16, GL_STATUS.CONFIDENTIAL]) : rd f (regWrite 0x300004 d s) = rd f s :=
    rd_regWrite_cfg_ne cfgReg_gig h d (gigCfg_kept f hf).1 (gigCfg_kept f hf).2
  refine ⟨(rd_showProf_ne hWf fun g hg => (gigProfEn_apart g hg).1).trans hProf, ?_⟩
  rw [rd_gigProfOn_showProf hWf]
  simp only [domOn, confidential, rdB, hProf, bits_beq_one, hKept _ List.mem_cons_self, hKept GL_STATUS.CONFIDENTIAL (by simp)] at hOn ⊢
  simp only [hOn, Bool.true_and]

theorem settleAt_coach {s : State} (c : Coach) (hOn : domOn c.val s = true) : settleAt (0x200004 + 0x10000 * c.val) s = coachSettle c s := by
  have hUnit : (0x200004 + 0x10000 * c.val) / 0x100000 = 2 := by omega
  have hIndex : (0x200004 + 0x10000 * c.val) / 0x10000 % 16 = c.val := by omega
  simp only [settleAt, hUnit, hIndex, hOn, beq_self_eq_true, if_true]

theorem settleAt_gig {s : State} (hOn : domOn 16 s = true) : settleAt 0x300004 s = gigSettle s := by
  simp [settleAt, hOn]

theorem profAddr_coach (c : Coach) : profAddr (0x200004 + 0x10000 * c.val) = true ∧ windowDom (0x200004 + 0x10000 * c.val) = some c.val := by
  revert c
  decide

theorem ownerRuns_gigSettle {s : State} (h : s.regsWf = true) : ownerRuns 0x300004 (gigSettle s) = ownerRuns 0x300004 s := by
  simp only [ownerRuns, Nat.reduceDiv, (gigSettle_frame s).regs h GG_STATUS.STATE (by decide) (by decide)]

theorem coachProf_write {s : State} {c : Coach} {sec : Bool} (h : s.served (0x200004 + 0x10000 * c.val) sec) (d : Word) :
    ∃ t, exec (.regWrite (0x200004 + 0x10000 * c.val) d sec) s = .next t ∧ rd (CA_CFG.PROF_EN c.val) t = bits d.toNat 0 1 ∧
      rd (CA_STATUS.PROF_ON c.val) t = b2n (bit d.toNat 0 && !confidential s) ∧ t.out = .resp true 0 0 :: s.out ∧
      (ownerRuns (0x200004 + 0x10000 * c.val) s = false → (coachSettle c s).keptEv ([CA_CFG.PROF_EN c.val, CA_CFG.SAT_FAULT c.val, CA_CFG.NAN_FAULT c.val, GG_STATUS.PROF_ON] ++
        allCoach.map (fun k => CA_STATUS.PROF_ON k.val)) t) ∧
      (ownerRuns (0x200004 + 0x10000 * c.val) s = true → rd GL_CFG_REJECTS.COUNT t = min (rd GL_CFG_REJECTS.COUNT s + 1) 65535 ∧
        (coachSettle c s).keptEv ([CA_CFG.PROF_EN c.val, GL_CFG_REJECTS.COUNT, GL_CFG_REJECTS.LAST_BLOCK, GG_STATUS.PROF_ON] ++
          allCoach.map (fun k => CA_STATUS.PROF_ON k.val)) t) := by
  have hOn := domOn_of_served h (profAddr_coach c).2
  have hFrame := coachSettle_frame c s
  have hKept (f : Fld) (hf : f ∈ [PM_PWR_STATUS.ON c.val, GL_STATUS.CONFIDENTIAL, GL_CFG_REJECTS.COUNT]) : rd f (coachSettle c s) = rd f s :=
    hFrame.regs h.1 f (coachSettle_kept c f hf).1 (coachSettle_kept c f hf).2
  have hOnSettled : domOn c.val (coachSettle c s) = true := by rw [domOn, rdB, hKept _ List.mem_cons_self]; exact hOn
  have hConf : confidential (coachSettle c s) = confidential s := by rw [confidential, confidential, rdB, rdB, hKept _ (by simp)]
  have hCount := hKept GL_CFG_REJECTS.COUNT (by simp)
  have hOut : (coachSettle c s).out = s.out := hFrame.out rfl
  have hOwner := ownerRuns_coachSettle h.1 c
  have hExec := execRegWrite_prof h d (profAddr_coach c).1
  rw [settleAt_coach c hOn] at hExec
  have hWf := hFrame.wf h.1
  rw [← hConf, ← hCount, ← hOut, ← hOwner]
  generalize coachSettle c s = v at *
  obtain ⟨hEn, hShown⟩ := coachProf_written hWf c d.toNat hOnSettled
  obtain ⟨hIdle, hRuns⟩ := regWrite_cfg_keptEv (cfgReg_coach c) hWf d.toNat (.resp true 0 0)
  refine ⟨_, hExec, (rd_emit _ _ _).trans hEn, (rd_emit _ _ _).trans hShown, out_regWrite_cfg (cfgReg_coach c) hWf d.toNat _, hIdle, fun hOwn => ⟨?_, hRuns hOwn⟩⟩
  rw [rd_emit, rd_showProf_ne (regsWf_regWrite hWf _ _) count_apart, rd_count_regWrite (cfgReg_coach c) hWf _ hOwn]

theorem gigProf_write {s : State} {sec : Bool} (h : s.served 0x300004 sec) (d : Word) :
    ∃ t, exec (.regWrite 0x300004 d sec) s = .next t ∧ rd GG_CFG.PROF_EN t = bits d.toNat 0 1 ∧
      rd GG_STATUS.PROF_ON t = b2n (bit d.toNat 0 && !confidential s) ∧ t.out = .resp true 0 0 :: s.out ∧
      (ownerRuns 0x300004 s = false → (gigSettle s).keptEv ([GG_CFG.PROF_EN, GG_CFG.SAT_FAULT, GG_CFG.NAN_FAULT, GG_STATUS.PROF_ON] ++
        allCoach.map (fun k => CA_STATUS.PROF_ON k.val)) t) ∧
      (ownerRuns 0x300004 s = true → rd GL_CFG_REJECTS.COUNT t = min (rd GL_CFG_REJECTS.COUNT s + 1) 65535 ∧
        (gigSettle s).keptEv ([GG_CFG.PROF_EN, GL_CFG_REJECTS.COUNT, GL_CFG_REJECTS.LAST_BLOCK, GG_STATUS.PROF_ON] ++ allCoach.map (fun k => CA_STATUS.PROF_ON k.val)) t) := by
  have hOn : domOn 16 s = true := domOn_of_served h (by decide)
  have hFrame := gigSettle_frame s
  have hOnSettled : domOn 16 (gigSettle s) = true := by rw [domOn, rdB, hFrame.regs h.1 (PM_PWR_STATUS.ON 16) (by decide) (by decide)]; exact hOn
  have hConf : confidential (gigSettle s) = confidential s := by
    rw [confidential, confidential, rdB, rdB, hFrame.regs h.1 GL_STATUS.CONFIDENTIAL (by decide) (by decide)]
  have hCount : rd GL_CFG_REJECTS.COUNT (gigSettle s) = rd GL_CFG_REJECTS.COUNT s := hFrame.regs h.1 _ (by decide) (by decide)
  have hOut : (gigSettle s).out = s.out := hFrame.out rfl
  have hOwner := ownerRuns_gigSettle h.1
  have hExec := execRegWrite_prof h d (by decide)
  rw [settleAt_gig hOn] at hExec
  have hWf := hFrame.wf h.1
  rw [← hConf, ← hCount, ← hOut, ← hOwner]
  generalize gigSettle s = v at *
  obtain ⟨hEn, hShown⟩ := gigProf_written hWf d.toNat hOnSettled
  obtain ⟨hIdle, hRuns⟩ := regWrite_cfg_keptEv cfgReg_gig hWf d.toNat (.resp true 0 0)
  refine ⟨_, hExec, (rd_emit _ _ _).trans hEn, (rd_emit _ _ _).trans hShown, out_regWrite_cfg cfgReg_gig hWf d.toNat _, hIdle, fun hOwn => ⟨?_, hRuns hOwn⟩⟩
  rw [rd_emit, rd_showProf_ne (regsWf_regWrite hWf _ _) count_apart, rd_count_regWrite cfgReg_gig hWf _ hOwn]

/-- Settles O8: the write of one field by its kind, and the write of PROF_EN on the unit brought up to the present cycle. -/
theorem registerWriteFollowsTheFieldsKind : Obligations.RegisterWriteFollowsTheFieldsKind := by
  unfold Obligations.RegisterWriteFollowsTheFieldsKind
  refine ⟨fun s a d sec r x h hRow hPair hField hOwn hProf hDg hReach hEv => ?_, fun s c d sec h => coachProf_write h d, fun s d sec h => gigProf_write h d⟩
  exact ⟨_, execRegWrite_served h d hProf, regWrite_byKind h hRow hPair hField hOwn hDg hReach hEv rfl⟩

end Sys2Proof.Machine

/-! SUPPORT. Accepted counts of the encoder (R40 to R44, R63), and O12. -/

namespace Sys2Proof.Machine

/-- Nothing goes out that the Timetable keeps back, or the Timetable keeps it back still. -/
theorem thenResume_eq {f : State → State} {s : State} (h : withheld s = true → withheld (f s) = true) : thenResume f s = f s := by
  have hNot : (withheld s && !withheld (f s)) = false := by
    cases hw : withheld s with
    | false => rfl
    | true => rw [h hw]; rfl
  simp only [thenResume, hNot, Bool.false_eq_true, if_false]

/-- Accepted levels change the Timetable's own state alone: the levels, and the cycles in which they changed. -/
theorem encTaken_eq (a b : Bool) (s : State) :
    encTaken a b s = { s with tt := { s.tt with levelAt := (encTaken a b s).tt.levelAt, encA := a, encB := b } } := by
  cases ha : a != s.tt.encA <;> cases hb : b != s.tt.encB <;> simp only [encTaken, when_, ha, hb] <;> rfl

/-- What the Timetable keeps beside the levels stays. -/
theorem encTaken_kept (a b : Bool) (s : State) : (encTaken a b s).tt.acc = s.tt.acc ∧ (encTaken a b s).tt.zNet = s.tt.zNet ∧
    (encTaken a b s).tt.bounds = s.tt.bounds ∧ (encTaken a b s).tt.illegal = s.tt.illegal ∧ (encTaken a b s).tt.spikes = s.tt.spikes := by
  rw [encTaken_eq]
  exact ⟨rfl, rfl, rfl, rfl, rfl⟩

/-- The Timetable's own state is all that the levels touch. -/
theorem encTaken_withTt (a b : Bool) (s : State) (x : TtSt) : { encTaken a b s with tt := x } = { s with tt := x } := by
  rw [encTaken_eq]

theorem encTaken_same (s : State) : encTaken s.tt.encA s.tt.encB s = s := by
  simp only [encTaken, when_, bne_self_eq_false, Bool.false_eq_true, if_false]

@[simp] theorem rd_encTaken (f : Fld) (a b : Bool) (s : State) : rd f (encTaken a b s) = rd f s := by
  rw [encTaken_eq]
  rfl

@[simp] theorem withheld_encTaken (a b : Bool) (s : State) : withheld (encTaken a b s) = withheld s := by
  simp only [withheld, ttState, rd_encTaken]

theorem execEncEdge_enabled {s : State} {a b : Bool} (hDom : domOpen 17 s = true) (hEn : rdB TT_CTRL.ENABLE s = true) :
    exec (.encEdge a b) s = .next (thenResume
      (encCount (decodeEdge (rd TT_ENC_CFG.MODE s) s.tt.encA s.tt.encB (filtered a b s).1 (filtered a b s).2))
      (encTaken (filtered a b s).1 (filtered a b s).2 s)) := by
  change execEncEdge a b s = _
  have hEn' : rdB TT_CTRL.ENABLE (encTaken (filtered a b s).1 (filtered a b s).2 s) = true := by simpa only [rdB, rd_encTaken] using hEn
  simp only [execEncEdge, hDom, hEn', Bool.not_true, Bool.false_eq_true, if_false]

theorem decodeEdge_same (m : Nat) (a b : Bool) : decodeEdge m a b a b = none := by
  cases a <;> cases b <;> simp [decodeEdge]

theorem encCount_encTaken (f a b : Bool) (s : State) :
    encCount (some (some f)) (encTaken a b s) = count (f != rdB TT_ENC_CFG.INV_DIR s) (encTaken a b s) := by
  simp only [encCount, rdB, rd_encTaken]

/-- A count that crosses no boundary. -/
theorem count_forward {s : State} (h : s.tt.acc + rd TT_STEP.STEP s < 0x1000000) :
    count true s = { s with tt := { s.tt with zNet := s.tt.zNet + 1, acc := s.tt.acc + rd TT_STEP.STEP s } } :=
  if_neg (Nat.not_le.2 h)

theorem count_backward {s : State} (h : rd TT_STEP.STEP s ≤ s.tt.acc) :
    count false s = { s with tt := { s.tt with zNet := s.tt.zNet - 1, acc := s.tt.acc - rd TT_STEP.STEP s } } :=
  if_neg (Nat.not_lt.2 h)

/-- Fewer than 16 events of a kind in the window: no fault (R63). -/
theorem windowCheck_few {s : State} (hIllegal : (inWindow s.tt.bounds s.tt.illegal).length < 16) (hSpikes : (inWindow s.tt.bounds s.tt.spikes).length < 16) :
    windowCheck s = s := by
  simp only [windowCheck, Nat.not_le.2 hIllegal, Nat.not_le.2 hSpikes, if_false, ite_self]

theorem inWindow_inWindow (n : Nat) (l : List Nat) : inWindow n (inWindow n l) = inWindow n l := by
  simp [inWindow, List.filter_filter]

theorem length_inWindow_cons (n : Nat) (l : List Nat) : (inWindow n (n :: inWindow n l)).length ≤ (inWindow n l).length + 1 := by
  rw [inWindow, List.filter_cons, if_pos (by simp)]
  exact Nat.succ_le_succ (List.length_filter_le _ _)

/-- An illegal transition, of which the window then still holds fewer than 16. -/
theorem encCount_illegal {s : State} (hIllegal : (inWindow s.tt.bounds s.tt.illegal).length < 15) (hSpikes : (inWindow s.tt.bounds s.tt.spikes).length < 16) :
    encCount (some none) s =
      { inc TT_ENC_ERR.ILLEGAL s with tt := { s.tt with illegal := s.tt.bounds :: inWindow s.tt.bounds s.tt.illegal, cleanLines := 0 } } :=
  windowCheck_few (Nat.lt_of_le_of_lt (length_inWindow_cons _ _) (Nat.succ_lt_succ hIllegal)) hSpikes

/-- An input's filter lets a changed level through when it has held for its time (R40). -/
theorem filtered_fst_iff {s : State} {a b : Bool} {t : Nat} (ha : a ≠ s.tt.encA) (ht : s.tt.levelAt[PressIn.encA.idx] = some t) :
    (filtered a b s).1 = a ↔ t + 8 * (rd TT_ENC_CFG.FILTER s + 1) ≤ s.now := by
  simp [filtered, inputHeld, filterTime, ht, ha, ha.symm]

theorem filtered_snd_iff {s : State} {a b : Bool} {t : Nat} (hb : b ≠ s.tt.encB) (ht : s.tt.levelAt[PressIn.encB.idx] = some t) :
    (filtered a b s).2 = b ↔ t + 8 * (rd TT_ENC_CFG.FILTER s + 1) ≤ s.now := by
  simp [filtered, inputHeld, filterTime, ht, hb, hb.symm]

theorem encTaken_levelA {s : State} {a b : Bool} (ha : a ≠ s.tt.encA) : (encTaken a b s).tt.levelAt[PressIn.encA.idx] = some s.now := by
  cases hb : b != s.tt.encB <;> simp [encTaken, when_, ha, hb, inputTaken, PressIn.idx]

theorem encTaken_levelB {s : State} {a b : Bool} (hb : b ≠ s.tt.encB) : (encTaken a b s).tt.levelAt[PressIn.encB.idx] = some s.now := by
  cases ha : a != s.tt.encA <;> simp [encTaken, when_, ha, hb, inputTaken, PressIn.idx]

/-- Settles O12: the divider takes the count that the accepted levels decode to. -/
theorem encoderCountsStepTheDivider : Obligations.EncoderCountsStepTheDivider := by
  unfold Obligations.EncoderCountsStepTheDivider
  rintro s a b f l hWf hDom hEn rfl
  have hExec := execEncEdge_enabled (a := a) (b := b) hDom hEn
  have hTaken := encTaken_eq (filtered a b s).1 (filtered a b s).2 s
  generalize hl : filtered a b s = l at hExec ⊢
  obtain ⟨hAccKept, hNetKept, hBounds, hIllKept, hSpkKept⟩ := encTaken_kept l.1 l.2 s
  refine ⟨fun hDec hDir hAcc => ?fwd, fun hDec hDir hAcc => ?bwd, fun hDec hIll hSpk => ?illegal, fun hSame => ?same,
    fun t ha ht => hl ▸ filtered_fst_iff ha ht, fun t hb ht => hl ▸ filtered_snd_iff hb ht, fun ha => encTaken_levelA ha, fun hb => encTaken_levelB hb⟩
  case fwd =>
    have hCount : encCount (some (some f)) (encTaken l.1 l.2 s) = count true (encTaken l.1 l.2 s) := by
      rw [encCount_encTaken, bne_iff_ne.2 hDir]
    have hFwd := count_forward (s := encTaken l.1 l.2 s) (by rwa [hAccKept, rd_encTaken])
    rw [hAccKept, hNetKept, rd_encTaken, encTaken_withTt] at hFwd
    rw [hExec, hDec, thenResume_eq (by rw [withheld_encTaken, hCount, hFwd]; exact id), hCount, hFwd]
  case bwd =>
    have hCount : encCount (some (some f)) (encTaken l.1 l.2 s) = count false (encTaken l.1 l.2 s) := by
      rw [encCount_encTaken, bne_eq_false_iff_eq.2 hDir]
    have hBwd := count_backward (s := encTaken l.1 l.2 s) (by rwa [hAccKept, rd_encTaken])
    rw [hAccKept, hNetKept, rd_encTaken, encTaken_withTt] at hBwd
    rw [hExec, hDec, thenResume_eq (by rw [withheld_encTaken, hCount, hBwd]; exact id), hCount, hBwd]
  case illegal =>
    have hWfTaken : (encTaken l.1 l.2 s).regsWf = true := by rw [encTaken_eq]; exact hWf
    have hCount := encCount_illegal (s := encTaken l.1 l.2 s) (by rwa [hBounds, hIllKept]) (by rwa [hBounds, hSpkKept])
    have hHeld : withheld (inc TT_ENC_ERR.ILLEGAL (encTaken l.1 l.2 s)) = withheld s := by
      simp only [withheld, ttState, rd_inc_ne hWfTaken TT_STATUS.STATE TT_ENC_ERR.ILLEGAL (by decide),
        rd_inc_ne hWfTaken TT_BACK.LINES TT_ENC_ERR.ILLEGAL (by decide), rd_encTaken]
    rw [hBounds, hIllKept] at hCount
    rw [hExec, hDec, thenResume_eq (by rw [withheld_encTaken, hCount]; exact fun h => hHeld.trans h), hCount]
    refine ⟨_, rfl, ?_, fun g _ hg => ?_, ?_⟩
    · exact (rd_inc_same hWfTaken _).trans (by rw [rd_encTaken]; rfl)
    · exact (rd_inc_ne hWfTaken _ _ (hg _ List.mem_cons_self)).trans (rd_encTaken _ _ _ _)
    · rw [encTaken_eq]
      rfl
  case same =>
    rw [hExec, hSame, decodeEdge_same, thenResume_eq id]
    exact congrArg Host.Outcome.next (encTaken_same s)

end Sys2Proof.Machine

/-! SUPPORT. What the motion states can change (R45 to R65), and O13. -/

namespace Sys2Proof.Machine

@[simp] theorem tt_raise (n : Nat) (s : State) : (raise n s).tt = s.tt := by rw [(raise_heard n (Heard.refl s)).rest]

@[simp] theorem tt_notice (c f x : Nat) (p : List Nat) (s : State) : (notice c f x p s).tt = s.tt := by rw [(notice_told c f x p (Told.refl s)).rest]

/-- The units that a change of the motion state can reach. -/
structure TtParts (u : Parts) : Prop where
  pw : u.pw = true
  tt : u.tt = true
  ctx : u.ctx = true
  ctxs : ∀ n, u.ctxs n = true

/-- The fields that a change of the motion state writes. -/
structure TtKeys (K : Nat → Bool) : Prop where
  ev : EvIn K
  state : K TT_STATUS.STATE.key = true
  lps : K TT_RATE.LPS.key = true

namespace Frame
variable {u : Parts} {K : Nat → Bool} {s t : State}

theorem spoilRows (hu : u.ctx = true) (hn : ∀ n, u.ctxs n = true) (h : Frame u K s t) : Frame u K s (spoilRows t) :=
  Frame.each _ (fun n _ _ hv => hv.modCx hu n (hn n) _) h

theorem showRate (hK : K TT_RATE.LPS.key = true) (h : Frame u K s t) : Frame u K s (showRate t) := h.wr _ _ hK

theorem ttEnter (hu : TtParts u) (hK : TtKeys K) (st : Nat) (h : Frame u K s t) : Frame u K s (ttEnter st t) := by
  unfold Machine.ttEnter
  have hWritten := h.wr TT_STATUS.STATE st hK.state
  refine ite h (Frame.raise hu.pw hK.ev 25 (Frame.showRate hK.lps (Frame.ttUpd hu.tt _ ?_)))
  exact ite (hWritten.spoilRows hu.ctx hu.ctxs) hWritten

end Frame

/-- What a line boundary writes besides, but for the line counter and TT_BACK: the rate and its faults (R50, R62, R63). -/
structure LineKeys (K : Nat → Bool) : Prop extends TtKeys K where
  msg : MsgIn K
  cause : K TT_STATUS.CAUSE.key = true
  overspeed : K TT_STATUS.OVERSPEED.key = true
  spike : K TT_ENC_ERR.SPIKE.key = true
  period : K TT_PERIOD.PERIOD.key = true

namespace Frame
variable {u : Parts} {K : Nat → Bool} {s t : State}

section
variable (hu : TtParts u) (hMb : u.mb = true) (hK : LineKeys K)
include hu hMb hK

theorem encoderFault (n : Nat) (h : Frame u K s t) : Frame u K s (encoderFault n t) :=
  Frame.notice hu.pw hMb hK.msg _ _ _ _ (h.raise hu.pw hK.ev _)

theorem ttFault (n : Nat) (h : Frame u K s t) : Frame u K s (ttFault n t) :=
  Frame.encoderFault hu hMb hK n ((h.ttEnter hu hK.toTtKeys 6).wr _ _ hK.cause)

theorem windowCheck (h : Frame u K s t) : Frame u K s (windowCheck t) :=
  ite h (ite (h.ttFault hu hMb hK 1) (ite (h.ttFault hu hMb hK 2) h))

theorem overspeedLine (h : Frame u K s t) : Frame u K s (overspeedLine t) := by
  unfold Machine.overspeedLine
  refine ite (ite ?_ (h.ttUpd hu.tt _)) (ite ((h.ttUpd hu.tt _).wr _ _ hK.overspeed) (h.ttUpd hu.tt _))
  exact Frame.notice hu.pw hMb hK.msg _ _ _ _ (((h.ttUpd hu.tt _).wr _ _ hK.overspeed).raise hu.pw hK.ev 26)

end

theorem rateMeasure (hu : u.tt = true) (hLps : K TT_RATE.LPS.key = true) (hSpike : K TT_ENC_ERR.SPIKE.key = true) (hPeriod : K TT_PERIOD.PERIOD.key = true)
    (h : Frame u K s t) : Frame u K s (rateMeasure t) := by
  unfold Machine.rateMeasure
  dsimp only
  split
  · exact (h.ttUpd hu _).ttUpd hu _
  · refine Frame.showRate hLps (ite (Frame.wr _ _ hPeriod ?_) ?_) <;>
      exact Frame.ttUpd hu _ (ite (((h.ttUpd hu _).inc _ hSpike).ttUpd hu _) (h.ttUpd hu _))

end Frame

/-- What a counted line does once TT_LINE has taken its value: the states that depend on the rate, and the clean lines of FAULT (R48, R64). -/
def lineStates (s : State) : State :=
  match ttState s with
  | 1 => if rateFull s < 500 then ttEnter 2 s else s
  | 2 =>
    let k := if 550 ≤ rateFull s then s.tt.fastLines + 1 else 0
    if 256 ≤ k then ttEnter 1 s else { s with tt := { s.tt with fastLines := k } }
  | 6 => { s with tt := { s.tt with cleanLines := s.tt.cleanLines + 1 } }
  | _ => s

theorem countLine_eq (s : State) : countLine s = lineStates (overspeedLine (wr TT_LINE.LINE ((ttLine s + 1) % 2 ^ 48) s)) := rfl

theorem Frame.lineStates {u : Parts} {K : Nat → Bool} {s t : State} (hu : TtParts u) (hK : TtKeys K) (h : Frame u K s t) : Frame u K s (lineStates t) := by
  unfold Machine.lineStates
  split
  · exact ite (h.ttEnter hu hK 2) h
  · exact ite (h.ttEnter hu hK 1) (h.ttUpd hu.tt _)
  · exact h.ttUpd hu.tt _
  · exact h

@[simp] theorem tt_spoilRows (s : State) : (spoilRows s).tt = s.tt :=
  (Frame.spoilRows (u := { ctx := true, ctxs := fun _ => true }) rfl (fun _ => rfl) (Frame.refl _ (fun _ => true) s)).tt rfl

@[simp] theorem tt_showRate (s : State) : (showRate s).tt = s.tt := rfl

@[simp] theorem divider_ttEnter (st : Nat) (s : State) : (ttEnter st s).tt.acc = s.tt.acc ∧ (ttEnter st s).tt.stamp = s.tt.stamp := by
  unfold ttEnter
  dsimp only
  repeat' split
  all_goals simp

@[simp] theorem divider_overspeedLine (s : State) : (overspeedLine s).tt.acc = s.tt.acc ∧ (overspeedLine s).tt.stamp = s.tt.stamp := by
  unfold overspeedLine
  dsimp only
  repeat' split
  all_goals simp

@[simp] theorem divider_lineStates (s : State) : (lineStates s).tt.acc = s.tt.acc ∧ (lineStates s).tt.stamp = s.tt.stamp := by
  unfold lineStates
  split
  · split <;> simp
  · dsimp only
    repeat' split
    all_goals simp
  · exact ⟨rfl, rfl⟩
  · exact ⟨rfl, rfl⟩

@[simp] theorem divider_rateMeasure (s : State) : (rateMeasure s).tt.acc = s.tt.acc ∧ (rateMeasure s).tt.stamp = s.tt.stamp := by
  unfold rateMeasure
  dsimp only
  split
  · exact ⟨rfl, rfl⟩
  · repeat' split
    all_goals simp

@[simp] theorem divider_windowCheck (s : State) : (windowCheck s).tt.acc = s.tt.acc ∧ (windowCheck s).tt.stamp = s.tt.stamp := by
  unfold windowCheck
  repeat' split
  all_goals simp [ttFault, encoderFault]

/-- The fields that a line boundary writes beside the line counter and TT_BACK. -/
def lineFields : List Fld := [TT_STATUS.STATE, TT_RATE.LPS, TT_STATUS.CAUSE, TT_STATUS.OVERSPEED, TT_ENC_ERR.SPIKE, TT_PERIOD.PERIOD]

theorem lineKeys {K : Nat → Bool} (hMsg : MsgIn K) (h : ∀ f ∈ lineFields, K f.key = true) : LineKeys K where
  ev := hMsg.ev
  state := h _ (by simp [lineFields])
  lps := h _ (by simp [lineFields])
  msg := hMsg
  cause := h _ (by simp [lineFields])
  overspeed := h _ (by simp [lineFields])
  spike := h _ (by simp [lineFields])
  period := h _ (by simp [lineFields])

theorem lineKeys_msgOr : LineKeys (msgOr lineFields) := lineKeys (msgIn_msgOr _) fun _ => msgOr_mem

/-- The units that a line boundary can reach while nothing is kept back. -/
def lineParts : Parts := { pw := true, mb := true, tt := true, ctx := true, ctxs := fun _ => true }

theorem ttParts_line : TtParts lineParts := ⟨rfl, rfl, rfl, fun _ => rfl⟩

/-- TT_LINE takes the next value and keeps it, whatever else the counted line does. -/
theorem countLine_frame (s : State) : Frame lineParts (msgOr lineFields) (wr TT_LINE.LINE ((ttLine s + 1) % 2 ^ 48) s) (countLine s) := by
  rw [countLine_eq]
  exact ((Frame.refl _ _ _).overspeedLine ttParts_line rfl lineKeys_msgOr).lineStates ttParts_line lineKeys_msgOr.toTtKeys

@[simp] theorem divider_countLine (s : State) : (countLine s).tt.acc = s.tt.acc ∧ (countLine s).tt.stamp = s.tt.stamp := by
  simp [countLine_eq]

theorem rateMeasure_frame (s : State) : Frame lineParts (keysOf [TT_RATE.LPS, TT_ENC_ERR.SPIKE, TT_PERIOD.PERIOD]) s (rateMeasure s) :=
  (Frame.refl _ _ _).rateMeasure rfl (by decide) (by decide) (by decide)

theorem boundaryForward_counts {s : State} (h : ttState s = 1 ∨ ttState s = 2) : boundaryForward s = countLine s := by
  obtain h | h := h <;> simp only [boundaryForward, h]

/-- A boundary forward in RUN or CRAWL. -/
theorem boundary_counts {s : State} (h : s.regsWf = true) (hState : ttState s = 1 ∨ ttState s = 2) :
    boundary true s = windowCheck (showRate (countLine (rateMeasure s))) := by
  have hSame : ttState (rateMeasure s) = ttState s := (rateMeasure_frame s).regs h _ (by decide) (by decide)
  rw [boundary, if_pos rfl, boundaryForward_counts (hSame ▸ hState)]

theorem boundary_frame {s : State} (h : s.regsWf = true) (hState : ttState s = 1 ∨ ttState s = 2) :
    Frame lineParts (msgOr (TT_LINE.LINE :: lineFields)) s (boundary true s) := by
  have hKeys : LineKeys (msgOr (TT_LINE.LINE :: lineFields)) := lineKeys (msgIn_msgOr _) fun f hf => msgOr_mem (List.mem_cons_of_mem _ hf)
  rw [boundary_counts h hState, countLine_eq]
  have hMeasured := (Frame.refl lineParts _ s).rateMeasure rfl hKeys.lps hKeys.spike hKeys.period
  have hOver := (hMeasured.wr TT_LINE.LINE ((ttLine (rateMeasure s) + 1) % 2 ^ 48) (msgOr_mem List.mem_cons_self)).overspeedLine ttParts_line rfl hKeys
  exact ((hOver.lineStates ttParts_line hKeys.toTtKeys).showRate hKeys.lps).windowCheck ttParts_line rfl hKeys

theorem rd_line_boundary {s : State} (h : s.regsWf = true) (hState : ttState s = 1 ∨ ttState s = 2) :
    rd TT_LINE.LINE (boundary true s) = (rd TT_LINE.LINE s + 1) % 2 ^ 48 := by
  have hMeasured := rateMeasure_frame s
  have hCounted := countLine_frame (rateMeasure s)
  have hLine : ttLine (rateMeasure s) = ttLine s := hMeasured.regs h _ (by decide) (by decide)
  have hWf := regsWf_wr (hMeasured.wf h) TT_LINE.LINE ((ttLine (rateMeasure s) + 1) % 2 ^ 48)
  have hTail := (hCounted.showRate lineKeys_msgOr.lps).windowCheck ttParts_line rfl lineKeys_msgOr
  rw [boundary_counts h hState, hTail.regs hWf _ (by decide) (by decide), rd_wr_same (hMeasured.wf h), hLine]
  exact Nat.mod_mod _ _

theorem divider_boundary {s : State} (h : s.regsWf = true) (hState : ttState s = 1 ∨ ttState s = 2) :
    (boundary true s).tt.acc = s.tt.acc ∧ (boundary true s).tt.stamp = s.tt.stamp := by
  simp [boundary_counts h hState]

/-- A count that crosses a boundary forward leaves the remainder in the divider. -/
theorem count_boundary {s : State} {rest : Nat} (h : 0x1000000 ≤ s.tt.acc + rd TT_STEP.STEP s) (hRest : s.tt.acc + rd TT_STEP.STEP s - 0x1000000 = rest) :
    count true s = boundary true { s with tt := { s.tt with zNet := s.tt.zNet + 1, acc := rest } } := by
  subst hRest
  exact if_pos h

theorem withheld_counts {s : State} (h : ttState s = 1 ∨ ttState s = 2) : withheld s = false := by
  obtain h | h := h <;> simp only [withheld, h] <;> rfl

theorem lineStampHold_counts {s : State} (hDom : domOpen 17 s = true) (hReset : s.pw.reset = none) (h : withheld s = false) : lineStampHold s = false := by
  have hOn : domOn 17 s = true := (Bool.and_eq_true_iff.1 hDom).1
  simp only [lineStampHold, hOn, hReset, h]
  rfl

theorem thenResume_counts {f : State → State} {s : State} (h : ttState s = 1 ∨ ttState s = 2) : thenResume f s = f s :=
  thenResume_eq fun e => absurd ((withheld_counts h).symm.trans e) Bool.noConfusion

/-- An accepted count that crosses a boundary forward in RUN or CRAWL: the boundary is all that follows, in a state in which the Timetable alone has changed. -/
theorem execEncEdge_boundary {s : State} {a b f : Bool} (hDom : domOpen 17 s = true) (hEn : rdB TT_CTRL.ENABLE s = true) (hState : ttState s = 1 ∨ ttState s = 2)
    (hDec : decodeEdge (rd TT_ENC_CFG.MODE s) s.tt.encA s.tt.encB (filtered a b s).1 (filtered a b s).2 = some (some f)) (hDir : f ≠ rdB TT_ENC_CFG.INV_DIR s)
    (hAcc : 0x1000000 ≤ s.tt.acc + rd TT_STEP.STEP s) :
    ∃ x : TtSt, exec (.encEdge a b) s = .next (boundary true { s with tt := x }) ∧ x.acc = s.tt.acc + rd TT_STEP.STEP s - 0x1000000 ∧ x.stamp = s.tt.stamp := by
  have hExec := execEncEdge_enabled (a := a) (b := b) hDom hEn
  generalize filtered a b s = l at hDec hExec
  obtain ⟨hAccKept, hNetKept, -, -, -⟩ := encTaken_kept l.1 l.2 s
  have hCount := count_boundary (s := encTaken l.1 l.2 s) (by rwa [hAccKept, rd_encTaken]) rfl
  have hStates : ttState (encTaken l.1 l.2 s) = 1 ∨ ttState (encTaken l.1 l.2 s) = 2 := by rwa [ttState, rd_encTaken]
  rw [hDec, thenResume_counts hStates, encCount_encTaken, bne_iff_ne.2 hDir, hCount, encTaken_withTt] at hExec
  refine ⟨_, hExec, ?_, ?_⟩
  · rw [hAccKept, rd_encTaken]
  · rw [encTaken_eq]

/-- Settles O13: the boundary is measured and counted, and nothing is kept back in RUN and CRAWL that it could let go. -/
theorem forwardBoundaryCountsOneLine : Obligations.ForwardBoundaryCountsOneLine := by
  unfold Obligations.ForwardBoundaryCountsOneLine
  rintro s a b f l hWf hDom hEn hState rfl hDec hDir hAcc
  obtain ⟨x, hExec, hRest, hStamp⟩ := execEncEdge_boundary hDom hEn hState hDec hDir hAcc
  have hWfStart : State.regsWf { s with tt := x } = true := hWf
  have hStateStart : ttState { s with tt := x } = 1 ∨ ttState { s with tt := x } = 2 := hState
  have hFrame := boundary_frame hWfStart hStateStart
  refine ⟨_, hExec, rd_line_boundary hWfStart hStateStart, (divider_boundary hWfStart hStateStart).1.trans hRest,
    hFrame.coach rfl, hFrame.otp rfl, hFrame.out rfl, (divider_boundary hWfStart hStateStart).2.trans hStamp, rfl,
    fun hReset => lineStampHold_counts hDom hReset (withheld_counts hState)⟩

end Sys2Proof.Machine

/-! O48. Step 7 of the boot with a ladder output that fails its check (R25, R482), and the refutation of O48. -/

namespace Sys2Proof.Machine

/-- The boot has come to its step 7. -/
def ladderStep : State := { State.reset with pw := { State.reset.pw with bootStep := 7 } }
/-- The key ladder's output fails its check. -/
def badLadder : BootObs := ⟨true, false, 0⟩

/-- Refutes O48: in step 7 a ladder output that fails its check resets the block with the fault KEY_FAULT: SB_STATUS.HALT does not read 3. -/
theorem not_bootRunsItsSteps : ¬ Obligations.BootRunsItsSteps := by
  unfold Obligations.BootRunsItsSteps
  intro h
  obtain ⟨-, -, -, -, -, -, -, -, hLadder, -⟩ := h ladderStep (by decide +kernel)
  obtain ⟨t, hExec, hEnd⟩ := hLadder badLadder _ rfl rfl
  -- The fault KEY_FAULT neither goes on to step 8 nor halts the boot with cause 3.
  have hOut : (match execBootStepDone badLadder ladderStep with
      | .next t => (t.pw.bootStep == 8, rd SB_STATUS.HALT t == 3)
      | _ => (true, true)) = (false, false) := by decide +kernel
  change execBootStepDone badLadder ladderStep = _ at hExec
  rw [hExec] at hOut
  obtain ⟨hStep, hHalt⟩ := Prod.mk.inj hOut
  split at hEnd
  · exact absurd (beq_iff_eq.mpr hEnd.1) (by rw [hStep]; decide)
  · exact absurd (beq_iff_eq.mpr hEnd.2.1) (by rw [hHalt]; decide)

end Sys2Proof.Machine

/-! SUPPORT. What frames of the link, requests to the memory ports and the posting of sheet work can change (R38, R203, R211, R264, R279, R290). -/

namespace Sys2Proof.Machine

namespace Frame
variable {u : Parts} {K : Nat → Bool} {s t : State}

theorem modPort (hu : u.tl = true) (p : LinkPort) (g : PortSt → PortSt) (h : Frame u K s t) : Frame u K s (modPort p g t) := h.tlUpd hu _

theorem emitTagged (hm : u.mp = true) (ho : u.out = true) (id : Nat) (o : Out) (h : Frame u K s t) : Frame u K s (emitTagged id o t) :=
  ite (h.mpUpd hm _) (h.emit ho o)

theorem modRow (hu : u.ctx = true) {n : Ctx} (hn : u.ctxs n = true) (r : Nat) (g : RowSt → RowSt) (h : Frame u K s t) : Frame u K s (modRow n r g t) :=
  h.modCx hu n hn _

theorem ownPush (hu : u.mp = true) (o : Own) (h : Frame u K s t) : Frame u K s (ownPush o t) := ite h (h.mpUpd hu _)

theorem ownReadFor (hu : u.mp = true) (d : Dest) (a b c e f r : Nat) (h : Frame u K s t) : Frame u K s (ownReadFor d a b c e f r t) := h.ownPush hu _

theorem ownWrite (hu : u.mp = true) (a b c e f r : Nat) (l : List Byte) (h : Frame u K s t) : Frame u K s (ownWrite a b c e f r l t) := h.ownPush hu _

theorem initPush (hu : u.mp = true) (w : Bool) (a b c : Nat) (l : List Byte) (h : Frame u K s t) : Frame u K s (initPush w a b c l t) := h.mpUpd hu _

theorem writeRegion (hu : u.mp = true) (n : Ctx) (r o : Nat) (l : List Byte) (h : Frame u K s t) : Frame u K s (writeRegion n r o l t) := h.ownPush hu _

end Frame

/-- The units that a frame of the link can reach: its port, what a scrub holds back, and the outbox. -/
structure LinkParts (u : Parts) : Prop where
  mp : u.mp = true
  tl : u.tl = true
  out : u.out = true

namespace Frame
variable {u : Parts} {K : Nat → Bool} {s t : State} (hu : LinkParts u)
include hu

theorem portSend (p : LinkPort) (f : LinkFrame) (h : Frame u K s t) : Frame u K s (portSend p f t) := by
  unfold Machine.portSend
  exact ite h (ite ((h.modPort hu.tl p _).emitTagged hu.mp hu.out _ _) (ite h (ite (h.modPort hu.tl p _) (h.modPort hu.tl p _))))

theorem originate (ps : List LinkPort) (a b : Nat) (c : Bool) (d e : Nat) (l : List Byte) (h : Frame u K s t) :
    Frame u K s (originate ps a b c d e l t) := by
  unfold Machine.originate
  exact ite h (ite (h.tlUpd hu.tl _) (Frame.each _ (fun p _ v hv => hv.portSend hu p _) (h.tlUpd hu.tl _)))

theorem sendControl (ps : List LinkPort) (a b : Nat) (c : Bool) (d : Nat) (l : List Byte) (h : Frame u K s t) : Frame u K s (sendControl ps a b c d l t) :=
  h.originate hu _ _ _ _ _ _ _

end Frame

/-- The units that sheet work can reach as it is posted. -/
structure PostParts (u : Parts) : Prop extends LinkParts u where
  pw : u.pw = true
  mb : u.mb = true
  freeN : u.freeN = true
  ctx : u.ctx = true
  ctxs : ∀ n, u.ctxs n = true

namespace Frame
variable {u : Parts} {K : Nat → Bool} {s t : State} (hu : PostParts u) (n : Ctx)
include hu

theorem bounceOut (k x : Nat) (d : List Byte) (h : Frame u K s t) : Frame u K s (bounceOut n k x d t).2 := by
  unfold Machine.bounceOut
  dsimp only
  exact Frame.modCx hu.ctx n (hu.ctxs n) _ (h.initPush hu.mp _ _ _ _ _)

theorem summaryRow (r : RowSt) (h : Frame u K s t) : Frame u K s (summaryRow n r t) := by
  unfold Machine.summaryRow
  exact Frame.modCx hu.ctx n (hu.ctxs n) _ (h.free hu.freeN)

theorem summaryTry (hK : MsgIn K) (x : Nat) (h : Frame u K s t) : Frame u K s (summaryTry n x t) := by
  unfold Machine.summaryTry
  have hWritten := h.writeRegion hu.mp n 6
  refine ite h (Frame.notice hu.pw hu.mb hK _ _ _ _ (Frame.modCx hu.ctx n (hu.ctxs n) _ (Frame.tlUpd hu.tl _ ?_)))
  split
  · exact (hWritten _ _).bounceOut hu n _ _ _
  · exact hWritten _ _

theorem summaryEnd (hK : MsgIn K) (x : Nat) (h : Frame u K s t) : Frame u K s (summaryEnd n x t) := by
  unfold Machine.summaryEnd
  split
  · exact h
  · have hFree := h.freeBytes hu.freeN 16
    refine ite ?_ ?_
    · exact Frame.originate hu.toLinkParts _ _ _ _ _ _ _ (Frame.tlUpd hu.tl _ (hFree.modCx hu.ctx n (hu.ctxs n) _))
    · exact Frame.summaryTry hu n hK x (ite ((hFree.modCx hu.ctx n (hu.ctxs n) _).tlUpd hu.tl _) (hFree.modCx hu.ctx n (hu.ctxs n) _))

theorem summaryDue (hK : MsgIn K) (r : RowSt) (x : Nat) (h : Frame u K s t) : Frame u K s (summaryDue n r x t) :=
  ite (h.modCx hu.ctx n (hu.ctxs n) _) (h.summaryEnd hu n hK x)

theorem postRow (hK : MsgIn K) (hProd : K (MP_CTX_RES_PROD.ROWS (cid n)).key = true) (h : Frame u K s t) : Frame u K s (postRow n t) := by
  unfold Machine.postRow
  split
  · exact h
  · next r _ =>
    have hPosted := (h.modRow hu.ctx (hu.ctxs n) r.row (fun x => { x with posted := true })).add _ 1 hProd
    refine ite h (ite (Frame.summaryDue hu n hK _ _ ?_) ?_) <;>
      refine Frame.summaryRow hu n _ (Frame.notice hu.pw hu.mb hK _ _ _ _ ?_) <;> split
    · exact hPosted.bounceOut hu n _ _ _
    · exact hPosted
    · exact hPosted.bounceOut hu n _ _ _
    · exact hPosted

theorem postRows (hK : MsgIn K) (hProd : K (MP_CTX_RES_PROD.ROWS (cid n)).key = true) (h : Frame u K s t) : Frame u K s (postRows n t) :=
  Frame.each _ (fun _ _ _ hv => hv.postRow hu n hK hProd) h

omit n in
/-- What goes out when nothing keeps sheet work back any more: rows, counted for their contexts, and summaries. -/
theorem sheetResume (hK : MsgIn K) (hProd : ∀ n : Ctx, K (MP_CTX_RES_PROD.ROWS (cid n)).key = true) (h : Frame u K s t) : Frame u K s (sheetResume t) :=
  Frame.each _ (fun n _ _ hv => Frame.each _ (fun x _ _ hw => hw.summaryTry hu n hK x) (hv.postRows hu n hK (hProd n))) h

omit n in
theorem thenResume (hK : MsgIn K) (hProd : ∀ n : Ctx, K (MP_CTX_RES_PROD.ROWS (cid n)).key = true) {f : State → State} (h : Frame u K s (f t)) :
    Frame u K s (thenResume f t) :=
  ite (h.sheetResume hu hK hProd) h

end Frame

end Sys2Proof.Machine

/-! SUPPORT. The values that the motion states write, and what takes effect at an epoch or at the rise of ENABLE (R14, R48 to R65, R253, R255). -/

namespace Sys2Proof.Machine

theorem cx_modCx_ne (m n : Ctx) (g : CtxSt → CtxSt) (s : State) (h : m ≠ n) : cx m (modCx n g s) = cx m s := cx_setCx_ne m n _ s h

/-- A change of every context in turn, each by its own. -/
theorem cx_each_modCx (g : Ctx → CtxSt → CtxSt) (l : List Ctx) (h : l.Nodup) (n : Ctx) (s : State) :
    cx n (each l (fun m t => modCx m (g m) t) s) = if n ∈ l then g n (cx n s) else cx n s := by
  unfold each
  induction l generalizing s with
  | nil => rfl
  | cons m r ih =>
    obtain ⟨hm, hr⟩ := List.nodup_cons.1 h
    rw [List.foldl_cons, ih hr]
    by_cases hn : n = m
    · subst hn
      simp [hm]
    · simp [cx_modCx_ne n m _ s hn, hn]

theorem cx_eachCtx (g : Ctx → CtxSt → CtxSt) (n : Ctx) (s : State) : cx n (each allCtx (fun m t => modCx m (g m) t) s) = g n (cx n s) :=
  (cx_each_modCx g allCtx (List.nodup_finRange 8) n s).trans (if_pos (List.mem_finRange n))

/-- The new state is written, and rows that saw RUN end keep it (R48, R58). -/
def enterBase (st : Nat) (s : State) : State := if ttState s == 1 then spoilRows (wr TT_STATUS.STATE st s) else wr TT_STATUS.STATE st s

/-- What a change of the motion state is remembered by (R48, R61, R64, R485). -/
def enterTt (st : Nat) (s : State) : TtSt :=
  let old := ttState s
  let s := enterBase st s
  let leaves := (old == 1 || old == 2) && st != 1 && st != 2
  { s.tt with
    sawHalt := (if leaves then false else s.tt.sawHalt) || st == 3 || st == 6
    fastLines := 0
    still := if st == 1 || st == 2 then (match s.tt.stillAt with | some a => (a, arithNow s) :: s.tt.still | none => s.tt.still) else s.tt.still
    stillAt := if st == 1 || st == 2 then none else some (s.tt.stillAt.getD (arithNow s))
    cleanLines := if st == 6 then 0 else s.tt.cleanLines
    halted := if st == 6 || st == 3 then s.tt.halted else false }

@[simp] theorem tt_enterBase (st : Nat) (s : State) : (enterBase st s).tt = s.tt := by
  unfold enterBase
  split <;> simp

/-- The state that is entered, before its rate is shown and its event is raised. -/
def entered (st : Nat) (s : State) : State := { enterBase st s with tt := enterTt st s }

theorem ttEnter_same {st : Nat} {s : State} (h : ttState s = st) : ttEnter st s = s := by
  simp [ttEnter, h]

theorem ttEnter_new {st : Nat} {s : State} (h : ttState s ≠ st) : ttEnter st s = raise 25 (showRate (entered st s)) := by
  simp only [ttEnter, beq_eq_false_iff_ne.2 h, Bool.false_eq_true, if_false]
  rfl

/-- What of the Timetable's own state entering a state leaves. -/
theorem tt_ttEnter (st : Nat) (s : State) : (ttEnter st s).tt = s.tt ∨ (ttEnter st s).tt = enterTt st s := by
  by_cases h : ttState s = st
  · exact .inl (by rw [ttEnter_same h])
  · exact .inr (by rw [ttEnter_new h, tt_raise, tt_showRate, entered])

theorem ttEnter_tt_kept (st : Nat) (s : State) : (ttEnter st s).tt.acc = s.tt.acc ∧ (ttEnter st s).tt.intervals = s.tt.intervals ∧
    (ttEnter st s).tt.illegal = s.tt.illegal ∧ (ttEnter st s).tt.spikes = s.tt.spikes ∧ (ttEnter st s).tt.epochs = s.tt.epochs := by
  obtain h | h := tt_ttEnter st s <;> simp [h, enterTt]

theorem cx_raise (n : Ctx) (x : Nat) (s : State) : cx n (raise x s) = cx n s := by rw [(raise_heard x (Heard.refl s)).rest]; rfl

/-- Of a context, whether RUN has lasted since the releases of its rows is all that entering a state changes. -/
theorem cx_ttEnter (st : Nat) (n : Ctx) (s : State) : cx n (ttEnter st s) = { cx n s with job := (cx n (ttEnter st s)).job } := by
  by_cases h : ttState s = st
  · rw [ttEnter_same h]
  · have hBase : cx n (ttEnter st s) = cx n (enterBase st s) := by rw [ttEnter_new h, cx_raise]; rfl
    rw [hBase, enterBase]
    split
    · rw [spoilRows, cx_eachCtx]
      rfl
    · rfl

/-- The units that entering a state can change. -/
def enterParts : Parts := { pw := true, tt := true, ctx := true, ctxs := fun _ => true }

theorem ttEnter_frame {K : Nat → Bool} (hK : TtKeys K) (st : Nat) (s : State) : Frame enterParts K s (ttEnter st s) :=
  Frame.ttEnter ⟨rfl, rfl, rfl, fun _ => rfl⟩ hK st (Frame.refl _ _ s)

theorem ttKeys_evOr {fs : List Fld} (hState : TT_STATUS.STATE ∈ fs) (hLps : TT_RATE.LPS ∈ fs) : TtKeys (evOr fs) := ⟨evIn_evOr _, evOr_mem hState, evOr_mem hLps⟩

theorem ttKeys_enter : TtKeys (evOr [TT_STATUS.STATE, TT_RATE.LPS]) := ttKeys_evOr (by simp) (by simp)

section
variable {s : State} (h : s.regsWf = true)
include h

theorem regsWf_ttEnter (st : Nat) : (ttEnter st s).regsWf = true := (ttEnter_frame ttKeys_enter st s).wf h

theorem rd_ttEnter_ne (st : Nat) {f : Fld} (hOwn : ownKey f.key = false) (hf : evOr [TT_STATUS.STATE, TT_RATE.LPS] f.key = false) :
    rd f (ttEnter st s) = rd f s := (ttEnter_frame ttKeys_enter st s).regs h f hOwn hf

omit h in
theorem enterBase_frame (st : Nat) : Frame enterParts (keysOf []) (wr TT_STATUS.STATE st s) (enterBase st s) :=
  Frame.ite (Frame.spoilRows rfl (fun _ => rfl) (Frame.refl _ _ _)) (Frame.refl _ _ _)

theorem regsWf_enterBase (st : Nat) : (enterBase st s).regsWf = true := (enterBase_frame st).wf (regsWf_wr h _ _)

theorem ttState_enterBase (st : Nat) : ttState (enterBase st s) = st % 8 :=
  ((enterBase_frame st).regs (regsWf_wr h _ _) _ (by decide) (by decide)).trans (rd_wr_same h _ _)

theorem regsWf_entered (st : Nat) : (entered st s).regsWf = true := regsWf_enterBase h st

theorem ttState_entered (st : Nat) : ttState (entered st s) = st % 8 := ttState_enterBase h st

theorem ttState_ttEnter {st : Nat} (hst : st < 8) : ttState (ttEnter st s) = st := by
  by_cases hs : ttState s = st
  · rw [ttEnter_same hs, hs]
  · have hWf := regsWf_entered h st
    rw [ttEnter_new hs, ttState, showRate, rd_raise (regsWf_wr hWf _ _) 25 (by decide), rd_wr_ne hWf _ _ _ (by decide)]
    exact (ttState_entered h st).trans (Nat.mod_eq_of_lt hst)

/-- STOP shows rate 0 (R61). -/
theorem rd_lps_ttEnter_stop (hs : ttState s ≠ 3) : rd TT_RATE.LPS (ttEnter 3 s) = 0 := by
  have hWf := regsWf_entered h 3
  have hRate : rateFull (entered 3 s) = 0 := by simp [rateFull, ttState_entered h 3]
  rw [ttEnter_new hs, showRate, rd_raise (regsWf_wr hWf _ _) 25 (by decide), hRate]
  exact (rd_wr_same hWf _ _).trans rfl

end

end Sys2Proof.Machine

/-! SUPPORT. Pending values that take effect (R14, R253, R255), the commands of TT_CTRL, and O14. -/

namespace Sys2Proof.Machine

theorem rweApply_frame (rise : Bool) (s : State) :
    Frame {} (fun _ => true) { s with rwe := s.rwe.filter (fun w => !(rweDue rise w s ||
      (s.rwe.filter (fun w => rweDue rise w s)).any (fun v => v.addr == w.addr && v.lo == w.lo && decide (w.at_ ≤ v.at_)))) } (rweApply rise s) :=
  Frame.each _ (fun _ _ _ hv => hv.wr _ _ rfl) (Frame.refl _ _ _)

theorem rweApply_kept (rise : Bool) (n : Ctx) (s : State) : cx n (rweApply rise s) = cx n s ∧ (rweApply rise s).now = s.now :=
  ⟨(rweApply_frame rise s).ctxs n rfl, (rweApply_frame rise s).now⟩

theorem edgeApply_frame (rise : Bool) (s : State) : Frame { ctx := true, ctxs := fun _ => true } (fun _ => false) s (edgeApply rise s) :=
  Frame.each _ (fun n _ _ hv => hv.modCx rfl n rfl _) (Frame.refl _ _ s)

/-- Whether a pending edge padding takes effect (R255). -/
def edgeDue (rise : Bool) (now : Nat) (w : EdgeWrite) : Bool := if rise then w.off else decide (w.at_ < now)

/-- What a context's edge padding becomes. -/
def edgeTaken (rise : Bool) (now : Nat) (c : CtxSt) : CtxSt :=
  match (c.edgeNext.filter (edgeDue rise now)).getLast? with
  | some w => { c with edge := w.edge, edgeNext := c.edgeNext.filter (fun v => !edgeDue rise now v && w.at_ < v.at_) }
  | none => c

theorem cx_edgeApply (rise : Bool) (n : Ctx) (s : State) : cx n (edgeApply rise s) = edgeTaken rise s.now (cx n s) :=
  cx_eachCtx (fun _ => edgeTaken rise s.now) n s

theorem edgeTaken_none {rise : Bool} {now : Nat} {c : CtxSt} (h : c.edgeNext = []) : edgeTaken rise now c = c := by
  simp [edgeTaken, h]

theorem edgeTaken_due {rise : Bool} {now : Nat} {c : CtxSt} {w : EdgeWrite} (h : c.edgeNext = [w]) (hDue : edgeDue rise now w = true) :
    edgeTaken rise now c = { c with edge := w.edge, edgeNext := [] } := by
  simp [edgeTaken, h, hDue]

theorem edgeTaken_early {rise : Bool} {now : Nat} {c : CtxSt} {w : EdgeWrite} (h : c.edgeNext = [w]) (hDue : edgeDue rise now w = false) :
    edgeTaken rise now c = c := by
  simp [edgeTaken, h, hDue]

/-- A field that holds no pending values reads as before when pending values take effect. -/
theorem rd_applied {s : State} (rise : Bool) (h : s.regsWf = true) (hRwe : s.rweWf = true) {f : Fld} (hOwn : ownKey f.key = false) (hLo : f.lo < 64)
    (hf : rweField f.addr f.lo = false) : rd f (edgeApply rise (rweApply rise s)) = rd f s :=
  ((edgeApply_frame rise _).regs ((rweApply_frame rise s).wf h) f hOwn rfl).trans (rd_rweApply rise f h hRwe hLo hf)

theorem regsWf_applied {s : State} (rise : Bool) (h : s.regsWf = true) : (edgeApply rise (rweApply rise s)).regsWf = true :=
  (edgeApply_frame rise _).wf ((rweApply_frame rise s).wf h)

theorem rd_withTt (f : Fld) (s : State) (x : TtSt) : rd f { s with tt := x } = rd f s := rfl

/-- The registers as ENABLE rises. -/
def riseRegs (load : Bool) (s : State) : State :=
  wrs [(TT_CTRL.ENABLE, 1), (TT_PERIOD.PERIOD, 0xFFFFFFF), (TT_STATUS.OVERSPEED, 0), (TT_EPOCH.NUMBER, 0), (TT_BACK.LINES, 0)]
    (if load then wr TT_LINE.LINE (rd TT_LINE_SET.LINE s) s else s)

/-- The block as ENABLE rises, before what was written while it was 0 takes effect. -/
def riseBase (load : Bool) (s : State) : State :=
  let s := riseRegs load s
  { s with tt := { TtSt.init with encA := s.tt.encA, encB := s.tt.encB, mark := s.tt.mark, stopRef := s.now, enLine := ttLine s, armLine := s.tt.armLine, levelAt := s.tt.levelAt, stamp := s.tt.stamp, released := s.tt.released, still := s.tt.still, stillAt := s.tt.stillAt } }

theorem enableRise_eq (load : Bool) (s : State) : enableRise load s = ttEnter 2 (edgeApply true (rweApply true (riseBase load s))) := rfl

theorem riseBase_frame (load : Bool) (s : State) :
    Frame { tt := true } (keysOf [TT_LINE.LINE, TT_CTRL.ENABLE, TT_PERIOD.PERIOD, TT_STATUS.OVERSPEED, TT_EPOCH.NUMBER, TT_BACK.LINES]) s (riseBase load s) := by
  refine Frame.ttUpd rfl _ (Frame.wrs _ ?_ (Frame.ite (Frame.wr _ _ (by decide) (Frame.refl _ _ s)) (Frame.refl _ _ s)))
  exact fun x hx => keysOf_mem (fst_mem (by simp) hx)

theorem rd_riseBase {s : State} (h : s.regsWf = true) (load : Bool) : rd TT_CTRL.ENABLE (riseBase load s) = 1 ∧ rd TT_BACK.LINES (riseBase load s) = 0 ∧
    rd TT_EPOCH.NUMBER (riseBase load s) = 0 ∧ rd TT_LINE.LINE (riseBase load s) = (if load then rd TT_LINE_SET.LINE s % 2 ^ 48 else rd TT_LINE.LINE s) := by
  have hLoaded : (if load then wr TT_LINE.LINE (rd TT_LINE_SET.LINE s) s else s).regsWf = true := by
    split
    · exact regsWf_wr h _ _
    · exact h
  have hLine : rd TT_LINE.LINE (if load then wr TT_LINE.LINE (rd TT_LINE_SET.LINE s) s else s) = (if load then rd TT_LINE_SET.LINE s % 2 ^ 48 else rd TT_LINE.LINE s) := by
    split
    · exact rd_wr_same h _ _
    · rfl
  have hNodup : ([(TT_CTRL.ENABLE, 1), (TT_PERIOD.PERIOD, 0xFFFFFFF), (TT_STATUS.OVERSPEED, 0), (TT_EPOCH.NUMBER, 0), (TT_BACK.LINES, 0)].map (·.1.key)).Nodup := by decide
  have hWritten := fun (f : Fld) (v : Nat) (hx : (f, v) ∈ _) => rd_wrs_nodup hNodup hLoaded hx
  have hTt (f : Fld) : rd f (riseBase load s) = rd f (riseRegs load s) := rd_withTt f _ _
  simp only [hTt, riseRegs]
  exact ⟨hWritten TT_CTRL.ENABLE 1 (by simp), hWritten TT_BACK.LINES 0 (by simp), hWritten TT_EPOCH.NUMBER 0 (by simp), (rd_wrs_ne _ hLoaded _ (by decide)).trans hLine⟩

section
variable {s : State} (h : s.regsWf = true) (load : Bool)
include h

theorem regsWf_riseBase : (riseBase load s).regsWf = true := (riseBase_frame load s).wf h

/-- The rise of ENABLE: CRAWL, with what the rise writes; what was pending changes none of it. -/
theorem rd_enableRise (hRwe : s.rweWf = true) : rd TT_CTRL.ENABLE (enableRise load s) = 1 ∧ rd TT_STATUS.STATE (enableRise load s) = 2 ∧
    rd TT_BACK.LINES (enableRise load s) = 0 ∧ rd TT_EPOCH.NUMBER (enableRise load s) = 0 ∧
    rd TT_LINE.LINE (enableRise load s) = (if load then rd TT_LINE_SET.LINE s % 2 ^ 48 else rd TT_LINE.LINE s) := by
  have hWf := regsWf_riseBase h load
  have hApplied := regsWf_applied true hWf
  have hPending : (riseBase load s).rweWf = true := by rw [State.rweWf, (riseBase_frame load s).rwe rfl]; exact hRwe
  obtain ⟨hEnable, hBack, hEpoch, hLine⟩ := rd_riseBase h load
  rw [enableRise_eq]
  refine ⟨?_, ttState_ttEnter hApplied (by decide), ?_, ?_, ?_⟩
  · rw [rd_ttEnter_ne hApplied _ (by decide) (by decide), rd_applied true hWf hPending (by decide) (by decide) (by decide), hEnable]
  · rw [rd_ttEnter_ne hApplied _ (by decide) (by decide), rd_applied true hWf hPending (by decide) (by decide) (by decide), hBack]
  · rw [rd_ttEnter_ne hApplied _ (by decide) (by decide), rd_applied true hWf hPending (by decide) (by decide) (by decide), hEpoch]
  · rw [rd_ttEnter_ne hApplied _ (by decide) (by decide), rd_applied true hWf hPending (by decide) (by decide) (by decide), hLine]

end

section
variable (load : Bool) (s : State)

theorem tt_applied (rise : Bool) (s : State) : (edgeApply rise (rweApply rise s)).tt = s.tt := ((edgeApply_frame rise _).tt rfl).trans ((rweApply_frame rise s).tt rfl)

theorem tt_enableRise : (enableRise load s).tt.acc = 0 ∧ (enableRise load s).tt.intervals = [] := by
  obtain ⟨hAcc, hIntervals, -⟩ := ttEnter_tt_kept 2 (edgeApply true (rweApply true (riseBase load s)))
  rw [enableRise_eq, hAcc, hIntervals, tt_applied]
  exact ⟨rfl, rfl⟩

/-- Values that were written while ENABLE was 0 are pending no more, nor are older ones of the same fields. -/
theorem rwe_enableRise : (enableRise load s).rwe =
    s.rwe.filter (fun w => !(w.off || s.rwe.any (fun v => v.off && v.addr == w.addr && v.lo == w.lo && decide (w.at_ ≤ v.at_)))) := by
  rw [enableRise_eq, (ttEnter_frame ttKeys_enter 2 _).rwe rfl, (edgeApply_frame true _).rwe rfl, (rweApply_frame true _).rwe rfl]
  simp only [(riseBase_frame load s).rwe rfl, rweDue, if_true, List.any_filter, Bool.and_assoc]

theorem cx_enableRise (n : Ctx) : (cx n (enableRise load s)).edge = (edgeTaken true s.now (cx n s)).edge ∧
    (cx n (enableRise load s)).edgeNext = (edgeTaken true s.now (cx n s)).edgeNext := by
  obtain ⟨hCx, hNow⟩ := rweApply_kept true n (riseBase load s)
  rw [enableRise_eq, cx_ttEnter, cx_edgeApply, hCx, hNow, (riseBase_frame load s).ctxs n rfl, (riseBase_frame load s).now]
  exact ⟨rfl, rfl⟩

theorem out_enableRise : (enableRise load s).out = s.out := by
  rw [enableRise_eq, (ttEnter_frame ttKeys_enter 2 _).out rfl, (edgeApply_frame true _).out rfl, (rweApply_frame true _).out rfl]
  exact (riseBase_frame load s).out rfl

end

end Sys2Proof.Machine

/-! SUPPORT. The end of ENABLE, the stop timeout and the return from FAULT (R48, R60 to R65), and O14. -/

namespace Sys2Proof.Machine

theorem ttEnter_keptEv {s : State} (h : s.regsWf = true) (st : Nat) : s.keptEv [TT_STATUS.STATE, TT_RATE.LPS] (ttEnter st s) :=
  (ttEnter_frame ttKeys_enter st s).keptEv h

/-- The units that a write of ENABLE at 0, and the work that it lets go, can reach. -/
def disableParts : Parts :=
  { pw := true, mb := true, tt := true, ctx := true, coach := true, mp := true, tl := true, out := true, freeN := true, ctxs := fun _ => true, coaches := fun _ => true }

theorem postParts_disable : PostParts disableParts := ⟨⟨rfl, rfl, rfl⟩, rfl, rfl, rfl, rfl, fun _ => rfl⟩

theorem Frame.discardRows {u : Parts} {K : Nat → Bool} {s t : State} (hCtx : u.ctx = true) (hCo : u.coach = true) (hCos : ∀ c, u.coaches c = true) {n : Ctx}
    (hn : u.ctxs n = true) (hK : K TT_ROW_CNT.SKIPPED.key = true) (p : RowSt → Bool) (h : Frame u K s t) : Frame u K s (discardRows p n t) := by
  unfold Machine.discardRows
  exact Frame.add _ _ hK (Frame.modCx hCtx n hn _ (Frame.each _ (fun c _ _ hv => hv.modCo hCo c (hCos c) _) h))

/-- A write of ENABLE at 0: what is kept back is discarded, and the state is IDLE (R60). -/
def disableFall (s : State) : State :=
  let s := if rd TT_BACK.LINES s != 0 then each allCtx (discardRows (fun _ => true)) (wr TT_BACK.LINES 0 s) else s
  ttEnter 0 (wr TT_CTRL.ENABLE 0 s)

theorem execTtDisable_enabled {s : State} (h : s.served 0x100000 false) (hEn : rdB TT_CTRL.ENABLE s = true) :
    exec .ttDisable s = .next (emit (.resp true 0 0) (thenResume disableFall s)) := by
  change execTtDisable s = _
  simp only [execTtDisable, hostTo_served h, hEn, Bool.not_true, Bool.false_eq_true, if_false]
  rfl

theorem execTtDisable_off {s : State} (h : s.served 0x100000 false) (hEn : rdB TT_CTRL.ENABLE s = false) :
    exec .ttDisable s = .next (emit (.resp true 0 0) s) := by
  change execTtDisable s = _
  simp only [execTtDisable, hostTo_served h, hEn, Bool.not_false, if_true]

section
variable {s : State} (h : s.regsWf = true)
include h

/-- IDLE with ENABLE at 0, and TT_BACK at 0 if it was not. -/
theorem rd_disableFall (hBack : rd TT_BACK.LINES s ≠ 0) : (disableFall s).regsWf = true ∧ rd TT_CTRL.ENABLE (disableFall s) = 0 ∧
    rd TT_STATUS.STATE (disableFall s) = 0 ∧ rd TT_BACK.LINES (disableFall s) = 0 := by
  have hDiscard : Frame disableParts (keysOf [TT_ROW_CNT.SKIPPED]) (wr TT_BACK.LINES 0 s) (each allCtx (discardRows (fun _ => true)) (wr TT_BACK.LINES 0 s)) :=
    Frame.each _ (fun n _ _ hv => hv.discardRows rfl rfl (fun _ => rfl) rfl (by decide) _) (Frame.refl _ _ _)
  have hWf := hDiscard.wf (regsWf_wr h _ _)
  have hBackZero := (hDiscard.regs (regsWf_wr h _ _) TT_BACK.LINES (by decide) (by decide)).trans (rd_wr_same h _ _)
  simp only [disableFall, bne_iff_ne.2 hBack, if_true]
  generalize each allCtx (discardRows (fun _ => true)) (wr TT_BACK.LINES 0 s) = v at hWf hBackZero
  have hWritten := regsWf_wr hWf TT_CTRL.ENABLE 0
  refine ⟨regsWf_ttEnter hWritten 0, ?_, ttState_ttEnter hWritten (by decide), ?_⟩
  · rw [rd_ttEnter_ne hWritten 0 (by decide) (by decide), rd_wr_same hWf]
    rfl
  · rw [rd_ttEnter_ne hWritten 0 (by decide) (by decide), rd_wr_ne hWf _ _ _ (by decide), hBackZero]
    rfl

omit h in
/-- What is posted when nothing is kept back any more leaves the Timetable's registers. -/
theorem rd_thenResume (f : State → State) (hWf : (f s).regsWf = true) {g : Fld} (hOwn : ownKey g.key = false)
    (hg : msgOr (allCtx.map fun n => MP_CTX_RES_PROD.ROWS (cid n)) g.key = false) : rd g (thenResume f s) = rd g (f s) := by
  have hProd (n : Ctx) : msgOr (allCtx.map fun n => MP_CTX_RES_PROD.ROWS (cid n)) (MP_CTX_RES_PROD.ROWS (cid n)).key = true :=
    msgOr_mem (List.mem_map.2 ⟨n, List.mem_finRange n, rfl⟩)
  have hFrame : Frame disableParts _ (f s) (thenResume f s) := Frame.thenResume postParts_disable (msgIn_msgOr _) hProd (Frame.refl _ _ _)
  exact hFrame.regs hWf g hOwn hg

end

section
variable {s : State} (h : s.regsWf = true)
include h

/-- The stop timeout in a state in which the Timetable moves (R61, R65). -/
theorem execStopTimeout_stops (hDue : s.tt.stopRef + us (rd TT_STOP_TO.TIME s) ≤ s.now) (hState : ttState s = 1 ∨ ttState s = 2 ∨ ttState s = 4 ∨ ttState s = 5) :
    exec .stopTimeout s = .next (ttEnter 3 s) := by
  change execStopTimeout s = _
  obtain h | h | h | h := hState <;> simp only [execStopTimeout, if_neg (Nat.not_lt.2 hDue), h]

theorem execStopTimeout_fault (hDue : s.tt.stopRef + us (rd TT_STOP_TO.TIME s) ≤ s.now) (hState : ttState s = 6) :
    exec .stopTimeout s = .next (wr TT_RATE.LPS 0 { s with tt := { s.tt with halted := true } }) := by
  change execStopTimeout s = _
  have hRate : rateFull { s with tt := { s.tt with halted := true } } = 0 := by simp [rateFull]
  simp only [execStopTimeout, if_neg (Nat.not_lt.2 hDue), hState, showRate, hRate]
  rfl

end

theorem execTtEnable_off {s : State} (h : s.served 0x100000 false) (hEn : rdB TT_CTRL.ENABLE s = false) (load : Bool) :
    exec (.ttEnable load) s = .next (emit (.resp true 0 0) (enableRise load s)) := by
  change execTtEnable load s = _
  simp only [execTtEnable, hostTo_served h, hEn, Bool.false_eq_true, if_false]

theorem execTtLoad_off {s : State} (h : s.served 0x100000 false) (hEn : rdB TT_CTRL.ENABLE s = false) :
    exec .ttLoad s = .next (emit (.resp true 0 0) (wr TT_LINE.LINE (rd TT_LINE_SET.LINE s) s)) := by
  change execTtLoad s = _
  simp only [execTtLoad, hostTo_served h, hEn, Bool.false_eq_true, if_false]

/-- LOAD and the rise of ENABLE do nothing while ENABLE is 1 (R45). -/
theorem exec_enabled {s : State} (h : s.served 0x100000 false) (hEn : rdB TT_CTRL.ENABLE s = true) :
    exec .ttLoad s = .next (emit (.resp true 0 0) s) ∧ ∀ load, exec (.ttEnable load) s = .next (emit (.resp true 0 0) s) := by
  change execTtLoad s = _ ∧ ∀ load, execTtEnable load s = _
  simp only [execTtLoad, execTtEnable, hostTo_served h, hEn, if_true, implies_true, and_self]

theorem execTtClrFault_fault {s : State} (h : s.served 0x100000 false) (hState : ttState s = 6) :
    exec .ttClrFault s = .next (emit (.resp true 0 0) (faultLeave s)) := by
  change execTtClrFault s = _
  simp only [execTtClrFault, hostTo_served h, hState, beq_self_eq_true, if_true]

theorem disableFall_noBack {s : State} (hBack : rd TT_BACK.LINES s = 0) : disableFall s = ttEnter 0 (wr TT_CTRL.ENABLE 0 s) := by
  simp only [disableFall, hBack, bne_self_eq_false, Bool.false_eq_true, if_false]

theorem edge_enableRise (load : Bool) (s : State) (n : Ctx) : ((cx n s).edgeNext = [] → (cx n (enableRise load s)).edge = (cx n s).edge) ∧
    ∀ w, (cx n s).edgeNext = [w] → w.off = true → (cx n (enableRise load s)).edge = w.edge ∧ (cx n (enableRise load s)).edgeNext = [] := by
  obtain ⟨hEdge, hNext⟩ := cx_enableRise load s n
  rw [hEdge, hNext]
  refine ⟨fun hNone => by rw [edgeTaken_none hNone], fun w hOne hOff => ?_⟩
  rw [edgeTaken_due hOne (by rw [edgeDue, if_pos rfl, hOff])]
  exact ⟨rfl, rfl⟩

/-- Settles O14, clause by clause: the timeout, the rise and the fall of ENABLE, LOAD, and the end of FAULT. -/
theorem motionStatesFollowTheirCommands : Obligations.MotionStatesFollowTheirCommands := by
  unfold Obligations.MotionStatesFollowTheirCommands
  intro s h hRwe
  refine ⟨fun hDue hState => ?stop, fun hDue hState => ?halt, fun load hServed hEn => ?rise, fun hServed hEn hBack => ?discard, fun hServed hEn => ?idle,
    fun hServed hEn hBack hNot => ?fall, fun hServed hEn => ?load, fun hServed hEn => ?ignored, fun hServed hState => ?leave⟩
  case stop =>
    have hNot : ttState s ≠ 3 := by omega
    exact ⟨_, execStopTimeout_stops h hDue hState, ttState_ttEnter h (by decide), rd_lps_ttEnter_stop h hNot, ttEnter_keptEv h 3, (ttEnter_frame ttKeys_enter 3 s).eq⟩
  case halt =>
    exact ⟨_, execStopTimeout_fault h hDue hState, rd_wr_same h _ _, fun f _ hf => rd_wr_ne h _ _ _ (hf _ List.mem_cons_self), rfl⟩
  case rise =>
    obtain ⟨hEnable, hState, hBack, hEpoch, hLine⟩ := rd_enableRise h load hRwe
    obtain ⟨hAcc, hIntervals⟩ := tt_enableRise load s
    exact ⟨_, execTtEnable_off hServed hEn load, hEnable, hState, hBack, hEpoch, hLine, hAcc, hIntervals, rwe_enableRise load s,
      fun n => (edge_enableRise load s n).1, fun n => (edge_enableRise load s n).2, congrArg (List.cons _) (out_enableRise load s)⟩
  case discard =>
    obtain ⟨hWf, hEnable, hState, hBackZero⟩ := rd_disableFall h hBack
    refine ⟨_, execTtDisable_enabled hServed hEn, ?_, ?_, ?_⟩
    · exact (rd_thenResume disableFall hWf (by decide) (by decide)).trans hEnable
    · exact (rd_thenResume disableFall hWf (by decide) (by decide)).trans hState
    · exact (rd_thenResume disableFall hWf (by decide) (by decide)).trans hBackZero
  case idle => exact execTtDisable_off hServed hEn
  case fall =>
    have hWf := regsWf_wr h TT_CTRL.ENABLE 0
    have hFrame := Frame.ttEnter (u := enterParts) (K := evOr [TT_CTRL.ENABLE, TT_STATUS.STATE, TT_RATE.LPS]) ⟨rfl, rfl, rfl, fun _ => rfl⟩
      (ttKeys_evOr (by simp) (by simp)) 0 ((Frame.refl _ _ s).wr TT_CTRL.ENABLE 0 (evOr_mem (by simp)))
    have hExec := execTtDisable_enabled hServed hEn
    rw [thenResume_eq (fun e => absurd (hNot.symm.trans e) Bool.noConfusion), disableFall_noBack hBack] at hExec
    refine ⟨_, hExec, ?_, ttState_ttEnter hWf (by decide), hFrame.keptEv h, congrArg (emit _) hFrame.eq⟩
    exact (rd_ttEnter_ne hWf 0 (by decide) (by decide)).trans (rd_wr_same h _ _)
  case load => exact ⟨_, execTtLoad_off hServed hEn, rd_wr_same h _ _, fun f _ hf => rd_wr_ne h _ _ _ (hf _ List.mem_cons_self), rfl⟩
  case ignored => exact exec_enabled hServed hEn
  case leave =>
    have hState' : ttState (faultLeave s) = if rd TT_BACK.LINES s = 0 then 2 else 5 := by
      have hEntered := ttState_ttEnter (s := { s with tt := { s.tt with illegal := [], spikes := [], halted := false } }) h
        (st := if rd TT_BACK.LINES s == 0 then 2 else 5) (by split <;> decide)
      exact hEntered.trans (by simp only [beq_iff_eq])
    obtain ⟨-, -, hIllegal, hSpikes, -⟩ := ttEnter_tt_kept (if rd TT_BACK.LINES s == 0 then 2 else 5) { s with tt := { s.tt with illegal := [], spikes := [], halted := false } }
    have hFrame : Frame enterParts (evOr [TT_STATUS.STATE, TT_RATE.LPS]) s (faultLeave s) :=
      Frame.ttEnter ⟨rfl, rfl, rfl, fun _ => rfl⟩ ttKeys_enter _ ((Frame.refl _ _ s).ttUpd rfl _)
    exact ⟨_, execTtClrFault_fault hServed hState, hState', hIllegal, hSpikes, hFrame.keptEv h, congrArg (emit _) hFrame.eq⟩

end Sys2Proof.Machine

/-! SUPPORT. Sheet marks (R40, R52, R53), and O15. -/

namespace Sys2Proof.Machine

/-- The scheduled epochs with one more, by rising line. -/
def scheduled (line mark : Nat) (l : List (Nat × Nat)) : List (Nat × Nat) :=
  l.filter (fun e => e.1 ≤ line) ++ [(line, mark)] ++ l.filter (fun e => line < e.1)

theorem mem_scheduled {line mark : Nat} {l : List (Nat × Nat)} : (line, mark) ∈ scheduled line mark l ∧ ∀ e ∈ l, e ∈ scheduled line mark l := by
  refine ⟨by simp [scheduled], fun e he => ?_⟩
  obtain h | h := Nat.lt_or_ge line e.1 <;> simp [scheduled, he, h]

theorem length_scheduled (line mark : Nat) (l : List (Nat × Nat)) : (scheduled line mark l).length = l.length + 1 := by
  have hSplit := List.length_eq_countP_add_countP (fun e : Nat × Nat => decide (e.1 ≤ line)) (l := l)
  have hRest : l.countP (fun e => decide (line < e.1)) = l.countP (fun e => decide ¬decide (e.1 ≤ line) = true) :=
    List.countP_congr fun e _ => by simp only [decide_eq_true_eq, Nat.not_le]
  simp only [scheduled, List.length_append, List.length_singleton, ← List.countP_eq_length_filter]
  omega

theorem schedule_few {line mark : Nat} {s : State} (h : s.tt.epochs.length < 4) :
    schedule line mark s = { s with tt := { s.tt with epochs := scheduled line mark s.tt.epochs } } := if_neg (Nat.not_le.2 h)

theorem execSheetMarkEdge_ignored {level : Bool} {s : State} (h : inputHeld 1 .mark s = false ∨ level = s.tt.mark) : exec (.sheetMarkEdge level) s = .next s := by
  change execSheetMarkEdge level s = _
  obtain h | h := h <;> simp [execSheetMarkEdge, h]

section
variable {s : State} {level : Bool}

theorem execSheetMarkEdge_taken (hDom : domOpen 17 s = true) (hHeld : inputHeld 1 .mark s = true) (hNew : level ≠ s.tt.mark) :
    exec (.sheetMarkEdge level) s = .next (sheetMark level (markTaken level s)) := by
  change execSheetMarkEdge level s = _
  simp [execSheetMarkEdge, hDom, hHeld, hNew]

theorem rd_markTaken (f : Fld) (level : Bool) (s : State) : rd f (markTaken level s) = rd f s := rfl

/-- The other edge of the mark, or one while no mark is taken from the input. -/
theorem sheetMark_other (h : level = rdB TT_MARK_CFG.POL s ∨ rd TT_MARK_CFG.SRC s = 1) : sheetMark level (markTaken level s) = markTaken level s := by
  have hOther : (rd TT_MARK_CFG.SRC s == 1 || level == rdB TT_MARK_CFG.POL s) = true := by
    obtain h | h := h <;> simp [h]
  exact if_pos hOther

/-- A mark in RUN or CRAWL is tested against the gap, and against the room for a further epoch (R53). -/
theorem sheetMark_mark (hSrc : rd TT_MARK_CFG.SRC s ≠ 1) (hPol : level ≠ rdB TT_MARK_CFG.POL s) (hState : ttState s = 1 ∨ ttState s = 2) :
    (∀ m, s.tt.lastMark = some m → ttLine s < m + rd TT_MARK_WIN.GAP s → sheetMark level (markTaken level s) = inc TT_ENC_ERR.MARK_SPUR (markTaken level s)) ∧
    ((∀ m, s.tt.lastMark = some m → m + rd TT_MARK_WIN.GAP s ≤ ttLine s) → sheetMark level (markTaken level s) =
      if 4 ≤ s.tt.epochs.length then inc TT_MARK_CNT.OVF (markTaken level s)
      else schedule (ttLine s + rd TT_MARK_OFS.LINES s) (ttLine s)
        { s with tt := { (markTaken level s).tt with lastMark := some (ttLine s), epochMark := some (ttLine s) } }) := by
  have hTested : (rd TT_MARK_CFG.SRC s == 1 || level == rdB TT_MARK_CFG.POL s) = false := by simp [hSrc, hPol]
  have hCounts : (ttState s != 1 && ttState s != 2) = false := by obtain h | h := hState <;> simp [h]
  have hLast : (markTaken level s).tt.lastMark = s.tt.lastMark := rfl
  have hRd (f : Fld) : rd f (markTaken level s) = rd f s := rfl
  simp only [ttState] at hCounts
  simp only [rdB] at hTested
  simp only [sheetMark, hLast, ttState, ttLine, rdB, hRd, hTested, hCounts, Bool.false_eq_true, if_false]
  refine ⟨fun m hm hEarly => ?_, fun hLate => ?_⟩
  · simp [hm, hEarly]
  · cases hm : s.tt.lastMark with
    | none => rfl
    | some m => exact if_neg (by simpa using Nat.not_lt.2 (hLate m hm))

end

theorem regsWf_markBits {s : State} (h : s.regsWf = true) (f : Fld) (m : Nat) : (markBits f m s).regsWf = true := regsWf_wr (regsWf_wr h _ _) _ _

/-- A sticky bit that hardware has set reads 1. -/
theorem rd_markBit_same {s : State} (h : s.regsWf = true) {f : Fld} (hOwn : ownKey f.key = false) (hWidth : f.width = 1) : rd f (markBit f s) = 1 := by
  rw [markBit, rd_markBits h f f 1 hOwn, if_pos rfl, hWidth, Nat.pow_one, Nat.or_mod_two_eq_one]
  exact .inr rfl

/-- No mark has come in time: the sticky bit, the count and the event (R52). -/
def missMark (s : State) : State := raise 30 (inc TT_MARK_CNT.MISSED (markBit TT_STATUS.MARK_MISSED s))

theorem missMark_frame {u : Parts} (hu : u.pw = true) (s : State) : Frame u (evOr [TT_STATUS.MARK_MISSED, TT_MARK_CNT.MISSED]) s (missMark s) :=
  (((Frame.refl _ _ s).markBit _ (evOr_mem (by simp))).inc _ (evOr_mem (by simp))).raise hu (evIn_evOr _) 30

theorem tt_missMark (s : State) : (missMark s).tt = s.tt := (missMark_frame (u := { pw := true }) rfl s).tt rfl

theorem rd_missMark {s : State} (h : s.regsWf = true) : rd TT_STATUS.MARK_MISSED (missMark s) = 1 ∧
    rd TT_MARK_CNT.MISSED (missMark s) = sat TT_MARK_CNT.MISSED (rd TT_MARK_CNT.MISSED s + 1) := by
  have hMarked : (markBit TT_STATUS.MARK_MISSED s).regsWf = true := regsWf_markBits h _ _
  have hCounted : (inc TT_MARK_CNT.MISSED (markBit TT_STATUS.MARK_MISSED s)).regsWf = true := regsWf_wr hMarked _ _
  refine ⟨?_, ?_⟩
  · rw [missMark, rd_raise hCounted 30 (by decide), rd_inc_ne hMarked _ _ (by decide), rd_markBit_same h (by decide) rfl]
  · rw [missMark, rd_raise hCounted 30 (by decide), rd_inc_same hMarked, markBit, rd_markBits_ne h _ _ _ (by decide) (by decide)]
    rfl

/-- Settles O15: what an accepted edge of the mark, a synthesised mark and a fallback schedule. -/
theorem marksScheduleEpochs : Obligations.MarksScheduleEpochs := by
  unfold Obligations.MarksScheduleEpochs
  intro s h
  refine ⟨fun level hNot => execSheetMarkEdge_ignored hNot, fun t ht => by simp [inputHeld, ht, filterTime], fun level hDom hHeld hNew hOther => ?other,
    fun level hDom hHeld hNew hSrc hPol hState => ?mark, fun m hm hSrc hEn hLen hDue hFew => ?synth, fun m hm hSrc hEn hLen hDue hFew => ?fallback⟩
  case other => rw [execSheetMarkEdge_taken hDom hHeld hNew, sheetMark_other hOther]
  case mark =>
    have hExec := execSheetMarkEdge_taken hDom hHeld hNew
    have hKept (f g : Fld) (hg : ∀ x ∈ [f], g.key ≠ x.key) : rd g (inc f (markTaken level s)) = rd g s := rd_inc_ne (s := markTaken level s) h g f (hg f List.mem_cons_self)
    obtain ⟨hEarly, hLate⟩ := sheetMark_mark hSrc hPol hState
    refine ⟨fun hGap hFew => ?_, fun hGap hFull => ?_, fun m hm hGap => ?_⟩
    · rw [hExec, hLate hGap, if_neg (Nat.not_le.2 hFew), schedule_few (by exact hFew)]
      exact ⟨_, rfl, length_scheduled _ _ _, mem_scheduled.1, mem_scheduled.2, rfl⟩
    · rw [hExec, hLate hGap, if_pos hFull]
      exact ⟨_, rfl, rd_inc_same (s := markTaken level s) h _, fun g _ => hKept _ g, rfl⟩
    · rw [hExec, hEarly m hm hGap]
      exact ⟨_, rfl, rd_inc_same (s := markTaken level s) h _, fun g _ => hKept _ g, rfl⟩
  case synth =>
    subst hm
    have hExec : execMarkSynth s = .next (schedule _ _ _) := congrArg _ (if_pos (by simp [hSrc, hEn, hLen, hDue]))
    rw [schedule_few (by exact hFew)] at hExec
    exact ⟨_, hExec, mem_scheduled.1, length_scheduled _ _ _, rfl⟩
  case fallback =>
    have hMissed := missMark_frame (u := { pw := true, tt := true }) rfl s
    have hOfs : rd TT_MARK_OFS.LINES (missMark s) = rd TT_MARK_OFS.LINES s := hMissed.regs h _ (by decide) (by decide)
    have hExec : execMarkFallback s = .next (schedule (m + rd TT_SHEET_LEN.LINES s + rd TT_MARK_OFS.LINES (missMark s)) (m + rd TT_SHEET_LEN.LINES s)
        { missMark s with tt := { (missMark s).tt with epochMark := some (m + rd TT_SHEET_LEN.LINES s) } }) := by
      simp only [execMarkFallback, hm, hSrc, hEn, bne_iff_ne.2 hLen, hDue, decide_true, beq_self_eq_true, Bool.and_self, if_true]
      rfl
    rw [hOfs, tt_missMark, schedule_few (by exact hFew)] at hExec
    exact ⟨_, hExec, (rd_missMark h).1, (rd_missMark h).2, mem_scheduled.1, rfl, hMissed.keptEv h, (hMissed.ttUpd rfl _).eq⟩

end Sys2Proof.Machine

/-! O54. What the Gig engine shows after its reset (R157), and the refutation of O54. -/

namespace Sys2Proof.Machine

/-- The Gig engine is in reset for coach 0's replay, while pages of its SRAM are cleared. -/
def gigReset : State :=
  let s := wr (PM_PWR_STATUS.ON 16) 1 (wr GG_STATUS.STATE 6 State.reset)
  { s with
    gig := { s.gig with scrubs := [(0, 1)] }
    flt := { s.flt with resetAt := s.flt.resetAt.set 16 (some 0), replay := some ⟨16, 1, 0, [1], none, [], [1], 0, 0, 0, [], []⟩ } }

/-- Refutes O54: a Gig engine whose pages are being cleared shows SCRUB after its reset, and not STATE 0. -/
theorem not_resetsScrubAndReplay : ¬ Obligations.ResetsScrubAndReplay := by
  unfold Obligations.ResetsScrubAndReplay
  intro h
  obtain ⟨hDone, -⟩ := h gigReset 16 (by decide +kernel)
  obtain ⟨t, hExec, -, -, -, -, hGig⟩ := hDone ⟨16, 1, 0, [1], none, [], [1], 0, 0, 0, [], []⟩ (by decide +kernel) rfl (by decide)
  -- After the reset the engine shows SCRUB.
  have hShows : (match execCoachResetDone 16 gigReset with
      | .next t => rd GG_STATUS.STATE t
      | _ => 0) = 4 := by decide +kernel
  change execCoachResetDone 16 gigReset = _ at hExec
  rw [hExec] at hShows
  exact absurd (hShows.symm.trans (hGig rfl).1) (by decide)

end Sys2Proof.Machine

/-! SUPPORT. The opening of an epoch (R53, R253, R255, R286), the index pulse (R66), and O16 and O17. -/

namespace Sys2Proof.Machine

/-- An epoch is counted, and what was written before its cycle takes effect (R53, R253, R255). -/
def epochBase (e : Nat × Nat) (r : List (Nat × Nat)) (s : State) : State :=
  let num := (rd TT_EPOCH.NUMBER s + 1) % 2 ^ 32
  let s := wrs [(TT_EPOCH.NUMBER, num), (TT_EPOCH_LINE.LINE, e.1)] s
  { s with tt := { s.tt with epochs := r, opened := ((num, e.1) :: s.tt.opened).take 8 } }

/-- The state after the event of an epoch, before a fault ends with it and a LINE_SYNC goes out. -/
def epochTaken (e : Nat × Nat) (r : List (Nat × Nat)) (s : State) : State := raise 24 (edgeApply false (rweApply false (epochBase e r s)))

/-- What follows an epoch: the end of a fault, and the head's LINE_SYNC (R64, R286). -/
def epochAfter (s : State) : State :=
  let s := if ttState s == 6 && 256 ≤ s.tt.cleanLines then faultLeave s else s
  if s.tl.syncDue && linkOn s && linkPos s == 0 then sendLineSync s else s

theorem execEpochOpen_open {s : State} {e : Nat × Nat} {r : List (Nat × Nat)} (hEpochs : s.tt.epochs = e :: r) (hDue : e.1 ≤ ttLine s) (hCounts : ttCounts s = true) :
    exec .epochOpen s = .next (epochAfter (epochTaken e r s)) := by
  change execEpochOpen s = _
  simp only [execEpochOpen, hEpochs, if_neg (Nat.not_lt.2 hDue), hCounts, Bool.not_true, Bool.or_false, decide_false, Bool.false_eq_true,
    decide_eq_true_eq, Nat.not_lt.2 hDue, if_false]
  rfl

theorem epochBase_frame (e : Nat × Nat) (r : List (Nat × Nat)) (s : State) : Frame { tt := true } (keysOf [TT_EPOCH.NUMBER, TT_EPOCH_LINE.LINE]) s (epochBase e r s) :=
  Frame.ttUpd rfl _ (Frame.wrs _ (fun x hx => keysOf_mem (List.mem_map.2 ⟨x, hx, rfl⟩ : x.1 ∈ _)) (Frame.refl _ _ s))

/-- The fields of the epoch's sequel. -/
def epochFields : List Fld := [TT_STATUS.STATE, TT_RATE.LPS, TL_LINE_OFS.OFS, TL_EPOCH_OFS.OFS, TL_STATUS.SYNCED]

/-- And its units. -/
def epochParts : Parts := { pw := true, tt := true, ctx := true, mp := true, tl := true, out := true, ctxs := fun _ => true }

theorem Frame.sendLineSync {u : Parts} {K : Nat → Bool} {s t : State} (hu : LinkParts u) (hK : ∀ f ∈ [TL_LINE_OFS.OFS, TL_EPOCH_OFS.OFS, TL_STATUS.SYNCED], K f.key = true)
    (h : Frame u K s t) : Frame u K s (sendLineSync t) := by
  unfold Machine.sendLineSync
  refine Frame.sendControl hu _ _ _ _ _ _ (Frame.tlUpd hu.tl _ (h.wrs _ fun x hx => hK _ ?_))
  exact fst_mem (by simp) hx

theorem Frame.faultLeave {u : Parts} {K : Nat → Bool} {s t : State} (hu : TtParts u) (hK : TtKeys K) (h : Frame u K s t) : Frame u K s (faultLeave t) :=
  Frame.ttEnter hu hK _ (h.ttUpd hu.tt _)

theorem epochAfter_frame (s : State) : Frame epochParts (evOr epochFields) s (epochAfter s) := by
  have hLeft : Frame epochParts (evOr epochFields) s (if ttState s == 6 && 256 ≤ s.tt.cleanLines then faultLeave s else s) :=
    Frame.ite (Frame.faultLeave ⟨rfl, rfl, rfl, fun _ => rfl⟩ (ttKeys_evOr (by simp [epochFields]) (by simp [epochFields])) (Frame.refl _ _ s)) (Frame.refl _ _ s)
  exact Frame.ite (Frame.sendLineSync ⟨rfl, rfl, rfl⟩ (fun f hf => evOr_mem (List.mem_cons_of_mem _ (List.mem_cons_of_mem _ hf))) hLeft) hLeft

/-- Outside FAULT, with no LINE_SYNC due, nothing follows. -/
theorem epochAfter_none {s : State} (hState : ttState s ≠ 6) (hSync : s.tl.syncDue = false) : epochAfter s = s := by
  simp [epochAfter, hState, hSync]

theorem epochs_faultLeave (s : State) : (faultLeave s).tt.epochs = s.tt.epochs := (ttEnter_tt_kept _ _).2.2.2.2

theorem epochs_epochAfter (s : State) : (epochAfter s).tt.epochs = s.tt.epochs := by
  have hSent (v : State) : (sendLineSync v).tt = v.tt :=
    (Frame.sendLineSync (u := { mp := true, tl := true, out := true }) (K := fun _ => true) ⟨rfl, rfl, rfl⟩ (fun _ _ => rfl) (Frame.refl _ _ v)).tt rfl
  unfold epochAfter
  dsimp only
  repeat' split
  all_goals simp only [hSent, epochs_faultLeave]

/-- Outside FAULT the contexts keep what an epoch has given them. -/
theorem cx_epochAfter {s : State} (hState : ttState s ≠ 6) (n : Ctx) : cx n (epochAfter s) = cx n s := by
  have hSent (v : State) : cx n (sendLineSync v) = cx n v :=
    (Frame.sendLineSync (u := { mp := true, tl := true, out := true }) (K := fun _ => true) ⟨rfl, rfl, rfl⟩ (fun _ _ => rfl) (Frame.refl _ _ v)).ctxs n rfl
  have hNot : (ttState s == 6 && decide (256 ≤ s.tt.cleanLines)) = false := by simp [hState]
  unfold epochAfter
  dsimp only
  rw [hNot, if_neg Bool.false_ne_true]
  split
  · exact hSent s
  · rfl

section
variable {s : State} (h : s.regsWf = true) (e : Nat × Nat) (r : List (Nat × Nat))

theorem tt_epochTaken : (epochTaken e r s).tt.epochs = r := by rw [epochTaken, tt_raise, tt_applied]; rfl

theorem tl_epochTaken : (epochTaken e r s).tl = s.tl := by
  rw [epochTaken, (raise_heard 24 (Heard.refl _)).rest]
  change (edgeApply false (rweApply false (epochBase e r s))).tl = _
  rw [(edgeApply_frame false _).tl rfl, (rweApply_frame false _).tl rfl]
  exact (epochBase_frame e r s).tl rfl

theorem cx_epochTaken (n : Ctx) : cx n (epochTaken e r s) = edgeTaken false s.now (cx n s) := by
  obtain ⟨hCx, hNow⟩ := rweApply_kept false n (epochBase e r s)
  rw [epochTaken, cx_raise, cx_edgeApply, hCx, hNow, (epochBase_frame e r s).ctxs n rfl, (epochBase_frame e r s).now]

/-- What was written before the cycle of the epoch is pending no more. -/
theorem rwe_epochTaken : (epochTaken e r s).rwe = s.rwe.filter (fun w => !(decide (w.at_ < s.now))) := by
  have hBase := epochBase_frame e r s
  rw [epochTaken, (raise_heard 24 (Heard.refl _)).rest]
  change (edgeApply false (rweApply false (epochBase e r s))).rwe = _
  rw [(edgeApply_frame false _).rwe rfl, (rweApply_frame false _).rwe rfl]
  simp only [hBase.rwe rfl, rweDue, hBase.now, Bool.false_eq_true, if_false]
  refine List.filter_congr fun w _ => ?_
  by_cases hBefore : w.at_ < s.now
  · simp [hBefore]
  · have hNone : (s.rwe.filter fun w => decide (w.at_ < s.now)).any (fun v => v.addr == w.addr && v.lo == w.lo && decide (w.at_ ≤ v.at_)) = false := by
      refine List.any_eq_false.2 fun v hv hLater => ?_
      have hBeforeV := of_decide_eq_true (List.mem_filter.1 hv).2
      have hLaterV := of_decide_eq_true (Bool.and_eq_true_iff.1 hLater).2
      omega
    rw [hNone, Bool.or_false]

include h

theorem regsWf_epochBase : (epochBase e r s).regsWf = true := (epochBase_frame e r s).wf h

theorem rd_epochBase : rd TT_EPOCH.NUMBER (epochBase e r s) = (rd TT_EPOCH.NUMBER s + 1) % 2 ^ 32 ∧ rd TT_EPOCH_LINE.LINE (epochBase e r s) = e.1 % 2 ^ 48 := by
  refine ⟨?_, rd_wr_same (regsWf_wr h _ _) _ _⟩
  exact (rd_wr_ne (regsWf_wr h _ _) _ _ _ (by decide)).trans ((rd_wr_same h _ _).trans (Nat.mod_mod _ _))

/-- A field that no event writes, and that holds no pending value, reads as the epoch has left it. -/
theorem rd_epochTaken (hRwe : s.rweWf = true) {f : Fld} (hEv : evKey f.key = false) (hLo : f.lo < 64) (hf : rweField f.addr f.lo = false) :
    rd f (epochTaken e r s) = rd f (epochBase e r s) := by
  have hWf := regsWf_epochBase h e r
  have hPending : (epochBase e r s).rweWf = true := by rw [State.rweWf, (epochBase_frame e r s).rwe rfl]; exact hRwe
  have hOwn : ownKey f.key = false := Bool.eq_false_iff.2 fun k => by simp [evKey_of_own k] at hEv
  rw [epochTaken, rd_raise (regsWf_applied false hWf) 24 hEv, rd_applied false hWf hPending hOwn hLo hf]

/-- A lone value that was written before the epoch's cycle is the field's value then. -/
theorem rd_epochTaken_pending {w : RweWrite} (hOne : s.rwe = [w]) (hBefore : w.at_ < s.now) (hEv : evKey (Fld.key ⟨w.addr, w.lo, 0⟩) = false) :
    rd ⟨w.addr, w.lo, 0⟩ (epochTaken e r s) = w.value % 2 ^ widthAt w.addr w.lo := by
  have hBase := epochBase_frame e r s
  have hWf := regsWf_epochBase h e r
  have hOwn : ownKey (Fld.key ⟨w.addr, w.lo, 0⟩) = false := Bool.eq_false_iff.2 fun k => by simp [evKey_of_own k] at hEv
  have hApplied : rweApply false (epochBase e r s) = wr ⟨w.addr, w.lo, widthAt w.addr w.lo⟩ w.value { epochBase e r s with rwe := [] } := by
    simp [rweApply, hBase.rwe rfl, hOne, rweDue, hBase.now, hBefore, each]
  rw [epochTaken, rd_raise (regsWf_applied false hWf) 24 hEv, (edgeApply_frame false _).regs ((rweApply_frame false (epochBase e r s)).wf hWf) _ hOwn rfl, hApplied]
  exact rd_wr_same (f := ⟨w.addr, w.lo, widthAt w.addr w.lo⟩) hWf w.value

end

/-- Settles O16: the epoch is counted, what is due takes effect, and its sequel leaves both. -/
theorem epochOpensAtItsLine : Obligations.EpochOpensAtItsLine := by
  unfold Obligations.EpochOpensAtItsLine
  intro s e r h hRwe hEpochs hDue hCounts
  have hTaken : (epochTaken e r s).regsWf = true := regsWf_raise (regsWf_applied false (regsWf_epochBase h e r)) 24
  have hAfter := epochAfter_frame (epochTaken e r s)
  have hState : ttState (epochTaken e r s) = ttState s :=
    (rd_epochTaken h e r hRwe (by decide) (by decide) (by decide)).trans ((epochBase_frame e r s).regs h _ (by decide) (by decide))
  obtain ⟨hNumber, hLine⟩ := rd_epochBase h e r
  refine ⟨_, execEpochOpen_open hEpochs hDue hCounts, ?number, ?line, ?epochs, ?pending, fun w hOne hBefore hRun hSync hEv => ?value, fun hRun n w hOne => ?edge⟩
  case number => rw [hAfter.regs hTaken _ (by decide) (by decide), rd_epochTaken h e r hRwe (by decide) (by decide) (by decide), hNumber]
  case line => rw [hAfter.regs hTaken _ (by decide) (by decide), rd_epochTaken h e r hRwe (by decide) (by decide) (by decide), hLine]
  case epochs => rw [epochs_epochAfter, tt_epochTaken]
  case pending => rw [hAfter.rwe rfl, rwe_epochTaken]
  case value =>
    have hDueSync : (epochTaken e r s).tl.syncDue = false := by
      rw [tl_epochTaken]
      exact hSync
    rw [epochAfter_none (by rwa [hState]) hDueSync, rd_epochTaken_pending h e r hOne hBefore hEv]
  case edge =>
    have hEdge : cx n (epochAfter (epochTaken e r s)) = edgeTaken false s.now (cx n s) := by
      rw [cx_epochAfter (by rwa [hState]), cx_epochTaken]
    rw [hEdge]
    refine ⟨fun hBefore => ?_, fun hAt => ?_⟩
    · rw [edgeTaken_due hOne (by simpa [edgeDue] using hBefore)]
      exact ⟨rfl, rfl⟩
    · rw [edgeTaken_early hOne (by simpa [edgeDue] using hAt)]
      exact ⟨rfl, hOne⟩

/-- The check of an index edge (R66). -/
def indexChecked (s : State) : State :=
  if s.tt.zSeen && decide (rd TT_Z_CFG.TOL s < ((s.tt.zNet.natAbs : Int) - rd TT_Z_CFG.COUNTS s).natAbs) then inc TT_ENC_ERR.Z_ERR s else s

theorem indexChecked_frame (s : State) : Frame {} (keysOf [TT_ENC_ERR.Z_ERR]) s (indexChecked s) :=
  Frame.ite (Frame.inc _ (by decide) (Frame.refl _ _ s)) (Frame.refl _ _ s)

theorem rd_indexChecked {s : State} (h : s.regsWf = true) : rd TT_ENC_ERR.Z_ERR (indexChecked s) =
    if s.tt.zSeen = true ∧ rd TT_Z_CFG.TOL s < ((s.tt.zNet.natAbs : Int) - rd TT_Z_CFG.COUNTS s).natAbs
      then sat TT_ENC_ERR.Z_ERR (rd TT_ENC_ERR.Z_ERR s + 1) else rd TT_ENC_ERR.Z_ERR s := by
  simp only [indexChecked, Bool.and_eq_true, decide_eq_true_eq]
  split
  · exact rd_inc_same h _
  · rfl

theorem indexEdge_enabled {s : State} (hZ : rdB TT_ENC_CFG.Z_EN s = true) (hEn : rdB TT_CTRL.ENABLE s = true) :
    indexEdge s = { wr TT_STATUS.Z_LOST 0 (indexChecked s) with tt := { s.tt with zNet := 0, zSeen := true } } := by
  simp only [indexEdge, hZ, hEn, Bool.not_true, Bool.or_self, Bool.false_eq_true, if_false, indexChecked]
  split <;> rfl

/-- Settles O17: the check of an index edge, and the loss of the index. -/
theorem indexPulseIsChecked : Obligations.IndexPulseIsChecked := by
  unfold Obligations.IndexPulseIsChecked
  intro s h hZ hEn
  refine ⟨fun hNot => ?early, fun t ht => ?held, fun hDom hHeld => ?edge, fun hSeen hFound hLong => ?lost⟩
  case early =>
    change execIndexEdge s = _
    simp [execIndexEdge, hNot]
  case held =>
    simp only [inputHeld, ht, filterTime]
    exact ⟨of_decide_eq_true, decide_eq_true⟩
  case edge =>
    have hWf : (inputTaken .encZ s).regsWf = true := h
    have hExec : exec .indexEdge s = .next (indexEdge (inputTaken .encZ s)) := by
      change execIndexEdge s = _
      simp [execIndexEdge, hDom, hHeld]
    rw [indexEdge_enabled (s := inputTaken .encZ s) hZ hEn] at hExec
    have hFrame := (indexChecked_frame (inputTaken .encZ s))
    have hChecked := hFrame.wf hWf
    refine ⟨_, hExec, rd_wr_same hChecked _ _, ?_, fun f hOwn hf => ?_, ?_⟩
    · exact (rd_wr_ne hChecked _ _ _ (by decide)).trans (rd_indexChecked hWf)
    · exact (rd_wr_ne hChecked _ _ _ (hf _ (by simp))).trans (hFrame.regs hWf f hOwn (keysOf_eq_false.2 fun g hg => hf g (by simp_all)))
    · exact congrArg (fun v : State => { wr TT_STATUS.Z_LOST 0 v with tt := { (inputTaken .encZ s).tt with zNet := 0, zSeen := true } }) hFrame.eq
  case lost =>
    have hExec : exec .indexLost s = .next (encoderFault 4 (wr TT_STATUS.Z_LOST 1 s)) := by
      change execIndexLost s = _
      simp [execIndexLost, hZ, hEn, hSeen, hFound, hLong]
    have hWf := regsWf_wr h TT_STATUS.Z_LOST 1
    have hFault {v : State} (hv : Frame { pw := true, mb := true } (msgOr [TT_STATUS.Z_LOST]) s v) : Frame { pw := true, mb := true } (msgOr [TT_STATUS.Z_LOST]) s (encoderFault 4 v) :=
      Frame.notice rfl rfl (msgIn_msgOr _) _ _ _ _ (hv.raise rfl (msgIn_msgOr _).ev _)
    have hFrame := hFault ((Frame.refl _ _ s).wr TT_STATUS.Z_LOST 1 (msgOr_mem (by simp)))
    refine ⟨_, hExec, ?_, hFrame.keptMsg h, hFrame.eq⟩
    rw [encoderFault, rd_notice (regsWf_raise hWf _) _ _ _ _ (by decide), rd_raise hWf _ (by decide), rd_wr_same h]
    rfl

end Sys2Proof.Machine

/-! SUPPORT. Slots that fire (R54, R55), the end of a slice (R245, R249), and O18. -/

namespace Sys2Proof.Machine

theorem evKey_class : ∀ w < 4, ∀ b < 32, evKey (EV_CLASS.FAST w b).key = false := by decide

theorem ownKey_pendF {src : Nat} (h : src < 128) (fast : Bool) : ownKey (pendF fast src).key = false := by
  have hDiv := key_div (pendF fast src) (show src % 32 < 64 from Nat.lt_of_lt_of_le (Nat.mod_lt _ (by decide)) (by decide))
  have hAddr : (pendF fast src).addr < 0x2000000 := by
    cases fast <;> simp only [pendF, EV_PEND.PEND, evBank, Bool.false_eq_true, if_true, if_false] <;> omega
  exact decide_eq_false (by omega)

section
variable {s : State} (h : s.regsWf = true)
include h

theorem rd_lanternRecord (src : Nat) {f : Fld} (hf : evKey f.key = false) : rd f (lanternRecord src s) = rd f s :=
  (lanternRecord_heard src (Heard.refl s)).regs h f hf (by simp)

/-- A source that fires while its domain is open, and the controller has power, is pending in the bank of its class (R350, R351). -/
theorem rd_pend_raise {src : Nat} (hSrc : src < 128) (hDom : domOpen (srcDom src) s = true) (hRes : evReserved src = false) (hOn : domOn 20 s = true) :
    rd (pendF (srcFast src s) src) (raise src s) = 1 := by
  have hFast : srcFast src (lanternRecord src s) = srcFast src s := by
    rw [srcFast, srcFast, rdB, rdB, rd_lanternRecord h src (evKey_class _ (by omega) _ (by omega))]
  have hOn' : domOn 20 (lanternRecord src s) = true := by rw [domOn, rdB, rd_lanternRecord h src (by decide)]; exact hOn
  simp only [raise, latch, hDom, hRes, hOn', hFast, Bool.true_or, Bool.false_eq_true, if_true, if_false]
  exact rd_markBit_same ((lanternRecord_heard src (Heard.refl s)).wf h) (ownKey_pendF hSrc _) rfl

end

/-- A slot that fires: the domain is open, TT_LINE counts, and the action is one of those that its command takes (R54). -/
theorem slotFires_open {k : Slot} {acts : List Nat} {s : State} (h : slotFires k acts s = true) : domOpen 17 s = true := by
  simp only [slotFires, Bool.and_eq_true] at h
  obtain ⟨⟨⟨⟨⟨hDom, -⟩, -⟩, -⟩, -⟩, -⟩ := h
  exact hDom

theorem slotDisarm_frame {u : Parts} {K : Nat → Bool} (k : Slot) (hK : K (TT_SLOT_ACT.ARMED k.val).key = true) (s : State) : Frame u K s (slotDisarm k s) :=
  (Frame.refl u K s).wr _ _ hK

/-- The fields outside the windows of the slots keep their values. -/
theorem rd_slotDisarm {s : State} (h : s.regsWf = true) (k : Slot) {f : Fld} (hf : f.key < 64 * 0x101000 ∨ 64 * 0x102000 ≤ f.key) :
    rd f (slotDisarm k s) = rd f s := by
  refine rd_wr_ne h _ _ _ ?_
  simp only [TT_SLOT_ACT.ARMED, Fld.key] at hf ⊢
  omega

theorem regsWf_slotDisarm {s : State} (h : s.regsWf = true) (k : Slot) : (slotDisarm k s).regsWf = true := regsWf_wr h _ _

theorem rd_armed_slotDisarm {s : State} (h : s.regsWf = true) (k : Slot) : rd (TT_SLOT_ACT.ARMED k.val) (slotDisarm k s) = 0 := rd_wr_same h _ _

/-- The fields of the slots are none that an event or a message writes. -/
theorem msgKey_slot {f : Fld} (hLo : f.lo < 64) (hAddr : 0x101000 ≤ f.addr) (hEnd : f.addr < 0x102000) : msgKey f.key = false := by
  have hDiv := key_div f hLo
  have hEv := evKey_of_low hLo (show 0x100000 ≤ f.addr by omega) (show f.addr < 0x700000 by omega)
  have h6 : (f.key / 64 / 0x100000 == 6) = false := beq_eq_false_iff_ne.2 (by omega)
  have h16 : (f.key / 64 / 0x100000 == 16) = false := beq_eq_false_iff_ne.2 (by omega)
  simp only [msgKey, hEv, h6, h16, Bool.or_self]

theorem evKey_armed (k : Slot) : evKey (TT_SLOT_ACT.ARMED k.val).key = false := by
  have hMsg := msgKey_slot (f := TT_SLOT_ACT.ARMED k.val) (show 3 < 64 by decide) (show 0x101000 ≤ 0x101008 + 0x10 * k.val by omega) (show 0x101008 + 0x10 * k.val < 0x102000 by omega)
  simp only [msgKey, Bool.or_eq_false_iff] at hMsg
  exact hMsg.1.1

theorem mem_waitCounts_late (n : Ctx) : GL_WB_LATE_CYC.COUNT (cid n) ∈ waitCounts := List.mem_append_right _ (List.mem_map.2 ⟨n, List.mem_finRange n, rfl⟩)

theorem mem_waitCounts_mem (c : Coach) : CA_STALL_MEM.COUNT c.val ∈ waitCounts := List.mem_append_left _ (List.mem_map.2 ⟨c, List.mem_finRange c, rfl⟩)

namespace Frame
variable {u : Parts} {K : Nat → Bool} {s t : State} (hu : u.coach = true) {c : Coach} (hc : u.coaches c = true) (hK : ∀ f ∈ waitCounts, K f.key = true)
include hu hc hK

theorem waitsSettle (h : Frame u K s t) : Frame u K s (Machine.syncSettle c t) := by
  unfold Machine.syncSettle
  split
  · exact h
  · exact ((h.modCo hu c hc _).add _ _ (hK _ (mem_waitCounts_late _))).profAdd c _ _ (hK _ (mem_waitCounts_mem c))

theorem holdStage (h : Frame u K s t) : Frame u K s (holdStage c t) := by
  have hSettled := h.waitsSettle hu hc hK
  unfold Machine.holdStage
  dsimp only
  split
  · exact hSettled
  · split
    · exact hSettled
    · exact hSettled.modCo hu c hc _

end Frame

/-- A coach without a stage is left as it is. -/
theorem holdStage_idle {c : Coach} {s : State} (h : (co c s).run = none) : holdStage c s = s := by
  have hSettle : syncSettle c s = s := by simp only [syncSettle, h]
  simp only [holdStage, hSettle, h]

/-- The stages on a set of coaches run on to their next preemption points. -/
theorem co_holdStages {l : List Coach} {d : Coach} {s : State} (h : d ∉ l ∨ (co d s).run = none) : co d (each l holdStage s) = co d s := by
  unfold each
  induction l generalizing s with
  | nil => rfl
  | cons c r ih =>
    have hOther (hne : d ≠ c) : co d (holdStage c s) = co d s :=
      (Frame.holdStage (u := { coach := true, coaches := fun x => x == c }) (K := fun _ => true) rfl (beq_self_eq_true c) (fun _ _ => rfl) (Frame.refl _ _ s)).coaches d
        (beq_eq_false_iff_ne.2 hne)
    have hStep : co d (holdStage c s) = co d s := by
      by_cases hd : d = c
      · obtain h | h := h
        · exact absurd (hd ▸ List.mem_cons_self) h
        · rw [holdStage_idle (hd ▸ h)]
      · exact hOther hd
    rw [List.foldl_cons, ih (by rw [hStep]; exact h.imp_left fun hn hm => hn (List.mem_cons_of_mem _ hm)), hStep]

theorem sliceEnd_switches {n m : Ctx} {s : State} (hRes : resident n s = true) (hTo : (cx n s).switchTo = none) (hNext : nextMember n (raise 31 s) = some m) :
    sliceEnd n s = (let v := modCx n (fun c => { c with switchE := some (raise 31 s).now, switchP := none, switchTo := some m.val, moving := partMask n (raise 31 s) }) (raise 31 s)
      each (coachesOf (partMask n v)) holdStage v) := by
  simp only [sliceEnd, hRes, hTo, hNext, Bool.not_true, Option.isSome_none, Bool.or_self, Bool.false_eq_true, if_false]

theorem rd_pend_signal {s : State} (h : s.regsWf = true) (k : Slot) (hDom : domOpen 17 (slotDisarm k s) = true) (hOn : domOn 20 (slotDisarm k s) = true) (x : Nat) (hx : x < 8) :
    rd (pendF (srcFast (16 + x) s) (16 + x)) (raise (16 + x) (slotDisarm k s)) = 1 := by
  have hSrc : srcDom (16 + x) = 17 ∧ evReserved (16 + x) = false := by
    revert x
    decide
  have hFast : srcFast (16 + x) (slotDisarm k s) = srcFast (16 + x) s := by
    rw [srcFast, srcFast, rdB, rdB, rd_slotDisarm h k]
    simp only [EV_CLASS.FAST, Fld.key]
    omega
  rw [← hFast]
  exact rd_pend_raise (regsWf_slotDisarm h k) (by omega) (by rw [hSrc.1]; exact hDom) hSrc.2 hOn

theorem waitCounts_apart : ∀ g ∈ waitCounts, g.key < 64 * 0x101000 ∨ 64 * 0x102000 ≤ g.key := by decide

theorem partition_apart : ∀ n : Ctx, evKey (GL_CTX_STATUS.PARTITION (cid n)).key = false ∧ (GL_CTX_STATUS.PARTITION (cid n)).key < 64 * 0x101000 := by decide

/-- The switch with which a slice ends, before its stages run on to their points (R249 step 1). -/
def switchBegin (n m : Ctx) (s : State) : State :=
  modCx n (fun c => { c with switchE := some s.now, switchP := none, switchTo := some m.val, moving := partMask n s }) s

/-- A slice that a slot ends: the switch begins, and each stage of the partition runs on. -/
def sliceSwitch (k : Slot) (n m : Ctx) (s : State) : State :=
  each (coachesOf (partMask n (switchBegin n m (raise 31 (slotDisarm k s))))) holdStage (switchBegin n m (raise 31 (slotDisarm k s)))

/-- The units of a switch that begins. -/
def switchParts (n : Ctx) : Parts := { pw := true, ctx := true, coach := true, ctxs := fun x => x == n, coaches := fun _ => true }

section
variable {K : Nat → Bool} (hWaits : ∀ f ∈ waitCounts, K f.key = true) (k : Slot) (n m : Ctx) (s : State)
include hWaits

theorem holdStages_frame {u : Parts} (hu : u.coach = true) (hc : ∀ c, u.coaches c = true) {v t : State} (l : List Coach) (h : Frame u K v t) :
    Frame u K v (each l holdStage t) :=
  Frame.each _ (fun c _ _ hw => hw.holdStage hu (hc c) hWaits) h

theorem sliceSwitch_frame (hEv : EvIn K) (hArmed : K (TT_SLOT_ACT.ARMED k.val).key = true) : Frame (switchParts n) K s (sliceSwitch k n m s) :=
  holdStages_frame hWaits rfl (fun _ => rfl) _ (((slotDisarm_frame k hArmed s).raise rfl hEv 31).modCx rfl n (beq_self_eq_true n) _)

end

section
variable {s : State} (h : s.regsWf = true) (k : Slot) (n m : Ctx)

theorem cx_sliceSwitch (x : Ctx) : cx x (sliceSwitch k n m s) = cx x (switchBegin n m (raise 31 (slotDisarm k s))) :=
  (holdStages_frame (u := { coach := true, coaches := fun _ => true }) (K := fun _ => true) (fun _ _ => rfl) rfl (fun _ => rfl) _ (Frame.refl _ _ _)).ctxs x rfl

include h

theorem rd_armed_sliceSwitch : rd (TT_SLOT_ACT.ARMED k.val) (sliceSwitch k n m s) = 0 := by
  have hFrame : Frame (switchParts n) (evOr waitCounts) (slotDisarm k s) (sliceSwitch k n m s) :=
    holdStages_frame (fun f hf => evOr_mem hf) rfl (fun _ => rfl) _ (((Frame.refl _ _ _).raise rfl (evIn_evOr _) 31).modCx rfl n (beq_self_eq_true n) _)
  have hEv := evKey_armed k
  have hApart : keysOf waitCounts (TT_SLOT_ACT.ARMED k.val).key = false := keysOf_eq_false.2 fun g hg => by
    have hg' := waitCounts_apart g hg
    simp only [TT_SLOT_ACT.ARMED, Fld.key] at hg' ⊢
    omega
  have hOwn : ownKey (TT_SLOT_ACT.ARMED k.val).key = false := Bool.eq_false_iff.2 fun e => by simp [evKey_of_own e] at hEv
  rw [hFrame.regs (regsWf_slotDisarm h k) _ hOwn (Bool.or_eq_false_iff.2 ⟨hEv, hApart⟩), rd_armed_slotDisarm h]

theorem partMask_raised : partMask n (raise 31 (slotDisarm k s)) = partMask n s := by
  rw [partMask, rd_raise (regsWf_slotDisarm h k) 31 (partition_apart n).1, rd_slotDisarm h k (.inl (partition_apart n).2)]
  rfl

theorem co_sliceSwitch (d : Coach) (hd : d ∉ coachesOf (partMask n s) ∨ (co d s).run = none) : co d (sliceSwitch k n m s) = co d s := by
  have hStart : co d (switchBegin n m (raise 31 (slotDisarm k s))) = co d s := by
    change co d (raise 31 (slotDisarm k s)) = co d (slotDisarm k s)
    rw [(raise_heard 31 (Heard.refl (slotDisarm k s))).rest]
    rfl
  have hMask : partMask n (switchBegin n m (raise 31 (slotDisarm k s))) = partMask n s := partMask_raised h k n
  rw [sliceSwitch, hMask, co_holdStages (by rwa [hStart]), hStart]

theorem switchBegin_fields : (cx n (sliceSwitch k n m s)).switchTo = some m.val ∧ (cx n (sliceSwitch k n m s)).switchE = some s.now ∧
    (cx n (sliceSwitch k n m s)).switchP = none ∧ (cx n (sliceSwitch k n m s)).moving = partMask n s := by
  have hNow : (raise 31 (slotDisarm k s)).now = s.now := by
    rw [(raise_heard 31 (Heard.refl (slotDisarm k s))).rest]
    rfl
  rw [cx_sliceSwitch, switchBegin, cx_modCx, hNow, partMask_raised h]
  exact ⟨rfl, rfl, rfl, rfl⟩

end

/-- Settles O18: what each of the three actions leaves of the state, and the switch with which a slice ends. -/
theorem signalNoneAndSliceSlotsFire : Obligations.SignalNoneAndSliceSlotsFire := by
  unfold Obligations.SignalNoneAndSliceSlotsFire
  intro s k h
  have hDisarmed := regsWf_slotDisarm h k
  refine ⟨fun hFires => ?none, fun hFires hOn => ?signal, fun c m hFires hCtx hRes hTo hNext => ?slice⟩
  case none =>
    have hExec : execSlotNone k s = .next (slotDisarm k s) := by simp [execSlotNone, hFires]
    exact ⟨_, hExec, rd_armed_slotDisarm h k, (slotDisarm_frame (u := {}) k (keysOf_mem (by simp)) s).kept h, rfl⟩
  case signal =>
    have hExec : execSlotSignal k s = .next (raise (16 + rd (TT_SLOT_ACT.ARG k.val) s % 8) (slotDisarm k s)) := by simp [execSlotSignal, hFires]
    have hFrame := (slotDisarm_frame (u := { pw := true }) k (evOr_mem (by simp)) s).raise rfl (evIn_evOr [TT_SLOT_ACT.ARMED k.val]) (16 + rd (TT_SLOT_ACT.ARG k.val) s % 8)
    refine ⟨_, hExec, ?_, ?_, hFrame.keptEv h, hFrame.eq⟩
    · rw [rd_raise hDisarmed _ (evKey_armed k), rd_armed_slotDisarm h]
    · have hDom : domOpen 17 (slotDisarm k s) = true := by
        rw [domOpen, domOn, rdB, rd_slotDisarm h k (by decide)]
        exact slotFires_open hFires
      have hOn' : domOn 20 (slotDisarm k s) = true := by rw [domOn, rdB, rd_slotDisarm h k (by decide)]; exact hOn
      exact rd_pend_signal h k hDom hOn' (rd (TT_SLOT_ACT.ARG k.val) s % 8) (Nat.mod_lt _ (by decide))
  case slice =>
    have hExec : execSlotSlice k s = .next (sliceEnd c (slotDisarm k s)) := by
      have hCtx' : ctxOf (rd (TT_SLOT_ACT.CTX k.val) (slotDisarm k s)) = some c := by
        rw [show rd (TT_SLOT_ACT.CTX k.val) (slotDisarm k s) = rd (TT_SLOT_ACT.CTX k.val) s from rd_wr_ne h _ _ _ (by simp [Fld.key, TT_SLOT_ACT.CTX, TT_SLOT_ACT.ARMED])]
        exact hCtx
      simp [execSlotSlice, hFires, hCtx']
    rw [sliceEnd_switches hRes hTo hNext] at hExec
    have hFrame := sliceSwitch_frame (K := evOr (TT_SLOT_ACT.ARMED k.val :: waitCounts)) (fun f hf => evOr_mem (List.mem_cons_of_mem _ hf)) k c m s (evIn_evOr _)
      (evOr_mem List.mem_cons_self)
    obtain ⟨hSwitch, hSince, hPoint, hMoving⟩ := switchBegin_fields h k c m
    exact ⟨sliceSwitch k c m s, hExec, rd_armed_sliceSwitch h k c m, hSwitch, hSince, hPoint, hMoving, fun x hx => hFrame.ctxs x (beq_eq_false_iff_ne.2 hx),
      fun d hd => co_sliceSwitch h k c m d hd, hFrame.keptEv h, hFrame.eq⟩

end Sys2Proof.Machine

/-! SUPPORT. Rows that slots release and judge (R55 to R58, R60, R184, R218), and O19. -/

namespace Sys2Proof.Machine

/-- The registers of the Timetable's slots. -/
def slotKey (k : Nat) : Bool := decide (64 * 0x101000 ≤ k) && decide (k < 64 * 0x102000)

theorem slotKey_of {f : Fld} (hLo : f.lo < 64) (hAddr : 0x101000 ≤ f.addr) (hEnd : f.addr < 0x102000) : slotKey f.key = true :=
  Bool.and_eq_true_iff.2 ⟨decide_eq_true (by simp only [Fld.key]; omega), decide_eq_true (by simp only [Fld.key]; omega)⟩

theorem slotKey_fields (k : Nat) (hk : k < 256) : slotKey (TT_SLOT_TGT.LINE k).key = true ∧ slotKey (TT_SLOT_ACT.ACTION k).key = true ∧
    slotKey (TT_SLOT_ACT.CTX k).key = true ∧ slotKey (TT_SLOT_ACT.ARG k).key = true ∧ slotKey (TT_SLOT_ACT.ARMED k).key = true := by
  have hTgt : 0x101000 ≤ 0x101000 + 0x10 * k ∧ 0x101000 + 0x10 * k < 0x102000 := by omega
  have hAct : 0x101000 ≤ 0x101008 + 0x10 * k ∧ 0x101008 + 0x10 * k < 0x102000 := by omega
  have hLo : 0 < 64 ∧ 3 < 64 ∧ 4 < 64 ∧ 8 < 64 := by decide
  exact ⟨slotKey_of hLo.1 hTgt.1 hTgt.2, slotKey_of hLo.1 hAct.1 hAct.2, slotKey_of hLo.2.2.1 hAct.1 hAct.2, slotKey_of hLo.2.2.2 hAct.1 hAct.2,
    slotKey_of hLo.2.1 hAct.1 hAct.2⟩

/-- Slots are armed: their registers, and when they were (R54). -/
theorem Frame.armSlot {u : Parts} {K : Nat → Bool} {s t : State} (hu : u.tt = true) (hK : ∀ k, slotKey k = true → K k = true) (a b c d : Nat) (h : Frame u K s t) :
    Frame u K s (armSlot a b c d t) := by
  unfold Machine.armSlot
  split
  · exact h
  · next k hk =>
    have hk := List.mem_range.1 (List.mem_of_find?_eq_some hk)
    obtain ⟨h1, h2, h3, h4, h5⟩ := slotKey_fields k hk
    refine Frame.ttUpd hu _ (h.wrs _ fun x hx => hK _ ?_)
    simp only [List.mem_cons, List.not_mem_nil, or_false] at hx
    rcases hx with rfl | rfl | rfl | rfl | rfl <;> assumption

theorem Frame.armRows {u : Parts} {K : Nat → Bool} {s t : State} (hu : u.tt = true) (hCtx : u.ctx = true) {n : Ctx} (hn : u.ctxs n = true)
    (hK : ∀ k, slotKey k = true → K k = true) (h : Frame u K s t) : Frame u K s (armRows n t) := by
  unfold Machine.armRows
  split
  · exact h
  · exact Frame.modCx hCtx n hn _ (Frame.each _ (fun r _ _ hv => (hv.armSlot hu hK _ _ _ _).armSlot hu hK _ _ _ _) h)

theorem armRows_frame (n : Ctx) (s : State) : Frame { tt := true, ctx := true, ctxs := fun x => x == n } slotKey s (armRows n s) :=
  (Frame.refl _ _ s).armRows rfl rfl (beq_self_eq_true n) (fun _ => id)

/-- Of a job, the next row to arm is all that arming changes. -/
theorem job_armRows {n : Ctx} {j : JobSt} {s : State} (h : (cx n s).job = some j) : ∃ a, (cx n (armRows n s)).job = some { j with armRow := a } := by
  simp only [armRows, h, cx_modCx]
  exact ⟨_, rfl⟩

theorem armSlot_released (a b c d : Nat) (s : State) : (armSlot a b c d s).tt.released = s.tt.released := by
  have hTt (l : List (Fld × Nat)) (v : State) : (wrs l v).tt = v.tt := (Frame.wrs (u := {}) (K := fun _ => true) l (fun _ _ => rfl) (Frame.refl _ _ v)).tt rfl
  unfold armSlot
  split
  · rfl
  · dsimp only
    rw [hTt]

theorem each_armSlot_released (l : List Nat) (g : Nat → State → State) (hg : ∀ x t, (g x t).tt.released = t.tt.released) (s : State) :
    (each l g s).tt.released = s.tt.released := by
  unfold each
  induction l generalizing s with
  | nil => rfl
  | cons x r ih => rw [List.foldl_cons, ih, hg]

theorem armRows_released (n : Ctx) (s : State) : (armRows n s).tt.released = s.tt.released := by
  unfold armRows
  split
  · rfl
  · exact each_armSlot_released _ _ (fun x t => by rw [armSlot_released, armSlot_released]) s

theorem cx_withTt (n : Ctx) (s : State) (x : TtSt) : cx n { s with tt := x } = cx n s := rfl

theorem cx_slotDisarm (n : Ctx) (k : Slot) (s : State) : cx n (slotDisarm k s) = cx n s := rfl

theorem stampRead_slotDisarm {s : State} (h : s.regsWf = true) (k : Slot) (n : Ctx) (row line : Nat) :
    stampRead n row line (slotDisarm k s) = slotDisarm k (stampRead n row line s) := by
  have hOn : domOn 18 (slotDisarm k s) = domOn 18 s := by rw [domOn, domOn, rdB, rdB, rd_slotDisarm h k (by decide)]
  have hCfg : (cx n (slotDisarm k s)).cfg = (cx n s).cfg := rfl
  simp only [stampRead, ownReadFor, ownPush, hOn, hCfg]
  split <;> rfl

theorem stampRead_frame (n : Ctx) (row line : Nat) (s : State) : Frame { mp := true } (fun _ => false) s (stampRead n row line s) :=
  (Frame.refl _ _ s).ownReadFor rfl _ _ _ _ _ _ _

theorem stampReads_slotDisarm {s : State} (h : s.regsWf = true) (k : Slot) (n : Ctx) (row first : Nat) :
    stampReads n row first (slotDisarm k s) = slotDisarm k (stampReads n row first s) := by
  rw [stampReads, stampRead_slotDisarm h, stampRead_slotDisarm ((stampRead_frame ..).wf h)]
  rfl

theorem stampReads_frame (n : Ctx) (row first : Nat) (s : State) : Frame { mp := true } (fun _ => false) s (stampReads n row first s) :=
  (stampRead_frame ..).trans (stampRead_frame ..)

section
variable {s : State} (h : s.regsWf = true) (k : Slot)
include h

theorem ttState_slotDisarm : ttState (slotDisarm k s) = ttState s := rd_slotDisarm h k (by decide)

theorem partMask_slotDisarm (n : Ctx) : partMask n (slotDisarm k s) = partMask n s := rd_slotDisarm h k (.inl (partition_apart n).2)

theorem cxState_slotDisarm (n : Ctx) : cxState n (slotDisarm k s) = cxState n s := by
  have hApart : ∀ n : Ctx, (GL_CTX_STATUS.STATE (cid n)).key < 64 * 0x101000 := by decide
  exact rd_slotDisarm h k (.inl (hApart n))

theorem rowsHeld_slotDisarm (n : Ctx) : rowsHeld n (slotDisarm k s) = rowsHeld n s := by
  have hFinished (r : RowSt) : rowFinished n r (slotDisarm k s) = rowFinished n r s := by
    rw [rowFinished, rowFinished, partMask_slotDisarm h]
    rfl
  simp only [rowsHeld, hFinished]
  rfl

theorem slot_kept : rd (TT_SLOT_ACT.CTX k.val) (slotDisarm k s) = rd (TT_SLOT_ACT.CTX k.val) s ∧ rd (TT_SLOT_ACT.ARG k.val) (slotDisarm k s) = rd (TT_SLOT_ACT.ARG k.val) s :=
  ⟨rd_wr_ne h _ _ _ (by simp [Fld.key, TT_SLOT_ACT.CTX, TT_SLOT_ACT.ARMED]), rd_wr_ne h _ _ _ (by simp [Fld.key, TT_SLOT_ACT.ARG, TT_SLOT_ACT.ARMED])⟩

end

theorem haloRelease_alone {n : Ctx} {j : JobSt} {s : State} (hJob : (cx n s).job = some j) (hAlone : j.tandem = false) (r : Nat) : haloRelease n r s = s := by
  simp only [haloRelease, hJob, hAlone, Bool.not_false, if_true]

/-- The row that a release hands over, or drops, is its job's, with the cycle of the release. -/
theorem addRow_job {n : Ctx} {j : JobSt} {s : State} (x : RowSt) (hJob : (cx n s).job = some j) :
    ∃ j', (cx n (addRow n x s)).job = some j' ∧ j'.relRow = x.row + 1 ∧ x ∈ j'.rows := by
  rw [addRow, cx_modCx, hJob]
  exact ⟨_, rfl, rfl, by simp⟩

theorem newRow_fields (j : JobSt) (r : Nat) (d m : Bool) (s : State) : (newRow j r d m s).row = r ∧ (newRow j r d m s).relAt = s.now ∧
    (newRow j r d m s).dropped = d ∧ (newRow j r d m s).posted = false ∧ (newRow j r d m s).mismatch = m := ⟨rfl, rfl, rfl, rfl, rfl⟩

/-- One more row is released (R494). -/
def rowHanded (s : State) : State := { s with tt := { s.tt with released := s.tt.released + 1 } }

theorem rowHanded_kept (n : Ctx) (y : RowSt) (s : State) : (addRow n y (rowHanded s)).tt.released = s.tt.released + 1 ∧ (addRow n y (rowHanded s)).mp = s.mp ∧
    (cx n (rowHanded s)) = cx n s := ⟨rfl, rfl, rfl⟩

theorem addRow_armRows_job {n : Ctx} {j : JobSt} {s : State} (x : RowSt) (hJob : (cx n s).job = some j) :
    ∃ j', (cx n (armRows n (addRow n x s))).job = some j' ∧ j'.relRow = x.row + 1 ∧ x ∈ j'.rows := by
  obtain ⟨j', hAdded, hRel, hMem⟩ := addRow_job x hJob
  obtain ⟨a, hArmed⟩ := job_armRows hAdded
  exact ⟨_, hArmed, hRel, hMem⟩

theorem execSlotRelease_fires {k : Slot} {c : Ctx} {s : State} (h : s.regsWf = true) (hFires : slotFires k [1] s = true)
    (hCtx : ctxOf (rd (TT_SLOT_ACT.CTX k.val) s) = some c) (obs : RowObs) :
    exec (.slotRelease k obs) s = .next (releaseRow c (rd (TT_SLOT_ACT.ARG k.val) s) (slotDisarm k s)) := by
  obtain ⟨hC, hA⟩ := slot_kept h k
  change execSlotRelease k obs s = _
  simp [execSlotRelease, hFires, hC, hA, hCtx]

theorem execSlotDeadline_fires {k : Slot} {c : Ctx} {s : State} (h : s.regsWf = true) (hFires : slotFires k [2] s = true)
    (hCtx : ctxOf (rd (TT_SLOT_ACT.CTX k.val) s) = some c) :
    exec (.slotDeadline k) s = .next (judgeRow c (rd (TT_SLOT_ACT.ARG k.val) s) (slotDisarm k s)) := by
  obtain ⟨hC, hA⟩ := slot_kept h k
  change execSlotDeadline k s = _
  simp [execSlotDeadline, hFires, hC, hA, hCtx]

section
variable {s : State} {n : Ctx} {j : JobSt} (hJob : (cx n s).job = some j) (hRun : cxState n s = 3) (hJobRuns : j.running = true) (hAlone : j.tandem = false) (arg : Nat)
include hJob hRun hJobRuns hAlone

/-- A release in FAULT drops its row (R60). -/
theorem releaseRow_fault (hFault : ttState s = 6) :
    releaseRow n arg s = armRows n (addRow n (newRow j (argRow j arg) true false s) (inc TT_ROW_CNT.SKIPPED s)) := by
  simp only [releaseRow, hJob, hRun, hJobRuns, haloRelease_alone hJob hAlone, hFault, bne_self_eq_false, Bool.not_true, Bool.or_self, Bool.false_eq_true, if_false,
    beq_self_eq_true, if_true]

/-- A release that is taken reads the stamps of its row's window (R55, R218). -/
theorem releaseRow_taken (hState : ttState s ≠ 6) (hHeld : rowsHeld n s < 4) {v : State} (hv : stampReads n (argRow j arg) (j.j0 + 256 * argRow j arg) s = v) :
    releaseRow n arg s = armRows n (addRow n (newRow j (argRow j arg) false false v) (rowHanded v)) := by
  subst hv
  simp only [releaseRow, hJob, hRun, hJobRuns, haloRelease_alone hJob hAlone, beq_eq_false_iff_ne.2 hState, bne_self_eq_false, Bool.not_true, Bool.or_self,
    Bool.false_eq_true, if_false, Nat.not_le.2 hHeld]
  rfl

end

section
variable {s : State} (h : s.regsWf = true) {k : Slot} {c : Ctx} (hCtx : ctxOf (rd (TT_SLOT_ACT.CTX k.val) s) = some c) {j : JobSt} (hJob : (cx c s).job = some j)
include h hCtx hJob

theorem slotRelease_taken (hFires : slotFires k [1] s = true) (hRun : cxState c s = 3) (hJobRuns : j.running = true) (hAlone : j.tandem = false)
    (hState : ttState s ≠ 6) (hHeld : rowsHeld c s < 4) (obs : RowObs) {r : Nat} (hRow : r = argRow j (rd (TT_SLOT_ACT.ARG k.val) s)) :
    ∃ t, exec (.slotRelease k obs) s = .next t ∧ t.tt.released = s.tt.released + 1 ∧ t.mp = (stampReads c r (j.j0 + 256 * r) s).mp ∧
      ∃ j' x, (cx c t).job = some j' ∧ j'.relRow = r + 1 ∧ x ∈ j'.rows ∧ x.row = r ∧ x.relAt = s.now ∧ x.dropped = false ∧ x.posted = false ∧ x.mismatch = false := by
  have hExec := execSlotRelease_fires h hFires hCtx obs
  have hRead := stampReads_slotDisarm h k c r (j.j0 + 256 * r)
  have hFrame := stampReads_frame c r (j.j0 + 256 * r) s
  generalize stampReads c r (j.j0 + 256 * r) s = v at hRead hFrame ⊢
  subst hRow
  rw [releaseRow_taken (s := slotDisarm k s) hJob (by rwa [cxState_slotDisarm h]) hJobRuns hAlone _ (by rwa [ttState_slotDisarm h]) (by rwa [rowsHeld_slotDisarm h]) hRead] at hExec
  generalize argRow j (rd (TT_SLOT_ACT.ARG k.val) s) = r at hExec ⊢
  obtain ⟨hReleased, hMp, hCx⟩ := rowHanded_kept c (newRow j r false false (slotDisarm k v)) (slotDisarm k v)
  have hJobV : (cx c (rowHanded (slotDisarm k v))).job = some j := by rw [hCx, cx_slotDisarm, hFrame.ctxs c rfl, hJob]
  obtain ⟨j', hJob', hRel, hMem⟩ := addRow_armRows_job (newRow j r false false (slotDisarm k v)) hJobV
  obtain ⟨hRow, hAt, hDropped, hPosted, hMismatch⟩ := newRow_fields j r false false (slotDisarm k v)
  refine ⟨_, hExec, ?_, ?_, j', _, hJob', by rw [hRel, hRow], hMem, hRow, ?_, hDropped, hPosted, hMismatch⟩
  · rw [armRows_released, hReleased, slotDisarm, wr_tt, hFrame.tt rfl]
  · rw [(armRows_frame c _).mp rfl, hMp, slotDisarm, wr_mp]
  · rw [hAt, slotDisarm, wr_now, hFrame.now]

theorem slotRelease_fault (hFires : slotFires k [1] s = true) (hRun : cxState c s = 3) (hJobRuns : j.running = true) (hAlone : j.tandem = false)
    (hState : ttState s = 6) (obs : RowObs) {r : Nat} (hRow : r = argRow j (rd (TT_SLOT_ACT.ARG k.val) s)) :
    ∃ t, exec (.slotRelease k obs) s = .next t ∧ t.tt.released = s.tt.released ∧ t.mp = s.mp ∧
      rd TT_ROW_CNT.SKIPPED t = sat TT_ROW_CNT.SKIPPED (rd TT_ROW_CNT.SKIPPED s + 1) ∧
      ∃ j' x, (cx c t).job = some j' ∧ x ∈ j'.rows ∧ x.row = r ∧ x.dropped = true := by
  have hExec := execSlotRelease_fires h hFires hCtx obs
  have hWf := regsWf_slotDisarm h k
  rw [releaseRow_fault (s := slotDisarm k s) hJob (by rwa [cxState_slotDisarm h]) hJobRuns hAlone _ (by rwa [ttState_slotDisarm h]), ← hRow] at hExec
  obtain ⟨j', hJob', -, hMem⟩ := addRow_armRows_job (newRow j r true false (slotDisarm k s)) (s := inc TT_ROW_CNT.SKIPPED (slotDisarm k s)) hJob
  have hAdded : (addRow c (newRow j r true false (slotDisarm k s)) (inc TT_ROW_CNT.SKIPPED (slotDisarm k s))).regsWf = true := regsWf_wr hWf _ _
  refine ⟨_, hExec, armRows_released c _, (armRows_frame c _).mp rfl, ?_, j', _, hJob', hMem, rfl, rfl⟩
  rw [(armRows_frame c _).regs hAdded _ (by decide) (by decide)]
  exact (rd_inc_same hWf _).trans (by rw [rd_slotDisarm h k (by decide)]; rfl)

end

/-- The rows of a job that has judged one more of them (R57). -/
def judgedTo (n : Ctx) (r : Nat) (s : State) : State := modCx n (fun c => { c with job := c.job.map (fun x => { x with judged := r + 1 }) }) s

theorem judgeRow_found {n : Ctx} {j : JobSt} {x : RowSt} {s : State} (hJob : (cx n s).job = some j) {arg r : Nat} (hRow : r = argRow j arg)
    (hFind : j.rows.find? (fun y => y.row == r) = some x) : judgeRow n arg s =
      if x.allRun = true ∧ ttState s = 1 then
        (if x.posted = true then judgedTo n r s else { judgedTo n r s with tt := { s.tt with dueRows := s.tt.dueRows ++ [(n.val, r)] } })
      else inc TT_ROW_CNT.WAIVED (judgedTo n r s) := by
  subst hRow
  have hState : ttState (judgedTo n (argRow j arg) s) = ttState s := rfl
  simp only [judgedTo] at hState
  simp only [judgeRow, hJob, hFind, hState, judgedTo]
  by_cases hRun : x.allRun = true ∧ ttState s = 1
  · simp [hRun.1, hRun.2]
  · have hWaived : (!x.allRun || ttState s != 1) = true := by
      by_cases hAll : x.allRun = true
      · simpa [hAll] using hRun
      · simp [hAll]
    rw [if_pos hWaived, if_neg hRun]

theorem rd_judgedTo (f : Fld) (n : Ctx) (r : Nat) (s : State) : rd f (judgedTo n r s) = rd f s := rfl

theorem judgedTo_eq (n : Ctx) (r : Nat) (s : State) : judgedTo n r s = { s with ctx := (judgedTo n r s).ctx } := rfl

/-- The units that the judgement of a row can change. -/
def judgeParts : Parts := { tt := true, ctx := true, ctxs := fun _ => true }

theorem cx_inc (n : Ctx) (f : Fld) (s : State) : cx n (inc f s) = cx n s := rfl

theorem job_judgedTo {n : Ctx} {j : JobSt} {s : State} (hJob : (cx n s).job = some j) (r : Nat) : (cx n (judgedTo n r s)).job = some { j with judged := r + 1 } := by
  rw [judgedTo, cx_modCx, hJob]
  rfl

section
variable {s : State} (h : s.regsWf = true) {k : Slot} {c : Ctx} (hCtx : ctxOf (rd (TT_SLOT_ACT.CTX k.val) s) = some c) {j : JobSt} (hJob : (cx c s).job = some j)
include h hCtx hJob

theorem slotDeadline_judges (hFires : slotFires k [2] s = true) {r : Nat} (hRow : r = argRow j (rd (TT_SLOT_ACT.ARG k.val) s)) {x : RowSt}
    (hFind : j.rows.find? (fun y => y.row == r) = some x) :
    ∃ t, exec (.slotDeadline k) s = .next t ∧ rd (TT_SLOT_ACT.ARMED k.val) t = 0 ∧ (cx c t).job = some { j with judged := r + 1 } ∧
      t.tt.dueRows = (if x.posted = false ∧ x.allRun = true ∧ ttState s = 1 then s.tt.dueRows ++ [(c.val, r)] else s.tt.dueRows) ∧
      rd TT_ROW_CNT.WAIVED t = (if ¬(x.allRun = true ∧ ttState s = 1) then sat TT_ROW_CNT.WAIVED (rd TT_ROW_CNT.WAIVED s + 1) else rd TT_ROW_CNT.WAIVED s) ∧
      s.kept [TT_SLOT_ACT.ARMED k.val, TT_ROW_CNT.WAIVED] t ∧ t = { s with regs := t.regs, ctx := t.ctx, tt := { s.tt with dueRows := t.tt.dueRows } } := by
  have hExec := execSlotDeadline_fires h hFires hCtx
  have hWf := regsWf_slotDisarm h k
  have hJob' : (cx c (slotDisarm k s)).job = some j := hJob
  have hJudged := job_judgedTo hJob' r
  have hArmed := rd_armed_slotDisarm h k
  have hWaived : rd TT_ROW_CNT.WAIVED (slotDisarm k s) = rd TT_ROW_CNT.WAIVED s := rd_slotDisarm h k (by decide)
  have hKept : s.kept [TT_SLOT_ACT.ARMED k.val, TT_ROW_CNT.WAIVED] (slotDisarm k s) := fun f _ hf => rd_wr_ne h _ _ _ (hf _ List.mem_cons_self)
  rw [judgeRow_found hJob' hRow hFind, ttState_slotDisarm h, show (slotDisarm k s).tt = s.tt from wr_tt ..] at hExec
  have hJudgedFrame : Frame judgeParts (keysOf [TT_SLOT_ACT.ARMED k.val, TT_ROW_CNT.WAIVED]) s (judgedTo c r (slotDisarm k s)) :=
    (slotDisarm_frame k (keysOf_mem (by simp)) s).modCx rfl c rfl _
  have hTt : (judgedTo c r (slotDisarm k s)).tt = s.tt := by rw [judgedTo_eq, slotDisarm, wr_tt]
  by_cases hRun : x.allRun = true ∧ ttState s = 1
  · rw [if_pos hRun] at hExec
    by_cases hPosted : x.posted = true
    · rw [if_pos hPosted] at hExec
      refine ⟨_, hExec, ?_, hJudged, ?_, ?_, hJudgedFrame.kept h, ?_⟩
      · rw [rd_judgedTo, hArmed]
      · rw [hTt, if_neg (by simp [hPosted])]
      · rw [rd_judgedTo, hWaived, if_neg (not_not_intro hRun)]
      · have hEq := hJudgedFrame.eq
        rw [hTt] at hEq
        exact hTt ▸ hEq
    · rw [if_neg hPosted] at hExec
      have hDueFrame := hJudgedFrame.ttUpd rfl { s.tt with dueRows := s.tt.dueRows ++ [(c.val, r)] }
      refine ⟨_, hExec, ?_, ?_, ?_, ?_, hDueFrame.kept h, ?_⟩
      · rw [rd_withTt, rd_judgedTo, hArmed]
      · rw [cx_withTt, hJudged]
      · rw [if_pos ⟨Bool.eq_false_iff.2 hPosted, hRun⟩]
      · rw [rd_withTt, rd_judgedTo, hWaived, if_neg (not_not_intro hRun)]
      · exact hDueFrame.eq
  · rw [if_neg hRun] at hExec
    have hCounted := hJudgedFrame.inc TT_ROW_CNT.WAIVED (keysOf_mem (by simp))
    have hApart : (TT_SLOT_ACT.ARMED k.val).key ≠ TT_ROW_CNT.WAIVED.key := by simp only [TT_SLOT_ACT.ARMED, TT_ROW_CNT.WAIVED, Fld.key]; omega
    have hWfJudged := hJudgedFrame.wf h
    have hCountedTt : (inc TT_ROW_CNT.WAIVED (judgedTo c r (slotDisarm k s))).tt = s.tt := by rw [inc, add, wr_tt, hTt]
    refine ⟨_, hExec, ?_, ?_, ?_, ?_, hCounted.kept h, ?_⟩
    · rw [rd_inc_ne hWfJudged _ _ hApart, rd_judgedTo, hArmed]
    · rw [cx_inc, hJudged]
    · rw [hCountedTt, if_neg fun e => hRun e.2]
    · rw [if_pos hRun, rd_inc_same hWfJudged, rd_judgedTo, hWaived]
      rfl
    · have hEq := hCounted.eq
      rw [hCountedTt] at hEq
      exact hCountedTt ▸ hEq

end

/-- Settles O19: releases, judgements, and the end of a cycle in which rows were due. -/
theorem releaseAndDeadlineSlotsJudgeRows : Obligations.ReleaseAndDeadlineSlotsJudgeRows := by
  unfold Obligations.ReleaseAndDeadlineSlotsJudgeRows
  refine ⟨fun s k => ⟨fun hNot obs => ?idleRelease, fun hNot => ?idleDeadline⟩, fun s k c j obs r h hCtx hJob hRow => ⟨fun hFires hRun hJobRuns hState hHeld hAlone => ?taken,
    fun hFires hRun hJobRuns hState hAlone => ?fault, fun x hFires hFind => ?judge⟩, fun s c r x h hDue hFind => ?cycle⟩
  case idleRelease =>
    change execSlotRelease k obs s = _
    simp [execSlotRelease, hNot]
  case idleDeadline =>
    change execSlotDeadline k s = _
    simp [execSlotDeadline, hNot]
  case taken => exact slotRelease_taken h hCtx hJob hFires hRun hJobRuns hAlone hState hHeld obs hRow
  case fault => exact slotRelease_fault h hCtx hJob hFires hRun hJobRuns hAlone hState obs hRow
  case judge => exact slotDeadline_judges h hCtx hJob hFires hRow hFind
  case cycle =>
    have hCtx : ctxOf (c.val + 1) = some c := dif_pos ⟨Nat.succ_pos _, c.isLt⟩
    have hCycle : deadlineCycle s = if x.posted then { s with tt := { s.tt with dueRows := [] } }
        else deadlineMiss c r 0 (inc TT_DL_MISS.COUNT { s with tt := { s.tt with dueRows := [] } }) := by
      have hFind' : rowFind c r { s with tt := { s.tt with dueRows := [] } } = some x := hFind
      simp only [deadlineCycle, hDue, each, List.foldl_cons, List.foldl_nil, hCtx, hFind']
    rw [hCycle]
    by_cases hPosted : x.posted = true
    · rw [if_pos hPosted, if_pos hPosted]
      exact ⟨rfl, rfl, fun f _ _ => rfl, fun _ => rfl⟩
    · have hFrame : Frame { pw := true, mb := true, tt := true } (msgOr [TT_DL_MISS.COUNT]) s
          (deadlineMiss c r 0 (inc TT_DL_MISS.COUNT { s with tt := { s.tt with dueRows := [] } })) :=
        Frame.notice rfl rfl (msgIn_msgOr _) _ _ _ _ (Frame.raise rfl (msgIn_msgOr _).ev _ (((Frame.refl _ _ s).ttUpd rfl _).inc _ (msgOr_mem (by simp))))
      have hCounted : (inc TT_DL_MISS.COUNT { s with tt := { s.tt with dueRows := [] } }).regsWf = true := regsWf_wr h _ _
      rw [if_neg hPosted, if_neg hPosted]
      refine ⟨by simp [deadlineMiss], ?_, hFrame.keptMsg h, fun e => absurd e hPosted⟩
      rw [deadlineMiss, rd_notice (regsWf_raise hCounted _) _ _ _ _ (by decide), rd_raise hCounted _ (by decide)]
      exact rd_inc_same h _

end Sys2Proof.Machine

/-! O56. A domain that is asked for again while it is being switched off (R515), and the refutation of O56. -/

namespace Sys2Proof.Machine

/-- PD_TT is being switched off, and has been requested on since. -/
def fallingAgain : State :=
  let s := wrs [(PM_PWR_STATUS.ON 21, 1), (SB_REINS.HOLDERS 2, 1)] State.reset
  { s with pw := { s.pw with falling := [(17, 0)], onAfter := [17] } }

/-- Refutes O56: a domain that is falling and is requested on twice waits once: the second request adds nothing to `onAfter`. -/
theorem not_domainsPowerUpAndOff : ¬ Obligations.DomainsPowerUpAndOff := by
  unfold Obligations.DomainsPowerUpAndOff
  intro h
  obtain ⟨-, -, hOn, -⟩ := h fallingAgain .coachman 17 (by decide +kernel)
  obtain ⟨t, hExec, -, -, -, -, hFalling, -⟩ := hOn (by decide) (by decide +kernel)
  -- A second request finds the first one waiting.
  have hOnce : (match execPwrReq .coachman 17 true fallingAgain with
      | .next t => t.pw.onAfter
      | _ => []) = [17] := by decide +kernel
  change execPwrReq .coachman 17 true fallingAgain = _ at hExec
  rw [hExec] at hOnce
  change t.pw.onAfter = [17] at hOnce
  rw [hFalling (by decide +kernel) (by decide)] at hOnce
  exact absurd hOnce (by decide)

end Sys2Proof.Machine

/-! SUPPORT. Entries that begin (R132, R155, R172, R181, R182, R193), and O20. -/

namespace Sys2Proof.Machine

/-- The SRAMs of a coach after a write of elements to those of a mask (R177). -/
def sramsAfter (mask : Nat) (ws : List (Nat × List Byte)) (v : Vector (SMap Byte) 5) : Vector (SMap Byte) 5 :=
  ((List.finRange 5).filter (fun k => bit mask k.val)).foldl (fun v (k : Fin 5) => v.set k (ws.foldl (fun m w => sramPut m (w.1 % 0x200000) w.2) v[k])) v

theorem co_sramWrite (c : Coach) (mask : Nat) (ws : List (Nat × List Byte)) (s : State) :
    co c (sramWrite c mask ws s) = { co c s with sram := sramsAfter mask ws (co c s).sram } := by
  unfold sramWrite sramsAfter each
  generalize (List.finRange 5).filter (fun k => bit mask k.val) = l
  induction l generalizing s with
  | nil => rfl
  | cons k l ih =>
    rw [List.foldl_cons, ih, co_modCo]
    rfl

theorem Frame.sramWrite {u : Parts} {K : Nat → Bool} {s t : State} {c : Coach} (hu : u.coach = true) (hc : u.coaches c = true) (mask : Nat) (ws : List (Nat × List Byte))
    (h : Frame u K s t) : Frame u K s (sramWrite c mask ws t) := Frame.each _ (fun _ _ _ hv => hv.modCo hu c hc _) h

/-- The SRAMs of a coach after borders of maps have been written (R132). -/
def bordersAfter (bs : List Border) (v : Vector (SMap Byte) 5) : Vector (SMap Byte) 5 :=
  bs.foldl (fun v b => sramsAfter b.mask (borderWrites (coachMem { CoachSt.init with sram := v } ((setBits 5 b.mask).headD 4)) b) v) v

theorem co_borders (c : Coach) (bs : List Border) (s : State) :
    co c (each bs (borderPut c) s) = { co c s with sram := bordersAfter bs (co c s).sram } := by
  unfold bordersAfter each
  induction bs generalizing s with
  | nil => rfl
  | cons b bs ih =>
    rw [List.foldl_cons, ih, borderPut, co_sramWrite]
    rfl

theorem borders_frame {u : Parts} (K : Nat → Bool) {c : Coach} (hu : u.coach = true) (hc : u.coaches c = true) (bs : List Border) (s : State) :
    Frame u K s (each bs (borderPut c) s) := Frame.each _ (fun _ _ _ hv => hv.sramWrite hu hc _ _) (Frame.refl _ _ s)

/-- What an overrun that is charged to a context is shown in, besides its count (R193). -/
def overrunFields (n : Ctx) : List Fld := [GL_WB_OVERRUN.LAST_STAGE (cid n), GL_WB_OVERRUN.LAST_COACH (cid n), GL_WB_STATUS.OVERRUN_SEEN (cid n)]

/-- An overrun is charged once it is counted. -/
theorem Frame.chargeOverrun {u : Parts} {K : Nat → Bool} {s t : State} {n : Ctx} (hPw : u.pw = true) (hMb : u.mb = true) (hu : u.ctx = true) (hn : u.ctxs n = true)
    (hK : MsgIn K) (hF : ∀ f ∈ overrunFields n, K f.key = true) (c : Coach) (p : ProgPos) (ref : Bool) (h : Frame u K s (Machine.inc (GL_WB_OVERRUN.COUNT (cid n)) t)) :
    Frame u K s (chargeOverrun c n p ref t) := by
  have hShown : Frame u K s (Machine.wrs [(GL_WB_OVERRUN.LAST_STAGE (cid n), p.prevStage), (GL_WB_OVERRUN.LAST_COACH (cid n), c.val)]
      (Machine.markBit (GL_WB_STATUS.OVERRUN_SEEN (cid n)) (Machine.raise 74 (Machine.inc (GL_WB_OVERRUN.COUNT (cid n)) t)))) := by
    refine Frame.wrs _ (fun x hx => hF _ ?_) (Frame.markBit _ (hF _ (by simp [overrunFields])) (h.raise hPw hK.ev 74))
    exact fst_mem (by simp [overrunFields]) hx
  have hMarked := Frame.ite (c := ref = true) (hShown.modCx hu n hn fun x => { x with refOverrun := true }) (hShown.modRow hu hn p.prevRow fun r => { r with overrun := true })
  unfold Machine.chargeOverrun
  exact Frame.ite (hMarked.notice hPw hMb hK _ _ _ _) hMarked

/-- What the begin of an entry can reach. -/
def beginParts (c : Coach) (n : Ctx) : Parts := { pw := true, mb := true, ctx := true, coach := true, ctxs := fun x => x == n, coaches := fun x => x == c }

theorem overrun_apart : ∀ n : Ctx, msgOr (overrunFields n) (GL_WB_OVERRUN.COUNT (cid n)).key = false := by decide

theorem chargeOverrun_frame (c : Coach) (n : Ctx) (p : ProgPos) (ref : Bool) (s : State) :
    Frame { pw := true, mb := true, ctx := true, ctxs := fun x => x == n } (msgOr (overrunFields n)) (inc (GL_WB_OVERRUN.COUNT (cid n)) s) (chargeOverrun c n p ref s) :=
  Frame.chargeOverrun rfl rfl rfl (beq_self_eq_true n) (msgIn_msgOr _) (fun _ => msgOr_mem) c p ref (Frame.refl _ _ _)

/-- An entry on a coach and the context that it is begun for: the overrun of the entry before is charged, and the delay shown. -/
def entryCharged (c : Coach) (n : Ctx) (i : Fin 16) (e : NextEnt) (b : Nat) (s : State) : State :=
  let p := (cx n s).prog[i]
  let s := if p.prevWaits != 0 && e.planned < b then chargeOverrun c n p e.ref s else s
  wr (GL_WB_DELAY.MAX (cid n)) (max (rd (GL_WB_DELAY.MAX (cid n)) s) (min (b - e.planned) 0xFFFFFFFF)) s

/-- An entry's run, as it begins (R172). -/
def runBegun (n : Ctx) (i : Fin 16) (e : NextEnt) (b : Nat) (s : State) : RunSt :=
  { ctx := n, index := i, entry := e.index, stage := e.ent.stage, row := e.row, col := e.ent.col, slot := e.ent.slot, planned := e.planned,
    beginAt := b, waits := 0, sync := 0, admitted := 0, runIdx := 0, runAt := 0, stalled := false, drains := [],
    drainAt := 0, satSeen := false, nanSeen := false, fullAt := none,
    stop := if (cx n s).switchTo.isSome then nextPoint (cx n s).image e.ent.stage 0 else none }

/-- A coach with an entry of a reservation that has begun. -/
def coachBegun (r : RunSt) (res : Nat) (released : Nat × Nat) (x : CoachSt) : CoachSt :=
  { x with
    run := some r, winRes := if x.begun then x.winRes else res, winLeft := if x.begun then x.winLeft else res, lastRes := res, begun := true
    ran := released :: x.ran.filter (·.1 != released.1) }

/-- The place of a context's program after the begin of an entry. -/
def progBegun (n : Ctx) (i : Fin 16) (p : ProgPos) (e : NextEnt) (s : State) : State :=
  modCx n (fun x => { x with prog := x.prog.set i { p with entry := e.index, base := e.base } }) s

theorem beginEntry_eq (c : Coach) (n : Ctx) (i : Fin 16) (e : NextEnt) (b : Nat) (s : State) :
    ∃ v, v = progBegun n i ((cx n s).prog[i]) e (entryCharged c n i e b s) ∧ beginEntry c n i e b s =
      wr (CA_STATUS.STATE c.val) 2 (modCo c (coachBegun (runBegun n i e b v) (stRes (cx n v).image e.ent.stage) (cid n, v.tt.released)) v) := by
  refine ⟨_, rfl, ?_⟩
  rw [beginEntry, dif_pos i.isLt]
  rfl

theorem cx_notice (n : Ctx) (c f x : Nat) (p : List Nat) (s : State) : cx n (notice c f x p s) = cx n s := by
  rw [(notice_told c f x p (Told.refl s)).rest]
  rfl

/-- The image of a context is not touched when an overrun is charged to it. -/
theorem image_chargeOverrun (c : Coach) (n : Ctx) (p : ProgPos) (ref : Bool) (s : State) : (cx n (chargeOverrun c n p ref s)).image = (cx n s).image := by
  have hShown : cx n (wrs [(GL_WB_OVERRUN.LAST_STAGE (cid n), p.prevStage), (GL_WB_OVERRUN.LAST_COACH (cid n), c.val)]
      (markBit (GL_WB_STATUS.OVERRUN_SEEN (cid n)) (raise 74 (inc (GL_WB_OVERRUN.COUNT (cid n)) s)))) = cx n s :=
    cx_raise n 74 _
  have hNoticed (a : Prop) [Decidable a] (l : List Nat) (v : State) : (cx n (if a then notice 0x06 0 (cid n) l v else v)).image = (cx n v).image := by
    rw [apply_ite (cx n), cx_notice, ite_self]
  unfold chargeOverrun
  refine (hNoticed _ _ _).trans ?_
  cases ref <;> simp only [if_true, Bool.false_eq_true, if_false, modRow, cx_modCx, hShown]

/-- The fields that the begin of an entry writes. -/
def beginFields (c : Coach) (n : Ctx) : List Fld := [CA_STATUS.STATE c.val, GL_WB_DELAY.MAX (cid n), GL_WB_OVERRUN.COUNT (cid n), GL_WB_OVERRUN.LAST_STAGE (cid n),
  GL_WB_OVERRUN.LAST_COACH (cid n), GL_WB_STATUS.OVERRUN_SEEN (cid n)]

theorem overrun_begin (c : Coach) (n : Ctx) : overrunFields n ⊆ beginFields c n := by simp [overrunFields, beginFields]

/-- The units that a charge reaches. -/
def chargeParts (n : Ctx) : Parts := { pw := true, mb := true, ctx := true, ctxs := fun x => x == n }

section
variable (c : Coach) (n : Ctx) (i : Fin 16) (e : NextEnt) (b : Nat) (s : State)

theorem entryCharged_frame : Frame (chargeParts n) (msgOr (beginFields c n)) s (entryCharged c n i e b s) := by
  refine Frame.wr _ _ (msgOr_mem (by simp [beginFields])) (Frame.ite ?_ (Frame.refl _ _ s))
  refine Frame.chargeOverrun rfl rfl rfl (beq_self_eq_true n) (msgIn_msgOr _) (fun f hf => msgOr_mem ?_) c _ _ ((Frame.refl _ _ s).inc _ (msgOr_mem (by simp [beginFields])))
  exact overrun_begin c n hf

theorem beginEntry_frame : Frame (beginParts c n) (msgOr (beginFields c n)) s (beginEntry c n i e b s) := by
  obtain ⟨v, rfl, hEq⟩ := beginEntry_eq c n i e b s
  rw [hEq]
  refine Frame.wr _ _ (msgOr_mem (by simp [beginFields])) (Frame.modCo rfl c (beq_self_eq_true c) _ (Frame.modCx rfl n (beq_self_eq_true n) _ ?_))
  refine Frame.wr _ _ (msgOr_mem (by simp [beginFields])) (Frame.ite ?_ (Frame.refl _ _ s))
  refine Frame.chargeOverrun rfl rfl rfl (beq_self_eq_true n) (msgIn_msgOr _) (fun f hf => msgOr_mem ?_) c _ _ ((Frame.refl _ _ s).inc _ (msgOr_mem (by simp [beginFields])))
  exact overrun_begin c n hf

theorem image_entryCharged : (cx n (entryCharged c n i e b s)).image = (cx n s).image := by
  have hCharged (v : State) (f : Fld) (x : Nat) : cx n (wr f x v) = cx n v := rfl
  rw [entryCharged, hCharged]
  split
  · exact image_chargeOverrun ..
  · rfl

theorem image_beginEntry : (cx n (beginEntry c n i e b s)).image = (cx n s).image := by
  obtain ⟨v, rfl, hEq⟩ := beginEntry_eq c n i e b s
  have hCharged (w : State) (f : Fld) (x : Nat) (g : CoachSt → CoachSt) : cx n (wr f x (modCo c g w)) = cx n w := rfl
  rw [hEq, hCharged, progBegun, cx_modCx]
  exact image_entryCharged ..

/-- The coach has the run, and nothing of its SRAMs has changed. -/
theorem co_beginEntry : ∃ r, (co c (beginEntry c n i e b s)).run = some r ∧ r.ctx = n ∧ r.stage = e.ent.stage ∧ r.row = e.row ∧ r.col = e.ent.col ∧ r.beginAt = b ∧
    r.waits = 0 ∧ r.sync = 0 ∧ (co c (beginEntry c n i e b s)).sram = (co c s).sram := by
  obtain ⟨v, hv, hEq⟩ := beginEntry_eq c n i e b s
  have hCharged (w : State) (f : Fld) (x : Nat) : co c (wr f x w) = co c w := rfl
  have hSame : co c v = co c s := by
    rw [hv]
    exact (entryCharged_frame c n i e b s).coaches c rfl
  rw [hEq, hCharged, co_modCo, hSame]
  exact ⟨_, rfl, rfl, rfl, rfl, rfl, rfl, rfl, rfl, rfl⟩

variable (h : s.regsWf = true)
include h

theorem rd_state_beginEntry : rd (CA_STATUS.STATE c.val) (beginEntry c n i e b s) = 2 := by
  obtain ⟨v, hv, hEq⟩ := beginEntry_eq c n i e b s
  have hWf : v.regsWf = true := hv ▸ (entryCharged_frame c n i e b s).wf h
  rw [hEq]
  exact rd_wr_same (s := modCo c _ v) hWf _ _

omit h in
theorem overrunCount_apart : ∀ (c : Coach) (n : Ctx), (GL_WB_OVERRUN.COUNT (cid n)).key ≠ (CA_STATUS.STATE c.val).key ∧
    (GL_WB_OVERRUN.COUNT (cid n)).key ≠ (GL_WB_DELAY.MAX (cid n)).key ∧ ownKey (GL_WB_OVERRUN.COUNT (cid n)).key = false := by decide

theorem rd_overrun_beginEntry : rd (GL_WB_OVERRUN.COUNT (cid n)) (beginEntry c n i e b s) = if ((cx n s).prog[i]).prevWaits ≠ 0 ∧ e.planned < b
    then sat (GL_WB_OVERRUN.COUNT (cid n)) (rd (GL_WB_OVERRUN.COUNT (cid n)) s + 1) else rd (GL_WB_OVERRUN.COUNT (cid n)) s := by
  obtain ⟨v, hv, hEq⟩ := beginEntry_eq c n i e b s
  obtain ⟨hState, hDelay, hOwn⟩ := overrunCount_apart c n
  have hWf : v.regsWf = true := hv ▸ (entryCharged_frame c n i e b s).wf h
  have hWritten (w : State) (g : CoachSt → CoachSt) (hw : w.regsWf = true) :
      rd (GL_WB_OVERRUN.COUNT (cid n)) (wr (CA_STATUS.STATE c.val) 2 (modCo c g w)) = rd (GL_WB_OVERRUN.COUNT (cid n)) w :=
    rd_wr_ne (s := modCo c g w) hw _ _ _ hState
  rw [hEq, hWritten _ _ hWf, hv, progBegun, rd_modCx, entryCharged]
  have hFrame := chargeOverrun_frame c n ((cx n s).prog[i]) e.ref s
  have hInc := regsWf_wr h (GL_WB_OVERRUN.COUNT (cid n)) (sat (GL_WB_OVERRUN.COUNT (cid n)) (rd (GL_WB_OVERRUN.COUNT (cid n)) s + 1))
  by_cases hLate : ((cx n s).prog[i]).prevWaits ≠ 0 ∧ e.planned < b
  · rw [if_pos hLate, if_pos (by simpa using hLate), rd_wr_ne (hFrame.wf hInc) _ _ _ hDelay, hFrame.regs hInc _ hOwn (overrun_apart n)]
    exact rd_inc_same h _
  · rw [if_neg hLate, if_neg (by simpa using hLate), rd_wr_ne h _ _ _ hDelay]

end

/-- Of a coach the border writes leave the run, and of its SRAMs they read and change nothing else. -/
theorem entry_runs {c : Coach} {n : Ctx} {i : Fin 16} {e : NextEnt} {s : State} (h : s.regsWf = true) (hReady : readyEntry c s = some (n, i.val, e))
    (hKind : stKind (cx n s).image e.ent.stage ≠ 2) (k : Option Nat) (bs : List Border) {b : Nat} (hb : b = max e.planned ((cx n s).prog[i]).endPrev) :
    ∃ t r, exec (.entryBegin c ⟨k, bs⟩) s = .next t ∧ Frame (beginParts c n) (msgOr (beginFields c n)) s t ∧ (co c t).run = some r ∧ r.ctx = n ∧ r.stage = e.ent.stage ∧
      r.row = e.row ∧ r.col = e.ent.col ∧ r.beginAt = b ∧ r.waits = 0 ∧ r.sync = 0 ∧ r.clash = k ∧
      Frame { coach := true, coaches := fun x => x == c } (fun _ => false) (beginEntry c n i e b s) t ∧
      (co c t).sram = if stKind (cx n s).image e.ent.stage = 0 then bordersAfter (bs.filter (fun b => b.mode == 0)) (co c s).sram else (co c s).sram := by
  obtain ⟨r, hRun, hCtx, hStage, hRow, hCol, hAt, hWaits, hSync, hSram⟩ := co_beginEntry c n i e b s
  have hFrame := beginEntry_frame c n i e b s
  have hImage := image_beginEntry c n i e b s
  have hClashed : (co c (modRun c (fun r => { r with clash := k }) (beginEntry c n i e b s))).run = some { r with clash := k } := by
    rw [modRun, co_modCo, hRun]
    rfl
  have hSramC : (co c (modRun c (fun r => { r with clash := k }) (beginEntry c n i e b s))).sram = (co c s).sram := by
    rw [modRun, co_modCo, hSram]
  have hImageC : (cx n (modRun c (fun r => { r with clash := k }) (beginEntry c n i e b s))).image = (cx n s).image := hImage
  have hFrameC : Frame (beginParts c n) (msgOr (beginFields c n)) s (modRun c (fun r => { r with clash := k }) (beginEntry c n i e b s)) :=
    hFrame.modCo rfl c (beq_self_eq_true c) _
  have hRegs : Frame { coach := true, coaches := fun x => x == c } (fun _ => false) (beginEntry c n i e b s) (modRun c (fun r => { r with clash := k }) (beginEntry c n i e b s)) :=
    (Frame.refl _ _ _).modCo rfl c (beq_self_eq_true c) _
  have hExec : exec (.entryBegin c ⟨k, bs⟩) s = .next (if stKind (cx n s).image e.ent.stage = 0
      then each (bs.filter (fun b => b.mode == 0)) (borderPut c) (modRun c (fun r => { r with clash := k }) (beginEntry c n i e b s))
      else modRun c (fun r => { r with clash := k }) (beginEntry c n i e b s)) := by
    change execEntryBegin c ⟨k, bs⟩ s = _
    subst hb
    simp only [execEntryBegin, hReady, i.isLt, dif_pos, beq_eq_false_iff_ne.2 hKind, Bool.false_eq_true, if_false, beq_iff_eq]
    rw [← hImageC]
    rfl
  generalize modRun c (fun r => { r with clash := k }) (beginEntry c n i e b s) = v at hClashed hSramC hFrameC hRegs hExec
  have hBorders := co_borders c (bs.filter (fun b => b.mode == 0)) v
  by_cases hZero : stKind (cx n s).image e.ent.stage = 0
  · rw [if_pos hZero] at hExec
    refine ⟨_, { r with clash := k }, hExec, hFrameC.trans (borders_frame _ rfl (beq_self_eq_true c) _ v), by rw [hBorders, hClashed], hCtx, hStage, hRow, hCol, hAt,
      hWaits, hSync, rfl, hRegs.trans (borders_frame _ rfl (beq_self_eq_true c) _ v), by rw [if_pos hZero, hBorders, hSramC]⟩
  · rw [if_neg hZero] at hExec
    exact ⟨_, { r with clash := k }, hExec, hFrameC, hClashed, hCtx, hStage, hRow, hCol, hAt, hWaits, hSync, rfl, hRegs, by rw [if_neg hZero, hSramC]⟩

theorem entryFields_own (c : Coach) (n : Ctx) : ownKey (CA_STATUS.STATE c.val).key = false ∧ ownKey (GL_WB_OVERRUN.COUNT (cid n)).key = false := by
  revert c n
  decide

theorem Frame.showGig {u : Parts} {K : Nat → Bool} {s t : State} (hK : K GG_STATUS.STATE.key = true) (h : Frame u K s t) : Frame u K s (showGig t) :=
  Frame.ite h (h.wr _ _ hK)

theorem rd_state_showGig_run {s : State} (h : s.regsWf = true) (hRun : s.gig.run.isSome = true) (hOn : domOn 16 s = true) (hLow : rd GG_STATUS.STATE s < 5) :
    rd GG_STATUS.STATE (showGig s) = 2 := by
  rw [showGig, if_neg (by simp [hOn, hLow]), hRun]
  exact rd_wr_same h _ _

/-- The engine's part of a slot that begins (R155). -/
def gigBegun (c : Coach) (n : Ctx) (b len : Nat) (s : State) : State :=
  { s with gig := { s.gig with
    run := some c, beginAt := b, len := len, busyN := 0, lastCoach := some c, passes := s.gig.lastCoach.any (fun d => decide (d ≠ c))
    ran := (cid n, s.tt.released) :: s.gig.ran.filter (fun x => x.1 != cid n) } }

/-- The slot of an entry has not ended any more for its coach. -/
def slotReopened (slot : Nat) (x : CoachSt) : CoachSt := { x with gigEnds := x.gigEnds.filter (fun g => g.1 != slot) }

theorem execGigEntryBegin_eq {c : Coach} {n : Ctx} {i : Fin 16} {e : NextEnt} {s : State} {ready b : Nat} (hReady : gigReady c s = some (n, i.val, e, ready))
    (hRun : s.gig.run = none) (hOpen : domOpen 16 s = true) (hAhead : e.ref = true → gigBehind c ready s = false) {len : Nat}
    (hLen : len = (slotEnt (cx n s).image e.ent.slot).len) (hFirst : gigFirst ready (s.gig.beginAt + s.gig.len) len (foreignSlots n s) = some b) (hNow : b ≤ arithNow s) :
    exec (.gigEntryBegin c) s = .next (showGig (wrs [(GG_STATUS.CTX, cid n), (GG_STATUS.COACH, c.val)] (modCo c (slotReopened e.ent.slot) (gigBegun c n b len
      (beginEntry c n i e b (add (GL_WB_FOREIGN.COUNT (cid n))
        (b - ready - ((s.gig.past.filter (fun x => x.1 == cid n)).map (fun x => overlapLen x.2.1 x.2.2 ready b)).sum) s)))))) := by
  change execGigEntryBegin c s = _
  have hFree : (e.ref && gigBehind c ready s) = false := by cases hRef : e.ref <;> simp_all
  subst hLen
  simp only [execGigEntryBegin, hReady, hRun, hOpen, hFree, Option.isSome_none, Bool.not_true, Bool.or_self, Bool.false_eq_true, if_false, hFirst, Nat.not_lt.2 hNow]
  rfl

theorem gigEntry_apart : ∀ (c : Coach) (n : Ctx), msgOr (beginFields c n) (GL_WB_FOREIGN.COUNT (cid n)).key = false ∧ ownKey (GL_WB_FOREIGN.COUNT (cid n)).key = false ∧
    keysOf [GG_STATUS.CTX, GG_STATUS.COACH, GG_STATUS.STATE] (GL_WB_FOREIGN.COUNT (cid n)).key = false ∧
    keysOf [GG_STATUS.CTX, GG_STATUS.COACH, GG_STATUS.STATE] (CA_STATUS.STATE c.val).key = false ∧
    msgOr (beginFields c n) GG_STATUS.STATE.key = false ∧ msgOr (beginFields c n) (PM_PWR_STATUS.ON 16).key = false ∧
    (GL_WB_FOREIGN.COUNT (cid n)).key ≠ GG_STATUS.STATE.key ∧ (GL_WB_FOREIGN.COUNT (cid n)).key ≠ (PM_PWR_STATUS.ON 16).key := by decide

section
variable {w : State} (hw : w.regsWf = true) (n : Ctx) (c : Coach) (slot b len : Nat)

/-- The end state of a slot's begin, from the state in which its coach has begun the entry. -/
def slotBegun (w : State) (n : Ctx) (c : Coach) (slot b len : Nat) : State :=
  showGig (wrs [(GG_STATUS.CTX, cid n), (GG_STATUS.COACH, c.val)] (modCo c (slotReopened slot) (gigBegun c n b len w)))

theorem slotBegun_frame : Frame { gig := true, coach := true, coaches := fun x => x == c } (keysOf [GG_STATUS.CTX, GG_STATUS.COACH, GG_STATUS.STATE]) w (slotBegun w n c slot b len) := by
  refine Frame.showGig (by decide) (Frame.wrs _ (fun x hx => ?_) (Frame.modCo rfl c (beq_self_eq_true c) _ (Frame.gigUpd rfl _ (Frame.refl _ _ w))))
  exact keysOf_mem (fst_mem (by simp) hx)

theorem showGig_gig (s : State) : (showGig s).gig = s.gig := by
  unfold showGig
  split
  · rfl
  · rw [wr_gig]

theorem gig_slotBegun : (slotBegun w n c slot b len).gig.run = some c ∧ (slotBegun w n c slot b len).gig.beginAt = b ∧ (slotBegun w n c slot b len).gig.len = len ∧
    (slotBegun w n c slot b len).gig.busyN = 0 := by
  have hGig : (slotBegun w n c slot b len).gig = (gigBegun c n b len w).gig := by
    rw [slotBegun, showGig_gig]
    simp only [wrs, List.foldl_cons, List.foldl_nil, wr_gig]
    rfl
  rw [hGig]
  exact ⟨rfl, rfl, rfl, rfl⟩

theorem co_slotBegun : co c (slotBegun w n c slot b len) = slotReopened slot (co c w) := by
  have hShow : Frame { } (keysOf [GG_STATUS.CTX, GG_STATUS.COACH, GG_STATUS.STATE]) (modCo c (slotReopened slot) (gigBegun c n b len w)) (slotBegun w n c slot b len) := by
    refine Frame.showGig (by decide) (Frame.wrs _ (fun x hx => ?_) (Frame.refl _ _ _))
    exact keysOf_mem (fst_mem (by simp) hx)
  rw [hShow.coaches c rfl, co_modCo]
  rfl

include hw in
theorem rd_slotBegun (hOn : domOn 16 w = true) : rd GG_STATUS.CTX (slotBegun w n c slot b len) = cid n ∧ rd GG_STATUS.COACH (slotBegun w n c slot b len) = c.val ∧
    (rd GG_STATUS.STATE w < 5 → rd GG_STATUS.STATE (slotBegun w n c slot b len) = 2) := by
  have hBase : Frame { gig := true, coach := true, coaches := fun x => x == c } (keysOf []) w (modCo c (slotReopened slot) (gigBegun c n b len w)) :=
    Frame.modCo rfl c (beq_self_eq_true c) _ (Frame.gigUpd rfl _ (Frame.refl _ _ w))
  have hRun : (modCo c (slotReopened slot) (gigBegun c n b len w)).gig.run.isSome = true := rfl
  unfold slotBegun
  have hWf := hBase.wf hw
  have hState := hBase.regs hw GG_STATUS.STATE (by decide) (by decide)
  have hPower : domOn 16 (modCo c (slotReopened slot) (gigBegun c n b len w)) = true := by
    rw [← hOn, domOn, domOn, rdB, rdB, hBase.regs hw _ (by decide) (by decide)]
  generalize modCo c (slotReopened slot) (gigBegun c n b len w) = z at hWf hState hPower hRun ⊢
  have hShow (f : Fld) (hOwn : ownKey f.key = false) (hf : f.key ≠ GG_STATUS.STATE.key) (v : State) (hv : v.regsWf = true) : rd f (showGig v) = rd f v :=
    (Frame.showGig (keysOf_mem (List.mem_singleton_self _)) (Frame.refl {} (keysOf [GG_STATUS.STATE]) v)).regs hv f hOwn (keysOf_eq_false.2 (by simpa using hf))
  have hW1 := regsWf_wr hWf GG_STATUS.CTX (cid n)
  have hW2 := regsWf_wr hW1 GG_STATUS.COACH c.val
  have hCtx : cid n % 2 ^ 4 = cid n := Nat.mod_eq_of_lt (by unfold cid; omega)
  have hCoach : c.val % 2 ^ 4 = c.val := Nat.mod_eq_of_lt c.isLt
  simp only [wrs, List.foldl_cons, List.foldl_nil]
  refine ⟨?_, ?_, fun hLow => rd_state_showGig_run hW2 (by rwa [wr_gig, wr_gig]) ?_ ?_⟩
  · rw [hShow _ (by decide) (by decide) _ hW2, rd_wr_ne hW1 _ _ _ (by decide), rd_wr_same hWf]
    exact hCtx
  · rw [hShow _ (by decide) (by decide) _ hW2, rd_wr_same hW1]
    exact hCoach
  · rw [domOn, rdB, rd_wr_ne hW1 _ _ _ (by decide), rd_wr_ne hWf _ _ _ (by decide)]
    exact hPower
  · rwa [rd_wr_ne hW1 _ _ _ (by decide), rd_wr_ne hWf _ _ _ (by decide), hState]

end

/-- A planned slot of another context does not stand in the way of a slot that begins in a cycle: it is planned after its end or before its readiness, or it has ended. -/
def slotFits (ready len b : Nat) (x : Nat × Option Nat) : Bool := !(decide (ready ≤ x.1) && decide (x.1 < b + len)) || x.2.any (fun t => decide (t ≤ b))

theorem self_lt_max {a b : Nat} : a < max a b ↔ a < b := by omega

theorem slotFits_iff {ready len b : Nat} {x : Nat × Option Nat} :
    slotFits ready len b x = true ↔ (ready ≤ x.1 → x.1 < b + len → ∃ t, x.2 = some t ∧ t ≤ b) := by
  simp only [slotFits, Bool.or_eq_true, Bool.not_eq_true', Bool.and_eq_false_iff, decide_eq_false_iff_not, Option.any_eq_true, decide_eq_true_eq]
  by_cases hFrom : ready ≤ x.1 <;> by_cases hTo : x.1 < b + len <;> simp [hFrom, hTo]

theorem gigFirst_eq (ready free len : Nat) (slots : List (Nat × Option Nat)) : gigFirst ready free len slots =
    ((ready :: free :: slots.filterMap (·.2)).filter (fun b => decide (ready ≤ b) && decide (free ≤ b) && slots.all (slotFits ready len b))).min? := by
  unfold gigFirst
  dsimp only
  congr 1
  congr 1
  funext b
  congr 2
  funext x
  rcases x with ⟨a, _ | t⟩ <;> rfl

/-- The first cycle in which a slot may begin: it is ready, the engine is free, and the foreign slots that it meets have ended (R182). -/
theorem gigFirst_least {ready free len b : Nat} {slots : List (Nat × Option Nat)} (h : gigFirst ready free len slots = some b) :
    (ready ≤ b ∧ free ≤ b ∧ ∀ x ∈ slots, ready ≤ x.1 → x.1 < b + len → ∃ t, x.2 = some t ∧ t ≤ b) ∧
      ∀ b', (ready ≤ b' ∧ free ≤ b' ∧ ∀ x ∈ slots, ready ≤ x.1 → x.1 < b' + len → ∃ t, x.2 = some t ∧ t ≤ b') → b ≤ b' := by
  rw [gigFirst_eq, List.min?_eq_some_iff] at h
  simp only [List.mem_filter, Bool.and_eq_true, decide_eq_true_eq, List.all_eq_true, slotFits_iff, and_assoc] at h
  obtain ⟨-, hReadyB, hFreeB, hSlotsB, hMin⟩ := h
  refine ⟨⟨hReadyB, hFreeB, hSlotsB⟩, fun b' hb' => ?_⟩
  induction b' using Nat.strongRecOn with
  | _ b' ih =>
    obtain ⟨hReady, hFree, hSlots⟩ := hb'
    by_cases hCand : b' ∈ ready :: free :: slots.filterMap (·.2)
    · exact hMin b' ⟨hCand, hReady, hFree, hSlots⟩
    · simp only [List.mem_cons, List.mem_filterMap, not_or, not_exists, not_and] at hCand
      obtain ⟨hNeReady, hNeFree, hNeEnd⟩ := hCand
      refine Nat.le_trans (ih (b' - 1) (by omega) ⟨by omega, by omega, fun x hx hFrom hTo => ?_⟩) (Nat.sub_le _ _)
      obtain ⟨t, hEnd, ht⟩ := hSlots x hx hFrom (by omega)
      have hNe : t ≠ b' := fun hEq => hNeEnd x hx (hEq ▸ hEnd)
      exact ⟨t, hEnd, by omega⟩

/-- Settles O20: an entry begins on its coach, or takes the Gig engine in the first cycle in which its slot may run. -/
theorem entriesBeginOnTheirCoaches : Obligations.EntriesBeginOnTheirCoaches := by
  unfold Obligations.EntriesBeginOnTheirCoaches
  refine ⟨fun s c n i e k bs h => ⟨fun hReady hKind => ?_, fun ready b hReady hRun hOpen hAhead hFirst hNow => ?_⟩, fun ready free len b slots hFirst => gigFirst_least hFirst⟩
  · obtain ⟨t, r, hExec, hFrame, hRun, hCtx, hStage, hRow, hCol, hAt, hWaits, hSync, hClash, hBorders, hSram⟩ := entry_runs h hReady hKind k bs rfl
    obtain ⟨hOwnState, hOwnCount⟩ := entryFields_own c n
    have hWf := (beginEntry_frame c n i e (max e.planned ((cx n s).prog[i]).endPrev) s).wf h
    refine ⟨t, r, hExec, hRun, hCtx, hStage, hRow, hCol, hAt, hWaits, hSync, hClash, ?_, ?_, ?_, fun d hd => hFrame.coaches d (beq_eq_false_iff_ne.2 hd), hFrame.keptMsg h, ?_⟩
    · rw [hBorders.regs hWf _ hOwnState rfl, rd_state_beginEntry _ _ _ _ _ _ h]
    · rw [hSram, co_borders]
    · rw [hBorders.regs hWf _ hOwnCount rfl, rd_overrun_beginEntry _ _ _ _ _ _ h]
      simp only [self_lt_max]
    · exact hFrame.eq
  · have hExec := execGigEntryBegin_eq hReady hRun hOpen hAhead rfl hFirst hNow
    generalize b - ready - ((s.gig.past.filter (fun x => x.1 == cid n)).map (fun x => overlapLen x.2.1 x.2.2 ready b)).sum = w at hExec ⊢
    obtain ⟨hForeign, hForeignOwn, hForeignGig, hStateGig, hGigState, hPower, hNeState, hNePower⟩ := gigEntry_apart c n
    have hWf := regsWf_wr h (GL_WB_FOREIGN.COUNT (cid n)) (sat (GL_WB_FOREIGN.COUNT (cid n)) (rd (GL_WB_FOREIGN.COUNT (cid n)) s + w))
    have hFrame := beginEntry_frame c n i e b (add (GL_WB_FOREIGN.COUNT (cid n)) w s)
    obtain ⟨r, hRunning, -, hStage, -, -, hAt, -⟩ := co_beginEntry c n i e b (add (GL_WB_FOREIGN.COUNT (cid n)) w s)
    have hState := rd_state_beginEntry c n i e b (add (GL_WB_FOREIGN.COUNT (cid n)) w s) hWf
    have hOn : domOn 16 (beginEntry c n i e b (add (GL_WB_FOREIGN.COUNT (cid n)) w s)) = true := by
      rw [domOn, rdB, hFrame.regs hWf _ (by decide) hPower, add, rd_wr_ne h _ _ _ hNePower.symm]
      exact (Bool.and_eq_true_iff.1 hOpen).1
    have hGig : rd GG_STATUS.STATE (beginEntry c n i e b (add (GL_WB_FOREIGN.COUNT (cid n)) w s)) = rd GG_STATUS.STATE s := by
      rw [hFrame.regs hWf _ (by decide) hGigState, add, rd_wr_ne h _ _ _ hNeState.symm]
    have hCount : rd (GL_WB_FOREIGN.COUNT (cid n)) (beginEntry c n i e b (add (GL_WB_FOREIGN.COUNT (cid n)) w s)) =
        sat (GL_WB_FOREIGN.COUNT (cid n)) (rd (GL_WB_FOREIGN.COUNT (cid n)) s + w) := by
      rw [hFrame.regs hWf _ hForeignOwn hForeign]
      exact rd_add_same h _ _
    have hOthers (d : Coach) (hd : d ≠ c) : co d (beginEntry c n i e b (add (GL_WB_FOREIGN.COUNT (cid n)) w s)) = co d s := hFrame.coaches d (beq_eq_false_iff_ne.2 hd)
    have hWfBegun := hFrame.wf hWf
    generalize beginEntry c n i e b (add (GL_WB_FOREIGN.COUNT (cid n)) w s) = v at hExec hRunning hState hOn hGig hCount hOthers hWfBegun
    have hSlot := slotBegun_frame n c e.ent.slot b (slotEnt (cx n s).image e.ent.slot).len (w := v)
    obtain ⟨hEngine, hBegin, hLen, hBusy⟩ := gig_slotBegun n c e.ent.slot b (slotEnt (cx n s).image e.ent.slot).len (w := v)
    obtain ⟨hShownCtx, hShownCoach, hShownState⟩ := rd_slotBegun hWfBegun n c e.ent.slot b (slotEnt (cx n s).image e.ent.slot).len hOn
    have hCoach := co_slotBegun n c e.ent.slot b (slotEnt (cx n s).image e.ent.slot).len (w := v)
    refine ⟨_, r, hExec, (congrArg CoachSt.run hCoach).trans hRunning, hStage, hAt, hEngine, hBegin, hLen, hBusy, ?_, fun hLow => hShownState (hGig ▸ hLow), hShownCtx, hShownCoach, ?_, ?_⟩
    · exact (hSlot.regs hWfBegun _ hForeignOwn hForeignGig).trans hCount
    · exact (hSlot.regs hWfBegun _ (entryFields_own c n).1 hStateGig).trans (hState)
    · exact fun d hd => (hSlot.coaches d (beq_eq_false_iff_ne.2 hd)).trans (hOthers d hd)

end Sys2Proof.Machine

/-! SUPPORT. The end of a Gig slot and the scrub of pages (R149 to R159, R262), and O21. -/

namespace Sys2Proof.Machine

/-- A set of units is among those of another. -/
structure Parts.Le (u v : Parts) : Prop where
  snap : u.snap = true → v.snap = true
  hiHold : u.hiHold = true → v.hiHold = true
  rwe : u.rwe = true → v.rwe = true
  freeN : u.freeN = true → v.freeN = true
  out : u.out = true → v.out = true
  pins : u.pins = true → v.pins = true
  pw : u.pw = true → v.pw = true
  ev : u.ev = true → v.ev = true
  mb : u.mb = true → v.mb = true
  flt : u.flt = true → v.flt = true
  tt : u.tt = true → v.tt = true
  ctx : u.ctx = true → v.ctx = true
  coach : u.coach = true → v.coach = true
  gig : u.gig = true → v.gig = true
  mp : u.mp = true → v.mp = true
  tl : u.tl = true → v.tl = true
  otp : u.otp = true → v.otp = true
  flash : u.flash = true → v.flash = true
  sb : u.sb = true → v.sb = true
  dg : u.dg = true → v.dg = true
  tap : u.tap = true → v.tap = true
  ctxs : ∀ n, u.ctxs n = true → v.ctxs n = true
  coaches : ∀ c, u.coaches c = true → v.coaches c = true

theorem flag_mono {a b : Bool} (h : a = true → b = true) (hb : b = false) : a = false := Bool.eq_false_iff.2 fun ha => Bool.false_ne_true (hb.symm.trans (h ha))

/-- What changes nothing beyond some units and fields changes nothing beyond more of them. -/
theorem Frame.mono {u v : Parts} {K L : Nat → Bool} {s t : State} (h : Frame u K s t) (hu : u.Le v) (hK : ∀ k, K k = true → L k = true) : Frame v L s t where
  wf := h.wf
  regs := (h.weaken hK).regs
  now := h.now
  pending := h.pending
  snap hv := h.snap (flag_mono hu.snap hv)
  hiHold hv := h.hiHold (flag_mono hu.hiHold hv)
  rwe hv := h.rwe (flag_mono hu.rwe hv)
  freeN hv := h.freeN (flag_mono hu.freeN hv)
  out hv := h.out (flag_mono hu.out hv)
  pins hv := h.pins (flag_mono hu.pins hv)
  pw hv := h.pw (flag_mono hu.pw hv)
  ev hv := h.ev (flag_mono hu.ev hv)
  mb hv := h.mb (flag_mono hu.mb hv)
  flt hv := h.flt (flag_mono hu.flt hv)
  tt hv := h.tt (flag_mono hu.tt hv)
  ctx hv := h.ctx (flag_mono hu.ctx hv)
  coach hv := h.coach (flag_mono hu.coach hv)
  gig hv := h.gig (flag_mono hu.gig hv)
  mp hv := h.mp (flag_mono hu.mp hv)
  tl hv := h.tl (flag_mono hu.tl hv)
  otp hv := h.otp (flag_mono hu.otp hv)
  flash hv := h.flash (flag_mono hu.flash hv)
  sb hv := h.sb (flag_mono hu.sb hv)
  dg hv := h.dg (flag_mono hu.dg hv)
  tap hv := h.tap (flag_mono hu.tap hv)
  ctxs n hv := h.ctxs n (flag_mono (hu.ctxs n) hv)
  coaches c hv := h.coaches c (flag_mono (hu.coaches c) hv)

/-- The engine's frame in a slot: it works on one coach. -/
def slotParts (c : Coach) : Parts := { coach := true, coaches := fun x => x == c, gig := true, freeN := true }

theorem Frame.settleOpen {u : Parts} {K : Nat → Bool} {s t : State} (hu : u.freeN = true) (b : Bool) (w : Writes) (h : Frame u K s t) : Frame u K s (settleOpen b w t).2 := by
  unfold Machine.settleOpen
  split
  · exact Frame.free hu (Frame.free hu (h.freeBytes hu _))
  · exact h

theorem co_settleOpen (c : Coach) (b : Bool) (w : Writes) (s : State) : co c (settleOpen b w s).2 = co c s := by
  unfold settleOpen
  split <;> rfl

/-- The layers of a slot write SRAMs of its coach, and take free values. -/
theorem gigLayers_frame (n : Ctx) (c : Coach) (k : Nat) (s : State) :
    Frame (slotParts c) (fun _ => false) s (gigLayers n c k s).1 ∧ (∃ v, co c (gigLayers n c k s).1 = { co c s with sram := v }) ∧ (gigLayers n c k s).1.gig = s.gig := by
  unfold gigLayers
  dsimp only
  generalize hStart : (s, CEv.none) = a
  have hBase : Frame (slotParts c) (fun _ => false) s a.1 ∧ (∃ v, co c a.1 = { co c s with sram := v }) ∧ a.1.gig = s.gig := by
    subst hStart
    exact ⟨Frame.refl _ _ s, ⟨_, rfl⟩, rfl⟩
  clear hStart
  generalize List.range (nLayers (cx n s).image k) = l
  induction l generalizing a with
  | nil => exact hBase
  | cons j l ih =>
    obtain ⟨hFrame, ⟨v, hCo⟩, hGig⟩ := hBase
    rw [List.foldl_cons]
    refine ih _ ⟨(hFrame.settleOpen rfl _ _).sramWrite rfl (beq_self_eq_true c) _ _, ?_, ?_⟩
    · rw [co_sramWrite, co_settleOpen, hCo]
      exact ⟨_, rfl⟩
    · have hSram (m : Nat) (ws : List (Nat × List Byte)) (t : State) : (sramWrite c m ws t).gig = t.gig :=
        (Frame.sramWrite (u := { coach := true, coaches := fun _ => true }) (K := fun _ => true) rfl rfl m ws (Frame.refl _ _ t)).gig rfl
      have hOpen (b : Bool) (w : Writes) (t : State) : (settleOpen b w t).2.gig = t.gig :=
        (Frame.settleOpen (u := { freeN := true }) (K := fun _ => true) rfl b w (Frame.refl _ _ t)).gig rfl
      rw [hSram, hOpen, hGig]

section
variable {s : State} (h : s.regsWf = true)

/-- The cycles of a slot that are to be counted (R159). -/
def slotCycles (s : State) : Nat := min (arithNow s - s.gig.beginAt) s.gig.len - s.gig.busyN

theorem gigSettle_gig {c : Coach} (hRun : s.gig.run = some c) : (gigSettle s).gig = { s.gig with busyN := s.gig.busyN + slotCycles s } := by
  have hAdd (f : Fld) (n : Nat) (t : State) : (add f n t).gig = t.gig := wr_gig ..
  have hFree (t : State) : (free t).2.gig = t.gig := rfl
  unfold gigSettle
  rw [hRun]
  dsimp only
  split
  · rfl
  · rw [hAdd, hAdd, hFree]
    rfl

include h in
theorem rd_busy_gigSettle {c : Coach} (hRun : s.gig.run = some c) : rd GG_BUSY.COUNT (gigSettle s) =
    if rdB GG_CFG.PROF_EN s = true ∧ confidential s = false ∧ slotCycles s ≠ 0 then sat GG_BUSY.COUNT (rd GG_BUSY.COUNT s + slotCycles s) else rd GG_BUSY.COUNT s := by
  have hGig (f : Fld) (x : GigSt) : rd f { s with gig := x } = rd f s := rfl
  have hConf (x : GigSt) : confidential { s with gig := x } = confidential s := rfl
  have hFree (f : Fld) (t : State) : rd f (free t).2 = rd f t := rfl
  unfold gigSettle
  rw [hRun]
  dsimp only
  rw [show min (arithNow s - s.gig.beginAt) s.gig.len - s.gig.busyN = slotCycles s from rfl]
  generalize slotCycles s = d
  have hCond (x : GigSt) : (d == 0 || !rdB GG_CFG.PROF_EN { s with gig := x } || confidential { s with gig := x }) = true ↔
      ¬ (rdB GG_CFG.PROF_EN s = true ∧ confidential s = false ∧ d ≠ 0) := by
    have hEn : rdB GG_CFG.PROF_EN { s with gig := x } = rdB GG_CFG.PROF_EN s := rfl
    rw [hEn, hConf]
    cases rdB GG_CFG.PROF_EN s <;> cases confidential s <;> simp
  split
  · next hOff => rw [if_neg ((hCond _).1 hOff), hGig]
  · next hOn =>
    have hAdded (k : Nat) (t : State) (hWf : t.regsWf = true) : rd GG_BUSY.COUNT (add GG_WAIT.COUNT k (add GG_BUSY.COUNT d t)) = sat GG_BUSY.COUNT (rd GG_BUSY.COUNT t + d) :=
      (rd_wr_ne (regsWf_wr hWf _ _) _ _ _ (by decide)).trans (rd_add_same hWf _ _)
    rw [if_pos (Classical.not_not.1 (mt (hCond _).2 hOn)), hAdded _ _ (by exact h), hFree, hGig]

end

theorem GigSt.len_eq {g : GigSt} {t : Nat} (h : t = g.beginAt + g.len) : t - g.beginAt = g.len := by omega

/-- The engine is free: what showed its slot is cleared (R157). -/
theorem gigFree_frame (n : Nat) (s : State) : Frame { gig := true } (keysOf [GG_STATUS.STATE, GG_STATUS.CTX, GG_STATUS.COACH]) s (gigFree n s) := by
  refine Frame.showGig (by decide) (Frame.wrs _ (fun x hx => ?_) (Frame.gigUpd rfl _ (Frame.refl _ _ s)))
  exact keysOf_mem (fst_mem (by simp) hx)

theorem gig_gigFree (n : Nat) (s : State) : (gigFree n s).gig = { s.gig with run := none, len := n - s.gig.beginAt, past := (gigFree n s).gig.past } := by
  simp only [gigFree, showGig_gig, wrs, List.foldl_cons, List.foldl_nil, wr_gig]

/-- What STATE of the Gig engine shows with no slot (R157). -/
def gigIdle (s : State) : Nat := if s.gig.scrubs ≠ [] then 4 else if allCtx.any (fun n => gigLoaded n s) then 1 else 0

theorem rd_state_showGig_idle {s : State} (h : s.regsWf = true) (hRun : s.gig.run = none) : rd GG_STATUS.STATE (showGig s) =
    if 5 ≤ rd GG_STATUS.STATE s ∨ domOn 16 s = false then rd GG_STATUS.STATE s else gigIdle s := by
  have hCond : (decide (5 ≤ rd GG_STATUS.STATE s) || !domOn 16 s) = true ↔ 5 ≤ rd GG_STATUS.STATE s ∨ domOn 16 s = false := by simp
  have hIdle : gigIdle s % 2 ^ 3 = gigIdle s := by
    unfold gigIdle
    repeat' split
    all_goals rfl
  have hShown : (if (!s.gig.scrubs.isEmpty) = true then 4 else if allCtx.any (fun n => gigLoaded n s) then 1 else 0) = gigIdle s := by
    unfold gigIdle
    cases s.gig.scrubs <;> rfl
  unfold showGig
  rw [hRun, Option.isSome_none, if_neg Bool.false_ne_true, hShown]
  simp only [hCond]
  split
  · rfl
  · rw [rd_wr_same h]
    exact hIdle

/-- STATE of the Gig engine depends on its scrubs and on the waybills that are loaded. -/
theorem gigIdle_congr {u : Parts} {K : Nat → Bool} {s t : State} (hFrame : Frame u K s t) (h : s.regsWf = true) (hCtx : u.ctx = false) (hK : ∀ n : Ctx, K (GL_WB_STATUS.LOADED (cid n)).key = false)
    (hScrubs : t.gig.scrubs = s.gig.scrubs) : gigIdle t = gigIdle s := by
  have hOwn : ∀ n : Ctx, ownKey (GL_WB_STATUS.LOADED (cid n)).key = false := by decide
  have hLoaded (n : Ctx) : gigLoaded n t = gigLoaded n s := by
    rw [gigLoaded, gigLoaded, rdB, rdB, hFrame.regs h _ (hOwn n) (hK n), cx, cx, hFrame.ctx hCtx]
  simp only [gigIdle, hScrubs, hLoaded]

theorem rd_gigFree {s : State} (h : s.regsWf = true) (n : Nat) : rd GG_STATUS.CTX (gigFree n s) = 0 ∧ rd GG_STATUS.COACH (gigFree n s) = 0 ∧
    rd GG_STATUS.STATE (gigFree n s) = if 5 ≤ rd GG_STATUS.STATE s ∨ domOn 16 s = false then rd GG_STATUS.STATE s else gigIdle s := by
  unfold gigFree
  dsimp only
  have hBase : Frame { gig := true } (keysOf [GG_STATUS.CTX, GG_STATUS.COACH]) s (wrs [(GG_STATUS.CTX, 0), (GG_STATUS.COACH, 0)]
      { s with gig := { s.gig with run := none, len := n - s.gig.beginAt, past := ((rd GG_STATUS.CTX s, s.gig.beginAt, n) :: s.gig.past).take 32 } }) := by
    refine Frame.wrs _ (fun x hx => ?_) (Frame.gigUpd rfl _ (Frame.refl _ _ s))
    exact keysOf_mem (fst_mem (by simp) hx)
  have hGig : (wrs [(GG_STATUS.CTX, 0), (GG_STATUS.COACH, 0)]
      { s with gig := { s.gig with run := none, len := n - s.gig.beginAt, past := ((rd GG_STATUS.CTX s, s.gig.beginAt, n) :: s.gig.past).take 32 } }).gig =
      { s.gig with run := none, len := n - s.gig.beginAt, past := ((rd GG_STATUS.CTX s, s.gig.beginAt, n) :: s.gig.past).take 32 } := by
    simp only [wrs, List.foldl_cons, List.foldl_nil, wr_gig]
  have hZero (t : State) (hWf : t.regsWf = true) : rd GG_STATUS.CTX (wrs [(GG_STATUS.CTX, 0), (GG_STATUS.COACH, 0)] t) = 0 ∧
      rd GG_STATUS.COACH (wrs [(GG_STATUS.CTX, 0), (GG_STATUS.COACH, 0)] t) = 0 :=
    ⟨(rd_wr_ne (regsWf_wr hWf _ _) _ _ _ (by decide)).trans (rd_wr_same hWf _ _), rd_wr_same (regsWf_wr hWf _ _) _ _⟩
  obtain ⟨hCtx, hCoach⟩ := hZero { s with gig := { s.gig with run := none, len := n - s.gig.beginAt, past := ((rd GG_STATUS.CTX s, s.gig.beginAt, n) :: s.gig.past).take 32 } } h
  generalize wrs [(GG_STATUS.CTX, 0), (GG_STATUS.COACH, 0)]
      { s with gig := { s.gig with run := none, len := n - s.gig.beginAt, past := ((rd GG_STATUS.CTX s, s.gig.beginAt, n) :: s.gig.past).take 32 } } = v at hBase hGig hCtx hCoach ⊢
  have hShow := Frame.showGig (keysOf_mem (List.mem_singleton_self _)) (Frame.refl {} (keysOf [GG_STATUS.STATE]) v)
  have hOn : domOn 16 v = domOn 16 s := by rw [domOn, domOn, rdB, rdB, hBase.regs h _ (by decide) (by decide)]
  refine ⟨(hShow.regs (hBase.wf h) _ (by decide) (by decide)).trans hCtx, (hShow.regs (hBase.wf h) _ (by decide) (by decide)).trans hCoach, ?_⟩
  rw [rd_state_showGig_idle (hBase.wf h) (by rw [hGig]), hBase.regs h _ (by decide) (by decide), hOn, gigIdle_congr hBase h rfl (by decide) (by rw [hGig])]

/-- The numeric events of a slot are counted, and are no faults while GG_CFG does not ask for them (R161). -/
theorem gigNumeric_frame (c : Coach) (e : CEv) {s : State} (h : s.regsWf = true) (hSat : rdB GG_CFG.SAT_FAULT s = false) (hNan : rdB GG_CFG.NAN_FAULT s = false) :
    Frame {} (keysOf [GG_NUMERIC.NAN, GG_NUMERIC.OUT_SAT, GG_NUMERIC.ACC_SAT, GG_STATUS.SAT_SEEN, GG_STATUS.NAN_SEEN]) s (gigNumeric c e s) := by
  unfold gigNumeric
  dsimp only
  have hCounted : Frame {} (keysOf [GG_NUMERIC.NAN, GG_NUMERIC.OUT_SAT, GG_NUMERIC.ACC_SAT, GG_STATUS.SAT_SEEN, GG_STATUS.NAN_SEEN]) s
      (add GG_NUMERIC.NAN e.nan (add GG_NUMERIC.OUT_SAT e.out (add GG_NUMERIC.ACC_SAT e.acc s))) :=
    (((Frame.refl _ _ s).add _ _ (by decide)).add _ _ (by decide)).add _ _ (by decide)
  generalize add GG_NUMERIC.NAN e.nan (add GG_NUMERIC.OUT_SAT e.out (add GG_NUMERIC.ACC_SAT e.acc s)) = v at hCounted ⊢
  have hSeen := Frame.ite (c := (e.acc != 0) = true) (hCounted.markBit GG_STATUS.SAT_SEEN (by decide)) hCounted
  generalize (if (e.acc != 0) = true then markBit GG_STATUS.SAT_SEEN v else v) = w at hSeen ⊢
  have hShown := Frame.ite (c := (e.nan != 0) = true) (hSeen.markBit GG_STATUS.NAN_SEEN (by decide)) hSeen
  generalize (if (e.nan != 0) = true then markBit GG_STATUS.NAN_SEEN w else w) = x at hShown ⊢
  have hSatX : rdB GG_CFG.SAT_FAULT x = false := by rw [← hSat, rdB, rdB, hShown.regs h _ (by decide) (by decide)]
  have hNanX : rdB GG_CFG.NAN_FAULT x = false := by rw [← hNan, rdB, rdB, hShown.regs h _ (by decide) (by decide)]
  rw [if_neg (by simp [hSatX, hNanX])]
  exact hShown

/-- What the ECC corrected in a slot: the count, with the bit beside it (R87, R156). -/
def eccMarks (c : Coach) : EccObs → List (Fld × Fld × Nat)
  | .corrected loc k => if loc = 5 then [(GG_STATUS.ECC_SEEN, GG_ECC.CORR, k)] else [(CA_STATUS.ECC_SEEN c.val, CA_ECC.CORR c.val, k)]
  | _ => []

theorem gigEcc_corrected (c : Coach) {e : EccObs} (hEcc : e = .clean ∨ ∃ loc k, e = .corrected loc k) (s : State) :
    gigEcc c e s = (eccMarks c e).foldl (fun t m => markBit m.1 (add m.2.1 m.2.2 t)) s := by
  obtain rfl | ⟨loc, k, rfl⟩ := hEcc
  · rfl
  · by_cases hLoc : loc = 5
    · subst hLoc
      rfl
    · simp only [eccMarks, if_neg hLoc, List.foldl_cons, List.foldl_nil]
      unfold gigEcc
      split <;> simp_all [coachEcc]

theorem eccMarks_frame (c : Coach) (e : EccObs) (s : State) :
    Frame {} (keysOf [GG_STATUS.ECC_SEEN, GG_ECC.CORR, CA_STATUS.ECC_SEEN c.val, CA_ECC.CORR c.val]) s
      ((eccMarks c e).foldl (fun t m => markBit m.1 (add m.2.1 m.2.2 t)) s) := by
  have hMarked (f g : Fld) (k : Nat) (hf : f ∈ [GG_STATUS.ECC_SEEN, GG_ECC.CORR, CA_STATUS.ECC_SEEN c.val, CA_ECC.CORR c.val])
      (hg : g ∈ [GG_STATUS.ECC_SEEN, GG_ECC.CORR, CA_STATUS.ECC_SEEN c.val, CA_ECC.CORR c.val]) :
      Frame {} (keysOf [GG_STATUS.ECC_SEEN, GG_ECC.CORR, CA_STATUS.ECC_SEEN c.val, CA_ECC.CORR c.val]) s (markBit f (add g k s)) :=
    ((Frame.refl _ _ s).add g k (keysOf_mem hg)).markBit f (keysOf_mem hf)
  cases e with
  | corrected loc k =>
    simp only [eccMarks]
    split
    · exact hMarked _ _ k (by simp) (by simp)
    · exact hMarked _ _ k (by simp) (by simp)
  | clean => exact Frame.refl _ _ s
  | uncorrected _ _ _ => exact Frame.refl _ _ s

/-- A mark beside a count leaves the counts of others. -/
theorem rd_marked {s : State} (h : s.regsWf = true) (f g : Fld) (k : Nat) (hfg : g.key ≠ f.key) (hOwn : ownKey g.key = false) :
    rd g (markBit f (add g k s)) = sat g (rd g s + k) := by
  have hWf := regsWf_wr h g (sat g (rd g s + k))
  have hMark := (Frame.refl {} (keysOf [f]) (add g k s)).markBit f (keysOf_mem (List.mem_singleton_self _))
  rw [hMark.regs hWf _ hOwn (keysOf_eq_false.2 (by simpa using hfg))]
  exact rd_add_same h _ _

theorem eccFields_apart : ∀ c : Coach, (CA_ECC.CORR c.val).key ≠ (CA_STATUS.ECC_SEEN c.val).key ∧ ownKey (CA_ECC.CORR c.val).key = false ∧
    keysOf [GG_STATUS.ECC_SEEN, GG_ECC.CORR] (CA_ECC.CORR c.val).key = false ∧ keysOf [CA_STATUS.ECC_SEEN c.val, CA_ECC.CORR c.val] GG_ECC.CORR.key = false := by decide

theorem rd_eccMarks (c : Coach) {e : EccObs} {s : State} (h : s.regsWf = true) {t : State} (ht : (eccMarks c e).foldl (fun t m => markBit m.1 (add m.2.1 m.2.2 t)) s = t) :
    (∀ k, e = .corrected 5 k → rd GG_ECC.CORR t = sat GG_ECC.CORR (rd GG_ECC.CORR s + k)) ∧ ((∀ k, e ≠ .corrected 5 k) → rd GG_ECC.CORR t = rd GG_ECC.CORR s) ∧
    (∀ loc k, e = .corrected loc k → loc ≠ 5 → rd (CA_ECC.CORR c.val) t = sat (CA_ECC.CORR c.val) (rd (CA_ECC.CORR c.val) s + k)) ∧
    ((∀ loc k, e = .corrected loc k → loc = 5) → rd (CA_ECC.CORR c.val) t = rd (CA_ECC.CORR c.val) s) := by
  obtain ⟨hNe, hOwn, hGig, hCoach⟩ := eccFields_apart c
  subst ht
  cases e with
  | clean => exact ⟨fun _ h => EccObs.noConfusion h, fun _ => rfl, fun _ _ h => EccObs.noConfusion h, fun _ => rfl⟩
  | uncorrected _ _ _ => exact ⟨fun _ h => EccObs.noConfusion h, fun _ => rfl, fun _ _ h => EccObs.noConfusion h, fun _ => rfl⟩
  | corrected loc k =>
    by_cases hLoc : loc = 5
    · subst hLoc
      have hMark : Frame {} (keysOf [GG_STATUS.ECC_SEEN, GG_ECC.CORR]) s (markBit GG_STATUS.ECC_SEEN (add GG_ECC.CORR k s)) :=
        ((Frame.refl _ _ s).add _ k (by decide)).markBit _ (by decide)
      have hCount : rd GG_ECC.CORR (markBit GG_STATUS.ECC_SEEN (add GG_ECC.CORR k s)) = sat GG_ECC.CORR (rd GG_ECC.CORR s + k) :=
        rd_marked h _ _ k (by decide) (by decide)
      refine ⟨fun j hj => ?_, fun hNone => absurd rfl (hNone k), fun l j hj hl => ?_, fun _ => hMark.regs h _ hOwn hGig⟩
      · obtain ⟨-, rfl⟩ := EccObs.corrected.inj hj
        exact hCount
      · exact absurd (EccObs.corrected.inj hj).1.symm hl
    · have hMark : Frame {} (keysOf [CA_STATUS.ECC_SEEN c.val, CA_ECC.CORR c.val]) s (markBit (CA_STATUS.ECC_SEEN c.val) (add (CA_ECC.CORR c.val) k s)) :=
        ((Frame.refl _ _ s).add _ k (keysOf_mem (by simp))).markBit _ (keysOf_mem (by simp))
      simp only [eccMarks, if_neg hLoc, List.foldl_cons, List.foldl_nil]
      refine ⟨fun j hj => absurd (EccObs.corrected.inj hj).1 hLoc, fun _ => hMark.regs h _ (by decide) hCoach, fun l j hj _ => ?_, fun hAll => absurd (hAll loc k rfl) hLoc⟩
      obtain ⟨-, rfl⟩ := EccObs.corrected.inj hj
      exact rd_marked h _ _ k hNe hOwn

theorem gigEccPut_corrected (c : Coach) {e : EccObs} (hEcc : e = .clean ∨ ∃ loc k, e = .corrected loc k) (s : State) : gigEccPut c e s = s := by
  obtain rfl | ⟨loc, k, rfl⟩ := hEcc <;> rfl

/-- The slot of a coach has ended. -/
def slotEnded (slot t : Nat) (x : CoachSt) : CoachSt := { x with gigEnds := (slot, t) :: x.gigEnds.filter (fun g => g.1 != slot) }

/-- A slot's end after its layers (R151 to R156). -/
def slotEnd (c : Coach) (r : RunSt) (e : EccObs) (t : Nat) (z : State × CEv) : State :=
  gigEcc c e (gigNumeric c z.2 (gigFree t (modCo c (slotEnded r.slot t) z.1)))

theorem execGigSlotEnd_eq {c : Coach} {r : RunSt} {s : State} (hRun : s.gig.run = some c) (hCo : (co c s).run = some r) (hEnd : s.gig.beginAt + s.gig.len ≤ arithNow s)
    (e : EccObs) : exec (.gigSlotEnd e) s = .next (slotEnd c r e (s.gig.beginAt + s.gig.len) (gigLayers r.ctx c r.stage (gigEccPut c e (gigSettle s)))) := by
  change execGigSlotEnd e s = _
  simp only [execGigSlotEnd, hRun, hCo, Nat.not_lt.2 hEnd, if_false]
  rfl

/-- What the end of a slot writes. -/
def slotEndFields (c : Coach) : List Fld := [GG_STATUS.STATE, GG_STATUS.CTX, GG_STATUS.COACH, GG_STATUS.SAT_SEEN, GG_STATUS.NAN_SEEN, GG_STATUS.ECC_SEEN, GG_BUSY.COUNT, GG_WAIT.COUNT,
  GG_NUMERIC.ACC_SAT, GG_NUMERIC.OUT_SAT, GG_NUMERIC.NAN, GG_ECC.CORR, CA_ECC.CORR c.val, CA_STATUS.ECC_SEEN c.val]

theorem keysOf_sub {l m : List Fld} (h : ∀ f ∈ l, f ∈ m) (k : Nat) (hk : keysOf l k = true) : keysOf m k = true := by
  obtain ⟨f, hf, hEq⟩ := List.any_eq_true.1 hk
  exact List.any_eq_true.2 ⟨f, h f hf, hEq⟩

/-- The same of listed fields. -/
theorem Frame.keys {u v : Parts} {l m : List Fld} {s t : State} (h : Frame u (keysOf l) s t) (hu : u.Le v) (hl : ∀ f ∈ l, f ∈ m) : Frame v (keysOf m) s t :=
  h.mono hu (keysOf_sub hl)

theorem Parts.Le.refl (u : Parts) : u.Le u := by constructor <;> simp

theorem Parts.Le.empty (u : Parts) : Parts.Le {} u := by constructor <;> simp

theorem gigCounts_apart : ∀ c : Coach, keysOf [GG_STATUS.STATE, GG_STATUS.CTX, GG_STATUS.COACH] (CA_ECC.CORR c.val).key = false ∧
    keysOf [GG_NUMERIC.NAN, GG_NUMERIC.OUT_SAT, GG_NUMERIC.ACC_SAT, GG_STATUS.SAT_SEEN, GG_STATUS.NAN_SEEN] (CA_ECC.CORR c.val).key = false ∧
    keysOf [GG_BUSY.COUNT, GG_WAIT.COUNT] (CA_ECC.CORR c.val).key = false := by decide

theorem eccMarks_apart : ∀ c : Coach, ∀ f ∈ [GG_STATUS.STATE, GG_STATUS.CTX, GG_STATUS.COACH, GG_BUSY.COUNT],
    keysOf [GG_STATUS.ECC_SEEN, GG_ECC.CORR, CA_STATUS.ECC_SEEN c.val, CA_ECC.CORR c.val] f.key = false := by decide

/-- The slot ends: the engine is free, its counts are those of the layers, and nothing else of the block changes. -/
theorem slotEnd_ends {c : Coach} {r : RunSt} {e : EccObs} {s : State} (h : s.regsWf = true) (hRun : s.gig.run = some c) (hCo : (co c s).run = some r)
    (hEnd : s.gig.beginAt + s.gig.len ≤ arithNow s) (hEcc : e = .clean ∨ ∃ loc k, e = .corrected loc k) (hSat : rdB GG_CFG.SAT_FAULT s = false)
    (hNan : rdB GG_CFG.NAN_FAULT s = false) :
    ∃ v w t, exec (.gigSlotEnd e) s = .next t ∧ Frame (slotParts c) (keysOf [GG_BUSY.COUNT, GG_WAIT.COUNT]) s v ∧ v.gig = (gigSettle s).gig ∧
      rd GG_BUSY.COUNT v = rd GG_BUSY.COUNT (gigSettle s) ∧ co c v = slotEnded r.slot (s.gig.beginAt + s.gig.len) { co c s with sram := (co c (gigLayers r.ctx c r.stage (gigSettle s)).1).sram } ∧
      Frame {} (keysOf [GG_NUMERIC.NAN, GG_NUMERIC.OUT_SAT, GG_NUMERIC.ACC_SAT, GG_STATUS.SAT_SEEN, GG_STATUS.NAN_SEEN]) (gigFree (s.gig.beginAt + s.gig.len) v) w ∧
      (eccMarks c e).foldl (fun t m => markBit m.1 (add m.2.1 m.2.2 t)) w = t := by
  have hExec := execGigSlotEnd_eq hRun hCo hEnd e
  rw [gigEccPut_corrected c hEcc] at hExec
  have hSettled := gigSettle_frame s
  obtain ⟨hLayers, ⟨m, hSram⟩, hGig⟩ := gigLayers_frame r.ctx c r.stage (gigSettle s)
  have hCoSettled : co c (gigSettle s) = co c s := hSettled.coaches c rfl
  generalize gigLayers r.ctx c r.stage (gigSettle s) = z at hExec hLayers hSram hGig ⊢
  have hBoth : Frame (slotParts c) (keysOf [GG_BUSY.COUNT, GG_WAIT.COUNT]) s (modCo c (slotEnded r.slot (s.gig.beginAt + s.gig.len)) z.1) := by
    refine Frame.modCo rfl c (beq_self_eq_true c) _ ((hSettled.mono ?_ fun _ => id).trans (hLayers.mono ?_ (by simp)))
    · constructor <;> simp [slotParts]
    · constructor <;> simp
  have hBusy : rd GG_BUSY.COUNT (modCo c (slotEnded r.slot (s.gig.beginAt + s.gig.len)) z.1) = rd GG_BUSY.COUNT (gigSettle s) := by
    rw [rd_modCo]
    exact hLayers.regs (hSettled.wf h) _ (by decide) rfl
  have hCoach : co c (modCo c (slotEnded r.slot (s.gig.beginAt + s.gig.len)) z.1) =
      slotEnded r.slot (s.gig.beginAt + s.gig.len) { co c s with sram := (co c z.1).sram } := by
    rw [co_modCo, hSram, hCoSettled]
  have hCfg {f : Fld} (hOwn : ownKey f.key = false) (hf : keysOf [GG_BUSY.COUNT, GG_WAIT.COUNT] f.key = false)
      (hShown : keysOf [GG_STATUS.STATE, GG_STATUS.CTX, GG_STATUS.COACH] f.key = false) :
      rd f (gigFree (s.gig.beginAt + s.gig.len) (modCo c (slotEnded r.slot (s.gig.beginAt + s.gig.len)) z.1)) = rd f s :=
    ((gigFree_frame _ _).regs (hBoth.wf h) f hOwn hShown).trans (hBoth.regs h f hOwn hf)
  refine ⟨_, _, _, hExec, hBoth, hGig, hBusy, hCoach, gigNumeric_frame c z.2 ((gigFree_frame _ _).wf (hBoth.wf h)) ?_ ?_, (gigEcc_corrected c hEcc _).symm⟩
  · rw [rdB, hCfg (by decide) (by decide) (by decide)]
    exact hSat
  · rw [rdB, hCfg (by decide) (by decide) (by decide)]
    exact hNan

/-- A field of the Gig engine's slot is not touched by what follows its end. -/
theorem rd_slotShown {c : Coach} {e : EccObs} {n : Nat} {v w : State} (hWf : v.regsWf = true)
    (hNumeric : Frame {} (keysOf [GG_NUMERIC.NAN, GG_NUMERIC.OUT_SAT, GG_NUMERIC.ACC_SAT, GG_STATUS.SAT_SEEN, GG_STATUS.NAN_SEEN]) (gigFree n v) w) {f : Fld}
    (hf : f ∈ [GG_STATUS.STATE, GG_STATUS.CTX, GG_STATUS.COACH, GG_BUSY.COUNT]) :
    rd f ((eccMarks c e).foldl (fun t m => markBit m.1 (add m.2.1 m.2.2 t)) w) = rd f (gigFree n v) := by
  have hOwn : ∀ f ∈ [GG_STATUS.STATE, GG_STATUS.CTX, GG_STATUS.COACH, GG_BUSY.COUNT], ownKey f.key = false ∧
      keysOf [GG_NUMERIC.NAN, GG_NUMERIC.OUT_SAT, GG_NUMERIC.ACC_SAT, GG_STATUS.SAT_SEEN, GG_STATUS.NAN_SEEN] f.key = false := by decide
  have hWfG := (gigFree_frame n v).wf hWf
  rw [(eccMarks_frame c e w).regs (hNumeric.wf hWfG) f (hOwn f hf).1 (eccMarks_apart c f hf), hNumeric.regs hWfG f (hOwn f hf).1 (hOwn f hf).2]

theorem gigSlotEnd_clean {c : Coach} {r : RunSt} {ecc : EccObs} {s : State} (h : s.regsWf = true) (hRun : s.gig.run = some c) (hCo : (co c s).run = some r)
    (hEnd : s.gig.beginAt + s.gig.len ≤ arithNow s) (hEcc : ecc = .clean ∨ ∃ loc k, ecc = .corrected loc k) (hSat : rdB GG_CFG.SAT_FAULT s = false)
    (hNan : rdB GG_CFG.NAN_FAULT s = false) :
    ∃ t, exec (.gigSlotEnd ecc) s = .next t ∧ t.gig.run = none ∧ rd GG_STATUS.CTX t = 0 ∧ rd GG_STATUS.COACH t = 0 ∧
      rd GG_STATUS.STATE t = (if 5 ≤ rd GG_STATUS.STATE s ∨ domOn 16 s = false then rd GG_STATUS.STATE s else gigIdle s) ∧
      (r.slot, s.gig.beginAt + s.gig.len) ∈ (co c t).gigEnds ∧ (co c t).run = some r ∧ (∀ d, d ≠ c → co d t = co d s) ∧
      (co c t).sram = (co c (gigLayers r.ctx c r.stage (gigSettle s)).1).sram ∧
      rd GG_BUSY.COUNT t = (if rdB GG_CFG.PROF_EN s = true ∧ confidential s = false ∧ s.gig.busyN < s.gig.len
        then sat GG_BUSY.COUNT (rd GG_BUSY.COUNT s + (s.gig.len - s.gig.busyN)) else rd GG_BUSY.COUNT s) ∧
      ((∀ k, ecc = .corrected 5 k → rd GG_ECC.CORR t = sat GG_ECC.CORR (rd GG_ECC.CORR s + k)) ∧ ((∀ k, ecc ≠ .corrected 5 k) → rd GG_ECC.CORR t = rd GG_ECC.CORR s) ∧
        (∀ loc k, ecc = .corrected loc k → loc ≠ 5 → rd (CA_ECC.CORR c.val) t = sat (CA_ECC.CORR c.val) (rd (CA_ECC.CORR c.val) s + k)) ∧
        ((∀ loc k, ecc = .corrected loc k → loc = 5) → rd (CA_ECC.CORR c.val) t = rd (CA_ECC.CORR c.val) s)) ∧
      s.kept (slotEndFields c) t ∧
      t = { s with regs := t.regs, coach := t.coach, gig := { s.gig with run := none, busyN := t.gig.busyN, past := t.gig.past }, freeN := t.freeN } := by
  obtain ⟨v, w, t, hExec, hBoth, hGig, hBusy, hCoach, hNumeric, hMarks⟩ := slotEnd_ends h hRun hCo hEnd hEcc hSat hNan
  have hWf := hBoth.wf h
  have hFree := gigFree_frame (s.gig.beginAt + s.gig.len) v
  obtain ⟨hCtx, hCoachShown, hState⟩ := rd_gigFree hWf (s.gig.beginAt + s.gig.len)
  have hEccFrame := eccMarks_frame c ecc w
  have hShown {f : Fld} (hf : f ∈ [GG_STATUS.STATE, GG_STATUS.CTX, GG_STATUS.COACH, GG_BUSY.COUNT]) := rd_slotShown (c := c) (e := ecc) hWf hNumeric hf
  rw [hMarks] at hEccFrame hShown
  have hSettledGig := gigSettle_gig hRun
  have hCycles : slotCycles s = s.gig.len - s.gig.busyN := by
    unfold slotCycles
    omega
  have hTGig : t.gig = { s.gig with run := none, busyN := t.gig.busyN, past := t.gig.past } := by
    rw [hEccFrame.gig rfl, hNumeric.gig rfl, gig_gigFree, hGig, hSettledGig]
    simp only [Nat.add_sub_cancel_left]
  have hCoT (d : Coach) : co d t = co d v := by rw [hEccFrame.coaches d rfl, hNumeric.coaches d rfl, hFree.coaches d rfl]
  have hSub : (∀ f ∈ [GG_BUSY.COUNT, GG_WAIT.COUNT], f ∈ slotEndFields c) ∧ (∀ f ∈ [GG_STATUS.STATE, GG_STATUS.CTX, GG_STATUS.COACH], f ∈ slotEndFields c) ∧
      (∀ f ∈ [GG_NUMERIC.NAN, GG_NUMERIC.OUT_SAT, GG_NUMERIC.ACC_SAT, GG_STATUS.SAT_SEEN, GG_STATUS.NAN_SEEN], f ∈ slotEndFields c) ∧
      ∀ f ∈ [GG_STATUS.ECC_SEEN, GG_ECC.CORR, CA_STATUS.ECC_SEEN c.val, CA_ECC.CORR c.val], f ∈ slotEndFields c := by
    simp [slotEndFields]
  obtain ⟨hSubBusy, hSubShown, hSubNumeric, hSubEcc⟩ := hSub
  have hAll : Frame (slotParts c) (keysOf (slotEndFields c)) s t :=
    ((hBoth.keys (.refl _) hSubBusy).trans (hFree.keys (by constructor <;> simp [slotParts]) hSubShown)).trans
      ((hNumeric.keys (.empty _) hSubNumeric).trans (hEccFrame.keys (.empty _) hSubEcc))
  have hCounts := rd_eccMarks c (hNumeric.wf (hFree.wf hWf)) hMarks
  obtain ⟨hCaFree, hCaNumeric, hCaBusy⟩ := gigCounts_apart c
  have hCaOwn := (eccFields_apart c).2.1
  have hGg : rd GG_ECC.CORR w = rd GG_ECC.CORR s := by
    rw [hNumeric.regs (hFree.wf hWf) _ (by decide) (by decide), hFree.regs hWf _ (by decide) (by decide), hBoth.regs h _ (by decide) (by decide)]
  have hCa : rd (CA_ECC.CORR c.val) w = rd (CA_ECC.CORR c.val) s := by
    rw [hNumeric.regs (hFree.wf hWf) _ hCaOwn hCaNumeric, hFree.regs hWf _ hCaOwn hCaFree, hBoth.regs h _ hCaOwn hCaBusy]
  rw [hGg, hCa] at hCounts
  have hIdle : gigIdle v = gigIdle s := by
    have hApart : ∀ n : Ctx, keysOf [GG_BUSY.COUNT, GG_WAIT.COUNT] (GL_WB_STATUS.LOADED (cid n)).key = false := by decide
    exact gigIdle_congr hBoth h rfl hApart (by rw [hGig, hSettledGig])
  have hOn : domOn 16 v = domOn 16 s := by rw [domOn, domOn, rdB, rdB, hBoth.regs h _ (by decide) (by decide)]
  have hLess : s.gig.len - s.gig.busyN ≠ 0 ↔ s.gig.busyN < s.gig.len := by omega
  refine ⟨t, hExec, by rw [hTGig], (hShown (by simp)).trans hCtx, (hShown (by simp)).trans hCoachShown, ?_, ?_, ?_, ?_, ?_, ?_, hCounts, hAll.kept h, ?_⟩
  · rw [hShown (by simp), hState, hBoth.regs h _ (by decide) (by decide), hOn, hIdle]
  · rw [hCoT, hCoach]
    exact List.mem_cons_self
  · rw [hCoT, hCoach]
    exact hCo
  · exact fun d hd => hAll.coaches d (beq_eq_false_iff_ne.2 hd)
  · rw [hCoT, hCoach]
    rfl
  · rw [hShown (by simp), hFree.regs hWf _ (by decide) (by decide), hBusy, rd_busy_gigSettle h hRun]
    simp only [hCycles, hLess]
  · have hEq := hAll.eq
    rw [← hTGig]
    exact hEq

theorem wr_withGig (f : Fld) (x : Nat) (g : GigSt) (s : State) : wr f x { s with gig := g } = { wr f x s with gig := g } := rfl

theorem add_withGig (f : Fld) (n : Nat) (g : GigSt) (s : State) : add f n { s with gig := g } = { add f n s with gig := g } := wr_withGig f _ g s

/-- The cycles of a slot are counted, with a free number of them waits (R159, log 24). -/
def slotCounted (d : Nat) (s : State) : State := add GG_WAIT.COUNT ((free s).1 % (d + 1)) (add GG_BUSY.COUNT d (free s).2)

theorem slotCounted_withGig (d : Nat) (g : GigSt) (s : State) : slotCounted d { s with gig := g } = { slotCounted d s with gig := g } := by
  have hFree : free { s with gig := g } = ((free s).1, { (free s).2 with gig := g }) := rfl
  rw [slotCounted, hFree, add_withGig, add_withGig]
  rfl

theorem gigSettle_eq {c : Coach} {s : State} (hRun : s.gig.run = some c) : gigSettle s =
    { (if (slotCycles s == 0 || !rdB GG_CFG.PROF_EN s || confidential s) = true then s else slotCounted (slotCycles s) s) with
      gig := { s.gig with busyN := s.gig.busyN + slotCycles s } } := by
  have hCond (g : GigSt) : (rdB GG_CFG.PROF_EN { s with gig := g }, confidential { s with gig := g }) = (rdB GG_CFG.PROF_EN s, confidential s) := rfl
  obtain ⟨hEn, hConf⟩ := Prod.mk.inj (hCond { s.gig with busyN := s.gig.busyN + slotCycles s })
  have hCounted := slotCounted_withGig (slotCycles s) { s.gig with busyN := s.gig.busyN + slotCycles s } s
  unfold gigSettle
  rw [hRun]
  dsimp only
  rw [show min (arithNow s - s.gig.beginAt) s.gig.len - s.gig.busyN = slotCycles s from rfl]
  rw [hEn, hConf]
  split
  · rfl
  · exact hCounted

/-- An error in the Gig SRAM stands there whether or not the cycles of the slot so far have been counted. -/
theorem gigSettle_gigEccPut {c : Coach} {s : State} (hRun : s.gig.run = some c) (word flip : Nat) :
    gigSettle (gigEccPut c (.uncorrected 5 word flip) s) = gigEccPut c (.uncorrected 5 word flip) (gigSettle s) := by
  simp only [gigEccPut]
  generalize word * 8 % 0x400000 = a
  generalize hSram : SMap.setList zeroByte s.gig.sram a (leBytes 8 (Nat.xor (rdN (SMap.get zeroByte s.gig.sram) a 8) flip)) = m
  have hCycles : slotCycles { s with gig := { s.gig with sram := m } } = slotCycles s := rfl
  have hCond (g : GigSt) : (rdB GG_CFG.PROF_EN { s with gig := g }, confidential { s with gig := g }) = (rdB GG_CFG.PROF_EN s, confidential s) := rfl
  obtain ⟨hEn, hConf⟩ := Prod.mk.inj (hCond { s.gig with sram := m })
  rw [gigSettle_eq (s := { s with gig := { s.gig with sram := m } }) hRun, gigSettle_eq hRun, hCycles, hEn, hConf, slotCounted_withGig]
  subst hSram
  split <;> rfl

theorem gigFault_ecc (c : Coach) (word flip : Nat) (s : State) : gigEcc c (.uncorrected 5 word flip) s = gigFault 0x05 1 c (markBit GG_STATUS.ECC_SEEN (inc GG_ECC.UNCORR s)) := rfl

theorem gigSlotEnd_uncorrected {c : Coach} {r : RunSt} {s u : State} (hRun : s.gig.run = some c) (hCo : (co c s).run = some r) (hEnd : s.gig.beginAt + s.gig.len ≤ arithNow s)
    (word flip : Nat) (hClean : exec (.gigSlotEnd .clean) (gigEccPut c (.uncorrected 5 word flip) s) = .next u) :
    exec (.gigSlotEnd (.uncorrected 5 word flip)) s = .next (gigFault 0x05 1 c (markBit GG_STATUS.ECC_SEEN (inc GG_ECC.UNCORR u))) := by
  have hPut := execGigSlotEnd_eq (s := gigEccPut c (.uncorrected 5 word flip) s) hRun hCo hEnd .clean
  rw [hClean, gigEccPut_corrected c (.inl rfl), gigSettle_gigEccPut hRun] at hPut
  have hFree := Host.Outcome.next.inj hPut
  rw [execGigSlotEnd_eq hRun hCo hEnd, slotEnd, gigFault_ecc, hFree]
  rfl

end Sys2Proof.Machine

/-! SUPPORT. Frames of what a teardown and its scrubs do to contexts and coaches (R244, R249, R256 to R262), and O21. -/

namespace Sys2Proof.Machine

/-- The fields that show what contexts and coaches hold, and which members of a slice group run. -/
def holdFields : List Fld :=
  allCtx.flatMap (fun n => overrunFields n ++ [GL_WB_OVERRUN.COUNT (cid n), GL_CTX_STATUS.STATE (cid n), GL_CTX_STATUS.PARTITION (cid n), GL_WB_STATUS.LOADED (cid n),
    GL_CTX_STATUS.RESIDENT (cid n), GL_CTX_STATUS.CONFIDENTIAL (cid n), GL_CTX_DEBT.CARRIED (cid n), GL_CTX_STATUS.SLICED (cid n), GL_CTX_SLICE.LEN (cid n),
    GL_CTX_SLICE.UNIT (cid n), SB_LEDGER_STATE.OPEN (cid n)]) ++
  allCoach.flatMap (fun c => [CA_STATUS.STATE c.val, CA_STATUS.CTX c.val, ownF c]) ++
  (List.range 21).map GL_FLT_STATE.RECOVERING ++ [GG_STATUS.STATE]

/-- The keys that a teardown's end can write. -/
def holdKey (k : Nat) : Bool := msgKey k || slotKey k || keysOf holdFields k

/-- What a teardown's end can reach besides slots: contexts, coaches, messages and fault levels. -/
structure HeldParts (u : Parts) : Prop where
  pw : u.pw = true
  mb : u.mb = true
  flt : u.flt = true
  ctx : u.ctx = true
  coach : u.coach = true
  ctxs : ∀ n, u.ctxs n = true
  coaches : ∀ c, u.coaches c = true

/-- Those, and slots. -/
structure HoldParts (u : Parts) : Prop extends HeldParts u where
  tt : u.tt = true

/-- Those fields are among those that may change. -/
abbrev HoldIn (K : Nat → Bool) : Prop := ∀ k, holdKey k = true → K k = true

section
variable {K : Nat → Bool} (hK : HoldIn K)
include hK

theorem HoldIn.msg : MsgIn K := fun k hk => hK k (by simp [holdKey, hk])

theorem HoldIn.slot (k : Nat) (hk : slotKey k = true) : K k = true := hK k (by simp [holdKey, hk])

theorem HoldIn.mem {f : Fld} (hf : f ∈ holdFields) : K f.key = true := hK _ (by simp [holdKey, keysOf_mem hf])

theorem HoldIn.ofCtx {n : Ctx} {f : Fld} (hf : f ∈ overrunFields n ++ [GL_WB_OVERRUN.COUNT (cid n), GL_CTX_STATUS.STATE (cid n), GL_CTX_STATUS.PARTITION (cid n), GL_WB_STATUS.LOADED (cid n),
    GL_CTX_STATUS.RESIDENT (cid n), GL_CTX_STATUS.CONFIDENTIAL (cid n), GL_CTX_DEBT.CARRIED (cid n), GL_CTX_STATUS.SLICED (cid n), GL_CTX_SLICE.LEN (cid n),
    GL_CTX_SLICE.UNIT (cid n), SB_LEDGER_STATE.OPEN (cid n)]) : K f.key = true :=
  hK.mem (by
    simp only [holdFields, List.mem_append]
    exact .inl (.inl (.inl (List.mem_flatMap.2 ⟨n, List.mem_finRange n, List.mem_append.2 (List.mem_append.1 hf)⟩))))

theorem HoldIn.ofCoach {c : Coach} {f : Fld} (hf : f ∈ [CA_STATUS.STATE c.val, CA_STATUS.CTX c.val, ownF c]) : K f.key = true :=
  hK.mem (by
    simp only [holdFields, List.mem_append]
    exact .inl (.inl (.inr (List.mem_flatMap.2 ⟨c, List.mem_finRange c, hf⟩))))

theorem HoldIn.ofUnit {u : Nat} (hu : u < 21) : K (GL_FLT_STATE.RECOVERING u).key = true :=
  hK.mem (by
    simp only [holdFields, List.mem_append]
    exact .inl (.inr (List.mem_map.2 ⟨u, List.mem_range.2 hu, rfl⟩)))

theorem HoldIn.gig : K GG_STATUS.STATE.key = true := hK.mem (by simp [holdFields])

end

namespace Frame

section
variable {u : Parts} {K : Nat → Bool} {s t : State} (hu : HeldParts u) (hK : HoldIn K)
include hu hK

theorem coachTake (c : Coach) (n : Ctx) (h : Frame u K s t) : Frame u K s (coachTake c n t) := by
  unfold Machine.coachTake
  dsimp only
  refine ite (h.wrs _ fun x hx => hK.ofCoach (c := c) ?_) (Frame.wrs _ (fun x hx => hK.ofCoach (c := c) ?_)
    (Frame.modCo hu.coach c (hu.coaches c) _ (h.modCx hu.ctx n (hu.ctxs n) _)))
  · exact fst_mem (by simp [overrunFields]) hx
  · exact fst_mem (by simp [overrunFields]) hx

theorem coachFree (c : Coach) (h : Frame u K s t) : Frame u K s (coachFree c t) := by
  unfold Machine.coachFree
  split
  · exact h.coachTake hu hK c _
  · refine h.wrs _ fun x hx => hK.ofCoach (c := c) ?_
    exact fst_mem (by simp [overrunFields]) hx

theorem swBegin (c : Coach) (r : Nat) (l : List Xfer) (h : Frame u K s t) : Frame u K s (swBegin c r l t) := h.modCo hu.coach c (hu.coaches c) _

theorem restoreBegin (c : Coach) (m : Ctx) (r : Nat) (h : Frame u K s t) : Frame u K s (restoreBegin c m r t) := by
  unfold Machine.restoreBegin
  dsimp only
  have hState := h.wr (CA_STATUS.STATE c.val) 3 (hK.ofCoach (c := c) (by simp))
  split
  · exact hState.swBegin hu hK c _ _
  · exact hState.swBegin hu hK c _ _

theorem tornNotice (n : Ctx) (k : Nat) (p : List Nat) (h : Frame u K s t) : Frame u K s (tornNotice n k p t) :=
  ite (h.notice hu.pw hu.mb hK.msg _ _ _ _) (h.modCx hu.ctx n (hu.ctxs n) _)

theorem quarantineTry (n : Ctx) (h : Frame u K s t) : Frame u K s (quarantineTry n t) := by
  refine ite (Frame.wrs _ (fun x hx => hK.ofCtx (n := n) ?_) (h.modCx hu.ctx n (hu.ctxs n) _)) h
  exact fst_mem (by simp [overrunFields]) hx

theorem showSliced (h : Frame u K s t) : Frame u K s (showSliced t) := by
  refine Frame.each _ (fun n _ v hv => Frame.wrs _ (fun x hx => hK.ofCtx (n := n) ?_) hv) h
  exact fst_mem (by simp [overrunFields]) hx

theorem episodeEnd (n : Nat) (hn : n < 21) (h : Frame u K s t) : Frame u K s (episodeEnd n t) := by
  unfold Machine.episodeEnd
  dsimp only
  rw [dif_pos hn]
  exact Frame.settle hu.pw hK.msg.ev (Frame.fltUpd hu.flt _ (h.wr (GL_FLT_STATE.RECOVERING n) 0 (hK.ofUnit hn)))

theorem switchCharge (c : Coach) (m : Ctx) (d : Nat) (h : Frame u K s t) : Frame u K s (switchCharge c m d t) :=
  ite h (Frame.chargeOverrun hu.pw hu.mb hu.ctx (hu.ctxs m) hK.msg (fun f hf => hK.ofCtx (n := m) (List.mem_append_left _ hf)) c _ _
    (h.inc _ (hK.ofCtx (n := m) (by simp))))

end

section
variable {u : Parts} {K : Nat → Bool} {s t : State} (hu : HoldParts u) (hK : HoldIn K)
include hu hK

theorem sliceBegin (n : Ctx) (h : Frame u K s t) : Frame u K s (sliceBegin n t) := by
  unfold Machine.sliceBegin
  dsimp only
  have hBegun := (h.wr (GL_CTX_DEBT.CARRIED (cid n)) (sliceLen n t).2 (hK.ofCtx (n := n) (by simp))).modCx hu.ctx n (hu.ctxs n)
  exact ite h (ite ((hBegun _).armSlot hu.tt hK.slot _ _ _ _) (hBegun _))

theorem takeCoaches (n : Ctx) (h : Frame u K s t) : Frame u K s (takeCoaches n t) := by
  unfold Machine.takeCoaches
  dsimp only
  refine ite (Frame.sliceBegin hu hK n (Frame.each _ (fun c _ _ hv => hv.coachTake hu.toHeldParts hK c n) (h.wr _ _ (hK.ofCtx (n := n) (by simp)))))
    (Frame.modCx hu.ctx n (hu.ctxs n) _ (Frame.each _ (fun c _ _ hv => hv.restoreBegin hu.toHeldParts hK c n _) h))

theorem passCoaches (a m : Nat) (h : Frame u K s t) : Frame u K s (passCoaches a m t) := by
  unfold Machine.passCoaches
  refine ite h ?_
  split
  · exact h.takeCoaches hu hK _
  · exact Frame.each _ (fun c _ _ hv => hv.coachFree hu.toHeldParts hK c) h

theorem tearScrubbed (n : Ctx) (h : Frame u K s t) : Frame u K s (tearScrubbed n t) := by
  unfold Machine.tearScrubbed
  dsimp only
  refine ite h (Frame.quarantineTry hu.toHeldParts hK n (Frame.showGig hK.gig (Frame.showSliced hu.toHeldParts hK ?_)))
  have hTorn : Frame u K s (Machine.wrs [(GL_CTX_STATUS.STATE (cid n), 7), (GL_CTX_STATUS.PARTITION (cid n), 0), (GL_WB_STATUS.LOADED (cid n), 0)]
      (Machine.modCx n (fun c => { c with order := 0 }) (Machine.tornNotice n 0x08 [cid n] t))) := by
    refine Frame.wrs _ (fun x hx => hK.ofCtx (n := n) ?_) (Frame.modCx hu.ctx n (hu.ctxs n) _ (h.tornNotice hu.toHeldParts hK n _ _))
    exact fst_mem (by simp [overrunFields]) hx
  generalize Machine.wrs [(GL_CTX_STATUS.STATE (cid n), 7), (GL_CTX_STATUS.PARTITION (cid n), 0), (GL_WB_STATUS.LOADED (cid n), 0)]
      (Machine.modCx n (fun c => { c with order := 0 }) (Machine.tornNotice n 0x08 [cid n] t)) = v at hTorn ⊢
  have hEnded (w : State) (hw : Frame u K s w) (l : List (Fin 21)) : Frame u K s (Machine.each l (fun u => Machine.episodeEnd u.val) w) :=
    Frame.each _ (fun d _ _ hv => hv.episodeEnd hu.toHeldParts hK d.val d.isLt) hw
  have hPassed (w : State) (hw : Frame u K s w) (c : Prop) [Decidable c] (a b : Nat) : Frame u K s (if c then w else Machine.passCoaches a b w) := ite hw (hw.passCoaches hu hK a b)
  refine hPassed _ (hEnded _ ?_ _) _ _ _
  split
  · exact ite (hTorn.switchCharge hu.toHeldParts hK _ _ _) hTorn
  · exact hTorn

end

end Frame

/-- Of the Timetable only the lines at which slots were armed change. -/
def ArmsOnly (s t : State) : Prop := t.tt = { s.tt with armLine := t.tt.armLine }

theorem ArmsOnly.trans {s t v : State} (h : ArmsOnly s t) (k : ArmsOnly t v) : ArmsOnly s v := by
  unfold ArmsOnly at *
  rw [k, h]

theorem ArmsOnly.of_tt {s t : State} (h : t.tt = s.tt) : ArmsOnly s t := by
  unfold ArmsOnly
  rw [h]

/-- The units of a teardown's end but the Timetable. -/
def heldParts : Parts := { pw := true, mb := true, flt := true, ctx := true, coach := true, ctxs := fun _ => true, coaches := fun _ => true }

theorem heldParts_held : HeldParts heldParts := ⟨rfl, rfl, rfl, rfl, rfl, fun _ => rfl, fun _ => rfl⟩

/-- The keys of every field: a frame that speaks of units alone. -/
def allKeys (_ : Nat) : Bool := true

theorem holdIn_all : HoldIn allKeys := fun _ _ => rfl

theorem Frame.arms {u : Parts} {K : Nat → Bool} {s t : State} (h : Frame u K s t) (hu : u.tt = false) : ArmsOnly s t := .of_tt (h.tt hu)

theorem armsOnly_armSlot (a b c d : Nat) (s : State) : ArmsOnly s (armSlot a b c d s) := by
  have hTt (l : List (Fld × Nat)) (v : State) : (wrs l v).tt = v.tt := (Frame.wrs (u := {}) (K := fun _ => true) l (fun _ _ => rfl) (Frame.refl _ _ v)).tt rfl
  unfold armSlot
  split
  · exact .of_tt rfl
  · unfold ArmsOnly
    dsimp only
    rw [hTt]

theorem armsOnly_sliceBegin (n : Ctx) (s : State) : ArmsOnly s (sliceBegin n s) := by
  unfold sliceBegin
  dsimp only
  have hBase (x : Nat) (g : CtxSt → CtxSt) : ArmsOnly s (modCx n g (wr (GL_CTX_DEBT.CARRIED (cid n)) x s)) := .of_tt (by rw [modCx_tt, wr_tt])
  split
  · exact .of_tt rfl
  · split
    · exact (hBase _ _).trans (armsOnly_armSlot ..)
    · exact hBase _ _

theorem armsOnly_takeCoaches (n : Ctx) (s : State) : ArmsOnly s (takeCoaches n s) := by
  unfold takeCoaches
  dsimp only
  split
  · refine ArmsOnly.trans ?_ (armsOnly_sliceBegin n _)
    exact (Frame.each (u := heldParts) (K := allKeys) _ (fun c _ _ hv => hv.coachTake heldParts_held holdIn_all c n) ((Frame.refl _ _ s).wr _ _ rfl)).arms rfl
  · exact (Frame.modCx (u := heldParts) (K := allKeys) rfl n rfl _
      (Frame.each _ (fun c _ _ hv => hv.restoreBegin heldParts_held holdIn_all c n _) (Frame.refl _ _ s))).arms rfl

theorem armsOnly_passCoaches (a m : Nat) (s : State) : ArmsOnly s (passCoaches a m s) := by
  unfold passCoaches
  split
  · exact .of_tt rfl
  · split
    · exact armsOnly_takeCoaches _ s
    · exact (Frame.each (u := heldParts) (K := allKeys) _ (fun c _ _ hv => hv.coachFree heldParts_held holdIn_all c) (Frame.refl _ _ s)).arms rfl

theorem armsOnly_tearScrubbed (n : Ctx) (s : State) : ArmsOnly s (tearScrubbed n s) := by
  unfold tearScrubbed
  dsimp only
  split
  · exact .of_tt rfl
  · have hTorn : Frame heldParts allKeys s (wrs [(GL_CTX_STATUS.STATE (cid n), 7), (GL_CTX_STATUS.PARTITION (cid n), 0), (GL_WB_STATUS.LOADED (cid n), 0)]
        (modCx n (fun c => { c with order := 0 }) (tornNotice n 0x08 [cid n] s))) :=
      Frame.wrs _ (fun _ _ => rfl) (Frame.modCx rfl n rfl _ ((Frame.refl _ _ s).tornNotice heldParts_held holdIn_all n _ _))
    generalize wrs [(GL_CTX_STATUS.STATE (cid n), 7), (GL_CTX_STATUS.PARTITION (cid n), 0), (GL_WB_STATUS.LOADED (cid n), 0)]
        (modCx n (fun c => { c with order := 0 }) (tornNotice n 0x08 [cid n] s)) = v at hTorn ⊢
    have hShown (w : State) (hw : ArmsOnly s w) : ArmsOnly s (quarantineTry n (showGig (showSliced w))) :=
      hw.trans ((Frame.quarantineTry (u := heldParts) (K := allKeys) heldParts_held holdIn_all n
        (Frame.showGig rfl (Frame.showSliced heldParts_held holdIn_all (Frame.refl _ _ w)))).arms rfl)
    have hEnded (w : State) (hw : ArmsOnly s w) (l : List (Fin 21)) : ArmsOnly s (each l (fun u => episodeEnd u.val) w) :=
      hw.trans ((Frame.each (u := heldParts) (K := allKeys) l (fun d _ _ hv => hv.episodeEnd heldParts_held holdIn_all d.val d.isLt) (Frame.refl _ _ w)).arms rfl)
    have hPassed (w : State) (hw : ArmsOnly s w) (c : Prop) [Decidable c] (a b : Nat) : ArmsOnly s (if c then w else passCoaches a b w) := by
      split
      · exact hw
      · exact hw.trans (armsOnly_passCoaches a b w)
    refine hShown _ (hPassed _ (hEnded _ ?_ _) _ _ _)
    split
    · exact (Frame.ite (hTorn.switchCharge heldParts_held holdIn_all _ _ _) hTorn).arms rfl
    · exact hTorn.arms rfl

theorem execGigPageScrubEnd_eq {n : Ctx} {x : Nat × Nat} {s : State} (hFind : s.gig.scrubs.find? (fun y => y.1 == cid n) = some x)
    (hTime : x.2 + ceilDiv (2 * (256 + 128 * ((List.finRange 64).filter (fun i => s.gig.pages[i] == cid n)).length)) 3 ≤ s.now) :
    exec (.gigPageScrubEnd n) s = .next (showGig (tearScrubbed n (modCx n (fun c => { c with scrubPages := false }) { s with gig := { s.gig with
      scrubs := s.gig.scrubs.filter (fun y => y.1 != cid n), pages := s.gig.pages.map (fun p => if p == cid n then 0 else p)
      sram := SMap.forget (fun a => ((List.finRange 64).filter (fun i => s.gig.pages[i] == cid n)).any (fun i => a / 65536 == i.val)) s.gig.sram } }))) := by
  change execGigPageScrubEnd n s = _
  simp only [execGigPageScrubEnd, hFind, Nat.not_lt.2 hTime, if_false]

/-- What a teardown's end can reach, slots among it. -/
def holdParts : Parts := { heldParts with tt := true }

theorem holdParts_hold : HoldParts holdParts := { heldParts_held with tt := rfl }

theorem gigPageScrubEnd_clears {n : Ctx} {x : Nat × Nat} {s : State} (hFind : s.gig.scrubs.find? (fun y => y.1 == cid n) = some x)
    (hSram : SMap.wf zeroByte s.gig.sram = true)
    (hTime : x.2 + ceilDiv (2 * (256 + 128 * ((List.finRange 64).filter (fun i => s.gig.pages[i] == cid n)).length)) 3 ≤ s.now) :
    ∃ t, exec (.gigPageScrubEnd n) s = .next t ∧ (∀ i : Fin 64, t.gig.pages[i] = if s.gig.pages[i] = cid n then 0 else s.gig.pages[i]) ∧
      (∀ a (i : Fin 64), a / 65536 = i.val → SMap.get zeroByte t.gig.sram a = if s.gig.pages[i] = cid n then 0 else SMap.get zeroByte s.gig.sram a) ∧
      t.gig.scrubs = s.gig.scrubs.filter (fun y => y.1 != cid n) ∧ t.otp = s.otp ∧ t.tt = { s.tt with armLine := t.tt.armLine } := by
  have hExec := execGigPageScrubEnd_eq hFind hTime
  generalize hStart : (modCx n (fun c => { c with scrubPages := false }) { s with gig := { s.gig with
      scrubs := s.gig.scrubs.filter (fun y => y.1 != cid n), pages := s.gig.pages.map (fun p => if p == cid n then 0 else p)
      sram := SMap.forget (fun a => ((List.finRange 64).filter (fun i => s.gig.pages[i] == cid n)).any (fun i => a / 65536 == i.val)) s.gig.sram } }) = v at hExec
  have hFrame : Frame holdParts allKeys v (showGig (tearScrubbed n v)) := Frame.showGig rfl ((Frame.refl _ _ v).tearScrubbed holdParts_hold holdIn_all n)
  have hArms : ArmsOnly v (showGig (tearScrubbed n v)) := (armsOnly_tearScrubbed n v).trans ((Frame.showGig (u := {}) (K := allKeys) rfl (Frame.refl _ _ _)).arms rfl)
  have hGig := hFrame.gig rfl
  have hOtp := hFrame.otp rfl
  unfold ArmsOnly at hArms
  generalize showGig (tearScrubbed n v) = t at *
  subst hStart
  refine ⟨t, hExec, fun i => ?_, fun a i ha => ?_, by rw [hGig]; rfl, hOtp, hArms⟩
  · rw [hGig]
    simp [modCx_gig]
  · rw [hGig, modCx_gig]
    dsimp only
    rw [SMap.get_forget zeroByte _ s.gig.sram none hSram a]
    have hPage : ((List.finRange 64).filter (fun i => s.gig.pages[i] == cid n)).any (fun i => a / 65536 == i.val) = (s.gig.pages[i] == cid n) := by
      rw [Bool.eq_iff_iff, List.any_eq_true]
      constructor
      · rintro ⟨j, hj, hEq⟩
        have hij : j = i := Fin.ext ((beq_iff_eq.1 hEq).symm.trans ha)
        exact hij ▸ (List.mem_filter.1 hj).2
      · exact fun hi => ⟨i, List.mem_filter.2 ⟨List.mem_finRange i, hi⟩, beq_iff_eq.2 ha⟩
    rw [hPage]
    simp [zeroByte]

/-- Settles O21: a Gig slot ends after its length, and pages are cleared with their scrub. -/
theorem gigSlotsEndAndPagesAreScrubbed : Obligations.GigSlotsEndAndPagesAreScrubbed := by
  unfold Obligations.GigSlotsEndAndPagesAreScrubbed
  intro s h
  refine ⟨fun c r ecc hRun hCo hEnd hEcc hSat hNan => ?_, fun c r word flip u hRun hCo hEnd hClean => gigSlotEnd_uncorrected hRun hCo hEnd word flip hClean,
    fun n x hFind hSram hTime => gigPageScrubEnd_clears hFind hSram hTime⟩
  obtain ⟨t, hExec, hFree, hCtx, hCoach, hState, hEnds, hStays, hOthers, hSrams, hBusy, ⟨hGig, hGigNone, hCa, hCaNone⟩, hKept, hEq⟩ :=
    gigSlotEnd_clean h hRun hCo hEnd hEcc hSat hNan
  refine ⟨t, hExec, hFree, hCtx, hCoach, hState, hEnds, hStays, hOthers, hSrams, hBusy, ?_, ?_, hKept, hEq⟩
  · split
    · next k => exact hGig k rfl
    · next hNone => exact hGigNone hNone
  · split
    · next loc k =>
      split
      · next hLoc => exact hCaNone fun l j hl => (EccObs.corrected.inj hl).1 ▸ hLoc
      · next hLoc => exact hCa loc k rfl hLoc
    · next hNone => exact hCaNone fun l k hl => absurd hl (hNone l k)

end Sys2Proof.Machine

/-! SUPPORT. The run of a stage as its cycles are carried out (R94, R95, R104, R113, R173, R192). -/

namespace Sys2Proof.Machine

theorem modCo_modCo (c : Coach) (f g : CoachSt → CoachSt) (s : State) : modCo c g (modCo c f s) = modCo c (fun x => g (f x)) s := by
  rw [modCo, co_modCo, modCo, modCo, setCo, setCo, setCo]
  simp only [Vector.set_set]

theorem setCo_eq_modCo (c : Coach) (x : CoachSt) (s : State) : setCo c x s = modCo c (fun _ => x) s := rfl

theorem co_wr (c : Coach) (f : Fld) (n : Nat) (s : State) : co c (wr f n s) = co c s := rfl

theorem co_add (c : Coach) (f : Fld) (n : Nat) (s : State) : co c (add f n s) = co c s := rfl

theorem co_markBit (c : Coach) (f : Fld) (s : State) : co c (markBit f s) = co c s := rfl

theorem co_profAdd (c d : Coach) (f : Fld) (n : Nat) (s : State) : co d (profAdd c f n s) = co d s := by
  unfold profAdd
  split <;> rfl

theorem rd_profAdd_same {s : State} (h : s.regsWf = true) (c : Coach) (f : Fld) (n : Nat) :
    rd f (profAdd c f n s) = if profOn c s = true then sat f (rd f s + n) else rd f s := by
  unfold profAdd
  split
  · exact rd_add_same h f n
  · rfl

theorem rd_profAdd_ne {s : State} (h : s.regsWf = true) (c : Coach) (f g : Fld) (n : Nat) (hfg : f.key ≠ g.key) : rd f (profAdd c g n s) = rd f s := by
  unfold profAdd
  split
  · exact rd_wr_ne h f g _ hfg
  · rfl

/-- Whether a coach's cycles are counted depends on PROF_EN and on confidential mode (R115). -/
theorem Frame.profOn {u : Parts} {K : Nat → Bool} {s t : State} (hFrame : Frame u K s t) (h : s.regsWf = true) (c : Coach) (hEn : K (CA_CFG.PROF_EN c.val).key = false)
    (hConf : K GL_STATUS.CONFIDENTIAL.key = false) : profOn c t = profOn c s := by
  have hOwn : ∀ c : Coach, ownKey (CA_CFG.PROF_EN c.val).key = false := by decide
  rw [Machine.profOn, Machine.profOn, rdB, rdB, hFrame.regs h _ (hOwn c) hEn, confidential, confidential, rdB, rdB, hFrame.regs h _ (by decide) hConf]

/-- Of an entry, the progress of its run: the cycles carried out, the register of the pass, saturations seen, and a fault met. -/
def RunSt.withWork (r : RunSt) (step reg : Nat) (seen : Bool) (fault : Option Nat) : RunSt := { r with step := step, reg := reg, satSeen := seen, fault := fault }

/-- What cycles of a run change: its progress, and the accumulators and weight registers of the coach. -/
def RunWork.Follows (z y : RunWork) : Prop :=
  (∃ step reg seen fault, z.run = y.run.withWork step reg seen fault) ∧ ∃ a w, z.coach = { y.coach with acc := a, wregs := w }

theorem RunWork.Follows.refl (z : RunWork) : z.Follows z := ⟨⟨_, _, _, _, rfl⟩, _, _, rfl⟩

theorem RunWork.Follows.trans {x y z : RunWork} (h : z.Follows y) (k : y.Follows x) : z.Follows x := by
  obtain ⟨⟨a, b, c, d, hRun⟩, e, f, hCo⟩ := h
  obtain ⟨⟨_, _, _, _, hRun'⟩, _, _, hCo'⟩ := k
  exact ⟨⟨a, b, c, d, by rw [hRun, hRun']; rfl⟩, e, f, by rw [hCo, hCo']⟩

theorem loadTap_eq (ks : List Nat) (a b c d : Nat) (x : CoachSt) : ∃ w, loadTap ks a b c d x = { x with wregs := w } := ⟨_, rfl⟩

theorem macCycle_eq (ks : List Nat) (d : RunDesc) (t : PassEnt) (a b c : Nat) (x : CoachSt) : ∃ m, (macCycle ks d t a b c x).1 = { x with acc := m } := ⟨_, rfl⟩

theorem loadCycle_eq (img : List Byte) (r : RunSt) (p q : Nat) (x : CoachSt) : ∃ w, (loadCycle img r p q x).1 = { x with wregs := w } := by
  unfold loadCycle
  split
  · exact ⟨_, rfl⟩
  · dsimp only
    split
    · exact ⟨_, rfl⟩
    · exact loadTap_eq ..

theorem runCycle_follows (img : List Byte) (b : Bool) (z : RunWork) : (runCycle img b z).Follows z := by
  unfold runCycle
  dsimp only
  split
  · exact ⟨⟨_, _, _, _, rfl⟩, _, _, rfl⟩
  · have hLoaded (x : CoachSt) (p q : Nat) (hx : ∃ a, x = { z.coach with acc := a }) : ∃ a w, (loadCycle img z.run p q x).1 = { z.coach with acc := a, wregs := w } := by
      obtain ⟨a, rfl⟩ := hx
      obtain ⟨w, hLoad⟩ := loadCycle_eq img z.run p q { z.coach with acc := a }
      exact ⟨a, w, hLoad⟩
    refine ⟨⟨_, _, _, _, rfl⟩, hLoaded _ _ _ ?_⟩
    split
    · exact macCycle_eq ..
    · exact ⟨_, rfl⟩

theorem runCyclesOf_follows (img : List Byte) (b : Bool) (k : Nat) (z : RunWork) : (runCyclesOf img b k z).Follows z := by
  induction k generalizing z with
  | zero => exact .refl z
  | succ k ih =>
    unfold runCyclesOf
    split
    · exact .refl z
    · exact (ih _).trans (runCycle_follows img b z)

/-- The cycles of the run in progress on a coach before a stage cycle. -/
def workTo (c : Coach) (r : RunSt) (t : Nat) (s : State) : RunWork :=
  runCyclesOf (cx r.ctx s).image (rdB (CA_CFG.SAT_FAULT c.val) s) (min t (runEnd (cx r.ctx s).image r) - (r.runAt + r.step)) ⟨co c s, r, 0, 0⟩

/-- A run that has cycles to carry out: it is in progress, has met no fault, and keeps to R94. -/
def runGoes (r : RunSt) (t : Nat) (img : List Byte) : Prop :=
  runOn img r = true ∧ r.fault = none ∧ ¬ (r.step = 0 ∧ r.runAt ≤ t ∧ runOk img (runDesc img r.stage r.runIdx) = false)

/-- The counts of a run's cycles. -/
def workCounted (c : Coach) (z : RunWork) (s : State) : State :=
  profAdd c (CA_BUSY.COUNT c.val) z.busy (if z.sats != 0 then markBit (CA_STATUS.SAT_SEEN c.val) (add (CA_NUMERIC.ACC_SAT c.val) z.sats s) else s)

section
variable {c : Coach} {r : RunSt} {s : State} (hRun : (co c s).run = some r) (t : Nat)
include hRun

theorem runTo_goes (hGoes : runGoes r t (cx r.ctx s).image) :
    runTo c t s = workCounted c (workTo c r t s) (setCo c { (workTo c r t s).coach with run := some (workTo c r t s).run } s) := by
  obtain ⟨hOn, hFault, hOk⟩ := hGoes
  have hBad : ¬ (r.step == 0 && decide (r.runAt ≤ t) && !runOk (cx r.ctx s).image (runDesc (cx r.ctx s).image r.stage r.runIdx)) = true := by
    simpa only [Bool.and_eq_true, beq_iff_eq, decide_eq_true_eq, Bool.not_eq_true', and_assoc] using hOk
  unfold runTo
  rw [hRun]
  dsimp only
  rw [if_neg (by simp [hOn, hFault]), if_neg hBad]
  rfl

theorem runTo_still (hStill : runOn (cx r.ctx s).image r = false ∨ r.fault.isSome = true) : runTo c t s = s := by
  unfold runTo
  rw [hRun]
  dsimp only
  rw [if_pos (by obtain h | h := hStill <;> simp [h])]

theorem runTo_bad (hOn : runOn (cx r.ctx s).image r = true) (hFault : r.fault = none) (hStep : r.step = 0) (hAt : r.runAt ≤ t)
    (hBad : runOk (cx r.ctx s).image (runDesc (cx r.ctx s).image r.stage r.runIdx) = false) :
    runTo c t s = modCo c (fun x => { x with run := some { r with fault := some 1 } }) s := by
  unfold runTo
  rw [hRun]
  dsimp only
  rw [if_neg (by simp [hOn, hFault]), if_pos (by simp [hStep, hAt, hBad])]

end

theorem co_workCounted (c d : Coach) (z : RunWork) (s : State) : co d (workCounted c z s) = co d s := by
  rw [workCounted, co_profAdd]
  split <;> rfl

theorem workCounted_frame (c : Coach) (z : RunWork) (s : State) :
    Frame {} (keysOf [CA_NUMERIC.ACC_SAT c.val, CA_STATUS.SAT_SEEN c.val, CA_BUSY.COUNT c.val]) s (workCounted c z s) := by
  refine Frame.profAdd c _ _ (keysOf_mem (by simp)) (Frame.ite ?_ (Frame.refl _ _ s))
  exact ((Frame.refl _ _ s).add _ _ (keysOf_mem (by simp))).markBit _ (keysOf_mem (by simp))

theorem workFields_apart : ∀ c : Coach, (CA_NUMERIC.ACC_SAT c.val).key ≠ (CA_BUSY.COUNT c.val).key ∧ (CA_NUMERIC.ACC_SAT c.val).key ≠ (CA_STATUS.SAT_SEEN c.val).key ∧
    ownKey (CA_NUMERIC.ACC_SAT c.val).key = false ∧ ownKey (CA_BUSY.COUNT c.val).key = false ∧
    keysOf [CA_NUMERIC.ACC_SAT c.val, CA_STATUS.SAT_SEEN c.val] (CA_BUSY.COUNT c.val).key = false ∧
    keysOf [CA_NUMERIC.ACC_SAT c.val, CA_STATUS.SAT_SEEN c.val] (CA_CFG.PROF_EN c.val).key = false ∧
    keysOf [CA_NUMERIC.ACC_SAT c.val, CA_STATUS.SAT_SEEN c.val] GL_STATUS.CONFIDENTIAL.key = false := by decide

theorem rd_workCounted {s : State} (h : s.regsWf = true) (c : Coach) (z : RunWork) :
    rd (CA_NUMERIC.ACC_SAT c.val) (workCounted c z s) =
      (if z.sats = 0 then rd (CA_NUMERIC.ACC_SAT c.val) s else sat (CA_NUMERIC.ACC_SAT c.val) (rd (CA_NUMERIC.ACC_SAT c.val) s + z.sats)) ∧
    rd (CA_BUSY.COUNT c.val) (workCounted c z s) =
      if profOn c s = true then sat (CA_BUSY.COUNT c.val) (rd (CA_BUSY.COUNT c.val) s + z.busy) else rd (CA_BUSY.COUNT c.val) s := by
  obtain ⟨hAccBusy, hAccSeen, hAccOwn, hBusyOwn, hBusy, hEn, hConf⟩ := workFields_apart c
  have hSeen : Frame {} (keysOf [CA_NUMERIC.ACC_SAT c.val, CA_STATUS.SAT_SEEN c.val]) s
      (if z.sats != 0 then markBit (CA_STATUS.SAT_SEEN c.val) (add (CA_NUMERIC.ACC_SAT c.val) z.sats s) else s) :=
    Frame.ite (((Frame.refl _ _ s).add _ _ (keysOf_mem (by simp))).markBit _ (keysOf_mem (by simp))) (Frame.refl _ _ s)
  have hAcc : rd (CA_NUMERIC.ACC_SAT c.val) (if z.sats != 0 then markBit (CA_STATUS.SAT_SEEN c.val) (add (CA_NUMERIC.ACC_SAT c.val) z.sats s) else s) =
      if z.sats = 0 then rd (CA_NUMERIC.ACC_SAT c.val) s else sat (CA_NUMERIC.ACC_SAT c.val) (rd (CA_NUMERIC.ACC_SAT c.val) s + z.sats) := by
    by_cases hNone : z.sats = 0
    · rw [if_neg (by simp [hNone]), if_pos hNone]
    · rw [if_pos (by simp [hNone]), if_neg hNone]
      exact rd_marked h _ _ _ hAccSeen hAccOwn
  unfold workCounted
  generalize (if z.sats != 0 then markBit (CA_STATUS.SAT_SEEN c.val) (add (CA_NUMERIC.ACC_SAT c.val) z.sats s) else s) = v at hSeen hAcc ⊢
  rw [rd_profAdd_ne (hSeen.wf h) c _ _ _ hAccBusy, rd_profAdd_same (hSeen.wf h), hSeen.profOn h c hEn hConf, hSeen.regs h _ hBusyOwn hBusy]
  exact ⟨hAcc, rfl⟩

end Sys2Proof.Machine

/-! O57. The Lantern in a deep-sleep entry that finds PD_CM off (R359, R521), and the refutation of O57. -/

namespace Sys2Proof.Machine

/-- A deep-sleep entry has come to its step 4, and PD_CM is off already. -/
def sleepWithoutCm : State :=
  let s := wr PM_SLEEP.STATE 1 State.reset
  { s with pw := { s.pw with sleepStep := 4 } }

/-- Refutes O57: step 4 of the deep-sleep entry starts the Lantern only where PD_CM is still on. -/
theorem not_resetsSleepAndWakes : ¬ Obligations.ResetsSleepAndWakes := by
  unfold Obligations.ResetsSleepAndWakes
  intro h
  obtain ⟨-, -, -, -, hFour, -⟩ := h sleepWithoutCm (by decide +kernel)
  obtain ⟨t, hExec, -, -, -, hLantern⟩ := hFour (by decide +kernel) (by decide +kernel)
  -- The Lantern does not begin to record.
  have hUnlit : (match execSleepEntryStep sleepWithoutCm with
      | .next t => t.pw.lantern
      | _ => true) = false := by decide +kernel
  change execSleepEntryStep sleepWithoutCm = _ at hExec
  rw [hExec] at hUnlit
  exact absurd (hLantern.symm.trans hUnlit) (by decide)

end Sys2Proof.Machine

/-! SUPPORT. Synchronisation points, runs, drains and stage ends (R86, R87, R94, R95, R106, R107, R113, R114, R132, R166, R173, R192), and O22. -/

namespace Sys2Proof.Machine

theorem lateFields_apart : ∀ (c : Coach) (n : Ctx), (GL_WB_LATE_CYC.COUNT (cid n)).key ≠ (CA_STALL_MEM.COUNT c.val).key ∧
    keysOf [GL_WB_LATE_CYC.COUNT (cid n)] (CA_CFG.PROF_EN c.val).key = false ∧ keysOf [GL_WB_LATE_CYC.COUNT (cid n)] GL_STATUS.CONFIDENTIAL.key = false := by decide

section
variable {s : State} {c : Coach} {r : RunSt} (h : s.regsWf = true) (hRun : (co c s).run = some r)
include h hRun

theorem syncWaitEnd_settles (hState : coachState c s = 2) :
    ∃ t, exec (.syncWaitEnd c) s = .next t ∧ (co c t).run = some (syncRun c r s).1 ∧
      rd (GL_WB_LATE_CYC.COUNT (cid r.ctx)) t = sat (GL_WB_LATE_CYC.COUNT (cid r.ctx)) (rd (GL_WB_LATE_CYC.COUNT (cid r.ctx)) s + (syncRun c r s).2.1) ∧
      rd (CA_STALL_MEM.COUNT c.val) t = (if profOn c s = true then sat (CA_STALL_MEM.COUNT c.val) (rd (CA_STALL_MEM.COUNT c.val) s + (syncRun c r s).2.2.1)
        else rd (CA_STALL_MEM.COUNT c.val) s) ∧
      (∀ d, d ≠ c → co d t = co d s) ∧ s.kept [GL_WB_LATE_CYC.COUNT (cid r.ctx), CA_STALL_MEM.COUNT c.val] t ∧ t = { s with regs := t.regs, coach := t.coach } := by
  obtain ⟨hLateStall, hEn, hConf⟩ := lateFields_apart c r.ctx
  have hExec : exec (.syncWaitEnd c) s = .next (profAdd c (CA_STALL_MEM.COUNT c.val) (syncRun c r s).2.2.1
      (add (GL_WB_LATE_CYC.COUNT (cid r.ctx)) (syncRun c r s).2.1 (modCo c (fun x => { x with run := some (syncRun c r s).1 }) s))) := by
    change execSyncWaitEnd c s = _
    simp only [execSyncWaitEnd, hState, bne_self_eq_false, Bool.false_eq_true, if_false, syncSettle, hRun]
  generalize syncRun c r s = z at hExec ⊢
  have hWf : (modCo c (fun x => { x with run := some z.1 }) s).regsWf = true := h
  have hLate : Frame { coach := true, coaches := fun x => x == c } (keysOf [GL_WB_LATE_CYC.COUNT (cid r.ctx)]) s
      (add (GL_WB_LATE_CYC.COUNT (cid r.ctx)) z.2.1 (modCo c (fun x => { x with run := some z.1 }) s)) :=
    ((Frame.refl _ _ s).modCo rfl c (beq_self_eq_true c) _).add _ _ (keysOf_mem (List.mem_singleton_self _))
  have hAdded := hLate.wf h
  have hAll : Frame { coach := true, coaches := fun x => x == c } (keysOf [GL_WB_LATE_CYC.COUNT (cid r.ctx), CA_STALL_MEM.COUNT c.val]) s (profAdd c (CA_STALL_MEM.COUNT c.val) z.2.2.1
      (add (GL_WB_LATE_CYC.COUNT (cid r.ctx)) z.2.1 (modCo c (fun x => { x with run := some z.1 }) s))) :=
    ((hLate.keys (.refl _) (by simp)).profAdd c _ _ (keysOf_mem (by simp)))
  refine ⟨_, hExec, ?_, ?_, ?_, fun d hd => hAll.coaches d (beq_eq_false_iff_ne.2 hd), hAll.kept h, hAll.eq⟩
  · rw [co_profAdd, co_add, co_modCo]
  · rw [rd_profAdd_ne hAdded c _ _ _ hLateStall]
    exact rd_add_same hWf _ _
  · rw [rd_profAdd_same hAdded, hLate.profOn h c hEn hConf]
    exact ite_congr rfl (fun _ => congrArg (fun x => sat _ (x + _)) (rd_wr_ne hWf _ _ _ hLateStall.symm)) (fun _ => rd_wr_ne hWf _ _ _ hLateStall.symm)

/-- A run that ends before a drain is finished first. -/
theorem carriageRunEnd_finishes (hSettled : syncSettle c (queueRoll c s) = s) {e : Nat} (hEnded : runEnded c s = some e) (hFirst : ∀ b, drainEnded c s = some b → e < b) :
    exec (.carriageRunEnd c .clean) s = .next (finishRun c s) := by
  have hEvents : coachEvents c true 8 s = finishRun c s := by
    unfold coachEvents
    rw [hEnded]
    cases hDrain : drainEnded c s with
    | none => rfl
    | some b =>
      dsimp only
      rw [if_pos (hFirst b hDrain)]
      rfl
  change execCarriageRunEnd c .clean s = _
  simp only [execCarriageRunEnd, hRun, Option.isNone_some, Bool.false_eq_true, if_false]
  rw [hSettled]
  exact congrArg Host.Outcome.next hEvents

omit h in
theorem runEnded_some {e : Nat} (hEnded : runEnded c s = some e) : runOn (cx r.ctx s).image r = true ∧ r.fault = none ∧ e ≤ stageCycle c s ∧
    e = if runOk (cx r.ctx s).image (runDesc (cx r.ctx s).image r.stage r.runIdx) then runEnd (cx r.ctx s).image r else r.runAt := by
  unfold runEnded at hEnded
  rw [hRun] at hEnded
  dsimp only at hEnded
  generalize (if runOk (cx r.ctx s).image (runDesc (cx r.ctx s).image r.stage r.runIdx) then runEnd (cx r.ctx s).image r else r.runAt) = x at hEnded ⊢
  split at hEnded
  · next hCond =>
    simp only [Bool.and_eq_true, Option.isNone_iff_eq_none, decide_eq_true_eq] at hCond
    obtain rfl := Option.some.inj hEnded
    exact ⟨hCond.1.1, hCond.1.2, hCond.2, rfl⟩
  · exact absurd hEnded (by simp)

end

/-- The end of a run: the next one waits for its bank, and its drains join the queue (R95, R113). -/
def runFinished (img : List Byte) (r q : RunSt) : RunSt :=
  let d := runDesc img r.stage r.runIdx
  let ds := if d.drain then r.drains ++ (drainGroups (stPost img r.stage d.post).op d.carriages).map (fun m => (m, d.bank, r.runIdx)) else r.drains
  { q with
    runIdx := q.runIdx + 1, runAt := runEnd img r, step := 0, drains := ds, drainAt := if q.drains.isEmpty then runEnd img r else q.drainAt
    stalled := decide (q.runIdx + 1 < nRuns img q.stage) && bankBusy ds (runDesc img r.stage (r.runIdx + 1)), stallN := 0 }

theorem finishRun_eq {s : State} {c : Coach} {r : RunSt} (hRun : (co c s).run = some r) (hFault : (co c (runTo c (runEnd (cx r.ctx s).image r) s)).run.bind (·.fault) = none) :
    finishRun c s = modRun c (runFinished (cx r.ctx s).image r) (runTo c (runEnd (cx r.ctx s).image r) s) := by
  unfold finishRun
  rw [hRun]
  dsimp only
  rw [hFault, if_neg (by simp)]
  rfl

section
variable {s : State} {c : Coach} {r : RunSt} (h : s.regsWf = true) (hRun : (co c s).run = some r)
include h hRun

theorem carriageRunEnd_ends {e : Nat} {d : RunDesc} {z : RunWork} (hSettled : syncSettle c (queueRoll c s) = s) (hEnded : runEnded c s = some e)
    (hFirst : ∀ b, drainEnded c s = some b → e < b) (hDesc : d = runDesc (cx r.ctx s).image r.stage r.runIdx) (hOk : runOk (cx r.ctx s).image d = true)
    (hWork : z = runCyclesOf (cx r.ctx s).image (rdB (CA_CFG.SAT_FAULT c.val) s) (runEnd (cx r.ctx s).image r - (r.runAt + r.step)) ⟨co c s, r, 0, 0⟩) (hFault : z.run.fault = none) :
    ∃ t q, exec (.carriageRunEnd c .clean) s = .next t ∧ (co c t).run = some q ∧ q.runIdx = r.runIdx + 1 ∧ q.runAt = runEnd (cx r.ctx s).image r ∧
      q.stage = r.stage ∧ q.drains = (if d.drain = true then r.drains ++ (drainGroups (stPost (cx r.ctx s).image r.stage d.post).op d.carriages).map (fun m => (m, d.bank, r.runIdx)) else r.drains) ∧
      rd (CA_NUMERIC.ACC_SAT c.val) t = (if z.sats = 0 then rd (CA_NUMERIC.ACC_SAT c.val) s else sat (CA_NUMERIC.ACC_SAT c.val) (rd (CA_NUMERIC.ACC_SAT c.val) s + z.sats)) ∧
      rd (CA_BUSY.COUNT c.val) t = (if profOn c s = true then sat (CA_BUSY.COUNT c.val) (rd (CA_BUSY.COUNT c.val) s + z.busy) else rd (CA_BUSY.COUNT c.val) s) ∧
      (co c t).acc = z.coach.acc ∧ (co c t).wregs = z.coach.wregs ∧ (co c t).sram = (co c s).sram ∧ (∀ y, y ≠ c → co y t = co y s) ∧
      s.kept [CA_NUMERIC.ACC_SAT c.val, CA_STATUS.SAT_SEEN c.val, CA_BUSY.COUNT c.val] t ∧ t = { s with regs := t.regs, coach := t.coach } := by
  subst hDesc
  obtain ⟨hOn, hClean, -, -⟩ := runEnded_some hRun hEnded
  have hExec := carriageRunEnd_finishes h hRun hSettled hEnded hFirst
  have hTo := runTo_goes hRun (runEnd (cx r.ctx s).image r) ⟨hOn, hClean, by simp [hOk]⟩
  have hZ : workTo c r (runEnd (cx r.ctx s).image r) s = z := by
    rw [hWork, workTo, Nat.min_self]
  obtain ⟨⟨step, reg, seen, fault, hZRun⟩, acc, wregs, hZCo⟩ : z.Follows ⟨co c s, r, 0, 0⟩ := hWork ▸ runCyclesOf_follows _ _ _ _
  rw [hZ] at hTo
  have hCo : co c (runTo c (runEnd (cx r.ctx s).image r) s) = { z.coach with run := some z.run } := by rw [hTo, co_workCounted, co_setCo]
  rw [finishRun_eq hRun (by rw [hCo]; exact hFault), hTo] at hExec
  have hWf : (setCo c { z.coach with run := some z.run } s).regsWf = true := h
  obtain ⟨hAcc, hBusy⟩ := rd_workCounted hWf c z
  have hProf : profOn c (setCo c { z.coach with run := some z.run } s) = profOn c s := rfl
  have hFrame : Frame { coach := true, coaches := fun x => x == c } (keysOf [CA_NUMERIC.ACC_SAT c.val, CA_STATUS.SAT_SEEN c.val, CA_BUSY.COUNT c.val]) s
      (modRun c (runFinished (cx r.ctx s).image r) (workCounted c z (setCo c { z.coach with run := some z.run } s))) :=
    Frame.modCo rfl c (beq_self_eq_true c) _ (((Frame.refl _ _ s).setCo rfl c (beq_self_eq_true c) _).trans ((workCounted_frame c z _).keys (.empty _) fun _ => id))
  have hCoT : co c (modRun c (runFinished (cx r.ctx s).image r) (workCounted c z (setCo c { z.coach with run := some z.run } s))) =
      { z.coach with run := some (runFinished (cx r.ctx s).image r z.run) } := by
    rw [modRun, co_modCo, co_workCounted, co_setCo]
    rfl
  refine ⟨_, runFinished (cx r.ctx s).image r z.run, hExec, by rw [hCoT], by rw [hZRun]; rfl, rfl, by rw [hZRun]; rfl, rfl, ?_, ?_, by rw [hCoT], by rw [hCoT], ?_,
    fun d hd => hFrame.coaches d (beq_eq_false_iff_ne.2 hd), hFrame.kept h, hFrame.eq⟩
  · exact (rd_modCo _ _ _ _).trans hAcc
  · exact (rd_modCo _ _ _ _).trans (hProf ▸ hBusy)
  · rw [hCoT, hZCo]

/-- A run that breaks R94 is over as it begins. -/
theorem carriageRunEnd_bad {e : Nat} (hSettled : syncSettle c (queueRoll c s) = s) (hEnded : runEnded c s = some e) (hFirst : ∀ b, drainEnded c s = some b → e < b)
    (hStep : r.step = 0) (hBad : runOk (cx r.ctx s).image (runDesc (cx r.ctx s).image r.stage r.runIdx) = false) :
    exec (.carriageRunEnd c .clean) s = .next (coachFault c 0x01 1 (modRun c (fun r => { r with fault := some 0 }) s)) := by
  obtain ⟨hOn, hClean, -, -⟩ := runEnded_some hRun hEnded
  have hLate : r.runAt ≤ runEnd (cx r.ctx s).image r := by
    unfold runEnd
    omega
  have hTo := runTo_bad hRun (runEnd (cx r.ctx s).image r) hOn hClean hStep hLate hBad
  have hSame : modRun c (fun r => { r with fault := some 0 }) (modCo c (fun x => { x with run := some { r with fault := some 1 } }) s) =
      modRun c (fun r => { r with fault := some 0 }) s := by
    rw [modRun, modCo_modCo, modRun, modCo, modCo, hRun]
    rfl
  rw [carriageRunEnd_finishes h hRun hSettled hEnded hFirst]
  unfold finishRun
  rw [hRun]
  dsimp only
  rw [hTo, if_pos (by rw [co_modCo]; rfl), runFault, co_modCo]
  exact congrArg (fun t => Host.Outcome.next (coachFault c 0x01 1 t)) hSame

omit h in
theorem execCarriageRunEnd_eq (e : EccObs) : exec (.carriageRunEnd c e) s = .next (coachEcc c e (coachEvents c true 8 (eccPut c e (syncSettle c (queueRoll c s))))) := by
  change execCarriageRunEnd c e s = _
  simp only [execCarriageRunEnd, hRun, Option.isNone_some, Bool.false_eq_true, if_false]

omit h in
theorem carriageRunEnd_corrected {k : Nat} {u : State} (hClean : exec (.carriageRunEnd c .clean) s = .next u) (loc : Nat) :
    exec (.carriageRunEnd c (.corrected loc k)) s = .next (markBit (CA_STATUS.ECC_SEEN c.val) (add (CA_ECC.CORR c.val) k u)) := by
  rw [execCarriageRunEnd_eq hRun] at hClean ⊢
  rw [← Host.Outcome.next.inj hClean]
  rfl

end

/-- A change of a coach's SRAMs, by what they hold alone. -/
structure SramOnly (g : CoachSt → CoachSt) : Prop where
  eq : ∀ x, g x = { x with sram := (g x).sram }
  congr : ∀ x y : CoachSt, x.sram = y.sram → (g x).sram = (g y).sram

/-- An error in an SRAM is a change of it (R87). -/
theorem eccPut_uncorrected (c : Coach) {loc : Nat} (hLoc : loc < 5) (word flip : Nat) : ∃ g, SramOnly g ∧ ∀ s, eccPut c (.uncorrected loc word flip) s = modCo c g s := by
  refine ⟨fun x => { x with sram := x.sram.set loc (SMap.setList zeroByte (x.sram[loc]) (word * 8 % 0x200000)
    (leBytes 8 (Nat.xor (rdN (coachMem x loc) (word * 8 % 0x200000) 8) flip))) }, ⟨fun _ => rfl, fun x y hxy => ?_⟩, fun s => ?_⟩
  · have hMem : coachMem x loc = coachMem y loc := by
      unfold coachMem
      rw [hxy]
    dsimp only
    rw [hMem]
    simp only [hxy]
  · unfold eccPut
    dsimp only
    rw [dif_pos hLoc]

theorem eccPut_outside (c : Coach) {loc : Nat} (hLoc : ¬ loc < 5) (word flip : Nat) (s : State) : eccPut c (.uncorrected loc word flip) s = s := by
  unfold eccPut
  dsimp only
  rw [dif_neg hLoc]

theorem syncDone_congr {x y : CoachSt} (hXfers : x.xfers = y.xfers) (hEnds : x.gigEnds = y.gigEnds) (k t : Nat) : syncDone x k t = syncDone y k t := by
  unfold syncDone
  rw [hXfers, hEnds]

theorem syncPass_congr {x y : CoachSt} (hXfers : x.xfers = y.xfers) (hEnds : x.gigEnds = y.gigEnds) (img : List Byte) (now k : Nat) (r : RunSt) (w m : Nat) :
    syncPass img x now k r w m = syncPass img y now k r w m := by
  induction k generalizing r w m with
  | zero => rfl
  | succ k ih =>
    unfold syncPass
    simp only [syncDone_congr hXfers hEnds, ih]

section
variable {g : CoachSt → CoachSt} (hg : SramOnly g) (c : Coach)
include hg

theorem SramOnly.kept (x : CoachSt) : (g x).run = x.run ∧ (g x).xfers = x.xfers ∧ (g x).gigEnds = x.gigEnds := by
  rw [hg.eq x]
  exact ⟨rfl, rfl, rfl⟩

theorem SramOnly.withRun (x : CoachSt) (r : Option RunSt) : g { x with run := r } = { g x with run := r } := by
  rw [hg.eq, hg.eq x, hg.congr { x with run := r } x rfl]

theorem add_modCo (f : Fld) (n : Nat) (s : State) : add f n (modCo c g s) = modCo c g (add f n s) := rfl

theorem profAdd_modCo (f : Fld) (n : Nat) (s : State) : profAdd c f n (modCo c g s) = modCo c g (profAdd c f n s) := by
  have hProf : profOn c (modCo c g s) = profOn c s := rfl
  unfold profAdd
  rw [hProf]
  split <;> rfl

theorem withRun_modCo (r : Option RunSt) (s : State) : modCo c (fun x => { x with run := r }) (modCo c g s) = modCo c g (modCo c (fun x => { x with run := r }) s) := by
  rw [modCo_modCo, modCo_modCo]
  congr 1
  funext x
  exact (hg.withRun x r).symm

theorem queueRoll_modCo (s : State) : queueRoll c (modCo c g s) = modCo c g (queueRoll c s) := by
  have hNow : arithNow (modCo c g s) = arithNow s := rfl
  unfold queueRoll
  rw [co_modCo, (hg.kept _).1]
  cases hRun : (co c s).run with
  | none => rfl
  | some r =>
    dsimp only
    cases hFull : r.fullAt with
    | none => rfl
    | some t =>
      dsimp only
      rw [hNow, withRun_modCo hg, add_modCo hg]

theorem syncSettle_modCo (s : State) : syncSettle c (modCo c g s) = modCo c g (syncSettle c s) := by
  have hPass (r : RunSt) : syncRun c r (modCo c g s) = syncRun c r s := by
    have hNow : coachNow c (modCo c g s) = coachNow c s := by
      unfold coachNow
      rw [co_modCo, (hg.kept _).1]
      rfl
    unfold syncRun
    rw [hNow, co_modCo, syncPass_congr (hg.kept (co c s)).2.1 (hg.kept (co c s)).2.2]
    rfl
  unfold syncSettle
  rw [co_modCo, (hg.kept _).1]
  cases hRun : (co c s).run with
  | none => rfl
  | some r =>
    dsimp only
    rw [hPass, withRun_modCo hg, add_modCo hg, profAdd_modCo hg]

end

/-- An error in an SRAM stands there whether or not the coach's waits so far have been counted. -/
theorem settled_eccPut (c : Coach) (loc word flip : Nat) (s : State) :
    syncSettle c (queueRoll c (eccPut c (.uncorrected loc word flip) s)) = eccPut c (.uncorrected loc word flip) (syncSettle c (queueRoll c s)) := by
  by_cases hLoc : loc < 5
  · obtain ⟨g, hg, hPut⟩ := eccPut_uncorrected c hLoc word flip
    rw [hPut, hPut, queueRoll_modCo hg, syncSettle_modCo hg]
  · rw [eccPut_outside c hLoc, eccPut_outside c hLoc]

theorem run_eccPut (c : Coach) (loc word flip : Nat) (s : State) : (co c (eccPut c (.uncorrected loc word flip) s)).run = (co c s).run := by
  by_cases hLoc : loc < 5
  · obtain ⟨g, hg, hPut⟩ := eccPut_uncorrected c hLoc word flip
    rw [hPut, co_modCo, (hg.kept _).1]
  · rw [eccPut_outside c hLoc]

theorem carriageRunEnd_uncorrected {s u : State} {c : Coach} {r : RunSt} (hRun : (co c s).run = some r) (loc word flip : Nat)
    (hClean : exec (.carriageRunEnd c .clean) (eccPut c (.uncorrected loc word flip) s) = .next u) :
    exec (.carriageRunEnd c (.uncorrected loc word flip)) s = .next (coachFault c 0x10 2 (markBit (CA_STATUS.ECC_SEEN c.val) (inc (CA_ECC.UNCORR c.val) u))) := by
  rw [execCarriageRunEnd_eq ((run_eccPut ..).trans hRun), settled_eccPut] at hClean
  rw [execCarriageRunEnd_eq hRun, ← Host.Outcome.next.inj hClean]
  rfl

section
variable {s : State} {c : Coach} {r : RunSt} (hRun : (co c s).run = some r)
include hRun

theorem execBankDrainEnd_eq (o : DrainObs) {v : State} (hv : coachEvents c false 8 (eccPut c o.ecc (syncSettle c (queueRoll c s))) = v) :
    exec (.bankDrainEnd c o) s = .next (coachEcc c o.ecc (if allDrained c v then each (o.borders.filter (fun b => b.mode != 0)) (borderPut c) v else v)) := by
  subst hv
  change execBankDrainEnd c o s = _
  simp only [execBankDrainEnd, hRun, Option.isNone_some, Bool.false_eq_true, if_false]

theorem bankDrainEnd_borders {u : State} (hClean : exec (.bankDrainEnd c ⟨.clean, []⟩) s = .next u) (bs : List Border) :
    exec (.bankDrainEnd c ⟨.clean, bs⟩) s = .next (if allDrained c u then each (bs.filter (fun b => b.mode != 0)) (borderPut c) u else u) := by
  rw [execBankDrainEnd_eq hRun _ rfl] at hClean
  have hNone (v : State) : (if allDrained c v then each (([] : List Border).filter (fun b => b.mode != 0)) (borderPut c) v else v) = v := by
    split <;> rfl
  rw [hNone] at hClean
  exact execBankDrainEnd_eq hRun ⟨.clean, bs⟩ (v := u) (Host.Outcome.next.inj hClean)

/-- A drain that ends with a run, or before it, is finished first. -/
theorem bankDrainEnd_finishes (hSettled : syncSettle c (queueRoll c s) = s) {q : Nat × Nat × Nat} {rest : List (Nat × Nat × Nat)} (hDrains : r.drains = q :: rest)
    (hEnd : r.drainAt + 256 ≤ drainCycle c s) (hFirst : ∀ e, runEnded c s = some e → r.drainAt + 256 ≤ e) :
    exec (.bankDrainEnd c ⟨.clean, []⟩) s = .next (finishDrain c s) := by
  have hEnded : drainEnded c s = some (r.drainAt + 256) := by
    unfold drainEnded
    rw [hRun]
    dsimp only
    rw [if_pos (by simp [hDrains, hEnd])]
  have hEvents : coachEvents c false 8 s = finishDrain c s := by
    unfold coachEvents
    rw [hEnded]
    cases hRunEnd : runEnded c s with
    | none => rfl
    | some e =>
      dsimp only
      rw [if_neg (Nat.not_lt.2 (hFirst e hRunEnd))]
      rfl
  have hNone (v : State) : (if allDrained c v then each (([] : List Border).filter (fun b => b.mode != 0)) (borderPut c) v else v) = v := by
    split <;> rfl
  have hExec := execBankDrainEnd_eq hRun ⟨.clean, []⟩ (v := finishDrain c s) (by rw [hSettled]; exact hEvents)
  exact hExec.trans (congrArg Host.Outcome.next (hNone _))

end

/-- What the numeric events of a coach are shown in (R104, R108, R116). -/
def numericFields (c : Coach) : List Fld :=
  [CA_NUMERIC.ACC_SAT c.val, CA_NUMERIC.OUT_SAT c.val, CA_NUMERIC.NAN c.val, CA_STATUS.SAT_SEEN c.val, CA_STATUS.NAN_SEEN c.val]

/-- An entry has met numeric events. -/
def RunSt.seen (r : RunSt) (e : CEv) : RunSt := { r with satSeen := r.satSeen || e.acc != 0, nanSeen := r.nanSeen || e.nan != 0 }

theorem numeric_apart : ∀ c : Coach, keysOf (numericFields c) (CA_CFG.SAT_FAULT c.val).key = false ∧ keysOf (numericFields c) (CA_CFG.NAN_FAULT c.val).key = false ∧
    ownKey (CA_CFG.SAT_FAULT c.val).key = false ∧ ownKey (CA_CFG.NAN_FAULT c.val).key = false := by decide

/-- The numeric events of a coach are counted, and are no faults while CA_CFG does not ask for them (R116). -/
theorem coachNumeric_counts (c : Coach) (e : CEv) {s : State} (h : s.regsWf = true) (hSat : rdB (CA_CFG.SAT_FAULT c.val) s = false)
    (hNan : rdB (CA_CFG.NAN_FAULT c.val) s = false) :
    Frame { coach := true, coaches := fun x => x == c } (keysOf (numericFields c)) s (coachNumeric c e s) ∧
      co c (coachNumeric c e s) = { co c s with run := (co c s).run.map (fun r => r.seen e) } := by
  unfold coachNumeric
  cases hRun : (co c s).run with
  | none =>
    have hSame : co c s = { co c s with run := none } := by rw [← hRun]
    exact ⟨Frame.refl _ _ s, hSame⟩
  | some r =>
    dsimp only
    have hCounted : Frame {} (keysOf (numericFields c)) s
        (add (CA_NUMERIC.NAN c.val) e.nan (add (CA_NUMERIC.OUT_SAT c.val) e.out (add (CA_NUMERIC.ACC_SAT c.val) e.acc s))) :=
      (((Frame.refl _ _ s).add _ _ (keysOf_mem (by simp [numericFields]))).add _ _ (keysOf_mem (by simp [numericFields]))).add _ _ (keysOf_mem (by simp [numericFields]))
    generalize add (CA_NUMERIC.NAN c.val) e.nan (add (CA_NUMERIC.OUT_SAT c.val) e.out (add (CA_NUMERIC.ACC_SAT c.val) e.acc s)) = v at hCounted ⊢
    have hSeen := Frame.ite (c := (e.acc != 0) = true) (hCounted.markBit (CA_STATUS.SAT_SEEN c.val) (keysOf_mem (by simp [numericFields]))) hCounted
    generalize (if (e.acc != 0) = true then markBit (CA_STATUS.SAT_SEEN c.val) v else v) = w at hSeen ⊢
    have hShown := Frame.ite (c := (e.nan != 0) = true) (hSeen.markBit (CA_STATUS.NAN_SEEN c.val) (keysOf_mem (by simp [numericFields]))) hSeen
    generalize (if (e.nan != 0) = true then markBit (CA_STATUS.NAN_SEEN c.val) w else w) = x at hShown ⊢
    obtain ⟨hSatApart, hNanApart, hSatOwn, hNanOwn⟩ := numeric_apart c
    have hCo : co c x = co c s := hShown.coaches c rfl
    have hAll : Frame { coach := true, coaches := fun x => x == c } (keysOf (numericFields c)) s (modRun c (fun r => r.seen e) x) :=
      (hShown.keys (.empty _) fun _ => id).modCo rfl c (beq_self_eq_true c) _
    have hSatX : rdB (CA_CFG.SAT_FAULT c.val) (modRun c (fun r => r.seen e) x) = false := by rw [← hSat, rdB, rdB, hAll.regs h _ hSatOwn hSatApart]
    have hNanX : rdB (CA_CFG.NAN_FAULT c.val) (modRun c (fun r => r.seen e) x) = false := by rw [← hNan, rdB, rdB, hAll.regs h _ hNanOwn hNanApart]
    unfold RunSt.seen at hAll hSatX hNanX
    rw [if_neg (by rw [hSatX, hNanX]; simp)]
    refine ⟨hAll, ?_⟩
    rw [modRun, co_modCo, hCo, hRun]
    rfl

section
variable {s : State} {c : Coach} {r : RunSt} (hRun : (co c s).run = some r) (t : Nat)
include hRun

/-- Of a coach the cycles of its run change the progress of the run, the accumulators and the weight registers. -/
theorem co_runTo : ∃ step reg seen fault a w, co c (runTo c t s) = { co c s with run := some (r.withWork step reg seen fault), acc := a, wregs := w } := by
  unfold runTo
  rw [hRun]
  dsimp only
  split
  · exact ⟨_, _, _, _, _, _, by rw [RunSt.withWork, ← hRun]⟩
  · split
    · exact ⟨r.step, r.reg, r.satSeen, some 1, _, _, co_modCo ..⟩
    · obtain ⟨⟨step, reg, seen, fault, hZRun⟩, acc, wregs, hZCo⟩ := runCyclesOf_follows (cx r.ctx s).image (rdB (CA_CFG.SAT_FAULT c.val) s)
        (min t (runEnd (cx r.ctx s).image r) - (r.runAt + r.step)) ⟨co c s, r, 0, 0⟩
      generalize runCyclesOf (cx r.ctx s).image (rdB (CA_CFG.SAT_FAULT c.val) s) (min t (runEnd (cx r.ctx s).image r) - (r.runAt + r.step)) ⟨co c s, r, 0, 0⟩ = z at hZRun hZCo ⊢
      refine ⟨step, reg, seen, fault, acc, wregs, ?_⟩
      rw [co_profAdd]
      split
      · rw [co_markBit, co_add, co_setCo, hZRun, hZCo]
      · rw [co_setCo, hZRun, hZCo]

theorem co_stallTo : ∃ n, co c (stallTo c t s) = { co c s with run := some { r with stallN := n } } := by
  unfold stallTo
  rw [hRun]
  dsimp only
  split
  · exact ⟨r.stallN, by rw [← hRun]⟩
  · exact ⟨_, by rw [co_profAdd, co_modCo]⟩

end

theorem settleOpen_modCo (b : Bool) (w : Writes) (c : Coach) (f : CoachSt → CoachSt) (s : State) :
    settleOpen b w (modCo c f s) = ((settleOpen b w s).1, modCo c f (settleOpen b w s).2) := by
  unfold settleOpen
  split <;> rfl

/-- The first of an entry's drains is done. -/
def drainDone (img : List Byte) (r : RunSt) (rest : List (Nat × Nat × Nat)) (q : RunSt) : RunSt :=
  let t := r.drainAt + 256
  let free := r.stalled && !bankBusy rest (runDesc img r.stage r.runIdx)
  { q with drains := rest, drainAt := t, stalled := q.stalled && !free, runAt := if free then t else q.runAt }

theorem finishDrain_eq {s v : State} {c : Coach} {r : RunSt} (hRun : (co c s).run = some r) {q : Nat × Nat × Nat} {rest : List (Nat × Nat × Nat)} (hDrains : r.drains = q :: rest)
    (hv : v = stallTo c (r.drainAt + 256) (runTo c (r.drainAt + 256) s)) (hFault : (co c v).run.bind (·.fault) = none) (hImage : (cx r.ctx v).image = (cx r.ctx s).image) :
    finishDrain c s = drainWrites c r q 32768 (modRun c (drainDone (cx r.ctx s).image r rest) v) := by
  unfold finishDrain
  rw [hRun]
  dsimp only
  rw [hDrains]
  dsimp only
  rw [← hv, hFault, if_neg (by simp), hImage]
  rfl

/-- What a drain of a bank writes, from the coach as it stands. -/
def drainedOf (img : List Byte) (r : RunSt) (q : Nat × Nat × Nat) (x : CoachSt) : Writes :=
  let d := runDesc img r.stage q.2.2
  requant (fun i pos o => SMap.get (fun _ => 0) x.acc (accKey i q.2.1 pos o)) (coachMem x 4) x.tables d (stPost img r.stage d.post) (setBits 4 q.1)

theorem drainWrites_eq (c : Coach) (r : RunSt) (q : Nat × Nat × Nat) (k : Nat) (s : State) : ∃ b z, b = postOpen (stPost (cx r.ctx s).image r.stage (runDesc (cx r.ctx s).image r.stage q.2.2).post)
      (3 ≤ (runDesc (cx r.ctx s).image r.stage q.2.2).mode) ∧ z = settleOpen b (drainedOf (cx r.ctx s).image r q (co c s)) s ∧ drainWrites c r q k s =
      coachNumeric c z.1.2 (sramWrite c (stPost (cx r.ctx s).image r.stage (runDesc (cx r.ctx s).image r.stage q.2.2).post).mask (z.1.1.take k) z.2) :=
  ⟨_, _, rfl, rfl, rfl⟩

theorem cfg_apart : ∀ c : Coach, keysOf (workFields c) (CA_CFG.SAT_FAULT c.val).key = false ∧ keysOf (workFields c) (CA_CFG.NAN_FAULT c.val).key = false ∧
    ownKey (CA_CFG.SAT_FAULT c.val).key = false ∧ ownKey (CA_CFG.NAN_FAULT c.val).key = false := by decide

section
variable {s v : State} {c : Coach} {r : RunSt} (h : s.regsWf = true) (hRun : (co c s).run = some r)
include h hRun

/-- Of a coach a drain changes the run, and the SRAMs that it writes (R107, R113). -/
theorem finishDrain_drains {mask bank idx : Nat} {rest : List (Nat × Nat × Nat)} (hDrains : r.drains = (mask, bank, idx) :: rest)
    (hv : v = stallTo c (r.drainAt + 256) (runTo c (r.drainAt + 256) s)) (hFault : (co c v).run.bind (·.fault) = none)
    (hSat : rdB (CA_CFG.SAT_FAULT c.val) s = false) (hNan : rdB (CA_CFG.NAN_FAULT c.val) s = false) {d : RunDesc} {p : PostDesc} {w : Writes}
    (hd : d = runDesc (cx r.ctx s).image r.stage idx) (hp : p = stPost (cx r.ctx s).image r.stage d.post)
    (hw : w = requant (fun k q o => SMap.get (fun _ => 0) (co c v).acc (accKey k bank q o)) (coachMem (co c s) 4) (co c s).tables d p (setBits 4 mask))
    {z : Writes × State} (hz : z = settleOpen (postOpen p (3 ≤ d.mode)) w v) :
    ∃ q, (co c (finishDrain c s)).run = some q ∧ q.drains = rest ∧ q.drainAt = r.drainAt + 256 ∧ q.runIdx = r.runIdx ∧ (co c (finishDrain c s)).acc = (co c v).acc ∧
      (co c (finishDrain c s)).sram = (co c (sramWrite c p.mask (z.1.1.take 32768) z.2)).sram ∧
      finishDrain c s = { s with regs := (finishDrain c s).regs, coach := (finishDrain c s).coach, freeN := z.2.freeN } ∧ ∀ y, y ≠ c → co y (finishDrain c s) = co y s := by
  have hV : Frame { coach := true, coaches := fun x => x == c } (keysOf (workFields c)) s v :=
    hv ▸ (Frame.refl _ _ s |>.runTo rfl (beq_self_eq_true c) (fun _ => keysOf_mem) _).stallTo rfl (beq_self_eq_true c) (fun _ => keysOf_mem) _
  have hImage : (cx r.ctx v).image = (cx r.ctx s).image := by rw [hV.ctxs r.ctx rfl]
  obtain ⟨step, reg, seen, fault, a, g, hTo⟩ := co_runTo hRun (r.drainAt + 256)
  obtain ⟨n, hStall⟩ := co_stallTo (s := runTo c (r.drainAt + 256) s) (by rw [hTo]) (r.drainAt + 256)
  rw [← hv, hTo] at hStall
  have hEq := finishDrain_eq hRun hDrains hv hFault hImage
  obtain ⟨b, y, hb, hy, hWrites⟩ := drainWrites_eq c r (mask, bank, idx) 32768 (modRun c (drainDone (cx r.ctx s).image r rest) v)
  have hImageRun : (cx r.ctx (modRun c (drainDone (cx r.ctx s).image r rest) v)).image = (cx r.ctx s).image := hImage
  have hDrained : drainedOf (cx r.ctx s).image r (mask, bank, idx) (co c (modRun c (drainDone (cx r.ctx s).image r rest) v)) = w := by
    rw [modRun, co_modCo, hw, hp, hd, hStall]
    rfl
  rw [hImageRun] at hb hy hWrites
  rw [hDrained, modRun, settleOpen_modCo, hb, ← hd, ← hp, ← hz] at hy
  rw [← hd, ← hp, hy] at hWrites
  dsimp only at hWrites
  have hOpen : Frame { coach := true, coaches := fun x => x == c, freeN := true } (keysOf (workFields c)) s z.2 :=
    hz ▸ (hV.keys (by constructor <;> simp) fun _ => id).settleOpen rfl _ _
  have hCoZ : co c z.2 = co c v := by rw [hz, co_settleOpen]
  have hWritten : Frame { coach := true, coaches := fun x => x == c, freeN := true } (keysOf (workFields c)) s
      (sramWrite c p.mask (z.1.1.take 32768) (modCo c (fun x => { x with run := x.run.map (drainDone (cx r.ctx s).image r rest) }) z.2)) :=
    (hOpen.modCo rfl c (beq_self_eq_true c) _).sramWrite rfl (beq_self_eq_true c) _ _
  have hCoWritten : co c (sramWrite c p.mask (z.1.1.take 32768) (modCo c (fun x => { x with run := x.run.map (drainDone (cx r.ctx s).image r rest) }) z.2)) =
      { co c v with
        run := (co c v).run.map (drainDone (cx r.ctx s).image r rest)
        sram := (co c (sramWrite c p.mask (z.1.1.take 32768) z.2)).sram } := by
    rw [co_sramWrite, co_sramWrite, co_modCo, hCoZ]
  have hFree : (sramWrite c p.mask (z.1.1.take 32768) (modCo c (fun x => { x with run := x.run.map (drainDone (cx r.ctx s).image r rest) }) z.2)).freeN = z.2.freeN :=
    (Frame.sramWrite (u := { coach := true, coaches := fun _ => true }) (K := allKeys) rfl rfl _ _ (Frame.refl _ _ _)).freeN rfl
  generalize sramWrite c p.mask (z.1.1.take 32768) (modCo c (fun x => { x with run := x.run.map (drainDone (cx r.ctx s).image r rest) }) z.2) = y' at hWrites hWritten hCoWritten hFree
  obtain ⟨hSatApart, hNanApart, hSatOwn, hNanOwn⟩ := cfg_apart c
  obtain ⟨hNumeric, hCoNumeric⟩ := coachNumeric_counts c z.1.2 (hWritten.wf h) (by rw [← hSat, rdB, rdB, hWritten.regs h _ hSatOwn hSatApart])
    (by rw [← hNan, rdB, rdB, hWritten.regs h _ hNanOwn hNanApart])
  have hDone : finishDrain c s = coachNumeric c z.1.2 y' := hEq.trans hWrites
  have hAll : Frame { coach := true, coaches := fun x => x == c, freeN := true } allKeys s (finishDrain c s) :=
    (hWritten.mono (.refl _) fun _ _ => rfl).trans (hDone ▸ hNumeric.mono (by constructor <;> simp) fun _ _ => rfl)
  have hFreeN : (finishDrain c s).freeN = z.2.freeN := by rw [hDone, hNumeric.freeN rfl, hFree]
  have hCo : co c (finishDrain c s) = { co c v with
        run := ((co c v).run.map (drainDone (cx r.ctx s).image r rest)).map (fun r => r.seen z.1.2)
        sram := (co c (sramWrite c p.mask (z.1.1.take 32768) z.2)).sram } := by
    rw [hDone, hCoNumeric, hCoWritten]
  refine ⟨((drainDone (cx r.ctx s).image r rest) { r.withWork step reg seen fault with stallN := n }).seen z.1.2, ?_, rfl, rfl, rfl, by rw [hCo], by rw [hCo], ?_,
    fun d hd => hAll.coaches d (beq_eq_false_iff_ne.2 hd)⟩
  · rw [hCo, hStall]
    rfl
  · rw [← hFreeN]
    exact hAll.eq

end

/-- Of an entry, what its progress through a stage without transfers changes. -/
def RunSt.withSeen (r : RunSt) (admitted : Nat) (sat nan : Bool) : RunSt := { r with admitted := admitted, satSeen := sat, nanSeen := nan }

/-- The post functions of a stage write SRAMs of the coach and count its numeric events (R106, R177). -/
theorem postStage_posts (c : Coach) (img : List Byte) (stage k : Nat) {s : State} (h : s.regsWf = true) (hSat : rdB (CA_CFG.SAT_FAULT c.val) s = false)
    (hNan : rdB (CA_CFG.NAN_FAULT c.val) s = false) {r : RunSt} (hRun : (co c s).run = some r) :
    Frame { coach := true, coaches := fun x => x == c, freeN := true } (keysOf (numericFields c)) s (postStage c img stage k s) ∧
      ∃ sat nan v, co c (postStage c img stage k s) = { co c s with run := some (r.withSeen r.admitted sat nan), sram := v } := by
  obtain ⟨hSatApart, hNanApart, hSatOwn, hNanOwn⟩ := numeric_apart c
  unfold postStage
  generalize hStart : (k, s) = z
  have hBase : Frame { coach := true, coaches := fun x => x == c, freeN := true } (keysOf (numericFields c)) s z.2 ∧
      ∃ sat nan v, co c z.2 = { co c s with run := some (r.withSeen r.admitted sat nan), sram := v } := by
    subst hStart
    exact ⟨Frame.refl _ _ s, r.satSeen, r.nanSeen, (co c s).sram, by rw [RunSt.withSeen, ← hRun]⟩
  clear hStart
  generalize List.range (nPosts img stage) = l
  induction l generalizing z with
  | nil => exact hBase
  | cons i l ih =>
    obtain ⟨hFrame, sat, nan, v, hCo⟩ := hBase
    rw [List.foldl_cons]
    refine ih _ ?_
    dsimp only
    split
    · exact ⟨hFrame, sat, nan, v, hCo⟩
    · have hWritten (b : Bool) (w : Writes) (m : Nat) (f : Writes → List (Nat × List Byte)) :
          Frame { coach := true, coaches := fun x => x == c, freeN := true } (keysOf (numericFields c)) s (sramWrite c m (f (settleOpen b w z.2).1) (settleOpen b w z.2).2) ∧
            ∃ v, co c (sramWrite c m (f (settleOpen b w z.2).1) (settleOpen b w z.2).2) = { co c s with run := some (r.withSeen r.admitted sat nan), sram := v } :=
        ⟨(hFrame.settleOpen rfl b w).sramWrite rfl (beq_self_eq_true c) _ _, _, by rw [co_sramWrite, co_settleOpen, hCo]⟩
      have hCounted (y : State) (e : CEv) (hy : Frame { coach := true, coaches := fun x => x == c, freeN := true } (keysOf (numericFields c)) s y ∧
          ∃ v, co c y = { co c s with run := some (r.withSeen r.admitted sat nan), sram := v }) :
          Frame { coach := true, coaches := fun x => x == c, freeN := true } (keysOf (numericFields c)) s (coachNumeric c e y) ∧
            ∃ sat nan v, co c (coachNumeric c e y) = { co c s with run := some (r.withSeen r.admitted sat nan), sram := v } := by
        obtain ⟨hy, v, hCoY⟩ := hy
        obtain ⟨hNumeric, hCoNumeric⟩ := coachNumeric_counts c e (hy.wf h) (by rw [← hSat, rdB, rdB, hy.regs h _ hSatOwn hSatApart])
          (by rw [← hNan, rdB, rdB, hy.regs h _ hNanOwn hNanApart])
        exact ⟨hy.trans (hNumeric.keys (by constructor <;> simp) fun _ => id), _, _, v, by rw [hCoNumeric, hCoY]; rfl⟩
      exact hCounted _ _ (hWritten _ _ _ (fun w => w.1.take z.1))

theorem Frame.rowDone {u : Parts} {K : Nat → Bool} {s t : State} (hu : u.ctx = true) (hFlt : u.flt = true) (r : RunSt) (hn : u.ctxs r.ctx = true) (h : Frame u K s t) :
    Frame u K s (rowDone r t) := by
  unfold Machine.rowDone
  dsimp only
  exact Frame.ite h (Frame.ite (h.modCx hu r.ctx hn _) (Frame.fltUpd hFlt _ (h.modRow hu hn _ _)))

theorem prog_rowDone (r : RunSt) (s : State) : (cx r.ctx (rowDone r s)).prog = (cx r.ctx s).prog := by
  unfold rowDone
  dsimp only
  split
  · rfl
  · split
    · rw [cx_modCx]
    · have hRow (g : RowSt → RowSt) : (cx r.ctx (modRow r.ctx r.row g s)).prog = (cx r.ctx s).prog := by rw [modRow, cx_modCx]
      exact hRow _

theorem admitDue_none {s : State} {c : Coach} {r : RunSt} (hRun : (co c s).run = some r) (hFetch : stNFetch (cx r.ctx s).image r.stage = 0)
    (hWrite : stNWrite (cx r.ctx s).image r.stage = 0) :
    admitDue c s = modCo c (fun x => { x with run := x.run.map (fun r => r.withSeen (stageCycle c s + 1) r.satSeen r.nanSeen) }) s := by
  unfold admitDue
  rw [hRun]
  dsimp only
  rw [hFetch, hWrite]
  rfl

/-- The place of a program after an entry that has ended (R181). -/
def progEnded (r : RunSt) (w : Nat) (x : CtxSt) : CtxSt :=
  if h : r.index < 16 then { x with
    prog := x.prog.set r.index { x.prog[r.index] with entry := r.entry + 1, endPrev := r.beginAt + w + r.waits, prevWaits := r.waits, prevStage := r.stage, prevRow := r.row } } else x

/-- An entry leaves its coach (R166). -/
def entryOver (c : Coach) (r : RunSt) (w : Nat) (s : State) : State :=
  wr (CA_STATUS.STATE c.val) 1 (rowDone r (modCo c (fun x => { x with run := none, waited := x.waited + r.waits }) (modCx r.ctx (progEnded r w) s)))

theorem entryOver_frame (c : Coach) (r : RunSt) (w : Nat) (s : State) :
    Frame { ctx := true, flt := true, coach := true, ctxs := fun x => x == r.ctx, coaches := fun x => x == c } (keysOf [CA_STATUS.STATE c.val]) s (entryOver c r w s) := by
  refine Frame.wr _ _ (keysOf_mem (List.mem_singleton_self _)) (Frame.rowDone rfl rfl r (beq_self_eq_true _) (Frame.modCo rfl c (beq_self_eq_true c) _ ?_))
  exact (Frame.refl _ _ s).modCx rfl r.ctx (beq_self_eq_true _) _

theorem co_entryOver (c : Coach) (r : RunSt) (w : Nat) (s : State) : co c (entryOver c r w s) = { co c s with run := none, waited := (co c s).waited + r.waits } := by
  have hRow (v : State) : co c (rowDone r v) = co c v :=
    (Frame.rowDone (u := { ctx := true, flt := true, ctxs := fun _ => true }) (K := allKeys) rfl rfl r rfl (Frame.refl _ _ v)).coaches c rfl
  rw [entryOver, co_wr, hRow, co_modCo]
  rfl

theorem prog_entryOver (c : Coach) (r : RunSt) (w : Nat) (s : State) (h : r.index < 16) : (cx r.ctx (entryOver c r w s)).prog[r.index] =
    { (cx r.ctx s).prog[r.index] with entry := r.entry + 1, endPrev := r.beginAt + w + r.waits, prevWaits := r.waits, prevStage := r.stage, prevRow := r.row } := by
  have hCx (f : Fld) (n : Nat) (v : State) : (cx r.ctx (wr f n v)).prog = (cx r.ctx v).prog := rfl
  have hProg : (cx r.ctx (entryOver c r w s)).prog = (progEnded r w (cx r.ctx s)).prog := by
    rw [entryOver, hCx, prog_rowDone]
    have hCo (g : CoachSt → CoachSt) (v : State) : cx r.ctx (modCo c g v) = cx r.ctx v := rfl
    rw [hCo, cx_modCx]
  simp only [hProg, progEnded, dif_pos h, Vector.getElem_set_self]

/-- The last of a stage's work: its post functions and the borders that they write (R106, R132). -/
def stageWork (c : Coach) (r : RunSt) (bs : List Border) (s : State) : State :=
  if stKind (cx r.ctx s).image r.stage = 1 then each bs (borderPut c) (postStage c (cx r.ctx s).image r.stage (2 ^ 32) (admitDue c s)) else admitDue c s

theorem execStageEnd_eq {s : State} {c : Coach} {r q : RunSt} (hRun : (co c s).run = some r) (bs : List Border) (hSettled : clashStop c (runFault c (coachSettle c s)) = s)
    (hState : coachState c s = 2) (hOver : stageOver c r s = true) (hKind : stKind (cx r.ctx s).image r.stage ≠ 3) {v : State} (hv : stageWork c r bs s = v)
    (hRunV : (co c v).run = some q) :
    exec (.stageEnd ⟨c, .clean, bs⟩) s = .next (entryOver c q (stLen (cx r.ctx s).image q.stage) v) := by
  change execStageEnd ⟨c, .clean, bs⟩ s = _
  refine congrArg Host.Outcome.next ?_
  dsimp only
  unfold endStage
  rw [hSettled]
  dsimp only
  rw [hRun]
  dsimp only
  rw [if_neg (by simp [hState, hOver])]
  have hNotRecord : (stKind (cx r.ctx s).image r.stage == 3) = false := beq_eq_false_iff_ne.2 hKind
  have hPut (w : State) : eccPut c .clean w = w := rfl
  have hFound (w : State) : coachEcc c .clean w = w := rfl
  unfold stageWork at hv
  simp only [hNotRecord, hPut, hFound, Bool.false_eq_true, if_false, beq_iff_eq]
  rw [hv, hRunV]
  rfl

section
variable {s : State} {c : Coach} {r : RunSt} (h : s.regsWf = true) (hRun : (co c s).run = some r) (bs : List Border)
  (hFetch : stNFetch (cx r.ctx s).image r.stage = 0) (hWrite : stNWrite (cx r.ctx s).image r.stage = 0)
  (hCfg : stKind (cx r.ctx s).image r.stage = 1 → rdB (CA_CFG.SAT_FAULT c.val) s = false ∧ rdB (CA_CFG.NAN_FAULT c.val) s = false)
include h hRun hFetch hWrite hCfg

/-- The last of a stage's work leaves the entry on its coach. -/
theorem stageWork_works : Frame { coach := true, coaches := fun x => x == c, freeN := true } (keysOf (numericFields c)) s (stageWork c r bs s) ∧
    ∃ a sat nan, co c (stageWork c r bs s) = { co c s with
      run := some (r.withSeen a sat nan)
      sram := if stKind (cx r.ctx s).image r.stage = 1 then (co c (each bs (borderPut c) (postStage c (cx r.ctx s).image r.stage (2 ^ 32) (admitDue c s)))).sram
        else (co c s).sram } := by
  have hAdmit := admitDue_none hRun hFetch hWrite
  have hFrame : Frame { coach := true, coaches := fun x => x == c, freeN := true } (keysOf (numericFields c)) s (admitDue c s) := by
    rw [hAdmit]
    exact (Frame.refl _ _ s).modCo rfl c (beq_self_eq_true c) _
  have hCo : co c (admitDue c s) = { co c s with run := some (r.withSeen (stageCycle c s + 1) r.satSeen r.nanSeen) } := by
    rw [hAdmit, co_modCo, hRun]
    rfl
  unfold stageWork
  generalize admitDue c s = v at hFrame hCo ⊢
  by_cases hPost : stKind (cx r.ctx s).image r.stage = 1
  · obtain ⟨hSat, hNan⟩ := hCfg hPost
    obtain ⟨hSatApart, hNanApart, hSatOwn, hNanOwn⟩ := numeric_apart c
    obtain ⟨hPosted, sat, nan, w, hCoPosted⟩ := postStage_posts c (cx r.ctx s).image r.stage (2 ^ 32) (hFrame.wf h)
      (by rw [← hSat, rdB, rdB, hFrame.regs h _ hSatOwn hSatApart]) (by rw [← hNan, rdB, rdB, hFrame.regs h _ hNanOwn hNanApart]) (congrArg CoachSt.run hCo)
    simp only [if_pos hPost]
    refine ⟨(hFrame.trans hPosted).trans (borders_frame _ rfl (beq_self_eq_true c) bs _), stageCycle c s + 1, sat, nan, ?_⟩
    rw [co_borders, hCoPosted, hCo]
    rfl
  · simp only [if_neg hPost]
    exact ⟨hFrame, stageCycle c s + 1, r.satSeen, r.nanSeen, hCo⟩

theorem stageEnd_ends (hIndex : r.index < 16) (hSettled : clashStop c (runFault c (coachSettle c s)) = s) (hState : coachState c s = 2) (hOver : stageOver c r s = true)
    (hKind : stKind (cx r.ctx s).image r.stage ≠ 3) :
    ∃ t, exec (.stageEnd ⟨c, .clean, bs⟩) s = .next t ∧ (co c t).run = none ∧ rd (CA_STATUS.STATE c.val) t = 1 ∧
      (cx r.ctx t).prog[r.index] = { (cx r.ctx s).prog[r.index] with
        entry := r.entry + 1, endPrev := r.beginAt + stLen (cx r.ctx s).image r.stage + r.waits, prevWaits := r.waits, prevStage := r.stage, prevRow := r.row } ∧
      (co c t).sram = (if stKind (cx r.ctx s).image r.stage = 1
        then (co c (each bs (borderPut c) (postStage c (cx r.ctx s).image r.stage (2 ^ 32) (admitDue c s)))).sram else (co c s).sram) ∧
      (co c t).waited = (co c s).waited + r.waits ∧ (∀ d, d ≠ c → co d t = co d s) ∧
      s.kept [CA_STATUS.STATE c.val, CA_NUMERIC.ACC_SAT c.val, CA_NUMERIC.OUT_SAT c.val, CA_NUMERIC.NAN c.val, CA_STATUS.SAT_SEEN c.val, CA_STATUS.NAN_SEEN c.val] t ∧
      t = { s with regs := t.regs, ctx := t.ctx, coach := t.coach, flt := t.flt, freeN := t.freeN } := by
  obtain ⟨hWork, a, sat, nan, hCo⟩ := stageWork_works h hRun bs hFetch hWrite hCfg
  have hExec : exec (.stageEnd ⟨c, .clean, bs⟩) s = .next (entryOver c (r.withSeen a sat nan) (stLen (cx r.ctx s).image r.stage) (stageWork c r bs s)) :=
    execStageEnd_eq hRun bs hSettled hState hOver hKind rfl (congrArg CoachSt.run hCo)
  have hOverFrame := entryOver_frame c (r.withSeen a sat nan) (stLen (cx r.ctx s).image r.stage) (stageWork c r bs s)
  have hCoOver := co_entryOver c (r.withSeen a sat nan) (stLen (cx r.ctx s).image r.stage) (stageWork c r bs s)
  have hProg := prog_entryOver c (r.withSeen a sat nan) (stLen (cx r.ctx s).image r.stage) (stageWork c r bs s) hIndex
  have hShown : rd (CA_STATUS.STATE c.val) (entryOver c (r.withSeen a sat nan) (stLen (cx r.ctx s).image r.stage) (stageWork c r bs s)) = 1 :=
    rd_wr_same ((Frame.rowDone (u := { ctx := true, flt := true, coach := true, ctxs := fun _ => true, coaches := fun _ => true }) (K := allKeys) rfl rfl _ rfl
      (Frame.modCo rfl c rfl _ (Frame.modCx rfl _ rfl _ (Frame.refl _ _ _)))).wf (hWork.wf h)) _ _
  have hCtx : (cx r.ctx (stageWork c r bs s)).prog = (cx r.ctx s).prog := by rw [hWork.ctxs r.ctx rfl]
  generalize entryOver c (r.withSeen a sat nan) (stLen (cx r.ctx s).image r.stage) (stageWork c r bs s) = t at hExec hOverFrame hCoOver hProg hShown
  have hAll : Frame { ctx := true, flt := true, coach := true, freeN := true, ctxs := fun x => x == r.ctx, coaches := fun x => x == c }
      (keysOf [CA_STATUS.STATE c.val, CA_NUMERIC.ACC_SAT c.val, CA_NUMERIC.OUT_SAT c.val, CA_NUMERIC.NAN c.val, CA_STATUS.SAT_SEEN c.val, CA_STATUS.NAN_SEEN c.val]) s t :=
    (hWork.keys (by constructor <;> simp) (by simp [numericFields])).trans (hOverFrame.keys (by constructor <;> simp [RunSt.withSeen]) (by simp))
  refine ⟨t, hExec, by rw [hCoOver], hShown, ?_, by rw [hCoOver, hCo], by rw [hCoOver, hCo]; rfl, fun d hd => hAll.coaches d (beq_eq_false_iff_ne.2 hd), hAll.kept h, hAll.eq⟩
  refine hProg.trans ?_
  simp only [RunSt.withSeen, hCtx]

end

/-- Settles O22: synchronisation points, runs and drains, and the end of a stage. -/
theorem stagesRunToTheirEnds : Obligations.StagesRunToTheirEnds := by
  unfold Obligations.StagesRunToTheirEnds
  intro s c r h hRun
  refine ⟨fun hState => syncWaitEnd_settles h hRun hState, fun e d z hSettled hEnded hFirst hDesc hOk hWork hFault =>
    carriageRunEnd_ends h hRun hSettled hEnded hFirst hDesc hOk hWork hFault, fun e hSettled hEnded hFirst hStep hBad =>
    carriageRunEnd_bad h hRun hSettled hEnded hFirst hStep hBad, fun k u hClean loc => carriageRunEnd_corrected hRun hClean loc,
    fun loc word flip u hClean => carriageRunEnd_uncorrected hRun loc word flip hClean, fun mask bank idx rest v hSettled hDrains hEnd hFirst hv hFault hSat hNan => ?_,
    fun bs u hClean => bankDrainEnd_borders hRun hClean bs, fun hIndex bs hSettled hState hOver hKind hFetch hWrite hCfg =>
    stageEnd_ends h hRun bs hFetch hWrite hCfg hIndex hSettled hState hOver hKind⟩
  obtain ⟨q, hQ, hRest, hAt, hIdx, hAcc, hSram, hEq, hOthers⟩ := finishDrain_drains h hRun hDrains hv hFault hSat hNan rfl rfl rfl rfl
  exact ⟨_, q, bankDrainEnd_finishes hRun hSettled hDrains hEnd hFirst, hQ, hRest, hAt, hIdx, hAcc, ⟨hSram, hEq⟩, hOthers⟩

end Sys2Proof.Machine

/-! SUPPORT. A read that waits for a write of the block's own (R207), and the refutation of O23. -/

namespace Sys2Proof.Machine

/-- A read of three beats that coach 0 has yet to issue for context 1. -/
def waitingRead : Xfer := ⟨false, 6, 3, 1, 2, 0, 0, 0, 0, [], 3, 0, 0, 0, 0, 8, none⟩

/-- A write of the block's own that waits for the ports, over the bytes of that read. -/
def waitingWrite : Own := ⟨0, true, 0, 0, 0, 2 ^ 32, 0, [], 0xFF, 0, .other⟩

/-- Coach 0 has the read to issue, and nothing holds it back but the write. -/
def readBehindWrite : State :=
  let s := wrs [(PM_PWR_STATUS.ON 0, 1), (PM_PWR_STATUS.ON 18, 1), (MP_KEY_STATE.SLOT 0, 1), (MP_STATUS.PORT_UP, 255)] State.reset
  modCo 0 (fun x => { x with winLeft := 8, xfers := [waitingRead] }) { s with mp := { s.mp with own := [waitingWrite] } }

/-- The read waits: its data come after the write's (R207). -/
theorem readBehindWrite_waits : (co 0 (transferIssue 0 .clean readBehindWrite)).xfers = [waitingRead] := by decide +kernel

/-- Refutes O23: a read that meets a write of the block's own which still waits for the ports is not issued, though nothing that the statement names holds it back. -/
theorem not_transfersLeaveInBursts : ¬ Obligations.TransfersLeaveInBursts := by
  unfold Obligations.TransfersLeaveInBursts
  intro h
  obtain ⟨t, hExec, hIssued, -⟩ := h readBehindWrite 0 0 waitingRead 0 (by decide +kernel) (by decide +kernel) (by decide +kernel) (by decide) (by decide) rfl rfl
    (by decide +kernel) (by decide +kernel) (by decide +kernel) (by decide +kernel) (by decide +kernel) (by decide) (by decide +kernel) (by decide +kernel) (by decide +kernel)
    (by decide) (by decide) (by decide +kernel) (by decide +kernel) (by decide +kernel) (by decide +kernel)
  change execTransferIssue ⟨0, .clean⟩ readBehindWrite = _ at hExec
  obtain rfl : transferIssue 0 .clean readBehindWrite = t := Host.Outcome.next.inj hExec
  rw [readBehindWrite_waits] at hIssued
  exact absurd hIssued (by decide)

end Sys2Proof.Machine

/-! SUPPORT. What a fault's record and its levels change (R483 to R499): the power unit through events, the peers through notices, and the stops of units. -/

namespace Sys2Proof.Machine

/-- What events leave of the power unit: a wake and the boot that it begins are all that they can bring about (R359, R523). -/
def PwWoken (p q : PwSt) : Prop := q = { p with
  ramps := q.ramps, queue := q.queue, onAfter := q.onAfter, merged := q.merged, sleepStep := q.sleepStep, wakeDue := q.wakeDue
  bootStep := q.bootStep, bootAt := q.bootAt, unlock := q.unlock }

theorem PwWoken.refl (p : PwSt) : PwWoken p p := rfl

theorem PwWoken.trans {p q r : PwSt} (h : PwWoken p q) (k : PwWoken q r) : PwWoken p r := by
  unfold PwWoken at *
  rw [k, h]

theorem PwWoken.kept {p q : PwSt} (h : PwWoken p q) : q.fenced = p.fenced ∧ q.reset = p.reset ∧ q.falling = p.falling ∧ q.offAfter = p.offAfter ∧
    q.lantern = p.lantern := by
  rw [h]
  exact ⟨rfl, rfl, rfl, rfl, rfl⟩

section
variable {p : PwSt} {s : State} (h : PwWoken p s.pw)
include h

theorem PwWoken.wr (f : Fld) (n : Nat) : PwWoken p (Machine.wr f n s).pw := h

theorem PwWoken.startRamp (d : Nat) : PwWoken p (startRamp d s).pw := by
  unfold Machine.startRamp
  split
  · exact h
  · split
    · exact h.trans rfl
    · exact h.trans rfl

theorem PwWoken.powerOn (d : Nat) : PwWoken p (powerOn d s).pw := by
  unfold Machine.powerOn
  dsimp only
  have hReq : PwWoken p (Machine.wr (PM_PWR_REQ.REQ d) 1 s).pw := h
  split
  · exact hReq
  · split
    · exact hReq.trans rfl
    · exact hReq.startRamp d

theorem PwWoken.bootBegin : PwWoken p (bootBegin s).pw := by
  have hOn : PwWoken p (Machine.powerOn 21 (Machine.wr GL_STATUS.LIFECYCLE 0 (Machine.wr PM_SLEEP.STATE 3 s))).pw :=
    PwWoken.powerOn (PwWoken.wr (PwWoken.wr h _ _) _ _) 21
  exact hOn.trans rfl

theorem PwWoken.wake (c : Nat) : PwWoken p (wake c s).pw := by
  unfold Machine.wake
  split
  · exact h
  · split
    · split
      · exact h
      · exact h.trans rfl
    · split
      · have hCause : PwWoken p (if s.pw.merged then { s with pw := { s.pw with merged := false } } else Machine.wr PM_RST_CAUSE.CAUSE c s).pw := by
          split
          · exact h.trans rfl
          · exact h
        generalize (if s.pw.merged then { s with pw := { s.pw with merged := false } } else Machine.wr PM_RST_CAUSE.CAUSE c s) = v at hCause ⊢
        refine PwWoken.bootBegin (hCause.trans ?_)
        rw [inc_pw]
        rfl
      · exact h

theorem PwWoken.each {α : Type} (l : List α) {g : α → State → State} (hg : ∀ x v, PwWoken p v.pw → PwWoken p (g x v).pw) : PwWoken p (each l g s).pw := by
  unfold Machine.each
  induction l generalizing s with
  | nil => exact h
  | cons x r ih => exact ih (hg x _ h)

theorem PwWoken.wrs (l : List (Fld × Nat)) : PwWoken p (Machine.wrs l s).pw := by rwa [wrs_pw]

theorem PwWoken.lanternRecord (n : Nat) : PwWoken p (lanternRecord n s).pw := by
  unfold Machine.lanternRecord
  dsimp only
  split
  · exact h
  · refine PwWoken.wake ?_ 7
    have hHits : PwWoken p (Machine.each (watchers n s) (fun e t => Machine.wr (PM_LAN_HIT.ENTRIES e) 1 t) s).pw := PwWoken.each h _ (fun _ _ hv => hv)
    split
    · exact hHits
    · exact PwWoken.wrs hHits _

theorem PwWoken.latch (n : Nat) : PwWoken p (latch n s).pw := by
  unfold Machine.latch
  dsimp only
  split
  · exact h
  · split
    · rw [markBit_pw]
      exact h.lanternRecord n
    · exact h.lanternRecord n

theorem PwWoken.raise (n : Nat) : PwWoken p (raise n s).pw := by
  unfold Machine.raise
  split
  · exact h.latch n
  · exact h

theorem PwWoken.settleOne (n : Nat) : PwWoken p (settleOne n s).pw := by
  unfold Machine.settleOne
  dsimp only
  have hRaw : PwWoken p (Machine.wrB (rawF n) (sampled n s) s).pw := h
  split
  · exact hRaw.latch n
  · exact hRaw

theorem PwWoken.settle : PwWoken p (settle s).pw := PwWoken.each h _ (fun n _ hv => PwWoken.settleOne hv n)

end

/-- Whether a processor runs is not changed by a notice: none of a channel's registers but its doorbells is written. -/
theorem rd_peer_sendNotice {s : State} (h : s.regsWf = true) (k : Fin 6) (w : List Nat) (j : Fin 6) :
    rd (MB.H2K_STATUS.PEER j.val) (sendNotice k w s) = rd (MB.H2K_STATUS.PEER j.val) s := by
  have hApart : ∀ k j : Fin 6, evKey (MB.H2K_STATUS.PEER j.val).key = false ∧ keysOf [MB.K2H_DB_PEND.PEND k.val] (MB.H2K_STATUS.PEER j.val).key = false ∧
      ownKey (MB.H2K_STATUS.PEER j.val).key = false := by decide
  obtain ⟨hEv, hBell, hOwn⟩ := hApart k j
  have hPost (v : State) (hv : Frame { mb := true } (keysOf [MB.K2H_DB_PEND.PEND k.val]) s v) (l : List Nat) : rd (MB.H2K_STATUS.PEER j.val) (k2hPost k l v) = rd (MB.H2K_STATUS.PEER j.val) s := by
    have hSet := hv.setChan rfl k { chan k v with hdr := l.headD 0, k2h := l }
    have hMark := hSet.markBits (MB.K2H_DB_PEND.PEND k.val) 1 (keysOf_mem (List.mem_singleton_self _))
    unfold k2hPost bellHost
    rw [rd_settle (hMark.wf h) hEv, hMark.regs h _ hOwn hBell]
  unfold sendNotice
  dsimp only
  split
  · exact hPost _ ((Frame.refl _ _ s).setChan rfl k _) _
  · unfold queueNotice
    dsimp only
    split
    · rfl
    · split
      · split <;> rfl
      · rfl

theorem rd_peer_notice {s : State} (h : s.regsWf = true) (c f n : Nat) (l : List Nat) (j : Fin 6) :
    rd (MB.H2K_STATUS.PEER j.val) (notice c f n l s) = rd (MB.H2K_STATUS.PEER j.val) s := by
  unfold notice
  split
  · rfl
  · split
    · rfl
    · split
      · rfl
      · exact rd_peer_sendNotice h _ _ j

theorem cmUp_notice {s : State} (h : s.regsWf = true) (c f n : Nat) (l : List Nat) : cmUp (notice c f n l s) = cmUp s := by
  have hPeer : rd (MB.H2K_STATUS.PEER 0) (notice c f n l s) = rd (MB.H2K_STATUS.PEER 0) s := rd_peer_notice h c f n l 0
  rw [cmUp, peerUp, hPeer]
  rfl

theorem cmUp_settle {s : State} (h : s.regsWf = true) : cmUp (settle s) = cmUp s := by
  rw [cmUp, peerUp, rd_settle h (by decide)]
  rfl

/-- Whether the Coachman runs is not changed where the registers of the channels are not. -/
theorem Frame.cmUp {u : Parts} {K : Nat → Bool} {s t : State} (hFrame : Frame u K s t) (h : s.regsWf = true) (hK : K (MB.H2K_STATUS.PEER 0).key = false) : cmUp t = cmUp s := by
  rw [Machine.cmUp, Machine.cmUp, peerUp, peerUp, hFrame.regs h _ (by decide) hK]

end Sys2Proof.Machine

/-! SUPPORT. A fault is recorded and taken at level COACH or BLOCK (R483, R488, R494, R495, R499). -/

namespace Sys2Proof.Machine

/-- What the stop of a coach writes besides the counts of its work: its state (R256). -/
def stopFields : List Fld := allCoach.flatMap (fun c => CA_STATUS.STATE c.val :: workFields c) ++
  [GG_STATUS.STATE, GG_STATUS.CTX, GG_STATUS.COACH, GG_BUSY.COUNT, GG_WAIT.COUNT]

theorem mem_stopFields_coach {c : Coach} {f : Fld} (hf : f ∈ CA_STATUS.STATE c.val :: workFields c) : f ∈ stopFields :=
  List.mem_append_left _ (List.mem_flatMap.2 ⟨c, List.mem_finRange c, hf⟩)

theorem mem_stopFields_gig {f : Fld} (hf : f ∈ [GG_STATUS.STATE, GG_STATUS.CTX, GG_STATUS.COACH, GG_BUSY.COUNT, GG_WAIT.COUNT]) : f ∈ stopFields :=
  List.mem_append_right _ hf

/-- What the stop of units can reach. -/
structure StopParts (u : Parts) : Prop where
  coach : u.coach = true
  coaches : ∀ c, u.coaches c = true
  gig : u.gig = true
  freeN : u.freeN = true

namespace Frame

section
variable {u : Parts} {K : Nat → Bool} {s t : State}

theorem coachStop (hCoach : u.coach = true) (c : Coach) (hOwn : u.coaches c = true) (hK : ∀ f ∈ stopFields, K f.key = true) (h : Frame u K s t) : Frame u K s (coachStop c t) := by
  unfold Machine.coachStop
  dsimp only
  have hSettled := Frame.coachSettle hCoach hOwn (fun f hf => hK f (mem_stopFields_coach (List.mem_cons_of_mem _ hf))) h
  have hStopped := hSettled.modCo hCoach c hOwn (fun x => { x with run := none, xfers := [], prefetch := [], swRes := 0 })
  exact ite (hStopped.wr _ _ (hK _ (mem_stopFields_coach (c := c) List.mem_cons_self))) hStopped

end

section
variable {u : Parts} {K : Nat → Bool} {s t : State} (hu : StopParts u) (hK : ∀ f ∈ stopFields, K f.key = true)
include hu hK

theorem gigFree (n : Nat) (h : Frame u K s t) : Frame u K s (gigFree n t) := by
  unfold Machine.gigFree
  dsimp only
  refine Frame.showGig (hK _ (mem_stopFields_gig (by simp))) (Frame.wrs _ (fun x hx => hK _ (mem_stopFields_gig ?_)) (h.gigUpd hu.gig _))
  exact fst_mem (by simp) hx

theorem gigStop (h : Frame u K s t) : Frame u K s (gigStop t) := by
  unfold Machine.gigStop
  refine ite h (Frame.gigFree hu hK _ (Frame.gigSettle hu.gig hu.freeN (hK _ (mem_stopFields_gig (by simp))) (hK _ (mem_stopFields_gig (by simp))) h))

theorem stopSet (m : Nat) (h : Frame u K s t) : Frame u K s (stopSet m t) := by
  unfold Machine.stopSet
  dsimp only
  refine Frame.each _ (fun c _ _ hv => hv.coachStop hu.coach c (hu.coaches c) hK) ?_
  split
  · exact ite (h.gigStop hu hK) h
  · exact h

end

section
variable {u : Parts} {K : Nat → Bool} {s t : State}

theorem fenceShut (hu : u.pw = true) (d : Nat) (h : Frame u K s t) : Frame u K s (fenceShut d t) := h.pwUpd hu _

theorem fenceOpen (hu : u.pw = true) (d : Nat) (h : Frame u K s t) : Frame u K s (fenceOpen d t) := h.pwUpd hu _

theorem reinSet (hu : u.sb = true) (j v : Nat) (hK : K (SB_REINS.HOLDERS j).key = true) (h : Frame u K s t) : Frame u K s (reinSet j v t) :=
  (h.sbUpd hu _).wr _ _ hK

theorem reinTake (hu : u.sb = true) (j : Nat) (hK : K (SB_REINS.HOLDERS j).key = true) (h : Frame u K s t) : Frame u K s (reinTake j t) :=
  ite (h.reinSet hu j _ hK) h

/-- With no Tandem job a fault aborts none (R291). -/
theorem abortFault_none (ns : List Ctx) (hNone : tandemJobs t = []) : abortFault ns t = t := by
  have hFilter : ns.filter (fun n => (tandemJobs t).contains n && !(cx n t).abortFence) = [] := by
    rw [hNone]
    exact List.filter_eq_nil_iff.2 fun n _ => by simp
  unfold abortFault
  rw [hFilter]
  rfl

/-- The Tandem jobs that run depend on the contexts' states and jobs. -/
theorem tandemJobs (hFrame : Frame u K s t) (h : s.regsWf = true) (hCtx : u.ctx = false) (hK : ∀ n : Ctx, K (GL_CTX_STATUS.STATE (cid n)).key = false) :
    tandemJobs t = tandemJobs s := by
  have hOwn : ∀ n : Ctx, ownKey (GL_CTX_STATUS.STATE (cid n)).key = false := by decide
  have hState (n : Ctx) : cxState n t = cxState n s := hFrame.regs h _ (hOwn n) (hK n)
  have hCx (n : Ctx) : cx n t = cx n s := by rw [cx, cx, hFrame.ctx hCtx]
  simp only [Machine.tandemJobs, hState, hCx]

end

end Frame

theorem rd_reinTake {s : State} (h : s.regsWf = true) (j : Nat) : rd (SB_REINS.HOLDERS j) (reinTake j s) = s.reinTaken j := by
  unfold reinTake State.reinTaken reinHolder
  by_cases hFree : rd (SB_REINS.HOLDERS j) s = 0
  · rw [if_pos (beq_iff_eq.2 hFree), if_pos hFree]
    have hSet (v : Nat) : rd (SB_REINS.HOLDERS j) (reinSet j v s) = v % 2 ^ 2 := rd_wr_same (s := { s with sb := _ }) h _ _
    rw [hSet]
    split <;> rfl
  · rw [if_neg (by simpa using hFree), if_neg hFree]

/-- The record of a unit's faults (R483, R508). -/
def faultFields (u : Nat) : List Fld := [GL_FLT_CNT.TOTAL u, GL_FLT_S0.VALID u, GL_FLT_S0.CODE u, GL_FLT_S0.LEVEL u, GL_FLT_S0.CTX u, GL_FLT_S0.COACH u, GL_FLT_S1.STAGE u,
  GL_FLT_S1.ROW u, GL_FLT_S2.LINE u, GL_FLT_CNT.EXTRA u, GL_FLT_P0.VALID u, GL_FLT_P0.CODE u, GL_FLT_P0.LEVEL u, GL_FLT_P0.CTX u, GL_FLT_P0.COACH u, GL_FLT_P1.STAGE u,
  GL_FLT_P1.ROW u, GL_FLT_P2.LINE u, GL_FLT_STATE.RECOVERING u]

/-- The first record of an episode (R483). -/
def firstRecord (u : Nat) (f : FaultRec) (line : Nat) : List (Fld × Nat) := [(GL_FLT_P0.VALID u, 1), (GL_FLT_P0.CODE u, f.code), (GL_FLT_P0.LEVEL u, f.level), (GL_FLT_P0.CTX u, f.ctx),
  (GL_FLT_P0.COACH u, f.coach), (GL_FLT_P1.STAGE u, f.stage), (GL_FLT_P1.ROW u, f.row), (GL_FLT_P2.LINE u, line), (GL_FLT_STATE.RECOVERING u, 1)]

/-- The other record of an episode, which the first clears, with the count of faults beyond it. -/
def secondRecord (u : Nat) : List Fld := [GL_FLT_S0.VALID u, GL_FLT_S0.CODE u, GL_FLT_S0.LEVEL u, GL_FLT_S0.CTX u, GL_FLT_S0.COACH u, GL_FLT_S1.STAGE u, GL_FLT_S1.ROW u,
  GL_FLT_S2.LINE u, GL_FLT_CNT.EXTRA u]

theorem faultFields_nodup : ∀ u : Fin 21, ((faultFields u.val).map Fld.key).Nodup := by decide

theorem faultFields_own : ∀ u : Fin 21, ∀ f ∈ faultFields u.val, ownKey f.key = false ∧ msgKey f.key = false := by decide

/-- The state with an episode of a unit opened. -/
def opened (u : Fin 21) (f : FaultRec) (s : State) : State :=
  let s := wrs (firstRecord u.val f (rd TT_LINE.LINE s)) (clr (secondRecord u.val) (inc (GL_FLT_CNT.TOTAL u.val) s))
  { s with flt := { s.flt with level := s.flt.level.set u f.level, code := s.flt.code.set u f.code } }

theorem recovering_apart : ∀ u : Fin 21, (GL_FLT_STATE.RECOVERING u.val).key ≠ (GL_FLT_CNT.TOTAL u.val).key := by decide

theorem faultRecord_first {u : Fin 21} {s : State} (hCalm : rdB (GL_FLT_STATE.RECOVERING u.val) s = false) (f : FaultRec) : faultRecord u.val f s = opened u f s := by
  unfold faultRecord
  dsimp only
  rw [if_pos (by simp [hCalm]), dif_pos u.isLt]
  rfl

theorem opened_frame (u : Fin 21) (f : FaultRec) (s : State) : Frame { flt := true } (keysOf (faultFields u.val)) s (opened u f s) := by
  have hFirst : ∀ x ∈ firstRecord u.val f (rd TT_LINE.LINE s), x.1 ∈ faultFields u.val := by simp [firstRecord, faultFields]
  have hSecond : ∀ x ∈ secondRecord u.val, x ∈ faultFields u.val := by simp [secondRecord, faultFields]
  exact Frame.fltUpd rfl _ (Frame.wrs _ (fun x hx => keysOf_mem (hFirst x hx)) (Frame.clr _ (fun x hx => keysOf_mem (hSecond x hx))
    ((Frame.refl _ _ s).inc _ (keysOf_mem (by simp [faultFields])))))

theorem rd_withFlt (f : Fld) (x : FltSt) (s : State) : rd f { s with flt := x } = rd f s := rfl

theorem record_apart : ∀ u : Fin 21, keysOf (secondRecord u.val) (GL_FLT_CNT.TOTAL u.val).key = false ∧
    (∀ x ∈ firstRecord u.val ⟨0, 0, 0, 0, 0, 0⟩ 0, (GL_FLT_CNT.TOTAL u.val).key ≠ x.1.key ∧ (GL_FLT_S0.VALID u.val).key ≠ x.1.key) ∧
    (((firstRecord u.val ⟨0, 0, 0, 0, 0, 0⟩ 0).map (·.1)).map Fld.key).Nodup ∧ (∀ f ∈ secondRecord u.val, (GL_FLT_CNT.TOTAL u.val).key ≠ f.key) := by decide

/-- Which fields the first record of an episode writes does not depend on the fault. -/
theorem firstRecord_fields (u : Nat) (f g : FaultRec) (a b : Nat) : (firstRecord u f a).map (·.1) = (firstRecord u g b).map (·.1) := rfl

theorem opened_flt (u : Fin 21) (f : FaultRec) (s : State) :
    (opened u f s).flt = { s.flt with level := s.flt.level.set u f.level, code := s.flt.code.set u f.code } := by
  simp only [opened, wrs_flt, clr_flt, inc_flt]

/-- The record of an episode's first fault. -/
theorem opened_recorded {s : State} (h : s.regsWf = true) (u : Fin 21) (f : FaultRec) (hCode : f.code < 256) (hLevel : f.level < 16) :
    s.recorded u.val f.code f.level (opened u f s) ∧ rd (GL_FLT_STATE.RECOVERING u.val) (opened u f s) = 1 := by
  obtain ⟨-, hApart, hNodup, hSecond⟩ := record_apart u
  have hKeys (x : Fld × Nat) (hx : x ∈ firstRecord u.val f (rd TT_LINE.LINE s)) : (GL_FLT_CNT.TOTAL u.val).key ≠ x.1.key ∧ (GL_FLT_S0.VALID u.val).key ≠ x.1.key := by
    have hField : x.1 ∈ (firstRecord u.val ⟨0, 0, 0, 0, 0, 0⟩ 0).map (·.1) := firstRecord_fields u.val f ⟨0, 0, 0, 0, 0, 0⟩ _ 0 ▸ List.mem_map.2 ⟨x, hx, rfl⟩
    obtain ⟨y, hy, hEq⟩ := List.mem_map.1 hField
    exact hEq ▸ hApart y hy
  have hDistinct : ((firstRecord u.val f (rd TT_LINE.LINE s)).map (·.1.key)).Nodup := by
    rw [← firstRecord_fields u.val f, List.map_map] at hNodup
    exact hNodup
  have hInc : (inc (GL_FLT_CNT.TOTAL u.val) s).regsWf = true := regsWf_wr h _ _
  have hClr : (clr (secondRecord u.val) (inc (GL_FLT_CNT.TOTAL u.val) s)).regsWf = true :=
    (Frame.clr (u := {}) (K := allKeys) _ (fun _ _ => rfl) (Frame.refl _ _ (inc (GL_FLT_CNT.TOTAL u.val) s))).wf hInc
  have hFlt (g : Fld) : rd g (opened u f s) = rd g (wrs (firstRecord u.val f (rd TT_LINE.LINE s)) (clr (secondRecord u.val) (inc (GL_FLT_CNT.TOTAL u.val) s))) := by
    unfold opened
    exact rd_withFlt ..
  have hWritten {g : Fld} {v : Nat} (hx : (g, v) ∈ firstRecord u.val f (rd TT_LINE.LINE s)) : rd g (opened u f s) = v % 2 ^ g.width := (hFlt g).trans (rd_wrs_nodup hDistinct hClr hx)
  have hValid := hWritten (g := GL_FLT_P0.VALID u.val) (v := 1) (by simp [firstRecord])
  have hOpen := hWritten (g := GL_FLT_STATE.RECOVERING u.val) (v := 1) (by simp [firstRecord])
  have hLine := hWritten (g := GL_FLT_P2.LINE u.val) (v := rd TT_LINE.LINE s) (by simp [firstRecord])
  refine ⟨⟨?_, hValid, ?_, ?_, hLine, ?_⟩, hOpen⟩
  · rw [hFlt, rd_wrs_ne _ hClr _ fun x hx => (hKeys x hx).1, rd_clr_ne _ hInc _ hSecond]
    exact rd_inc_same h _
  · exact (hWritten (v := f.code) (by simp [firstRecord])).trans (Nat.mod_eq_of_lt hCode)
  · exact (hWritten (v := f.level) (by simp [firstRecord])).trans (Nat.mod_eq_of_lt hLevel)
  · rw [hFlt, rd_wrs_ne _ hClr _ fun x hx => (hKeys x hx).2]
    exact rd_clr_mem _ hInc _ (by simp [secondRecord])

/-- The record of a unit stands in whatever leaves its fields. -/
theorem recorded_frame {u : Parts} {K : Nat → Bool} {s v t : State} (hFrame : Frame u K v t) (hv : v.regsWf = true) {n : Fin 21} {code level : Nat}
    (hK : ∀ f ∈ faultFields n.val, K f.key = false) (hRec : s.recorded n.val code level v ∧ rd (GL_FLT_STATE.RECOVERING n.val) v = 1) :
    s.recorded n.val code level t ∧ rd (GL_FLT_STATE.RECOVERING n.val) t = 1 := by
  have hSame {f : Fld} (hf : f ∈ faultFields n.val) : rd f t = rd f v := hFrame.regs hv f (faultFields_own n f hf).1 (hK f hf)
  obtain ⟨⟨hTotal, hValid, hCode, hLevel, hLine, hSecond⟩, hOpen⟩ := hRec
  exact ⟨⟨(hSame (by simp [faultFields])).trans hTotal, (hSame (by simp [faultFields])).trans hValid, (hSame (by simp [faultFields])).trans hCode,
    (hSame (by simp [faultFields])).trans hLevel, (hSame (by simp [faultFields])).trans hLine, (hSame (by simp [faultFields])).trans hSecond⟩,
    (hSame (by simp [faultFields])).trans hOpen⟩

/-- The state in which a fault's level is carried out: it is recorded, and its notice is posted. -/
def taken (u : Fin 21) (f : FaultRec) (s : State) : State := settle (faultNotice f (opened u f s))

theorem taken_frame (u : Fin 21) (f : FaultRec) (s : State) : Frame { pw := true, mb := true } (msgOr []) (opened u f s) (taken u f s) := by
  refine Frame.settle rfl (msgIn_msgOr _).ev ?_
  exact (Frame.refl _ _ _).notice rfl rfl (msgIn_msgOr _) _ _ _ _

theorem msgOr_nil {k : Nat} (h : msgKey k = false) : msgOr [] k = false := by
  unfold msgOr
  rw [h]
  rfl

theorem taken_recorded {s : State} (h : s.regsWf = true) (u : Fin 21) (f : FaultRec) (hCode : f.code < 256) (hLevel : f.level < 16) :
    s.recorded u.val f.code f.level (taken u f s) ∧ rd (GL_FLT_STATE.RECOVERING u.val) (taken u f s) = 1 :=
  recorded_frame (taken_frame u f s) ((opened_frame u f s).wf h) (fun g hg => msgOr_nil (faultFields_own u g hg).2) (opened_recorded h u f hCode hLevel)

/-- The level of a unit is the one at which its fault is carried out. -/
def levelled (u : Fin 21) (level : Nat) (s : State) : State := { s with flt := { s.flt with level := s.flt.level.set u (max level s.flt.level[u]) } }

/-- A fault that is taken, with no escalation under way and no context that covers it (R483, R484). -/
theorem raiseFault_calm {u : Fin 21} {s : State} (hCalm : s.calm u.val) {f : FaultRec} (hCtx : f.code < 0x10 → ctxOf f.ctx = none)
    (hTaken : takenLevel u.val f s = f.level) (hLevel : f.level ≠ 0) :
    raiseFault u.val f s = settle (escalate u.val f.level f (levelled u f.level (taken u f s))) := by
  obtain ⟨-, hReset, hBlock, hReplay, hRec, -⟩ := hCalm
  have hJudged : replayJudges u.val f s = false := by
    unfold replayJudges
    rw [hReplay]
  have hNoBlock : (taken u f s).flt.block = none := by
    have hFlt : (taken u f s).flt = (opened u f s).flt := (taken_frame u f s).flt rfl
    rw [hFlt, opened_flt]
    exact hBlock
  have hOpen : (taken u f s).flt.block.isSome = false := by rw [hNoBlock]; rfl
  have hRecord : faultRecord u.val { f with level := f.level } s = opened u f s := faultRecord_first hRec f
  have hDone : settle (faultNotice { f with level := f.level } (opened u f s)) = taken u f s := rfl
  unfold raiseFault
  rw [hReset, if_neg (by simp)]
  dsimp only
  rw [hJudged, hTaken, hRec]
  simp only [Bool.false_eq_true, if_false, Bool.false_and, hRecord, hDone, hOpen, beq_eq_false_iff_ne.2 hLevel, Bool.or_false, dif_pos u.isLt]
  by_cases hCode : f.code < 0x10
  · rw [hCtx hCode]
    simp only [Bool.and_false, Bool.false_eq_true, if_false]
    rfl
  · rw [decide_eq_false hCode]
    simp only [Bool.false_and, Bool.false_eq_true, if_false]
    rfl

end Sys2Proof.Machine

/-! O55. The drain of a BLOCK escalation with a transaction whose port index lies past the ports (R499, R226), and the refutation of O55. -/

namespace Sys2Proof.Machine

/-- An escalation that drains. -/
def draining : BlockEsc := ⟨0x21, 4, 0, 20, 0, 0, 1, false, false, 0, []⟩

/-- Its 50 µs are over, and a transaction of port index 8 is outstanding. -/
def drainPastPorts : State :=
  let s := wrs [(PM_SLEEP.STATE, 0), (PM_DUMP_SIZE.BYTES, 0x10000)] State.reset
  { s with
    now := us 50
    flt := { s.flt with block := some draining }
    mp := { s.mp with txs := [⟨8, 0, true, 1, 0, 0, 1, 1, 0, .other, 0, 0, 0, 0, false, false, 0, []⟩] } }

/-- Refutes O55: the transactions of the state carry a port index without a bound, and the orphans of index 8 are counted outside the ports' registers. -/
theorem not_blockEscalationDumpsAndResets : ¬ Obligations.BlockEscalationDumpsAndResets := by
  unfold Obligations.BlockEscalationDumpsAndResets
  intro h
  obtain ⟨hDrain, -⟩ := h drainPastPorts draining (by decide +kernel) rfl
  obtain ⟨t, hExec, -, -, -, -, -, hDump⟩ := hDrain rfl (Or.inr (by decide +kernel)) (by unfold State.awake; decide +kernel) (by decide +kernel)
  -- What is abandoned is counted as held of that index; no port is hung.
  have hHeld : (match execBlockDrainDone drainPastPorts with
      | .next t => (rd (MP_P_ORPHAN.HELD 8) t, (List.range 8).any (fun q => heldHung q t))
      | _ => (0, true)) = (1, false) := by decide +kernel
  change execBlockDrainDone drainPastPorts = _ at hExec
  rw [hExec] at hHeld
  obtain ⟨hOne, hHung⟩ := Prod.mk.inj hHeld
  have hKept := ((hDump (by decide +kernel) (by decide +kernel)).2 fun q hq => by
    simpa using List.any_eq_false.mp hHung q (List.mem_range.mpr hq)).2
  have hZero := hKept (MP_P_ORPHAN.HELD 8) (by decide +kernel) (by decide +kernel)
  rw [hOne] at hZero
  exact absurd hZero (by decide +kernel)

end Sys2Proof.Machine

/-! SUPPORT. A fault taken at level COACH: its unit is reset, and the replay of its suspects is prepared (R494, R495). -/

namespace Sys2Proof.Machine

/-- The field that shows the state of a coach, or of the Gig engine. -/
def unitState (u : Nat) : Fld := if u < 16 then CA_STATUS.STATE u else GG_STATUS.STATE

theorem unitState_mem (u : Fin 17) : unitState u.val ∈ stopFields := by
  unfold unitState
  split
  · next hCoach => exact mem_stopFields_coach (c := ⟨u.val, hCoach⟩) List.mem_cons_self
  · exact mem_stopFields_gig (by simp)

/-- A decided fact about the fields of the stop of a coach, and about those of the Gig engine, is one about all that a stop writes. -/
theorem stopFields_forall {P : Fld → Prop} (hCoach : ∀ c : Coach, ∀ f ∈ CA_STATUS.STATE c.val :: workFields c, P f)
    (hGig : ∀ f ∈ [GG_STATUS.STATE, GG_STATUS.CTX, GG_STATUS.COACH, GG_BUSY.COUNT, GG_WAIT.COUNT], P f) : ∀ f ∈ stopFields, P f := by
  intro f hf
  obtain hf | hf := List.mem_append.1 hf
  · obtain ⟨c, -, hc⟩ := List.mem_flatMap.1 hf
    exact hCoach c f hc
  · exact hGig f hf

/-- What the reset of a unit writes besides the stop of units. -/
def levelFields : List Fld := stopFields ++ [SB_REINS.HOLDERS 3]

theorem reinUnit_apart : ∀ u : Fin 17, (SB_REINS.HOLDERS 3).key ≠ (unitState u.val).key := by decide

/-- What a fault at level COACH can reach. -/
def coachParts : Parts := { coach := true, coaches := fun _ => true, gig := true, freeN := true, pw := true, flt := true, sb := true }

theorem coachParts_stop : StopParts coachParts := ⟨rfl, fun _ => rfl, rfl, rfl⟩

/-- The state of a unit whose reset has begun. -/
theorem resetUnit_frame (u : Nat) (hu : u < 17) (s : State) : Frame { pw := true, flt := true, sb := true } (keysOf levelFields) s (resetUnit u s) := by
  have hState : keysOf levelFields (unitState u).key = true := keysOf_mem (List.mem_append_left _ (unitState_mem ⟨u, hu⟩))
  unfold resetUnit
  dsimp only
  have hTaken := (Frame.refl { pw := true, flt := true, sb := true } (keysOf levelFields) s).reinTake rfl 3 (keysOf_mem (by simp [levelFields]))
  have hShown := (hTaken.fenceShut rfl u).wr (unitState u) 6 hState
  rw [dif_pos hu]
  exact Frame.fltUpd rfl _ hShown

theorem reinTake_frame {u : Parts} (hu : u.sb = true) (j : Nat) (s : State) : Frame u (keysOf [SB_REINS.HOLDERS j]) s (reinTake j s) :=
  (Frame.refl _ _ s).reinTake hu j (keysOf_mem (List.mem_singleton_self _))

theorem fenceShut_fenced (d : Nat) (s : State) : (fenceShut d s).pw.fenced.contains d = true := by simp [fenceShut]

/-- What the reset of a unit has done when it has begun. -/
theorem resetUnit_done {s : State} (h : s.regsWf = true) (u : Fin 17) :
    rd (unitState u.val) (resetUnit u.val s) = 6 ∧ (resetUnit u.val s).flt = { s.flt with resetAt := s.flt.resetAt.set u (some s.now) } ∧
      (resetUnit u.val s).pw.fenced.contains u.val = true ∧ rd (SB_REINS.HOLDERS 3) (resetUnit u.val s) = s.reinTaken 3 := by
  have hTaken := reinTake_frame (u := { sb := true }) rfl 3 s
  have hShut : (fenceShut u.val (reinTake 3 s)).regsWf = true := hTaken.wf h
  have hEq : resetUnit u.val s = (fun x : State => { x with flt := { x.flt with resetAt := x.flt.resetAt.set u (some x.now) } }) (wr (unitState u.val) 6 (fenceShut u.val (reinTake 3 s))) := by
    unfold resetUnit
    dsimp only
    rw [dif_pos u.isLt]
    rfl
  rw [hEq]
  generalize hv : wr (unitState u.val) 6 (fenceShut u.val (reinTake 3 s)) = v
  have hFlt : v.flt = s.flt := by rw [← hv]; exact hTaken.flt rfl
  have hNow : v.now = s.now := by rw [← hv]; exact hTaken.now
  have hWidth : ∀ w : Fin 17, 6 % 2 ^ (unitState w.val).width = 6 := by decide
  refine ⟨?_, ?_, ?_, ?_⟩
  · rw [rd_withFlt, ← hv, rd_wr_same hShut]
    exact hWidth u
  · dsimp only
    rw [hFlt, hNow]
  · dsimp only
    rw [← hv]
    exact fenceShut_fenced ..
  · rw [rd_withFlt, ← hv, rd_wr_ne hShut _ _ _ (reinUnit_apart u)]
    exact rd_reinTake h 3

/-- The state in which level COACH resets the unit: the coaches of its set are stopped behind their fences. -/
def setStopped (u mask : Nat) (s : State) : State := each (coachesOf mask) (fun c => fenceShut c.val) (stopSet mask (if u == 16 then gigStop s else s))

theorem setStopped_frame (u mask : Nat) (s : State) : Frame { coach := true, coaches := fun _ => true, gig := true, freeN := true, pw := true } (keysOf stopFields) s (setStopped u mask s) := by
  have hParts : StopParts { coach := true, coaches := fun _ => true, gig := true, freeN := true, pw := true } := ⟨rfl, fun _ => rfl, rfl, rfl⟩
  unfold setStopped
  refine Frame.each _ (fun c _ _ hv => hv.fenceShut rfl c.val) (Frame.stopSet hParts (fun f hf => keysOf_mem hf) mask ?_)
  exact Frame.ite (Frame.gigStop hParts (fun f hf => keysOf_mem hf) (Frame.refl _ _ s)) (Frame.refl _ _ s)

/-- What holds before a pass over a list and is kept at each element holds after it. -/
theorem each_induct {α : Type} {P : State → Prop} {l : List α} {g : α → State → State} {s : State} (h : P s) (hg : ∀ x ∈ l, ∀ v, P v → P (g x v)) : P (each l g s) := by
  unfold each
  induction l generalizing s with
  | nil => exact h
  | cons x r ih => exact ih (hg x List.mem_cons_self s h) fun y hy => hg y (List.mem_cons_of_mem _ hy)

theorem gigStop_run (s : State) : (gigStop s).gig.run = none := by
  unfold gigStop
  split
  · next hIdle => exact Option.isNone_iff_eq_none.1 hIdle
  · rw [gig_gigFree]

theorem coachStop_gig (c : Coach) (s : State) : (coachStop c s).gig = s.gig :=
  (Frame.coachStop (u := { coach := true, coaches := fun _ => true }) (K := keysOf stopFields) rfl c rfl (fun _ hf => keysOf_mem hf) (Frame.refl _ _ s)).gig rfl

theorem setStopped_gig (mask : Nat) (s : State) : (setStopped 16 mask s).gig.run = none := by
  have hEach {l : List Coach} {g : Coach → State → State} (hg : ∀ c v, (g c v).gig = v.gig) (v : State) (hv : v.gig.run = none) : (each l g v).gig.run = none :=
    each_induct (P := fun x => x.gig.run = none) hv (fun c _ x hx => by rw [hg]; exact hx)
  unfold setStopped stopSet
  simp only [BEq.rfl, if_true, gigStop_run]
  refine hEach (g := fun c => fenceShut c.val) (fun _ _ => rfl) _ (hEach coachStop_gig _ ?_)
  exact gigStop_run s

end Sys2Proof.Machine

/-! SUPPORT. The faults that are taken at level COACH (R156, R263, R485, R494, R495). -/

namespace Sys2Proof.Machine

theorem faultFields_range : ∀ u : Fin 21, ∀ f ∈ faultFields u.val, 131072 ≤ f.key ∧ f.key < 176200 := by decide

/-- The records of the faults are apart from fields elsewhere. -/
theorem faultFields_apart {l : List Fld} (h : ∀ g ∈ l, g.key < 131072 ∨ 176200 ≤ g.key) (u : Fin 21) {f : Fld} (hf : f ∈ faultFields u.val) : keysOf l f.key = false := by
  refine keysOf_eq_false.2 fun g hg hEq => ?_
  have hFault := faultFields_range u f hf
  have hElse := h g hg
  omega

theorem stopFields_range : ∀ f ∈ stopFields, f.key < 131072 ∨ 176200 ≤ f.key := stopFields_forall (by decide) (by decide)

theorem levelFields_forall {P : Fld → Prop} (hCoach : ∀ c : Coach, ∀ f ∈ CA_STATUS.STATE c.val :: workFields c, P f)
    (hGig : ∀ f ∈ [GG_STATUS.STATE, GG_STATUS.CTX, GG_STATUS.COACH, GG_BUSY.COUNT, GG_WAIT.COUNT], P f) (hRein : P (SB_REINS.HOLDERS 3)) : ∀ f ∈ levelFields, P f := by
  intro f hf
  obtain hf | hf := List.mem_append.1 hf
  · exact stopFields_forall hCoach hGig f hf
  · exact List.mem_singleton.1 hf ▸ hRein

theorem levelFields_range : ∀ f ∈ levelFields, f.key < 131072 ∨ 176200 ≤ f.key := levelFields_forall (by decide) (by decide) (by decide)

theorem levelFields_channel : ∀ f ∈ levelFields, (MB.H2K_STATUS.PEER 0).key ≠ f.key := levelFields_forall (by decide) (by decide) (by decide)

theorem unitState_apart : ∀ u : Fin 17, evKey (unitState u.val).key = false := by decide

theorem evOr_nil {k : Nat} (h : msgKey k = false) : evOr [] k = false := Bool.or_eq_false_iff.2 ⟨evKey_of_msgKey h, rfl⟩

/-- A field that a fault's record leaves. -/
theorem fault_leaves (u : Fin 21) {g : Fld} (h : g.key < 131072 ∨ 176200 ≤ g.key) : keysOf (faultFields u.val) g.key = false := by
  refine keysOf_eq_false.2 fun f hf hEq => ?_
  have hFault := faultFields_range u f hf
  omega

/-- What the record of a fault and its notice leave. -/
theorem levelled_leaves {s : State} (h : s.regsWf = true) (u : Fin 21) (f : FaultRec) (level : Nat) {g : Fld} (hOwn : ownKey g.key = false) (hMsg : msgKey g.key = false)
    (hFault : keysOf (faultFields u.val) g.key = false) : rd g (levelled u level (taken u f s)) = rd g s := by
  have hOpened := opened_frame u f s
  calc rd g (levelled u level (taken u f s)) = rd g (taken u f s) := rd_withFlt ..
    _ = rd g (opened u f s) := (taken_frame u f s).regs (hOpened.wf h) g hOwn (msgOr_nil hMsg)
    _ = rd g s := hOpened.regs h g hOwn hFault

theorem levelled_framed {p : Parts} {K : Nat → Bool} {s v : State} (h : Frame p K s v) (u : Fin 21) (level : Nat) (hp : p.flt = true) : Frame p K s (levelled u level v) :=
  h.fltUpd hp _

theorem levelled_frame (u : Fin 21) (f : FaultRec) (level : Nat) (s : State) : Frame { pw := true, mb := true, flt := true } (msgOr (faultFields u.val)) s (levelled u level (taken u f s)) := by
  have hOpened : Frame { pw := true, mb := true, flt := true } (msgOr (faultFields u.val)) s (opened u f s) :=
    (opened_frame u f s).mono (by constructor <;> simp) fun k hk => Bool.or_eq_true_iff.2 (.inr hk)
  have hTaken : Frame { pw := true, mb := true, flt := true } (msgOr (faultFields u.val)) (opened u f s) (taken u f s) :=
    (taken_frame u f s).mono (by constructor <;> simp) fun k hk => Bool.or_eq_true_iff.2 (.inl ((Bool.or_eq_true_iff.1 hk).resolve_right (by simp [keysOf])))
  exact levelled_framed (hOpened.trans hTaken) u level rfl

theorem cmUp_withFlt (x : FltSt) (s : State) : cmUp { s with flt := x } = cmUp s := rfl

theorem cmUp_levelled {s : State} (h : s.regsWf = true) (u : Fin 21) (f : FaultRec) (level : Nat) : cmUp (levelled u level (taken u f s)) = cmUp s := by
  have hOpened := opened_frame u f s
  have hNoticed : (faultNotice f (opened u f s)).regsWf = true := (Frame.notice (u := { pw := true, mb := true }) (K := msgOr []) rfl rfl (msgIn_msgOr []) _ _ _ _ (Frame.refl _ _ _)).wf (hOpened.wf h)
  calc cmUp (levelled u level (taken u f s)) = cmUp (taken u f s) := cmUp_withFlt ..
    _ = cmUp (faultNotice f (opened u f s)) := cmUp_settle hNoticed
    _ = cmUp (opened u f s) := cmUp_notice (hOpened.wf h) ..
    _ = cmUp s := hOpened.cmUp h (fault_leaves u (by decide))

theorem reinTaken_levelled {s : State} (h : s.regsWf = true) (u : Fin 21) (f : FaultRec) (level j : Nat) (hRein : j = 3 ∨ j = 4) :
    (levelled u level (taken u f s)).reinTaken j = s.reinTaken j := by
  have hKeys : ∀ j, j = 3 ∨ j = 4 → ownKey (SB_REINS.HOLDERS j).key = false ∧ msgKey (SB_REINS.HOLDERS j).key = false ∧
      ((SB_REINS.HOLDERS j).key < 131072 ∨ 176200 ≤ (SB_REINS.HOLDERS j).key) := by rintro j (rfl | rfl) <;> decide
  obtain ⟨hOwn, hMsg, hRange⟩ := hKeys j hRein
  rw [State.reinTaken, State.reinTaken, cmUp_levelled h, levelled_leaves h u f level hOwn hMsg (fault_leaves u hRange)]

theorem tandemJobs_levelled {s : State} (h : s.regsWf = true) (u : Fin 21) (f : FaultRec) (level : Nat) : tandemJobs (levelled u level (taken u f s)) = tandemJobs s := by
  have hKeys : ∀ n : Ctx, msgKey (GL_CTX_STATUS.STATE (cid n)).key = false ∧ (GL_CTX_STATUS.STATE (cid n)).key < 131072 := by decide
  refine (levelled_frame u f level s).tandemJobs h rfl fun n => ?_
  obtain ⟨hMsg, hLow⟩ := hKeys n
  exact Bool.or_eq_false_iff.2 ⟨hMsg, fault_leaves u (.inl hLow)⟩

theorem levelled_recorded {s : State} (h : s.regsWf = true) (u : Fin 21) (f : FaultRec) (level : Nat) (hCode : f.code < 256) (hLevel : f.level < 16) :
    s.recorded u.val f.code f.level (levelled u level (taken u f s)) ∧ rd (GL_FLT_STATE.RECOVERING u.val) (levelled u level (taken u f s)) = 1 :=
  recorded_frame (v := taken u f s) ((Frame.refl { flt := true } (keysOf []) (taken u f s)).fltUpd rfl _) ((taken_frame u f s).wf ((opened_frame u f s).wf h)) (fun _ _ => rfl)
    (taken_recorded h u f hCode hLevel)


/-- The coaches of a fault at level COACH. -/
def coachSet (u : Nat) (f : FaultRec) (v : State) : Nat := faultSet u ((suspects u f v).filterMap ctxOf) v

/-- The replay that level COACH prepares (R494, R495). -/
def replayPrepared (u : Nat) (f : FaultRec) (v : State) : Replay :=
  ⟨u, coachSet u f v, 0, suspects u f v, none, [], suspects u f v, 0, 0, 0,
    (allCtx.filter (fun n => resident n v && partMask n v &&& coachSet u f v != 0)).map cid, []⟩

theorem levelCoach_eq {u : Nat} {f : FaultRec} {v : State} (hNone : tandemJobs v = []) :
    levelCoach u f v = resetUnit u { setStopped u (coachSet u f v) v with flt := { v.flt with replay := some (replayPrepared u f v) } } := by
  have hStopped : (setStopped u (coachSet u f v) v).flt = v.flt := (setStopped_frame u _ v).flt rfl
  rw [← hStopped]
  unfold levelCoach
  dsimp only
  rw [Frame.abortFault_none _ hNone]
  rfl

/-- A fault that is taken at level COACH, with no escalation under way (R494, R495): what it leaves of the registers besides. -/
theorem raiseFault_coach {u : Fin 17} {s : State} (hCalm : s.calm u.val) {f : FaultRec} (hLevel : f.level = 2) (hCode : f.code < 256) (hCtx : f.code < 0x10 → ctxOf f.ctx = none)
    (hTaken : takenLevel u.val f s = f.level) : s.coachLevel u f.code (raiseFault u.val f s) ∧ (u.val = 16 → (raiseFault u.val f s).gig.run = none) ∧
      ∀ g : Fld, ownKey g.key = false → msgKey g.key = false → keysOf levelFields g.key = false → (g.key < 131072 ∨ 176200 ≤ g.key) → rd g (raiseFault u.val f s) = rd g s := by
  have hWf := hCalm.1
  have hNone := hCalm.2.2.2.2.2
  let w : Fin 21 := ⟨u.val, by omega⟩
  have hRaised : raiseFault u.val f s = settle (escalate u.val f.level f (levelled w f.level (taken w f s))) := raiseFault_calm (u := w) hCalm hCtx hTaken (by omega)
  have hFrame := levelled_frame w f f.level s
  have hRec := levelled_recorded hWf w f f.level hCode (by omega)
  have hRein := reinTaken_levelled hWf w f f.level 3 (.inl rfl)
  have hJobs := (tandemJobs_levelled hWf w f f.level).trans hNone
  have hLeft {g : Fld} := levelled_leaves hWf w f f.level (g := g)
  rw [hLevel] at hRaised hFrame hRec hRein hJobs hLeft
  generalize levelled w 2 (taken w f s) = v at hRaised hFrame hRec hRein hJobs hLeft
  have hV := hFrame.wf hWf
  have hEsc : escalate u.val 2 f v = _ := levelCoach_eq hJobs
  have hSet := setStopped_frame u.val (coachSet u.val f v) v
  have hGig : u.val = 16 → (setStopped u.val (coachSet u.val f v) v).gig.run = none := fun hu => hu ▸ setStopped_gig _ v
  generalize setStopped u.val (coachSet u.val f v) v = x at hEsc hSet hGig
  let y : State := { x with flt := { v.flt with replay := some (replayPrepared u.val f v) } }
  have hY : y.regsWf = true := hSet.wf hV
  obtain ⟨hState, hFlt, hFenced, hHolders⟩ := resetUnit_done (s := y) hY u
  have hResetFrame := resetUnit_frame u.val u.isLt y
  rw [hRaised, hEsc]
  generalize resetUnit u.val y = z at hState hFlt hFenced hHolders hResetFrame ⊢
  have hSetKeys : Frame coachParts (keysOf levelFields) v x := hSet.keys (by constructor <;> simp [coachParts]) fun g hg => List.mem_append_left _ hg
  have hVY : Frame coachParts (keysOf levelFields) v y := hSetKeys.fltUpd rfl _
  have hVZ : Frame coachParts (keysOf levelFields) v z := hVY.trans (hResetFrame.mono (by constructor <;> simp [coachParts]) fun _ hk => hk)
  have hZ := hVZ.wf hV
  have hSettled : Frame { pw := true } (evOr []) z (settle z) := (Frame.refl _ _ z).settle rfl (evIn_evOr [])
  have hSettledFlt : (settle z).flt = z.flt := hSettled.flt rfl
  have hWoken : (settle z).pw.fenced = z.pw.fenced := (PwWoken.refl z.pw).settle.kept.1
  have hKept (g : Fld) (hEv : evKey g.key = false) : rd g (settle z) = rd g z := rd_settle hZ hEv
  have hHolder : ownKey (SB_REINS.HOLDERS 3).key = false ∧ keysOf stopFields (SB_REINS.HOLDERS 3).key = false := by
    refine ⟨by decide, keysOf_eq_false.2 (stopFields_forall (by decide) (by decide))⟩
  have hTakenRein : y.reinTaken 3 = s.reinTaken 3 := by
    have hRegs : rd (SB_REINS.HOLDERS 3) y = rd (SB_REINS.HOLDERS 3) v := hSet.regs hV _ hHolder.1 hHolder.2
    rw [← hRein, State.reinTaken, State.reinTaken, hVY.cmUp hV (keysOf_eq_false.2 levelFields_channel), hRegs]
  have hUnit : evKey (unitState u.val).key = false := unitState_apart u
  obtain ⟨hRecZ, hOpenZ⟩ := recorded_frame hVZ hV (fun g hg => faultFields_apart levelFields_range w hg) hRec
  obtain ⟨hRecT, hOpenT⟩ := recorded_frame hSettled hZ (fun g hg => evOr_nil (faultFields_own w g hg).2) ⟨hRecZ, hOpenZ⟩
  refine ⟨⟨?_, hOpenT, ?_, ?_, ?_, ?_, ?_⟩, ?_, ?_⟩
  · exact hRecT
  · exact (hKept _ hUnit).trans hState
  · rw [hSettledFlt, hFlt]
    have hNow : y.now = s.now := hVY.now.trans hFrame.now
    rw [← hNow]
    exact Vector.getElem_set_self _
  · rw [hWoken]
    exact hFenced
  · rw [hKept _ (by decide), hHolders, hTakenRein]
  · rw [hSettledFlt, hFlt]
    exact ⟨_, rfl, rfl, rfl, rfl⟩
  · intro hu
    have hGigZ : z.gig = y.gig := hResetFrame.gig rfl
    rw [show (settle z).gig = z.gig from hSettled.gig rfl, hGigZ]
    exact hGig hu
  · intro g hOwn hMsg hStop hRange
    rw [hKept g (evKey_of_msgKey hMsg), hVZ.regs hV g hOwn hStop, hLeft hOwn hMsg (fault_leaves w hRange)]

end Sys2Proof.Machine

/-! O24. Hangs and failed scrubs are taken at level COACH (R156, R263, R485, R494, R495). -/

namespace Sys2Proof.Machine

namespace Frame

section
variable {p : Parts} {K : Nat → Bool} {s v : State} (hFrame : Frame p K s v) (h : s.regsWf = true)
include hFrame h

/-- Whether a unit is calm is not changed where its registers are not. -/
theorem calm (hPw : p.pw = false) (hFlt : p.flt = false) (hCtx : p.ctx = false) {u : Fin 21} (hRec : K (GL_FLT_STATE.RECOVERING u.val).key = false)
    (hState : ∀ n : Ctx, K (GL_CTX_STATUS.STATE (cid n)).key = false) (hCalm : s.calm u.val) : v.calm u.val := by
  obtain ⟨-, hReset, hBlock, hReplay, hRecovers, hNone⟩ := hCalm
  have hOwn : ownKey (GL_FLT_STATE.RECOVERING u.val).key = false := (faultFields_own u _ (by simp [faultFields])).1
  refine ⟨hFrame.wf h, by rwa [hFrame.pw hPw], by rwa [hFrame.flt hFlt], by rwa [hFrame.flt hFlt], ?_, (hFrame.tandemJobs h hCtx hState).trans hNone⟩
  rw [rdB, hFrame.regs h _ hOwn hRec]
  exact hRecovers

/-- What a fault starts from where the registers that it shows are not changed. -/
theorem coachLevel {u : Fin 17} {code : Nat} {t : State} (hTotal : K (GL_FLT_CNT.TOTAL u.val).key = false) (hLine : K TT_LINE.LINE.key = false)
    (hRein : K (SB_REINS.HOLDERS 3).key = false) (hPeer : K (MB.H2K_STATUS.PEER 0).key = false) (hLevel : v.coachLevel u code t) : s.coachLevel u code t := by
  have hOwn : ownKey (GL_FLT_CNT.TOTAL u.val).key = false := (faultFields_own ⟨u.val, by omega⟩ (GL_FLT_CNT.TOTAL u.val) (by simp [faultFields])).1
  unfold State.coachLevel State.recorded State.reinTaken at *
  rwa [hFrame.regs h _ hOwn hTotal, hFrame.regs h _ (by decide) hLine, hFrame.regs h _ (by decide) hRein, hFrame.cmUp h hPeer, hFrame.now] at hLevel

end

end Frame

theorem coachHang_taken {c : Coach} {s : State} (hCalm : s.calm c.val) (hDue : hangDue c s = true) (hTaken : ∀ f, takenLevel c.val f s = f.level) :
    ∃ t, exec (.coachHang c) s = .next t ∧ s.coachLevel ⟨c.val, by omega⟩ 0x11 t := by
  refine ⟨coachFault c 0x11 2 s, ?_, ?_⟩
  · change execCoachHang c s = _
    unfold execCoachHang
    rw [if_pos hDue]
  · unfold coachFault
    split
    · next r _ => exact (raiseFault_coach (u := ⟨c.val, by omega⟩) hCalm (f := ⟨0x11, 2, cid r.ctx, c.val, r.stage, r.row⟩) rfl (by simp) (by simp) (hTaken _)).1
    · exact (raiseFault_coach (u := ⟨c.val, by omega⟩) hCalm (f := ⟨0x11, 2, coachCtxId c s, c.val, 0xFF, 0⟩) rfl (by simp) (by simp) (hTaken _)).1

/-- A fault of the Gig engine is taken at its own level. -/
theorem takenLevel_gig (f : FaultRec) (s : State) : takenLevel 16 f s = f.level := rfl

theorem gigHang_taken {c : Coach} {s : State} (hCalm : s.calm 16) (hRun : s.gig.run = some c) (hMoves : ttMoves s = true) (hLate : s.gig.len + 180000 ≤ movedSince s.gig.beginAt s) :
    ∃ t, exec .gigHang s = .next t ∧ s.coachLevel 16 0x13 t ∧ t.gig.run = none := by
  have hExec (stage row : Nat) := raiseFault_coach (u := 16) hCalm (f := ⟨0x13, 2, rd GG_STATUS.CTX s, c.val, stage, row⟩) rfl (by simp) (by simp) (takenLevel_gig _ s)
  have hStep : ∃ stage row, exec .gigHang s = .next (raiseFault 16 ⟨0x13, 2, rd GG_STATUS.CTX s, c.val, stage, row⟩ s) := by
    change ∃ stage row, execGigHang s = _
    unfold execGigHang
    rw [hRun]
    dsimp only
    rw [if_pos (by simp [hMoves, hLate])]
    exact ⟨_, _, rfl⟩
  obtain ⟨stage, row, hStep⟩ := hStep
  obtain ⟨hLevel, hIdle, -⟩ := hExec stage row
  exact ⟨_, hStep, hLevel, hIdle rfl⟩


theorem gigEccIdle_taken {s : State} (hCalm : s.calm 16) (hIdle : s.gig.run = none) (hOpen : domOpen 16 s = true) :
    ∃ t, exec .gigEccIdle s = .next t ∧ s.coachLevel 16 0x05 t ∧ rd GG_ECC.UNCORR t = sat GG_ECC.UNCORR (rd GG_ECC.UNCORR s + 1) ∧ rd GG_STATUS.ECC_SEEN t = 1 := by
  have h := hCalm.1
  have hInc : (inc GG_ECC.UNCORR s).regsWf = true := regsWf_wr h _ _
  have hFrame : Frame {} (keysOf [GG_ECC.UNCORR, GG_STATUS.ECC_SEEN]) s (markBit GG_STATUS.ECC_SEEN (inc GG_ECC.UNCORR s)) :=
    ((Frame.refl _ _ s).inc _ (keysOf_mem (by simp))).markBit _ (keysOf_mem (by simp))
  have hCount : rd GG_ECC.UNCORR (markBit GG_STATUS.ECC_SEEN (inc GG_ECC.UNCORR s)) = sat GG_ECC.UNCORR (rd GG_ECC.UNCORR s + 1) := by
    rw [markBit, rd_markBits_ne hInc _ _ _ (by decide) (by decide), rd_inc_same h]
    rfl
  have hSeen : rd GG_STATUS.ECC_SEEN (markBit GG_STATUS.ECC_SEEN (inc GG_ECC.UNCORR s)) = 1 := rd_markBit_same hInc (by decide) (by decide)
  have hCalmNow := hFrame.calm (u := 16) h rfl rfl rfl (by decide) (by decide) hCalm
  obtain ⟨hLevel, -, hLeft⟩ := raiseFault_coach (u := 16) hCalmNow (f := ⟨0x05, 2, 0, 0, 0xFF, 0⟩) rfl (by simp) (fun _ => rfl) (takenLevel_gig _ _)
  refine ⟨_, ?_, hFrame.coachLevel h (by decide) (by decide) (by decide) (by decide) hLevel, ?_, ?_⟩
  · change execGigEccIdle s = _
    unfold execGigEccIdle
    rw [if_neg (by simp [hIdle, hOpen])]
    rfl
  · refine (hLeft _ (by decide) (by decide) (keysOf_eq_false.2 (levelFields_forall ?_ ?_ ?_)) (by decide)).trans hCount <;> decide
  · refine (hLeft _ (by decide) (by decide) (keysOf_eq_false.2 (levelFields_forall ?_ ?_ ?_)) (by decide)).trans hSeen <;> decide

/-- With no row, summary or frame that waits, a pass over them posts nothing (R38, R264, R290). -/
theorem postRows_still {n : Ctx} {s : State} (hRows : ∀ x ∈ rowsOf n s, x.posted = true ∨ x.dropped = true ∨ x.absorbed = false) : postRows n s = s := by
  refine each_induct (P := (· = s)) rfl fun _ _ v hv => ?_
  subst hv
  unfold postRow
  split
  · rfl
  · next r hFind =>
    have hOpen := List.find?_some hFind
    simp only [Bool.and_eq_true, Bool.not_eq_true'] at hOpen
    obtain hPosted | hDropped | hWaits := hRows r (List.mem_of_find?_eq_some hFind)
    · rw [hPosted] at hOpen
      simp at hOpen
    · rw [hDropped] at hOpen
      simp at hOpen
    · rw [hWaits]
      rfl

theorem sheetResume_still {s : State} (hWaits : s.noneWaits) : each allCtx (fun n t => each ((cx n t).summaries.map (·.sheet)) (summaryTry n) (postRows n t)) s = s := by
  refine each_induct (P := (· = s)) rfl fun n _ v hv => ?_
  subst hv
  obtain ⟨hRows, hSums⟩ := hWaits.2 n
  rw [postRows_still hRows, hSums]
  rfl

/-- A scrub that nothing waits for releases nothing. -/
theorem scrubRelease_still {s : State} (hHeld : s.mp.held = []) (hWaits : s.noneWaits) : scrubRelease s = s := by
  have hSame : ({ s with mp := { s.mp with held := [] }, tl := { s.tl with heldOut := [] } } : State) = s := by
    rw [← hHeld, ← hWaits.1]
  unfold scrubRelease
  rw [hHeld, hWaits.1]
  simp only [List.filter_nil, hSame]
  exact sheetResume_still hWaits

theorem takenLevel_frame {p : Parts} {K : Nat → Bool} {s v : State} (hFrame : Frame p K s v) (h : s.regsWf = true) (hFlt : p.flt = false)
    (hRec : ∀ u : Fin 21, K (GL_FLT_STATE.RECOVERING u.val).key = false) (hState : ∀ n : Ctx, K (GL_CTX_STATUS.STATE (cid n)).key = false)
    (hPart : ∀ n : Ctx, K (GL_CTX_STATUS.PARTITION (cid n)).key = false) (u : Fin 21) (f : FaultRec) : takenLevel u.val f v = takenLevel u.val f s := by
  have hOwn : (∀ u : Fin 21, ownKey (GL_FLT_STATE.RECOVERING u.val).key = false) ∧ (∀ n : Ctx, ownKey (GL_CTX_STATUS.STATE (cid n)).key = false) ∧
      ∀ n : Ctx, ownKey (GL_CTX_STATUS.PARTITION (cid n)).key = false := by decide
  have hRecs (d : Fin 21) : rdB (GL_FLT_STATE.RECOVERING d.val) v = rdB (GL_FLT_STATE.RECOVERING d.val) s := by rw [rdB, rdB, hFrame.regs h _ (hOwn.1 d) (hRec d)]
  have hStates (n : Ctx) : cxState n v = cxState n s := hFrame.regs h _ (hOwn.2.1 n) (hState n)
  have hParts (n : Ctx) : partMask n v = partMask n s := hFrame.regs h _ (hOwn.2.2 n) (hPart n)
  have hSet : faultSet u.val [] v = faultSet u.val [] s := by simp only [faultSet, hStates, hParts, List.foldl_nil]
  unfold takenLevel
  simp only [hSet, hRecs, hFrame.flt hFlt]


/-- The state in which a scrub has failed: it is counted twice, and the coach's scrub is over. -/
def scrubFailed (c : Coach) (s : State) : State :=
  modCo c (fun x => { x with scrubAt := none, scrubOld := 0, scrubNext := 0 }) (inc GL_SCRUB.FAIL (inc GL_SCRUB.COUNT s))

theorem scrubFailed_frame (c : Coach) (s : State) : Frame { coach := true, coaches := fun d => d == c } (keysOf [GL_SCRUB.COUNT, GL_SCRUB.FAIL]) s (scrubFailed c s) :=
  (((Frame.refl _ _ s).inc _ (keysOf_mem (by simp))).inc _ (keysOf_mem (by simp))).modCo rfl c (by simp) _

theorem scrubEnd_fails {c : Coach} {t0 : Nat} {s : State} (hCalm : s.calm c.val) (hAt : (co c s).scrubAt = some t0) (hTime : t0 + 5632 ≤ s.now)
    (hTaken : ∀ f, takenLevel c.val f s = f.level) (hHeld : s.mp.held = []) (hWaits : s.noneWaits) :
    ∃ t, exec (.scrubEnd c false) s = .next t ∧ s.coachLevel ⟨c.val, by omega⟩ 0x12 t ∧ rd GL_SCRUB.COUNT t = sat GL_SCRUB.COUNT (rd GL_SCRUB.COUNT s + 1) ∧
      rd GL_SCRUB.FAIL t = sat GL_SCRUB.FAIL (rd GL_SCRUB.FAIL s + 1) := by
  have h := hCalm.1
  have hInc : (inc GL_SCRUB.COUNT s).regsWf = true := regsWf_wr h _ _
  have hFrame := scrubFailed_frame c s
  have hCount : rd GL_SCRUB.COUNT (scrubFailed c s) = sat GL_SCRUB.COUNT (rd GL_SCRUB.COUNT s + 1) := by
    rw [scrubFailed, rd_modCo, rd_inc_ne hInc _ _ (by decide), rd_inc_same h]
    rfl
  have hFail : rd GL_SCRUB.FAIL (scrubFailed c s) = sat GL_SCRUB.FAIL (rd GL_SCRUB.FAIL s + 1) := by
    rw [scrubFailed, rd_modCo, rd_inc_same hInc, rd_inc_ne h _ _ (by decide)]
    rfl
  have hFields : (∀ u : Fin 21, keysOf [GL_SCRUB.COUNT, GL_SCRUB.FAIL] (GL_FLT_STATE.RECOVERING u.val).key = false) ∧
      (∀ n : Ctx, keysOf [GL_SCRUB.COUNT, GL_SCRUB.FAIL] (GL_CTX_STATUS.STATE (cid n)).key = false) ∧
      (∀ n : Ctx, keysOf [GL_SCRUB.COUNT, GL_SCRUB.FAIL] (GL_CTX_STATUS.PARTITION (cid n)).key = false) ∧
      ∀ u : Fin 21, keysOf [GL_SCRUB.COUNT, GL_SCRUB.FAIL] (GL_FLT_CNT.TOTAL u.val).key = false := by decide
  obtain ⟨hRec, hState, hPart, hTotal⟩ := hFields
  let u : Fin 17 := ⟨c.val, by omega⟩
  let w : Fin 21 := ⟨c.val, by omega⟩
  have hCalmNow : (scrubFailed c s).calm u.val := hFrame.calm (u := w) h rfl rfl rfl (hRec w) hState hCalm
  have hTakenNow : takenLevel u.val ⟨0x12, 2, 0, c.val, 0xFF, 0⟩ (scrubFailed c s) = 2 := (takenLevel_frame hFrame h rfl hRec hState hPart w _).trans (hTaken _)
  obtain ⟨hLevel, -, hLeft⟩ := raiseFault_coach (u := u) hCalmNow (f := ⟨0x12, 2, 0, c.val, 0xFF, 0⟩) rfl (by simp) (by simp) hTakenNow
  refine ⟨_, ?_, hFrame.coachLevel h (hTotal w) (by decide) (by decide) (by decide) hLevel, ?_, ?_⟩
  · have hReleased : scrubRelease (scrubFailed c s) = scrubFailed c s := scrubRelease_still hHeld hWaits
    change execScrubEnd c false s = _
    unfold execScrubEnd
    rw [hAt]
    dsimp only
    rw [if_neg (by omega), if_neg (by simp)]
    exact congrArg (fun v => Host.Outcome.next (raiseFault c.val ⟨0x12, 2, 0, c.val, 0xFF, 0⟩ v)) hReleased
  · refine (hLeft _ (by decide) (by decide) (keysOf_eq_false.2 (levelFields_forall ?_ ?_ ?_)) (by decide)).trans hCount <;> decide
  · refine (hLeft _ (by decide) (by decide) (keysOf_eq_false.2 (levelFields_forall ?_ ?_ ?_)) (by decide)).trans hFail <;> decide

/-- Settles O24: hangs and failed scrubs are taken at level COACH. -/
theorem hangsAndFailedScrubsAreTakenAtLevelCoach : Obligations.HangsAndFailedScrubsAreTakenAtLevelCoach := by
  unfold Obligations.HangsAndFailedScrubsAreTakenAtLevelCoach
  exact fun s => ⟨fun _ hCalm hDue hTaken => coachHang_taken hCalm hDue hTaken, fun _ hCalm hRun hMoves hLate => gigHang_taken hCalm hRun hMoves hLate,
    fun hCalm hIdle hOpen => gigEccIdle_taken hCalm hIdle hOpen,
    fun _ _ hCalm hAt hTime hTaken hHeld hWaits => scrubEnd_fails hCalm hAt hTime hTaken hHeld hWaits⟩

end Sys2Proof.Machine

/-! O25. A port of the memory that does not exist cannot hang (R485), and the refutation of O25. -/

namespace Sys2Proof.Machine

/-- The count of identifiers held by abandoned transactions, written at the place of a ninth port. -/
def ninthPortHeld : State := wr (MP_P_ORPHAN.HELD 8) 33 State.reset

/-- Refutes O25: a hang at index 8 of the ports is not taken, as the block has the ports 0 to 7 (R200); the statement speaks of all nine indices. -/
theorem not_hungUnitsAreTakenAtLevelBlock : ¬ Obligations.HungUnitsAreTakenAtLevelBlock := by
  unfold Obligations.HungUnitsAreTakenAtLevelBlock
  intro h
  have hCalm : ninthPortHeld.calm 17 := by
    unfold State.calm
    decide +kernel
  obtain ⟨t, hExec, -, -, -, -, -, -, -, b, hBlock, -⟩ := (h ninthPortHeld).1 8 hCalm (by decide +kernel)
  change execMemHung 8 ninthPortHeld = _ at hExec
  obtain rfl : ninthPortHeld = t := Host.Outcome.next.inj hExec
  rw [hCalm.2.2.1] at hBlock
  cases hBlock

end Sys2Proof.Machine

/-! O49. A digest message that ends while a read of its view still waits for the ports (R209, R435), and the refutation of O49. -/

namespace Sys2Proof.Machine

/-- The host owns the engine, its message has ended, and a read for its view has not been issued. -/
def endedReading : State :=
  let s := wrs [(DG_OWN.OWNER 0, 1), (DG_STATUS.ACTIVE 0, 1)] State.reset
  { s with
    dg := { s.dg with msgs := s.dg.msgs.set 0 { s.dg.msgs[0] with ended := true } }
    mp := { s.mp with own := [⟨0, false, 0, 15, 0, 1, 0, [], 0, 0, .chunk 0⟩] } }

/-- Refutes O49: the end of a message gives up the reads of its view that are still to be issued, so that the ports' state changes. -/
theorem not_digestEngineIsOwnedAndDigests : ¬ Obligations.DigestEngineIsOwnedAndDigests := by
  unfold Obligations.DigestEngineIsOwnedAndDigests
  intro h
  obtain ⟨-, -, -, -, -, -, -, -, -, -, -, -, -, -, -, hDone, -⟩ := h endedReading .host 0 rfl
  obtain ⟨t, hExec, -, -, -, -, -, hRest⟩ := hDone (by decide +kernel) (by decide +kernel) (by decide +kernel) (by decide +kernel) (by decide +kernel) (by decide)
  -- The end of the message gives the read up.
  have hNone : (match execDgDone endedReading with
      | .next t => t.mp.own.length
      | _ => 1) = 0 := by decide +kernel
  change execDgDone endedReading = _ at hExec
  rw [hExec] at hNone
  change t.mp.own.length = 0 at hNone
  have hMp : t.mp = endedReading.mp := by rw [hRest]
  rw [hMp] at hNone
  exact absurd hNone (by decide)

end Sys2Proof.Machine

/-! O26, O27. The responses at the ninth index of the ports are the initiator's (R211), and the refutations of O26 and O27. -/

namespace Sys2Proof.Machine

/-- A transaction of one beat that stands at the place of a ninth port. -/
def ninthPortTx (write : Bool) : Tx := ⟨8, 0, write, 1, 0, 0, 1, 0, 0, .other, 0, 0, 0, 0, false, false, 0, []⟩

def ninthPort (write : Bool) : State := { State.reset with mp := { State.reset.mp with txs := [ninthPortTx write] } }

/-- Refutes O26: a beat of read data at index 8 of the ports is the initiator's, and no port counts it; the statement speaks of all nine indices. -/
theorem not_readResponsesAreDelivered : ¬ Obligations.ReadResponsesAreDelivered := by
  unfold Obligations.ReadResponsesAreDelivered
  intro h
  obtain ⟨t, hExec, hCount, -⟩ := (h (ninthPort false) 8 ⟨0, 0, [], false⟩ (ninthPortTx false) (by decide +kernel) (by decide +kernel) rfl rfl).1 rfl rfl rfl
  change execMpReadResponse 8 ⟨0, 0, [], false⟩ (ninthPort false) = _ at hExec
  obtain rfl : initBeat 0 (ninthPort false) = t := Host.Outcome.next.inj hExec
  exact absurd hCount (by decide +kernel)

/-- Refutes O27: a write's response at index 8 of the ports is the initiator's, and finishes no transaction of a port; the statement speaks of all nine indices. -/
theorem not_writesBeatsAndWindowsEnd : ¬ Obligations.WritesBeatsAndWindowsEnd := by
  unfold Obligations.WritesBeatsAndWindowsEnd
  intro h
  obtain ⟨t, hExec, hGone, -⟩ := (h (ninthPort true) 8 (by decide +kernel)).1 0 (ninthPortTx true) (by decide +kernel) rfl rfl rfl (by decide)
  change execMpWriteDone 8 0 0 (ninthPort true) = _ at hExec
  obtain rfl : initWritten 0 (ninthPort true) = t := Host.Outcome.next.inj hExec
  exact absurd hGone (by decide +kernel)

end Sys2Proof.Machine

/-! O34. The refutation of O34: the responses at the ninth index of the ports are the initiator's (R211), those of halo writes too. -/

namespace Sys2Proof.Machine

/-- A write of a halo strip of context 1 that stands at the place of a ninth port, alone. -/
def ninthPortStrip : Tx := { ninthPortTx true with region := 1, waiting := 0 }
def ninthPortHalo : State := { State.reset with mp := { State.reset.mp with txs := [ninthPortStrip] } }

/-- Refutes O34: the response at index 8 of the ports is the initiator's, and finishes no halo write; the statement speaks of all nine indices. -/
theorem not_haloStripsAndSummariesPass : ¬ Obligations.HaloStripsAndSummariesPass := by
  unfold Obligations.HaloStripsAndSummariesPass
  intro h
  obtain ⟨-, -, hDone, -⟩ := h ninthPortHalo ninthPortHalo 0 idleFrame [] (by decide +kernel) (by decide +kernel)
  obtain ⟨t, hExec, hGone, -⟩ := hDone 0 ninthPortStrip 8 (by decide +kernel) rfl rfl rfl rfl rfl rfl rfl rfl
  change execMpWriteDone 8 0 0 ninthPortHalo = _ at hExec
  obtain rfl : initWritten 0 ninthPortHalo = t := Host.Outcome.next.inj hExec
  exact absurd hGone (by decide +kernel)

end Sys2Proof.Machine

/-! O28. The fence of a context at the ports completes, or what is left is abandoned (R224, R226, R256). -/

namespace Sys2Proof.Machine

/-- The count of transactions that a fence abandons, in the port's register and in the fence's. -/
def abandonOne (t : Tx) (s : State) : State := inc MP_FENCE.ABANDONED (inc (MP_P_ORPHAN.HELD t.port) s)

/-- What the fence's end writes when it abandons. -/
def abandonFields : List Fld := MP_FENCE.ABANDONED :: (List.range 8).map (fun q => MP_P_ORPHAN.HELD q)

theorem held_mem {q : Nat} (hq : q < 8) : MP_P_ORPHAN.HELD q ∈ abandonFields := List.mem_cons_of_mem _ (List.mem_map.2 ⟨q, List.mem_range.2 hq, rfl⟩)

theorem abandonOne_frame {t : Tx} (hPort : t.port < 8) (s : State) : Frame {} (keysOf abandonFields) s (abandonOne t s) :=
  ((Frame.refl _ _ s).inc _ (keysOf_mem (held_mem hPort))).inc _ (keysOf_mem List.mem_cons_self)

theorem held_apart : ∀ q : Fin 8, MP_FENCE.ABANDONED.key ≠ (MP_P_ORPHAN.HELD q.val).key := by decide

theorem rd_inc_le {s : State} (h : s.regsWf = true) (f g : Fld) : rd f (inc g s) ≤ rd f s + 1 := by
  by_cases hKey : f.key = g.key
  · have hSame : rd f (inc g s) = rd g (inc g s) := by rw [rd, rd, hKey]
    have hBase : rd f s = rd g s := by rw [rd, rd, hKey]
    rw [hSame, hBase, rd_inc_same h]
    omega
  · rw [rd_inc_ne h _ _ hKey]
    omega

/-- The counts of the transactions that are abandoned. -/
theorem abandonEach_counts {l : List Tx} (hPorts : ∀ x ∈ l, x.port < 8) {s : State} (h : s.regsWf = true) :
    (∀ k, sat MP_FENCE.ABANDONED (rd MP_FENCE.ABANDONED (each l abandonOne s) + k) = sat MP_FENCE.ABANDONED (rd MP_FENCE.ABANDONED s + l.length + k)) ∧
      ∀ q < 8, rd (MP_P_ORPHAN.HELD q) (each l abandonOne s) ≤ rd (MP_P_ORPHAN.HELD q) s + l.length := by
  induction l generalizing s with
  | nil => exact ⟨fun _ => rfl, fun _ _ => Nat.le_refl _⟩
  | cons x r ih =>
    have hPort := hPorts x List.mem_cons_self
    have hHeld : (inc (MP_P_ORPHAN.HELD x.port) s).regsWf = true := regsWf_wr h _ _
    have hOne : (abandonOne x s).regsWf = true := regsWf_wr hHeld _ _
    obtain ⟨hCount, hLeft⟩ := ih (fun y hy => hPorts y (List.mem_cons_of_mem _ hy)) hOne
    have hAbandoned : rd MP_FENCE.ABANDONED (abandonOne x s) = sat MP_FENCE.ABANDONED (rd MP_FENCE.ABANDONED s + 1) := by
      rw [abandonOne, rd_inc_same hHeld, rd_inc_ne h _ _ (held_apart ⟨x.port, hPort⟩)]
      rfl
    refine ⟨fun k => ?_, fun q hq => ?_⟩
    · change sat MP_FENCE.ABANDONED (rd MP_FENCE.ABANDONED (each r abandonOne (abandonOne x s)) + k) = _
      rw [hCount, hAbandoned, List.length_cons]
      simp only [sat]
      omega
    · change rd (MP_P_ORPHAN.HELD q) (each r abandonOne (abandonOne x s)) ≤ _
      have hStep : rd (MP_P_ORPHAN.HELD q) (abandonOne x s) ≤ rd (MP_P_ORPHAN.HELD q) s + 1 := by
        rw [abandonOne, rd_inc_ne hHeld _ _ (held_apart ⟨q, hq⟩).symm]
        exact rd_inc_le h _ _
      have hRest := hLeft q hq
      rw [List.length_cons]
      omega

/-- A transaction of a context once the fence has abandoned it. -/
def abandonTx (n : Ctx) (x : Tx) : Tx := if x.ctx == cid n && !x.abandoned then { x with abandoned := true } else x

theorem abandonTx_abandoned (n : Ctx) (x : Tx) (hCtx : (abandonTx n x).ctx = cid n) : (abandonTx n x).abandoned = true := by
  by_cases hOpen : (x.ctx == cid n && !x.abandoned) = true
  · rw [abandonTx, if_pos hOpen]
  · rw [abandonTx, if_neg hOpen] at hCtx ⊢
    simp only [hCtx, beq_self_eq_true, Bool.true_and, Bool.not_eq_true', Bool.not_eq_false] at hOpen
    exact hOpen

/-- The fence's end, with no port over its limit of identifiers (R226 step 3). -/
theorem abandon_calm {n : Ctx} {s : State} (h : s.regsWf = true) (hPorts : ∀ x ∈ s.mp.txs, x.port < 8)
    (hHeld : ∀ q < 8, rd (MP_P_ORPHAN.HELD q) s + (txsOf (cid n) s).length ≤ 32) :
    abandon (fun x => x.ctx == cid n) s = each (txsOf (cid n) s) abandonOne { s with mp := { s.mp with txs := s.mp.txs.map (abandonTx n) } } := by
  have hTxs : ∀ x ∈ txsOf (cid n) s, x.port < 8 := fun x hx => hPorts x (List.mem_filter.1 hx).1
  let v : State := { s with mp := { s.mp with txs := s.mp.txs.map (abandonTx n) } }
  have hCalm : (List.range 8).any (fun q => heldHung q (each (txsOf (cid n) s) abandonOne v)) = false := by
    refine List.any_eq_false.2 fun q hq => ?_
    have hLeft := (abandonEach_counts hTxs (s := v) h).2 q (List.mem_range.1 hq)
    have hLimit := hHeld q (List.mem_range.1 hq)
    have hBase : rd (MP_P_ORPHAN.HELD q) v = rd (MP_P_ORPHAN.HELD q) s := rfl
    simp only [heldHung, decide_eq_true_eq]
    omega
  change (if (List.range 8).any (fun q => heldHung q (each (txsOf (cid n) s) abandonOne v)) && !rdB (GL_FLT_STATE.RECOVERING 17) (each (txsOf (cid n) s) abandonOne v) then _
    else each (txsOf (cid n) s) abandonOne v) = _
  rw [hCalm]
  rfl

theorem fenceDrainTimeout_abandons {n : Ctx} {t0 : Nat} {s : State} (h : s.regsWf = true) (hState : cxState n s ≠ 5) (hAt : (cx n s).fenceAt = some t0)
    (hTime : t0 + us 50 ≤ s.now) (hPorts : ∀ x ∈ s.mp.txs, x.port < 8) (hHeld : ∀ q < 8, rd (MP_P_ORPHAN.HELD q) s + (txsOf (cid n) s).length ≤ 32) :
    ∃ t, exec (.fenceDrainTimeout n) s = .next t ∧ (∀ x ∈ t.mp.txs, x.ctx = cid n → x.abandoned = true) ∧ txsOf (cid n) t = [] ∧
      t.mp.inits = s.mp.inits.filter (fun x => x.ctx != cid n) ∧
      rd MP_FENCE.ABANDONED t = sat MP_FENCE.ABANDONED (rd MP_FENCE.ABANDONED s + (txsOf (cid n) s).length + (s.mp.inits.filter (fun x => x.ctx == cid n)).length) ∧
      s.kept (MP_FENCE.ABANDONED :: (List.range 8).map (fun q => MP_P_ORPHAN.HELD q)) t ∧ t = { s with regs := t.regs, mp := { s.mp with txs := t.mp.txs, inits := t.mp.inits } } := by
  have hTxs : ∀ x ∈ txsOf (cid n) s, x.port < 8 := fun x hx => hPorts x (List.mem_filter.1 hx).1
  let v : State := { s with mp := { s.mp with txs := s.mp.txs.map (abandonTx n) } }
  have hEach : Frame {} (keysOf abandonFields) v (each (txsOf (cid n) s) abandonOne v) :=
    Frame.each _ (fun x hx w hw => hw.trans (abandonOne_frame (hTxs x hx) w)) (Frame.refl _ _ v)
  have hCounts := (abandonEach_counts hTxs (s := v) h).1
  have hAbandon : abandon (fun x => x.ctx == cid n) s = each (txsOf (cid n) s) abandonOne v := abandon_calm h hPorts hHeld
  generalize each (txsOf (cid n) s) abandonOne v = w at hEach hCounts hAbandon
  have hMp : w.mp = v.mp := hEach.mp rfl
  have hW := hEach.wf h
  let t : State := add MP_FENCE.ABANDONED (w.mp.inits.filter (fun x => x.ctx == cid n)).length { w with mp := { w.mp with inits := w.mp.inits.filter (fun x => x.ctx != cid n) } }
  have hFrame : Frame { mp := true } (keysOf abandonFields) s t := by
    have hMapped : Frame { mp := true } (keysOf abandonFields) s v := (Frame.refl _ _ s).mpUpd rfl _
    have hAbandoned := hMapped.trans (hEach.mono (v := { mp := true }) (by constructor <;> simp) fun _ hk => hk)
    exact (hAbandoned.mpUpd rfl _).add _ _ (keysOf_mem List.mem_cons_self)
  have hApart : ∀ m : Ctx, ownKey (GL_CTX_STATUS.STATE (cid m)).key = false ∧ keysOf abandonFields (GL_CTX_STATUS.STATE (cid m)).key = false := by decide
  have hStay : cxState n t = cxState n s := hFrame.regs h _ (hApart n).1 (hApart n).2
  have hTx : t.mp.txs = s.mp.txs.map (abandonTx n) := congrArg (fun m => m.txs) hMp
  have hInits : w.mp.inits = s.mp.inits := congrArg (fun m => m.inits) hMp
  have hAll : ∀ x ∈ t.mp.txs, x.ctx = cid n → x.abandoned = true := by
    intro x hx hCtx
    rw [hTx] at hx
    obtain ⟨y, -, rfl⟩ := List.mem_map.1 hx
    exact abandonTx_abandoned n y hCtx
  refine ⟨t, ?_, hAll, ?_, congrArg (List.filter _) hInits, ?_, hFrame.kept h, ?_⟩
  · change execFenceDrainTimeout n s = _
    unfold execFenceDrainTimeout
    rw [hAt]
    dsimp only
    rw [if_neg (by omega), hAbandon]
    change Host.Outcome.next (if cxState n t == 5 then tearFenced n t else t) = _
    rw [if_neg (by simpa [hStay] using hState)]
  · refine List.filter_eq_nil_iff.2 fun x hx => ?_
    by_cases hCtx : x.ctx = cid n
    · simp [hAll x hx hCtx]
    · simp [hCtx]
  · have hAdded : rd MP_FENCE.ABANDONED t = sat MP_FENCE.ABANDONED (rd MP_FENCE.ABANDONED w + (w.mp.inits.filter (fun x => x.ctx == cid n)).length) := rd_add_same (s := { w with mp := _ }) hW _ _
    rw [hAdded, hCounts, hInits]
    rfl
  · have hEq : t = { s with regs := t.regs, mp := t.mp } := hFrame.eq
    have hParts : t.mp = { s.mp with txs := t.mp.txs, inits := t.mp.inits } := by
      change { w.mp with inits := w.mp.inits.filter (fun x => x.ctx != cid n) } = { s.mp with txs := w.mp.txs, inits := w.mp.inits.filter (fun x => x.ctx != cid n) }
      rw [hMp]
    calc t = { s with regs := t.regs, mp := t.mp } := hEq
      _ = _ := by rw [← hParts]

end Sys2Proof.Machine

/-! O28. What the end of a teardown leaves of the context that is torn down (R224, R256). -/

namespace Sys2Proof.Machine

/-- A context whose key is gone and whose fence is over, in TORN_DOWN, QUARANTINE or FREE. -/
structure TornAs (n : Ctx) (v : State) : Prop where
  wf : v.regsWf = true
  key : (cx n v).key = []
  fence : (cx n v).fenceAt = none
  state : cxState n v = 6 ∨ cxState n v = 7 ∨ cxState n v = 0

theorem TornAs.ite {n : Ctx} {c : Prop} [Decidable c] {a b : State} (ha : TornAs n a) (hb : TornAs n b) : TornAs n (if c then a else b) := by
  split
  · exact ha
  · exact hb

/-- A state field written, with others of the context. -/
theorem TornAs.enter {n : Ctx} (l : List (Fld × Nat)) (x : Nat) (hx : x = 7 ∨ x = 0) (hNodup : (((GL_CTX_STATUS.STATE (cid n), x) :: l).map (·.1.key)).Nodup) {t : State}
    (ht : t.regsWf = true) (hKey : (cx n t).key = []) (hFence : (cx n t).fenceAt = none) : TornAs n (Machine.wrs ((GL_CTX_STATUS.STATE (cid n), x) :: l) t) := by
  have hFrame : Frame {} allKeys t (Machine.wrs ((GL_CTX_STATUS.STATE (cid n), x) :: l) t) := Frame.wrs _ (fun _ _ => rfl) (Frame.refl _ _ t)
  have hCx : cx n (Machine.wrs ((GL_CTX_STATUS.STATE (cid n), x) :: l) t) = cx n t := by rw [cx, cx, hFrame.ctx rfl]
  have hState : cxState n (Machine.wrs ((GL_CTX_STATUS.STATE (cid n), x) :: l) t) = x % 2 ^ 3 := rd_wrs_nodup hNodup ht List.mem_cons_self
  refine ⟨hFrame.wf ht, by rw [hCx, hKey], by rw [hCx, hFence], ?_⟩
  rw [hState]
  obtain rfl | rfl := hx
  · exact .inr (.inl rfl)
  · exact .inr (.inr rfl)

section
variable {n : Ctx} {v : State} (h : TornAs n v)
include h

theorem TornAs.frame {u : Parts} {K : Nat → Bool} {t : State} (hFrame : Frame u K v t) (hCtx : u.ctx = false) (hK : K (GL_CTX_STATUS.STATE (cid n)).key = false) : TornAs n t := by
  have hOwn : ∀ n : Ctx, ownKey (GL_CTX_STATUS.STATE (cid n)).key = false := by decide
  have hState : cxState n t = cxState n v := hFrame.regs h.wf _ (hOwn n) hK
  have hCx : cx n t = cx n v := by rw [cx, cx, hFrame.ctx hCtx]
  exact ⟨hFrame.wf h.wf, by rw [hCx, h.key], by rw [hCx, h.fence], by rw [hState]; exact h.state⟩

theorem TornAs.wr (f : Fld) (x : Nat) (hf : (GL_CTX_STATUS.STATE (cid n)).key ≠ f.key) : TornAs n (Machine.wr f x v) :=
  h.frame (u := {}) (K := keysOf [f]) ((Frame.refl _ _ v).wr f x (keysOf_mem (List.mem_singleton_self _))) rfl
    (keysOf_eq_false.2 fun g hg => by rwa [List.mem_singleton.1 hg])

theorem TornAs.wrs (l : List (Fld × Nat)) (hl : ∀ x ∈ l, (GL_CTX_STATUS.STATE (cid n)).key ≠ x.1.key) : TornAs n (Machine.wrs l v) :=
  h.frame (u := {}) (K := keysOf (l.map (·.1))) (Frame.wrs l (fun x hx => keysOf_mem (List.mem_map.2 ⟨x, hx, rfl⟩)) (Frame.refl _ _ v)) rfl
    (keysOf_eq_false.2 fun g hg => by
      obtain ⟨x, hx, rfl⟩ := List.mem_map.1 hg
      exact hl x hx)

theorem TornAs.modCo (c : Coach) (g : CoachSt → CoachSt) : TornAs n (Machine.modCo c g v) :=
  h.frame (u := { coach := true, coaches := fun _ => true }) (K := keysOf []) ((Frame.refl _ _ v).modCo rfl c rfl g) rfl rfl

theorem TornAs.modCx (m : Ctx) (g : CtxSt → CtxSt) (hg : ∀ x, (g x).key = x.key ∧ (g x).fenceAt = x.fenceAt) : TornAs n (Machine.modCx m g v) := by
  by_cases hm : n = m
  · subst hm
    exact ⟨h.wf, by rw [cx_modCx, (hg _).1, h.key], by rw [cx_modCx, (hg _).2, h.fence], h.state⟩
  · exact ⟨h.wf, by rw [cx_modCx_ne n m g v hm, h.key], by rw [cx_modCx_ne n m g v hm, h.fence], h.state⟩

theorem TornAs.msg {t : State} (hFrame : Frame { pw := true, mb := true } (msgOr []) v t) : TornAs n t := by
  have hMsg : ∀ n : Ctx, msgKey (GL_CTX_STATUS.STATE (cid n)).key = false := by decide
  exact h.frame hFrame rfl (msgOr_nil (hMsg n))

theorem TornAs.notice (a b c : Nat) (l : List Nat) : TornAs n (Machine.notice a b c l v) := h.msg ((Frame.refl _ _ v).notice rfl rfl (msgIn_msgOr []) a b c l)

theorem TornAs.raise (k : Nat) : TornAs n (Machine.raise k v) := h.msg ((Frame.refl _ _ v).raise rfl (msgIn_msgOr []).ev k)

theorem TornAs.settle : TornAs n (Machine.settle v) := h.msg ((Frame.refl _ _ v).settle rfl (msgIn_msgOr []).ev)

theorem TornAs.each {α : Type} (l : List α) {g : α → State → State} (hg : ∀ x ∈ l, ∀ t, TornAs n t → TornAs n (g x t)) : TornAs n (Machine.each l g v) := each_induct h hg

theorem TornAs.coachTake (c : Coach) (m : Ctx) : TornAs n (coachTake c m v) := by
  have hFields : ∀ n : Ctx, ∀ c : Coach, ∀ f ∈ [CA_STATUS.STATE c.val, CA_STATUS.CTX c.val, ownF c], (GL_CTX_STATUS.STATE (cid n)).key ≠ f.key := by decide
  unfold Machine.coachTake
  dsimp only
  refine TornAs.ite (TornAs.wrs h _ fun x hx => hFields n c _ ?_) (TornAs.wrs (TornAs.modCo (TornAs.modCx h m _ fun x => ?_) c _) _ fun x hx => hFields n c _ ?_)
  · exact fst_mem (by simp) hx
  · split <;> exact ⟨rfl, rfl⟩
  · exact fst_mem (by simp) hx

theorem TornAs.coachFree (c : Coach) : TornAs n (coachFree c v) := by
  have hFields : ∀ n : Ctx, ∀ c : Coach, ∀ f ∈ [CA_STATUS.STATE c.val, CA_STATUS.CTX c.val, ownF c], (GL_CTX_STATUS.STATE (cid n)).key ≠ f.key := by decide
  unfold Machine.coachFree
  split
  · exact h.coachTake c _
  · refine h.wrs _ fun x hx => hFields n c _ ?_
    exact fst_mem (by simp) hx

theorem TornAs.restoreBegin (c : Coach) (m : Ctx) (r : Nat) : TornAs n (restoreBegin c m r v) := by
  have hField : ∀ n : Ctx, ∀ c : Coach, (GL_CTX_STATUS.STATE (cid n)).key ≠ (CA_STATUS.STATE c.val).key := by decide
  have hState := h.wr (CA_STATUS.STATE c.val) 3 (hField n c)
  unfold Machine.restoreBegin
  dsimp only
  split
  · exact hState.modCo c _
  · exact hState.modCo c _

theorem TornAs.armSlot (a b c d : Nat) : TornAs n (armSlot a b c d v) := by
  have hApart : ∀ n : Ctx, slotKey (GL_CTX_STATUS.STATE (cid n)).key = false := by decide
  exact h.frame (u := { tt := true }) (K := slotKey) ((Frame.refl _ _ v).armSlot rfl (fun _ hk => hk) a b c d) rfl (hApart n)

theorem TornAs.sliceBegin (m : Ctx) : TornAs n (sliceBegin m v) := by
  have hField : ∀ n m : Ctx, (GL_CTX_STATUS.STATE (cid n)).key ≠ (GL_CTX_DEBT.CARRIED (cid m)).key := by decide
  unfold Machine.sliceBegin
  dsimp only
  have hBegun (x : Nat) (g : CtxSt → CtxSt) (hg : ∀ y, (g y).key = y.key ∧ (g y).fenceAt = y.fenceAt) : TornAs n (Machine.modCx m g (Machine.wr (GL_CTX_DEBT.CARRIED (cid m)) x v)) :=
    (h.wr _ x (hField n m)).modCx m g hg
  refine TornAs.ite h (TornAs.ite (TornAs.armSlot ?_ _ _ _ _) ?_)
  · exact hBegun _ _ fun _ => ⟨rfl, rfl⟩
  · exact hBegun _ _ fun _ => ⟨rfl, rfl⟩

theorem TornAs.takeCoaches (m : Ctx) : TornAs n (takeCoaches m v) := by
  have hField : ∀ n m : Ctx, (GL_CTX_STATUS.STATE (cid n)).key ≠ (GL_CTX_STATUS.RESIDENT (cid m)).key := by decide
  unfold Machine.takeCoaches
  dsimp only
  refine TornAs.ite (TornAs.sliceBegin (TornAs.each (h.wr _ _ (hField n m)) _ fun c _ t ht => ht.coachTake c m) m) ?_
  exact TornAs.modCx (TornAs.each h _ fun c _ t ht => ht.restoreBegin c m _) m _ fun _ => ⟨rfl, rfl⟩

theorem TornAs.passCoaches (a m : Nat) : TornAs n (passCoaches a m v) := by
  unfold Machine.passCoaches
  refine TornAs.ite h ?_
  split
  · exact h.takeCoaches _
  · exact h.each _ fun c _ t ht => ht.coachFree c

theorem TornAs.tornNotice (m : Ctx) (k : Nat) (p : List Nat) : TornAs n (tornNotice m k p v) := TornAs.ite (h.notice _ _ _ _) (h.modCx m _ fun _ => ⟨rfl, rfl⟩)

theorem TornAs.chargeOverrun (c : Coach) (m : Ctx) (p : ProgPos) (ref : Bool) : TornAs n (chargeOverrun c m p ref v) := by
  have hFields : ∀ n m : Ctx, keysOf [GL_WB_OVERRUN.COUNT (cid m)] (GL_CTX_STATUS.STATE (cid n)).key = false ∧ keysOf [GL_WB_STATUS.OVERRUN_SEEN (cid m)] (GL_CTX_STATUS.STATE (cid n)).key = false ∧
      ∀ f ∈ [GL_WB_OVERRUN.LAST_STAGE (cid m), GL_WB_OVERRUN.LAST_COACH (cid m)], (GL_CTX_STATUS.STATE (cid n)).key ≠ f.key := by decide
  obtain ⟨hCount, hSeen, hLast⟩ := hFields n m
  have hInc : TornAs n (inc (GL_WB_OVERRUN.COUNT (cid m)) v) := h.frame (u := {}) ((Frame.refl _ _ v).inc _ (keysOf_mem (List.mem_singleton_self _))) rfl hCount
  have hMarked : TornAs n (markBit (GL_WB_STATUS.OVERRUN_SEEN (cid m)) (Machine.raise 74 (inc (GL_WB_OVERRUN.COUNT (cid m)) v))) :=
    (hInc.raise 74).frame (u := {}) ((Frame.refl _ _ _).markBit _ (keysOf_mem (List.mem_singleton_self _))) rfl hSeen
  have hShown := hMarked.wrs [(GL_WB_OVERRUN.LAST_STAGE (cid m), p.prevStage), (GL_WB_OVERRUN.LAST_COACH (cid m), c.val)] fun x hx => hLast _ (fst_mem (by simp) hx)
  unfold Machine.chargeOverrun
  dsimp only
  generalize Machine.wrs [(GL_WB_OVERRUN.LAST_STAGE (cid m), p.prevStage), (GL_WB_OVERRUN.LAST_COACH (cid m), c.val)] _ = w at hShown ⊢
  have hRow : TornAs n (if ref then Machine.modCx m (fun x => { x with refOverrun := true }) w else modRow m p.prevRow (fun r => { r with overrun := true }) w) :=
    TornAs.ite (hShown.modCx m _ fun _ => ⟨rfl, rfl⟩) (hShown.modCx m _ fun _ => ⟨rfl, rfl⟩)
  exact TornAs.ite (hRow.notice _ _ _ _) hRow

theorem TornAs.episodeEnd (u : Nat) (hu : u < 21) : TornAs n (episodeEnd u v) := by
  have hField : ∀ n : Ctx, ∀ u : Fin 21, (GL_CTX_STATUS.STATE (cid n)).key ≠ (GL_FLT_STATE.RECOVERING u.val).key := by decide
  have hShown := h.wr (GL_FLT_STATE.RECOVERING u) 0 (hField n ⟨u, hu⟩)
  unfold Machine.episodeEnd
  dsimp only
  rw [dif_pos hu]
  exact TornAs.settle ⟨hShown.wf, hShown.key, hShown.fence, hShown.state⟩

theorem TornAs.showSliced : TornAs n (showSliced v) := by
  have hFields : ∀ n m : Ctx, ∀ f ∈ [GL_CTX_STATUS.SLICED (cid m), GL_CTX_SLICE.LEN (cid m), GL_CTX_SLICE.UNIT (cid m)], (GL_CTX_STATUS.STATE (cid n)).key ≠ f.key := by decide
  exact h.each _ fun m _ t ht => ht.wrs _ fun x hx => hFields n m _ (fst_mem (by simp) hx)

theorem TornAs.showGig : TornAs n (showGig v) := by
  have hField : ∀ n : Ctx, (GL_CTX_STATUS.STATE (cid n)).key ≠ GG_STATUS.STATE.key := by decide
  exact TornAs.ite h (h.wr _ _ (hField n))

theorem TornAs.quarantineTry : TornAs n (quarantineTry n v) := by
  have hNodup : ∀ n : Ctx, ([GL_CTX_STATUS.STATE (cid n), GL_CTX_STATUS.CONFIDENTIAL (cid n), SB_LEDGER_STATE.OPEN (cid n)].map Fld.key).Nodup := by decide
  refine TornAs.ite (TornAs.enter (n := n) [(GL_CTX_STATUS.CONFIDENTIAL (cid n), 0), (SB_LEDGER_STATE.OPEN (cid n), 0)] 0 (.inr rfl) (hNodup n) h.wf ?_ ?_) h
  · rw [cx_modCx]
    rfl
  · rw [cx_modCx]
    rfl

theorem TornAs.tearScrubbed : TornAs n (tearScrubbed n v) := by
  have hNodup : ∀ n : Ctx, ([GL_CTX_STATUS.STATE (cid n), GL_CTX_STATUS.PARTITION (cid n), GL_WB_STATUS.LOADED (cid n)].map Fld.key).Nodup := by decide
  have hField : ∀ n m : Ctx, (GL_CTX_STATUS.STATE (cid n)).key ≠ (GL_WB_OVERRUN.COUNT (cid m)).key := by decide
  unfold Machine.tearScrubbed
  dsimp only
  refine TornAs.ite h (TornAs.quarantineTry (TornAs.showGig (TornAs.showSliced ?_)))
  have hOrder := (h.tornNotice n 0x08 [cid n]).modCx n (fun c => { c with order := 0 }) fun _ => ⟨rfl, rfl⟩
  have hTorn := TornAs.enter (n := n) [(GL_CTX_STATUS.PARTITION (cid n), 0), (GL_WB_STATUS.LOADED (cid n), 0)] 7 (.inl rfl) (hNodup n) hOrder.wf hOrder.key hOrder.fence
  generalize Machine.wrs [(GL_CTX_STATUS.STATE (cid n), 7), (GL_CTX_STATUS.PARTITION (cid n), 0), (GL_WB_STATUS.LOADED (cid n), 0)]
      (Machine.modCx n (fun c => { c with order := 0 }) (Machine.tornNotice n 0x08 [cid n] v)) = w at hTorn ⊢
  have hEnded (x : State) (hx : TornAs n x) (l : List (Fin 21)) : TornAs n (Machine.each l (fun u => Machine.episodeEnd u.val) x) := hx.each l fun d _ t ht => ht.episodeEnd d.val d.isLt
  have hPassed (x : State) (hx : TornAs n x) (c : Prop) [Decidable c] (a b : Nat) : TornAs n (if c then x else Machine.passCoaches a b x) := TornAs.ite hx (hx.passCoaches a b)
  refine hPassed _ (hEnded _ ?_ _) _ _ _
  split
  · exact TornAs.ite (TornAs.ite hTorn (hTorn.chargeOverrun _ _ _ _)) hTorn
  · exact hTorn

end

end Sys2Proof.Machine

/-! SUPPORT. Coaches that begin a scrub (R262), one by one or in a set. -/

namespace Sys2Proof.Machine

/-- The fields of a coach that its scrub writes. -/
def scrubFields (c : Coach) : List Fld := [CA_STATUS.STATE c.val, CA_STATUS.CTX c.val, ownF c]

theorem scrubFields_nodup : ∀ c : Coach, ((scrubFields c).map Fld.key).Nodup := by decide

theorem scrubFields_apart : ∀ c d : Coach, c ≠ d → ∀ f ∈ scrubFields c, keysOf (scrubFields d) f.key = false := by decide

theorem scrubFields_own : ∀ c : Coach, ∀ f ∈ scrubFields c, ownKey f.key = false ∧ msgKey f.key = false := by decide

/-- A coach in its scrub since a cycle (R262). -/
structure ScrubsAt (c : Coach) (now : Nat) (v : State) : Prop where
  state : coachState c v = 4
  ctx : coachCtxId c v = 0
  own : rd (ownF c) v = 0
  at_ : (co c v).scrubAt = some now
  run : (co c v).run = none

/-- What a coach's scrub rests on is left where its fields and its own state are. -/
theorem ScrubsAt.frame {c : Coach} {now : Nat} {u : Parts} {K : Nat → Bool} {v t : State} (h : ScrubsAt c now v) (hFrame : Frame u K v t) (hv : v.regsWf = true) (hCo : u.coaches c = false)
    (hK : ∀ f ∈ scrubFields c, K f.key = false) : ScrubsAt c now t := by
  have hKept {f : Fld} (hf : f ∈ scrubFields c) : rd f t = rd f v := hFrame.regs hv f (scrubFields_own c f hf).1 (hK f hf)
  have hCoach := hFrame.coaches c hCo
  exact ⟨(hKept (by simp [scrubFields])).trans h.state, (hKept (by simp [scrubFields])).trans h.ctx, (hKept (by simp [scrubFields])).trans h.own, by rw [hCoach, h.at_], by rw [hCoach, h.run]⟩

/-- What the beginning of a coach's scrub changes. -/
def scrubParts (c : Coach) : Parts := { pw := true, coach := true, coaches := fun d => d == c }

theorem scrubStart_frame (c : Coach) (v : State) : Frame (scrubParts c) (keysOf (scrubFields c)) v (scrubStart c v) := by
  unfold scrubStart
  refine Frame.setCo rfl c (by simp [scrubParts]) _ (Frame.wrs _ (fun x hx => keysOf_mem ?_) (Frame.refl _ _ v))
  exact fst_mem (by simp [scrubFields]) hx

theorem scrubStart_scrubs {v : State} (h : v.regsWf = true) (c : Coach) : ScrubsAt c v.now (scrubStart c v) := by
  have hNodup : ([(CA_STATUS.STATE c.val, 4), (CA_STATUS.CTX c.val, 0), (ownF c, 0)].map (·.1.key)).Nodup := scrubFields_nodup c
  have hWritten {f : Fld} {x : Nat} (hx : (f, x) ∈ [(CA_STATUS.STATE c.val, 4), (CA_STATUS.CTX c.val, 0), (ownF c, 0)]) :
      rd f (wrs [(CA_STATUS.STATE c.val, 4), (CA_STATUS.CTX c.val, 0), (ownF c, 0)] v) = x % 2 ^ f.width := rd_wrs_nodup hNodup h hx
  have hNow : (wrs [(CA_STATUS.STATE c.val, 4), (CA_STATUS.CTX c.val, 0), (ownF c, 0)] v).now = v.now := rfl
  have hCo : co c (scrubStart c v) = { CoachSt.init with scrubAt := some v.now, ran := (co c v).ran } := co_setCo _ _ _
  refine ⟨?_, ?_, ?_, by rw [hCo], by rw [hCo]; rfl⟩
  · exact hWritten (f := CA_STATUS.STATE c.val) (x := 4) (by simp)
  · exact (hWritten (f := CA_STATUS.CTX c.val) (x := 0) (by simp)).trans (Nat.zero_mod _)
  · exact (hWritten (f := ownF c) (x := 0) (by simp)).trans (Nat.zero_mod _)

/-- What the beginning of the scrubs of a set changes. -/
def scrubSetParts (l : List Coach) : Parts := { pw := true, coach := true, coaches := fun d => l.contains d }

def scrubSetKeys (l : List Coach) (k : Nat) : Bool := evKey k || l.any (fun d => keysOf (scrubFields d) k)

section
variable {g : Coach → State → State} (hFrame : ∀ c v, Frame (scrubParts c) (evOr (scrubFields c)) v (g c v))
include hFrame

theorem scrubEach_frame (l : List Coach) (s : State) : Frame (scrubSetParts l) (scrubSetKeys l) s (each l g s) := by
  refine Frame.each _ (fun c hc v hv => hv.trans ((hFrame c v).mono ?_ fun k hk => ?_)) (Frame.refl _ _ s)
  · constructor <;> simp [scrubParts, scrubSetParts, hc]
  · obtain hk | hk := Bool.or_eq_true_iff.1 hk
    · simp [scrubSetKeys, hk]
    · exact Bool.or_eq_true_iff.2 (.inr (List.any_eq_true.2 ⟨c, hc, hk⟩))

omit hFrame in
theorem scrubSetKeys_apart {l : List Coach} {c : Coach} (hc : c ∉ l) (f : Fld) (hf : f ∈ scrubFields c) : scrubSetKeys l f.key = false := by
  refine Bool.or_eq_false_iff.2 ⟨evKey_of_msgKey (scrubFields_own c f hf).2, List.any_eq_false.2 fun d hd => ?_⟩
  have hNe : c ≠ d := fun hEq => hc (hEq ▸ hd)
  rw [scrubFields_apart c d hNe f hf]
  simp

/-- Each coach of a set whose scrubs begin in one cycle is in its scrub. -/
theorem scrubEach_scrubs {Q : Coach → CoachSt → Prop} (hScrubs : ∀ c v, v.regsWf = true → ScrubsAt c v.now (g c v) ∧ Q c (co c (g c v))) {l : List Coach} {c : Coach} (hc : c ∈ l)
    {s : State} (h : s.regsWf = true) : ScrubsAt c s.now (each l g s) ∧ Q c (co c (each l g s)) := by
  induction l generalizing s with
  | nil => cases hc
  | cons x r ih =>
    have hOne := (hFrame x s).wf h
    have hNow : (g x s).now = s.now := (hFrame x s).now
    change ScrubsAt c s.now (each r g (g x s)) ∧ Q c (co c (each r g (g x s)))
    by_cases hr : c ∈ r
    · rw [← hNow]
      exact ih hr hOne
    · obtain rfl : c = x := (List.mem_cons.1 hc).resolve_right hr
      obtain ⟨hAt, hQ⟩ := hScrubs c s h
      have hRest := scrubEach_frame hFrame r (g c s)
      have hOut : (scrubSetParts r).coaches c = false := by simp [scrubSetParts, hr]
      exact ⟨hAt.frame hRest hOne hOut (scrubSetKeys_apart hr), by rw [hRest.coaches c hOut]; exact hQ⟩

end

end Sys2Proof.Machine

/-! O51. A SVC_HELLO of the wrong length in an open staging session (R468, R471), and the refutation of O51. -/

namespace Sys2Proof.Machine

/-- A SVC_HELLO with one byte of payload. -/
def longHello : List Byte :=
  let head := [1, 0, 0, 0, 1, 0, 0, 0, 0, 0, 0, 0, 0, 0, 0, 0, 0]
  head ++ leBytes 4 (crc32 head).toNat

/-- The service port serves, and a staging session is open. -/
def stagingOpen : State := wrs [(PM_PWR_STATUS.ON 21, 1), (SB_STATUS.STAGE, 5), (SB_UPD_STATUS.SESSION, 1)] State.reset

/-- Refutes O51: a SVC_HELLO that is answered with BAD_LENGTH has ended the staging session before, so that registers change. -/
theorem not_servicePortRequestsAreServed : ¬ Obligations.ServicePortRequestsAreServed := by
  unfold Obligations.ServicePortRequestsAreServed
  intro h
  have hRequest : stagingOpen.svcRequest 1 longHello := by
    unfold State.svcRequest
    decide +kernel
  obtain ⟨-, -, -, -, -, -, -, -, -, -, -, hLen, -⟩ := h stagingOpen longHello (by decide +kernel)
  obtain ⟨t, hExec, -, hRegs, -⟩ := hLen (by decide +kernel) (1, .svcHello longHello) (by simp) hRequest
  -- The frame ends the session.
  have hEnds : (match execSvcHello longHello stagingOpen with
      | .next t => rd SB_UPD_STATUS.SESSION t
      | _ => 1) = 0 := by decide +kernel
  change execSvcHello longHello stagingOpen = _ at hExec
  rw [hExec] at hEnds
  change rd SB_UPD_STATUS.SESSION t = 0 at hEnds
  unfold rd at hEnds
  rw [hRegs] at hEnds
  revert hEnds
  decide +kernel

end Sys2Proof.Machine

/-! O28. FENCE_COMPLETE retires a context's slot and scrubs what holds its state (R224, R226, R256). -/

namespace Sys2Proof.Machine

/-- The coaches that hold the state of a context whose fence completes. -/
def heldCoaches (n : Ctx) (s : State) : List Coach := (coachesOf (partMask n s)).filter (fun c => (coachCtxId c s == cid n || bit (cx n s).scrubCoaches c.val) && domOn c.val s)

/-- The slot of a context is retired (R226 step 4). -/
def slotRetired (n : Ctx) (s : State) : State := wrs [(MP_FENCE.FENCING (cid n), 0), (MP_KEY_STATE.SLOT n.val, 2)] s

/-- A context whose key is gone with its fence. -/
def unkeyed (m : Nat) (c : CtxSt) : CtxSt := { c with key := [], fenceAt := none, abortFence := false, abortRx := false, scrubCoaches := m, bounce := { c.bounce with key := [] } }

/-- The context's teardown is announced. -/
def tornTold (n : Ctx) (m : Nat) (s : State) : State :=
  let s := raise 65 (raise 67 (wr (GL_CTX_STATUS.STATE (cid n)) 6 (modCx n (unkeyed m) s)))
  tornNotice n 0x07 [cid n + (cx n s).tearReason * 2 ^ 8, low32 (rd (GL_CTX_EPOCH.EPOCH (cid n)) s)] s

/-- A coach begins its scrub for a context that is torn down. -/
def tornScrub (old next : Nat) (c : Coach) (s : State) : State := modCo c (fun x => { x with scrubOld := old, scrubNext := next }) (scrubBegin c s)

/-- The state in which only the scrubs of a torn-down context are left. -/
def scrubsLeft (n : Ctx) (s : State) : State :=
  let v := tornTold n ((heldCoaches n s).map (fun c => 2 ^ c.val)).sum (slotRetired n s)
  pageScrub n (abortAnswer (cid n) (each (heldCoaches n s) (tornScrub (cid n) ((passTo (cx n v).order (partMask n v) v).elim 0 cid)) v))

theorem slotRetired_frame (n : Ctx) (s : State) : Frame {} (keysOf [MP_FENCE.FENCING (cid n), MP_KEY_STATE.SLOT n.val]) s (slotRetired n s) := by
  refine Frame.wrs _ (fun x hx => keysOf_mem ?_) (Frame.refl _ _ s)
  exact fst_mem (by simp) hx

theorem tearFenced_eq {s : State} (h : s.regsWf = true) (n : Ctx) : tearFenced n s = tearScrubbed n (scrubsLeft n s) := by
  have hFrame := slotRetired_frame n s
  have hPart : partMask n (slotRetired n s) = partMask n s := by
    have hApart : ∀ n : Ctx, ownKey (GL_CTX_STATUS.PARTITION (cid n)).key = false ∧ keysOf [MP_FENCE.FENCING (cid n), MP_KEY_STATE.SLOT n.val] (GL_CTX_STATUS.PARTITION (cid n)).key = false := by decide
    exact hFrame.regs h _ (hApart n).1 (hApart n).2
  have hCoachCtx (c : Coach) : coachCtxId c (slotRetired n s) = coachCtxId c s := by
    have hApart : ∀ n : Ctx, ∀ c : Coach, ownKey (CA_STATUS.CTX c.val).key = false ∧ keysOf [MP_FENCE.FENCING (cid n), MP_KEY_STATE.SLOT n.val] (CA_STATUS.CTX c.val).key = false := by decide
    exact hFrame.regs h _ (hApart n c).1 (hApart n c).2
  have hOn (c : Coach) : domOn c.val (slotRetired n s) = domOn c.val s := by
    have hApart : ∀ n : Ctx, ∀ c : Coach, ownKey (PM_PWR_STATUS.ON c.val).key = false ∧ keysOf [MP_FENCE.FENCING (cid n), MP_KEY_STATE.SLOT n.val] (PM_PWR_STATUS.ON c.val).key = false := by decide
    rw [domOn, domOn, rdB, rdB, hFrame.regs h _ (hApart n c).1 (hApart n c).2]
  have hCx : cx n (slotRetired n s) = cx n s := by rw [cx, cx, hFrame.ctx rfl]
  have hHeld : heldCoaches n (slotRetired n s) = heldCoaches n s := by
    simp only [heldCoaches, hPart, hCoachCtx, hOn, hCx]
  have hUnfolded : tearFenced n s = tearScrubbed n (pageScrub n (abortAnswer (cid n)
      (each (heldCoaches n (slotRetired n s)) (tornScrub (cid n) ((passTo (cx n (tornTold n ((heldCoaches n (slotRetired n s)).map (fun c => 2 ^ c.val)).sum (slotRetired n s))).order
        (partMask n (tornTold n ((heldCoaches n (slotRetired n s)).map (fun c => 2 ^ c.val)).sum (slotRetired n s)))
        (tornTold n ((heldCoaches n (slotRetired n s)).map (fun c => 2 ^ c.val)).sum (slotRetired n s))).elim 0 cid))
        (tornTold n ((heldCoaches n (slotRetired n s)).map (fun c => 2 ^ c.val)).sum (slotRetired n s))))) := rfl
  rw [hUnfolded, hHeld]
  rfl


/-- What the end of a teardown's fence can reach, pages of the Gig engine among it. -/
def fencedParts : Parts := { pw := true, mb := true, flt := true, ctx := true, coach := true, tt := true, gig := true, ctxs := fun _ => true, coaches := fun _ => true }

theorem fencedParts_hold : HoldParts fencedParts := ⟨⟨rfl, rfl, rfl, rfl, rfl, fun _ => rfl, fun _ => rfl⟩, rfl⟩

theorem holdIn_holdKey : HoldIn holdKey := fun _ hk => hk

theorem tornScrub_frame (old next : Nat) (c : Coach) (v : State) : Frame (scrubParts c) (evOr (scrubFields c)) v (tornScrub old next c v) := by
  have hOpened : Frame (scrubParts c) (evOr (scrubFields c)) v (fenceOpen c.val v) := (Frame.refl _ _ v).pwUpd rfl _
  have hStarted := hOpened.trans ((scrubStart_frame c (fenceOpen c.val v)).mono (v := scrubParts c) (Parts.Le.refl _) fun _ hk => Bool.or_eq_true_iff.2 (.inr hk))
  exact hStarted.modCo rfl c (by simp [scrubParts]) _

theorem tornScrub_scrubs (old next : Nat) (c : Coach) {v : State} (h : v.regsWf = true) : ScrubsAt c v.now (tornScrub old next c v) ∧ True := by
  refine ⟨?_, trivial⟩
  have hStart : ScrubsAt c v.now (scrubBegin c v) := scrubStart_scrubs (v := fenceOpen c.val v) h c
  have hCo : co c (tornScrub old next c v) = { co c (scrubBegin c v) with scrubOld := old, scrubNext := next } := co_modCo _ _ _
  exact ⟨hStart.state, hStart.ctx, hStart.own, by rw [hCo]; exact hStart.at_, by rw [hCo]; exact hStart.run⟩

theorem abortAnswer_frame {u : Parts} {K : Nat → Bool} {s t : State} (hPw : u.pw = true) (hMb : u.mb = true) (hK : MsgIn K) (id : Nat) (h : Frame u K s t) : Frame u K s (abortAnswer id t) := by
  unfold abortAnswer
  split
  · exact h.endDeferred hPw hMb hK _ _ _
  · exact h

/-- What a page scrub's beginning shows. -/
theorem pageScrub_frame {u : Parts} {K : Nat → Bool} {s t : State} (n : Ctx) (hGig : u.gig = true) (hCtx : u.ctx = true) (hn : u.ctxs n = true) (hK : K GG_STATUS.STATE.key = true)
    (h : Frame u K s t) : Frame u K s (pageScrub n t) := Frame.ite (Frame.showGig hK ((h.gigUpd hGig _).modCx hCtx n hn _)) h

theorem cx_pageScrub_scrubCoaches (n : Ctx) (s : State) : (cx n (pageScrub n s)).scrubCoaches = (cx n s).scrubCoaches := by
  unfold pageScrub
  split
  · have hShown (v : State) : cx n (showGig v) = cx n v := by rw [cx, cx, (Frame.showGig (u := {}) (K := allKeys) rfl (Frame.refl _ _ v)).ctx rfl]
    rw [hShown, cx_modCx]
    rfl
  · rfl

/-- The fields of what the teardown tells. -/
theorem tornTold_tells {s : State} (h : s.regsWf = true) (n : Ctx) (m : Nat) :
    Frame heldParts holdKey s (tornTold n m s) ∧ TornAs n (tornTold n m s) ∧ (cx n (tornTold n m s)).scrubCoaches = m ∧ cxState n (tornTold n m s) = 6 := by
  have hCx : cx n (wr (GL_CTX_STATUS.STATE (cid n)) 6 (modCx n (unkeyed m) s)) = unkeyed m (cx n s) := cx_modCx n _ s
  have hState : cxState n (wr (GL_CTX_STATUS.STATE (cid n)) 6 (modCx n (unkeyed m) s)) = 6 := rd_wr_same (s := modCx n (unkeyed m) s) h _ _
  have hTorn : TornAs n (wr (GL_CTX_STATUS.STATE (cid n)) 6 (modCx n (unkeyed m) s)) :=
    ⟨regsWf_wr (s := modCx n (unkeyed m) s) h _ _, by rw [hCx]; rfl, by rw [hCx]; rfl, .inl hState⟩
  have hScrub : (cx n (wr (GL_CTX_STATUS.STATE (cid n)) 6 (modCx n (unkeyed m) s))).scrubCoaches = m := by
    rw [hCx]
    rfl
  have hFrame : Frame heldParts holdKey s (wr (GL_CTX_STATUS.STATE (cid n)) 6 (modCx n (unkeyed m) s)) :=
    ((Frame.refl _ _ s).modCx rfl n rfl _).wr _ _ (holdIn_holdKey.ofCtx (n := n) (by simp))
  unfold tornTold
  dsimp only
  generalize wr (GL_CTX_STATUS.STATE (cid n)) 6 (modCx n (unkeyed m) s) = v at *
  have hRaised : Frame { pw := true } (msgOr []) v (raise 65 (raise 67 v)) := ((Frame.refl _ _ v).raise rfl (msgIn_msgOr []).ev 67).raise rfl (msgIn_msgOr []).ev 65
  have hTold := (hFrame.raise rfl holdIn_holdKey.msg.ev 67).raise rfl holdIn_holdKey.msg.ev 65
  have hTornNow := (hTorn.raise 67).raise 65
  have hKeep : ∀ n : Ctx, ownKey (GL_CTX_STATUS.STATE (cid n)).key = false ∧ msgKey (GL_CTX_STATUS.STATE (cid n)).key = false := by decide
  have hStateNow : cxState n (raise 65 (raise 67 v)) = 6 := (hRaised.regs hTorn.wf _ (hKeep n).1 (msgOr_nil (hKeep n).2)).trans hState
  have hScrubNow : (cx n (raise 65 (raise 67 v))).scrubCoaches = m := by rw [cx, hRaised.ctx rfl]; exact hScrub
  generalize raise 65 (raise 67 v) = w at *
  refine ⟨hTold.tornNotice heldParts_held holdIn_holdKey n _ _, hTornNow.tornNotice n _ _, ?_, ?_⟩
  · unfold tornNotice
    split
    · rw [cx, (Frame.notice (u := { pw := true, mb := true }) rfl rfl (msgIn_msgOr []) _ _ _ _ (Frame.refl _ _ w)).ctx rfl]
      exact hScrubNow
    · rw [cx_modCx]
      exact hScrubNow
  · unfold tornNotice
    split
    · exact (rd_notice hTornNow.wf _ _ _ _ (hKeep n).2).trans hStateNow
    · exact hStateNow


theorem scrubSetKeys_hold (l : List Coach) (k : Nat) (hk : scrubSetKeys l k = true) : holdKey k = true := by
  obtain hEv | hField := Bool.or_eq_true_iff.1 hk
  · exact holdIn_holdKey.msg k (by simp [msgKey, hEv])
  · obtain ⟨c, -, hc⟩ := List.any_eq_true.1 hField
    obtain ⟨f, hf, hEq⟩ := List.any_eq_true.1 hc
    exact beq_iff_eq.1 hEq ▸ holdIn_holdKey.ofCoach (c := c) hf

theorem scrubSetKeys_state (l : List Coach) (n : Ctx) : scrubSetKeys l (GL_CTX_STATUS.STATE (cid n)).key = false := by
  have hApart : ∀ n : Ctx, evKey (GL_CTX_STATUS.STATE (cid n)).key = false ∧ ∀ c : Coach, keysOf (scrubFields c) (GL_CTX_STATUS.STATE (cid n)).key = false := by decide
  refine Bool.or_eq_false_iff.2 ⟨(hApart n).1, List.any_eq_false.2 fun c _ => ?_⟩
  rw [(hApart n).2 c]
  simp

/-- The state in which only the scrubs are left: what it keeps, and the coaches in their scrub. -/
theorem scrubsLeft_facts {s : State} (h : s.regsWf = true) (n : Ctx) :
    Frame fencedParts holdKey (slotRetired n s) (scrubsLeft n s) ∧ TornAs n (scrubsLeft n s) ∧
      (cx n (scrubsLeft n s)).scrubCoaches = ((heldCoaches n s).map (fun c => 2 ^ c.val)).sum ∧ cxState n (scrubsLeft n s) = 6 ∧
      ∀ c ∈ heldCoaches n s, ScrubsAt c s.now (scrubsLeft n s) := by
  have hRetired := slotRetired_frame n s
  have hWf := hRetired.wf h
  have hNow := hRetired.now
  unfold scrubsLeft
  dsimp only
  generalize slotRetired n s = r at hWf hNow ⊢
  generalize ((heldCoaches n s).map (fun c => 2 ^ c.val)).sum = m
  generalize heldCoaches n s = l
  obtain ⟨hTold, hTorn, hScrub, hState⟩ := tornTold_tells hWf n m
  generalize tornTold n m r = v at *
  have hV := hTold.wf hWf
  have hEachFrame (next : Nat) := scrubEach_frame (tornScrub_frame (cid n) next) l v
  have hEach (next : Nat) {c : Coach} (hc : c ∈ l) : ScrubsAt c v.now (each l (tornScrub (cid n) next) v) :=
    (scrubEach_scrubs (tornScrub_frame (cid n) next) (Q := fun _ _ => True) (fun c _ hw => tornScrub_scrubs (cid n) next c hw) hc hV).1
  generalize hNext : (passTo (cx n v).order (partMask n v) v).elim 0 cid = next
  have hScrubFrame := hEachFrame next
  have hScrubs := fun c (hc : c ∈ l) => hEach next hc
  generalize each l (tornScrub (cid n) next) v = w at hScrubFrame hScrubs ⊢
  have hW := hScrubFrame.wf hV
  have hEnd : Frame { pw := true, mb := true, ctx := true, gig := true, ctxs := fun _ => true } (msgOr [GG_STATUS.STATE]) w (pageScrub n (abortAnswer (cid n) w)) :=
    pageScrub_frame n rfl rfl rfl (msgOr_mem (List.mem_singleton_self _)) (abortAnswer_frame rfl rfl (msgIn_msgOr _) _ (Frame.refl _ _ w))
  have hAnswered : Frame { pw := true, mb := true } (msgOr []) w (abortAnswer (cid n) w) := abortAnswer_frame rfl rfl (msgIn_msgOr _) _ (Frame.refl _ _ w)
  have hGigKeys : ∀ n : Ctx, ownKey (GL_CTX_STATUS.STATE (cid n)).key = false ∧ msgOr [GG_STATUS.STATE] (GL_CTX_STATUS.STATE (cid n)).key = false ∧
      ∀ c : Coach, ∀ f ∈ scrubFields c, msgOr [GG_STATUS.STATE] f.key = false := by decide
  refine ⟨?_, ?_, ?_, ?_, ?_⟩
  · refine ((hTold.mono (v := fencedParts) ?_ fun _ hk => hk).trans (hScrubFrame.mono ?_ (scrubSetKeys_hold l))).trans (hEnd.mono ?_ fun k hk => ?_)
    · constructor <;> simp [heldParts, fencedParts]
    · constructor <;> simp [scrubSetParts, fencedParts]
    · constructor <;> simp [fencedParts]
    · obtain hMsg | hGig := Bool.or_eq_true_iff.1 hk
      · exact holdIn_holdKey.msg k hMsg
      · obtain ⟨f, hf, hEq⟩ := List.any_eq_true.1 hGig
        rw [List.mem_singleton.1 hf] at hEq
        exact beq_iff_eq.1 hEq ▸ holdIn_holdKey.gig
  · have hScrubbed : TornAs n w := hTorn.frame hScrubFrame rfl (scrubSetKeys_state l n)
    have hAnsweredTorn : TornAs n (abortAnswer (cid n) w) := hScrubbed.msg hAnswered
    unfold pageScrub
    refine TornAs.ite (TornAs.showGig (TornAs.modCx ?_ n _ fun _ => ⟨rfl, rfl⟩)) hAnsweredTorn
    exact ⟨hAnsweredTorn.wf, hAnsweredTorn.key, hAnsweredTorn.fence, hAnsweredTorn.state⟩
  · rw [cx_pageScrub_scrubCoaches, cx, hAnswered.ctx rfl, hScrubFrame.ctx rfl]
    exact hScrub
  · have hKept : cxState n (pageScrub n (abortAnswer (cid n) w)) = cxState n w := hEnd.regs hW _ (hGigKeys n).1 (hGigKeys n).2.1
    have hKeptW : cxState n w = cxState n v := hScrubFrame.regs hV _ (hGigKeys n).1 (scrubSetKeys_state l n)
    rw [hKept, hKeptW, hState]
  · intro c hc
    rw [← hNow, ← hTold.now]
    exact (hScrubs c hc).frame hEnd hW rfl ((hGigKeys n).2.2 c)

theorem sum_two_pow_ne_zero {l : List Coach} {c : Coach} (hc : c ∈ l) : (l.map (fun c => 2 ^ c.val)).sum ≠ 0 := by
  have hMem : 2 ^ c.val ∈ l.map (fun c => 2 ^ c.val) := List.mem_map.2 ⟨c, hc, rfl⟩
  exact fun hZero => absurd (List.sum_eq_zero_iff_forall_eq_nat.1 hZero _ hMem) (Nat.ne_of_gt (Nat.two_pow_pos _))

theorem holdFields_windows : ∀ f ∈ holdFields, List.contains [0, 1, 2, 3, 4, 8] (f.key / 64 / 0x100000) = true := by
  have hCtx : ∀ n : Ctx, ∀ f ∈ overrunFields n ++ [GL_WB_OVERRUN.COUNT (cid n), GL_CTX_STATUS.STATE (cid n), GL_CTX_STATUS.PARTITION (cid n), GL_WB_STATUS.LOADED (cid n),
    GL_CTX_STATUS.RESIDENT (cid n), GL_CTX_STATUS.CONFIDENTIAL (cid n), GL_CTX_DEBT.CARRIED (cid n), GL_CTX_STATUS.SLICED (cid n), GL_CTX_SLICE.LEN (cid n),
    GL_CTX_SLICE.UNIT (cid n), SB_LEDGER_STATE.OPEN (cid n)], List.contains [0, 1, 2, 3, 4, 8] (f.key / 64 / 0x100000) = true := by decide
  have hCoach : ∀ c : Coach, ∀ f ∈ scrubFields c, List.contains [0, 1, 2, 3, 4, 8] (f.key / 64 / 0x100000) = true := by decide
  have hUnit : ∀ u : Fin 21, List.contains [0, 1, 2, 3, 4, 8] ((GL_FLT_STATE.RECOVERING u.val).key / 64 / 0x100000) = true := by decide
  intro f hf
  simp only [holdFields, List.mem_append, List.mem_flatMap, List.mem_map, List.mem_range, List.mem_singleton] at hf
  obtain ((⟨n, -, hf⟩ | ⟨c, -, hf⟩) | ⟨u, hu, rfl⟩) | rfl := hf
  · exact hCtx n f (List.mem_append.2 hf)
  · exact hCoach c f hf
  · exact hUnit ⟨u, hu⟩
  · decide

theorem holdKey_windows (k : Nat) (hk : holdKey k = true) : msgKey k = true ∨ List.contains [0, 1, 2, 3, 4, 8] (k / 64 / 0x100000) = true := by
  obtain hk | hField := Bool.or_eq_true_iff.1 hk
  · obtain hMsg | hSlot := Bool.or_eq_true_iff.1 hk
    · exact .inl hMsg
    · obtain ⟨hLow, hHigh⟩ := Bool.and_eq_true_iff.1 hSlot
      have hWindow : k / 64 / 0x100000 = 1 := by
        have hLowN := of_decide_eq_true hLow
        have hHighN := of_decide_eq_true hHigh
        omega
      exact .inr (by rw [hWindow]; rfl)
  · obtain ⟨f, hf, hEq⟩ := List.any_eq_true.1 hField
    exact .inr (beq_iff_eq.1 hEq ▸ holdFields_windows f hf)

theorem slot_apart : ∀ n : Ctx, ownKey (MP_KEY_STATE.SLOT n.val).key = false ∧ ownKey (MP_FENCE.FENCING (cid n)).key = false ∧
    (([(MP_FENCE.FENCING (cid n), 0), (MP_KEY_STATE.SLOT n.val, 2)] : List (Fld × Nat)).map (·.1.key)).Nodup := by decide

/-- The slots and fences of the ports are not among what a teardown's end writes. -/
theorem holdKey_ports : ∀ n : Ctx, holdKey (MP_KEY_STATE.SLOT n.val).key = false ∧ holdKey (MP_FENCE.FENCING (cid n)).key = false := by decide

theorem fenceComplete_tears {n : Ctx} {s : State} (h : s.regsWf = true) (hState : cxState n s = 5) (hFence : (cx n s).fenceAt.isSome = true) (hTxs : txsOf (cid n) s = [])
    (hInits : ∀ x ∈ s.mp.inits, x.ctx ≠ cid n) :
      ∃ t, exec (.fenceComplete n) s = .next t ∧ rd (MP_KEY_STATE.SLOT n.val) t = 2 ∧ rd (MP_FENCE.FENCING (cid n)) t = 0 ∧ (cx n t).key = [] ∧ (cx n t).fenceAt = none ∧
        (cxState n t = 6 ∨ cxState n t = 7 ∨ cxState n t = 0) ∧
        ((∃ c, bit (partMask n s) c.val = true ∧ coachCtxId c s = cid n ∧ domOn c.val s = true) → cxState n t = 6 ∧
          ∀ c, bit (partMask n s) c.val = true → coachCtxId c s = cid n → domOn c.val s = true → coachState c t = 4 ∧ coachCtxId c t = 0 ∧
            (co c t).scrubAt = some s.now ∧ (co c t).run = none) ∧
        s.keptWin [0, 1, 2, 3, 4, 8] t ∧ t.otp = s.otp ∧ t.mp = s.mp ∧ t.out = s.out := by
  obtain ⟨hLeft, hTorn, hScrub, hStateLeft, hScrubs⟩ := scrubsLeft_facts h n
  have hRetired := slotRetired_frame n s
  have hWf := hRetired.wf h
  have hFrame : Frame fencedParts holdKey (slotRetired n s) (tearScrubbed n (scrubsLeft n s)) := hLeft.tearScrubbed fencedParts_hold holdIn_holdKey n
  have hTornNow : TornAs n (tearScrubbed n (scrubsLeft n s)) := hTorn.tearScrubbed
  obtain ⟨hSlotOwn, hFenceOwn, hNodup⟩ := slot_apart n
  obtain ⟨hSlotKey, hFenceKey⟩ := holdKey_ports n
  have hSlot : rd (MP_KEY_STATE.SLOT n.val) (slotRetired n s) = 2 := rd_wrs_nodup (v := 2) hNodup h (by simp)
  have hFencing : rd (MP_FENCE.FENCING (cid n)) (slotRetired n s) = 0 := rd_wrs_nodup (v := 0) hNodup h (by simp)
  refine ⟨tearScrubbed n (scrubsLeft n s), ?_, (hFrame.regs hWf _ hSlotOwn hSlotKey).trans hSlot, (hFrame.regs hWf _ hFenceOwn hFenceKey).trans hFencing, hTornNow.key, hTornNow.fence,
    hTornNow.state, ?_, ?_, (hFrame.otp rfl).trans (hRetired.otp rfl), (hFrame.mp rfl).trans (hRetired.mp rfl), (hFrame.out rfl).trans (hRetired.out rfl)⟩
  · have hNoInits : s.mp.inits.any (fun t => t.ctx == cid n) = false := List.any_eq_false.2 fun x hx => by simpa using hInits x hx
    change execFenceComplete n s = _
    unfold execFenceComplete
    rw [if_pos (by simp [hState, hFence, hTxs, hNoInits]), tearFenced_eq h]
  · rintro ⟨c, hBit, hCtx, hOn⟩
    have hMem {d : Coach} (hBit : bit (partMask n s) d.val = true) (hCtx : coachCtxId d s = cid n) (hOn : domOn d.val s = true) : d ∈ heldCoaches n s :=
      List.mem_filter.2 ⟨List.mem_filter.2 ⟨List.mem_finRange d, hBit⟩, by simp [hCtx, hOn]⟩
    have hStill : tearScrubbed n (scrubsLeft n s) = scrubsLeft n s := by
      have hSome : ((cx n (scrubsLeft n s)).scrubCoaches == 0) = false := beq_eq_false_iff_ne.2 (by rw [hScrub]; exact sum_two_pow_ne_zero (hMem hBit hCtx hOn))
      unfold tearScrubbed
      rw [if_pos (by simp [hSome])]
    rw [hStill]
    refine ⟨hStateLeft, fun d hBit hCtx hOn => ?_⟩
    have hAt := hScrubs d (hMem hBit hCtx hOn)
    exact ⟨hAt.state, hAt.ctx, hAt.at_, hAt.run⟩
  · intro f hMsg hWin
    have hOwn : ownKey f.key = false := Bool.eq_false_iff.2 fun k => by simp [msgKey, evKey_of_own k] at hMsg
    have hHold : holdKey f.key = false := Bool.eq_false_iff.2 fun hk => by
      obtain hm | hw := holdKey_windows _ hk
      · rw [hMsg] at hm
        cases hm
      · rw [hWin] at hw
        cases hw
    have hPorts : ∀ n : Ctx, ∀ g ∈ [MP_FENCE.FENCING (cid n), MP_KEY_STATE.SLOT n.val], g.key / 64 / 0x100000 = 4 := by decide
    have hOut : keysOf [MP_FENCE.FENCING (cid n), MP_KEY_STATE.SLOT n.val] f.key = false := keysOf_eq_false.2 fun g hg hEq => by
      rw [hEq, hPorts n g hg] at hWin
      simp at hWin
    rw [hFrame.regs hWf f hOwn hHold, hRetired.regs h f hOwn hOut]

/-- Settles O28: fences complete, or what is left is abandoned. -/
theorem fencesCompleteOrAbandon : Obligations.FencesCompleteOrAbandon := by
  unfold Obligations.FencesCompleteOrAbandon
  exact fun s n h => ⟨fun hState hFence hTxs hInits => fenceComplete_tears h hState hFence hTxs hInits,
    fun _ hState hAt hTime hPorts hHeld => fenceDrainTimeout_abandons h hState hAt hTime hPorts hHeld⟩

end Sys2Proof.Machine

/-! O35. A scrub holds back the repeats of an abort (R264), and the refutation of O35. -/

namespace Sys2Proof.Machine

/-- An abort of context 1 is due to be repeated while coach 0 is scrubbed after that context. -/
def abortUnderScrub : State :=
  let s := wr (PM_PWR_STATUS.ON 19) 1 State.reset
  modCo 0 (fun x => { x with scrubAt := some 0, scrubOld := 1 }) { s with
    now := us 1, pins := { s.pins with tandem := true }, sb := { s.sb with linkKey := [1] }, tl := { s.tl with session := [1], aborts := [⟨1, 1, [], 2, 0⟩] } }

/-- The repeat takes no count. -/
theorem abortUnderScrub_sent : (match execAbortRepeat abortUnderScrub with
    | .next t => t.tl.sentUrgent
    | _ => 0) = abortUnderScrub.tl.sentUrgent := by decide +kernel

/-- Refutes O35: a repeat of an ABORT whose context a scrub holds back waits unsealed and takes no count; the statement does not exclude the scrub. -/
theorem not_abortsAndRetiresReachTheirContexts : ¬ Obligations.AbortsAndRetiresReachTheirContexts := by
  unfold Obligations.AbortsAndRetiresReachTheirContexts
  intro h
  obtain ⟨-, -, hRepeat, -⟩ := h abortUnderScrub abortUnderScrub 0 idleFrame [] (by decide +kernel) (by decide +kernel)
  obtain ⟨t, hExec, hCount, -⟩ := hRepeat ⟨1, 1, [], 2, 0⟩ (by decide +kernel) (by decide +kernel) (by decide +kernel)
  have hSent := abortUnderScrub_sent
  change execAbortRepeat abortUnderScrub = _ at hExec
  rw [hExec] at hSent
  have hKept : t.tl.sentUrgent = abortUnderScrub.tl.sentUrgent := hSent
  omega

end Sys2Proof.Machine

/-! O29. The maximum of the switch times over what its register holds (R249), and the refutation of O29. -/

namespace Sys2Proof.Machine

/-- Coach 0 has restored context 1, the last of its set, and the register of the longest switch holds a value wider than its 16 bits. -/
def restoredWide : State :=
  let s := wrs [(GL_CTX_STATUS.STATE 1, 3), (GL_CTX_STATUS.PARTITION 1, 1), (CA_STATUS.STATE 0, 3)] State.reset
  modCx 0 (fun x => { x with moving := 1 }) { s with regs := SMap.set fieldReset s.regs (GL_CTX_SWITCH.MAX_US 1).key 70000 }

/-- Refutes O29: the longest time is cut to the register's 16 bits, so that it is not the maximum of what a wider stored value was and the switch's time. -/
theorem not_switchesSaveScrubAndRestore : ¬ Obligations.SwitchesSaveScrubAndRestore := by
  unfold Obligations.SwitchesSaveScrubAndRestore
  intro h
  obtain ⟨-, -, hRestore, -⟩ := h restoredWide 0 0 0 (by decide +kernel)
  obtain ⟨t, hExec, -, -, -, -, -, -, hLast, -⟩ := hRestore (by decide +kernel) (by decide +kernel) (by decide +kernel) (by decide +kernel)
  obtain ⟨-, hMax, -⟩ := hLast (by decide +kernel)
  -- What the restore leaves of it.
  have hLeft : (match execSwitchRestoreDone 0 restoredWide with
      | .next t => rd (GL_CTX_SWITCH.MAX_US 1) t
      | _ => 0) = 4464 := by decide +kernel
  change execSwitchRestoreDone 0 restoredWide = _ at hExec
  rw [hExec] at hLeft
  have hWide : rd (GL_CTX_SWITCH.MAX_US 1) restoredWide = 70000 := by decide +kernel
  have hMaxNow : rd (GL_CTX_SWITCH.MAX_US 1) t = max (rd (GL_CTX_SWITCH.MAX_US 1) restoredWide) _ := hMax
  have hRead : rd (GL_CTX_SWITCH.MAX_US 1) t = 4464 := hLeft
  omega

end Sys2Proof.Machine

/-! O30. A notice that waits outlives the quarantine of its context (R257, R259), and the refutation of O30. -/

namespace Sys2Proof.Machine

/-- Context 1 is in quarantine with its peers' answers in, its timer runs out, and a notice of its teardown still waits. -/
def tornWaiting : State :=
  modCx 0 (fun x => { x with retireAt := some 0, tornDue := [(8, [1])] }) (wr (GL_CTX_STATUS.STATE 1) 7 State.reset)

/-- The notice waits on in the context that is free again (R257). -/
theorem tornWaiting_waits : (match execRetireTimerExpire 0 tornWaiting with
    | .next t => (cx 0 t).tornDue
    | _ => []) = [(8, [1])] := by decide +kernel

/-- Refutes O30: a context that comes free keeps, besides its ledger, the notices of its teardown that wait for those queued before them. -/
theorem not_scrubsPassAndRetiredContextsComeFree : ¬ Obligations.ScrubsPassAndRetiredContextsComeFree := by
  unfold Obligations.ScrubsPassAndRetiredContextsComeFree
  intro h
  obtain ⟨-, hTimer, -⟩ := h tornWaiting 0 (by decide +kernel)
  obtain ⟨t, hExec, -, hFree, -⟩ := hTimer 0 (by decide +kernel) (by decide +kernel) (by decide +kernel)
  obtain ⟨-, -, hInit⟩ := hFree (by decide +kernel) (by decide +kernel)
  have hWaits := tornWaiting_waits
  change execRetireTimerExpire 0 tornWaiting = _ at hExec
  rw [hExec] at hWaits
  have hNone : (cx 0 t).tornDue = [] := by
    rw [hInit]
    rfl
  have hSome : (cx 0 t).tornDue = [(8, [1])] := hWaits
  rw [hNone] at hSome
  cases hSome

end Sys2Proof.Machine

/-! O36. A COMMIT forgets what the peer's fall has dropped (R317), and the refutation of O36. -/

namespace Sys2Proof.Machine

/-- The Coachman runs, and MBS1's channel remembers the empty queue that an earlier fall of its peer has dropped. -/
def droppedBefore : State :=
  let s := { wr (MB.H2K_STATUS.PEER 0) 0 State.reset with now := 1 }
  setChan 5 { chan 5 s with dropped := some (0, [], false) } s

/-- What a COMMIT leaves of it. -/
theorem droppedBefore_commit : (match execH2kCommit 5 false droppedBefore with
    | .next t => (chan 5 t).dropped
    | _ => some (0, [], false)) = none := by decide +kernel

/-- Refutes O36: a COMMIT of a wrong length also forgets what an earlier fall of the peer has dropped; the statement keeps the rest of the channel. -/
theorem not_mailboxQueuesFollowTheirRules : ¬ Obligations.MailboxQueuesFollowTheirRules := by
  unfold Obligations.MailboxQueuesFollowTheirRules
  intro h
  obtain ⟨-, hCommit, -⟩ := h droppedBefore 5 false
  obtain ⟨-, hShort⟩ := hCommit ⟨by decide +kernel, fun _ => by decide +kernel, fun hk => absurd rfl hk⟩ (by decide +kernel)
  obtain ⟨t, hExec, hChan, -⟩ := hShort (Or.inl (by decide +kernel))
  have hForgot := droppedBefore_commit
  change execH2kCommit 5 false droppedBefore = _ at hExec
  rw [hExec] at hForgot
  have hNone : (chan 5 t).dropped = none := hForgot
  rw [hChan] at hNone
  exact absurd hNone (by decide +kernel)

end Sys2Proof.Machine

/-! SUPPORT. What the posting of rows leaves of the contexts (R38, R290): all but their summaries, and which rows are posted. -/

namespace Sys2Proof.Machine

theorem PwWoken.k2hPost {p : PwSt} {s : State} (h : PwWoken p s.pw) (k : Fin 6) (w : List Nat) : PwWoken p (k2hPost k w s).pw := by
  unfold Machine.k2hPost bellHost
  refine PwWoken.settle ?_
  rw [markBits_pw]
  exact h

theorem PwWoken.notice {p : PwSt} {s : State} (h : PwWoken p s.pw) (a b c : Nat) (l : List Nat) : PwWoken p (Machine.notice a b c l s).pw := by
  have hQueue (k : Fin 6) (w : List Nat) : PwWoken p (queueNotice k w s).pw := by
    unfold queueNotice
    dsimp only
    split
    · exact h
    · split
      · split <;> exact h
      · exact h
  have hSend (k : Fin 6) (w : List Nat) : PwWoken p (sendNotice k w s).pw := by
    unfold sendNotice postNotice
    dsimp only
    split
    · exact PwWoken.k2hPost (s := setChan k _ s) h k _
    · exact hQueue k w
  unfold Machine.notice
  split
  · exact h
  · split
    · exact h
    · split
      · exact h
      · exact hSend _ _

/-- A job with none of its rows posted. -/
def JobSt.unposted (j : JobSt) : JobSt := { j with rows := j.rows.map (fun x => { x with posted := false }) }

/-- A context without what the posting of its rows changes. -/
def CtxSt.unposted (c : CtxSt) : CtxSt := { c with summaries := [], sumOpen := [], bounce := { c.bounce with countOut := 0 }, job := c.job.map JobSt.unposted }

/-- From `s` to `t` the contexts change in no more than the posting of rows, and the power unit in no more than events. -/
structure Posting (s t : State) : Prop where
  ctxs : ∀ m : Ctx, (cx m t).unposted = (cx m s).unposted
  woken : PwWoken s.pw t.pw

namespace Posting

theorem refl (s : State) : Posting s s := ⟨fun _ => rfl, PwWoken.refl _⟩

section
variable {s t : State} (h : Posting s t)
include h

theorem frame {u : Parts} {K : Nat → Bool} {v : State} (hFrame : Frame u K t v) (hCtx : u.ctx = false) (hPw : u.pw = false) : Posting s v where
  ctxs m := by
    rw [cx, hFrame.ctx hCtx]
    exact h.ctxs m
  woken := by
    rw [hFrame.pw hPw]
    exact h.woken

theorem modCx (n : Ctx) (g : CtxSt → CtxSt) (hg : ∀ c, (g c).unposted = c.unposted) : Posting s (Machine.modCx n g t) where
  ctxs m := by
    by_cases hm : m = n
    · subst hm
      rw [cx_modCx, hg]
      exact h.ctxs m
    · rw [cx_modCx_ne m n g t hm]
      exact h.ctxs m
  woken := by
    rw [modCx_pw]
    exact h.woken

theorem posted (n : Ctx) (r : Nat) : Posting s (modRow n r (fun x => { x with posted := true }) t) := by
  refine h.modCx n _ fun c => ?_
  have hRows (j : JobSt) : JobSt.unposted { j with rows := j.rows.map (fun x => if x.row == r then { x with posted := true } else x) } = j.unposted := by
    unfold JobSt.unposted
    simp only [List.map_map]
    congr 1
    refine List.map_congr_left fun x _ => ?_
    simp only [Function.comp]
    split <;> rfl
  unfold CtxSt.unposted
  dsimp only
  cases c.job with
  | none => rfl
  | some j => simp only [Option.map_some, hRows]

omit h in
theorem ite {c : Prop} [Decidable c] {a b : State} (ha : Posting s a) (hb : Posting s b) : Posting s (if c then a else b) := by
  split
  · exact ha
  · exact hb

theorem each {α : Type} (l : List α) {g : α → State → State} (hg : ∀ x ∈ l, ∀ v, Posting s v → Posting s (g x v)) : Posting s (Machine.each l g t) := each_induct h hg

theorem notice (a b c : Nat) (l : List Nat) : Posting s (Machine.notice a b c l t) :=
  ⟨fun m => by
    rw [cx, (Frame.notice (u := { pw := true, mb := true }) rfl rfl (msgIn_msgOr []) a b c l (Frame.refl _ _ t)).ctx rfl]
    exact h.ctxs m, h.woken.notice a b c l⟩

theorem bounceOut (n : Ctx) (k x : Nat) (d : List Byte) : Posting s (bounceOut n k x d t).2 := by
  unfold Machine.bounceOut
  dsimp only
  exact Posting.modCx (h.frame (u := { mp := true }) (K := allKeys) (Frame.initPush rfl _ _ _ _ _ (Frame.refl _ _ t)) rfl rfl) n _ fun _ => rfl

theorem summaryRow (n : Ctx) (r : RowSt) : Posting s (summaryRow n r t) := by
  unfold Machine.summaryRow
  exact Posting.modCx (h.frame (u := { freeN := true }) (K := allKeys) ((Frame.refl _ _ t).free rfl) rfl rfl) n _ fun _ => rfl

theorem tlUpd (x : TlSt) : Posting s { t with tl := x } := ⟨h.ctxs, h.woken⟩

theorem summaryTry (n : Ctx) (x : Nat) : Posting s (summaryTry n x t) := by
  unfold Machine.summaryTry
  have hWritten (o : Nat) (l : List Byte) : Posting s (writeRegion n 6 o l t) := h.frame (u := { mp := true }) (K := allKeys) ((Frame.refl _ _ t).writeRegion rfl n 6 o l) rfl rfl
  refine ite h ?_
  refine notice ?_ _ _ _ _
  refine modCx ?_ n _ fun _ => rfl
  refine tlUpd ?_ _
  split
  · exact (hWritten _ _).bounceOut n _ _ _
  · exact hWritten _ _

theorem summaryEnd (n : Ctx) (x : Nat) : Posting s (summaryEnd n x t) := by
  unfold Machine.summaryEnd
  split
  · exact h
  · have hFree : Posting s (freeBytes 16 t).2 := h.frame (u := { freeN := true }) (K := allKeys) ((Frame.refl _ _ t).freeBytes rfl 16) rfl rfl
    dsimp only
    generalize (freeBytes 16 t).2 = v at hFree ⊢
    refine ite ?_ (summaryTry (ite ?_ ?_) n x)
    · refine frame ?_ (Frame.originate (u := { mp := true, tl := true, out := true }) (K := allKeys) ⟨rfl, rfl, rfl⟩ _ _ _ _ _ _ _ (Frame.refl _ _ _)) rfl rfl
      refine tlUpd ?_ _
      exact hFree.modCx n _ fun _ => rfl
    · refine tlUpd ?_ _
      exact hFree.modCx n _ fun _ => rfl
    · exact hFree.modCx n _ fun _ => rfl

theorem summaryDue (n : Ctx) (r : RowSt) (x : Nat) : Posting s (summaryDue n r x t) := ite (h.modCx n _ fun _ => rfl) (h.summaryEnd n x)

theorem postRow (n : Ctx) : Posting s (postRow n t) := by
  unfold Machine.postRow
  split
  · exact h
  · next r _ =>
    have hPosted : Posting s (add (MP_CTX_RES_PROD.ROWS (cid n)) 1 (modRow n r.row (fun x => { x with posted := true }) t)) :=
      (h.posted n r.row).frame (u := {}) (K := allKeys) ((Frame.refl _ _ _).add _ 1 rfl) rfl rfl
    refine ite h (ite (summaryDue (summaryRow (notice ?_ _ _ _ _) n _) n _ _) (summaryRow (notice ?_ _ _ _ _) n _)) <;> split
    · exact hPosted.bounceOut n _ _ _
    · exact hPosted
    · exact hPosted.bounceOut n _ _ _
    · exact hPosted

theorem postRows (n : Ctx) : Posting s (postRows n t) := h.each _ fun _ _ _ hv => hv.postRow n

end

end Posting

end Sys2Proof.Machine

/-! O52. Units 0 and 5, activated together, of which one has run out of its time (R473, R476), and the refutation of O52. -/

namespace Sys2Proof.Machine

/-- A directory with units 0 and 5 in TRIAL. -/
def jointTrial : List Nat := (List.range 40).map (fun i => if i = 4 ∨ i = 34 then 4 else 0)

/-- The Strongbox is healthy, and the time of unit 5 has run out. -/
def expiredPartner : State :=
  let s := wrs [(MB.H2K_STATUS.PEER 2, 0), (SB_STATUS.STAGE, 10), (SB_UPD_STATE.EXPIRED 5, 1)] State.reset
  { s with sb := { s.sb with dir := jointTrial, hbClean := 1000, bundleWhole := true } }

/-- Refutes O52: a unit in TRIAL is not confirmed when the unit that was activated with it has run out of its time. -/
theorem not_updatesActivateConfirmAndExpire : ¬ Obligations.UpdatesActivateConfirmAndExpire := by
  unfold Obligations.UpdatesActivateConfirmAndExpire
  intro h
  obtain ⟨-, -, -, -, hOwn, -⟩ := h expiredPartner ⟨0, 0, 0, false, []⟩ 0 (by decide +kernel)
  obtain ⟨t, hExec, hState, -⟩ := hOwn (by decide +kernel) (by decide +kernel) (by decide +kernel) (by decide) (by decide +kernel)
  -- Unit 0 stays in TRIAL.
  have hStays : (match execConfirmHealth (.own 0) expiredPartner with
      | .next t => dirState 0 t
      | _ => 0) = 2 := by decide +kernel
  change execConfirmHealth (.own 0) expiredPartner = _ at hExec
  rw [hExec] at hStays
  exact absurd (hStays.symm.trans hState) (by decide)

end Sys2Proof.Machine

/-! O31. The ledger absorbs a complete row (R416 to R419). -/

namespace Sys2Proof.Machine

theorem length_insertBy {α : Type} (le : α → α → Bool) (x : α) (l : List α) : (insertBy le x l).length = l.length + 1 := by
  induction l with
  | nil => rfl
  | cons y r ih =>
    unfold insertBy
    split
    · rfl
    · rw [List.length_cons, ih, List.length_cons]

theorem length_sortBy {α : Type} (le : α → α → Bool) (l : List α) : (sortBy le l).length = l.length := by
  induction l with
  | nil => rfl
  | cons x r ih => exact (length_insertBy le x _).trans (congrArg (· + 1) ih)

theorem records_apart : ∀ n : Ctx, ownKey (SB_LEDGER_CNT.RECORDS (cid n)).key = false ∧ msgKey (SB_LEDGER_CNT.RECORDS (cid n)).key = false ∧
    (SB_LEDGER_CNT.RECORDS (cid n)).key ≠ (MP_CTX_RES_PROD.ROWS (cid n)).key := by decide

/-- An entry's absorption (R416, R417). -/
theorem rd_ledgerAbsorb {s : State} (h : s.regsWf = true) (n : Ctx) (type : Nat) (body : List Byte) :
    (ledgerAbsorb n type body s).regsWf = true ∧ rd (SB_LEDGER_CNT.RECORDS (cid n)) (ledgerAbsorb n type body s) =
      if type = 2 then sat (SB_LEDGER_CNT.RECORDS (cid n)) (rd (SB_LEDGER_CNT.RECORDS (cid n)) s + 1) else rd (SB_LEDGER_CNT.RECORDS (cid n)) s := by
  unfold ledgerAbsorb
  dsimp only
  by_cases hType : type = 2
  · rw [if_pos (by simp [hType]), if_pos hType]
    exact ⟨regsWf_wr (s := modCx n _ s) h _ _, rd_inc_same (s := modCx n _ s) h _⟩
  · rw [if_neg (by simp [hType]), if_neg hType]
    exact ⟨h, rfl⟩

theorem cx_ledgerAbsorb (n : Ctx) (type : Nat) (body : List Byte) (s : State) :
    cx n (ledgerAbsorb n type body s) = { cx n s with ledger := { (cx n s).ledger with head := sha384 ((cx n s).ledger.head ++ leBytes 1 type ++ body), count := (cx n s).ledger.count + 1 } } := by
  have hCx : cx n (modCx n (fun c => { c with ledger := { c.ledger with head := sha384 (c.ledger.head ++ leBytes 1 type ++ body), count := c.ledger.count + 1 } }) s) = _ := cx_modCx n _ s
  unfold ledgerAbsorb
  dsimp only
  split
  · exact hCx
  · exact hCx

theorem cx_ledgerAbsorb_ne {m n : Ctx} (hm : m ≠ n) (type : Nat) (body : List Byte) (s : State) : cx m (ledgerAbsorb n type body s) = cx m s := by
  have hCx := cx_modCx_ne m n (fun c => { c with ledger := { c.ledger with head := sha384 (c.ledger.head ++ leBytes 1 type ++ body), count := c.ledger.count + 1 } }) s hm
  unfold ledgerAbsorb
  dsimp only
  split
  · exact hCx
  · exact hCx

/-- Counts that stay at their maximum add up (R16). -/
theorem sat_sat (f : Fld) (a b c : Nat) : sat f (sat f (a + b) + c) = sat f (a + b + c) := by
  unfold sat
  generalize 2 ^ f.width - 1 = m
  omega

/-- The records of a row are absorbed one by one (R418). -/
theorem absorbRecords {s : State} (h : s.regsWf = true) (n : Ctx) (l : List Rec) :
    let t := each l (fun x v => ledgerAbsorb n 2 x.data v) s
    t.regsWf = true ∧ (cx n t) = { cx n s with ledger := { (cx n s).ledger with
        head := l.foldl (fun g x => sha384 (g ++ leBytes 1 2 ++ x.data)) (cx n s).ledger.head, count := (cx n s).ledger.count + l.length } } ∧
      rd (SB_LEDGER_CNT.RECORDS (cid n)) t = (if l = [] then rd (SB_LEDGER_CNT.RECORDS (cid n)) s else sat (SB_LEDGER_CNT.RECORDS (cid n)) (rd (SB_LEDGER_CNT.RECORDS (cid n)) s + l.length)) ∧
      ∀ m, m ≠ n → cx m t = cx m s := by
  induction l generalizing s with
  | nil => exact ⟨h, rfl, (if_pos rfl).symm, fun _ _ => rfl⟩
  | cons x r ih =>
    obtain ⟨hOne, hRec⟩ := rd_ledgerAbsorb h n 2 x.data
    have hCx := cx_ledgerAbsorb n 2 x.data s
    obtain ⟨hWf, hAll, hRecs, hOthers⟩ := ih hOne
    rw [if_pos rfl] at hRec
    refine ⟨hWf, ?_, ?_, fun m hm => (hOthers m hm).trans (cx_ledgerAbsorb_ne hm 2 x.data s)⟩
    · refine hAll.trans ?_
      rw [hCx]
      simp only [List.foldl_cons, List.length_cons]
      congr 2
      omega
    · refine hRecs.trans ?_
      rw [hRec, if_neg (List.cons_ne_nil x r), List.length_cons]
      split
      · next hNil => simp [hNil]
      · exact (sat_sat _ _ _ _).trans (by rw [Nat.add_assoc, Nat.add_comm 1])

/-- The keys of events and of the digest engine's views. -/
def digestKey (k : Nat) : Bool := evKey k || k / 64 / 0x100000 % 8 == 1

theorem suspended_key (w : Nat) : digestKey (DG_STATUS.SUSPENDED w).key = true := by
  refine Bool.or_eq_true_iff.2 (.inr (beq_iff_eq.2 ?_))
  simp only [DG_STATUS.SUSPENDED, Fld.key, dgView]
  omega

theorem suspends_key (w : Nat) : digestKey (DG_REFUSED.SUSPENDS w).key = true := by
  refine Bool.or_eq_true_iff.2 (.inr (beq_iff_eq.2 ?_))
  simp only [DG_REFUSED.SUSPENDS, Fld.key, dgView]
  omega

theorem digestKey_ev : EvIn digestKey := fun _ hk => Bool.or_eq_true_iff.2 (.inl hk)

/-- What the digest engine's loan changes (R429). -/
theorem dgBorrow_frame (s : State) : Frame { pw := true, dg := true } digestKey s (dgBorrow s) := by
  unfold dgBorrow dgSuspend
  dsimp only
  refine Frame.ite (Frame.refl _ _ s) (Frame.wr _ _ (suspended_key _) (Frame.dgUpd rfl _ (Frame.raise rfl digestKey_ev _ (Frame.dgUpd rfl _
    (Frame.each _ (fun v _ _ hv => hv.inc _ (suspends_key v)) ((Frame.refl _ _ s).wr _ _ (suspended_key _)))))))

theorem records_digest : ∀ n : Ctx, digestKey (SB_LEDGER_CNT.RECORDS (cid n)).key = false := by decide

/-- The ledger once a row's entries are in it: the raster's, where there is one, and its records'. -/
def rasterHead (r : RowSt) (raster : Option (List Byte)) (head : List Byte) : List Byte :=
  raster.elim head (fun d => sha384 (head ++ leBytes 1 3 ++ (leBytes 4 r.epoch ++ leBytes 2 r.rowInSheet ++ d)))

def ledgerAfter (r : RowSt) (raster : Option (List Byte)) (l : LedgerSt) : LedgerSt :=
  { l with lastRow := r.row, count := l.count + raster.elim 0 (fun _ => 1) + r.recs.length
           head := (sortBy (fun a b => a.column ≤ b.column) r.recs).foldl (fun g x => sha384 (g ++ leBytes 1 2 ++ x.data)) (rasterHead r raster l.head) }

/-- A row's absorption begins: the digest engine is lent, and its raster's entry comes first (R419, R429). -/
def rasterAbsorbed (n : Ctx) (r : RowSt) (raster : Option (List Byte)) (s : State) : State :=
  let s := modCx n (fun c => { c with ledger := { c.ledger with lastRow := r.row } }) (dgBorrow s)
  match raster with
  | some d => ledgerAbsorb n 3 (leBytes 4 r.epoch ++ leBytes 2 r.rowInSheet ++ d) s
  | none => s

theorem rasterAbsorbed_facts {s : State} (h : s.regsWf = true) (n : Ctx) (r : RowSt) (raster : Option (List Byte)) :
    (rasterAbsorbed n r raster s).regsWf = true ∧ rd (SB_LEDGER_CNT.RECORDS (cid n)) (rasterAbsorbed n r raster s) = rd (SB_LEDGER_CNT.RECORDS (cid n)) s ∧
      cx n (rasterAbsorbed n r raster s) = { cx n s with ledger := { (cx n s).ledger with
        lastRow := r.row, head := rasterHead r raster (cx n s).ledger.head, count := (cx n s).ledger.count + raster.elim 0 (fun _ => 1) } } ∧
      ∀ m, m ≠ n → cx m (rasterAbsorbed n r raster s) = cx m s := by
  have hBorrow := dgBorrow_frame s
  have hLent : (dgBorrow s).regsWf = true := hBorrow.wf h
  have hLentRec : rd (SB_LEDGER_CNT.RECORDS (cid n)) (dgBorrow s) = rd (SB_LEDGER_CNT.RECORDS (cid n)) s := hBorrow.regs h _ (records_apart n).1 (records_digest n)
  have hLentCx (m : Ctx) : cx m (dgBorrow s) = cx m s := by rw [cx, cx, hBorrow.ctx rfl]
  have hCx := cx_modCx n (fun c => { c with ledger := { c.ledger with lastRow := r.row } }) (dgBorrow s)
  have hOthers (m : Ctx) (hm : m ≠ n) := (cx_modCx_ne m n (fun c => { c with ledger := { c.ledger with lastRow := r.row } }) (dgBorrow s) hm).trans (hLentCx m)
  rw [hLentCx n] at hCx
  have hWf : (modCx n (fun c => { c with ledger := { c.ledger with lastRow := r.row } }) (dgBorrow s)).regsWf = true := hLent
  have hRec : rd (SB_LEDGER_CNT.RECORDS (cid n)) (modCx n (fun c => { c with ledger := { c.ledger with lastRow := r.row } }) (dgBorrow s)) = _ := hLentRec
  unfold rasterAbsorbed
  dsimp only
  generalize modCx n (fun c => { c with ledger := { c.ledger with lastRow := r.row } }) (dgBorrow s) = v at *
  cases raster with
  | none => exact ⟨hWf, hRec, hCx, hOthers⟩
  | some d =>
    obtain ⟨hDone, hCount⟩ := rd_ledgerAbsorb hWf n 3 (leBytes 4 r.epoch ++ leBytes 2 r.rowInSheet ++ d)
    refine ⟨hDone, hCount.trans ((if_neg (by decide)).trans hRec), ?_, fun m hm => (cx_ledgerAbsorb_ne hm ..).trans (hOthers m hm)⟩
    dsimp only
    rw [cx_ledgerAbsorb, hCx]
    rfl

/-- A row is absorbed with its raster (R418, R419). -/
theorem ledgerRow_absorbs {s : State} (h : s.regsWf = true) (n : Ctx) (r : RowSt) (raster : Option (List Byte)) (hRecs : r.recs ≠ []) :
    (ledgerRow n r raster s).regsWf = true ∧ cx n (ledgerRow n r raster s) = { cx n s with ledger := ledgerAfter r raster (cx n s).ledger } ∧
      rd (SB_LEDGER_CNT.RECORDS (cid n)) (ledgerRow n r raster s) = sat (SB_LEDGER_CNT.RECORDS (cid n)) (rd (SB_LEDGER_CNT.RECORDS (cid n)) s + r.recs.length) ∧
      ∀ m, m ≠ n → cx m (ledgerRow n r raster s) = cx m s := by
  have hSorted : sortBy (fun a b => a.column ≤ b.column) r.recs ≠ [] := fun hNil => hRecs (List.length_eq_zero_iff.1 ((length_sortBy _ r.recs).symm.trans (congrArg List.length hNil)))
  have hEq : ledgerRow n r raster s = each (sortBy (fun a b => a.column ≤ b.column) r.recs) (fun x t => ledgerAbsorb n 2 x.data t) (rasterAbsorbed n r raster s) := by
    unfold ledgerRow rasterAbsorbed
    cases raster <;> rfl
  obtain ⟨hWf, hRec, hCx, hOthers⟩ := rasterAbsorbed_facts h n r raster
  obtain ⟨hDone, hAll, hCount, hRest⟩ := absorbRecords hWf n (sortBy (fun a b => a.column ≤ b.column) r.recs)
  rw [hEq]
  refine ⟨hDone, ?_, ?_, fun m hm => (hRest m hm).trans (hOthers m hm)⟩
  · rw [hAll, hCx, length_sortBy]
    rfl
  · rw [hCount, if_neg hSorted, hRec, length_sortBy]

end Sys2Proof.Machine

/-! O32. No HELLO leaves a fenced block (R276, R488), and the refutation of O32. -/

namespace Sys2Proof.Machine

/-- The link works, port 0 trains and awaits its lock, and the block is fenced. -/
def trainsFenced : State :=
  let s := wrs [(PM_PWR_STATUS.ON 19, 1), (TL_STATUS.UP_STATE, 1), (GL_STATUS.FENCED, 1)] State.reset
  { s with pins := { s.pins with tandem := true }, sb := { s.sb with linkKey := [1] } }

/-- With its lock the port sends nothing. -/
theorem trainsFenced_silent : (match execLinkBlockLock 0 trainsFenced with
    | .next t => t.out
    | _ => []) = [] := by decide +kernel

/-- Refutes O32: a port that locks while the block is fenced sends no HELLO, which is a bulk frame; the statement does not exclude the fence. -/
theorem not_linkPortsTrainAndComeUp : ¬ Obligations.LinkPortsTrainAndComeUp := by
  unfold Obligations.LinkPortsTrainAndComeUp
  intro h
  obtain ⟨-, hLock, -⟩ := h trainsFenced 0 (by decide +kernel)
  obtain ⟨t, f, iv, hExec, -, -, hOut, -⟩ := hLock (by decide +kernel) (by decide +kernel) (by decide +kernel)
  have hSilent := trainsFenced_silent
  change execLinkBlockLock 0 trainsFenced = _ at hExec
  rw [hExec] at hSilent
  have hNone : t.out = [] := hSilent
  rw [hNone] at hOut
  cases hOut

end Sys2Proof.Machine

/-! O31. LEDGER_ABSORB_ROW absorbs the oldest complete row, and a variable row waits for its raster (R416 to R419). -/

namespace Sys2Proof.Machine

/-- The units and keys of the posting of a context's rows. -/
def postParts : Parts := { mp := true, tl := true, out := true, pw := true, mb := true, freeN := true, ctx := true, ctxs := fun _ => true }

theorem postRows_frame (n : Ctx) (s : State) : Frame postParts (msgOr [MP_CTX_RES_PROD.ROWS (cid n)]) s (postRows n s) :=
  (Frame.refl _ _ s).postRows (u := postParts) { mp := rfl, tl := rfl, out := rfl, pw := rfl, mb := rfl, freeN := rfl, ctx := rfl, ctxs := fun _ => rfl } n
    (msgIn_msgOr _) (msgOr_mem (List.mem_singleton_self _))

theorem postRows_posting (n : Ctx) (s : State) : Posting s (postRows n s) := (Posting.refl s).postRows n

theorem rd_records_postRows {s : State} (h : s.regsWf = true) (n : Ctx) : rd (SB_LEDGER_CNT.RECORDS (cid n)) (postRows n s) = rd (SB_LEDGER_CNT.RECORDS (cid n)) s := by
  obtain ⟨hOwn, hMsg, hApart⟩ := records_apart n
  exact (postRows_frame n s).regs h _ hOwn (Bool.or_eq_false_iff.2 ⟨hMsg, keysOf_eq_false.2 fun g hg => by rwa [List.mem_singleton.1 hg]⟩)

theorem Posting.ledger {s t : State} (h : Posting s t) (m : Ctx) : (cx m t).ledger = (cx m s).ledger := congrArg (fun c => c.ledger) (h.ctxs m)

theorem Posting.cfg {s t : State} (h : Posting s t) (m : Ctx) : (cx m t).cfg = (cx m s).cfg := congrArg (fun c => c.cfg) (h.ctxs m)

theorem Posting.image {s t : State} (h : Posting s t) (m : Ctx) : (cx m t).image = (cx m s).image := congrArg (fun c => c.image) (h.ctxs m)

theorem Posting.phase {s t : State} (h : Posting s t) (m : Ctx) : rowPhase m t = rowPhase m s := by
  have hJob : (cx m t).job.map JobSt.unposted = (cx m s).job.map JobSt.unposted := congrArg (fun c => c.job) (h.ctxs m)
  unfold rowPhase
  cases hs : (cx m s).job <;> cases ht : (cx m t).job <;> rw [hs, ht] at hJob
  · cases hJob
  · cases hJob
  · have hPhase := congrArg (fun j : JobSt => j.phase) (Option.some.inj hJob)
    exact hPhase

theorem Posting.rows {s t : State} (h : Posting s t) (m : Ctx) : (rowsOf m t).map (fun x => { x with posted := false }) = (rowsOf m s).map (fun x => { x with posted := false }) := by
  have hJob : (cx m t).job.map JobSt.unposted = (cx m s).job.map JobSt.unposted := congrArg (fun c => c.job) (h.ctxs m)
  unfold rowsOf
  cases hs : (cx m s).job <;> cases ht : (cx m t).job <;> rw [hs, ht] at hJob
  · cases hJob
  · cases hJob
  · exact congrArg (fun j : JobSt => j.rows) (Option.some.inj hJob)

/-- A row stays absorbed as rows are posted. -/
theorem Posting.absorbed {s t : State} (h : Posting s t) {m : Ctx} {row : Nat} (hAll : ∀ x ∈ rowsOf m s, x.row = row → x.absorbed = true) :
    ∀ x ∈ rowsOf m t, x.row = row → x.absorbed = true := by
  intro x hx hRow
  have hMem : ({ x with posted := false } : RowSt) ∈ (rowsOf m s).map (fun x => { x with posted := false }) := h.rows m ▸ List.mem_map.2 ⟨x, hx, rfl⟩
  obtain ⟨y, hy, hEq⟩ := List.mem_map.1 hMem
  have hAbsorbed := congrArg (fun z : RowSt => z.absorbed) hEq
  have hNumber := congrArg (fun z : RowSt => z.row) hEq
  exact hAbsorbed.symm.trans (hAll y hy (hNumber.trans hRow))

theorem withheld_postRows {s : State} (h : s.regsWf = true) (n : Ctx) : withheld (postRows n s) = withheld s := by
  have hKeys : ∀ n : Ctx, ∀ f ∈ [TT_STATUS.STATE, TT_BACK.LINES], ownKey f.key = false ∧ msgOr [MP_CTX_RES_PROD.ROWS (cid n)] f.key = false := by decide
  have hRead (f : Fld) (hf : f ∈ [TT_STATUS.STATE, TT_BACK.LINES]) : rd f (postRows n s) = rd f s := (postRows_frame n s).regs h f (hKeys n f hf).1 (hKeys n f hf).2
  simp only [withheld, ttState, hRead TT_STATUS.STATE (by simp), hRead TT_BACK.LINES (by simp)]

theorem domOpen_postRows {s : State} (h : s.regsWf = true) (n : Ctx) : domOpen 21 (postRows n s) = domOpen 21 s := by
  have hKeys : ∀ n : Ctx, ownKey (PM_PWR_STATUS.ON 21).key = false ∧ msgOr [MP_CTX_RES_PROD.ROWS (cid n)] (PM_PWR_STATUS.ON 21).key = false := by decide
  have hOn : rd (PM_PWR_STATUS.ON 21) (postRows n s) = rd (PM_PWR_STATUS.ON 21) s := (postRows_frame n s).regs h _ (hKeys n).1 (hKeys n).2
  simp only [domOpen, domOn, rdB, hOn, (postRows_posting n s).woken.kept.1]

/-- The absorption of a row whose records have arrived. -/
def rowAbsorbed (n : Ctx) (r : RowSt) (raster : Option (List Byte)) (s : State) : State :=
  postRows n (modRow n r.row (fun x => { x with absorbed := true }) (ledgerRow n r raster (postRows n s)))

theorem mem_rows_modRow {n : Ctx} {row : Nat} {g : RowSt → RowSt} {s : State} {x : RowSt} (hx : x ∈ rowsOf n (modRow n row g s)) :
    ∃ y ∈ rowsOf n s, x = if y.row == row then g y else y := by
  unfold rowsOf modRow at *
  rw [cx_modCx] at hx
  dsimp only at hx
  cases hJob : (cx n s).job with
  | none =>
    rw [hJob] at hx
    cases hx
  | some j =>
    rw [hJob] at hx
    obtain ⟨y, hy, hEq⟩ := List.mem_map.1 hx
    exact ⟨y, hy, hEq.symm⟩

theorem rowAbsorbed_facts {s : State} (h : s.regsWf = true) (n : Ctx) (r : RowSt) (raster : Option (List Byte)) (hRecs : r.recs ≠ []) :
    (cx n (rowAbsorbed n r raster s)).ledger = ledgerAfter r raster (cx n s).ledger ∧
      rd (SB_LEDGER_CNT.RECORDS (cid n)) (rowAbsorbed n r raster s) = sat (SB_LEDGER_CNT.RECORDS (cid n)) (rd (SB_LEDGER_CNT.RECORDS (cid n)) s + r.recs.length) ∧
      (∀ x ∈ rowsOf n (rowAbsorbed n r raster s), x.row = r.row → x.absorbed = true) ∧ ∀ m, m ≠ n → (cx m (rowAbsorbed n r raster s)).ledger = (cx m s).ledger := by
  have hFirst := postRows_posting n s
  have hFirstWf : (postRows n s).regsWf = true := (postRows_frame n s).wf h
  have hFirstRec := rd_records_postRows h n
  unfold rowAbsorbed
  generalize postRows n s = v at *
  obtain ⟨hWf, hCx, hCount, hOthers⟩ := ledgerRow_absorbs hFirstWf n r raster hRecs
  generalize ledgerRow n r raster v = w at *
  have hMarkedWf : (modRow n r.row (fun x => { x with absorbed := true }) w).regsWf = true := hWf
  have hMarkedRec : rd (SB_LEDGER_CNT.RECORDS (cid n)) (modRow n r.row (fun x => { x with absorbed := true }) w) = rd (SB_LEDGER_CNT.RECORDS (cid n)) w := rfl
  have hMarked : (cx n (modRow n r.row (fun x => { x with absorbed := true }) w)).ledger = (cx n w).ledger := congrArg (fun c => c.ledger) (cx_modCx n _ w)
  have hMarkedOthers (m : Ctx) (hm : m ≠ n) : cx m (modRow n r.row (fun x => { x with absorbed := true }) w) = cx m w := cx_modCx_ne m n _ w hm
  have hRows : ∀ x ∈ rowsOf n (modRow n r.row (fun x => { x with absorbed := true }) w), x.row = r.row → x.absorbed = true := by
    intro x hx hRow
    obtain ⟨y, -, rfl⟩ := mem_rows_modRow hx
    split at hRow
    · next hSame => rw [if_pos hSame]
    · next hOther => exact absurd (beq_iff_eq.2 hRow) hOther
  generalize modRow n r.row (fun x => { x with absorbed := true }) w = z at *
  have hLast := postRows_posting n z
  refine ⟨?_, ?_, hLast.absorbed hRows, fun m hm => ?_⟩
  · rw [hLast.ledger, hMarked, hCx, hFirst.ledger]
  · rw [rd_records_postRows hMarkedWf, hMarkedRec, hCount, hFirstRec]
  · rw [hLast.ledger, hMarkedOthers m hm, hOthers m hm, hFirst.ledger]

theorem execLedgerAbsorbRow_eq {n : Ctx} {r : RowSt} {s : State} (h : s.regsWf = true) (hFind : (rowsOf n s).find? (fun x => !x.absorbed && !x.dropped) = some r) (hHeld : withheld s = false)
    (hOpen : domOpen 21 s = true) (hLen : r.recs.length = cfgColumns (cx n s).cfg) (hSome : cfgColumns (cx n s).cfg ≠ 0) :
    execLedgerAbsorbRow n s = .next (if cfgVariable (cx n s).cfg then (match rasterDigest n r s with | none => postRows n s | some d => rowAbsorbed n r (some d) s) else rowAbsorbed n r none s) := by
  have hPost := postRows_posting n s
  have hWhole : rowWhole n r (postRows n s) = true := by
    unfold rowWhole
    rw [hPost.cfg]
    simp [hLen, hSome]
  have hRaster : rasterDigest n r (postRows n s) = rasterDigest n r s := by
    unfold rasterDigest rasterWhole
    rw [hPost.cfg, hPost.image, hPost.phase]
  unfold execLedgerAbsorbRow
  rw [hFind]
  dsimp only
  rw [withheld_postRows h, hHeld, domOpen_postRows h, hOpen, hWhole, hPost.cfg, hRaster]
  rfl

/-- Settles O31: the ledger absorbs complete rows. -/
theorem ledgerAbsorbsCompleteRows : Obligations.LedgerAbsorbsCompleteRows := by
  unfold Obligations.LedgerAbsorbsCompleteRows
  intro s n r h hFind hHeld hOpen hLen hSome
  have hExec := execLedgerAbsorbRow_eq h hFind hHeld hOpen hLen hSome
  have hRecs : r.recs ≠ [] := fun hNil => hSome (hLen ▸ congrArg List.length hNil)
  refine ⟨fun hFixed => ?_, fun d hVariable hDigest => ?_, fun hVariable hMissing hRows => ?_⟩
  · rw [hFixed] at hExec
    obtain ⟨hLedger, hRec, hAll, hOthers⟩ := rowAbsorbed_facts h n r none hRecs
    exact ⟨rowAbsorbed n r none s, hExec, by rw [hLedger]; rfl, by rw [hLedger]; rfl, hRec, hAll, hOthers⟩
  · rw [hVariable, hDigest] at hExec
    obtain ⟨hLedger, hRec, hAll, hOthers⟩ := rowAbsorbed_facts h n r (some d) hRecs
    refine ⟨rowAbsorbed n r (some d) s, hExec, ?_, by rw [hLedger]; rfl, by rw [hLedger]; rfl, hAll, hOthers⟩
    rw [hLedger]
    simp only [ledgerAfter, Option.elim_some]
    omega
  · rw [hVariable, hMissing] at hExec
    have hStill : postRows n s = s := postRows_still hRows
    refine ⟨hExec.trans (congrArg Host.Outcome.next hStill), ?_⟩
    have hPart : rasterWhole n r s = false := by
      unfold rasterDigest at hMissing
      split at hMissing
      · cases hMissing
      · next hNot => exact Bool.eq_false_iff.2 hNot
    unfold rasterWaits
    rw [hFind]
    dsimp only
    rw [hVariable, hPart]
    simp [rowWhole, hLen, hSome]

end Sys2Proof.Machine

/-! O33. No CHAIN_TABLE leaves a fenced block (R276, R488), and the refutation of O33. -/

namespace Sys2Proof.Machine

/-- The frame of a DISCOVER that has passed the head alone: its header, and its payload of a nonce and the head's entry. -/
def headDiscoverHeader : List Byte := frameHeader 0x02 0 0 true 1 0 24 1 (List.replicate 12 0)
def headDiscoverPayload : List Byte := List.replicate 16 7 ++ leBytes 4 0 ++ leBytes 4 9

/-- The last block of a chain, at position 1: port 0 is UP, port 1 is not, and the block is fenced. -/
def chainEndFenced : State :=
  let s := wrs [(PM_PWR_STATUS.ON 19, 1), (TL_STATUS.UP_STATE, 2), (GL_STATUS.FENCED, 1)] State.reset
  { s with pins := { s.pins with tandem := true, pos := 1 }, sb := { s.sb with linkKey := [1] } }

/-- The head's DISCOVER under the link key of that block. -/
def headDiscover : LinkFrame := sealFrame (helloKey chainEndFenced) headDiscoverHeader (List.replicate 12 0) headDiscoverPayload

theorem headDiscover_plain : frPlain headDiscover (helloKey chainEndFenced) = some headDiscoverPayload :=
  Laws.frPlain_sealFrame _ _ _ _ (by decide +kernel)

/-- A payload of 24 bytes and a tag of 16 suit the header. -/
theorem headDiscover_lenOk_of (x tag : List Byte) (c : Nat) (hx : x.length = 24) (ht : tag.length = 16) :
    frLenOk ⟨headDiscoverHeader, x, tag, c⟩ = true := by
  have hLen : frLen ⟨headDiscoverHeader, x, tag, c⟩ = 24 := (by decide +kernel : frLen ⟨headDiscoverHeader, [], [], 0⟩ = 24)
  have hType : frType ⟨headDiscoverHeader, x, tag, c⟩ = 2 := (by decide +kernel : frType ⟨headDiscoverHeader, [], [], 0⟩ = 2)
  have hHeader : headDiscoverHeader.length = 32 := by decide +kernel
  unfold frLenOk
  rw [hLen, hType]
  simp [hx, ht, hHeader]

theorem headDiscover_lenOk : frLenOk headDiscover = true :=
  headDiscover_lenOk_of _ _ _ (Laws.gcmCrypt_length _ _ _) (Laws.gcmTag_length _ _ _ _)

theorem headDiscover_type : frType headDiscover = 2 := by decide +kernel

theorem headDiscover_crcOk : frCrcOk headDiscover = true := Laws.frCrcOk_sealFrame _ _ _ _

theorem headDiscover_taken : chainEndFenced.takes 0 0x02 headDiscover :=
  ⟨by decide +kernel, headDiscover_type, by decide +kernel, headDiscover_lenOk, headDiscover_crcOk⟩

/-- At the last block of a chain with no conflict a DISCOVER becomes the CHAIN_TABLE (R282). -/
theorem discoverPass_last {f : LinkFrame} {m : List Byte} {s : State} (hPos : linkPos s ≠ 0) (hArg : argCause (frArg f) = 0)
    (hLast : ((tableEntries m).getLast?.map (·.1)).getD 0 < linkPos s) (hRoom : (tableEntries m).length < 64) (hDown : portState 1 s ≠ 2) :
    discoverPass f m s = recordTable (m ++ ownEntry s) false 0
      (sendChain 0 0x03 (linkPos s) (chainArg ((tableEntries m).length + 1) 0) (m ++ ownEntry s) s) := by
  unfold discoverPass
  simp [hPos, hArg, Nat.not_le.2 hLast, Nat.not_le.2 hRoom, hDown]

theorem headDiscover_arg : frArg headDiscover = 1 := by decide +kernel

/-- The block sends nothing. -/
theorem chainEndFenced_silent : (discoverPass headDiscover headDiscoverPayload (discovering chainEndFenced)).out.isEmpty = true := by
  rw [discoverPass_last (by decide +kernel) (by rw [headDiscover_arg]; decide) (by decide +kernel) (by decide +kernel) (by decide +kernel)]
  decide +kernel

theorem execDiscoverRx_head : execDiscoverRx 0 headDiscover chainEndFenced =
    .next (discoverPass headDiscover headDiscoverPayload (discovering chainEndFenced)) := by
  obtain ⟨hOn, hType, hPort, hLen, hCrc⟩ := headDiscover_taken
  have hPos : (linkPos chainEndFenced == 0) = false := by decide +kernel
  simp [execDiscoverRx, linkRx, hOn, hType, hPort, hLen, hCrc, headDiscover_plain, hPos]

/-- Refutes O33: the last block of a chain sends no CHAIN_TABLE, which is a bulk frame, while it is fenced; the statement does not exclude the fence. -/
theorem not_discoveryRecordsTheChain : ¬ Obligations.DiscoveryRecordsTheChain := by
  unfold Obligations.DiscoveryRecordsTheChain
  intro h
  obtain ⟨-, -, hLast, -⟩ := h chainEndFenced 0 headDiscover (by decide +kernel)
  obtain ⟨t, g, hExec, hOut, -⟩ := hLast headDiscoverPayload headDiscover_taken headDiscover_plain (by decide +kernel) (by decide +kernel)
    (by rw [headDiscover_arg]; decide) (by decide +kernel) (by decide +kernel)
  change execDiscoverRx 0 headDiscover chainEndFenced = _ at hExec
  rw [execDiscoverRx_head] at hExec
  injection hExec with hNext
  have hSilent := chainEndFenced_silent
  rw [hNext, hOut] at hSilent
  exact Bool.noConfusion hSilent

end Sys2Proof.Machine

/-! SUPPORT. Requests and their answers (R308, R310, R326): what the reading of a message and a response leave of their channel. -/

namespace Sys2Proof.Machine

/-- What a doorbell changes: its pending bits, and what the latching of events can write. -/
theorem bellHost_frame (k : Fin 6) (m : Nat) (s : State) : Frame { pw := true } (evOr [MB.K2H_DB_PEND.PEND k.val]) s (bellHost k.val m s) :=
  ((Frame.refl _ _ s).markBits _ m (evOr_mem (List.mem_singleton_self _))).settle rfl (evIn_evOr _)

theorem chan_bellHost (j k : Fin 6) (m : Nat) (s : State) : chan j (bellHost k.val m s) = chan j s := by
  rw [chan, (bellHost_frame k m s).mb rfl, ← chan]

theorem chan_k2hPost (k : Fin 6) (w : List Nat) (s : State) : chan k (k2hPost k w s) = { chan k s with hdr := w.headD 0, k2h := w } := by
  rw [k2hPost, chan_bellHost, chan_setChan]

theorem takeMsg_frame (k : Fin 6) (s : State) :
    Frame { pw := true, mb := true } (evOr [MB.H2K_DB_PEND.PEND k.val, MB.K2H_DB_PEND.PEND k.val]) s (takeMsg k s) := by
  have hRead : Frame { pw := true, mb := true } (evOr [MB.H2K_DB_PEND.PEND k.val, MB.K2H_DB_PEND.PEND k.val]) s
      (setChan k { chan k s with msg := [], readN := 0, fullClr := some s.now } s) := (Frame.refl _ _ s).setChan rfl k _
  unfold takeMsg
  dsimp only
  generalize setChan k _ s = v at hRead ⊢
  exact ((hRead.clearBits _ 1 (evOr_mem (by simp))).markBits _ 2 (evOr_mem (by simp))).settle rfl (evIn_evOr _)

theorem mb_clearBits (f : Fld) (m : Nat) (s : State) : (clearBits f m s).mb = s.mb := ((Frame.refl {} (fun _ => true) s).clearBits f m rfl).mb rfl

theorem chan_clearBits (k : Fin 6) (f : Fld) (m : Nat) (s : State) : chan k (clearBits f m s) = chan k s := by
  unfold chan
  rw [mb_clearBits]

theorem chan_takeMsg (k : Fin 6) (s : State) : chan k (takeMsg k s) = { chan k s with msg := [], readN := 0, fullClr := some s.now } := by
  unfold takeMsg
  dsimp only
  rw [chan_bellHost, chan_clearBits, chan_setChan]

theorem rd_takeMsg {s : State} (h : s.regsWf = true) (k : Fin 6) {f : Fld} (hf : msgKey f.key = false) : rd f (takeMsg k s) = rd f s :=
  (takeMsg_told k (Told.refl s)).regs h f hf (by simp)

/-- What decides whether a response may go out is written by none of a channel's doorbells. -/
theorem abortDue_of_frame {u : Parts} {s t : State} {j k : Fin 6} (hFrame : Frame u (evOr [MB.H2K_DB_PEND.PEND j.val, MB.K2H_DB_PEND.PEND j.val]) s t)
    (h : s.regsWf = true) : abortDue k t = abortDue k s := by
  have hApart : ∀ j k : Fin 6, (ownKey (MB.H2K_STATUS.PEER k.val).key = false ∧
        evOr [MB.H2K_DB_PEND.PEND j.val, MB.K2H_DB_PEND.PEND j.val] (MB.H2K_STATUS.PEER k.val).key = false) ∧
      ownKey (MB.ABORT.VALID k.val).key = false ∧ evOr [MB.H2K_DB_PEND.PEND j.val, MB.K2H_DB_PEND.PEND j.val] (MB.ABORT.VALID k.val).key = false := by decide
  obtain ⟨⟨hOwnPeer, hPeer⟩, hOwnValid, hValid⟩ := hApart j k
  simp only [abortDue, peerUp, rdB, hFrame.regs h _ hOwnPeer hPeer, hFrame.regs h _ hOwnValid hValid]

/-- The reading of a message leaves room for its answer. -/
theorem State.room.takeMsg {s : State} {k : Fin 6} (h : s.room k) : (takeMsg k s).room k := by
  obtain ⟨hWf, hFree, hResps, hDue⟩ := h
  have hFrame := takeMsg_frame k s
  refine ⟨hFrame.wf hWf, ?_, ?_, ?_⟩
  · rw [k2hFree, chan_takeMsg, hFrame.now]
    exact hFree
  · rw [chan_takeMsg]
    exact hResps
  · rw [abortDue_of_frame hFrame hWf]
    exact hDue

theorem State.request.room {s : State} {k : Fin 6} {op len : Nat} {r : Req} (h : s.request k op len r) : s.room k := by
  obtain ⟨hWf, -, -, -, -, -, hFree, hResps, hDue⟩ := h
  exact ⟨hWf, hFree, hResps, hDue⟩

theorem State.request.wf {s : State} {k : Fin 6} {op len : Nat} {r : Req} (h : s.request k op len r) : s.regsWf = true := h.1

theorem State.request.len {s : State} {k : Fin 6} {op len : Nat} {r : Req} (h : s.request k op len r) : r.len = len := by
  obtain ⟨-, -, -, hLen, -⟩ := h
  exact hLen

theorem State.request.op {s : State} {k : Fin 6} {op len : Nat} {r : Req} (h : s.request k op len r) : r.op = op := by
  obtain ⟨-, -, hOp, -⟩ := h
  exact hOp

/-- Where a response has room it goes out at once. -/
theorem answer_of_room {s : State} {k : Fin 6} (h : s.room k) (imm : Bool) (op seq status : Nat) (p : List Nat) :
    answer k imm op seq status p s = k2hPost k ((op + seq * 2 ^ 8 + p.length * 2 ^ 16 + status * 2 ^ 24) :: p.map low32) s := by
  obtain ⟨-, hFree, hResps, hDue⟩ := h
  have hGo : (k2hFree k s && (chan k s).resps.isEmpty && !abortDue k s) = true := by rw [hFree, hResps, hDue]; rfl
  unfold answer
  exact if_pos hGo

theorem stands_k2hPost (k : Fin 6) (h : Nat) (w : List Nat) (s : State) :
    (chan k (k2hPost k (h :: w) s)).k2h = h :: w ∧ (chan k (k2hPost k (h :: w) s)).hdr = h := by
  rw [chan_k2hPost]
  exact ⟨rfl, rfl⟩

theorem answers_answer {s : State} {k : Fin 6} (h : s.room k) (imm : Bool) (op seq status : Nat) (p : List Nat) :
    (answer k imm op seq status p s).answers k op seq status p := by
  rw [answer_of_room h]
  exact stands_k2hPost k _ _ s

theorem msg_answer {s : State} {k : Fin 6} (h : s.room k) (imm : Bool) (op seq status : Nat) (p : List Nat) :
    (chan k (answer k imm op seq status p s)).msg = (chan k s).msg := by
  rw [answer_of_room h, chan_k2hPost]

theorem answers_reply {s : State} {k : Fin 6} {r : Req} {op : Nat} (h : s.room k) (hOp : r.op = op) (status : Nat) (p : List Nat) :
    (reply k r status p s).answers k op r.seq status p := by
  rw [reply, hOp]
  exact answers_answer h _ _ _ _ _

theorem msg_reply {s : State} {k : Fin 6} (h : s.room k) (r : Req) (status : Nat) (p : List Nat) : (chan k (reply k r status p s)).msg = (chan k s).msg :=
  msg_answer h _ _ _ _ _

/-- A request that is served at all is read and carried out. -/
theorem serve_request {s : State} {k : Fin 6} {op len : Nat} {r : Req} {chs : List Nat} (h : s.request k op len r) (hk : k.val ∈ chs)
    (body : Req → State → State) : serve k chs op body s = body r (takeMsg k s) := by
  obtain ⟨-, hReq, hOp, -, hNote, hReads, -⟩ := h
  have hServes : (chs.contains k.val && r.op == op && !r.note && reads k s) = true := by
    rw [List.contains_iff_mem.2 hk, hOp, hNote, hReads, beq_self_eq_true]
    rfl
  simp only [serve, hReq]
  rw [if_pos hServes]

/-- Another message is no case of a command. -/
theorem serve_other {s : State} {k : Fin 6} {op : Nat} (h : ∀ r, reqOf k s = some r → r.op ≠ op) (chs : List Nat) (body : Req → State → State) :
    serve k chs op body s = s := by
  unfold serve
  split
  · rfl
  · rename_i r hReq
    simp [h r hReq]

theorem rdB_takeMsg {s : State} (h : s.regsWf = true) (k : Fin 6) {f : Fld} (hf : msgKey f.key = false) : rdB f (takeMsg k s) = rdB f s := by
  rw [rdB, rd_takeMsg h k hf, rdB]

/-- What a request that is turned away with a status leaves: the message is read, and the response alone goes out. -/
structure TurnedAway (k : Fin 6) (op : Nat) (r : Req) (status : Nat) (s t : State) : Prop where
  answers : t.answers k op r.seq status []
  msg : (chan k t).msg = []
  keptMsg : s.keptMsg [] t
  rest : t = { s with regs := t.regs, pw := t.pw, mb := t.mb }

theorem State.request.turnedAway {s : State} {k : Fin 6} {op len : Nat} {r : Req} (h : s.request k op len r) (status : Nat) :
    TurnedAway k op r status s (reply k r status [] (takeMsg k s)) := by
  have hTold : Told s (reply k r status [] (Machine.takeMsg k s)) := reply_told k r status [] (takeMsg_told k (Told.refl s))
  refine ⟨answers_reply h.room.takeMsg h.op status [], ?_, hTold.regs h.wf, hTold.rest⟩
  rw [msg_reply h.room.takeMsg, chan_takeMsg]

end Sys2Proof.Machine

/-! O37. Every command of the Coachman firmware goes through the same checks in the same order (R326, R329). -/

namespace Sys2Proof.Machine

theorem firstFail_cons_true {e : Nat} (l : List (Bool × Nat)) : firstFail ((true, e) :: l) = some e := rfl
theorem firstFail_cons_false {e : Nat} (l : List (Bool × Nat)) : firstFail ((false, e) :: l) = firstFail l := rfl
theorem firstFail_nil : firstFail [] = none := rfl

theorem fencedF_apart : msgKey GL_STATUS.FENCED.key = false := by decide

section
variable {s : State} {k : Fin 6} {op len n : Nat} {r : Req} (h : s.request k op n r) (hk : k.val < 2)
include h hk

theorem State.request.mem_cm : k.val ∈ [0, 1] := by
  simp only [List.mem_cons, List.not_mem_nil, or_false]
  omega

theorem serveCm_fenced (hFenced : rdB GL_STATUS.FENCED s = true) (hOp : op ≠ 0x01) (body : Req → State → State) :
    serveCm k op len body s = reply k r stFENCED [] (takeMsg k s) := by
  have hNot : (op != 0x01) = true := bne_iff_ne.2 hOp
  rw [serveCm, serve_request h (h.mem_cm hk), rdB_takeMsg h.wf k fencedF_apart, hFenced, hNot, Bool.and_true, firstFail_cons_true]

theorem fenced_cm (hFenced : rdB GL_STATUS.FENCED s = false ∨ op = 0x01) : (rdB GL_STATUS.FENCED (takeMsg k s) && op != 0x01) = false := by
  rw [rdB_takeMsg h.wf k fencedF_apart]
  rcases hFenced with hFenced | rfl
  · rw [hFenced, Bool.false_and]
  · exact Bool.and_false _

theorem serveCm_badLength (hFenced : rdB GL_STATUS.FENCED s = false ∨ op = 0x01) (hLen : n ≠ len) (body : Req → State → State) :
    serveCm k op len body s = reply k r stBAD_LENGTH [] (takeMsg k s) := by
  have hNot : (r.len != len) = true := by rw [h.len]; exact bne_iff_ne.2 hLen
  rw [serveCm, serve_request h (h.mem_cm hk), fenced_cm h hk hFenced, firstFail_cons_false, hNot, firstFail_cons_true]

/-- A command that passes both checks is carried out. -/
theorem serveCm_runs (hFenced : rdB GL_STATUS.FENCED s = false ∨ op = 0x01) (body : Req → State → State) :
    serveCm k op n body s = body r (takeMsg k s) := by
  have hLen : (r.len != n) = false := by rw [h.len]; exact bne_self_eq_false _
  rw [serveCm, serve_request h (h.mem_cm hk), fenced_cm h hk hFenced, firstFail_cons_false, hLen, firstFail_cons_false, firstFail_nil]

end

/-- A state that the checks of the Coachman firmware's commands lead to, whatever a command that passes them does. -/
def Checked (k : Fin 6) (op len : Nat) (s t : State) : Prop := ∃ body, t = serveCm k op len body s

section
variable (k : Fin 6) (op len : Nat) (s : State)

theorem checked_serveCm (body : Req → State → State) : Checked k op len s (serveCm k op len body s) := ⟨body, rfl⟩

theorem checked_serveCtx (states : List Nat) (body : Ctx → Req → State → State) : Checked k op len s (serveCtx k op len states body s) :=
  checked_serveCm k op len s _

theorem checked_serveDeferred (states : List Nat) (body : Ctx → Req → State → State) : Checked k op len s (serveDeferred k op len states body s) :=
  checked_serveCtx k op len s states _

theorem checked_serveChain (force : Req → Bool) (body : Req → State → State) : Checked k op len s (serveChain k op len force body s) :=
  checked_serveCm k op len s _

end

theorem Checked.next {k : Fin 6} {op len : Nat} {s t : State} (h : Checked k op len s t) {o : Host.Outcome State Fault Refusal} (ho : o = .next t) :
    ∃ body, o = .next (serveCm k op len body s) := by
  obtain ⟨body, rfl⟩ := h
  exact ⟨body, ho⟩

/-- Every command of the Coachman firmware goes through its checks, where the digest engine does not hold its message back. -/
theorem exec_cmRow {i : Instr} {k : Fin 6} {op len : Nat} {s : State} (h : cmRow i = some (k, op, len))
    (hFree : op = 0x12 ∨ op = 0x15 → blockWaits k op s = false) : ∃ body, exec i s = .next (serveCm k op len body s) := by
  cases i <;> simp only [cmRow, Option.some.injEq, Prod.mk.injEq, reduceCtorEq] at h <;> obtain ⟨rfl, rfl, rfl⟩ := h
  case identify ch | setCmdRegion ch | setNoticeRoute ch | getCounters ch => exact (checked_serveCm _ _ _ _ _).next rfl
  case createContext x => exact (checked_serveCm _ _ _ _ _).next rfl
  case chainPosition ch | chainJoin ch | chainLeave ch => exact (checked_serveChain _ _ _ _ _ _).next rfl
  case destroyContext ch | setEdge ch | setSlice ch | abortJob ch | bounceSetup ch | startJob ch => exact (checked_serveCtx _ _ _ _ _ _).next rfl
  case loadWeights ch | stopJob ch | bounceIn ch => exact (checked_serveDeferred _ _ _ _ _ _).next rfl
  case refPass ch raster => exact (checked_serveDeferred _ _ _ _ _ _).next rfl
  case configContext ch block =>
    exact (checked_serveCtx _ _ _ _ _ _).next (congrArg Host.Outcome.next (if_neg (Bool.eq_false_iff.1 (hFree (Or.inl rfl)))))
  case loadWaybill ch block =>
    exact (checked_serveDeferred _ _ _ _ _ _).next (congrArg Host.Outcome.next (if_neg (Bool.eq_false_iff.1 (hFree (Or.inr rfl)))))

/-- Settles O37, through the checks that every command of the firmware goes through. -/
theorem firmwareCommandsAreCheckedInOrder : Obligations.FirmwareCommandsAreCheckedInOrder := by
  unfold Obligations.FirmwareCommandsAreCheckedInOrder
  intro i k op len s hRow hFree
  obtain ⟨body, hExec⟩ := exec_cmRow hRow hFree
  refine ⟨fun r n h hk hFenced hOp => ?_, fun r n h hk hFenced hLen => ?_, fun hOther => ?_⟩
  · have hAway := h.turnedAway stFENCED
    exact ⟨_, hExec.trans (congrArg _ (serveCm_fenced h hk hFenced hOp body)), hAway.answers, hAway.msg, hAway.keptMsg, hAway.rest⟩
  · have hAway := h.turnedAway stBAD_LENGTH
    exact ⟨_, hExec.trans (congrArg _ (serveCm_badLength h hk hFenced hLen body)), hAway.answers, hAway.msg, hAway.keptMsg, hAway.rest⟩
  · exact hExec.trans (congrArg _ (serve_other hOther _ _))

end Sys2Proof.Machine

/-! O38. GET_COUNTERS brings the units up to the present cycle (R335), and the refutation of O38. -/

namespace Sys2Proof.Machine

/-- A block whose Coachman accepts commands, and a request with SEQ 5 that it is given on channel 0. -/
def cmReady : State := wrs [(MB.H2K_STATUS.PEER 0, 0), (GL_STATUS.CMD_READY, 1)] State.reset
def asked (op : Nat) (ws : List Nat) : Req := ⟨op, 5, ws.length, false, ws⟩
def ask (op : Nat) (ws : List Nat) (s : State) : State :=
  setChan 0 { chan 0 s with msg := (op + 5 * 2 ^ 8 + ws.length * 2 ^ 16) :: ws } s

theorem gig_reply (k : Fin 6) (r : Req) (status : Nat) (p : List Nat) (s : State) : (reply k r status p s).gig = s.gig :=
  ((Frame.refl { pw := true, mb := true } (fun _ => true) s).reply rfl rfl (fun _ _ => rfl) k r status p).gig rfl

/-- The counters are asked for while a Gig slot runs, which has been carried out up to its first cycle. -/
def countersInSlot : State := ask 0x04 [] { cmReady with now := 100, gig := { cmReady.gig with run := some 0, len := 50 } }

/-- Refutes O38: GET_COUNTERS carries a running Gig slot out up to the present cycle; the statement keeps the engine as it was. -/
theorem not_informationAndRegionCommandsAreAnswered : ¬ Obligations.InformationAndRegionCommandsAreAnswered := by
  unfold Obligations.InformationAndRegionCommandsAreAnswered
  intro h
  have hRequest : countersInSlot.cmRequest 0 0x04 0 (asked 0x04 []) := by
    unfold State.cmRequest State.request
    decide +kernel
  -- The slot is then carried out up to the present cycle.
  have hBusy : (settleUnits (takeMsg 0 countersInSlot)).gig.busyN ≠ countersInSlot.gig.busyN := by decide +kernel
  obtain ⟨-, hCounters, -⟩ := h countersInSlot 0 (asked 0x04 [])
  obtain ⟨t, hExec, -, hRest, -⟩ := hCounters hRequest
  obtain ⟨hRequest, hChan, hFenced⟩ := hRequest
  change Host.Outcome.next (serveCm 0 0x04 0 (getCounters 0) countersInSlot) = _ at hExec
  rw [serveCm_runs hRequest hChan (Or.inl hFenced)] at hExec
  have hNext : getCounters 0 (asked 0x04 []) (takeMsg 0 countersInSlot) = t := Host.Outcome.next.inj hExec
  have hGig : t.gig = countersInSlot.gig := by rw [hRest]
  rw [← hNext, getCounters, gig_reply] at hGig
  exact hBusy (congrArg GigSt.busyN hGig)

end Sys2Proof.Machine

/-! O40. The time of a deferred command counts from the reading of its message, the wait for the digest engine included (R332), and the refutation of O40. -/

namespace Sys2Proof.Machine

/-- The first words of the digest of an empty block, which a LOAD_WAYBILL for context 1 announces. -/
def emptyDigestWords : List Nat := (List.range 4).map (wordN (sha384 []))
def emptyWaybill : Req := asked 0x15 ([1, 0, 0] ++ emptyDigestWords)

/-- The message of that command has waited for the digest engine since the cycle before. -/
def waybillHeld : State :=
  let s := ask 0x15 ([1, 0, 0] ++ emptyDigestWords) { wr (GL_CTX_STATUS.STATE 1) 1 cmReady with now := 1 }
  setChan 0 { chan 0 s with heldAt := some 0 } s

/-- Refutes O40: a LOAD_WAYBILL that has waited for the digest engine is deferred with the cycle in which that wait began, not with the present one. -/
theorem not_deferredLoadsAndPassesComplete : ¬ Obligations.DeferredLoadsAndPassesComplete := by
  unfold Obligations.DeferredLoadsAndPassesComplete
  intro h
  have hRequest : waybillHeld.ctxRequest 0 0x15 7 0 emptyWaybill := by
    unfold State.ctxRequest State.cmRequest State.request
    decide +kernel
  have hDigest : slice (sha384 []) 0 16 = emptyWaybill.bytes 4 7 := by decide +kernel
  -- The block is the empty one.
  have hBlock : commandBlock 0 emptyWaybill (fun b => wordN b 2) [] (blockRead 0 emptyWaybill (takeMsg 0 waybillHeld)) =
      .ok ([], blockRead 0 emptyWaybill (takeMsg 0 waybillHeld)) := by
    have hPlain : rdB (GL_CTX_STATUS.CONFIDENTIAL (cid 0)) (blockRead 0 emptyWaybill (takeMsg 0 waybillHeld)) = false := by decide +kernel
    have hLen : (decide ((blockRead 0 emptyWaybill (takeMsg 0 waybillHeld)).mb.regionSize < emptyWaybill.w 2 + emptyWaybill.w 3) ||
        emptyWaybill.w 2 % 64 != 0 || emptyWaybill.w 3 != wordN [] 2) = false := by decide +kernel
    have hSlice : slice [] 0 (emptyWaybill.w 3) = ([] : List Byte) := by decide +kernel
    unfold commandBlock
    simp only [hPlain, hSlice, hLen, hDigest, bne_self_eq_false, firstFail_cons_false, firstFail_nil, Bool.false_eq_true, if_false]
  obtain ⟨hLoad, -⟩ := h waybillHeld 0 0 emptyWaybill ⟨0, 0, 0, 0, 0, [], []⟩
  obtain ⟨t, hExec, -, -, hRest⟩ := hLoad [] _ _ hRequest (Or.inl (by decide +kernel)) (by decide +kernel) (by decide +kernel)
    (by decide +kernel) hBlock
  -- The command that is deferred bears the cycle in which its message began to wait.
  have hAt : (match execLoadWaybill 0 [] waybillHeld with
      | .next t => t.mb.deferred.map (·.at_)
      | _ => []) = [0] := by decide +kernel
  change execLoadWaybill 0 [] waybillHeld = _ at hExec
  rw [hExec] at hAt
  have hEarlier : t.mb.deferred.map (·.at_) = [0] := hAt
  rw [hRest] at hEarlier
  revert hEarlier
  decide +kernel

end Sys2Proof.Machine

/-! O41. A STOP_JOB whose message has waited counts its time from there (R327, R332), and the refutation of O41. -/

namespace Sys2Proof.Machine

/-- A job that has released nothing. -/
def idleJob : JobSt := ⟨0, 0, false, true, 0, 0, 0, 0, none, 0, []⟩

/-- Context 1 runs that job, and the message of a STOP_JOB for it has waited since the cycle before. -/
def stopHeld : State :=
  let s := ask 0x21 [1, 1] { wr (GL_CTX_STATUS.STATE 1) 3 cmReady with now := 1 }
  modCx 0 (fun c => { c with job := some idleJob }) (setChan 0 { chan 0 s with heldAt := some 0 } s)

/-- Refutes O41: a STOP_JOB whose message has waited is deferred with the cycle in which that wait began, not with the present one. -/
theorem not_jobsStartStopAndAbort : ¬ Obligations.JobsStartStopAndAbort := by
  unfold Obligations.JobsStartStopAndAbort
  intro h
  have hRequest : stopHeld.ctxRequest 0 0x21 2 0 (asked 0x21 [1, 1]) := by
    unfold State.ctxRequest State.cmRequest State.request
    decide +kernel
  obtain ⟨-, -, hStop, -⟩ := h stopHeld 0 0 (asked 0x21 [1, 1]) ⟨0, 0, 0, 0, 0, [], []⟩
  obtain ⟨t, hExec, hDeferred, -⟩ := hStop idleJob hRequest (by decide +kernel) (by decide +kernel) (by decide +kernel)
  -- The command that is deferred bears the cycle in which its message began to wait.
  have hAt : (match execStopJob 0 stopHeld with
      | .next t => t.mb.deferred.map (·.at_)
      | _ => []) = [0] := by decide +kernel
  change execStopJob 0 stopHeld = _ at hExec
  rw [hExec] at hAt
  have hEarlier : t.mb.deferred.map (·.at_) = [0] := hAt
  rw [hDeferred] at hEarlier
  revert hEarlier
  decide +kernel

end Sys2Proof.Machine

/-! O44. A refused DEBUG_UNLOCK whose answer wakes a sleeping block (R359, R382, R523), and the refutation of O44. -/

namespace Sys2Proof.Machine

/-- A DEBUG_UNLOCK with SEQ 5 whose block is empty where it is read. -/
def unlockAsked : Req := ⟨0x83, 5, 7, false, [0, 0, 192] ++ (List.range 4).map (wordN (sha384 (slice [] 0 192)))⟩

/-- A block in PROVISION that sleeps with an armed Lantern, which watches the doorbell of MBS0; the unlock latch is set. -/
def unlockAsleep : State :=
  let s := wrs [(MB.H2K_STATUS.PEER 4, 0), (MB.K2H_DB_MASK.MASK 4, 0), (PM_PWR_STATUS.ON 20, 1), (SB_STATUS.LIFECYCLE, 3), (PM_SLEEP.STATE, 2),
    (PM_LAN_CTRL.ARM, 1), (PM_LAN_SEL.EN 0 0, 1), (PM_LAN_SEL.SRC 0 0, 12)] State.reset
  setChan 4 { chan 4 s with msg := (0x83 + 5 * 2 ^ 8 + 7 * 2 ^ 16) :: unlockAsked.words } { s with pw := { s.pw with lantern := true, unlock := true } }

/-- Refutes O44: the doorbell of an answer can wake the block through the Lantern, and a wake clears the unlock latch. -/
theorem not_strongboxLifecycleCommandsAreAnswered : ¬ Obligations.StrongboxLifecycleCommandsAreAnswered := by
  unfold Obligations.StrongboxLifecycleCommandsAreAnswered
  intro h
  have hRequest : unlockAsleep.sbRequest 4 0x83 7 unlockAsked := by
    unfold State.sbRequest State.request
    decide +kernel
  have hBlock : sbBlock unlockAsked (some 192) [] = none := by decide +kernel
  obtain ⟨-, -, -, -, -, -, -, -, -, -, -, hRefused⟩ := h unlockAsleep unlockAsked [] false
  obtain ⟨t, hExec, -, -, hUnlock, -⟩ := hRefused hRequest (by decide +kernel) hBlock (Or.inl (by decide +kernel))
  -- The doorbell wakes the block, and the wake clears the latch.
  have hWakes : (match execDebugUnlock 4 [] unlockAsleep with
      | .next t => t.pw.unlock
      | _ => true) = false := by decide +kernel
  change execDebugUnlock 4 [] unlockAsleep = _ at hExec
  rw [hExec] at hWakes
  exact absurd (hUnlock.symm.trans hWakes) (by decide)

end Sys2Proof.Machine

/-! O53. Security-class faults: each is recorded and ends in the one-step reset, at once or after the reset sequencer's fallback (R482, R485, R486, R493,
R498, R509). -/

namespace Sys2Proof.Machine

/-- Sampling the levels changes nothing of the faults' state. -/
theorem settle_flt (s : State) : (settle s).flt = s.flt := by rw [(settle_heard (Heard.refl s)).rest]

/-- A reset that begins keeps the security-class fault that waits (R498, R519). -/
theorem beginReset_security (cause : Nat) (fault : Bool) (s : State) : (beginReset cause fault s).flt.security = s.flt.security := by
  have hFall (u : State) : (holdFall u).flt = u.flt := by unfold holdFall; split <;> rfl
  have hOff (u : State) : (each resetOrder (fun d => wrs (domainOff d)) u).flt = u.flt := by rw [each_wrs_eq_wrs, wrs_eq_regs]
  have hCount : (if (fault && s.pw.reset.isNone) = true then countFltReset s else s).flt.security = s.flt.security := by split <;> rfl
  unfold beginReset
  dsimp only
  generalize (if (fault && s.pw.reset.isNone) = true then countFltReset s else s) = u at hCount ⊢
  rw [← hCount]
  have hLock : (if (cause == 5) = true then u else { u with pw := { u.pw with unlock := false } }).flt = u.flt := by split <;> rfl
  generalize (if (cause == 5) = true then u else { u with pw := { u.pw with unlock := false } }) = v at hLock ⊢
  rw [← hLock]
  split
  · rfl
  · split
    · split <;> rfl
    · rw [settle_flt]
      exact congrArg FltSt.security ((hFall _).trans (hOff _))

/-- The reset of a security-class fault leaves none that waits (R498). -/
theorem securityReset_security (code unit : Nat) (s : State) : (securityReset code unit s).flt.security = none := by
  rw [securityReset_eq]
  split
  · unfold holdFall
    split <;> rfl
  · exact beginReset_security 2 true _

/-- A Strongbox that cannot act leaves SECURITY_FAULT pending for the reset sequencer (R498). -/
theorem securityFault_waits {s : State} (code : Nat) (hReset : s.pw.reset = none) (hActs : sbActs s = false) :
    securityFault code s = settle { s with flt := { s.flt with security := some ⟨code, 21, s.now⟩ } } := by
  simp [securityFault, hReset, hActs]

/-- The first expiry of the Strongbox's watchdog is an event, and its time is kept (R485). -/
theorem execSbWdog_first {s : State} (hReset : s.pw.reset = none) (hOn : domOn 21 s = true) (hFirst : s.flt.sbWdog = none) :
    execSbWdog s = .next (raise 105 { s with flt := { s.flt with sbWdog := some s.now } }) := by
  simp [execSbWdog, hReset, hOn, hFirst]

/-- The second expiry is a fault of the security class (R485). -/
theorem execSbWdog_second {s : State} {t0 : Nat} (hReset : s.pw.reset = none) (hOn : domOn 21 s = true) (hFirst : s.flt.sbWdog = some t0)
    (hLate : t0 + ms 1 ≤ s.now) : execSbWdog s = .next (securityReset 0x43 20 s) := by
  simp [execSbWdog, hReset, hOn, hFirst, Nat.not_lt.2 hLate]

theorem execSecurityResetFallback_due {s : State} {f : SecFault} (hReset : s.pw.reset = none) (hWaits : s.flt.security = some f)
    (hLate : f.at_ + us 100 ≤ s.now) : execSecurityResetFallback s = .next (securityReset f.code f.unit s) := by
  simp [execSecurityResetFallback, hReset, hWaits, Nat.not_lt.2 hLate]

theorem holdFall_eq_pins (s : State) : holdFall s = { s with pins := (holdFall s).pins } := by
  unfold holdFall
  split <;> rfl

/-- Settles O53, clause by clause: each security-class fault that acts is the one-step reset of R498. -/
theorem securityFaultsResetTheBlock : Obligations.SecurityFaultsResetTheBlock := by
  unfold Obligations.SecurityFaultsResetTheBlock
  intro s h
  refine ⟨fun ha hOn => ⟨fun hFirst => ?first, fun t0 hFirst hLate => ?second, ?clock, fun hActs => ?acts, fun hActs => ?waits⟩,
    fun f ha hWaits hCode hUnit hLate => ?fallback, fun r hReset hLate => ?timeout, fun hLate => ?decay⟩
  case first =>
    have hHeard := raise_heard 105 (Heard.refl { s with flt := { s.flt with sbWdog := some s.now } })
    exact ⟨_, execSbWdog_first ha.1 hOn hFirst, by rw [hHeard.rest], hHeard.regs h, by rw [hHeard.rest]⟩
  case second => exact ⟨_, execSbWdog_second ha.1 hOn hFirst hLate, securityReset_secured h _ _ ha (by decide) (by decide)⟩
  case clock =>
    exact ⟨_, by change execSbClock s = _; rw [execSbClock, if_pos (by simp [hOn, ha.1])], securityReset_secured h _ _ ha (by decide) (by decide)⟩
  case acts =>
    refine ⟨_, ?_, securityReset_secured h 0x44 21 ha (by decide) (by decide)⟩
    change execSbEcc s = _
    rw [execSbEcc, if_pos hOn, securityFault, if_neg (by simp [ha.1]), if_pos hActs]
  case waits =>
    have hHeard := settle_heard (Heard.refl { s with flt := { s.flt with security := some ⟨0x44, 21, s.now⟩ } })
    refine ⟨_, ?_, by rw [hHeard.rest], hHeard.regs h, by rw [hHeard.rest]⟩
    change execSbEcc s = _
    rw [execSbEcc, if_pos hOn, securityFault_waits 0x44 ha.1 hActs]
  case fallback =>
    exact ⟨_, execSecurityResetFallback_due ha.1 hWaits hLate, securityReset_secured h _ _ ha hCode hUnit, securityReset_security _ _ _⟩
  case timeout =>
    refine ⟨holdFall { s with pins := { s.pins with pwrCycN := false } }, ?_, holdFall_pwrCycN _, holdFall_hold _, ?_⟩
    · change execSeqTimeout s = _
      simp [execSeqTimeout, hReset, Nat.not_lt.2 hLate]
    · rw [holdFall_eq_pins]
  case decay =>
    exact ⟨_, by change execFltResetsDecay s = _; rw [execFltResetsDecay, if_pos hLate], rd_wr_same h _ _,
      fun f _ hf => rd_wr_ne h _ _ _ (hf _ (by simp)), rfl⟩

end Sys2Proof.Machine

/-! O60. The trace's control register, the gate of its pins, and the test access port (R549, R550, R551). -/

namespace Sys2Proof.Machine

/-- A write of DBG_CTRL is refused: the status says so, with its cause (R551). -/
def dbgRefuse (c : Nat) (s : State) : State := wr DBG_STATUS.CAUSE c (markBit DBG_STATUS.REFUSED s)

/-- The divider and the group of a write that is not refused; the trace is quiet where the group of a running trace turns (R549). -/
def dbgChosen (d : Nat) (s : State) : State :=
  let u := wrs [(DBG_CTRL.DIV, bits d 1 3), (DBG_CTRL.GROUP, bits d 8 6)] s
  if rdB DBG_CTRL.EN s && bits d 8 6 != rd DBG_CTRL.GROUP s then { u with tap := { u.tap with quiet := u.now + 2 ^ bits d 1 3 } } else u

/-- The enable bit of a write that is not refused by a rein's holder (R551). -/
def dbgEnable (d : Nat) (s : State) : State :=
  if !bit d 0 then wr DBG_CTRL.EN 0 s
  else if !traceLife s then dbgRefuse 1 (wr DBG_CTRL.EN 0 s)
  else if confidential s then dbgRefuse 2 (wr DBG_CTRL.EN 0 s)
  else wr DBG_CTRL.EN 1 s

theorem dbgWrite_free {d : Nat} {s : State} (hFree : rd (SB_REINS.HOLDERS 5) s = 0) : dbgWrite d s = dbgEnable d (dbgChosen d s) := by
  unfold dbgWrite
  rw [if_neg (by simp [reinHolder, hFree])]
  rfl

theorem dbgWrite_held {d : Nat} {s : State} (hHeld : rd (SB_REINS.HOLDERS 5) s ≠ 0) :
    dbgWrite d s = dbgRefuse 3 (if bit d 0 then wr DBG_CTRL.EN 0 s else s) := by
  unfold dbgWrite
  rw [if_pos (by simpa [reinHolder] using hHeld)]
  rfl

/-- DIV and GROUP are different fields. -/
theorem dbgKeys_nodup {d g : Nat} : ([(DBG_CTRL.DIV, d), (DBG_CTRL.GROUP, g)].map (·.1.key)).Nodup :=
  (by decide : [DBG_CTRL.DIV.key, DBG_CTRL.GROUP.key].Nodup)

theorem rd_dbgChosen (d : Nat) (s : State) (f : Fld) : rd f (dbgChosen d s) = rd f (wrs [(DBG_CTRL.DIV, bits d 1 3), (DBG_CTRL.GROUP, bits d 8 6)] s) := by
  unfold dbgChosen
  split <;> rfl

section
variable {s : State} (h : s.regsWf = true)
include h

theorem rd_dbgRefuse_refused (c : Nat) : rd DBG_STATUS.REFUSED (dbgRefuse c s) = 1 :=
  (rd_wr_ne (regsWf_wr (regsWf_wr h _ _) _ _) _ _ _ (by decide)).trans (rd_markBit_same h (by decide) rfl)

theorem rd_dbgRefuse_cause {c : Nat} (hc : c < 8) : rd DBG_STATUS.CAUSE (dbgRefuse c s) = c :=
  (rd_wr_same (regsWf_wr (regsWf_wr h _ _) _ _) _ _).trans (Nat.mod_eq_of_lt hc)

theorem rd_dbgRefuse_ne (c : Nat) {f : Fld} (hOwn : ownKey f.key = false) (hRefused : f.key ≠ DBG_STATUS.REFUSED.key) (hCause : f.key ≠ DBG_STATUS.CAUSE.key) :
    rd f (dbgRefuse c s) = rd f s :=
  (rd_wr_ne (regsWf_wr (regsWf_wr h _ _) _ _) _ _ _ hCause).trans (rd_markBits_ne h f _ 1 hOwn hRefused)

theorem regsWf_dbgChosen (d : Nat) : (dbgChosen d s).regsWf = true := by
  have hWrites := regsWf_wrs h [(DBG_CTRL.DIV, bits d 1 3), (DBG_CTRL.GROUP, bits d 8 6)]
  unfold dbgChosen
  split <;> exact hWrites

theorem rd_dbgChosen_ne (d : Nat) {f : Fld} (hDiv : f.key ≠ DBG_CTRL.DIV.key) (hGroup : f.key ≠ DBG_CTRL.GROUP.key) : rd f (dbgChosen d s) = rd f s := by
  rw [rd_dbgChosen]
  exact rd_wrs_ne _ h f (by simp [hDiv, hGroup])

theorem rd_dbgChosen_div (d : Nat) : rd DBG_CTRL.DIV (dbgChosen d s) = bits d 1 3 := by
  rw [rd_dbgChosen, rd_wrs_nodup (v := bits d 1 3) dbgKeys_nodup h (by simp)]
  exact Nat.mod_mod _ _

theorem rd_dbgChosen_group (d : Nat) : rd DBG_CTRL.GROUP (dbgChosen d s) = bits d 8 6 := by
  rw [rd_dbgChosen, rd_wrs_nodup (v := bits d 8 6) dbgKeys_nodup h (by simp)]
  exact Nat.mod_mod _ _

theorem rd_dbgEnable_ne (d : Nat) {f : Fld} (hOwn : ownKey f.key = false) (hEn : f.key ≠ DBG_CTRL.EN.key) (hRefused : f.key ≠ DBG_STATUS.REFUSED.key)
    (hCause : f.key ≠ DBG_STATUS.CAUSE.key) : rd f (dbgEnable d s) = rd f s := by
  have hWr (v : Nat) : rd f (wr DBG_CTRL.EN v s) = rd f s := rd_wr_ne h _ _ _ hEn
  have hNo (c : Nat) : rd f (dbgRefuse c (wr DBG_CTRL.EN 0 s)) = rd f s := (rd_dbgRefuse_ne (regsWf_wr h _ _) c hOwn hRefused hCause).trans (hWr 0)
  unfold dbgEnable
  split
  · exact hWr 0
  · split
    · exact hNo 1
    · split
      · exact hNo 2
      · exact hWr 1

/-- EN is set where the write asks for it, the lifecycle lets the trace run and confidential mode does not hide it (R546, R551). -/
theorem rd_dbgEnable_en (d : Nat) : rd DBG_CTRL.EN (dbgEnable d s) = b2n (bit d 0 && traceLife s && !confidential s) := by
  have hNo (c : Nat) : rd DBG_CTRL.EN (dbgRefuse c (wr DBG_CTRL.EN 0 s)) = 0 :=
    (rd_dbgRefuse_ne (regsWf_wr h _ _) c (by decide) (by decide) (by decide)).trans (rd_wr_same h _ _)
  unfold dbgEnable
  cases bit d 0 with
  | false => exact rd_wr_same h _ _
  | true =>
    cases traceLife s with
    | false => exact hNo 1
    | true =>
      cases confidential s with
      | true => exact hNo 2
      | false => exact rd_wr_same h _ _

end

theorem dbgRefuse_frame (c : Nat) (s : State) : dbgRefuse c s = { s with regs := (dbgRefuse c s).regs } := rfl

theorem dbgEnable_frame (d : Nat) (s : State) : dbgEnable d s = { s with regs := (dbgEnable d s).regs } := by
  unfold dbgEnable
  split
  · rfl
  · split
    · rfl
    · split <;> rfl

theorem dbgChosen_frame (d : Nat) (s : State) : dbgChosen d s = { s with regs := (dbgChosen d s).regs, tap := (dbgChosen d s).tap } := by
  unfold dbgChosen
  split <;> rfl

/-- The first clause of O60: a write of DBG_CTRL while no processor holds the debug rein (R551). -/
theorem execDbgCtrlWrite_free {s : State} (data : Word) (sec : Bool) (hServed : s.served 0xC00000 sec) (hFree : rd (SB_REINS.HOLDERS 5) s = 0) :
    ∃ t, exec (.dbgCtrlWrite data sec) s = .next t ∧ rd DBG_CTRL.DIV t = bits data.toNat 1 3 ∧ rd DBG_CTRL.GROUP t = bits data.toNat 8 6 ∧
      rd DBG_CTRL.EN t = b2n (bit data.toNat 0 && traceLife s && !confidential s) ∧
      (bit data.toNat 0 = true → traceLife s = false → rd DBG_STATUS.REFUSED t = 1 ∧ rd DBG_STATUS.CAUSE t = 1) ∧
      (bit data.toNat 0 = true → traceLife s = true → confidential s = true → rd DBG_STATUS.REFUSED t = 1 ∧ rd DBG_STATUS.CAUSE t = 2) ∧
      s.kept [DBG_CTRL.EN, DBG_CTRL.DIV, DBG_CTRL.GROUP, DBG_STATUS.REFUSED, DBG_STATUS.CAUSE] t ∧
      t = { s with regs := t.regs, out := .resp true 0 0 :: s.out, tap := t.tap } := by
  have h := hServed.1
  have hu := regsWf_dbgChosen h data.toNat
  have hLife : traceLife (dbgChosen data.toNat s) = traceLife s := by
    unfold traceLife rdB
    rw [rd_dbgChosen_ne h _ (by decide) (by decide), rd_dbgChosen_ne h _ (by decide) (by decide)]
  have hConf : confidential (dbgChosen data.toNat s) = confidential s := by
    unfold confidential rdB
    rw [rd_dbgChosen_ne h _ (by decide) (by decide)]
  have hRun : exec (.dbgCtrlWrite data sec) s = .next (emit (.resp true 0 0) (dbgEnable data.toNat (dbgChosen data.toNat s))) := by
    change execDbgCtrlWrite data sec s = _
    rw [execDbgCtrlWrite, hostTo_served hServed, dbgWrite_free hFree]
  refine ⟨_, hRun, ?div, ?group, ?en, fun hAsks hNo => ?life, fun hAsks hYes hHidden => ?conf, fun f hOwn hf => ?kept, ?frame⟩
  case div => exact (rd_dbgEnable_ne hu _ (by decide) (by decide) (by decide) (by decide)).trans (rd_dbgChosen_div h _)
  case group => exact (rd_dbgEnable_ne hu _ (by decide) (by decide) (by decide) (by decide)).trans (rd_dbgChosen_group h _)
  case en => exact (rd_dbgEnable_en hu _).trans (by rw [hLife, hConf])
  case life =>
    have hEnable : dbgEnable data.toNat (dbgChosen data.toNat s) = dbgRefuse 1 (wr DBG_CTRL.EN 0 (dbgChosen data.toNat s)) := by
      simp [dbgEnable, hAsks, hLife, hNo]
    rw [hEnable]
    exact ⟨rd_dbgRefuse_refused (regsWf_wr hu _ _) 1, rd_dbgRefuse_cause (regsWf_wr hu _ _) (by decide)⟩
  case conf =>
    have hEnable : dbgEnable data.toNat (dbgChosen data.toNat s) = dbgRefuse 2 (wr DBG_CTRL.EN 0 (dbgChosen data.toNat s)) := by
      simp [dbgEnable, hAsks, hLife, hYes, hConf, hHidden]
    rw [hEnable]
    exact ⟨rd_dbgRefuse_refused (regsWf_wr hu _ _) 2, rd_dbgRefuse_cause (regsWf_wr hu _ _) (by decide)⟩
  case kept =>
    simp only [List.forall_mem_cons] at hf
    obtain ⟨hEn, hDiv, hGroup, hRefused, hCause, -⟩ := hf
    exact (rd_dbgEnable_ne hu _ hOwn hEn hRefused hCause).trans (rd_dbgChosen_ne h _ hDiv hGroup)
  case frame =>
    rw [dbgEnable_frame]
    generalize (dbgEnable data.toNat (dbgChosen data.toNat s)).regs = g
    rw [dbgChosen_frame]
    rfl

/-- A write of DBG_CTRL while a processor holds the debug rein is refused (R551). -/
theorem execDbgCtrlWrite_held {s : State} (data : Word) (sec : Bool) (hServed : s.served 0xC00000 sec) (hHeld : rd (SB_REINS.HOLDERS 5) s ≠ 0) :
    ∃ t, exec (.dbgCtrlWrite data sec) s = .next t ∧ rd DBG_STATUS.REFUSED t = 1 ∧ rd DBG_STATUS.CAUSE t = 3 ∧
      (bit data.toNat 0 = true → rd DBG_CTRL.EN t = 0) ∧ s.kept [DBG_CTRL.EN, DBG_STATUS.REFUSED, DBG_STATUS.CAUSE] t := by
  have h := hServed.1
  have hRun : exec (.dbgCtrlWrite data sec) s = .next (emit (.resp true 0 0) (dbgRefuse 3 (if bit data.toNat 0 then wr DBG_CTRL.EN 0 s else s))) := by
    change execDbgCtrlWrite data sec s = _
    rw [execDbgCtrlWrite, hostTo_served hServed, dbgWrite_held hHeld]
  have hu : (if bit data.toNat 0 then wr DBG_CTRL.EN 0 s else s).regsWf = true := by
    split
    · exact regsWf_wr h _ _
    · exact h
  refine ⟨_, hRun, rd_dbgRefuse_refused hu 3, rd_dbgRefuse_cause hu (by decide), fun hAsks => ?_, fun f hOwn hf => ?_⟩
  · refine (rd_dbgRefuse_ne hu 3 (by decide) (by decide) (by decide)).trans ?_
    rw [if_pos hAsks]
    exact rd_wr_same h _ _
  · simp only [List.forall_mem_cons] at hf
    obtain ⟨hEn, hRefused, hCause, -⟩ := hf
    refine (rd_dbgRefuse_ne hu 3 hOwn hRefused hCause).trans ?_
    split
    · exact rd_wr_ne h _ _ _ hEn
    · rfl

end Sys2Proof.Machine

/-! O60. The test access port: its instructions, the reset that follows SCAN_SEL, and the result of the built-in memory test (R550). -/

namespace Sys2Proof.Machine

/-- A reset ends an unlock of the lifecycle (R382). -/
def unlockEnded (s : State) : State := { s with pw := { s.pw with unlock := false } }

/-- A reset that no fault drives, while no other is in progress and the block neither sleeps nor is held by a trip: what is then sampled. -/
theorem beginReset_unforced {s : State} {cause : Nat} (hCause : cause ≠ 5) (ha : s.awake) :
    ∃ u, beginReset cause false s = settle u ∧ u.regs = (resetWrites cause (unlockEnded s)).regs ∧
      u.pw.reset = some ⟨cause, (resetWrites cause (unlockEnded s)).now, false⟩ := by
  obtain ⟨hReset, hTrip, hSleep⟩ := ha
  have hAwake : ¬ (rdB PM_THERM_STATUS.TRIP (unlockEnded s) || rd PM_SLEEP.STATE (unlockEnded s) == 2) = true := by
    simp [unlockEnded, rdB, hTrip, hSleep]
  have hNone : (unlockEnded s).pw.reset = none := hReset
  unfold beginReset
  dsimp only
  rw [if_neg (show ¬ (false && s.pw.reset.isNone) = true by simp), if_neg (show ¬ (cause == 5) = true by simpa using hCause)]
  change ∃ u, (if (rdB PM_THERM_STATUS.TRIP (unlockEnded s) || rd PM_SLEEP.STATE (unlockEnded s) == 2) = true then _ else
    match (unlockEnded s).pw.reset with
    | some r => _
    | none => _) = settle u ∧ _
  rw [if_neg hAwake, hNone]
  exact ⟨_, rfl, holdFall_regs _, rfl⟩

theorem resetWrites_now (cause : Nat) (s : State) : (resetWrites cause s).now = s.now := by
  rw [resetWrites_eq_wrs, wrs_eq_regs]
  rfl

/-- The begin of a reset shows every domain but PD_AON off (R519). -/
theorem resetWrites_dark {s : State} (h : s.regsWf = true) (cause : Nat) : (resetWrites cause s).dark := by
  intro d hd hAon
  have hOrder : ∀ e, e < 24 → e ≠ 22 → (PM_PWR_STATUS.ON e, 0) ∈ resetOrder.flatMap domainOff := by decide
  have hKeys : ((resetOrder.flatMap domainOff).map (·.1.key)).Nodup := by decide
  rw [resetWrites_eq_wrs, rd_wrs_nodup hKeys (regsWf_resetRecorded h cause) (hOrder d hd hAon)]
  exact Nat.zero_mod _

/-- The power of a domain is no field of the event controller, nor the reset's cause. -/
theorem pwrStatus_key_apart : ∀ d, d < 24 → evKey (PM_PWR_STATUS.ON d).key = false ∧ (PM_PWR_STATUS.ON d).key ≠ PM_RST_CAUSE.CAUSE.key := by decide

/-- A reset that no fault drives has begun: it is in progress, and every domain but PD_AON is off (R518, R519). -/
theorem beginReset_unforced_dark {s : State} (h : s.regsWf = true) {cause : Nat} (hCause : cause ≠ 5) (ha : s.awake) :
    (beginReset cause false s).regsWf = true ∧ (beginReset cause false s).pw.reset = some ⟨cause, s.now, false⟩ ∧ (beginReset cause false s).dark := by
  obtain ⟨u, hBegin, hRegs, hReset⟩ := beginReset_unforced hCause ha
  have hw : (unlockEnded s).regsWf = true := h
  have wfU : u.regsWf = true := (congrArg (SMap.wf fieldReset) hRegs).trans (regsWf_resetWrites hw cause)
  have hHeard := settle_heard (Heard.refl u)
  have hSleep : rd PM_SLEEP.STATE u = 3 := (rd_congr hRegs _).trans (rd_sleep_resetWrites hw cause)
  have hUnwoken := (Unwoken.refl wfU).settle (by simp [NoSleep, hSleep])
  rw [hBegin]
  refine ⟨hHeard.wf wfU, ?_, fun d hd hAon => ?_⟩
  · rw [hUnwoken.pw, hReset, resetWrites_now]
    rfl
  · rw [hHeard.regs wfU _ (pwrStatus_key_apart d hd).1 (List.forall_mem_nil _), rd_congr hRegs]
    exact resetWrites_dark hw cause d hd hAon

/-- An instruction that does not leave SCAN_SEL is selected (R550). -/
theorem tapSelect_stays {s : State} {code : Nat} (hStays : s.tap.code ≠ 0x10 ∨ code = 0x10) : tapSelect code s = { s with tap := { s.tap with code := code } } := by
  unfold tapSelect
  rw [if_pos (by simpa [Classical.or_iff_not_imp_left] using hStays)]

/-- Leaving SCAN_SEL begins a block reset (R550). -/
theorem tapSelect_leaves {s : State} (h : s.regsWf = true) {code : Nat} (hScan : s.tap.code = 0x10) (hCode : code ≠ 0x10) (ha : s.awake) :
    (tapSelect code s).pw.reset = some ⟨1, s.now, false⟩ ∧ (tapSelect code s).dark := by
  obtain ⟨hWf, hReset, hDark⟩ := beginReset_unforced_dark (s := { s with tap := { s.tap with code := code } }) h (cause := 1) (by decide) ha
  unfold tapSelect
  rw [if_neg (by simpa [hScan] using hCode)]
  generalize beginReset 1 false { s with tap := { s.tap with code := code } } = u at hWf hReset hDark
  exact ⟨hReset, fun d hd hAon => (rd_wr_ne hWf _ _ _ (pwrStatus_key_apart d hd).2).trans (hDark d hd hAon)⟩

theorem execTapBypass_on {s : State} {code : BitVec 8} (hOn : tapOn s = true) (hCode : s.tap.code ≠ 0x10) (hScan : code.toNat ≠ 0x10)
    (hRun : code.toNat ≠ 0x20) (hResult : code.toNat ≠ 0x21) : execTapBypass code s = .next { s with tap := { s.tap with code := code.toNat } } := by
  rw [execTapBypass, if_pos (by simp [hOn, hScan, hRun, hResult]), tapSelect_stays (.inl hCode)]

/-- The bits of a sum of different powers of two are those that it sums. -/
theorem testBit_sum_pow_filter (p : Nat → Bool) (n : Nat) : (((List.range n).filter p).map (2 ^ ·)).sum < 2 ^ n ∧
    ∀ j, j < n → (((List.range n).filter p).map (2 ^ ·)).sum.testBit j = p j := by
  induction n with
  | zero => exact ⟨Nat.one_pos, fun j hj => absurd hj (Nat.not_lt_zero j)⟩
  | succ n ih =>
    obtain ⟨hLt, hBits⟩ := ih
    rw [List.range_succ, List.filter_append, List.map_append, List.sum_append, Nat.add_comm]
    generalize (((List.range n).filter p).map (2 ^ ·)).sum = x at hLt hBits
    have hTop : x.testBit n = false := Nat.testBit_lt_two_pow hLt
    cases hp : p n with
    | false =>
      simp only [List.filter_cons, hp, List.filter_nil, List.map_nil, List.sum_nil, Nat.zero_add, Bool.false_eq_true, if_false]
      refine ⟨by rw [Nat.pow_succ]; omega, fun j hj => ?_⟩
      rcases Nat.lt_succ_iff_lt_or_eq.1 hj with hj | rfl
      · exact hBits j hj
      · rw [hTop, hp]
    | true =>
      simp only [List.filter_cons, hp, List.filter_nil, List.map_cons, List.map_nil, List.sum_cons, List.sum_nil, Nat.add_zero, if_true]
      refine ⟨by rw [Nat.pow_succ]; omega, fun j hj => ?_⟩
      rcases Nat.lt_succ_iff_lt_or_eq.1 hj with hj | rfl
      · rw [Nat.testBit_two_pow_add_gt hj, hBits j hj]
      · rw [Nat.testBit_two_pow_add_eq, hTop, hp]
        rfl

theorem bit_eq_testBit (x j : Nat) : bit x j = x.testBit j := by
  rw [Nat.testBit_eq_decide_div_mod_eq]
  rfl

/-- Bit 31 of a result of the built-in memory test, beside the bits of the families that passed (R550). -/
theorem mbistResult_bits (p : Nat → Bool) (j : Nat) (hj : j < 32) :
    bit (2 ^ 31 + (((List.range 20).filter p).map (2 ^ ·)).sum) j = (if j = 31 then true else decide (j < 20) && p j) := by
  obtain ⟨hLt, hBits⟩ := testBit_sum_pow_filter p 20
  generalize (((List.range 20).filter p).map (2 ^ ·)).sum = x at hLt hBits
  have hHigh (k : Nat) (hk : 20 ≤ k) : x.testBit k = false := Nat.testBit_lt_two_pow (Nat.lt_of_lt_of_le hLt (Nat.pow_le_pow_right (by decide) hk))
  rw [bit_eq_testBit]
  split
  · next hTop => rw [hTop, Nat.testBit_two_pow_add_eq, hHigh 31 (by decide)]; rfl
  · next hTop =>
    rw [Nat.testBit_two_pow_add_gt (by omega)]
    by_cases hLow : j < 20
    · rw [hBits j hLow, decide_eq_true hLow, Bool.true_and]
    · rw [hHigh j (by omega), decide_eq_false hLow, Bool.false_and]

theorem execMbistDone_running {s : State} (fails : BitVec 31) (hRuns : s.tap.running = true) : execMbistDone fails s =
    .next { s with tap := { s.tap with
      running := false
      result := 2 ^ 31 + (((List.range 20).filter (fun j => !bit fails.toNat j)).map (2 ^ ·)).sum } } := by
  rw [execMbistDone, if_neg (by simp [hRuns])]

/-- The memory test wipes every coach's SRAM (R550). -/
theorem co_mbistWipe_sram (c : Coach) (s : State) : (co c (mbistWipe s)).sram = Vector.replicate 5 [] := by
  unfold co mbistWipe
  simp only [Fin.getElem_fin, Vector.getElem_map]

/-- Outside TEST the port does nothing (R550). -/
theorem tap_off {s : State} (code : BitVec 8) (hOff : tapOn s = false) : execTapBypass code s = .next s ∧ execTapScanSel s = .next s ∧
    execTapMbistRun s = .next s ∧ execTapMbistResult s = .next s ∧ execTapTestLogicReset s = .next s := by
  simp [execTapBypass, execTapScanSel, execTapMbistRun, execTapMbistResult, execTapTestLogicReset, hOff]

/-- Settles O60: a write of DBG_CTRL is chosen, then judged; an instruction of the test access port is selected, and leaving SCAN_SEL resets the block. -/
theorem traceAndTestAccessFollowTheirRules : Obligations.TraceAndTestAccessFollowTheirRules := by
  unfold Obligations.TraceAndTestAccessFollowTheirRules
  intro s h
  refine ⟨fun data sec hServed => ⟨execDbgCtrlWrite_free data sec hServed, execDbgCtrlWrite_held data sec hServed⟩, rfl, rfl,
    fun code hOn hCode => ⟨execTapBypass_on hOn hCode, ?scan, ?result, ?idle, ?run⟩, fun hOn hScan ha => ⟨?leaveIdle, ?leaveResult, ?stay⟩,
    fun code hOff => tap_off code hOff, fun fails hRuns => ?done⟩
  case scan => change execTapScanSel s = _; rw [execTapScanSel, if_pos hOn, tapSelect_stays (.inl hCode)]
  case result => change execTapMbistResult s = _; rw [execTapMbistResult, if_pos hOn, tapSelect_stays (.inl hCode)]
  case idle => change execTapTestLogicReset s = _; rw [execTapTestLogicReset, if_pos hOn, tapSelect_stays (.inl hCode)]
  case run =>
    refine ⟨{ mbistWipe s with tap := { s.tap with code := 0x20, running := true, result := 0 } }, ?_, rfl, rfl, rfl, rfl,
      fun c => co_mbistWipe_sram c s, rfl, rfl⟩
    change execTapMbistRun s = _
    rw [execTapMbistRun, if_neg (by simp [hOn])]
    dsimp only
    rw [tapSelect_stays (s := mbistWipe s) (.inl hCode)]
    rfl
  case leaveIdle =>
    exact ⟨_, by change execTapTestLogicReset s = _; rw [execTapTestLogicReset, if_pos hOn], tapSelect_leaves h hScan (by decide) ha⟩
  case leaveResult =>
    exact ⟨_, by change execTapMbistResult s = _; rw [execTapMbistResult, if_pos hOn], tapSelect_leaves h hScan (by decide) ha⟩
  case stay =>
    change execTapScanSel s = _
    rw [execTapScanSel, if_pos hOn, tapSelect_stays (.inr rfl), ← hScan]
  case done =>
    refine ⟨_, execMbistDone_running fails hRuns, rfl, ?_, fun j hj => ?_, fun j hLow hj => ?_, rfl⟩
    · exact mbistResult_bits _ 31 (by decide)
    · rw [mbistResult_bits _ j (by omega), if_neg (by omega), decide_eq_true hj, Bool.true_and]
    · rw [mbistResult_bits _ j (by omega), if_neg (by omega), decide_eq_false (by omega), Bool.false_and]

end Sys2Proof.Machine

/-! O50. The direct program operation of the fuses: its refusal, its start, and its end after the read-back (R445, R455, R456, R461). -/

namespace Sys2Proof.Machine

/-- A refused GO sets REFUSED and its cause, and changes no other register (R461). -/
theorem rd_otpRefuse {s : State} (h : s.regsWf = true) {c : Nat} (hc : c < 8) : rd OTP_PROG_STATUS.REFUSED (otpRefuse c s) = 1 ∧
    rd OTP_PROG_STATUS.CAUSE (otpRefuse c s) = c ∧ s.kept [OTP_PROG_STATUS.REFUSED, OTP_PROG_STATUS.CAUSE] (otpRefuse c s) := by
  have hMarked := regsWf_wr (regsWf_wr h OTP_PROG_STATUS.REFUSED (rd OTP_PROG_STATUS.REFUSED s ||| 1))
    (freshF OTP_PROG_STATUS.REFUSED) (rd (freshF OTP_PROG_STATUS.REFUSED) s ||| 1)
  refine ⟨(rd_wr_ne hMarked _ _ _ (by decide)).trans (rd_markBit_same h (by decide) rfl), (rd_wr_same hMarked _ _).trans (Nat.mod_eq_of_lt hc),
    fun f hOwn hf => ?_⟩
  simp only [List.forall_mem_cons] at hf
  obtain ⟨hRefused, hCause, -⟩ := hf
  exact (rd_wr_ne hMarked _ _ _ hCause).trans (rd_markBits_ne h f _ 1 hOwn hRefused)

/-- The causes of a refusal are those of OTP_PROG_STATUS (R461). -/
theorem otpRefusal_lt {lock : Bool} {s : State} {c : Nat} (hc : otpRefusal lock s = some c) : c < 8 := by
  unfold otpRefusal at hc
  dsimp only at hc
  generalize (if lock = true then rd OTP_PROG_ADDR.REGION s else (otpRegion (rd OTP_PROG_ADDR.WORD s)).getD 0) = r at hc
  have hSome {k : Nat} (hk : k < 8) (e : some k = some c) : c < 8 := Option.some.inj e ▸ hk
  split at hc
  · exact hSome (by decide) hc
  split at hc
  · exact hSome (by decide) hc
  split at hc
  · exact hSome (by decide) hc
  split at hc
  · exact absurd hc nofun
  split at hc
  · exact hSome (by decide) hc
  split at hc
  · exact hSome (by decide) hc
  · exact absurd hc nofun

/-- The operation that a GO starts (R455). -/
def otpStarted (lock : Bool) (s : State) : OtpOp :=
  ⟨lock, rd OTP_PROG_ADDR.WORD s, if rd OTP_PROG_DATA.DATA s == 0 then 0 else otpCoded (rd OTP_PROG_DATA.DATA s), rd OTP_PROG_ADDR.REGION s, s.now⟩

/-- A direct operation is a host access to OTP_PROG_GO (R461). -/
theorem exec_otpProg {s : State} {lock : Bool} {i : Instr} (hi : i = (if lock then .otpProgLock else .otpProgWord)) (hServed : s.served 0xA00028 false) :
    exec i s = .next (emit (.resp true 0 0) (otpGo lock s)) := by
  subst hi
  cases lock with
  | true => change execOtpProgLock s = _; rw [execOtpProgLock, hostTo_served hServed]
  | false => change execOtpProgWord s = _; rw [execOtpProgWord, hostTo_served hServed]

/-- A GO that is not refused starts its operation, and both BUSY bits show it (R455). -/
theorem exec_otpProg_starts {s : State} {lock : Bool} {i : Instr} (hi : i = (if lock then .otpProgLock else .otpProgWord))
    (hServed : s.served 0xA00028 false) (hNone : otpRefusal lock s = none) :
    ∃ t, exec i s = .next t ∧ rd OTP_PROG_STATUS.BUSY t = 1 ∧ rd OTP_STATUS.PROG_BUSY t = 1 ∧ s.kept [OTP_PROG_STATUS.BUSY, OTP_STATUS.PROG_BUSY] t ∧
      t.otp = { s.otp with op := some (otpStarted lock s) } := by
  have h := hServed.1
  have hGo : otpGo lock s = wrs [(OTP_STATUS.PROG_BUSY, 1), (OTP_PROG_STATUS.BUSY, 1)] { s with otp := { s.otp with op := some (otpStarted lock s) } } := by
    unfold otpGo
    rw [hNone]
    rfl
  have hStart : ({ s with otp := { s.otp with op := some (otpStarted lock s) } } : State).regsWf = true := h
  have hKeys : ([(OTP_STATUS.PROG_BUSY, 1), (OTP_PROG_STATUS.BUSY, 1)].map (·.1.key)).Nodup := by decide
  refine ⟨_, (exec_otpProg hi hServed).trans (congrArg (fun u => Host.Outcome.next (emit (.resp true 0 0) u)) hGo), rd_wrs_nodup (v := 1) hKeys hStart (by simp), rd_wrs_nodup (v := 1) hKeys hStart (by simp),
    fun f _ hf => rd_wrs_ne _ hStart f ?_, rfl⟩
  simp only [List.forall_mem_cons] at hf ⊢
  exact ⟨hf.2.1, hf.1, List.forall_mem_nil _⟩

/-- A LOCK of a region from 1 to 13 is refused in TEST only while an operation runs (R456, R461). -/
theorem otpRefusal_lock {s : State} (hTest : rd SB_STATUS.LIFECYCLE s = 1) (hIdle : s.otp.op = none) (hLow : 1 ≤ rd OTP_PROG_ADDR.REGION s)
    (hHigh : rd OTP_PROG_ADDR.REGION s ≤ 13) : otpRefusal true s = none := by
  have hRegion : (rd OTP_PROG_ADDR.REGION s == 0 || decide (13 < rd OTP_PROG_ADDR.REGION s)) = false := by
    rw [Bool.or_eq_false_iff, beq_eq_false_iff_ne, decide_eq_false_iff_not]
    omega
  simp [otpRefusal, hTest, hIdle, hRegion]

/-- A WORD of a blank word of a copy that is not locked is refused in TEST only while an operation runs (R455, R461). -/
theorem otpRefusal_word {s : State} {r : Nat} (hTest : rd SB_STATUS.LIFECYCLE s = 1) (hIdle : s.otp.op = none)
    (hRegion : otpRegion (rd OTP_PROG_ADDR.WORD s) = some r) (hLow : 1 ≤ r) (hBlank : otpBlank (rd OTP_PROG_ADDR.WORD s) s = true)
    (hOpen : otpLocked r s = false) : otpRefusal false s = none := by
  have hHigh : r < 14 := List.mem_range.1 (List.mem_of_find?_eq_some hRegion)
  have hRange : (r == 0 || decide (13 < r)) = false := by
    rw [Bool.or_eq_false_iff, beq_eq_false_iff_ne, decide_eq_false_iff_not]
    omega
  unfold otpRefusal
  dsimp only
  rw [hRegion, hTest, hBlank, hIdle, if_neg (by decide), if_neg Bool.false_ne_true]
  change (if (r == 0 || decide (13 < r)) = true then _ else if _ then _ else if _ then _ else if otpLocked r s = true then _ else _) = _
  rw [hRange, hOpen]
  rfl

theorem otpRefusal_state {s : State} (lock : Bool) (hLife : rd SB_STATUS.LIFECYCLE s ≠ 1) : otpRefusal lock s = some 1 := by
  unfold otpRefusal
  exact if_pos (by simpa using hLife)

/-- What leaves the registers at every member of a list leaves them. -/
theorem each_regs {α : Type} (l : List α) {g : α → State → State} (hg : ∀ x u, (g x u).regs = u.regs) (s : State) : (each l g s).regs = s.regs := by
  unfold each
  induction l generalizing s with
  | nil => rfl
  | cons x r ih => exact (ih (g x s)).trans (hg x s)

theorem otpBlow_regs (w vn vt : Nat) (s : State) : (otpBlow w vn vt s).regs = s.regs := rfl
theorem otpPartly_regs (w v : Nat) (s : State) : (otpPartly w v s).regs = s.regs := rfl
theorem otpLock_regs (r : Nat) (s : State) : (otpLock r s).regs = s.regs := each_regs _ (fun w => otpBlow_regs w _ _) s
theorem otpLockPartly_regs (r : Nat) (s : State) : (otpLockPartly r s).regs = s.regs := each_regs _ (fun w => otpPartly_regs w _) s

/-- What the end of an operation does to the fuses (R455, R456). -/
def otpBurn (ok : Bool) (o : OtpOp) (s : State) : State :=
  if o.lock then (if ok then otpLock o.region s else otpLockPartly o.region s)
  else if ok then otpBlow o.word o.value o.value s else otpPartly o.word o.value s

theorem otpBurn_regs (ok : Bool) (o : OtpOp) (s : State) : (otpBurn ok o s).regs = s.regs := by
  unfold otpBurn
  split
  · split
    · exact otpLock_regs _ _
    · exact otpLockPartly_regs _ _
  · split
    · exact otpBlow_regs _ _ _ _
    · exact otpPartly_regs _ _ _

/-- A LOCK whose check fails is marked, and the fuses are blown (R456). -/
def otpJudged (ok : Bool) (o : OtpOp) (s : State) : State :=
  otpBurn ok o (if o.lock && !otpLockOk o.region s then markBit OTP_PROG_STATUS.UNVERIFIED { s with otp := { s.otp with op := none } }
    else { s with otp := { s.otp with op := none } })

theorem otpEnd_eq (ok : Bool) (o : OtpOp) (s : State) : otpEnd ok o s = wrs [(OTP_STATUS.PROG_BUSY, 0), (OTP_PROG_STATUS.BUSY, 0)]
    (markBit OTP_PROG_STATUS.DONE (if ok then otpJudged ok o s else markBit OTP_PROG_STATUS.VERIFY_FAIL (otpJudged ok o s))) := by
  unfold otpEnd otpJudged otpBurn
  cases o.lock with
  | false => rfl
  | true =>
    dsimp only
    rw [if_pos rfl, if_pos rfl, Bool.true_and]
    change _ = wrs _ (markBit _ (if ok then _ else markBit _ _))
    cases hCheck : otpLockOk o.region s with
    | false => rw [show otpLockOk o.region { s with otp := { s.otp with op := none } } = false from hCheck]; rfl
    | true => rw [show otpLockOk o.region { s with otp := { s.otp with op := none } } = true from hCheck]; rfl

section
variable {s : State} (h : s.regsWf = true) (ok : Bool) (o : OtpOp)
include h

theorem rd_otpJudged_ne {f : Fld} (hOwn : ownKey f.key = false) (hf : f.key ≠ OTP_PROG_STATUS.UNVERIFIED.key) : rd f (otpJudged ok o s) = rd f s := by
  unfold otpJudged
  rw [rd_congr (otpBurn_regs _ _ _)]
  split
  · exact rd_markBits_ne (s := { s with otp := _ }) h f _ 1 hOwn hf
  · rfl

theorem regsWf_otpJudged : (otpJudged ok o s).regsWf = true := by
  have hRegs := otpBurn_regs ok o (if o.lock && !otpLockOk o.region s then markBit OTP_PROG_STATUS.UNVERIFIED { s with otp := { s.otp with op := none } }
    else { s with otp := { s.otp with op := none } })
  refine (congrArg (SMap.wf fieldReset) hRegs).trans ?_
  split
  · exact regsWf_wr (regsWf_wr (s := { s with otp := _ }) h _ _) _ _
  · exact h

theorem rd_otpJudged_unverified (hLock : o.lock = true) (hCheck : otpLockOk o.region s = false) :
    rd OTP_PROG_STATUS.UNVERIFIED (otpJudged ok o s) = 1 := by
  unfold otpJudged
  rw [rd_congr (otpBurn_regs _ _ _), if_pos (by simp [hLock, hCheck])]
  exact rd_markBit_same (s := { s with otp := _ }) h (by decide) rfl

/-- The state in which a failed read-back has been marked (R455). -/
theorem regsWf_otpVerified : (if ok then otpJudged ok o s else markBit OTP_PROG_STATUS.VERIFY_FAIL (otpJudged ok o s)).regsWf = true := by
  have hJudged := regsWf_otpJudged h ok o
  split
  · exact hJudged
  · exact regsWf_wr (regsWf_wr hJudged _ _) _ _

theorem rd_otpVerified_ne {f : Fld} (hOwn : ownKey f.key = false) (hf : f.key ≠ OTP_PROG_STATUS.VERIFY_FAIL.key) :
    rd f (if ok then otpJudged ok o s else markBit OTP_PROG_STATUS.VERIFY_FAIL (otpJudged ok o s)) = rd f (otpJudged ok o s) := by
  split
  · rfl
  · exact rd_markBits_ne (regsWf_otpJudged h ok o) f _ 1 hOwn hf

/-- A field that the end of an operation does not write at last reads as before its DONE (R455). -/
theorem rd_otpEnd_ne {f : Fld} (hOwn : ownKey f.key = false) (hDone : f.key ≠ OTP_PROG_STATUS.DONE.key) (hBusy : f.key ≠ OTP_PROG_STATUS.BUSY.key)
    (hProg : f.key ≠ OTP_STATUS.PROG_BUSY.key) : rd f (otpEnd ok o s) =
      rd f (if ok then otpJudged ok o s else markBit OTP_PROG_STATUS.VERIFY_FAIL (otpJudged ok o s)) := by
  have hVerified := regsWf_otpVerified h ok o
  rw [otpEnd_eq, rd_wrs_ne _ (show (markBit OTP_PROG_STATUS.DONE _).regsWf = true from regsWf_markBits hVerified _ 1) f (by simp [hBusy, hProg])]
  exact rd_markBits_ne hVerified f _ 1 hOwn hDone

theorem rd_otpEnd_done : rd OTP_PROG_STATUS.DONE (otpEnd ok o s) = 1 := by
  have hVerified := regsWf_otpVerified h ok o
  rw [otpEnd_eq, rd_wrs_ne _ (show (markBit OTP_PROG_STATUS.DONE _).regsWf = true from regsWf_markBits hVerified _ 1) _ (by decide)]
  exact rd_markBit_same hVerified (by decide) rfl

theorem rd_otpEnd_idle : rd OTP_PROG_STATUS.BUSY (otpEnd ok o s) = 0 ∧ rd OTP_STATUS.PROG_BUSY (otpEnd ok o s) = 0 := by
  have hMarked := regsWf_markBits (regsWf_otpVerified h ok o) OTP_PROG_STATUS.DONE 1
  have hKeys : ([(OTP_STATUS.PROG_BUSY, 0), (OTP_PROG_STATUS.BUSY, 0)].map (·.1.key)).Nodup := by decide
  rw [otpEnd_eq]
  exact ⟨rd_wrs_nodup (v := 0) hKeys hMarked (by simp), rd_wrs_nodup (v := 0) hKeys hMarked (by simp)⟩

theorem rd_otpEnd_verifyFail (hBad : ok = false) : rd OTP_PROG_STATUS.VERIFY_FAIL (otpEnd ok o s) = 1 := by
  rw [rd_otpEnd_ne h ok o (by decide) (by decide) (by decide) (by decide), if_neg (by simp [hBad])]
  exact rd_markBit_same (regsWf_otpJudged h ok o) (by decide) rfl

theorem rd_otpEnd_unverified (hLock : o.lock = true) (hCheck : otpLockOk o.region s = false) : rd OTP_PROG_STATUS.UNVERIFIED (otpEnd ok o s) = 1 := by
  rw [rd_otpEnd_ne h ok o (by decide) (by decide) (by decide) (by decide), rd_otpVerified_ne h ok o (by decide) (by decide),
    rd_otpJudged_unverified h ok o hLock hCheck]

theorem otpEnd_kept : s.kept [OTP_PROG_STATUS.DONE, OTP_PROG_STATUS.BUSY, OTP_STATUS.PROG_BUSY, OTP_PROG_STATUS.VERIFY_FAIL, OTP_PROG_STATUS.UNVERIFIED]
    (otpEnd ok o s) := by
  intro f hOwn hf
  simp only [List.forall_mem_cons] at hf
  obtain ⟨hDone, hBusy, hProg, hFail, hUnverified, -⟩ := hf
  rw [rd_otpEnd_ne h ok o hOwn hDone hBusy hProg, rd_otpVerified_ne h ok o hOwn hFail, rd_otpJudged_ne h ok o hOwn hUnverified]

end

/-- The fuses after the end of an operation are those that it has blown. -/
theorem otpEnd_otp (ok : Bool) (o : OtpOp) (s : State) : (otpEnd ok o s).otp = (otpJudged ok o s).otp := by
  rw [otpEnd_eq, wrs_eq_regs]
  cases ok <;> rfl

theorem each_op {α : Type} (l : List α) {g : α → State → State} (hg : ∀ x u, (g x u).otp.op = u.otp.op) (s : State) : (each l g s).otp.op = s.otp.op := by
  unfold each
  induction l generalizing s with
  | nil => rfl
  | cons x r ih => exact (ih (g x s)).trans (hg x s)

theorem otpBurn_op (ok : Bool) (o : OtpOp) (s : State) : (otpBurn ok o s).otp.op = s.otp.op := by
  unfold otpBurn
  split
  · split
    · exact each_op (g := fun w => otpBlow w _ _) _ (fun _ _ => rfl) s
    · exact each_op (g := fun w => otpPartly w _) _ (fun _ _ => rfl) s
  · split <;> rfl

/-- The end of an operation leaves none (R455). -/
theorem otpEnd_op (ok : Bool) (o : OtpOp) (s : State) : (otpEnd ok o s).otp.op = none := by
  rw [otpEnd_otp, otpJudged, otpBurn_op]
  split <;> rfl

/-- Blown fuses add to those of their word, and to no other's (R445). -/
theorem fuses_otpBlow {s : State} (h : s.otpWf = true) (w vn vt x : Nat) :
    (otpBlow w vn vt s).fuses x = if x = w then s.fuses w ||| vn else s.fuses x := by
  simp only [State.otpWf, Bool.and_eq_true] at h
  split
  · next hSame => subst hSame; exact SMap.get_set_same _ _ _ _ h.1
  · next hOther => exact SMap.get_set_ne _ _ _ _ h.1 x hOther

/-- A lock bit is blown in its three copies (R446, R455). -/
theorem fuses_otpLock {s : State} (h : s.otpWf = true) (r w : Nat) :
    (otpLock r s).fuses w = if 3 ≤ w ∧ w ≤ 5 then s.fuses w ||| 2 ^ r else s.fuses w := by
  have hOne := (otpBlow_sound 3 (2 ^ r) (2 ^ r) (Sound.refl s)).otp h
  have hTwo := (otpBlow_sound 4 (2 ^ r) (2 ^ r) (Sound.refl _)).otp hOne
  change (otpBlow 5 (2 ^ r) (2 ^ r) (otpBlow 4 (2 ^ r) (2 ^ r) (otpBlow 3 (2 ^ r) (2 ^ r) s))).fuses w = _
  have hRead : (otpBlow 5 (2 ^ r) (2 ^ r) (otpBlow 4 (2 ^ r) (2 ^ r) (otpBlow 3 (2 ^ r) (2 ^ r) s))).fuses w =
      if w = 5 then s.fuses 5 ||| 2 ^ r else if w = 4 then s.fuses 4 ||| 2 ^ r else if w = 3 then s.fuses 3 ||| 2 ^ r else s.fuses w := by
    simp only [fuses_otpBlow hTwo, fuses_otpBlow hOne, fuses_otpBlow h]
    rfl
  rw [hRead]
  split
  · next hFive => rw [hFive]; rfl
  split
  · next hFour => rw [hFour]; rfl
  split
  · next hThree => rw [hThree]; rfl
  · rw [if_neg (by omega)]

/-- What an operation blows depends on the fuses alone. -/
theorem otpBurn_otp_congr {s t : State} (o : OtpOp) (h : t.otp = s.otp) : (otpBurn true o t).otp = (otpBurn true o s).otp := by
  have hBlow (w v : Nat) {a b : State} (e : a.otp = b.otp) : (otpBlow w v v a).otp = (otpBlow w v v b).otp := by
    unfold otpBlow otpN otpT
    rw [e]
  unfold otpBurn
  split
  · exact hBlow 5 _ (hBlow 4 _ (hBlow 3 _ h))
  · exact hBlow _ _ h

/-- Where the fuses of an operation that ends are judged, its registers alone may have changed. -/
theorem otpJudged_fuses (o : OtpOp) (s : State) : (otpJudged true o s).otp.norm =
    (otpBurn true o { s with otp := { s.otp with op := none } }).otp.norm := by
  unfold otpJudged
  refine congrArg OtpSt.norm (otpBurn_otp_congr o ?_)
  split <;> rfl

/-- Settles O50: a GO is judged by `otpRefusal`, and the end of an operation marks its registers and blows its fuses. -/
theorem directFuseOperationsRunAndEnd : Obligations.DirectFuseOperationsRunAndEnd := by
  unfold Obligations.DirectFuseOperationsRunAndEnd
  intro s lock i hi
  refine ⟨fun c hServed hNo => ?refused, fun _ hLife => otpRefusal_state lock hLife, fun hServed hTest hIdle =>
    ⟨fun hLock hLow hHigh => ?lock, fun r hLock hRegion hLow hBlank hOpen => ?word⟩, fun o ok h hFuses hOp => ?done⟩
  case refused =>
    obtain ⟨hRefused, hCause, hKept⟩ := rd_otpRefuse hServed.1 (otpRefusal_lt hNo)
    have hGo : otpGo lock s = otpRefuse c s := by
      unfold otpGo
      rw [hNo]
    exact ⟨_, (exec_otpProg hi hServed).trans (congrArg (fun u => Host.Outcome.next (emit (.resp true 0 0) u)) hGo), hRefused, hCause, hKept, rfl⟩
  case lock =>
    subst hLock
    obtain ⟨t, hExec, hBusy, hProg, hKept, hOtp⟩ := exec_otpProg_starts hi hServed (otpRefusal_lock hTest hIdle hLow hHigh)
    exact ⟨t, hExec, hBusy, hProg, hKept, _, hOtp, rfl, rfl⟩
  case word =>
    subst hLock
    obtain ⟨t, hExec, hBusy, hProg, hKept, hOtp⟩ := exec_otpProg_starts hi hServed (otpRefusal_word hTest hIdle hRegion hLow hBlank hOpen)
    exact ⟨t, hExec, hBusy, hProg, hKept, _, hOtp, rfl, rfl, by simp [otpStarted]⟩
  case done =>
    have hExec : exec (.otpProgDone ok) s = .next (otpEnd ok o s) := by
      change execOtpProgDone ok s = _
      rw [execOtpProgDone, hOp]
    have hNorm (hOk : ok = true) : (otpEnd ok o s).otp.norm = (otpBurn true o { s with otp := { s.otp with op := none } }).otp.norm := by
      rw [hOk, otpEnd_otp, otpJudged_fuses]
    have hRead (hOk : ok = true) (w : Nat) : (otpEnd ok o s).fuses w = (otpBurn true o { s with otp := { s.otp with op := none } }).fuses w :=
      congrArg (fun m => SMap.get (fun _ => 0) m w) (hNorm hOk)
    obtain ⟨hBusy, hProg⟩ := rd_otpEnd_idle h ok o
    refine ⟨_, hExec, rd_otpEnd_done h ok o, hBusy, hProg, otpEnd_op ok o s, (otpEnd_sound ok o (Sound.refl s)).fuses hFuses, rd_otpEnd_verifyFail h ok o,
      rd_otpEnd_unverified h ok o, fun hOk hWord => ?blown, fun hOk hLock w => ?locked, otpEnd_kept h ok o⟩
    case blown =>
      have hBlow (w : Nat) : (otpEnd ok o s).fuses w = if w = o.word then s.fuses o.word ||| o.value else s.fuses w := by
        rw [hRead hOk, otpBurn, if_neg (by simp [hWord]), if_pos rfl]
        exact fuses_otpBlow (s := { s with otp := { s.otp with op := none } }) hFuses _ _ _ w
      exact ⟨(hBlow _).trans (if_pos rfl), fun w hw => (hBlow w).trans (if_neg hw)⟩
    case locked =>
      rw [hRead hOk, otpBurn, if_pos hLock, if_pos rfl]
      exact fuses_otpLock (s := { s with otp := { s.otp with op := none } }) hFuses o.region w

end Sys2Proof.Machine

/-! O46. The reins: claims, releases, and the digest engine's ownership; heartbeats that are sent, and heartbeats that are missed (R386, R387, R389). -/

namespace Sys2Proof.Machine

/-- A source that the Strongbox serves and that fires while its domain is open is pending while the Strongbox has power (R350, R351). -/
theorem rd_pend_raise_served {s : State} (h : s.regsWf = true) {src : Nat} (hSrc : src < 128) (hDom : domOpen (srcDom src) s = true)
    (hRes : evReserved src = false) (hServed : sbServed src = true) (hOn : domOn 21 s = true) :
    rd (pendF (srcFast src s) src) (raise src s) = 1 := by
  have hFast : srcFast src (lanternRecord src s) = srcFast src s := by
    rw [srcFast, srcFast, rdB, rdB, rd_lanternRecord h src (evKey_class _ (by omega) _ (by omega))]
  have hOn' : domOn 21 (lanternRecord src s) = true := by rw [domOn, rdB, rd_lanternRecord h src (by decide)]; exact hOn
  simp only [raise, latch, hDom, hRes, hServed, hOn', hFast, Bool.and_self, Bool.or_true, Bool.false_eq_true, if_true, if_false]
  exact rd_markBit_same ((lanternRecord_heard src (Heard.refl s)).wf h) (ownKey_pendF hSrc _) rfl

/-- A rein with a new holder: a heartbeat that waits then compares nothing (R386, R388). -/
theorem reinSet_holder {s : State} (h : s.regsWf = true) (j : Nat) {v : Nat} (hv : v < 4) : rd (SB_REINS.HOLDERS j) (reinSet j v s) = v ∧
    s.kept [SB_REINS.HOLDERS j] (reinSet j v s) ∧ reinSet j v s = { s with
      regs := (reinSet j v s).regs
      sb := { s.sb with hbVoid := s.sb.hbVoid || (s.sb.hbSent.isSome && rd (SB_REINS.HOLDERS j) s != v) } } :=
  ⟨(rd_wr_same (s := { s with sb := _ }) h _ v).trans (Nat.mod_eq_of_lt hv),
    fun f _ hf => rd_wr_ne (s := { s with sb := _ }) h _ _ _ (hf _ List.mem_cons_self), rfl⟩

theorem domOn_of_domOpen {d : Nat} {s : State} (h : domOpen d s = true) : domOn d s = true := by
  simp only [domOpen, Bool.and_eq_true] at h
  exact h.1

section
variable {s : State} {j : Fin 8}

/-- The Strongbox takes every rein that it claims (R386). -/
theorem execReinClaim_strongbox (hDigest : j.val ≠ 6) (hOpen : domOpen 21 s = true) : execReinClaim .strongbox j s = .next (reinSet j.val 2 s) := by
  have hRuns : procRuns .strongbox s = true := domOn_of_domOpen hOpen
  rw [execReinClaim, if_pos hRuns, reinClaim, if_neg (by simpa using hDigest)]

/-- The Coachman takes a free rein that is not kept for the Strongbox (R386). -/
theorem execReinClaim_coachman (hDigest : j.val ≠ 6) (hUp : cmUp s = true) : execReinClaim .coachman j s =
    .next (if rd (SB_REINS.HOLDERS j.val) s == 0 && !List.contains [0, 1, 7] j.val then reinSet j.val 1 s else s) := by
  have hRuns : procRuns .coachman s = true := hUp
  rw [execReinClaim, if_pos hRuns, reinClaim, if_neg (by simpa using hDigest)]
  rfl

/-- The Coachman does not get a rein that is held or kept for the Strongbox (R386). -/
theorem execReinClaim_coachman_refused (hDigest : j.val ≠ 6)
    (hNo : rd (SB_REINS.HOLDERS j.val) s ≠ 0 ∨ j.val = 0 ∨ j.val = 1 ∨ j.val = 7) : execReinClaim .coachman j s = .next s := by
  cases hUp : cmUp s with
  | false => rw [execReinClaim, if_neg (show ¬ procRuns .coachman s = true by simp [procRuns, hUp])]
  | true =>
    rw [execReinClaim_coachman hDigest hUp, if_neg]
    simp only [Bool.and_eq_true, beq_iff_eq, Bool.not_eq_true', List.contains_eq_mem, List.mem_cons, List.not_mem_nil, or_false,
      decide_eq_false_iff_not, not_and, Classical.not_not]
    exact fun hFree => hNo.resolve_left (fun hHeld => hHeld hFree)

theorem execReinRelease_holder {who : Proc} (hDigest : j.val ≠ 6) (hRuns : procRuns who s = true) (hHolds : rd (SB_REINS.HOLDERS j.val) s = procCode who) :
    execReinRelease who j s = .next (reinSet j.val 0 s) := by
  rw [execReinRelease, if_pos hRuns, reinRelease, if_neg (by simpa using hDigest), if_pos (by simpa [reinHolder] using hHolds)]

theorem execReinRelease_other {who : Proc} (hDigest : j.val ≠ 6) (hOther : rd (SB_REINS.HOLDERS j.val) s ≠ procCode who) :
    execReinRelease who j s = .next s := by
  rw [execReinRelease, reinRelease, if_neg (show ¬ (j.val == 6) = true by simpa using hDigest),
    if_neg (show ¬ (reinHolder j.val s == procCode who) = true by simpa [reinHolder] using hOther), ite_self]

end

/-- Rein DIGEST is the ownership of the digest engine (R386, R427). -/
theorem rein_digest {s : State} (hUp : cmUp s = true) (hOpen : domOpen 21 s = true) :
    execReinClaim .coachman 6 s = execDgClaim .coachman s ∧ execReinClaim .strongbox 6 s = execDgClaim .strongbox s ∧
    (dgOwns 1 s = true → execReinRelease .coachman 6 s = execDgRelease .coachman s) ∧
    (dgOwns 2 s = true → execReinRelease .strongbox 6 s = execDgRelease .strongbox s) := by
  have hCm : procRuns .coachman s = true := hUp
  have hSb : procRuns .strongbox s = true := domOn_of_domOpen hOpen
  have hBoth : (cmUp s && domOpen 21 s) = true := by rw [hUp, hOpen, Bool.and_self]
  refine ⟨?_, ?_, fun hOwns => ?_, fun hOwns => ?_⟩
  · simp only [execReinClaim, execDgClaim, dgAccess, if_pos hCm, if_pos hBoth]
    rfl
  · simp only [execReinClaim, execDgClaim, dgAccess, if_pos hSb, if_pos hOpen]
    rfl
  · simp only [execReinRelease, execDgRelease, dgAccess, if_pos hCm, if_pos hBoth]
    change Host.Outcome.next (if dgOwns 1 s = true then dgRelease 1 s else s) = .next (if dgOwns 1 s = true then dgRelease 1 s else dgRefuseWrite s)
    rw [if_pos hOwns, if_pos hOwns]
  · simp only [execReinRelease, execDgRelease, dgAccess, if_pos hSb, if_pos hOpen]
    change Host.Outcome.next (if dgOwns 2 s = true then dgRelease 2 s else s) = .next (if dgOwns 2 s = true then dgRelease 2 s else dgRefuseWrite s)
    rw [if_pos hOwns, if_pos hOwns]

/-- A heartbeat is sent: at the earliest after the fast timer's 0.97 ms (R387). -/
theorem heartbeatSend_due {s : State} (hSb : sbUp s = true) (hCm : cmUp s = true) (hNone : s.sb.hbSent = none)
    (hDue : s.sb.hbNum = 0 ∨ s.sb.hbAt + us 970 ≤ s.now) : heartbeatSend s =
      emit (.heartbeat (sbView s + 2 ^ 24 * ((s.sb.hbNum + 1) % 256))) (inc SB_HB.COUNT { s with sb := { s.sb with
        hbNum := s.sb.hbNum + 1
        hbAt := s.now
        hbSent := some (sbView s + 2 ^ 24 * ((s.sb.hbNum + 1) % 256), s.now)
        hbVoid := false } }) := by
  have hTime : (s.sb.hbNum != 0 && decide (s.now < s.sb.hbAt + us 970)) = false := by
    rw [Bool.and_eq_false_iff, bne_eq_false_iff_eq, decide_eq_false_iff_not, Nat.not_lt]
    exact hDue
  unfold heartbeatSend
  rw [if_neg (by simp [hSb, hCm, hNone, hTime])]

/-- The state in which a miss is counted (R389). -/
def missCounted (s : State) : State := wr SB_HB.MISSES (min 3 (rd SB_HB.MISSES s + 1)) { s with sb := { s.sb with hbSent := none, hbClean := 0 } }

theorem heartbeatMiss_counted {s : State} {v t0 : Nat} (hSent : s.sb.hbSent = some (v, t0)) (hLate : t0 + us 200 ≤ s.now) (hUp : cmUp s = true) :
    heartbeatMiss s = raise 92 (missCounted s) := by
  rw [heartbeatMiss, hSent]
  dsimp only
  rw [if_neg (Nat.not_lt.2 hLate), if_neg (by simp [show cmUp { s with sb := { s.sb with hbSent := none } } = true from hUp])]
  rfl

/-- No miss is counted while the Coachman does not run (R389). -/
theorem heartbeatMiss_down {s : State} {v t0 : Nat} (hSent : s.sb.hbSent = some (v, t0)) (hLate : t0 + us 200 ≤ s.now) (hUp : cmUp s = false) :
    heartbeatMiss s = { s with sb := { s.sb with hbSent := none } } := by
  rw [heartbeatMiss, hSent]
  dsimp only
  rw [if_neg (Nat.not_lt.2 hLate), if_pos (by simp [show cmUp { s with sb := { s.sb with hbSent := none } } = false from hUp])]

/-- Settles O46: a claim or a release is one write of the holder, a heartbeat one record of what was sent, and a miss one count with its event. -/
theorem reinsAndHeartbeatsFollowTheirRules : Obligations.ReinsAndHeartbeatsFollowTheirRules := by
  unfold Obligations.ReinsAndHeartbeatsFollowTheirRules
  intro s j h
  refine ⟨fun hDigest hOpen => ⟨_, execReinClaim_strongbox hDigest hOpen, reinSet_holder h _ (by decide)⟩,
    fun hDigest hUp hFree hBoot hLife hDebug => ⟨_, ?claim, reinSet_holder h j.val (v := 1) (by decide)⟩,
    fun hDigest hNo => execReinClaim_coachman_refused hDigest hNo,
    fun who hDigest hRuns hHolds => ⟨_, execReinRelease_holder hDigest hRuns hHolds, reinSet_holder h _ (by decide)⟩,
    fun who hDigest hOther => execReinRelease_other hDigest hOther, fun hUp hOpen => rein_digest hUp hOpen,
    fun hSb hCm hNone hDue => ?sent, fun v t0 hSent hLate => ⟨fun hUp hOpen => ?missed, fun hUp => congrArg Host.Outcome.next (heartbeatMiss_down hSent hLate hUp)⟩⟩
  case claim =>
    change execReinClaim .coachman j s = _
    rw [execReinClaim_coachman hDigest hUp, if_pos]
    simp [hFree, hBoot, hLife, hDebug]
  case sent =>
    refine ⟨_, congrArg Host.Outcome.next (heartbeatSend_due hSb hCm hNone hDue), rfl, rd_inc_same (s := { s with sb := _ }) h _,
      fun f _ hf => rd_inc_ne (s := { s with sb := _ }) h _ _ (hf _ List.mem_cons_self), rfl⟩
  case missed =>
    have hCounted : (missCounted s).regsWf = true := regsWf_wr (s := { s with sb := _ }) h _ _
    have hNe {f : Fld} (hf : f.key ≠ SB_HB.MISSES.key) : rd f (missCounted s) = rd f s := rd_wr_ne (s := { s with sb := _ }) h _ _ _ hf
    have hHeard := raise_heard 92 (Heard.refl (missCounted s))
    have hOpenNow : domOpen 21 (missCounted s) = true := by
      have hOn : domOn 21 (missCounted s) = domOn 21 s := by unfold domOn rdB; rw [hNe (by decide)]
      unfold domOpen at hOpen ⊢
      rw [hOn]
      exact hOpen
    have hFast : srcFast 92 (missCounted s) = srcFast 92 s := by unfold srcFast rdB; rw [hNe (by decide)]
    refine ⟨_, congrArg Host.Outcome.next (heartbeatMiss_counted hSent hLate hUp), ?_, ?_, fun f hf hNot => ?_, ?_⟩
    · rw [hHeard.regs hCounted _ (by decide) (List.forall_mem_nil _)]
      exact (rd_wr_same (s := { s with sb := _ }) h _ _).trans (Nat.mod_eq_of_lt (Nat.lt_of_le_of_lt (Nat.min_le_left 3 _) (by decide)))
    · rw [← hFast]
      exact rd_pend_raise_served hCounted (by decide) hOpenNow (by decide) (by decide) (domOn_of_domOpen hOpenNow)
    · exact (hHeard.regs hCounted f hf (List.forall_mem_nil _)).trans (hNe (hNot _ List.mem_cons_self))
    · rw [hHeard.rest]
      rfl

end Sys2Proof.Machine

/-! O58. The thermal trip with a deferred command whose context index lies beyond the contexts (R314, R327, R527), and the refutation of O58. -/

namespace Sys2Proof.Machine

/-- A security-class fault waits, and a CREATE_CONTEXT is deferred for a context index whose PARTITION field is PM_FLT_LAST.LEVEL. -/
def tripPastContexts : State :=
  let s := State.reset
  { s with
    flt := { s.flt with security := some ⟨0x44, 21, 0⟩ }
    mb := { s.mb with deferred := [⟨0, 0x10, 0, 0x58030, 0, [], []⟩] } }


/-- What leaves a state at every member of a list leaves it. -/
theorem each_fixed {α : Type} (l : List α) {g : α → State → State} {s : State} (h : ∀ x ∈ l, g x s = s) : each l g s = s := by
  induction l with
  | nil => rfl
  | cons x r ih =>
    change each r g (g x s) = s
    rw [h x List.mem_cons_self]
    exact ih fun y hy => h y (List.mem_cons_of_mem _ hy)

theorem each_append {α : Type} (l m : List α) (g : α → State → State) (s : State) : each (l ++ m) g s = each m g (each l g s) := List.foldl_append

/-- What the trip leaves after its writes: BYPASS_HOLD falls, ALARM_N is asserted, and no reset is in progress (R527). -/
def tripEnd (merged : Bool) (s : State) : State :=
  { holdFall s with
    pins := { (holdFall s).pins with alarmN := false }
    pw := { (holdFall s).pw with tripAt := (holdFall s).now, merged := merged, reset := none, sleepStep := 0, wakeDue := none } }

theorem tripEnd_regs (merged : Bool) (s : State) : (tripEnd merged s).regs = s.regs := by
  unfold tripEnd
  exact holdFall_regs s

/-- The registers that the trip writes once every domain is off (R527). -/
def tripWrites (s : State) : State := wrs [(PM_THERM_STATUS.TRIP, 1), (PM_RST_CAUSE.CAUSE, 8), (PM_SLEEP.STATE, 2)] (markBit PM_THERM_STATUS.TRIPPED s)

/-- A trip while a security-class fault waits and no reset is in progress counts and records the fault, and switches every domain off (R527). -/
theorem execThermalTrip_security {s : State} {f : SecFault} (hTrip : rdB PM_THERM_STATUS.TRIP s = false) (hBlock : s.flt.block = none)
    (hWaits : s.flt.security = some f) (hReset : s.pw.reset = none) :
    ∃ m, execThermalTrip s = .next (tripEnd m (tripWrites (allOff (fltLast true f.code 8 0 f.unit (countFltReset s))))) := by
  have hCount : (countFltReset s).flt.block = none := hBlock
  have hStill : (countFltReset s).flt.security = some f := hWaits
  unfold execThermalTrip
  simp only [hTrip, Bool.false_eq_true, if_false, hBlock, hWaits, hReset, Option.isSome_none, Option.isSome_some, Option.isNone_none, Bool.or_true,
    Bool.and_true, if_true, hCount, hStill]
  unfold tripEnd tripWrites
  exact ⟨_, rfl⟩

/-- The trip has counted and recorded the fault that waited. -/
def tripRecorded : State := fltLast true 0x44 8 0 21 (countFltReset tripPastContexts)

/-- Refutes O58: the deferred commands of the state carry a context index without a bound, and the fall of the Coachman in a trip clears the PARTITION
field of index 0x58030, which is the level of PM_FLT_LAST. -/
theorem not_clocksAndTemperatureAreWatched : ¬ Obligations.ClocksAndTemperatureAreWatched := by
  unfold Obligations.ClocksAndTemperatureAreWatched
  intro h
  obtain ⟨-, hTrip, -⟩ := h tripPastContexts (by decide +kernel)
  obtain ⟨t, hExec, -, -, -, -, -, -, -, -, -, -, hSecurity, -⟩ := hTrip (by decide +kernel)
  obtain ⟨-, -, -, hLevel, -⟩ := hSecurity ⟨0x44, 21, 0⟩ rfl
  -- Domains that are off leave the state as it is; PD_CM, with which the Coachman falls, is among the last three.
  have hBegin : lanternBegin tripRecorded = tripRecorded := by decide +kernel
  have hFirst : each (List.range 17 ++ [23, 19, 18]) powerLost tripRecorded = tripRecorded := each_fixed _ (by decide +kernel)
  have hOrder : resetOrder = (List.range 17 ++ [23, 19, 18]) ++ [20, 17, 21] := rfl
  have hCleared : rd PM_FLT_LAST.LEVEL (tripWrites (allOff tripRecorded)) = 0 := by
    unfold allOff
    rw [hBegin, hOrder, each_append, hFirst]
    decide +kernel
  obtain ⟨m, hRun⟩ := execThermalTrip_security (s := tripPastContexts) (f := ⟨0x44, 21, 0⟩) (by decide +kernel) rfl rfl rfl
  have hSame : tripEnd m (tripWrites (allOff tripRecorded)) = t := Host.Outcome.next.inj (hRun.symm.trans hExec)
  rw [← hSame, rd_congr (tripEnd_regs _ _)] at hLevel
  exact absurd (hLevel.symm.trans hCleared) (by decide)

end Sys2Proof.Machine

/-! SUPPORT. The Strongbox's commands (R326, R390): what a command has done when its response goes out, and what its reads, writes and statements leave
unchanged. -/

namespace Sys2Proof.Machine

/-- Fields outside those that decide whether a response of a channel may go out. -/
abbrev RoomApart (fs : List Fld) : Prop :=
  ∀ k : Fin 6, evOr fs (MB.H2K_STATUS.PEER k.val).key = false ∧ evOr fs (MB.ABORT.VALID k.val).key = false

/-- What leaves the mailboxes and these fields leaves the room for a response. -/
theorem State.room.of_frame {u : Parts} {fs : List Fld} {s t : State} {k : Fin 6} (h : s.room k) (hFrame : Frame u (evOr fs) s t) (hMb : u.mb = false)
    (hApart : RoomApart fs) : t.room k := by
  have hOwn : ∀ k : Fin 6, ownKey (MB.H2K_STATUS.PEER k.val).key = false ∧ ownKey (MB.ABORT.VALID k.val).key = false := by decide
  obtain ⟨hWf, hFree, hResps, hDue⟩ := h
  obtain ⟨hPeer, hValid⟩ := hApart k
  have hChan : chan k t = chan k s := by unfold chan; rw [hFrame.mb hMb]
  refine ⟨hFrame.wf hWf, ?_, by rw [hChan, hResps], ?_⟩
  · rw [k2hFree, hChan, hFrame.now]
    exact hFree
  · simp only [abortDue, peerUp, rdB, hFrame.regs hWf _ (hOwn k).1 hPeer, hFrame.regs hWf _ (hOwn k).2 hValid] at hDue ⊢
    exact hDue

/-- What a command leaves that reads its message, does its work, and answers: its response stands, and from the work's state `v` only the message
differs. -/
structure Replied (k : Fin 6) (op : Nat) (r : Req) (status : Nat) (p : List Nat) (fs : List Fld) (s v t : State) : Prop where
  answers : t.answers k op r.seq status p
  keptMsg : s.keptMsg fs t
  regs : ∀ f : Fld, msgKey f.key = false → rd f t = rd f v
  rest : t = { v with regs := t.regs, pw := t.pw, mb := t.mb }

theorem State.request.replied {s v : State} {k : Fin 6} {op len : Nat} {r : Req} (h : s.request k op len r) {u : Parts} {fs : List Fld}
    (hWork : Frame u (evOr fs) (takeMsg k s) v) (hMb : u.mb = false) (hApart : RoomApart fs) (status : Nat) (p : List Nat) :
    Replied k op r status p fs s v (reply k r status p v) := by
  have hRead := takeMsg_told k (Told.refl s)
  have hReply := reply_told k r status p (Told.refl v)
  have wfRead := hRead.wf h.wf
  refine ⟨answers_reply (h.room.takeMsg.of_frame hWork hMb hApart) h.op status p, fun f hf hne => ?_,
    fun f hf => hReply.regs (hWork.wf wfRead) f hf (List.forall_mem_nil _), hReply.rest⟩
  have hEv : evKey f.key = false := by
    simp only [msgKey, Bool.or_eq_false_iff] at hf
    exact hf.1.1
  rw [hReply.regs (hWork.wf wfRead) f hf (List.forall_mem_nil _), hWork.keptEv wfRead f hEv hne, hRead.regs h.wf f hf (List.forall_mem_nil _)]

/-- A request that the Strongbox firmware serves is read and carried out (R326, R390). -/
theorem serveSb_runs {s : State} {k : Fin 6} {op len : Nat} {r : Req} (h : s.sbRequest k op len r) (hRom : romServes s = false) {chs lens : List Nat}
    (hk : k.val ∈ chs) (hLen : len ∈ lens) (body : Req → State → State) : serveSb k chs op lens body s = body r (takeMsg k s) := by
  obtain ⟨hReq, hOpen⟩ := h
  have hRomNow : romServes (takeMsg k s) = false := by
    unfold romServes lifecycle at hRom ⊢
    rw [rd_takeMsg hReq.wf k (by decide), rd_takeMsg hReq.wf k (by decide)]
    exact hRom
  have hOpenNow : rdB GL_STATUS.FENCED (takeMsg k s) = false := by rw [rdB_takeMsg hReq.wf k (by decide), hOpen]
  have hFits : lens.contains r.len = true := by rw [hReq.len]; exact List.contains_iff_mem.2 hLen
  rw [serveSb, serve_request hReq hk]
  simp only [hRomNow, hOpenNow, hFits, Bool.false_and, Bool.not_true, Bool.false_eq_true, if_false]

theorem sb_takeMsg (k : Fin 6) (s : State) : (takeMsg k s).sb = s.sb := (takeMsg_frame k s).sb rfl

theorem cx_takeMsg (k : Fin 6) (n : Ctx) (s : State) : cx n (takeMsg k s) = cx n s := (takeMsg_frame k s).ctxs n rfl

/-- What the block writes for itself, and what it reads, depends on what the ports hold and on their power alone. -/
theorem mp_ownPush_congr {a b : State} (o : Own) (hMp : a.mp = b.mp) (hOn : domOn 18 a = domOn 18 b) : (ownPush o a).mp = (ownPush o b).mp := by
  unfold ownPush
  rw [hOn]
  split
  · exact hMp
  · exact congrArg (fun m : MpSt => { m with own := m.own ++ [o] }) hMp

theorem mp_writeClear_congr {a b : State} (x : Nat) (l : List Byte) (hMp : a.mp = b.mp) (hOn : domOn 18 a = domOn 18 b) :
    (writeClear x l a).mp = (writeClear x l b).mp := mp_ownPush_congr _ hMp hOn

theorem mp_sbRead_congr {a b : State} (r : Req) (want : Option Nat) (more : Nat) (hMp : a.mp = b.mp) (hOn : domOn 18 a = domOn 18 b) :
    (sbRead r want more a).mp = (sbRead r want more b).mp := by
  have hIf (c : Bool) : (if c = true then a else ownRead 1 0 15 (r.addr 1) (r.w 3 + more) a).mp =
      (if c = true then b else ownRead 1 0 15 (r.addr 1) (r.w 3 + more) b).mp := by
    cases c with
    | true => exact hMp
    | false => exact mp_ownPush_congr _ hMp hOn
  exact hIf _

/-- The ports' power is no field of an event or of a message. -/
theorem domOn_of_frame {u : Parts} {fs : List Fld} {s t : State} (hFrame : Frame u (msgOr fs) s t) (h : s.regsWf = true)
    (hApart : keysOf fs (PM_PWR_STATUS.ON 18).key = false) : domOn 18 t = domOn 18 s := by
  unfold domOn rdB
  rw [hFrame.regs h _ (by decide) (by rw [msgOr, hApart]; decide)]

namespace Frame
variable {u : Parts} {K : Nat → Bool} {s t : State}

theorem sbRead (hu : u.mp = true) (r : Req) (want : Option Nat) (more : Nat) (h : Frame u K s t) : Frame u K s (sbRead r want more t) :=
  ite h (h.ownReadFor hu _ _ _ _ _ _ _)

theorem writeClear (hu : u.mp = true) (x : Nat) (l : List Byte) (h : Frame u K s t) : Frame u K s (writeClear x l t) := h.ownWrite hu _ _ _ _ _ _ _

theorem refuseOwner (hu : u.pw = true) (hK : EvIn K) (b : Bool) (h : Frame u K s t) : Frame u K s (refuseOwner b t) := ite (h.raise hu hK 90) h

/-- A statement takes a free value for its signature, and raises OTP_ALARM where its region reads MARGINAL or FAILED (R413, R452). -/
theorem statement (hf : u.freeN = true) (hp : u.pw = true) (hK : EvIn K) (c : Option Ctx) (b : Bool) (l : List Byte) (h : Frame u K s t) :
    Frame u K s (statement c b l t).2 := by
  have hSigned : Frame u K s (Machine.free t).2 := h.free hf
  exact ite (hSigned.raise hp hK 90) hSigned

theorem otpBlow (hu : u.otp = true) (w a b : Nat) (h : Frame u K s t) : Frame u K s (otpBlow w a b t) := h.otpUpd hu _

theorem otpPartly (hf : u.freeN = true) (hu : u.otp = true) (w a : Nat) (h : Frame u K s t) : Frame u K s (otpPartly w a t) :=
  ((h.free hf).free hf).otpBlow hu _ _ _

theorem otpBlowBit (hu : u.otp = true) (l : List Nat) (i : Nat) (h : Frame u K s t) : Frame u K s (otpBlowBit l i t) :=
  Frame.each _ (fun _ _ _ hv => hv.otpBlow hu _ _ _) h

theorem otpPut (hf : u.freeN = true) (hu : u.otp = true) (r : Nat) (b : Bool) (x : Nat × Nat) (h : Frame u K s t) : Frame u K s (otpPut r b x t) :=
  ite (h.otpBlow hu _ _ _) (h.otpPartly hf hu _ _)

theorem otpProgram (hf : u.freeN = true) (hu : u.otp = true) (r : Nat) (l : List Byte) (b : Bool) (h : Frame u K s t) :
    Frame u K s (otpProgram r l b t).2 := by
  unfold Machine.otpProgram
  split
  · exact h
  · have hWords : Frame u K s (Machine.each (otpImage l (otpCopy r).2).zipIdx (fun x => Machine.otpPut r (b || x.2 != 0) x) t) :=
      Frame.each _ (fun _ _ _ hv => hv.otpPut hf hu _ _ _) h
    dsimp only
    generalize Machine.each (otpImage l (otpCopy r).2).zipIdx _ t = v at hWords ⊢
    split
    · exact hWords.otpBlowBit hu _ _
    · exact hWords

theorem programRegion (hf : u.freeN = true) (hu : u.otp = true) (e : KeyEntry) (b : Bool) (h : Frame u K s t) : Frame u K s (programRegion e b t).2 := by
  unfold Machine.programRegion
  split
  · exact h
  · split
    · exact h.otpProgram hf hu _ _ _
    · exact h

theorem otpAdvance (hu : u.otp = true) (hK : K SB_KEY_STATUS.OTP_COUNTER.key = true) (c : Nat) (h : Frame u K s t) : Frame u K s (otpAdvance c t) :=
  (Frame.each _ (fun _ _ _ hv => hv.otpBlowBit hu _ _) h).wr _ _ hK

end Frame

end Sys2Proof.Machine

/-! SUPPORT. The counter of the fuses (R411, R450): once it is advanced to a step, it reads at least that step. -/

namespace Sys2Proof.Machine

theorem le_foldl_max (l : List Nat) (m : Nat) : m ≤ l.foldl (fun a k => max a (k + 1)) m ∧ ∀ k ∈ l, k + 1 ≤ l.foldl (fun a k => max a (k + 1)) m := by
  induction l generalizing m with
  | nil => exact ⟨Nat.le_refl m, fun k hk => absurd hk List.not_mem_nil⟩
  | cons x r ih =>
    obtain ⟨hStart, hRest⟩ := ih (max m (x + 1))
    refine ⟨Nat.le_trans (Nat.le_max_left _ _) hStart, fun k hk => ?_⟩
    rcases List.mem_cons.1 hk with rfl | hMem
    · exact Nat.le_trans (Nat.le_max_right _ _) hStart
    · exact hRest k hMem

theorem foldl_max_le {l : List Nat} {m b : Nat} (hm : m ≤ b) (h : ∀ k ∈ l, k + 1 ≤ b) : l.foldl (fun a k => max a (k + 1)) m ≤ b := by
  induction l generalizing m with
  | nil => exact hm
  | cons x r ih => exact ih (Nat.max_le.2 ⟨hm, h x List.mem_cons_self⟩) fun k hk => h k (List.mem_cons_of_mem _ hk)

/-- The counter has 128 steps (R446). -/
theorem otpCounter_le (s : State) : otpCounter s ≤ 128 :=
  foldl_max_le (Nat.zero_le _) fun k hk => List.mem_range.1 (List.mem_filter.1 hk).1

/-- A step that the majority of its copies shows is counted (R450). -/
theorem otpCounter_of_step {s : State} {k : Nat} (hk : k < 128) (h : majority (stepCopies k s) = true) : k + 1 ≤ otpCounter s :=
  (le_foldl_max _ 0).2 k (List.mem_filter.2 ⟨List.mem_range.2 hk, h⟩)

/-- A bit that a word's fuses are blown with reads blown (R449, R450). -/
theorem otpBit_of_fuses {s : State} {w i : Nat} (h : bit (s.fuses w) i = true) : otpBit w i s = true := by
  unfold otpBit
  rw [show bit (otpN w s) i = true from h, Bool.true_or]

/-- A blown bit is blown in its word. -/
theorem fuses_otpBlow_bit {s : State} (h : s.otpWf = true) (w i : Nat) : bit ((otpBlow w (2 ^ i) (2 ^ i) s).fuses w) i = true := by
  rw [fuses_otpBlow h, if_pos rfl, bit_or, Bool.or_eq_true]
  right
  rw [bit_eq_testBit, Nat.testBit_two_pow_self]

/-- A bit of three words is blown in each (R455). -/
theorem fuses_otpBlowBit {s : State} (h : s.otpWf = true) (a b c i : Nat) : ∀ w ∈ [a, b, c], bit ((otpBlowBit [a, b, c] i s).fuses w) i = true := by
  have hFirst := (otpBlow_sound a (2 ^ i) (2 ^ i) (Sound.refl s)).otp h
  have hSecond := (otpBlow_sound b (2 ^ i) (2 ^ i) (Sound.refl _)).otp hFirst
  have hKeepTwo := (otpBlow_sound b (2 ^ i) (2 ^ i) (Sound.refl (otpBlow a (2 ^ i) (2 ^ i) s))).fuses hFirst
  have hKeepThree := (otpBlow_sound c (2 ^ i) (2 ^ i) (Sound.refl (otpBlow b (2 ^ i) (2 ^ i) (otpBlow a (2 ^ i) (2 ^ i) s)))).fuses hSecond
  change ∀ w ∈ [a, b, c], bit ((otpBlow c (2 ^ i) (2 ^ i) (otpBlow b (2 ^ i) (2 ^ i) (otpBlow a (2 ^ i) (2 ^ i) s))).fuses w) i = true
  simp only [List.forall_mem_cons, List.not_mem_nil, false_implies, implies_true, and_true]
  exact ⟨hKeepThree _ _ (hKeepTwo _ _ (fuses_otpBlow_bit h a i)), hKeepThree _ _ (fuses_otpBlow_bit hFirst b i), fuses_otpBlow_bit hSecond c i⟩

/-- The words of a step's three copies (R446). -/
def stepWords (k : Nat) : List Nat := (List.range 3).map (fun i => 6 + 4 * i + k / 32)

/-- Once a step is blown, the majority of its copies shows it. -/
theorem majority_stepCopies {s : State} (h : s.otpWf = true) (k : Nat) : majority (stepCopies k (otpBlowBit (stepWords k) (k % 32) s)) = true := by
  have hBits := fuses_otpBlowBit h (6 + 4 * 0 + k / 32) (6 + 4 * 1 + k / 32) (6 + 4 * 2 + k / 32) (k % 32)
  change ∀ w ∈ stepWords k, bit ((otpBlowBit (stepWords k) (k % 32) s).fuses w) (k % 32) = true at hBits
  have hAll : stepCopies k (otpBlowBit (stepWords k) (k % 32) s) = [true, true, true] := by
    have hCopy (i : Nat) (hi : i < 3) : otpBit (6 + 4 * i + k / 32) (k % 32) (otpBlowBit (stepWords k) (k % 32) s) = true :=
      otpBit_of_fuses (hBits _ (List.mem_map.2 ⟨i, List.mem_range.2 hi, rfl⟩))
    change [otpBit _ _ _, otpBit _ _ _, otpBit _ _ _] = _
    rw [hCopy 0 (by decide), hCopy 1 (by decide), hCopy 2 (by decide)]
  rw [hAll]
  rfl

theorem each_append_singleton {α : Type} (l : List α) (x : α) (g : α → State → State) (s : State) : each (l ++ [x]) g s = g x (each l g s) :=
  each_append l [x] g s

/-- The steps up to one have been blown, those that the counter shows already apart (R411). -/
def stepsBlown (c : Nat) (s : State) : State :=
  each ((List.range c).filter (fun k => otpCounter s ≤ k)) (fun k => otpBlowBit (stepWords k) (k % 32)) s

theorem otpAdvance_eq (c : Nat) (s : State) : otpAdvance c s = wr SB_KEY_STATUS.OTP_COUNTER (otpCounter (stepsBlown c s)) (stepsBlown c s) := rfl

theorem le_otpCounter_stepsBlown {s : State} (h : s.otpWf = true) {c : Nat} (hc : c ≤ 128) : c ≤ otpCounter (stepsBlown c s) := by
  cases c with
  | zero => exact Nat.zero_le _
  | succ n =>
    by_cases hNew : otpCounter s ≤ n
    · have hList : (List.range (n + 1)).filter (fun k => otpCounter s ≤ k) = (List.range n).filter (fun k => otpCounter s ≤ k) ++ [n] := by
        rw [List.range_succ, List.filter_append, List.filter_cons_of_pos (by simpa using hNew), List.filter_nil]
      unfold stepsBlown
      rw [hList, each_append_singleton]
      refine otpCounter_of_step (by omega) (majority_stepCopies ?_ n)
      exact (each_sound _ (fun k v hv => otpBlowBit_sound _ _ hv) (Sound.refl s)).otp h
    · have hNone : (List.range (n + 1)).filter (fun k => otpCounter s ≤ k) = [] := by
        rw [List.filter_eq_nil_iff]
        intro k hk
        have := List.mem_range.1 hk
        simp only [decide_eq_true_eq]
        omega
      unfold stepsBlown
      rw [hNone]
      change n + 1 ≤ otpCounter s
      omega

/-- The counter's register shows at least the step to which it was advanced (R411, R449). -/
theorem le_rd_otpAdvance {s : State} (h : s.regsWf = true) (hFuses : s.otpWf = true) {c : Nat} (hc : c ≤ 128) :
    c ≤ rd SB_KEY_STATUS.OTP_COUNTER (otpAdvance c s) := by
  have hWf : (stepsBlown c s).regsWf = true := (each_sound _ (fun k v hv => otpBlowBit_sound _ _ hv) (Sound.refl s)).regs h
  rw [otpAdvance_eq, rd_wr_same hWf, Nat.mod_eq_of_lt (Nat.lt_of_le_of_lt (otpCounter_le _) (by decide))]
  exact le_otpCounter_stepsBlown hFuses hc

/-- The check of a key update admits no step beyond the last (R410). -/
theorem keyUpdateCheck_counter {m : List Byte} {r : Req} {s : State} {es : List KeyEntry} (h : keyUpdateCheck m r s = .ok es) :
    bits (wordN m 1) 16 8 ≤ 128 := by
  refine Classical.byContradiction fun hBig => ?_
  have hBeyond : 128 < bits (wordN m 1) 16 8 := Nat.lt_of_not_le hBig
  unfold keyUpdateCheck at h
  simp only [hBeyond, decide_true, Bool.or_true, if_true] at h
  split at h
  · cases h
  split at h
  · cases h
  split at h
  · cases h
  split at h
  · cases h
  split at h
  · cases h
  split at h
  · cases h
  · cases h

end Sys2Proof.Machine

/-! O45. Statements and key updates (R410, R411, R415). -/

namespace Sys2Proof.Machine

/-- What answers a command leaves of the units outside the mailboxes and the power state is what its work has left. -/
theorem Replied.out {k : Fin 6} {op : Nat} {r : Req} {c : Nat} {p : List Nat} {fs : List Fld} {s v t : State} (h : Replied k op r c p fs s v t) :
    t.out = v.out := by rw [h.rest]
theorem Replied.mp {k : Fin 6} {op : Nat} {r : Req} {c : Nat} {p : List Nat} {fs : List Fld} {s v t : State} (h : Replied k op r c p fs s v t) :
    t.mp = v.mp := by rw [h.rest]
theorem Replied.ctx {k : Fin 6} {op : Nat} {r : Req} {c : Nat} {p : List Nat} {fs : List Fld} {s v t : State} (h : Replied k op r c p fs s v t) :
    t.ctx = v.ctx := by rw [h.rest]
theorem Replied.otp {k : Fin 6} {op : Nat} {r : Req} {c : Nat} {p : List Nat} {fs : List Fld} {s v t : State} (h : Replied k op r c p fs s v t) :
    t.otp = v.otp := by rw [h.rest]
theorem Replied.sb {k : Fin 6} {op : Nat} {r : Req} {c : Nat} {p : List Nat} {fs : List Fld} {s v t : State} (h : Replied k op r c p fs s v t) :
    t.sb = v.sb := by rw [h.rest]

theorem roomApart_nil : RoomApart [] := by decide

theorem sbRead_regs (r : Req) (want : Option Nat) (more : Nat) (s : State) : (sbRead r want more s).regs = s.regs := by
  have hPush (o : Own) : (ownPush o s).regs = s.regs := by unfold ownPush; split <;> rfl
  have hIf (c : Bool) : (if c = true then s else ownRead 1 0 15 (r.addr 1) (r.w 3 + more) s).regs = s.regs := by
    cases c with
    | true => rfl
    | false => exact hPush _
  exact hIf _

theorem domOn_congr {a b : State} (h : a.regs = b.regs) (d : Nat) : domOn d a = domOn d b := by
  unfold domOn rdB
  rw [rd_congr h]

theorem cx_congr {a b : State} {n : Ctx} (h : a.ctx = b.ctx) : cx n a = cx n b := by
  unfold cx
  rw [h]

theorem domOn_takeMsg {s : State} (h : s.regsWf = true) (k : Fin 6) : domOn 18 (takeMsg k s) = domOn 18 s := rdB_takeMsg h k (by decide)

/-- What a command reads through the ports after its message does not depend on that message. -/
theorem mp_sbRead_takeMsg {s : State} (h : s.regsWf = true) (k : Fin 6) (r : Req) (want : Option Nat) (more : Nat) :
    (sbRead r want more (takeMsg k s)).mp = (sbRead r want more s).mp :=
  mp_sbRead_congr r want more ((takeMsg_frame k s).mp rfl) (domOn_takeMsg h k)

theorem ctxOf_cid (n : Ctx) : ctxOf (cid n) = some n := by
  unfold ctxOf cid
  rw [dif_pos ⟨Nat.le_add_left 1 _, n.isLt⟩]
  rfl

/-- The block of an SB_ATTEST is well formed (R415). -/
structure AttestBlock (r : Req) (block : List Byte) : Prop where
  whole : sbBlock r (some 128) block = none
  magic : wordN block 0 = 0x31525441
  space : 1536 ≤ wordN block 4
  low : 8 ≤ bits (wordN block 5) 0 7
  high : bits (wordN block 5) 0 7 ≤ 64

/-- Where the statement goes (R415). -/
def attestOut (block : List Byte) : Nat := wordN block 2 + 2 ^ 32 * bits (wordN block 3) 0 16
/-- The nonce of an SB_ATTEST (R415). -/
def attestNonce (block : List Byte) : List Byte := slice block 64 (bits (wordN block 5) 0 7)
/-- The context takes the nonce. -/
def withNonce (l : List Byte) (c : CtxSt) : CtxSt := { c with ledger := { c.ledger with nonce := l } }

section
variable {ch : Fin 6} {r : Req} {block : List Byte} {s : State} (h : AttestBlock r block)
include h

theorem AttestBlock.contract (hCtx : bits (wordN block 1) 0 4 ≤ 8) : (wordN block 0 != 0x31525441 || decide (8 < bits (wordN block 1) 0 4) ||
    decide (wordN block 4 < 1536) || decide (bits (wordN block 5) 0 7 < 8) || decide (64 < bits (wordN block 5) 0 7)) = false := by
  obtain ⟨-, hMagic, hSpace, hLow, hHigh⟩ := h
  rw [hMagic, decide_eq_false (Nat.not_lt.2 hCtx), decide_eq_false (Nat.not_lt.2 hSpace), decide_eq_false (Nat.not_lt.2 hLow),
    decide_eq_false (Nat.not_lt.2 hHigh)]
  rfl

/-- A statement of the block (R415). -/
theorem sbAttest_block (hCtx : bits (wordN block 1) 0 4 = 0) (hFinal : bit (wordN block 1) 8 = false) :
    sbAttest ch block r s = reply ch r stOK [(statement none false (attestNonce block) (sbRead r (some 128) 0 s)).1.length]
      (writeClear (attestOut block) (statement none false (attestNonce block) (sbRead r (some 128) 0 s)).1
        (statement none false (attestNonce block) (sbRead r (some 128) 0 s)).2) := by
  have hGood := h.contract (by omega)
  have hNone : ctxOf (bits (wordN block 1) 0 4) = none := by rw [hCtx]; rfl
  unfold sbAttest
  simp only [h.whole, hGood, hNone, hFinal, Bool.false_eq_true, if_false]
  rfl

/-- The final checkpoint of a context that has ended (R420). -/
theorem sbAttest_final {n : Ctx} (hCtx : bits (wordN block 1) 0 4 = cid n) (hFinal : bit (wordN block 1) 8 = true)
    (hOpened : (cx n (sbRead r (some 128) 0 s)).ledger.opened = true)
    (hHeld : rdB (SB_LEDGER_STATE.FINAL_HELD (cid n)) (sbRead r (some 128) 0 s) = true) :
    sbAttest ch block r s = reply ch r stOK [(cx n (sbRead r (some 128) 0 s)).ledger.final.length]
      (writeClear (attestOut block) (cx n (sbRead r (some 128) 0 s)).ledger.final
        (modCx n (withNonce (attestNonce block)) (sbRead r (some 128) 0 s))) := by
  have hGood := h.contract (by rw [hCtx]; exact n.isLt)
  rw [hCtx] at hGood
  have hSome := ctxOf_cid n
  unfold sbAttest
  simp only [h.whole, hCtx, hGood, hSome, hFinal, hOpened, hHeld, Bool.not_true, Bool.and_false, Bool.or_false, Bool.false_eq_true, if_false, if_true]
  rfl

/-- A context that no ledger is open for has no statement (R415). -/
theorem sbAttest_closed {n : Ctx} (hCtx : bits (wordN block 1) 0 4 = cid n) (hClosed : (cx n (sbRead r (some 128) 0 s)).ledger.opened = false) :
    sbAttest ch block r s = reply ch r stBAD_STATE [] (sbRead r (some 128) 0 s) := by
  have hGood := h.contract (by rw [hCtx]; exact n.isLt)
  rw [hCtx] at hGood
  have hSome := ctxOf_cid n
  unfold sbAttest
  simp only [h.whole, hCtx, hGood, hSome, hClosed, Bool.not_false, Bool.true_or, Bool.false_eq_true, if_false, if_true]

end

theorem cx_sbRead (n : Ctx) (r : Req) (want : Option Nat) (more : Nat) (s : State) : cx n (sbRead r want more s) = cx n s :=
  ((Frame.refl { mp := true } (fun _ => true) s).sbRead rfl r want more).ctxs n rfl

section
variable {s : State} {r : Req} {block : List Byte} (hReq : s.sbRequest 2 0x84 7 r) (hRom : romServes s = false) (hBlock : AttestBlock r block)
include hReq hRom hBlock

theorem execSbAttest_block (hCtx : bits (wordN block 1) 0 4 = 0) (hFinal : bit (wordN block 1) 8 = false) (g : List Byte) (u : State)
    (hStated : statement none false (attestNonce block) (sbRead r (some 128) 0 (takeMsg 2 s)) = (g, u)) :
    ∃ t, execSbAttest 2 block s = .next t ∧ t.answers 2 0x84 r.seq stOK [g.length] ∧ t.mp = (writeClear (attestOut block) g u).mp ∧ t.out = s.out ∧
      s.keptMsg [] t := by
  have hRun : execSbAttest 2 block s = .next (reply 2 r stOK [g.length] (writeClear (attestOut block) g u)) := by
    rw [execSbAttest, serveSb_runs hReq hRom (by decide) (by decide), sbAttest_block hBlock hCtx hFinal, hStated]
  have hFrame : Frame { mp := true, freeN := true, pw := true } (evOr []) (takeMsg 2 s) (writeClear (attestOut block) g u) := by
    have hState := ((Frame.refl { mp := true, freeN := true, pw := true } (evOr []) (takeMsg 2 s)).sbRead rfl r (some 128) 0).statement rfl rfl
      (evIn_evOr _) none false (attestNonce block)
    rw [hStated] at hState
    exact hState.writeClear rfl _ _
  have hDone := hReq.1.replied hFrame rfl roomApart_nil stOK [g.length]
  exact ⟨_, hRun, hDone.answers, hDone.mp, hDone.out.trans ((hFrame.out rfl).trans ((takeMsg_frame 2 s).out rfl)), hDone.keptMsg⟩

theorem execSbAttest_final {n : Ctx} (hCtx : bits (wordN block 1) 0 4 = cid n) (hOpened : (cx n s).ledger.opened = true)
    (hFinal : bit (wordN block 1) 8 = true) (hHeld : rd (SB_LEDGER_STATE.FINAL_HELD (cid n)) s = 1) :
    ∃ t, execSbAttest 2 block s = .next t ∧ t.answers 2 0x84 r.seq stOK [(cx n s).ledger.final.length] ∧
      t.mp = (writeClear (attestOut block) (cx n s).ledger.final (sbRead r (some 128) 0 s)).mp ∧ t.out = s.out ∧
      (cx n t).ledger = { (cx n s).ledger with nonce := attestNonce block } ∧ s.keptMsg [] t := by
  have h := hReq.1.wf
  have hCx : cx n (sbRead r (some 128) 0 (takeMsg 2 s)) = cx n s := (cx_sbRead n _ _ _ _).trans (cx_takeMsg 2 n s)
  have hKeys : ∀ n : Ctx, msgKey (SB_LEDGER_STATE.FINAL_HELD (cid n)).key = false := by decide
  have hHeldNow : rdB (SB_LEDGER_STATE.FINAL_HELD (cid n)) (sbRead r (some 128) 0 (takeMsg 2 s)) = true := by
    rw [rdB, rd_congr (sbRead_regs _ _ _ _), rd_takeMsg h 2 (hKeys n), hHeld]
    rfl
  have hRun : execSbAttest 2 block s = .next (reply 2 r stOK [(cx n s).ledger.final.length] (writeClear (attestOut block) (cx n s).ledger.final
      (modCx n (withNonce (attestNonce block)) (sbRead r (some 128) 0 (takeMsg 2 s))))) := by
    rw [execSbAttest, serveSb_runs hReq hRom (by decide) (by decide), sbAttest_final hBlock hCtx hFinal (by rw [hCx]; exact hOpened) hHeldNow, hCx]
  have hMod := ((Frame.refl { mp := true, ctx := true, ctxs := fun _ => true } (evOr []) (takeMsg 2 s)).sbRead rfl r (some 128) 0).modCx rfl n rfl
    (withNonce (attestNonce block))
  have hFrame := hMod.writeClear rfl (attestOut block) (cx n s).ledger.final
  have hDone := hReq.1.replied hFrame rfl roomApart_nil stOK [(cx n s).ledger.final.length]
  refine ⟨_, hRun, hDone.answers, hDone.mp.trans ?_, hDone.out.trans ((hFrame.out rfl).trans ((takeMsg_frame 2 s).out rfl)), ?_, hDone.keptMsg⟩
  · have hOn : domOn 18 (sbRead r (some 128) 0 (takeMsg 2 s)) = domOn 18 (sbRead r (some 128) 0 s) := by
      rw [domOn_congr (sbRead_regs _ _ _ _), domOn_congr (sbRead_regs _ _ _ _), domOn_takeMsg h]
    exact mp_writeClear_congr (a := modCx n _ _) _ _ (mp_sbRead_takeMsg h 2 r _ _) hOn
  · have hCtxs : (writeClear (attestOut block) (cx n s).ledger.final (modCx n (withNonce (attestNonce block)) (sbRead r (some 128) 0 (takeMsg 2 s)))).ctx =
        (modCx n (withNonce (attestNonce block)) (sbRead r (some 128) 0 (takeMsg 2 s))).ctx :=
      ((Frame.refl { mp := true } (fun _ => true) _).writeClear rfl _ _).ctx rfl
    rw [cx_congr (hDone.ctx.trans hCtxs), modCx, cx_setCx, hCx]
    rfl

theorem execSbAttest_closed {n : Ctx} (hCtx : bits (wordN block 1) 0 4 = cid n) (hClosed : (cx n s).ledger.opened = false) :
    ∃ t, execSbAttest 2 block s = .next t ∧ t.answers 2 0x84 r.seq stBAD_STATE [] ∧ t.out = s.out ∧ t.ctx = s.ctx ∧ s.keptMsg [] t := by
  have hCx : cx n (sbRead r (some 128) 0 (takeMsg 2 s)) = cx n s := (cx_sbRead n _ _ _ _).trans (cx_takeMsg 2 n s)
  have hRun : execSbAttest 2 block s = .next (reply 2 r stBAD_STATE [] (sbRead r (some 128) 0 (takeMsg 2 s))) := by
    rw [execSbAttest, serveSb_runs hReq hRom (by decide) (by decide), sbAttest_closed hBlock hCtx (by rw [hCx]; exact hClosed)]
  have hFrame := (Frame.refl { mp := true } (evOr []) (takeMsg 2 s)).sbRead rfl r (some 128) 0
  have hDone := hReq.1.replied hFrame rfl roomApart_nil stBAD_STATE []
  exact ⟨_, hRun, hDone.answers, hDone.out.trans ((hFrame.out rfl).trans ((takeMsg_frame 2 s).out rfl)),
    hDone.ctx.trans ((hFrame.ctx rfl).trans ((takeMsg_frame 2 s).ctx rfl)), hDone.keptMsg⟩

end

end Sys2Proof.Machine

/-! O45. Key updates: their acceptance, their refusal, and the steps of one in progress (R410, R411, R455). -/

namespace Sys2Proof.Machine

theorem keyUpdate_busy {ch : Fin 6} {m : List Byte} {blows : Bool} {r : Req} {s : State} (hJob : s.sb.keyJob.isSome = true) :
    keyUpdate ch m blows r s = reply ch r stBUSY [] s := if_pos hJob

/-- A message whose checks fail is answered with their status; a refused owner key may raise OTP_ALARM again (R410, R452). -/
theorem keyUpdate_error {ch : Fin 6} {m : List Byte} {blows : Bool} {r : Req} {s : State} {e : Nat} (hJob : s.sb.keyJob = none)
    (hCheck : keyUpdateCheck m r (sbRead r none 128 s) = .error e) :
    ∃ b, keyUpdate ch m blows r s = reply ch r e [] (refuseOwner b (sbRead r none 128 s)) := by
  refine ⟨e == stREFUSED_STATE && (lifecycle (sbRead r none 128 s) == 3 || lifecycle (sbRead r none 128 s) == 7) && !unlocked (sbRead r none 128 s), ?_⟩
  unfold keyUpdate
  rw [if_neg (by simp [hJob])]
  dsimp only
  rw [hCheck]

/-- The job of an accepted message (R411). -/
def keyJobOf (ch : Fin 6) (m : List Byte) (blows : Bool) (r : Req) (es : List KeyEntry) (now : Nat) : KeyJob :=
  ⟨ch, r.seq, bits (wordN m 1) 16 8, blows, es.filter (fun e => e.region.isSome), es.filter (fun e => e.region.isNone),
    wordN m 2 + 2 ^ 32 * bits (wordN m 3) 0 16, now⟩

/-- The counter has been advanced, and its event raised (R411). -/
def keyAccepted (m : List Byte) (s : State) : State := raise 94 (otpAdvance (bits (wordN m 1) 16 8) s)

theorem keyUpdate_ok {ch : Fin 6} {m : List Byte} {blows : Bool} {r : Req} {s : State} {es : List KeyEntry} (hJob : s.sb.keyJob = none)
    (hCheck : keyUpdateCheck m r (sbRead r none 128 s) = .ok es) : keyUpdate ch m blows r s =
      { keyAccepted m (sbRead r none 128 s) with
        sb := { (keyAccepted m (sbRead r none 128 s)).sb with keyJob := some (keyJobOf ch m blows r es (keyAccepted m (sbRead r none 128 s)).now) } } := by
  unfold keyUpdate
  rw [if_neg (by simp [hJob])]
  dsimp only
  rw [hCheck]
  rfl

section
variable {s : State} {r : Req} {block : BlockRead} {blows : Bool} (hReq : s.sbRequest 4 0x85 7 r) (hRom : romServes s = false)
include hReq hRom

theorem execKeyUpdate_error {e : Nat} (hJob : s.sb.keyJob = none) (hCheck : keyUpdateCheck block r (sbRead r none 128 (takeMsg 4 s)) = .error e) :
    ∃ t, execKeyUpdate 4 block blows s = .next t ∧ t.answers 4 0x85 r.seq e [] ∧ t.otp = s.otp ∧ t.out = s.out ∧ t.mp = (sbRead r none 128 s).mp ∧
      s.keptMsg [] t := by
  obtain ⟨b, hRefused⟩ := keyUpdate_error (ch := 4) (blows := blows) (by rw [sb_takeMsg]; exact hJob) hCheck
  have hRun : execKeyUpdate 4 block blows s = .next (reply 4 r e [] (refuseOwner b (sbRead r none 128 (takeMsg 4 s)))) := by
    rw [execKeyUpdate, serveSb_runs hReq hRom (by decide) (by decide), hRefused]
  have hRefuse := (Frame.refl { pw := true } (evOr []) (sbRead r none 128 (takeMsg 4 s))).refuseOwner rfl (evIn_evOr _) b
  have hFrame := ((Frame.refl { mp := true, pw := true } (evOr []) (takeMsg 4 s)).sbRead rfl r none 128).refuseOwner rfl (evIn_evOr _) b
  have hDone := hReq.1.replied hFrame rfl roomApart_nil e []
  exact ⟨_, hRun, hDone.answers, hDone.otp.trans ((hFrame.otp rfl).trans ((takeMsg_frame 4 s).otp rfl)),
    hDone.out.trans ((hFrame.out rfl).trans ((takeMsg_frame 4 s).out rfl)),
    hDone.mp.trans ((hRefuse.mp rfl).trans (mp_sbRead_takeMsg hReq.1.wf 4 r none 128)), hDone.keptMsg⟩

theorem execKeyUpdate_busy (hJob : s.sb.keyJob.isSome = true) :
    ∃ t, execKeyUpdate 4 block blows s = .next t ∧ t.answers 4 0x85 r.seq stBUSY [] ∧ t.sb = s.sb ∧ t.otp = s.otp ∧ t.mp = s.mp ∧ s.keptMsg [] t := by
  have hRun : execKeyUpdate 4 block blows s = .next (reply 4 r stBUSY [] (takeMsg 4 s)) := by
    rw [execKeyUpdate, serveSb_runs hReq hRom (by decide) (by decide), keyUpdate_busy (by rw [sb_takeMsg]; exact hJob)]
  have hDone := hReq.1.turnedAway stBUSY
  exact ⟨_, hRun, hDone.answers, by rw [hDone.rest], by rw [hDone.rest], by rw [hDone.rest], hDone.keptMsg⟩

theorem execKeyUpdate_ok {es : List KeyEntry} (hJob : s.sb.keyJob = none) (hFuses : s.otpWf = true)
    (hCheck : keyUpdateCheck block r (sbRead r none 128 (takeMsg 4 s)) = .ok es) :
    ∃ t, execKeyUpdate 4 block blows s = .next t ∧ bits (wordN block 1) 16 8 ≤ rd SB_KEY_STATUS.OTP_COUNTER t ∧ s.fusesLe t ∧ (chan 4 t).k2h = [] ∧
      (chan 4 t).msg = [] ∧ t.sb = { s.sb with keyJob := some (keyJobOf 4 block blows r es s.now) } ∧ t.out = s.out ∧
      t.mp = (sbRead r none 128 s).mp ∧ s.keptMsg [SB_KEY_STATUS.OTP_COUNTER] t := by
  have h := hReq.1.wf
  have hRead := (Frame.refl { mp := true } (evOr []) (takeMsg 4 s)).sbRead rfl r none 128
  have hTook := takeMsg_frame 4 s
  have hAdvance := ((Frame.refl { otp := true, pw := true } (evOr [SB_KEY_STATUS.OTP_COUNTER]) (sbRead r none 128 (takeMsg 4 s))).otpAdvance rfl
    (evOr_mem (List.mem_singleton_self _)) (bits (wordN block 1) 16 8)).raise rfl (evIn_evOr _) 94
  change Frame _ _ _ (keyAccepted block (sbRead r none 128 (takeMsg 4 s))) at hAdvance
  have hSb : (keyAccepted block (sbRead r none 128 (takeMsg 4 s))).sb = s.sb := (hAdvance.sb rfl).trans ((hRead.sb rfl).trans (hTook.sb rfl))
  have hNow : (keyAccepted block (sbRead r none 128 (takeMsg 4 s))).now = s.now := hAdvance.now.trans (hRead.now.trans hTook.now)
  have hMb : (keyAccepted block (sbRead r none 128 (takeMsg 4 s))).mb = (takeMsg 4 s).mb := (hAdvance.mb rfl).trans (hRead.mb rfl)
  have hChan : chan 4 (keyAccepted block (sbRead r none 128 (takeMsg 4 s))) = { chan 4 s with msg := [], readN := 0, fullClr := some s.now } := by
    rw [← chan_takeMsg]
    unfold chan
    rw [hMb]
  have hRun : execKeyUpdate 4 block blows s = .next { keyAccepted block (sbRead r none 128 (takeMsg 4 s)) with
      sb := { s.sb with keyJob := some (keyJobOf 4 block blows r es s.now) } } := by
    rw [execKeyUpdate, serveSb_runs hReq hRom (by decide) (by decide), keyUpdate_ok (by rw [sb_takeMsg]; exact hJob) hCheck, hSb, hNow]
  have wfRead : (sbRead r none 128 (takeMsg 4 s)).regsWf = true := hRead.wf (hTook.wf h)
  have hOtp : (sbRead r none 128 (takeMsg 4 s)).otp = s.otp := (hRead.otp rfl).trans (hTook.otp rfl)
  have hFusesRead : (sbRead r none 128 (takeMsg 4 s)).otpWf = true := by
    unfold State.otpWf at hFuses ⊢
    rw [hOtp]
    exact hFuses
  have hRaise := raise_heard 94 (Heard.refl (otpAdvance (bits (wordN block 1) 16 8) (sbRead r none 128 (takeMsg 4 s))))
  have hBlown := otpAdvance_sound (bits (wordN block 1) 16 8) (Sound.refl (sbRead r none 128 (takeMsg 4 s)))
  refine ⟨_, hRun, ?counter, ?fuses, ?sent, ?read, rfl, (hAdvance.out rfl).trans ((hRead.out rfl).trans (hTook.out rfl)),
    (hAdvance.mp rfl).trans (mp_sbRead_takeMsg h 4 r none 128), fun f hf hne => ?kept⟩
  case counter =>
    have hStill : rd SB_KEY_STATUS.OTP_COUNTER (keyAccepted block (sbRead r none 128 (takeMsg 4 s))) =
        rd SB_KEY_STATUS.OTP_COUNTER (otpAdvance (bits (wordN block 1) 16 8) (sbRead r none 128 (takeMsg 4 s))) :=
      hRaise.regs (hBlown.regs wfRead) _ (by decide) (List.forall_mem_nil _)
    change _ ≤ rd SB_KEY_STATUS.OTP_COUNTER (keyAccepted block (sbRead r none 128 (takeMsg 4 s)))
    rw [hStill]
    exact le_rd_otpAdvance wfRead hFusesRead (keyUpdateCheck_counter hCheck)
  case fuses =>
    have hLe := hBlown.fuses hFusesRead
    have hLast : (keyAccepted block (sbRead r none 128 (takeMsg 4 s))).otp =
        (otpAdvance (bits (wordN block 1) 16 8) (sbRead r none 128 (takeMsg 4 s))).otp := by
      unfold keyAccepted
      rw [hRaise.rest]
    unfold State.fusesLe State.fuses at hLe ⊢
    rw [hOtp] at hLe
    rw [hLast]
    exact hLe
  case sent =>
    obtain ⟨-, hFree, -⟩ := hReq.1.room
    simp only [k2hFree, Bool.and_eq_true, List.isEmpty_iff] at hFree
    change (chan 4 (keyAccepted block (sbRead r none 128 (takeMsg 4 s)))).k2h = []
    rw [hChan]
    exact hFree.1
  case read =>
    change (chan 4 (keyAccepted block (sbRead r none 128 (takeMsg 4 s)))).msg = []
    rw [hChan]
  case kept =>
    have hEv : evKey f.key = false := by
      simp only [msgKey, Bool.or_eq_false_iff] at hf
      exact hf.1.1
    have hLater := hAdvance.keptEv wfRead f hEv hne
    exact hLater.trans ((rd_congr (sbRead_regs _ _ _ _) f).trans (rd_takeMsg h 4 hf))

end

/-- A step of a KEY_UPDATE that has lasted 600 ms is not put off (R411). -/
theorem paced_due {at_ limit : Nat} {s : State} (h : at_ + limit ≤ s.now) : paced at_ limit s = (true, (free s).2) := by
  unfold paced
  dsimp only
  rw [decide_eq_true (show at_ + limit ≤ s.now + 20 by omega), Bool.or_true]

section
variable {s : State} {j : KeyJob} (hJob : s.sb.keyJob = some j) (hReset : s.pw.reset = none) (hDue : j.at_ + ms 600 ≤ s.now)
include hJob hReset hDue

/-- The next region is programmed (R411). -/
theorem keyCycle_programs {e : KeyEntry} {es : List KeyEntry} (hTodo : j.todo = e :: es) (hOk : (programRegion e j.blows (free s).2).1 = true) :
    keyCycle s = { (programRegion e j.blows (free s).2).2 with
      sb := { (programRegion e j.blows (free s).2).2.sb with keyJob := some { j with todo := es } } } := by
  unfold keyCycle
  simp only [hJob, hReset, Option.isSome_none, paced_due hDue, hTodo, hOk, Bool.not_true, Bool.false_eq_true, if_false, if_true]

/-- A region whose lock is refused ends the update (R411). -/
theorem keyCycle_refused {e : KeyEntry} {es : List KeyEntry} (hTodo : j.todo = e :: es) (hNo : (programRegion e j.blows (free s).2).1 = false) :
    keyCycle s = keyAnswer j stNO_RESOURCE [] (programRegion e j.blows (free s).2).2 := by
  unfold keyCycle
  simp only [hJob, hReset, Option.isSome_none, paced_due hDue, hTodo, hNo, Bool.not_true, Bool.false_eq_true, if_false]

/-- The items of the update (R405, R408). -/
def keyItems (j : KeyJob) (s : State) : List Byte := j.items.flatMap (fun e => keyEntryItem e j.counter s)

/-- After the last region the items are written (R411). -/
def keyWritten (j : KeyJob) (s : State) : State := if (keyItems j s).isEmpty then (free s).2 else writeClear j.out (keyItems j s) (free s).2

theorem keyCycle_ends (hTodo : j.todo = []) :
    keyCycle s = keyAnswer j stOK [rd SB_KEY_STATUS.OTP_COUNTER (keyWritten j s), (keyItems j s).length] (keyWritten j s) := by
  unfold keyCycle
  simp only [hJob, hReset, Option.isSome_none, paced_due hDue, hTodo, Bool.not_true, Bool.false_eq_true, if_false]
  rfl

end

theorem keyAnswer_told (j : KeyJob) (status : Nat) (p : List Nat) (s : State) :
    Told { s with sb := { s.sb with keyJob := none } } (keyAnswer j status p s) := answer_told _ _ _ _ _ _ (Told.refl _)

/-- The answer of a KEY_UPDATE goes out where it has room, and ends the job (R411). -/
theorem keyAnswer_answers {j : KeyJob} {s : State} (h : s.room j.ch) (status : Nat) (p : List Nat) :
    (keyAnswer j status p s).answers j.ch 0x85 j.seq status p ∧ (keyAnswer j status p s).sb.keyJob = none := by
  have hRoom : ({ s with sb := { s.sb with keyJob := none } } : State).room j.ch := h
  refine ⟨answers_answer hRoom false 0x85 j.seq status p, ?_⟩
  rw [(keyAnswer_told j status p s).rest]

/-- The clauses about a KEY_UPDATE in progress whose 600 ms are over (R411). -/
theorem keyCycle_due {s : State} {j : KeyJob} (hJob : s.sb.keyJob = some j) (hReset : s.pw.reset = none) (hDue : j.at_ + ms 600 ≤ s.now) :
    (∀ e es p, j.todo = e :: es → programRegion e j.blows { s with freeN := s.freeN + 1 } = p → p.1 = true →
      keyCycle s = { p.2 with sb := { p.2.sb with keyJob := some { j with todo := es } } }) ∧
    (∀ e es p, s.room j.ch → j.todo = e :: es → programRegion e j.blows { s with freeN := s.freeN + 1 } = p → p.1 = false →
      (keyCycle s).answers j.ch 0x85 j.seq stNO_RESOURCE [] ∧ (keyCycle s).sb.keyJob = none ∧ (keyCycle s).out = s.out ∧ (keyCycle s).otp = p.2.otp) ∧
    (∀ items : List Byte, s.room j.ch → j.todo = [] → items = j.items.flatMap (fun e => keyEntryItem e j.counter s) →
      (keyCycle s).answers j.ch 0x85 j.seq stOK [rd SB_KEY_STATUS.OTP_COUNTER s, items.length] ∧ (keyCycle s).sb.keyJob = none ∧
        (keyCycle s).mp = (if items = [] then s.mp else (writeClear j.out items s).mp) ∧ s.keptMsg [] (keyCycle s)) := by
  refine ⟨fun e es p hTodo hP hOk => ?next, fun e es p hRoom hTodo hP hNo => ?refused, fun items hRoom hTodo hItems => ?ends⟩
  case next =>
    subst hP
    exact keyCycle_programs hJob hReset hDue hTodo hOk
  case refused =>
    subst hP
    have hFrame := ((Frame.refl { freeN := true, otp := true } (evOr []) s).free rfl).programRegion rfl rfl e j.blows
    rw [keyCycle_refused hJob hReset hDue hTodo hNo]
    obtain ⟨hAnswers, hEnded⟩ := keyAnswer_answers (hRoom.of_frame hFrame rfl roomApart_nil) stNO_RESOURCE []
    have hTold := keyAnswer_told j stNO_RESOURCE [] (programRegion e j.blows (free s).2).2
    exact ⟨hAnswers, hEnded, (show _ from by rw [hTold.rest]; exact hFrame.out rfl), by rw [hTold.rest]; rfl⟩
  case ends =>
    have hWritten : Frame { freeN := true, mp := true } (evOr []) s (keyWritten j s) := by
      have hFree := (Frame.refl { freeN := true, mp := true } (evOr []) s).free rfl
      exact .ite hFree (hFree.writeClear rfl _ _)
    have hSame : keyItems j s = items := hItems.symm
    have hRegs : (keyWritten j s).regs = s.regs := by
      have hPush (o : Own) (v : State) : (ownPush o v).regs = v.regs := by unfold ownPush; split <;> rfl
      unfold keyWritten
      split
      · rfl
      · exact hPush _ _
    rw [keyCycle_ends hJob hReset hDue hTodo, hSame, rd_congr hRegs]
    obtain ⟨hAnswers, hEnded⟩ := keyAnswer_answers (hRoom.of_frame hWritten rfl roomApart_nil) stOK [rd SB_KEY_STATUS.OTP_COUNTER s, items.length]
    have hTold := keyAnswer_told j stOK [rd SB_KEY_STATUS.OTP_COUNTER s, items.length] (keyWritten j s)
    have hMp : (keyWritten j s).mp = if items = [] then s.mp else (writeClear j.out items s).mp := by
      unfold keyWritten
      rw [hSame]
      cases items with
      | nil => rfl
      | cons b l => exact mp_writeClear_congr (a := (free s).2) j.out (b :: l) rfl rfl
    refine ⟨hAnswers, hEnded, ?_, fun f hf hne => ?_⟩
    · rw [← hMp, hTold.rest]
    · exact (hTold.regs (hWritten.wf hRoom.1) f hf hne).trans (rd_congr hRegs f)

end Sys2Proof.Machine

/-! O45. Working keys and the bounce key (R404, R406, R412, R422), and the assembly of O45. -/

namespace Sys2Proof.Machine

/-- The item of a slot is checked against the ladder's keys and the counter (R405, R406). -/
theorem keyItem_congr {a b : State} (hSb : a.sb = b.sb) (hCounter : rd SB_KEY_STATUS.OTP_COUNTER a = rd SB_KEY_STATUS.OTP_COUNTER b) (m : List Byte) :
    keyItem m a = keyItem m b := by
  unfold keyItem kek bundleMac
  rw [hSb, hCounter]

/-- An item of a generation that is not higher is ignored and counted (R422). -/
theorem loadItem_stale {kind usage id gen : Nat} {key : List Byte} {k : WorkKey} {s : State}
    (hHeld : s.sb.keys.find? (fun k => k.kind == kind && k.keyId == id) = some k) (hOld : gen ≤ k.gen) :
    loadItem (kind, usage, id, gen, key) s = (some k.slot, inc SB_KEY_STATUS.STALE s) := by
  unfold loadItem
  simp only [hHeld, hOld, if_true]

/-- An item of a higher generation takes its slot (R422). -/
theorem loadItem_newer {kind usage id gen : Nat} {key : List Byte} {k : WorkKey} {s : State}
    (hHeld : s.sb.keys.find? (fun k => k.kind == kind && k.keyId == id) = some k) (hNew : k.gen < gen) :
    loadItem (kind, usage, id, gen, key) s =
      (some k.slot, { s with sb := { s.sb with keys := ⟨k.slot, kind, usage, id, gen, key⟩ :: s.sb.keys.filter (fun y => y.slot != k.slot) } }) := by
  unfold loadItem
  simp only [hHeld, Nat.not_le.2 hNew, if_false]

/-- The slots in use. -/
theorem any_slot_iff {l : List WorkKey} {i : Nat} : l.any (fun k => k.slot == i) = true ↔ ∃ k ∈ l, k.slot = i := by
  simp only [List.any_eq_true, beq_iff_eq]

/-- A new item takes the lowest free slot (R404). -/
theorem loadItem_free {kind usage id gen i : Nat} {key : List Byte} {s : State}
    (hNone : s.sb.keys.find? (fun k => k.kind == kind && k.keyId == id) = none) (hi : i < 16) (hFree : ∀ k ∈ s.sb.keys, k.slot ≠ i)
    (hBelow : ∀ j, j < i → ∃ k ∈ s.sb.keys, k.slot = j) :
    loadItem (kind, usage, id, gen, key) s =
      (some i, inc SB_KEY_STATUS.WORK_SLOTS { s with sb := { s.sb with keys := ⟨i, kind, usage, id, gen, key⟩ :: s.sb.keys } }) := by
  have hFind : (List.range 16).find? (fun i => !s.sb.keys.any (fun k => k.slot == i)) = some i := by
    refine List.find?_range_eq_some.2 ⟨?_, List.mem_range.2 hi, fun j hj => ?_⟩
    · rw [Bool.not_eq_true', Bool.eq_false_iff, Ne, any_slot_iff]
      exact fun ⟨k, hk, hSlot⟩ => hFree k hk hSlot
    · rw [Bool.not_not, any_slot_iff]
      exact hBelow j hj
  unfold loadItem
  simp only [hNone, hFind]

/-- A new item finds no slot (R404). -/
theorem loadItem_full {x : Nat × Nat × Nat × Nat × List Byte} {s : State}
    (hNone : s.sb.keys.find? (fun k => k.kind == x.1 && k.keyId == x.2.2.1) = none) (hFull : ∀ j, j < 16 → ∃ k ∈ s.sb.keys, k.slot = j) :
    loadItem x s = (none, s) := by
  have hFind : (List.range 16).find? (fun i => !s.sb.keys.any (fun k => k.slot == i)) = none := by
    refine List.find?_eq_none.2 fun j hj => ?_
    rw [Bool.not_eq_true, Bool.not_eq_false', any_slot_iff]
    exact hFull j (List.mem_range.1 hj)
  unfold loadItem
  simp only [hNone, hFind]

section
variable {ch : Fin 6} {r : Req} {block : List Byte} {s : State} (hWhole : sbBlock r (some 160) block = none)
include hWhole

theorem keyLoad_bad (hItem : keyItem block (sbRead r (some 160) 0 s) = none) : keyLoad ch block r s = reply ch r stAUTH_FAIL [] (sbRead r (some 160) 0 s) := by
  unfold keyLoad
  simp only [hWhole, hItem]

/-- A key that was loaded is to be read back (R482). -/
theorem keyLoad_loaded {x : Nat × Nat × Nat × Nat × List Byte} {i : Nat} {t : State} (hItem : keyItem block (sbRead r (some 160) 0 s) = some x)
    (hLoad : loadItem x (sbRead r (some 160) 0 s) = (some i, t)) : keyLoad ch block r s = reply ch r stOK [i] { t with sb := { t.sb with keyCheck := true } } := by
  unfold keyLoad
  simp only [hWhole, hItem, hLoad]

theorem keyLoad_full {x : Nat × Nat × Nat × Nat × List Byte} {t : State} (hItem : keyItem block (sbRead r (some 160) 0 s) = some x)
    (hLoad : loadItem x (sbRead r (some 160) 0 s) = (none, t)) : keyLoad ch block r s = reply ch r stNO_RESOURCE [] t := by
  unfold keyLoad
  simp only [hWhole, hItem, hLoad]

end

theorem sb_sbRead (r : Req) (want : Option Nat) (more : Nat) (s : State) : (sbRead r want more s).sb = s.sb :=
  ((Frame.refl { mp := true } (fun _ => true) s).sbRead rfl r want more).sb rfl

theorem roomApart_stale : RoomApart [SB_KEY_STATUS.STALE] := by decide
theorem roomApart_slots : RoomApart [SB_KEY_STATUS.WORK_SLOTS] := by decide

section
variable {s : State} {r : Req} {block : BlockRead} (hReq : s.sbRequest 4 0x86 7 r) (hRom : romServes s = false) (hWhole : sbBlock r (some 160) block = none)
include hReq hRom hWhole

omit hRom hWhole in
theorem keyItem_read : keyItem block (sbRead r (some 160) 0 (takeMsg 4 s)) = keyItem block s :=
  keyItem_congr ((sb_sbRead _ _ _ _).trans (sb_takeMsg 4 s)) ((rd_congr (sbRead_regs _ _ _ _) _).trans (rd_takeMsg hReq.1.wf 4 (by decide))) block

omit hRom hWhole in
theorem keys_read : (sbRead r (some 160) 0 (takeMsg 4 s)).sb.keys = s.sb.keys := by rw [sb_sbRead, sb_takeMsg]

/-- A KEY_LOAD runs on the state in which its message has been taken and its block read. -/
theorem execKeyLoad_runs : execKeyLoad 4 block s = .next (keyLoad 4 block r (takeMsg 4 s)) := by
  rw [execKeyLoad, serveSb_runs hReq hRom (by decide) (by decide)]

theorem execKeyLoad_bad (hItem : keyItem block s = none) :
    ∃ t, execKeyLoad 4 block s = .next t ∧ t.answers 4 0x86 r.seq stAUTH_FAIL [] ∧ t.sb = s.sb ∧ s.keptMsg [] t := by
  have hFrame := (Frame.refl { mp := true } (evOr []) (takeMsg 4 s)).sbRead rfl r (some 160) 0
  have hDone := hReq.1.replied hFrame rfl roomApart_nil stAUTH_FAIL []
  refine ⟨_, (execKeyLoad_runs hReq hRom hWhole).trans ?_, hDone.answers, hDone.sb.trans ((sb_sbRead _ _ _ _).trans (sb_takeMsg 4 s)), hDone.keptMsg⟩
  rw [keyLoad_bad hWhole (by rw [keyItem_read hReq]; exact hItem)]

/-- An item whose slot is in use (R406, R422). -/
theorem execKeyLoad_held {kind usage id gen : Nat} {key : List Byte} {k : WorkKey} (hItem : keyItem block s = some (kind, usage, id, gen, key))
    (hHeld : s.sb.keys.find? (fun k => k.kind == kind && k.keyId == id) = some k) :
    ∃ t, execKeyLoad 4 block s = .next t ∧ t.answers 4 0x86 r.seq stOK [k.slot] ∧ s.keptMsg [SB_KEY_STATUS.STALE] t ∧
      (gen ≤ k.gen → t.sb = { s.sb with keyCheck := true } ∧ rd SB_KEY_STATUS.STALE t = sat SB_KEY_STATUS.STALE (rd SB_KEY_STATUS.STALE s + 1)) ∧
      (k.gen < gen → t.sb = { s.sb with keyCheck := true, keys := ⟨k.slot, kind, usage, id, gen, key⟩ :: s.sb.keys.filter (fun y => y.slot != k.slot) } ∧
        rd SB_KEY_STATUS.STALE t = rd SB_KEY_STATUS.STALE s) := by
  have h := hReq.1.wf
  have hRead := (Frame.refl { mp := true, sb := true } (evOr [SB_KEY_STATUS.STALE]) (takeMsg 4 s)).sbRead rfl r (some 160) 0
  have hSb : (sbRead r (some 160) 0 (takeMsg 4 s)).sb = s.sb := (sb_sbRead _ _ _ _).trans (sb_takeMsg 4 s)
  have wfRead := hRead.wf ((takeMsg_frame 4 s).wf h)
  have hItemRead := (keyItem_read (block := block) hReq).trans hItem
  have hHeldRead := (congrArg (List.find? (fun k => k.kind == kind && k.keyId == id)) (keys_read hReq)).trans hHeld
  have hStale : rd SB_KEY_STATUS.STALE (sbRead r (some 160) 0 (takeMsg 4 s)) = rd SB_KEY_STATUS.STALE s :=
    (rd_congr (sbRead_regs _ _ _ _) _).trans (rd_takeMsg h 4 (by decide))
  rcases (Nat.lt_or_ge k.gen gen).symm with hOld | hNew
  · have hDone := hReq.1.replied ((hRead.inc SB_KEY_STATUS.STALE (evOr_mem (List.mem_singleton_self _))).sbUpd rfl
      { (sbRead r (some 160) 0 (takeMsg 4 s)).sb with keyCheck := true }) rfl roomApart_stale stOK [k.slot]
    refine ⟨_, (execKeyLoad_runs hReq hRom hWhole).trans ?_, hDone.answers, hDone.keptMsg, fun _ => ⟨hDone.sb.trans (by rw [← hSb]), ?_⟩,
      fun hLater => absurd hLater (Nat.not_lt.2 hOld)⟩
    · rw [keyLoad_loaded hWhole hItemRead (loadItem_stale hHeldRead hOld)]
      rfl
    · rw [hDone.regs _ (by decide), ← hStale]
      exact rd_inc_same wfRead _
  · have hDone := hReq.1.replied (hRead.sbUpd rfl { (sbRead r (some 160) 0 (takeMsg 4 s)).sb with
      keyCheck := true
      keys := ⟨k.slot, kind, usage, id, gen, key⟩ :: (sbRead r (some 160) 0 (takeMsg 4 s)).sb.keys.filter (fun y => y.slot != k.slot) })
      rfl roomApart_stale stOK [k.slot]
    refine ⟨_, (execKeyLoad_runs hReq hRom hWhole).trans ?_, hDone.answers, hDone.keptMsg, fun hEarlier => absurd hEarlier (Nat.not_le.2 hNew),
      fun _ => ⟨hDone.sb.trans (by rw [← hSb]), (hDone.regs _ (by decide)).trans hStale⟩⟩
    rw [keyLoad_loaded hWhole hItemRead (loadItem_newer hHeldRead hNew)]

/-- A new item takes the lowest free slot (R404, R406). -/
theorem execKeyLoad_free {kind usage id gen i : Nat} {key : List Byte} (hItem : keyItem block s = some (kind, usage, id, gen, key))
    (hNone : s.sb.keys.find? (fun k => k.kind == kind && k.keyId == id) = none) (hi : i < 16) (hFree : ∀ k ∈ s.sb.keys, k.slot ≠ i)
    (hBelow : ∀ j, j < i → ∃ k ∈ s.sb.keys, k.slot = j) :
    ∃ t, execKeyLoad 4 block s = .next t ∧ t.answers 4 0x86 r.seq stOK [i] ∧
      t.sb = { s.sb with keyCheck := true, keys := ⟨i, kind, usage, id, gen, key⟩ :: s.sb.keys } ∧
      rd SB_KEY_STATUS.WORK_SLOTS t = sat SB_KEY_STATUS.WORK_SLOTS (rd SB_KEY_STATUS.WORK_SLOTS s + 1) ∧ s.keptMsg [SB_KEY_STATUS.WORK_SLOTS] t := by
  have h := hReq.1.wf
  have hRead := (Frame.refl { mp := true, sb := true } (evOr [SB_KEY_STATUS.WORK_SLOTS]) (takeMsg 4 s)).sbRead rfl r (some 160) 0
  have hSb : (sbRead r (some 160) 0 (takeMsg 4 s)).sb = s.sb := (sb_sbRead _ _ _ _).trans (sb_takeMsg 4 s)
  have wfRead := hRead.wf ((takeMsg_frame 4 s).wf h)
  have hKeys := keys_read (r := r) hReq
  have hLoad := loadItem_free (usage := usage) (gen := gen) (key := key) (s := sbRead r (some 160) 0 (takeMsg 4 s)) (i := i) (kind := kind) (id := id)
    (by rw [hKeys]; exact hNone) hi (by rw [hKeys]; exact hFree) (by rw [hKeys]; exact hBelow)
  have hSlots : rd SB_KEY_STATUS.WORK_SLOTS (sbRead r (some 160) 0 (takeMsg 4 s)) = rd SB_KEY_STATUS.WORK_SLOTS s :=
    (rd_congr (sbRead_regs _ _ _ _) _).trans (rd_takeMsg h 4 (by decide))
  have hDone := hReq.1.replied ((hRead.inc SB_KEY_STATUS.WORK_SLOTS (evOr_mem (List.mem_singleton_self _))).sbUpd rfl
    { (sbRead r (some 160) 0 (takeMsg 4 s)).sb with
      keyCheck := true
      keys := ⟨i, kind, usage, id, gen, key⟩ :: (sbRead r (some 160) 0 (takeMsg 4 s)).sb.keys }) rfl roomApart_slots stOK [i]
  refine ⟨_, (execKeyLoad_runs hReq hRom hWhole).trans ?_, hDone.answers, hDone.sb.trans (by rw [← hSb]), ?_, hDone.keptMsg⟩
  · rw [keyLoad_loaded hWhole ((keyItem_read hReq).trans hItem) hLoad]
    rfl
  · rw [hDone.regs _ (by decide), ← hSlots]
    exact rd_inc_same wfRead _

theorem execKeyLoad_full {x : Nat × Nat × Nat × Nat × List Byte} (hItem : keyItem block s = some x)
    (hNone : s.sb.keys.find? (fun k => k.kind == x.1 && k.keyId == x.2.2.1) = none) (hFull : ∀ j, j < 16 → ∃ k ∈ s.sb.keys, k.slot = j) :
    ∃ t, execKeyLoad 4 block s = .next t ∧ t.answers 4 0x86 r.seq stNO_RESOURCE [] ∧ t.sb = s.sb ∧ s.keptMsg [] t := by
  have hKeys := keys_read (r := r) hReq
  have hFrame := (Frame.refl { mp := true } (evOr []) (takeMsg 4 s)).sbRead rfl r (some 160) 0
  have hDone := hReq.1.replied hFrame rfl roomApart_nil stNO_RESOURCE []
  refine ⟨_, (execKeyLoad_runs hReq hRom hWhole).trans ?_, hDone.answers, hDone.sb.trans ((sb_sbRead _ _ _ _).trans (sb_takeMsg 4 s)), hDone.keptMsg⟩
  rw [keyLoad_full hWhole ((keyItem_read hReq).trans hItem) (loadItem_full (by rw [hKeys]; exact hNone) (by rw [hKeys]; exact hFull))]

end

/-- The key has been sent (R412). -/
def bounceSent (c : CtxSt) : CtxSt := { c with bounce := { c.bounce with keySent := true } }

theorem bounceKey_sends {ch : Fin 6} {r : Req} {s : State} {n : Ctx} {k : List Byte} (hCtx : ctxOf (bits (r.w 1) 0 4) = some n) (hLive : ctxLive n s = true)
    (hConf : rdB (GL_CTX_STATUS.CONFIDENTIAL (cid n)) s = true) (hNew : (cx n s).bounce.keySent = false) (hKey : workKey 1 2 (r.w 2) s = some k) :
    bounceKey ch r s = reply ch r stOK [] (modCx n bounceSent (writeClear (r.addr 3) (kwpWrap k (cx n s).bounce.key) s)) := by
  unfold bounceKey
  simp only [hCtx, hLive, hConf, hNew, hKey, Bool.not_true, Bool.or_self, Bool.false_eq_true, if_false]
  rfl

theorem bounceKey_again {ch : Fin 6} {r : Req} {s : State} {n : Ctx} (hCtx : ctxOf (bits (r.w 1) 0 4) = some n) (hSent : (cx n s).bounce.keySent = true) :
    bounceKey ch r s = reply ch r stBAD_STATE [] s := by
  unfold bounceKey
  simp only [hCtx, hSent, Bool.or_true, if_true]

section
variable {s : State} {r : Req} {n : Ctx} (hReq : s.sbRequest 4 0x87 4 r) (hRom : romServes s = false) (hCtx : ctxOf (bits (r.w 1) 0 4) = some n)
include hReq hRom hCtx

theorem execBounceKey_sends {k : List Byte} (hLive : ctxLive n s = true) (hConf : rd (GL_CTX_STATUS.CONFIDENTIAL (cid n)) s = 1)
    (hNew : (cx n s).bounce.keySent = false) (hKey : workKey 1 2 (r.w 2) s = some k) :
    ∃ t, execBounceKey 4 s = .next t ∧ t.answers 4 0x87 r.seq stOK [] ∧ t.mp = (writeClear (r.addr 3) (kwpWrap k (cx n s).bounce.key) s).mp ∧
      t.out = s.out ∧ cx n t = { cx n s with bounce := { (cx n s).bounce with keySent := true } } ∧ (∀ m, m ≠ n → cx m t = cx m s) ∧ s.keptMsg [] t := by
  have h := hReq.1.wf
  have hKeys : ∀ n : Ctx, msgKey (GL_CTX_STATUS.STATE (cid n)).key = false ∧ msgKey (GL_CTX_STATUS.CONFIDENTIAL (cid n)).key = false := by decide
  obtain ⟨hState, hSecret⟩ := hKeys n
  have hCx := cx_takeMsg 4 n s
  have hLiveNow : ctxLive n (takeMsg 4 s) = true := by
    unfold ctxLive cxState at hLive ⊢
    rw [rd_takeMsg h 4 hState]
    exact hLive
  have hConfNow : rdB (GL_CTX_STATUS.CONFIDENTIAL (cid n)) (takeMsg 4 s) = true := by
    rw [rdB, rd_takeMsg h 4 hSecret, hConf]
    rfl
  have hKeyNow : workKey 1 2 (r.w 2) (takeMsg 4 s) = some k := by
    unfold workKey at hKey ⊢
    rw [sb_takeMsg]
    exact hKey
  have hRun : execBounceKey 4 s = .next (reply 4 r stOK [] (modCx n bounceSent (writeClear (r.addr 3) (kwpWrap k (cx n s).bounce.key) (takeMsg 4 s)))) := by
    rw [execBounceKey, serveSb_runs hReq hRom (by decide) (by decide), bounceKey_sends hCtx hLiveNow hConfNow (by rw [hCx]; exact hNew) hKeyNow, hCx]
  have hWrite := (Frame.refl { mp := true, ctx := true, ctxs := fun m => m == n } (evOr []) (takeMsg 4 s)).writeClear rfl (r.addr 3)
    (kwpWrap k (cx n s).bounce.key)
  have hFrame := hWrite.modCx rfl n (beq_self_eq_true n) bounceSent
  have hDone := hReq.1.replied hFrame rfl roomApart_nil stOK []
  have hWritten : cx n (writeClear (r.addr 3) (kwpWrap k (cx n s).bounce.key) (takeMsg 4 s)) = cx n s :=
    (((Frame.refl { mp := true } (fun _ => true) (takeMsg 4 s)).writeClear rfl _ _).ctxs n rfl).trans hCx
  refine ⟨_, hRun, hDone.answers, hDone.mp.trans (mp_writeClear_congr _ _ ((takeMsg_frame 4 s).mp rfl) (domOn_takeMsg h 4)),
    hDone.out.trans ((hFrame.out rfl).trans ((takeMsg_frame 4 s).out rfl)), ?_, fun m hm => ?_, hDone.keptMsg⟩
  · rw [cx_congr hDone.ctx, modCx, cx_setCx, hWritten]
    rfl
  · rw [cx_congr hDone.ctx, hFrame.ctxs m (beq_eq_false_iff_ne.2 hm), cx_takeMsg]

theorem execBounceKey_again (hSent : (cx n s).bounce.keySent = true) :
    ∃ t, execBounceKey 4 s = .next t ∧ t.answers 4 0x87 r.seq stBAD_STATE [] ∧ t.out = s.out ∧ t.ctx = s.ctx ∧ s.keptMsg [] t := by
  have hRun : execBounceKey 4 s = .next (reply 4 r stBAD_STATE [] (takeMsg 4 s)) := by
    rw [execBounceKey, serveSb_runs hReq hRom (by decide) (by decide), bounceKey_again hCtx (by rw [cx_takeMsg]; exact hSent)]
  have hDone := hReq.1.turnedAway stBAD_STATE
  exact ⟨_, hRun, hDone.answers, by rw [hDone.rest], by rw [hDone.rest], hDone.keptMsg⟩

end

/-- Settles O45, command by command: each reads its message, does its work on the ports, the fuses or its keys, and answers. -/
theorem strongboxKeyCommandsAreAnswered : Obligations.StrongboxKeyCommandsAreAnswered := by
  unfold Obligations.StrongboxKeyCommandsAreAnswered
  intro s r block blows hRom
  refine ⟨fun hReq hWhole hMagic hSpace hLow hHigh => ⟨fun hCtx hFinal g u hStated => ?block, fun n hCtx hOpened hFinal hHeld => ?final,
      fun n hCtx hClosed => ?closed⟩,
    fun e hReq hJob hCheck => execKeyUpdate_error hReq hRom hJob hCheck, fun hReq hJob => execKeyUpdate_busy hReq hRom hJob,
    fun es hReq hJob hFuses hCheck => execKeyUpdate_ok hReq hRom hJob hFuses hCheck, fun j hJob hReset hDue => keyCycle_due hJob hReset hDue,
    fun hReq hWhole => ⟨execKeyLoad_bad hReq hRom hWhole, fun kind usage id gen key k => execKeyLoad_held hReq hRom hWhole,
      fun kind usage id gen key i => execKeyLoad_free hReq hRom hWhole, fun x => execKeyLoad_full hReq hRom hWhole⟩,
    fun n k hReq hCtx hLive hConf hNew hKey => execBounceKey_sends hReq hRom hCtx hLive hConf hNew hKey,
    fun n hReq hCtx hSent => execBounceKey_again hReq hRom hCtx hSent⟩
  case block => exact execSbAttest_block hReq hRom ⟨hWhole, hMagic, hSpace, hLow, hHigh⟩ hCtx hFinal g u hStated
  case final => exact execSbAttest_final hReq hRom ⟨hWhole, hMagic, hSpace, hLow, hHigh⟩ hCtx hOpened hFinal hHeld
  case closed => exact execSbAttest_closed hReq hRom ⟨hWhole, hMagic, hSpace, hLow, hHigh⟩ hCtx hClosed

end Sys2Proof.Machine
